-- ==== Sys2Proof/Word.lean ====
section
/-! DEFINITION. The plain data the model is built from: bytes and 32-bit words (R3, little-endian), sorted
key and value lists (registers, tables and memories that are sparse), and saturating counts. -/

namespace Sys2Proof

/-- One byte (R3). -/
abbrev Byte := BitVec 8
/-- One 32-bit register or Belion word (R7). -/
abbrev Word := BitVec 32
/-- A run of bytes, lowest address first. -/
abbrev Bytes := List (BitVec 8)

/-- Sparse data by key, held as pairs sorted by key. -/
abbrev Map (α : Type) := List (Nat × α)

/-- What key `k` holds; `d` where it is not listed. -/
def Map.get {α : Type} (d : α) : Map α → Nat → α
  | [], _ => d
  | (a, v) :: m, k => if a = k then v else Map.get d m k

/-- What key `k` holds, if it is listed. -/
def Map.get? {α : Type} : Map α → Nat → Option α
  | [], _ => none
  | (a, v) :: m, k => if a = k then some v else Map.get? m k

/-- Take key `k` out. -/
def Map.erase {α : Type} : Map α → Nat → Map α
  | [], _ => []
  | (a, v) :: m, k => if a = k then Map.erase m k else (a, v) :: Map.erase m k

/-- List `v` at key `k`, in key order, in place of what `k` held. -/
def Map.put {α : Type} : Map α → Nat → α → Map α
  | [], k, v => [(k, v)]
  | (a, w) :: m, k, v =>
    if k < a then (k, v) :: (a, w) :: m
    else if a = k then (k, v) :: m
    else (a, w) :: Map.put m k v

/-- Write `v` at key `k` where unlisted keys hold `d`: the canonical form lists no default. -/
def Map.set {α : Type} [DecidableEq α] (d : α) (m : Map α) (k : Nat) (v : α) : Map α :=
  if v = d then m.erase k else m.put k v

/-- Keys strictly rising. -/
def Map.sorted {α : Type} : Map α → Bool
  | [] => true
  | [_] => true
  | (a, _) :: (b, w) :: m => decide (a < b) && Map.sorted ((b, w) :: m)

/-- The canonical form: keys strictly rising and no entry equal to the default. -/
def Map.wf {α : Type} [DecidableEq α] (d : α) (m : Map α) : Bool :=
  m.sorted && m.all (fun p => decide (p.2 ≠ d))

/-- Change the entry at `k` by `f`. -/
def Map.upd {α : Type} [DecidableEq α] (d : α) (m : Map α) (k : Nat) (f : α → α) : Map α :=
  m.set d k (f (m.get d k))

/-- A memory of bytes: the pairs of Host.Cell in canonical form; an unlisted byte reads 0. -/
abbrev Memory := Map (BitVec 8)

/-- The canonical form of a memory. -/
def Memory.wf (m : Memory) : Bool := Map.wf (0 : BitVec 8) m

/-- The byte at address `a`. -/
def Memory.byte (m : Memory) (a : Nat) : Byte := Map.get 0 m a

/-- Store one byte. -/
def Memory.setByte (m : Memory) (a : Nat) (v : Byte) : Memory := Map.set 0 m a v

/-- `n` bytes from address `a`. -/
def Memory.bytes (m : Memory) (a : Nat) : Nat → Bytes
  | 0 => []
  | n + 1 => m.byte a :: Memory.bytes m (a + 1) n

/-- Store a run of bytes from address `a`. -/
def Memory.setBytes (m : Memory) (a : Nat) : Bytes → Memory
  | [] => m
  | b :: bs => Memory.setBytes (m.setByte a b) (a + 1) bs

/-- The number a run of bytes spells, little-endian (R3). -/
def leNat : Bytes → Nat
  | [] => 0
  | b :: bs => b.toNat + 256 * leNat bs

/-- The `n` little-endian bytes of a number (R3). -/
def natLe : Nat → Nat → Bytes
  | 0, _ => []
  | n + 1, v => BitVec.ofNat 8 v :: natLe n (v / 256)

/-- `n` bytes, as many as given, then zeros. -/
def padTo (n : Nat) (bs : Bytes) : Bytes := (bs ++ List.replicate (n - bs.length) 0).take n

/-- `n` bytes from place `i`, zeros past the end. -/
def slice (bs : Bytes) (i n : Nat) : Bytes := padTo n ((bs.drop i).take n)

/-- The little-endian number at place `i`, `n` bytes wide. -/
def leAt (bs : Bytes) (i n : Nat) : Nat := leNat (slice bs i n)

/-- Put bytes `new` over `bs` from place `i`. -/
def overlay (bs : Bytes) (i : Nat) (new : Bytes) : Bytes :=
  padTo i bs ++ new ++ bs.drop (i + new.length)

/-- Bits [hi:lo] of a number. -/
def bits (v hi lo : Nat) : Nat := (v / 2 ^ lo) % 2 ^ (hi + 1 - lo)

/-- Bit `i` of a number. -/
def bit (v i : Nat) : Bool := (v / 2 ^ i) % 2 = 1

/-- 1 for true, 0 for false. -/
def b2n (b : Bool) : Nat := if b then 1 else 0

/-- A count that stops at `top`. -/
def satAdd (top v n : Nat) : Nat := min top (v + n)

/-- A bit set as a number with bit `i` set to `b`. -/
def withBit (v i : Nat) (b : Bool) : Nat :=
  if b then (if bit v i then v else v + 2 ^ i) else (if bit v i then v - 2 ^ i else v)

/-- Whole units of `u` that hold `n`: n / u rounded up. -/
def ceilDiv (n u : Nat) : Nat := (n + u - 1) / u

/-- The places of a list from `i` on whose element meets `p`. -/
def placesOf {α : Type} (p : α → Bool) : Nat → List α → List Nat
  | _, [] => []
  | i, a :: as => if p a then i :: placesOf p (i + 1) as else placesOf p (i + 1) as

end Sys2Proof
end

