-- ==== Sys2Proof/Machine/Crc.lean ====
section
/-! DEFINITION. CRC-32C (reflected polynomial 0x82F6_3B78), as CRCW, event records, headers and frames use it. -/

namespace Sys2Proof.Machine

/-- One bit of the reflected CRC-32C. -/
def crcBit (c : Word) : Word :=
  if c.getLsbD 0 then (c >>> 1) ^^^ 0x82F63B78#32 else c >>> 1

/-- Advance a running CRC-32C by one byte, without initial or final inversion. -/
def crcByte (c : Word) (b : Byte) : Word :=
  crcBit (crcBit (crcBit (crcBit (crcBit (crcBit (crcBit (crcBit (c ^^^ b.setWidth 32))))))))

/-- Advance a running CRC-32C by a run of bytes. -/
def crcRun (c : Word) : Bytes → Word
  | [] => c
  | b :: bs => crcRun (crcByte c b) bs

/-- CRC-32C of a run of bytes, starting from 0xFFFF_FFFF, result inverted (R500). -/
def crc32c (bs : Bytes) : Word := ~~~ (crcRun 0xFFFFFFFF#32 bs)

end Sys2Proof.Machine
end

