-- ==== Sys2Proof/Syntax.lean ====
section
/-! DEFINITION. The commands of the block: one constructor of `Instr` per row of spec/opcode_table.json, in the
table's order, with the operands the row's rule names and the facts that only the world outside the device can
supply (a pin's level, a measured value, the data a host read returned). -/

namespace Sys2Proof

/-- The register access paths of R10 and R522. -/
inductive Path | pcie | keystone
  deriving DecidableEq, Repr

/-- The width of one register access in bytes (R7). -/
inductive Size | b1 | b2 | b4
  deriving DecidableEq, Repr

/-- The 64-bit values read through an L64 low half (R10; 25_register_address_map.md, At a glance). -/
inductive L64 | up | cal | opt | screeSeq | chal
  deriving DecidableEq, Repr

/-- How a read of host memory ended (R21, R190, R191). -/
inductive ReadEnd
  | data (bytes : Bytes)
  | unsupported
  | poisoned
  | timedOut
  deriving DecidableEq, Repr

/-- The rails of 04_supply_rails_and_reservoir.md. -/
inductive Rail | vmid | v3v3 | vcore | vddq | vppOut | fvccOut | vccqOut
  deriving DecidableEq, Repr

/-- The two power-fail warning inputs (R95). -/
inductive PfwCh | a | b
  deriving DecidableEq, Repr

/-- The straps sampled when the logic die leaves reset (R59, R118) and the RECOVERY_n level the ROM samples. -/
structure Straps where
  fbclkLvds : Bool
  testEn : Bool
  recoveryLow : Bool
  deriving DecidableEq, Repr

/-- What became of one drain step's flash work (R101, R102). -/
structure DrainWork where
  /-- staging units whose program failed and whose one relocation failed too (loss cause 4), by unit number -/
  failed : List Nat
  /-- time since FREEZE in units of 10 µs -/
  elapsed : BitVec 16
  deriving DecidableEq, Repr

/-- The TAP instructions of 03_balls_and_signals.md. -/
inductive JtagInstr | bypass | idcode | sample | extest | clamp | highz | qkchal | qkresp | qkdebug
  deriving DecidableEq, Repr

/-- The PCIe errors of R190. -/
inductive PcieError
  | correctable | poisonedWrite | poisonedCompletion | completionTimeout | unexpected | unsupported | fatal
  deriving DecidableEq, Repr

/-- What a device read of host memory was for (R191): a slot fetch, an index-block read, a table entry, or command data. -/
inductive ReadFor | fetch | index | table | transfer
  deriving DecidableEq, Repr

/-- How the data stage of a command went: the segment list and the data read from the host, or a fault of R411. -/
inductive Xfer
  /-- every descriptor ended without fault: the segment list bytes (DKIND 3) and the data from the host -/
  | done (segs data : Bytes)
  /-- the descriptors are issued and end by DESCRIPTOR_END and DESCRIPTOR_TIMEOUT commands -/
  | issued (segs : Bytes)
  /-- a descriptor ended in fault: its place in the transfer and the code of R411 -/
  | faulted (offset : BitVec 22) (code : BitVec 3)
  deriving DecidableEq, Repr

/-- How the data stage of an administrative command went: the segment list bytes (DKIND 3) and the data from the host, or
a fault of R411. -/
inductive AdmXfer
  | done (segs data : Bytes)
  | faulted (offset : BitVec 22) (code : BitVec 3)
  deriving DecidableEq, Repr

/-- What the flash reported on one place of a READ: a hard retry that decoded, with the page type recalibrated and the index
kept (R336, R337), soft decode, reconstruction, no decode at all, or an uncorrectable map segment in DRAM (R314). -/
inductive Media
  | retry (page : Fin 3) (index : Fin 16)
  | soft
  | rebuilt
  | failed
  | segment
  deriving DecidableEq, Repr

/-- What the DRAM controller met at an address: an ACT of its row, a corrected error, an uncorrectable error with its
consumer by the row of R400's table, or a first write of its region. -/
inductive DramFact
  | activation (addr : BitVec 34)
  | corrected (addr : BitVec 34)
  | uncorrectable (addr : BitVec 34) (consumer : Fin 6)
  | write (addr : BitVec 34)
  deriving DecidableEq, Repr

/-- What else is true of a frame's arrival at a port: it lost its arbitration against a timer of R442, and the bytes its priority
then holds in the receive buffer (R456). -/
structure Arrival where
  late : Bool
  fill : BitVec 18
  deriving DecidableEq, Repr

/-- What the check bits of an engine's memories showed (R143): nothing, an error corrected, or one that is not corrected (a data
word, or a parity error at fetch). -/
inductive MemCheck | clean | corrected | bad
  deriving DecidableEq, Repr

/-- What the reads of a slot's two copies showed (R378, R549): the primary and the mirror readable, and both the same. -/
structure Copies where
  primary : Bool
  mirror : Bool
  same : Bool
  deriving DecidableEq, Repr

/-- What the Keystone ROM finds at a start (R35, R130, R313, R372, R376, R378): crystal ticks within 100 ms, a calibration row whose
magic and CRC hold, a boot LUN that answers, the readable copies of the two slots, a readable configuration area, a checkpoint
or journal; and the time from VIN first exceeding 4.3 V to the release of a cold start, in µs (R120). -/
structure RomFacts where
  crystal : Bool
  calRow : Bool
  lunAnswers : Bool
  g0 : Copies
  g1 : Copies
  config : Bool
  journal : Bool
  riseUs : BitVec 16
  deriving DecidableEq, Repr

/-- How a piece of a self-test ended (R282, R284, R285): its step goes on; a page was read in step 11, which may have needed soft
decode; it was the last of its step; or it found a unit faulty, by the number of the unit, region, engine, channel, LUN or test. -/
inductive Piece
  | goes
  | page (lun : Fin 128) (block : BitVec 16) (soft : Bool)
  | last
  | faulty (unit : BitVec 32)
  deriving DecidableEq, Repr

/-- The commands. -/
inductive Instr
  /-- REGISTER_WRITE (R12): A BAR0 or Keystone-window write to a register that has no row of its own, applied by its
    change class or dropped as reserved or static. -/
  | registerWrite (p : Path) (offset : BitVec 20) (value : Word) (size : Size)
  /-- L64_LOW_READ (R10): A read of an L64 low half returns it and latches the high half into the path's holding
    register. -/
  | l64LowRead (p : Path) (which : L64)
  /-- READ_CLEAR (R9): A read of an RC field returns its value and clears it. -/
  | readClear (p : Path) (offset : BitVec 20) (size : Size)
  /-- TABLE_SYNC (R17): A write to GLB_TABLE_SYNC requests a copy and check of one instance-table entry, or is dropped
    while BUSY. -/
  | tableSync (p : Path) (table : BitVec 3) (index : BitVec 8)
  /-- TABLE_SYNC_DONE (R18): The entry copy ends; the entry is accepted for its boundary or rejected, and BUSY clears.
    -/
  | tableSyncDone
  /-- SYNC_HOLD_TIMEOUT (R21): A host-memory sync read held by Bus Master Enable 0 for 10 ms is rejected. -/
  | syncHoldTimeout
  /-- PACE_WINDOW_END (R29): At the end of each 64-tick window the VCORE loop evaluates the pace and may request a step.
    -/
  | paceWindowEnd (pace : BitVec 16)
  /-- VCORE_STEP_ACK (R30): Basalt reports the new VCORE code, acknowledging the last step request. -/
  | vcoreStepAck (code : Fin 31)
  /-- CRYSTAL_LOST (R35): 25 expected crystal ticks are missing; Lodestone moves to the ring oscillator and the device
    reports READY_DEGRADED. -/
  | crystalLost
  /-- NO_CRYSTAL_TIMEOUT (R35): No crystal tick within 100 ms of ROM start; event 0x8001 and the ROM stays without
    service. -/
  | noCrystalTimeout
  /-- POWER_ON (R70): VIN first exceeds 4.3 V, or VRES runs the input stage, and Basalt brings up the rails in order. -/
  | powerOn (vin vres : BitVec 16) (riset : BitVec 32) (vccq18 latch : Bool)
  /-- RAILS_GOOD (R70): All rails are good and the logic die leaves cold reset. -/
  | railsGood
  /-- LOGIC_DIE_RESET_RELEASE (R118): The logic die leaves reset, samples straps, clears SRAM and starts the Keystone
    ROM. -/
  | logicDieResetRelease (st : Straps) (rom : RomFacts)
  /-- RAIL_FAULT (R72): A rail stays out of tolerance for 10 µs; BASALT_ALERT rises and the rail's action follows. -/
  | railFault (r : Rail)
  /-- VIN_OVERVOLTAGE (R65): VIN rises above 42 V; the charger stops and event 0x0020 records peak and duration. -/
  | vinOvervoltage (peakMv durationUs : BitVec 32)
  /-- INPUT_STAGE_OFF (R105): Basalt's input stage stops as VIN and VRES fall, and the device becomes OFF. -/
  | inputStageOff
  /-- MEASUREMENT_DUE (R73): A reservoir measurement falls due at start, every 60 min, or after a retry or failure
    delay. -/
  | measurementDue
  /-- PWR_MEAS_NOW (R73): A write of 1 to PWR_MEAS_CTRL.NOW requests a measurement within 1 s. -/
  | pwrMeasNow
  /-- VRES_SET_STAGED (R88): A write to PWR_CHG_CTRL stages a new VRES_SET, lowers the ledger basis and requests a
    measurement. -/
  | vresSetStaged (p : Path) (value : Word)
  /-- MEASUREMENT_BEGIN (R74): After 10 ms of charger idle the measurement lowers the ledger limit to the dip basis. -/
  | measurementBegin
  /-- DIP_BASIS_REACHED (R74): Energy-at-risk falls to the dip basis; the charger stops and the ESR pulse and fall
    begin. -/
  | dipBasisReached
  /-- MEASUREMENT_ABANDONED (R75): The dip basis is not reached within 10 ms, or VIN is out of range; the attempt is
    abandoned and retried after 1 s. -/
  | measurementAbandoned
  /-- RESERVOIR_FALL_TIMED (R74): VRES has fallen 0.5 V; C, ESR and the new ledger limit are computed and event 0x0010
    recorded. -/
  | reservoirFallTimed (ticks : BitVec 32) (esr : BitVec 16)
  /-- RESERVOIR_CHARGE_TIMEOUT (R77): The reservoir has not reached VRES_SET − 0.25 V within 5 s of VMID good; the
    measurement fails. -/
  | reservoirChargeTimeout
  /-- VRES_SAMPLE (R78): Live VRES is sampled every 64 ticks and the usable energy and limit recomputed. -/
  | vresSample (vres vin : BitVec 16)
  /-- VRES_LOW (R79): Live VRES stays 1.0 V below VRES_SET for 100 ms; event 0x0016. -/
  | vresLow
  /-- JUNCTION_SENSOR_READ (R593): The junction sensor is read every 1 ms, updating band, retention row and DRAM delay
    choice. -/
  | junctionSensorRead (t : Int)
  /-- SUPPLY_COLLAPSE (R92): VIN falls below the collapse threshold and Basalt raises FREEZE. -/
  | supplyCollapse (vin : BitVec 16)
  /-- PFW_CHANNEL_CHANGE (R96): A PFW input holds its new level for 50 µs and the channel's warning state changes,
    moving the PFW state machine. -/
  | pfwChannelChange (ch : PfwCh) (on : Bool)
  /-- PFW_DISCREPANCY_EXPIRY (R98): D expires with one channel warning; discrepancy fault, PFW DISARMED, device back in
    service. -/
  | pfwDiscrepancyExpiry
  /-- PFW_REARM (R98): Both channels idle for D while DISARMED; PFW returns to ARMED. -/
  | pfwRearm
  /-- DRAIN_STEP_DONE (R101): A drain step's flash work completes and the next drain step starts, ending in SAFE. -/
  | drainStepDone (work : DrainWork)
  /-- DRAIN_CUT_SHORT (R104): VRES reaches the floor before the drain seal; the drain stops at the next status and SAFE
    is entered. -/
  | drainCutShort (reached : List Nat)
  /-- SAFE_RESTART (R105): VIN has been in range above the threshold for 100 ms with no PFW warning; Basalt restarts
    from VMID. -/
  | safeRestart
  /-- RESET_N_ACCEPTED (R116): RESET_n stays low past its filter; FREEZE, drain from the live supply, and the logic die
    enters reset. -/
  | resetNAccepted
  /-- RESET_N_RELEASE (R115): RESET_n goes high and the warm start begins. -/
  | resetNRelease
  /-- RESTART_REQUEST (R116): A write of 1 to GLB_CTRL.RESTART drains and restarts the logic die. -/
  | restartRequest (p : Path)
  /-- START_TIMEOUT (R126): READY is not reached within 30 s of reset release; a failed start is handled. -/
  | startTimeout
  /-- WATCHDOG_EXPIRY (R165): The Keystone watchdog expires in ROM or STARTING, counting a failed start. -/
  | watchdogExpiry
  /-- WATCHDOG_HALF (R165): Half the watchdog time remains and E7 is raised on Keystone. -/
  | watchdogHalf
  /-- FAILED_COUNT_CLEAR (R125): After 60 s in READY without interruption F is set to 0 in latch and boot record. -/
  | failedCountClear
  /-- GLB_START_WRITE (R124): A write of 0 to GLB_START.FAILS clears F in latch and boot record; other values are
    dropped. -/
  | glbStartWrite (p : Path) (value : Word)
  /-- BOOT_LUN_TIMEOUT (R130): No boot LUN gives ready status within 10 ms of the ROM's RESET; the ROM stays without
    service. -/
  | bootLunTimeout
  /-- CONFIG_RETRY_LIMIT (R122): 1 s after PE_PERST_n deassertion configuration retry status ends and the ROM answers
    from its fixed space. -/
  | configRetryLimit
  /-- JTAG_INSTRUCTION (R62): An instruction loaded into the TAP acts, or decodes as BYPASS while RESET_n is high or
    without the maker role. -/
  | jtagInstruction (ir : JtagInstr)
  /-- ADD (R146): kd = ka + kb. -/
  | add (e : Fin 10) (kd ka kb : BitVec 4) (f : Bool)
  /-- ADC (R146): kd = ka + kb + C. -/
  | adc (e : Fin 10) (kd ka kb : BitVec 4) (f : Bool)
  /-- SUB (R146): kd = ka − kb. -/
  | sub (e : Fin 10) (kd ka kb : BitVec 4) (f : Bool)
  /-- SBC (R146): kd = ka − kb − (1 − C). -/
  | sbc (e : Fin 10) (kd ka kb : BitVec 4) (f : Bool)
  /-- AND (R146): kd = ka AND kb. -/
  | and (e : Fin 10) (kd ka kb : BitVec 4) (f : Bool)
  /-- OR (R146): kd = ka OR kb. -/
  | or (e : Fin 10) (kd ka kb : BitVec 4) (f : Bool)
  /-- XOR (R146): kd = ka XOR kb. -/
  | xor (e : Fin 10) (kd ka kb : BitVec 4) (f : Bool)
  /-- ANDN (R146): kd = ka AND NOT kb. -/
  | andn (e : Fin 10) (kd ka kb : BitVec 4) (f : Bool)
  /-- SHL (R146): kd = ka shifted left by kb[4:0]. -/
  | shl (e : Fin 10) (kd ka kb : BitVec 4) (f : Bool)
  /-- SHR (R146): kd = ka shifted right by kb[4:0], zeros in. -/
  | shr (e : Fin 10) (kd ka kb : BitVec 4) (f : Bool)
  /-- SAR (R146): kd = ka shifted right by kb[4:0], sign in. -/
  | sar (e : Fin 10) (kd ka kb : BitVec 4) (f : Bool)
  /-- ROR (R146): kd = ka rotated right by kb[4:0]. -/
  | ror (e : Fin 10) (kd ka kb : BitVec 4) (f : Bool)
  /-- MUL (R146): kd = low 32 bits of ka × kb. -/
  | mul (e : Fin 10) (kd ka kb : BitVec 4) (f : Bool)
  /-- MULHU (R146): kd = high 32 bits of unsigned ka × kb. -/
  | mulhu (e : Fin 10) (kd ka kb : BitVec 4) (f : Bool)
  /-- MINU (R146): kd = unsigned lesser of ka and kb. -/
  | minu (e : Fin 10) (kd ka kb : BitVec 4) (f : Bool)
  /-- MAXU (R146): kd = unsigned greater of ka and kb. -/
  | maxu (e : Fin 10) (kd ka kb : BitVec 4) (f : Bool)
  /-- CMP (R146): Sets Z N C V from ka − kb. -/
  | cmp (e : Fin 10) (ka kb : BitVec 4) (f : Bool)
  /-- TST (R146): Sets Z N from ka AND kb. -/
  | tst (e : Fin 10) (ka kb : BitVec 4) (f : Bool)
  /-- CLZ (R146): kd = leading zeros of ka. -/
  | clz (e : Fin 10) (kd ka : BitVec 4) (f : Bool)
  /-- POPC (R146): kd = count of 1 bits in ka. -/
  | popc (e : Fin 10) (kd ka : BitVec 4) (f : Bool)
  /-- BSWAP (R146): kd = ka with byte order reversed. -/
  | bswap (e : Fin 10) (kd ka : BitVec 4) (f : Bool)
  /-- CRCW (R146): kd = CRC-32C of running value ka advanced by the 4 bytes of kb. -/
  | crcw (e : Fin 10) (kd ka kb : BitVec 4) (f : Bool)
  /-- ADDI (R146): kd = ka + simm. -/
  | addi (e : Fin 10) (kd ka : BitVec 4) (f : Bool) (imm : BitVec 16)
  /-- ANDI (R146): kd = ka AND uimm. -/
  | andi (e : Fin 10) (kd ka : BitVec 4) (f : Bool) (imm : BitVec 16)
  /-- ORI (R146): kd = ka OR uimm. -/
  | ori (e : Fin 10) (kd ka : BitVec 4) (f : Bool) (imm : BitVec 16)
  /-- XORI (R146): kd = ka XOR uimm. -/
  | xori (e : Fin 10) (kd ka : BitVec 4) (f : Bool) (imm : BitVec 16)
  /-- CMPI (R146): Sets Z N C V from ka − simm. -/
  | cmpi (e : Fin 10) (ka : BitVec 4) (f : Bool) (imm : BitVec 16)
  /-- SHLI (R146): kd = ka shifted left by imm[4:0]. -/
  | shli (e : Fin 10) (kd ka : BitVec 4) (f : Bool) (n : BitVec 5)
  /-- SHRI (R146): kd = ka shifted right by imm[4:0], zeros in. -/
  | shri (e : Fin 10) (kd ka : BitVec 4) (f : Bool) (n : BitVec 5)
  /-- SARI (R146): kd = ka shifted right by imm[4:0], sign in. -/
  | sari (e : Fin 10) (kd ka : BitVec 4) (f : Bool) (n : BitVec 5)
  /-- LUI (R146): kd = imm << 16. -/
  | lui (e : Fin 10) (kd : BitVec 4) (imm : BitVec 16)
  /-- LDW (R147): Loads a word from ka + simm. -/
  | ldw (e : Fin 10) (kd ka : BitVec 4) (imm : BitVec 16) (chk : MemCheck)
  /-- LDH (R147): Loads a zero-extended halfword from ka + simm. -/
  | ldh (e : Fin 10) (kd ka : BitVec 4) (imm : BitVec 16) (chk : MemCheck)
  /-- LDB (R147): Loads a zero-extended byte from ka + simm. -/
  | ldb (e : Fin 10) (kd ka : BitVec 4) (imm : BitVec 16) (chk : MemCheck)
  /-- STW (R147): Stores kd as a word at ka + simm. -/
  | stw (e : Fin 10) (kd ka : BitVec 4) (imm : BitVec 16) (chk : MemCheck)
  /-- STH (R147): Stores kd[15:0] at ka + simm. -/
  | sth (e : Fin 10) (kd ka : BitVec 4) (imm : BitVec 16) (chk : MemCheck)
  /-- STB (R147): Stores kd[7:0] at ka + simm. -/
  | stb (e : Fin 10) (kd ka : BitVec 4) (imm : BitVec 16) (chk : MemCheck)
  /-- SWP (R148): Exchanges kd with a data word atomically. -/
  | swp (e : Fin 10) (kd ka : BitVec 4) (imm : BitVec 16) (chk : MemCheck)
  /-- B_COND (R146): Branches to the format C target when the condition holds. -/
  | bCond (e : Fin 10) (cond : BitVec 4) (off : BitVec 22)
  /-- CALL_COND (R146): When the condition holds, saves the return address in k15 and branches. -/
  | callCond (e : Fin 10) (cond : BitVec 4) (off : BitVec 22)
  /-- JR (R149): Jumps to ka + simm. -/
  | jr (e : Fin 10) (ka : BitVec 4) (imm : BitVec 16)
  /-- JALR (R149): Writes the return address to kd and jumps to ka + simm. -/
  | jalr (e : Fin 10) (kd ka : BitVec 4) (imm : BitVec 16)
  /-- WAIT (R150): Starts a wait for masked event flags with an optional tick limit, returning at once if a flag is set.
    -/
  | wait (e : Fin 10) (kd ka : BitVec 4) (f : Bool) (mask : BitVec 16)
  /-- WAIT_END (R151): A masked flag is raised or the WAIT limit expires; one arbiter decides and the WAIT returns. -/
  | waitEnd (e : Fin 10) (expired : Bool)
  /-- SEV (R146): Raises the software event flags named in imm. -/
  | sev (e : Fin 10) (hi : BitVec 8)
  /-- ECLR (R140): Returns and clears the masked event flags in one step. -/
  | eclr (e : Fin 10) (kd : BitVec 4) (imm : BitVec 16)
  /-- EGET (R146): Returns the masked event flags without clearing them. -/
  | eget (e : Fin 10) (kd : BitVec 4) (imm : BitVec 16)
  /-- MBDB (R225): Sets device-to-host doorbell bits and may send the mailbox vector. -/
  | mbdb (e : Fin 10) (ka : BitVec 4)
  /-- MBACK (R224): Clears host-to-device doorbell bits and returns those cleared. -/
  | mback (e : Fin 10) (kd ka : BitVec 4) (f : Bool)
  /-- MBRD (R146): Reads a word of a host-to-device slot. -/
  | mbrd (e : Fin 10) (kd ka kb : BitVec 4)
  /-- MBWR (R146): Writes a word of a device-to-host slot. -/
  | mbwr (e : Fin 10) (kd ka kb : BitVec 4)
  /-- MBSEND (R227): Posts a device-to-host slot, or reports it still full. -/
  | mbsend (e : Fin 10) (kd ka : BitVec 4) (f : Bool)
  /-- MBFREE (R229): Releases a host-to-device slot. -/
  | mbfree (e : Fin 10) (ka : BitVec 4)
  /-- MBSTAT (R230): Returns slot fullness and timeout flags. -/
  | mbstat (e : Fin 10) (kd : BitVec 4)
  /-- TLD (R152): Reads a word of a cached instance-table entry. -/
  | tld (e : Fin 10) (kd ka kb : BitVec 4)
  /-- TWR (R152): Writes a word of a stored table 2 or 3 entry. -/
  | twr (e : Fin 10) (kd ka kb : BitVec 4)
  /-- TSYNC (R152): Requests a sync of a table entry, or reports it dropped. -/
  | tsync (e : Fin 10) (kd ka : BitVec 4) (f : Bool)
  /-- TIMEL (R153): Reads the uptime low half and latches the high half for this engine. -/
  | timel (e : Fin 10) (kd ka kb : BitVec 4)
  /-- TIMEH (R153): Reads the latched uptime high half. -/
  | timeh (e : Fin 10) (kd ka kb : BitVec 4)
  /-- CLKL (R153): Reads the calendar low half and latches the high half. -/
  | clkl (e : Fin 10) (kd ka kb : BitVec 4)
  /-- CLKH (R153): Reads the latched calendar high half. -/
  | clkh (e : Fin 10) (kd ka kb : BitVec 4)
  /-- NOP (R146): Does nothing. -/
  | nop (e : Fin 10)
  /-- FENCE (R146): Waits until earlier register-window stores of this engine have completed. -/
  | fence (e : Fin 10) (kd ka kb : BitVec 4)
  /-- CESEL (R156): Selects one chip enable of the channel. -/
  | cesel (e : Fin 10) (ka : BitVec 4) (operand : BitVec 12)
  /-- CMD (R156): Issues one flash command cycle. -/
  | cmd (e : Fin 10) (ka : BitVec 4) (operand : BitVec 12)
  /-- ADDR (R156): Issues 1 to 4 flash address cycles. -/
  | addr (e : Fin 10) (ka : BitVec 4) (n : BitVec 3)
  /-- DOUT (R157): Starts sending codewords through the LDPC encoder. -/
  | dout (e : Fin 10) (ka : BitVec 4)
  /-- DIN (R157): Starts reading codewords through the LDPC decoder in a hard or soft pass. -/
  | din (e : Fin 10) (ka : BitVec 4) (operand : BitVec 12)
  /-- BUS_TRANSFER_END (R157): A DOUT or DIN transfer ends and E3 is raised. -/
  | busTransferEnd (ch : Fin 8) (result : BitVec 24) (iface : Bool)
  /-- BRES (R156): Returns the result of the last DIN. -/
  | bres (e : Fin 10) (kd ka : BitVec 4)
  /-- DOUTM (R156): Sends bytes from data memory without ECC. -/
  | doutm (e : Fin 10) (ka : BitVec 4) (operand : BitVec 12)
  /-- DINM (R156): Reads bytes into data memory without ECC. -/
  | dinm (e : Fin 10) (ka : BitVec 4) (operand : BitVec 12) (data : Bytes)
  /-- RDB (R156): Reads one data byte from the bus. -/
  | rdb (e : Fin 10) (kd : BitVec 4) (byte : BitVec 8)
  /-- BDLY (R156): Holds the bus idle for a given time. -/
  | bdly (e : Fin 10) (kd ka : BitVec 4) (operand : BitVec 12)
  /-- WPSET (R156): Drives Fn_WP_n. -/
  | wpset (e : Fin 10) (kd ka : BitVec 4) (operand : BitVec 12)
  /-- BMODE (R156): Switches the channel interface mode and timing mode. -/
  | bmode (e : Fin 10) (kd ka : BitVec 4) (operand : BitVec 12)
  /-- OPGET (R159): Takes the next queued flash operation and clears E2. -/
  | opget (e : Fin 10) (kd ka : BitVec 4) (operand : BitVec 12)
  /-- OPDONE (R161): Reports a flash operation ended with its outcome; the die scheduler acts on it. -/
  | opdone (e : Fin 10) (ka : BitVec 4) (operand : BitVec 12)
  /-- VEIN_REPORT_TIMEOUT (R161): No report arrives within twice the busy bound plus 1 ms; the channel fails. -/
  | veinReportTimeout (ch : Fin 8)
  /-- HALT (R156): Stops the supervisor program without a fault. -/
  | halt (e : Fin 10) (kd ka : BitVec 4) (operand : BitVec 12)
  /-- WDKICK (R165): Restarts the watchdog. -/
  | wdkick (e : Fin 10)
  /-- VLOAD (R164): Loads a Vein section after the checks of R167. -/
  | vload (e : Fin 10) (kd ka : BitVec 4) (operand : BitVec 12)
  /-- HLOAD (R164): Loads a hook section after its checks. -/
  | hload (e : Fin 10) (kd ka : BitVec 4) (operand : BitVec 12)
  /-- IMGCHK (R156): Has the security unit check an image in staging. -/
  | imgchk (e : Fin 10) (kd ka : BitVec 4) (operand : BitVec 12)
  /-- SETSTATE (R163): Requests STARTING, READY or BEDROCK and the state move it allows. -/
  | setstate (e : Fin 10) (kd ka : BitVec 4) (operand : BitVec 12)
  /-- HEND (R173): Ends the running hook with a result code. -/
  | hend (e : Fin 10) (operand : BitVec 12)
  /-- CFIRE (R156): Fires a cairn as a hook trigger. -/
  | cfire (e : Fin 10) (kd ka : BitVec 4) (operand : BitVec 12)
  /-- GPOUT (R156): Drives GPIO outputs. -/
  | gpout (e : Fin 10) (kd ka : BitVec 4) (operand : BitVec 12)
  /-- GPIN (R156): Returns filtered GPIO levels. -/
  | gpin (e : Fin 10) (kd ka : BitVec 4) (operand : BitVec 12)
  /-- HLOG (R156): Records a hook log event. -/
  | hlog (e : Fin 10) (kd ka : BitVec 4) (operand : BitVec 12)
  /-- HOOK_TRIGGER (R172): A trigger event of an enabled hook entry queues a request or is merged. -/
  | hookTrigger (entry : Fin 16)
  /-- HOOK_START (R172): The sandbox is idle and the next queued hook starts with its registers set. -/
  | hookStart
  /-- HOOK_BUDGET_WARNING (R173): 75 % of a hook's budget is used and E7 is raised. -/
  | hookBudgetWarning
  /-- HOOK_BUDGET_EXPIRY (R173): A hook's budget expires and the hook is abandoned. -/
  | hookBudgetExpiry
  /-- DEBUG_STOP (R177): A write of BEL_DBG_CTRL.STOP stops the selected engine before its next instruction. -/
  | debugStop (p : Path) (eng : BitVec 4)
  /-- DEBUG_STEP (R176): A write of BEL_DBG_CTRL.STEP executes one instruction of a stopped engine. -/
  | debugStep (p : Path) (eng : BitVec 4) (stop : Bool) (chk : MemCheck) (bus : Bytes)
  /-- PERST_ASSERT (R192): PE_PERST_n asserts; the host-facing units reset and are held. -/
  | perstAssert
  /-- PERST_DEASSERT (R181): PE_PERST_n deasserts and the LTSSM enters Detect within 20 ms. -/
  | perstDeassert
  /-- HOT_RESET (R192): A hot reset or link down resets the host-facing units. -/
  | hotReset
  /-- FUNCTION_LEVEL_RESET (R192): An FLR resets the host-facing units and configuration space. -/
  | functionLevelReset
  /-- BUS_MASTER_ENABLE_CLEAR (R192): Bus Master Enable is cleared; host requests are held. -/
  | busMasterEnableClear
  /-- D3HOT_ENTRY (R189): The function enters D3hot; rings fetch and post nothing. -/
  | d3hotEntry
  /-- D0_RETURN (R189): The function returns to D0 and the rings resume. -/
  | d0Return
  /-- MSIX_UNMASK (R185): A vector mask is cleared and a pending message is sent. -/
  | msixUnmask (v : Option (Fin 16))
  /-- PCIE_ERROR_RECEIVED (R190): A link error or bad TLP is detected and handled by severity. -/
  | pcieErrorReceived (e : PcieError)
  /-- HOST_READ_COMPLETION (R191): A completion for a device read of host memory arrives. -/
  | hostReadCompletion (k : ReadFor) (n : Fin 8) (tag : BitVec 5) (off : BitVec 22) (e : ReadEnd)
  /-- COMPLETION_TIMEOUT (R191): A device read's completion timeout expires and the request is handled as timed out. -/
  | completionTimeout (k : ReadFor) (n : Fin 8) (tag : BitVec 5) (off : BitVec 22)
  /-- LINK_RETRAIN (R178): A write of HLK_CTRL.RETRAIN retrains the PCIe link. -/
  | linkRetrain
  /-- ASPM_L1_REQUEST (R187): After 64 µs without traffic the device requests ASPM L1 entry. -/
  | aspmL1Request
  /-- RING_ENABLE (R199): A write of 1 to HQ_RING_CTRL.EN enables a ring or is refused. -/
  | ringEnable (n : Fin 8)
  /-- RING_DISABLE (R222): A write of 0 to HQ_RING_CTRL.EN stops fetching and aborts unstarted commands. -/
  | ringDisable (n : Fin 8)
  /-- DB_TAIL (R202): A tail-carrying doorbell sets the SQ tail, with an optional push snapshot. -/
  | dbTail (n : Fin 8) (v : Word)
  /-- DB_BARE (R202): A bare doorbell makes the device read the index block. -/
  | dbBare (n : Fin 8)
  /-- DB_CQH (R206): A CQ head doorbell releases completion slots, letting waiting completions be written. -/
  | dbCqh (n : Fin 8) (v : Word)
  /-- PUSH_WINDOW_WRITE (R211): A write into a ring's push window adds entry bytes for the next pushed doorbell. -/
  | pushWindowWrite (n : Fin 8) (off : BitVec 12) (data : Bytes)
  /-- CHAIN_TIMEOUT (R216): CHAIN_TO passes without LAST and the chain completes with CHAIN_BROKEN. -/
  | chainTimeout (n : Fin 8)
  /-- MODERATION_TIMEOUT (R220): The oldest counted completion has waited MOD_TIME and the ring's vector is sent. -/
  | moderationTimeout (n : Fin 8)
  /-- MBX_H2D_SET (R224): A host write sets host-to-device doorbell bits and raises E1. -/
  | mbxH2dSet (b : Word)
  /-- MBX_D2H_CLEAR (R225): A host write of 1 to MBX_D2H_BITS clears device-to-host bits. -/
  | mbxD2hClear (b : Word)
  /-- H2D_SLOT_WRITE (R226): A host write fills bytes of a host-to-device slot, or is dropped if the slot is full. -/
  | h2dSlotWrite (slot : Fin 8) (off : BitVec 6) (data : Bytes)
  /-- H2D_POST (R226): A write of MBX_SLOT_CTRL.H2D_POST posts a host-to-device slot and raises E2. -/
  | h2dPost (set : BitVec 8)
  /-- D2H_FREE (R227): A write of MBX_SLOT_CTRL.D2H_FREE frees a device-to-host slot and raises E3. -/
  | d2hFree (set : BitVec 8)
  /-- MAILBOX_SLOT_TIMEOUT (R228): A full mailbox slot times out and is emptied. -/
  | mailboxSlotTimeout (toHost : Bool) (slot : Fin 8)
  /-- READ (R235): Transfers blocks of a volume into host memory. -/
  | read (n : Fin 8) (tag : BitVec 5) (x : Xfer) (media : List (Nat × Media))
  /-- WRITE (R237): Writes blocks from host memory to a volume. -/
  | write (n : Fin 8) (tag : BitVec 5) (x : Xfer)
  /-- WRITE_ATOMIC (R240): Writes up to 256 KiB as one atomic unit. -/
  | writeAtomic (n : Fin 8) (tag : BitVec 5) (x : Xfer)
  /-- APPEND (R243): Adds one record to a stream volume. -/
  | append (n : Fin 8) (tag : BitVec 5) (x : Xfer)
  /-- FLUSH (R248): Completes when all earlier staged units are durable. -/
  | flush (n : Fin 8) (tag : BitVec 5)
  /-- TRIM (R249): Unmaps a range of blocks. -/
  | trim (n : Fin 8) (tag : BitVec 5)
  /-- SEAL_STREAM (R250): Closes a stream to further appends. -/
  | sealStream (n : Fin 8) (tag : BitVec 5)
  /-- READ_STREAM (R247): Copies whole stream records into host memory. -/
  | readStream (n : Fin 8) (tag : BitVec 5) (x : Xfer) (media : List (Nat × Media))
  /-- PIN_BY_SEQUENCE (R251): Pins a span of stream records by sequence number. -/
  | pinBySequence (n : Fin 8) (tag : BitVec 5)
  /-- PIN_BY_TIME (R251): Pins the records accepted in the last T ms. -/
  | pinByTime (n : Fin 8) (tag : BitVec 5)
  /-- PIN_RELEASE (R251): Removes a pin by handle. -/
  | pinRelease (n : Fin 8) (tag : BitVec 5)
  /-- BUDGET_WINDOW_END (R254): A cycle budget window ends and counting restarts. -/
  | budgetWindowEnd
  /-- IDENTIFY (R274): Returns 4096 bytes of identity and state. -/
  | identify (n : Fin 8) (tag : BitVec 5) (x : AdmXfer)
  /-- VOLUME_CREATE (R292): Creates a volume. -/
  | volumeCreate (n : Fin 8) (tag : BitVec 5)
  /-- VOLUME_DELETE (R293): Deletes a volume. -/
  | volumeDelete (n : Fin 8) (tag : BitVec 5)
  /-- VOLUME_QUERY (R318): Returns 256 bytes describing a volume. -/
  | volumeQuery (n : Fin 8) (tag : BitVec 5) (x : AdmXfer)
  /-- LOG_READ (R276): Returns a log page, optionally clearing counters. -/
  | logRead (n : Fin 8) (tag : BitVec 5) (gone : List (BitVec 16)) (x : AdmXfer)
  /-- IMAGE_WRITE (R553): Writes image chunks, optionally opening a session with BEGIN. -/
  | imageWrite (n : Fin 8) (tag : BitVec 5) (x : AdmXfer)
  /-- IMAGE_COMMIT (R555): Verifies both image copies and swaps the Geode slot. -/
  | imageCommit (n : Fin 8) (tag : BitVec 5) (copies : Copies)
  /-- IMAGE_CONFIRM (R559): Confirms the running trial image and raises the floor. -/
  | imageConfirm (n : Fin 8) (tag : BitVec 5)
  /-- SELF_TEST_SHORT (R284): Starts the short self-test. -/
  | selfTestShort (n : Fin 8) (tag : BitVec 5)
  /-- SELF_TEST_EXTENDED (R285): Starts the extended self-test. -/
  | selfTestExtended (n : Fin 8) (tag : BitVec 5)
  /-- SELF_TEST_STOP (R286): Stops a running self-test at its next piece boundary. -/
  | selfTestStop (n : Fin 8) (tag : BitVec 5)
  /-- SELF_TEST_PIECE_DONE (R282): A self-test piece ends and the test yields or continues to its next piece or step. -/
  | selfTestPieceDone (p : Piece)
  /-- SELF_TEST_STARVED (R286): A self-test exceeds its time limit and ends with result 4. -/
  | selfTestStarved
  /-- ROLE_CHALLENGE (R524): Returns a challenge for a role. -/
  | roleChallenge (n : Fin 8) (tag : BitVec 5) (x : AdmXfer)
  /-- ROLE_RESPONSE (R527): Grants a role on a correct response, or rejects it. -/
  | roleResponse (n : Fin 8) (tag : BitVec 5) (x : AdmXfer)
  /-- ROLE_DROP (R519): Drops the PCIe path's role. -/
  | roleDrop (n : Fin 8) (tag : BitVec 5)
  /-- PROTECT (R534): KEY_MANAGE action 1 rewraps a volume key. -/
  | protect (n : Fin 8) (tag : BitVec 5) (x : AdmXfer)
  /-- LOAD (R532): KEY_MANAGE action 2 unlocks a HOST-protected volume. -/
  | load (n : Fin 8) (tag : BitVec 5) (x : AdmXfer)
  /-- UNLOAD (R536): KEY_MANAGE action 3 locks a HOST-protected volume. -/
  | unload (n : Fin 8) (tag : BitVec 5)
  /-- SET_CONN_KEY (R534): Stores a connection key in a slot. -/
  | setConnKey (n : Fin 8) (tag : BitVec 5) (x : AdmXfer)
  /-- CLEAR_CONN_KEY (R535): Destroys a connection key. -/
  | clearConnKey (n : Fin 8) (tag : BitVec 5)
  /-- SET_INSTALLER (R535): Stores the installer key. -/
  | setInstaller (n : Fin 8) (tag : BitVec 5) (x : AdmXfer)
  /-- STATUS (R534): KEY_MANAGE action 8 returns key status. -/
  | status (n : Fin 8) (tag : BitVec 5) (x : AdmXfer)
  /-- ENTROPY_GET (R540): Returns DRBG output. -/
  | entropyGet (n : Fin 8) (tag : BitVec 5) (x : AdmXfer)
  /-- CAIRN_POST (R468): Stores a cairn entry and arms it. -/
  | cairnPost (n : Fin 8) (tag : BitVec 5) (x : AdmXfer)
  /-- CAIRN_CANCEL (R477): Empties a cairn. -/
  | cairnCancel (n : Fin 8) (tag : BitVec 5)
  /-- CLOCK_SET (R485): Loads the calendar counter. -/
  | clockSet (n : Fin 8) (tag : BitVec 5)
  /-- BOOT_SLOT_SWITCH (R295): Switches the active boot slot, optionally once. -/
  | bootSlotSwitch (n : Fin 8) (tag : BitVec 5)
  /-- HOOK_LOAD (R175): Stores and loads a hook section after the running hook ends. -/
  | hookLoad (n : Fin 8) (tag : BitVec 5) (x : AdmXfer)
  /-- SANITIZE_CRYPTO_ERASE (R272): Destroys and replaces the volume keys in scope. -/
  | sanitizeCryptoErase (n : Fin 8) (tag : BitVec 5) (ends : Bool)
  /-- SANITIZE_BLOCK_ERASE (R272): Erases every flash block holding data of the scope. -/
  | sanitizeBlockErase (n : Fin 8) (tag : BitVec 5) (ends : Bool)
  /-- ABORT (R271): Ends fetched but unstarted commands of a ring and tag. -/
  | abort (n : Fin 8) (tag : BitVec 5)
  /-- CONFIG_WRITE (R280): Stores a configuration item, optionally applying it. -/
  | configWrite (n : Fin 8) (tag : BitVec 5) (x : AdmXfer)
  /-- CONFIG_READ (R280): Returns a stored or in-force configuration item. -/
  | configRead (n : Fin 8) (tag : BitVec 5) (x : AdmXfer)
  /-- LOSS_REPORT (R279): Returns the loss report header and matching entries. -/
  | lossReport (n : Fin 8) (tag : BitVec 5) (x : AdmXfer)
  /-- DESCRIPTOR_TIMEOUT (R412): A descriptor's DESC_TO expires and the command completes with DMA_FAULT. -/
  | descriptorTimeout (n : Fin 8) (tag : BitVec 5) (off : BitVec 22)
  /-- DESCRIPTOR_END (R407): A descriptor's last data arrives or is written; the command's transfer may complete. -/
  | descriptorEnd (n : Fin 8) (tag : BitVec 5) (off : BitVec 22)
  /-- CHANNEL_RESUME (R414): A write of XFR_CH_CTRL.RESUME restarts a halted transfer channel. -/
  | channelResume (n : Fin 8)
  /-- ALLOC_HOLD_EXPIRY (R420): A class-7 request waits HOLD_MS and completes DEFERRED. -/
  | allocHoldExpiry (n : Fin 8) (tag : BitVec 5)
  /-- JOURNAL_PAGE_TIMER (R311): 100 µs after its first record a journal page is programmed. -/
  | journalPageTimer
  /-- JOURNAL_PAGE_VERIFIED (R311): A journal page is verified, making its records durable and releasing units. -/
  | journalPageVerified
  /-- CHECKPOINT_COMPLETE (R312): A checkpoint record is verified and older journal pages become reclaimable. -/
  | checkpointComplete
  /-- OPEN_PAGE_CLOSE (R321): An open landing page or word line reaches its 2 ms or 20 ms limit and is closed. -/
  | openPageClose (lun : Fin 128) (block page : BitVec 16) (landing : Bool)
  /-- OPTIME_SAVE (R484): Every 60 s a journal record carries the operating time, power-cycle count and counters. -/
  | optimeSave
  /-- PACING_WINDOW (R322): At each 1 ms window Quarry sets a LUN's reclaim mode and share. -/
  | pacingWindow (lun : Fin 128) (busy : BitVec 16)
  /-- FLOOR_MODE_TIMEOUT (R324): A LUN stays in Floor mode for 1 s; event 0x3060. -/
  | floorModeTimeout (lun : Fin 128)
  /-- WEAR_CHECK (R329): Every 60 s Tumbler compares wear and may start a static move. -/
  | wearCheck
  /-- RETENTION_STEP (R333): Every 60 s Tumbler advances each cohort's retention accumulator. -/
  | retentionStep
  /-- SUSPEND_REQUEST (R363): A read waits and the operation has run its minimum, so E2 is raised. -/
  | suspendRequest (ch : Fin 8)
  /-- RESUME_DEADLINE (R364): 2 ms after a suspension the resume is queued regardless of waiting reads. -/
  | resumeDeadline (lun : Fin 128)
  /-- LUN_RESET_TIMEOUT (R368): A LUN gives no ready status within 10 ms of a RESET and fails. -/
  | lunResetTimeout (lun : Fin 128)
  /-- DRAM_ENABLE (R384): A write of DRC_CTRL.EN initialises the DRAM. -/
  | dramEnable (p : Path) (found : Option (Bool × Bool × BitVec 2))
  /-- REFRESH_INTERVAL (R387): Each tREFI raises the refresh debt and may force a REF. -/
  | refreshInterval (rank : Fin 2) (idle : Bool)
  /-- REFRESH_WINDOW_START (R392): A new refresh window clears every activation table. -/
  | refreshWindowStart
  /-- DRAM_PARITY_ALERT (R396): D_ALERT_n goes low and the controller stops and replays commands. -/
  | dramParityAlert
  /-- ALERT_TIMEOUT (R397): D_ALERT_n stays low beyond 2 µs and the replay fails. -/
  | alertTimeout
  /-- SCRUB_PASS (R401): The scrubber reads the written regions once per period. -/
  | scrubPass (facts : List DramFact)
  /-- PORT_LINK_UP (R425): A fabric port reaches link-up. -/
  | portLinkUp (p : Fin 2) (kx fec : Bool)
  /-- PORT_LINK_DOWN (R425): A fabric port loses lock for 10 µs and declares link down. -/
  | portLinkDown (p : Fin 2)
  /-- PORT_ENABLE (R454): A write of FAB_CTRL.PORT_EN starts a port or takes it down with failover. -/
  | portEnable (path : Path) (p : Fin 2) (on : Bool)
  /-- ILIDE_APPEND (R453): An APPEND packet from a partner is checked and, at its LAST packet, accepted as a record. -/
  | ilideAppend (p : Fin 2) (frame : Bytes) (a : Arrival)
  /-- READ_REQ (R453): A READ_REQ from a partner is answered from a STATUS or STREAM_READ window. -/
  | readReq (p : Fin 2) (frame : Bytes) (a : Arrival) (media : List (Nat × Media))
  /-- SEND (R434): A SEND from a partner delivers a trigger to the cairn unit. -/
  | send (p : Fin 2) (frame : Bytes) (a : Arrival)
  /-- ACK (R435): An ACK from a partner acknowledges packets and advances the window. -/
  | ack (p : Fin 2) (frame : Bytes) (a : Arrival)
  /-- NAK (R439): A NAK from a partner makes the device go back or resend after the hint. -/
  | nak (p : Fin 2) (frame : Bytes) (a : Arrival)
  /-- HELLO (R446): A HELLO request, reply, keepalive or close from a partner. -/
  | hello (p : Fin 2) (frame : Bytes) (a : Arrival)
  /-- PFC_FRAME (R456): A PFC pause or XON frame arrives and a priority is paused or resumed. -/
  | pfcFrame (p : Fin 2) (set quanta : BitVec 8)
  /-- RETRANSMIT_TIMEOUT (R440): The RTO expires and the sender goes back, counting a retry. -/
  | retransmitTimeout (c : Fin 256)
  /-- ASSEMBLY_TIMEOUT (R440): A partial inbound message waits 100 ms and is discarded. -/
  | assemblyTimeout (c : Fin 256)
  /-- KEEPALIVE_SEND (R440): KEEPALIVE passes without a frame sent and a HELLO keepalive is sent. -/
  | keepaliveSend (c : Fin 256)
  /-- PARTNER_SILENCE (R440): No valid frame for 3 × KEEPALIVE; failover or DOWN. -/
  | partnerSilence (c : Fin 256)
  /-- HELLO_RETRY (R446): 100 ms after a HELLO request without reply another is sent. -/
  | helloRetry (c : Fin 256)
  /-- CONNECTION_BOUNDARY (R445): A synced connection entry reaches its boundary and takes effect. -/
  | connectionBoundary (c : Fin 256) (forced : Bool)
  /-- PAUSE_WATCHDOG (R457): A partner pauses a priority for PAUSE_WD and its connections fail over. -/
  | pauseWatchdog (p : Fin 2) (prio : Fin 8)
  /-- PAUSE_TX_LIMIT (R458): The port's own XOFF reaches PAUSE_TX_MAX and XON is sent. -/
  | pauseTxLimit (p : Fin 2) (prio : Fin 8)
  /-- QUARANTINE_END (R461): QDUR seconds pass and a connection's quarantine ends. -/
  | quarantineEnd (c : Fin 256)
  /-- QUARANTINE_CLEAR (R461): A write to FAB_QUAR_CLR lifts a connection's quarantine. -/
  | quarantineClear (path : Path) (value : Word)
  /-- CAIRN_FIRING_START (R471): A queued firing starts when fewer than 4 run. -/
  | cairnFiringStart
  /-- CAIRN_FIRING_END (R476): A firing ends; pins may be released, the cairn rearms or spends, and a chain may fire. -/
  | cairnFiringEnd (c : Fin 512)
  /-- SHIP_CONNECTION_TIMEOUT (R475): A SHIP or SEND's connection is not UP for 60 s and the action ends with result 3.
    -/
  | shipConnectionTimeout (c : Fin 512)
  /-- TIMER_PERIOD_EVENT (R495): A timer's count reaches PERIOD; its event is routed and the count returns to 0. -/
  | timerPeriodEvent (n : Fin 8)
  /-- TIMER_ENABLE (R489): A write of EN = 1 starts a timer from count 0. -/
  | timerEnable (p : Path) (n : Fin 8)
  /-- TIMER_STOP (R489): A write of EN = 0 stops a timer at once. -/
  | timerStop (p : Path) (n : Fin 8)
  /-- TIMER_PERIOD_WRITE (R492): A write to PERIOD takes effect live. -/
  | timerPeriodWrite (p : Path) (n : Fin 8) (value : Word)
  /-- TIMER_COUNT_WRITE (R492): A write to COUNT takes effect live. -/
  | timerCountWrite (p : Path) (n : Fin 8) (value : Word)
  /-- GPIO_EDGE (R490): A filtered GPIO level change acts as gate, capture, retrigger, hook or Keystone E4 edge. -/
  | gpioEdge (g : Fin 4) (level : Bool)
  /-- SCREE_FLUSH (R505): 128 records are staged or the oldest is 1 s old, and staging is written to the recorder area.
    -/
  | screeFlush
  /-- SUPPRESSION_SUMMARY (R515): At each uptime second event 0xF001 is recorded per code with suppressions. -/
  | suppressionSummary
  /-- MAKER_ROLE_EXPIRY (R520): 30 minutes after grant the maker role ends. -/
  | makerRoleExpiry (path : Fin 3)
  /-- CHALLENGE_EXPIRY (R524): An outstanding challenge becomes void after 60 s. -/
  | challengeExpiry (path : Fin 3)
  /-- CHALLENGE_HOLD_END (R529): A failure hold on a path ends and challenges are accepted again. -/
  | challengeHoldEnd (path : Fin 3)
  /-- FLINT_WINDOW (R538): A 1024-bit raw window completes its health tests and is conditioned or fails. -/
  | flintWindow (rct apt : BitVec 11)
  /-- FLINT_RERUN (R543): 1 s after a failure the start-up test is rerun. -/
  | flintRerun
  /-- DRBG_RESEED (R539): After 65 536 requests or 1 s the DRBG is reseeded. -/
  | drbgReseed
  /-- TRIAL_TIME_SAVE (R558): Every 60 s the trial operating time is saved in the boot record. -/
  | trialTimeSave
  /-- TRIAL_EXPIRY (R558): The trial reaches 600 000 ms and is confirmed or cleared. -/
  | trialExpiry
  /-- USB_ATTACH (R562): USB_VBUS has been valid for 10 ms in a serving state and the port attaches. -/
  | usbAttach
  /-- USB_DISCONNECT (R570): USB_VBUS falls below threshold; the port detaches and the USB role ends. -/
  | usbDisconnect
  /-- USB_BUS_RESET (R569): A bus reset ends the control transfer and stream under way. -/
  | usbBusReset (underWay high : Bool)
  /-- USB_STANDARD_REQUEST (R563): A standard USB 2.0 chapter 9 request is answered. -/
  | usbStandardRequest (type req : BitVec 8) (value index len : BitVec 16)
  /-- GET_STATE (R564): Returns 16 bytes of state. -/
  | getState (value index len : BitVec 16)
  /-- GET_IDENTIFY (R564): Returns IDENTIFY bytes. -/
  | getIdentify (value index len : BitVec 16)
  /-- CHALLENGE (R564): Returns a role challenge over USB. -/
  | challenge (value index len : BitVec 16)
  /-- RESPONSE (R528): Submits a role response over USB. -/
  | response (value index : BitVec 16) (data : Bytes)
  /-- DROP (R564): Drops the USB path's role. -/
  | drop (value index : BitVec 16) (data : Bytes)
  /-- IMAGE_BEGIN (R552): Opens a download session over USB. -/
  | imageBegin (value index : BitVec 16) (data : Bytes)
  /-- IMAGE_CHUNK (R566): Writes one image chunk over USB at its data stage. -/
  | imageChunk (value index : BitVec 16) (data : Bytes)
  /-- IMAGE_STREAM (R567): Opens a stream of image units on EP1. -/
  | imageStream (value index : BitVec 16) (data : Bytes)
  /-- STREAM_UNIT (R567): The last byte of a streamed unit arrives and the unit takes effect as a chunk. -/
  | streamUnit (data : BitVec 32768)
  /-- USB_IMAGE_COMMIT (R555): Commits the image over USB. -/
  | usbImageCommit (value index : BitVec 16) (data : Bytes) (copies : Copies)
  /-- USB_IMAGE_CONFIRM (R559): Confirms the trial image over USB. -/
  | usbImageConfirm (value index : BitVec 16) (data : Bytes)
  /-- IMAGE_STATUS (R560): Returns 64 bytes of image status. -/
  | imageStatus (value index len : BitVec 16)
  /-- LOG_OPEN (R564): Opens a log page for delivery on EP2. -/
  | logOpen (value index : BitVec 16) (data : Bytes) (gone : List (BitVec 16))
  /-- RAW_READ (R564): Issues a maker raw read of one page for delivery on EP2. -/
  | rawRead (value index : BitVec 16) (data raw : Bytes)
  /-- REBOOT (R568): Restarts the logic die with a drain, optionally into Bedrock. -/
  | reboot (value index : BitVec 16) (data : Bytes)
  /-- PCIE_LINK_UP (R194): PCIe link training completes and the data link becomes active, setting HLK_LINK_STAT and
    possibly recording a training below capability. -/
  | pcieLinkUp (speed width : BitVec 3) (reversed : Bool) (polarity : BitVec 4)
  /-- BUS_MASTER_ENABLE_SET (R223): Bus Master Enable is set again and held fetches, posts and completions are written
    in order. -/
  | busMasterEnableSet
  /-- DRAM_INIT_COMPLETE (R384): A DRAM initialisation or reinitialisation finishes its pattern test, recording 0x4001
    or 0x4002 and leading to service, a retry or Bedrock. -/
  | dramInitComplete (step : Fin 5)
  /-- D_ALERT_N_HIGH (R396): D_ALERT_n returns high within 2 µs after a parity alert and the controller clears MR5 and
    replays the buffered commands. -/
  | dAlertNHigh (rank : Fin 2) (replayed : BitVec 5) (again : Bool)
  /-- RAIL_RECOVERY (R399): A faulted VDDQ or VPP_OUT rail returns within tolerance and the DRAM reinitialisation and
    transit-pool rebuild start. -/
  | railRecovery (r : Rail)
  /-- CHARGER_MODE_CHANGE (R67): VIN crosses VRES_SET − 1.0 V or 38 V and the charger changes between BOOST, FOLLOW and
    stopped. -/
  | chargerModeChange (vin : BitVec 16)
  /-- OTHER_FRAME (R459): A frame that is not a valid Ilide frame for the device, or carries a device-to-partner opcode,
    arrives and is discarded, counted or answered with INVALID. -/
  | otherFrame (p : Fin 2) (frame : Bytes) (fcs : Bool) (a : Arrival)
  /-- TAP_RESET (R519): JTAG_TRST_n goes low or the TAP is reset, ending the maker role held on JTAG. -/
  | tapReset
  /-- QKCHAL_READ (R528): The JTAG private data register QKCHAL is shifted out, issuing a maker challenge on the JTAG
    path. -/
  | qkchalRead
  /-- QKRESP_WRITE (R528): A response shifted into the JTAG private data register QKRESP grants the maker role or is
    rejected. -/
  | qkrespWrite (data : BitVec 384)
  /-- ILLEGAL_INSTRUCTION (R144): An engine fetches a word with an undefined major opcode, a non-zero must-be-0 field,
    or condition 15, and faults with cause 1. -/
  | illegalInstruction (e : Fin 10) (word : Word) (parity : Bool)
  deriving DecidableEq, Repr

end Sys2Proof
end

