-- ==== Sys2Proof/Machine/State.lean ====
section
/-! DEFINITION. The state of the block: plain data, one sub-structure per unit of the device, and the queue of
commands that wait. `Nv` is what survives every start (flash, fuses, configuration area); `Basalt` is the power
die; everything else is the logic die and starts anew when that die leaves reset (R118). -/

namespace Sys2Proof.Machine

/-- Why the machine stops. No meaning of this model stops: the spec gives every command an effect. -/
inductive Fault
  /-- Raised by no meaning. Kept so that the type has a name for a stop (safe: nothing reaches it). -/
  | none
  deriving DecidableEq, Repr

/-- Why a command has no meaning. -/
inductive Refusal
  /-- A command whose meaning is not written yet; raised by Dispatch arms only (safe: the machine stops). -/
  | notModelled (mnemonic : String)
  deriving DecidableEq, Repr

/-- The device states of `GLB_STATE` (00_scope.md, Terms). -/
inductive Dev | off | rom | starting | ready | readyDegraded | preFreeze | draining | safe | bedrock | recovery
  deriving DecidableEq, Repr

/-- The number `GLB_STATE.STATE` shows. -/
def Dev.code : Dev → Nat
  | .off => 0 | .rom => 1 | .starting => 2 | .ready => 3 | .readyDegraded => 4
  | .preFreeze => 5 | .draining => 6 | .safe => 7 | .bedrock => 8 | .recovery => 9

/-! ### Events (21_amber_scree_and_trouble_counters.md) -/

/-- One event record, before its CRC (R500). -/
structure EvRec where
  code : Nat
  kind : Nat
  area : Nat
  sev : Nat
  src : Nat
  time : Nat
  p1 : Nat
  p2 : Nat
  p3 : Nat
  p4 : Nat
  deriving DecidableEq, Repr

/-- One token bucket (R513): the tokens held when last looked at, and the uptime of that look. -/
structure Bucket where
  tokens : Nat
  seen : Nat
  deriving DecidableEq, Repr

/-- What has been suppressed of one code in the running second (R515). -/
structure Supp where
  count : Nat
  first : Nat
  deriving DecidableEq, Repr

/-- The event recorder on the logic die. -/
structure Evr where
  /-- Scree staging, oldest first, at most 256 (R505) -/
  staging : List EvRec := []
  /-- records lost since staging was last full (R506) -/
  lost : Nat := 0
  buckets : Map Bucket := []
  supp : Map Supp := []
  /-- `EVR_LAST` -/
  last : Nat := 0
  /-- the trouble counters that are not 0, each at most 0xFFFF (R517) -/
  tc : Map Nat := []
  /-- drain step 6 has begun: records are no longer kept (R505) -/
  shut : Bool := false
  deriving DecidableEq, Repr

/-! ### Time (20_lodestone_timers.md) -/

/-- Lodestone's counters and the holding registers of R10. -/
structure Time where
  uptime : Nat := 0
  calendar : Nat := 0
  calPhase : Nat := 0
  calSet : Bool := false
  /-- operating milliseconds and the ticks into the present one (R484) -/
  optMs : Nat := 0
  optPhase : Nat := 0
  /-- power-cycle count -/
  cycles : Nat := 0
  ringOsc : Bool := false
  /-- L64 holding registers by path and value; unlisted: no low read yet (R10) -/
  holding : Map Nat := []
  /-- filtered GPIO input levels, and how long FUNC 2 outputs have been driven: the driven levels -/
  gpioIn : Nat := 0
  gpioOut : Nat := 0
  deriving DecidableEq, Repr

/-! ### Power (02, 04, 05) -/

/-- Where Basalt stands with the rails. -/
inductive RailPhase | off | rising | good | removed
  deriving DecidableEq, Repr

/-- What raised FREEZE. -/
inductive FreezeCause | collapse | pfw | railFault | resetPin | restart
  deriving DecidableEq, Repr

/-- The Basalt die: always on while the input stage runs. -/
structure Basalt where
  inputOn : Bool := true
  rails : RailPhase := .good
  badRails : List Rail := []
  vinMv : Nat := 24000
  vresMv : Nat := 0
  /-- the reservoir voltage the charger regulates to, in mV (R67) -/
  vresSetMv : Nat := 24000
  /-- Riset in ohms (R66) -/
  riset : Nat := 24000
  /-- charger mode as `PWR_STAT.CHG_MODE` -/
  chgMode : Nat := 0
  freeze : Bool := false
  cause : Option FreezeCause := none
  /-- Basalt's copy of PFW MODE; none: not written since the input stage started (R106) -/
  modeCopy : Option Nat := none
  /-- the retention latch: F and the stop cause (a lost latch reads 0) -/
  latchF : Nat := 0
  latchCause : Nat := 0
  vccq18 : Bool := false
  /-- SAFE_n released (R107) -/
  safeReleased : Bool := false
  /-- RESET_n held low; the logic die is held in reset; the source of the start to come (`GLB_START.SRC`) -/
  resetLow : Bool := false
  dieReset : Bool := false
  nextSrc : Nat := 0
  /-- the next start enters Bedrock with cause 6 (R568) -/
  toBedrock : Bool := false
  alert : Bool := false
  deriving DecidableEq, Repr

/-- The VCORE loop beside `PWR_VCORE_STAT` (R29, R30). -/
structure Vcore where
  released : Bool := false
  /-- a step request Basalt has not acknowledged -/
  unacked : Bool := false
  /-- consecutive windows at or above PACE_TARGET -/
  above : Nat := 0
  /-- consecutive windows above PACE_TARGET + 64 -/
  high : Nat := 0
  deriving DecidableEq, Repr

/-- The steps of a reservoir measurement (R74). -/
inductive MeasPhase | idle | due | waitDip | falling
  deriving DecidableEq, Repr

/-- The measurement unit and the energy ledger (R73 to R88). -/
structure Ledger where
  phase : MeasPhase := .idle
  /-- the attempt to make at a later time, after a postponement or failure -/
  retryMs : Nat := 0
  /-- staged VRES_SET code not yet taken (R88) -/
  stagedSet : Option Nat := none
  /-- one measurement has completed since start -/
  valid : Bool := false
  failed : Bool := false
  /-- C in µF, ESR in mΩ, V_TOP in mV of the last completed measurement -/
  c : Nat := 0
  esr : Nat := 0
  vtop : Nat := 0
  /-- V_TOP noted for the measurement under way -/
  vtopNow : Nat := 0
  eUsable : Nat := 0
  limit : Nat := 0
  /-- the limit to restore after an abandoned attempt -/
  savedLimit : Nat := 0
  /-- units charged for staged data and fabric messages, not counting the unused reserve -/
  charged : Nat := 0
  /-- the cycle reserve is charged, from READY on (R83) -/
  reserveCharged : Bool := false
  peak : Nat := 0
  /-- uptime of the last completed measurement -/
  doneAt : Nat := 0
  overUsable : Bool := false
  deriving DecidableEq, Repr

/-- The PFW state machine (R98). -/
inductive PfwState | off | armed | timing | disarmed
  deriving DecidableEq, Repr

/-- PFW on the logic die. -/
structure Pfw where
  state : PfwState := .off
  aOn : Bool := true
  bOn : Bool := true
  first : PfwCh := .a
  /-- the state the device came from into PRE_FREEZE -/
  back : Dev := .ready
  deriving DecidableEq, Repr

/-- The drain (R101). Step 0: no drain. -/
structure Drain where
  step : Nat := 0
  /-- the device restarts the logic die at the end rather than entering SAFE (R116) -/
  warm : Bool := false
  manifest : Bool := false
  sealDone : Bool := false
  units : Nat := 0
  elapsed : Nat := 0
  deriving DecidableEq, Repr

/-! ### Start (06) -/

/-- Where the ROM stands: not yet begun, waiting for crystal ticks (R35), past them, or held in ROM without service (R35,
R130, R372). -/
inductive RomPhase | reset | crystal | running | stuck
  deriving DecidableEq, Repr

/-- The start under way and the GLB unit. -/
structure Start where
  rom : RomPhase := .reset
  straps : Straps := ⟨false, false, false⟩
  /-- `GLB_START.SRC` -/
  src : Nat := 0
  kind : Nat := 0
  slot : Nat := 0
  trial : Bool := false
  timeMs : Nat := 0
  /-- ticks before the release that count into the time to READY (R120) -/
  riseTicks : Nat := 0
  /-- the start's F (R124) -/
  fails : Nat := 0
  bedrockCause : Nat := 0
  /-- host access has been accepted: events 0x1003 are recorded (R288) -/
  hostAccess : Bool := false
  configLoaded : Bool := false
  /-- 60 s of uninterrupted service have cleared F in this run -/
  cleared : Bool := false
  deriving DecidableEq, Repr

/-- What `PWR_LAST_STOP` shows of the previous run. -/
structure LastStop where
  cause : Nat := 0
  sealDone : Bool := false
  units : Nat := 0
  loss : Bool := false
  drainT : Nat := 0
  deriving DecidableEq, Repr

/-- One cycle or transfer that a Vein engine puts on its channel's bus (R156). -/
inductive BusCycle
  | select (ce : Nat)
  | command (byte : BitVec 8)
  | address (bytes : Bytes)
  | encode (first count : Nat)
  | decode (first count pass : Nat)
  | bytesOut (bytes : Bytes)
  | bytesIn (count : Nat)
  | readByte
  | idle (ns : Nat)
  | protect (high : Bool)
  | interface (kind timing : Nat)
  deriving DecidableEq, Repr

/-- What the block has sent to the world outside: the model's own record, newest first. -/
inductive Out
  | hostWrite (addr : Nat) (bytes : Bytes)
  | hostRead (addr len : Nat)
  | msix (vector : Nat)
  | regRead (value : Nat)
  | frame (port : Nat) (bytes : Bytes)
  | usb (bytes : Bytes)
  | usbStall
  | jtag (bits : Nat)
  | vcoreStep (up : Bool)
  | flash (channel : Nat) (cycle : BusCycle)
  | ltr (us : Nat)
  deriving DecidableEq, Repr

/-! ### Host link, rings and mailbox (09, 10) -/

/-- The PCIe function's state that commands read or change (R182 to R194). -/
structure Pcie where
  perstHeld : Bool := false
  /-- LTSSM has entered Detect (R181) -/
  detect : Bool := false
  up : Bool := false
  crs : Bool := true
  bme : Bool := false
  /-- AER status of R190, one bit per row of its table in order; sticky (R192) -/
  aer : Nat := 0
  msixEn : Bool := false
  fnMask : Bool := false
  d3 : Bool := false
  /-- the MSI-X table's 256 bytes; pending bits -/
  msix : Memory := (List.range 16).map fun v => (16 * v + 12, 1)
  pba : Nat := 0
  /-- latency tolerance last reported, in µs (R188) -/
  ltr : Nat := 1000
  l1Asked : Bool := false
  deriving DecidableEq, Repr

/-- A ring context entry (R197). -/
structure RingCtx where
  sqBase : Nat := 0
  cqBase : Nat := 0
  idxBase : Nat := 0
  sqDepth : Nat := 32
  cqDepth : Nat := 32
  modeV : Bool := false
  dbBare : Bool := false
  push : Bool := false
  idxwr : Bool := false
  cls : Nat := 0
  vector : Nat := 0
  prefetch : Nat := 1
  modCount : Nat := 1
  modTime : Nat := 0
  chainTo : Nat := 10
  deriving DecidableEq, Repr

/-- One descriptor of a command's transfer (R406). -/
structure Desc where
  addr : Nat
  len : Nat
  off : Nat
  toHost : Bool
  transit : Bool
  deriving DecidableEq, Repr

/-- Where a command stands. -/
inductive Stage
  /-- fetched, not started -/
  | fetched
  /-- waiting in its class queue for units or energy (R420) -/
  | held
  /-- its descriptors are under way -/
  | moving
  /-- admitted and working, its end not yet reached -/
  | running
  /-- ended, its completion entry not yet written (R217) -/
  | done
  deriving DecidableEq, Repr

/-- A command taken from a submission ring: its tag is in use until its completion entry is written (R196). -/
structure Cmd where
  ring : Nat
  tag : Nat
  opcode : Nat
  cookie : Nat
  slot : Nat
  body : Bytes
  modeV : Bool
  noint : Bool
  /-- uptime at the doorbell that made its first slot pending (R217) -/
  arrive : Nat
  stage : Stage := .fetched
  /-- cycle-eligible: it keeps the 40 µs deadline (R253, R256); and within budget (R254) -/
  eligible : Bool := false
  budgeted : Bool := false
  cls : Nat := 7
  units : Nat := 0
  fromReserve : Bool := false
  /-- uptime at which its units were admitted -/
  granted : Nat := 0
  /-- descriptors not yet ended, and the data that ended ones brought, by transfer offset -/
  descs : List Desc := []
  got : Map Bytes := []
  /-- the host segments of its transfer, and how it will end when its descriptors have ended -/
  segs : List (Nat × Nat) := []
  endStatus : Nat := 0
  endResult : Bytes := []
  /-- runs of the transfer that are not written to the host: failing blocks of a READ (R235), offset and length -/
  holes : List (Nat × Nat) := []
  deriving DecidableEq, Repr

/-- A completion entry that is not yet written (R217). -/
structure Cpl where
  status : Nat
  tag : Nat
  async : Bool
  cookie : Nat
  slot : Nat
  /-- bytes 12 to 27 -/
  result : Bytes
  arrive : Nat
  noint : Bool
  /-- OK turns into OK_LATE when written after the 40 µs deadline (R255, R256) -/
  deadline : Bool
  /-- writing it releases the tag (not so for a TAG_IN_USE completion, R196) -/
  releases : Bool
  /-- the wait for a CQ slot has been counted (R205) -/
  counted : Bool := false
  deriving DecidableEq, Repr

/-- A ring of R195. -/
structure Ring where
  /-- the entry accepted by the last sync since the ring unit was reset (R199) -/
  synced : Option RingCtx := none
  /-- the entry in force -/
  ctx : RingCtx := {}
  /-- running fields accepted and waiting for the ring's boundary (R198) -/
  nextRun : Bool := false
  /-- `HQ_RING_STAT.STATE` and `FAULT` -/
  state : Nat := 0
  fault : Nat := 0
  sqHead : Nat := 0
  sqTail : Nat := 0
  cqHead : Nat := 0
  cqTail : Nat := 0
  phase : Bool := true
  written : Nat := 0
  /-- push window bytes and their count since the last PUSHED doorbell (R212) -/
  push : Memory := []
  pushed : Nat := 0
  /-- a snapshot not yet taken: its first slot and its bytes -/
  snap : Option (Nat × Bytes) := none
  /-- doorbells accepted and not passed by the head: the tail each set and its uptime, oldest first -/
  bells : List (Nat × Nat) := []
  /-- the slots a fetch read under way covers: first slot and count; an index read under way -/
  fetching : Option (Nat × Nat) := none
  indexing : Bool := false
  /-- a bare doorbell arrived after the index read under way started (R202) -/
  again : Bool := false
  /-- the open chain: its first entry's command with the body so far, and its entries (R215) -/
  chain : Option (Cmd × Nat) := none
  /-- commands whose tags are in use, in fetch order -/
  cmds : List Cmd := []
  /-- completions that wait for a free CQ slot, Bus Master Enable or D0, oldest first -/
  waiting : List Cpl := []
  /-- completions that count since the last interrupt, and the uptime of the oldest (R220) -/
  modN : Nat := 0
  modSince : Nat := 0
  deriving DecidableEq, Repr

/-- The mailbox beside its registers (R224 to R230). -/
structure Mbx where
  h2dBits : Nat := 0
  d2hBits : Nat := 0
  h2dFull : Nat := 0
  d2hFull : Nat := 0
  h2dTo : Nat := 0
  d2hTo : Nat := 0
  /-- slot bytes, 64 per slot -/
  h2d : Memory := []
  d2h : Memory := []
  /-- post counts, 4 bits each -/
  seq : Nat := 0
  deriving DecidableEq, Repr

/-! ### Transfer engine and buffers (17) -/

/-- A transfer-channel table entry (R404), with the values of R405 before the first sync. -/
structure ChanCtx where
  descTo : Nat := 1000
  maxRead : Nat := 2
  outstanding : Nat := 8
  weight : Nat := 1
  halt : Bool := false
  deriving DecidableEq, Repr

/-- A transfer channel. -/
structure Chan where
  ctx : ChanCtx := {}
  next : Option ChanCtx := none
  halted : Bool := false
  faults : Nat := 0
  /-- `XFR_FAULT_n` words 0 to 7 -/
  fault : List Nat := [0, 0, 0, 0, 0, 0, 0, 0]
  deriving DecidableEq, Repr

/-- The buffer allocator (R415 to R422). -/
structure Alloc where
  /-- general and reserve staging units in use; the reserve in force; units withdrawn by a self-test (R581) -/
  genUsed : Nat := 0
  resUsed : Nat := 0
  resSize : Nat := 128
  withdrawn : Nat := 0
  transitLost : Nat := 0
  /-- commands that wait for units or energy: ring, tag, class, units, in arrival order -/
  queue : List (Nat × Nat × Nat × Nat) := []
  /-- releases of the last 10 ms for R575: uptime, pool (0 general, 1 + partition), units -/
  released : List (Nat × Nat × Nat) := []
  deriving DecidableEq, Repr

/-! ### Strata (13) -/

/-- What the map holds for one 4 KiB block: its data, or the mark of R114. -/
structure Blk where
  data : Bytes
  lost : Bool := false
  /-- the data is unreadable after every decode pass (MEDIA_UNRECOVERED) -/
  bad : Bool := false
  /-- where the data lies in flash: LUN and block, 0 before its program is verified: 1 + 2^32 * LUN + block -/
  loc : Nat := 0
  deriving DecidableEq, Repr

/-- One stream record that is retained (R243, R245). -/
structure SRec where
  seq : Nat
  ticks : Nat
  cycles : Nat
  optMs : Nat
  payload : Bytes
  src : Nat
  transform : Nat
  /-- its extent's start in the stream's space (R297) -/
  off : Nat
  lost : Bool := false
  bad : Bool := false
  /-- a fabric record: its connection + 1 and the MSN of its APPEND (R447) -/
  conn : Nat := 0
  msn : Nat := 0
  /-- as `Blk.loc` -/
  loc : Nat := 0
  deriving DecidableEq, Repr

/-- A pin on a stream (R251, R301): its handle and the span of sequence numbers it keeps. -/
structure Pin where
  vol : Nat
  handle : Nat
  first : Nat
  count : Nat
  deriving DecidableEq, Repr

/-- A volume (R291). -/
structure Vol where
  /-- 0 block, 1 stream, 2 boot, 255 absent -/
  kind : Nat := 255
  emul : Bool := false
  encrypt : Bool := false
  isSealed : Bool := false
  /-- SANITIZE has struck it and not ended (R273) -/
  sanitize : Bool := false
  /-- capacity in 4 KiB blocks, per slot for boot -/
  cap : Nat := 0
  retention : Nat := 0
  /-- mapped blocks; for boot, slot A from 0 and slot B from `cap` -/
  map : Map Blk := []
  recs : List SRec := []
  nextSeq : Nat := 0
  writeOff : Nat := 0
  released : Nat := 0
  deriving DecidableEq, Repr

/-- How far a staging unit's data has come. -/
inductive UnitAt
  | staged | programming | verified
  deriving DecidableEq, Repr

/-- A staging unit that holds data not yet durable (R304, R311). -/
structure SUnit where
  id : Nat
  vol : Nat
  /-- 4 KiB block, or the stream sequence number of its record -/
  lba : Nat
  stream : Bool
  /-- WRITE_ATOMIC command group, 0 none -/
  group : Nat
  fromReserve : Bool
  /-- 0 host; 1 + partition for a fabric append -/
  part : Nat
  /-- uptime at which it was admitted; 0 for one admitted before this start -/
  granted : Nat
  place : UnitAt := .staged
  /-- its journal record is durable -/
  journalled : Bool := false
  /-- its drain-area copy is written (R101 step 3) -/
  drained : Bool := false
  /-- what the map held for the block before -/
  prev : Option Blk := none
  deriving DecidableEq, Repr

/-- Strata on the logic die. -/
structure Strata where
  units : List SUnit := []
  nextUnit : Nat := 1
  nextGroup : Nat := 1
  /-- unit numbers (0: another map change) recorded in the open journal page, and in pages being programmed, oldest first -/
  openPage : List Nat := []
  pages : List (List Nat) := []
  /-- records since the last complete checkpoint; the checkpoint under way counts from here -/
  sinceCkpt : Nat := 0
  ckptAt : Option Nat := none
  mapMode : Nat := 0
  /-- segments of the map in DRAM: segment keys volume * 2^32 + segment -/
  loaded : List Nat := []
  /-- translation-cache entries of committed blocks: volume * 2^40 + block -/
  cached : List Nat := []
  deriving DecidableEq, Repr

/-- One run of the loss report (R113). -/
structure LossRun where
  vol : Nat
  cause : Nat
  len : Nat
  first : Nat
  cycle : Nat
  deriving DecidableEq, Repr

/-! ### Cairns (19) -/

/-- A cairn: its posted entry and its status record (R466, R482). -/
structure Cairn where
  entry : Bytes := []
  /-- 0 EMPTY, 1 ARMED, 2 firing or queued, 3 SPENT, 4 waiting to resume -/
  state : Nat := 0
  result : Nat := 0
  firings : Nat := 0
  drops : Nat := 0
  ended : Nat := 0
  depth : Nat := 0
  t0 : Nat := 0
  /-- uptime of the last t0 in this run, for MIN_GAP -/
  t0Tick : Option Nat := none
  /-- trouble-counter increments since it was armed or last fired -/
  count : Nat := 0
  cancelled : Bool := false
  deriving DecidableEq, Repr

/-- A firing, queued or running (R471, R472). -/
structure Firing where
  cairn : Nat
  number : Nat
  kind : Nat
  t0 : Nat
  t0Field : Nat
  depth : Nat
  /-- the next action, the results of those that ended, records and bytes shipped; the worst result of its SHIPs -/
  ships : Nat := 0
  action : Nat := 0
  results : List Nat := []
  shipped : Nat := 0
  bytes : Nat := 0
  /-- pins its PIN actions made: handle, volume, action slot -/
  pins : List (Nat × Nat × Nat) := []
  /-- its pins and firing record are durable (R480) -/
  durable : Bool := false
  resumed : Bool := false
  /-- the present action has begun; its pins are durable (R480) -/
  begun : Bool := false
  pinsDurable : Bool := false
  /-- journal pages to be verified until its last commit is durable -/
  pages : Nat := 0
  /-- messages of the present SHIP or SEND handed to its connection, and acknowledged -/
  next : Nat := 0
  acked : Nat := 0
  /-- the part result gathered for the present action -/
  part : Nat := 0
  deriving DecidableEq, Repr

/-- The cairn unit. -/
structure CairnUnit where
  queue : List Firing := []
  running : List Firing := []
  dropA : Nat := 0
  dropGap : Nat := 0
  lastCairn : Nat := 0
  lastResult : Nat := 0
  lastNumber : Nat := 0
  deriving DecidableEq, Repr

/-! ### Roles, keys and Flint (22) -/

/-- A challenge outstanding on a path (R524). -/
structure Challenge where
  role : Nat
  ctr : Nat
  bytes : Bytes
  deriving DecidableEq, Repr

/-- Flint and the DRBG on the logic die (R537 to R543). -/
structure Flint where
  /-- `FLT_STAT.STATE`: 0 starting, 1 healthy, 2 rerunning, 3 latched -/
  stat : Nat := 0
  reruns : Nat := 0
  /-- windows passed in a row since the running start-up test began: 4 are the test, two more instantiate the DRBG -/
  passed : Nat := 0
  /-- a failure has stopped the windows until the rerun -/
  halted : Bool := false
  /-- uptime of the last failure -/
  failAt : Nat := 0
  drbg : Bool := false
  /-- a reseed is due, and waits for one conditioned window -/
  reseed : Bool := false
  requests : Nat := 0
  /-- the fallback scrambler seed counter (R542) -/
  seeds : Nat := 0
  deriving DecidableEq, Repr

/-- The roles held per path (R519): 0 operator, 1 installer, 2 maker. -/
structure Roles where
  pcie : Nat := 0
  usb : Nat := 0
  jtag : Bool := false
  /-- volumes whose key is loaded, one bit each (R533) -/
  keys : Nat := 0
  /-- outstanding challenges by path: 0 PCIe, 1 USB, 2 JTAG -/
  chal : Map Challenge := []
  flint : Flint := {}
  deriving DecidableEq, Repr

/-! ### Instance tables (00, R16 to R21) -/

/-- A sync under way: table, index, whether its host read has been issued, and the entry that the read brought. -/
structure Sync where
  table : Nat
  index : Nat
  issued : Bool
  data : Option Bytes := none
  deriving DecidableEq, Repr

/-- Tables 2 and 3: the stored copies in device DRAM, the cached copies in force, and accepted entries that wait for
their boundary. An unlisted entry reads as zeros. -/
structure Tables where
  connStored : Map Bytes := []
  lunStored : Map Bytes := []
  conn : Map Bytes := []
  lun : Map Bytes := []
  connNext : Map Bytes := []
  lunNext : Map Bytes := []
  sync : Option Sync := none
  /-- partition definitions in force (configuration item 7) -/
  parts : Map Bytes := []
  deriving DecidableEq, Repr

/-! ### Flash (14, 15, 08) -/

/-- What an operation carries beside its descriptor. -/
inductive Load
  | none
  /-- staging units of host or fabric data -/
  | units (ids : List Nat)
  /-- a block move of Quarry or Tumbler: the victim block of the same LUN -/
  | move (victim : Nat)
  /-- a rebuilt block of a failed LUN -/
  | rebuild (lun victim : Nat)
  deriving DecidableEq, Repr

/-- A flash operation of the die scheduler (R160). -/
structure FOp where
  lun : Nat
  kind : Nat
  /-- block and page of the row address -/
  block : Nat
  page : Nat
  cell : Nat := 0
  cls : Nat := 7
  codewords : Nat := 1
  resume : Bool := false
  suspendable : Bool := false
  feature : Nat := 0
  tag : Nat := 0
  load : Load := .none
  suspends : Nat := 0
  /-- reissued once after an interface error (R369) -/
  reissued : Bool := false
  deriving DecidableEq, Repr

/-- A flash channel with its die scheduler queue. -/
structure FChan where
  /-- waiting operations, in the order of their arrival -/
  queue : List FOp := []
  /-- the operation in progress with its handle (R159), and the uptime of its start or last resume -/
  cur : Option FOp := none
  handle : Nat := 0
  since : Nat := 0
  /-- operations suspended on a LUN (R364) -/
  susp : List FOp := []
  /-- a DOUT (false) or DIN (true) transfer under way (R157) -/
  transfer : Option Bool := none
  /-- an operation whose report has timed out (R161): its handle, 0 none -/
  late : Nat := 0
  /-- the last DIN's result word (R156, BRES) -/
  bres : Nat := 0
  /-- chip enable selected; Fn_WP_n -/
  ce : Nat := 0
  wpHigh : Bool := false
  /-- uptimes of the interface errors of the last second (R369) -/
  errs : List Nat := []
  deriving DecidableEq, Repr

/-- States of a flash block (R320). -/
inductive BlockState | free | open_ | closed | reclaiming | incomplete | retired
  deriving DecidableEq, Repr

/-- A flash block, where it differs from a free block of no wear. -/
structure FBlock where
  state : BlockState := .free
  /-- wear in ppm of rated endurance (R327) -/
  wear : Nat := 0
  /-- page reads since the last erase (R331), and the counts saved with the checkpoint (R332) -/
  reads : Nat := 0
  savedReads : Nat := 0
  /-- cell use it was last programmed in: 0 SLC, 1 pSLC, 2 TLC; none since the last erase: 3 -/
  cell : Nat := 3
  /-- a landing block, full when closed; the order of closing -/
  landing : Bool := false
  closedSeq : Nat := 0
  /-- the operating minute it closed, for its cohort -/
  closedMin : Nat := 0
  /-- operations on it that reported outcome 3; reads that needed step 4 of the ladder -/
  slow : Nat := 0
  recon : Nat := 0
  /-- a move is pending or under way: its service class, 0 none -/
  move : Nat := 0
  /-- event 0x3010 has been recorded for it since its last erase began (R367) -/
  found : Bool := false
  /-- retire it after its move (R338) -/
  retireAfter : Bool := false
  deriving DecidableEq, Repr

/-- A retention cohort (R333): closing period and cell use, accumulator in units of 1 / 5 298 048 000, overdue noted. -/
structure Cohort where
  period : Nat
  cell : Nat
  acc : Nat
  overdue : Bool
  /-- threshold-set index per page type: lower, middle, upper (R336) -/
  thr : List Nat := [0, 0, 0]
  deriving DecidableEq, Repr

/-- What survives a start about one LUN. -/
structure Lun where
  /-- failure cause of log page 0x07, 0 healthy -/
  failed : Nat := 0
  blocks : Map FBlock := []
  cohorts : List Cohort := []
  /-- blocks found erase-incomplete since manufacture -/
  incomplete : Nat := 0
  suspensions : Nat := 0
  soft : Nat := 0
  recon : Nat := 0
  ifErr : Nat := 0
  deriving DecidableEq, Repr

/-- A LUN's scheduling state on the logic die. -/
structure LunRun where
  /-- operations in a row that reported outcome 3 or 5 (R368) -/
  bad : Nat := 0
  /-- Quarry's mode: 0 Rest, 1 Idle, 2 Floor; die time left of the share, in ticks; overrun of the last window -/
  mode : Nat := 0
  share : Nat := 0
  overrun : Nat := 0
  /-- under R324 -/
  heldBack : Bool := false
  /-- uptime of the last static wear move (R329) -/
  lastMove : Option Nat := none
  wornNoted : Bool := false
  deriving DecidableEq, Repr

/-- Flash on the logic die. -/
structure Flash where
  chans : Map FChan := []
  luns : Map LunRun := []
  nextTag : Nat := 1
  nextClosed : Nat := 1
  /-- every healthy LUN is under R324 -/
  allHeld : Bool := false
  /-- a rebuild: its LUN, and stripes done of stripes in all (R345) -/
  rebuild : Option Nat := none
  done : Nat := 0
  total : Nat := 0
  /-- retention row in use -/
  row : Nat := 0
  /-- the junction above 150 °C (R595) -/
  hot : Bool := false
  deriving DecidableEq, Repr

/-! ### DRAM (16) -/

/-- The DRAM controller beside its registers. -/
structure Dram where
  /-- initialised and in use; an initialisation or reinitialisation is under way -/
  up : Bool := false
  initing : Bool := false
  ranks : Nat := 0
  capMiB : Nat := 0
  /-- refresh debts of the ranks, held as debt + 8 (R387) -/
  debt0 : Nat := 8
  debt1 : Nat := 8
  lastZqcs : Nat := 0
  /-- activation tables by 16 * rank + bank: rows with their estimates (R392) -/
  acts : Map (List (Nat × Nat)) := []
  /-- written 1 MiB regions since the last initialisation (R385) -/
  written : List Nat := []
  /-- the retry buffer: the last 16 commands, newest first (R395), by burst index -/
  retry : List Nat := []
  /-- D_ALERT_n is low; a rail of the memory is out of tolerance -/
  alert : Bool := false
  railBad : Bool := false
  /-- uptimes of the uncorrectable errors of the last second -/
  uncorr : List Nat := []
  /-- delay memory (R389) -/
  delay : Memory := []
  deriving DecidableEq, Repr

/-! ### Fabric (18) -/

/-- A message the device sends (R430). -/
structure OMsg where
  op : Nat
  msn : Nat
  /-- header bytes 20 to 27 -/
  head : Bytes
  /-- byte offset of its first packet (header bytes 28 to 35 grow with the packets), and whether the field is used -/
  base : Option Nat
  /-- header bytes 36 to 47 of its LAST packet, and its IMM flag -/
  tail : Bytes
  imm : Bool
  payload : Bytes
  /-- PSN of its first packet in this session -/
  psn : Nat := 0
  /-- the firing it belongs to: cairn + 1, 0 none; records it ends -/
  cairn : Nat := 0
  records : Nat := 0
  deriving DecidableEq, Repr

/-- A partly received APPEND (R433). -/
structure IMsg where
  msn : Nat
  mlen : Nat
  window : Nat
  /-- header bytes 26 to 28 of its first packet -/
  form : Bytes
  firstPsn : Nat
  data : Bytes
  units : Nat
  /-- the volume they are for, and the uptime at which they were admitted -/
  vol : Nat
  granted : Nat
  /-- its grant ran over the partition's quota -/
  excess : Bool
  deriving DecidableEq, Repr

/-- A connection's context (R433 to R465). PSNs the device sends are counted from 0 since the session began; frames carry
them modulo 2^24. -/
structure Conn where
  /-- 0 not valid, 1 DOWN, 2 HELLO sent, 3 UP -/
  st : Nat := 0
  /-- port in use; while not UP, the port of the last HELLO request -/
  port : Nat := 0
  epsn : Nat := 0
  /-- a NAK SEQ, or a retryable NAK, has been sent for ePSN: packets ahead of it are discarded silently (R433, R438) -/
  nakSent : Bool := false
  inMsg : Option IMsg := none
  /-- replies to the last 64 messages, newest first: PSN of the LAST packet, opcode, header bytes 16 to 47 (R436) -/
  replies : List (Nat × Nat × Bytes) := []
  /-- oldest unacknowledged PSN, next PSN to send, one past the highest PSN sent, next PSN to give -/
  una : Nat := 0
  snd : Nat := 0
  top : Nat := 0
  npsn : Nat := 0
  nmsn : Nat := 0
  /-- messages unacknowledged or waiting to be sent, oldest first -/
  outq : List OMsg := []
  /-- after a retryable NAK: no resend before this uptime, or before the next HELLO exchange -/
  holdUntil : Nat := 0
  holdHello : Bool := false
  tries : Nat := 0
  /-- the retry limit was reached once since the last ACK -/
  movedOnce : Bool := false
  violations : Nat := 0
  /-- violations in the running second: its number and count -/
  vioSec : Nat := 0
  vioNow : Nat := 0
  quarantined : Bool := false
  lastQNak : Option Nat := none
  tokens : Nat := 255
  tokenAt : Nat := 0
  /-- sealed session: its key, and the nonce of our last request -/
  session : Option Bytes := none
  nonce : Bytes := []
  /-- HELLO requests carry RESTART until the connection is UP (R446) -/
  restart : Bool := false
  acted : Nat := 0
  packets : Nat := 0
  rtos : Nat := 0
  seqNaks : Nat := 0
  rnrNaks : Nat := 0
  quotaNaks : Nat := 0
  failovers : Nat := 0
  icrcErrs : Nat := 0
  /-- bytes appended -/
  appended : Nat := 0
  deriving DecidableEq, Repr

/-- The fabric unit. -/
structure Fabric where
  conns : Map Conn := []
  /-- bytes held in each port's receive buffer by priority: key 8 * port + priority -/
  rx : Map Nat := []
  /-- port settings in force (configuration item 8), taken at link-up -/
  portCfg : Map Bytes := []
  /-- frames that wait for a paused priority, by the same key (R456) -/
  held : Map (List Bytes) := []
  /-- uptime of a priority's last XON, for the pause watchdog's end (R457), by the same key -/
  resumed : Map Nat := []
  /-- priorities whose own pause ended at its limit while the buffer was full (R458), by the same key -/
  limited : Map Bool := []
  deriving DecidableEq, Repr

/-! ### Images, USB, JTAG, self-test (23, 03, 12) -/

/-- The image unit on the logic die. -/
structure Img where
  /-- session: path (0 PCIe, 1 USB) and target slot -/
  session : Option (Nat × Nat) := none
  lastStatus : Nat := 0
  /-- slots checked since start: 1 valid, 2 invalid -/
  checked : Map Nat := []
  /-- the running slot; 255 none -/
  running : Nat := 255
  version : Nat := 0
  selfConfirm : Bool := false
  /-- trial time counted and not yet saved, in ms; the uptime from which more of it counts while in service (R558) -/
  trialHeld : Nat := 0
  trialAt : Nat := 0
  /-- an image in staging SRAM, from byte offset 0 (R555, R549) -/
  sram : Bytes := []
  deriving DecidableEq, Repr

/-- The USB service port. -/
structure Usb where
  vbus : Bool := false
  attached : Bool := false
  /-- the speed of the last bus reset: high, or full -/
  high : Bool := false
  address : Nat := 0
  configured : Bool := false
  /-- halt features of EP1 and EP2 -/
  halt1 : Bool := false
  halt2 : Bool := false
  /-- an IMAGE_STREAM: next unit and units left -/
  stream : Option (Nat × Nat) := none
  deriving DecidableEq, Repr

/-- A running self-test (R282). -/
structure SelfTest where
  kind : Nat
  step : Nat
  ring : Nat
  tag : Nat
  began : Nat
  /-- it ends at its next piece boundary; the stop request's ring and tag, if one asked -/
  stopping : Bool := false
  stop : Option (Nat × Nat) := none
  deriving DecidableEq, Repr

/-! ### Belion engines and hooks (07, 08) -/

/-- A WAIT under way (R150): the destination register, the mask, and the tick limit (0 none). -/
structure Wait where
  kd : BitVec 4
  mask : BitVec 16
  limit : Nat
  start : Nat
  deriving DecidableEq, Repr

/-- One Belion engine: 0 Keystone, 1 the hook sandbox, 2 + v Vein engine v (R155). -/
structure Engine where
  /-- k1 to k15 that are not 0; k0 is never listed (R136) -/
  k : Map (BitVec 32) := []
  z : Bool := false
  n : Bool := false
  c : Bool := false
  v : Bool := false
  ev : BitVec 16 := 0
  pc : Nat := 0
  /-- a program is loaded and the engine is not stopped -/
  run : Bool := false
  waiting : Option Wait := none
  fault : Bool := false
  cause : Nat := 0
  fpc : Nat := 0
  /-- stopped through the debug window, where it can be stepped (R177) -/
  dbg : Bool := false
  /-- a stopped engine executes one instruction now (R176); set only inside a step -/
  stepping : Bool := false
  prog : Memory := []
  data : Memory := []
  upHold : Nat := 0
  calHold : Nat := 0
  /-- last load result (`BEL_LOAD_STAT`) -/
  loadRes : Nat := 0
  deriving DecidableEq, Repr

/-- A queued hook request (R172): the entry, the uptime of its trigger. -/
structure HookReq where
  entry : Nat
  trigger : Nat
  deriving DecidableEq, Repr

/-- The hook unit: the entry table in force and the requests. -/
structure Hooks where
  /-- 32 bytes per entry (R169) -/
  table : List Bytes := []
  queue : List HookReq := []
  /-- the entry running, or last run -/
  entry : Nat := 0
  busy : Bool := false
  result : Nat := 0
  /-- abandonments in a row, by entry (R174) -/
  abandoned : Map Nat := []
  /-- the debug window was refused once in this start (R176) -/
  dbgRefused : Bool := false
  dbgAddr : Nat := 0
  deriving DecidableEq, Repr

/-! ### What survives a start -/

/-- The boot record (R374). -/
structure BootRec where
  seq : Nat := 0
  confirmed : Nat := 255
  trial : Nat := 255
  trialStarts : Nat := 0
  fails : Nat := 0
  trialMs : Nat := 0
  /-- active boot-volume slot; a ONCE switch pending for the next start, or its revert for the one after (R295) -/
  bootSlot : Nat := 0
  once : Option Nat := none
  revert : Option Nat := none
  stopCause : Nat := 0
  stopSealed : Bool := false
  version0 : Nat := 0
  version1 : Nat := 0
  len0 : Nat := 0
  len1 : Nat := 0
  deriving DecidableEq, Repr

/-- The loss report (R113). -/
structure Loss where
  runs : List LossRun := []
  trunc : Bool := false
  oldest : Nat := 0
  newest : Nat := 0
  deriving DecidableEq, Repr

/-- Failed units (R275, R580): channels stay failed across starts; how many LUNs have failed. -/
structure Failed where
  channels : Nat := 0
  luns : Nat := 0
  deriving DecidableEq, Repr

/-- A Geode slot's pool: chunks by image offset / 4096, and chunk writes since the pool was opened (R552, R553). -/
structure Pool where
  chunks : Map Bytes := []
  writes : Nat := 0
  /-- copies readable when last looked at: primary in bit 0, mirror in bit 1 -/
  readable : Nat := 3
  deriving DecidableEq, Repr

/-- A volume key: the DRBG position it was drawn at, and the host secret that protects it (none: DEVICE, R532). -/
structure VKey where
  drawn : Nat
  secret : Option Bytes
  deriving DecidableEq, Repr

/-- Keys and counts of the security unit (R525, R529, R530). -/
structure Keys where
  installer : Option Bytes := none
  conn : Map Bytes := []
  vol : Map VKey := []
  /-- next challenge counter value, and the end of the reserved block -/
  nextChal : Nat := 0
  reserved : Nat := 0
  /-- consecutive rejections by path; running holds by path: uptime at which each ends -/
  rejects : Map Nat := []
  holds : Map Nat := []
  /-- the place of the DRBG's next output byte among the free values -/
  drawn : Nat := 0
  deriving DecidableEq, Repr

/-- A SANITIZE that has begun and not ended (R273): its volumes, and whether it is a crypto-erase. -/
structure Sanitize where
  vols : List Nat
  crypto : Bool
  /-- uptime of its start -/
  began : Nat
  deriving DecidableEq, Repr

/-- Flash, fuses and the configuration area: everything that crosses a start. -/
structure Nv where
  amber : List EvRec := []
  scree : List EvRec := []
  screeSeq : Nat := 0
  single : Bool := false
  savedTc : Map Nat := []
  savedOpt : Nat := 0
  savedCycles : Nat := 0
  boot : BootRec := {}
  vols : Map Vol := []
  pins : List Pin := []
  loss : Loss := {}
  cairns : Map Cairn := []
  /-- firings whose pins and firing record are durable and whose actions are unfinished (R481) -/
  firings : List Firing := []
  /-- stored configuration items: key item * 2^16 + index (R280) -/
  config : Map Bytes := []
  failed : Failed := {}
  /-- log pages 0x0C and 0x0D, newest first: 32-byte records (R276) -/
  measHist : List Bytes := []
  startHist : List Bytes := []
  /-- PACE_FLOOR of the factory calibration row (R371) -/
  paceFloor : Nat := 800
  /-- rollback floor fuses (R550) -/
  floor : Nat := 0
  luns : Map Lun := []
  pools : Map Pool := []
  keys : Keys := {}
  sanitize : Option Sanitize := none
  sanDone : Nat := 0
  sanScope : Nat := 0
  /-- MSN of the last accepted APPEND by connection (R447) -/
  lastMsn : Map Nat := []
  /-- self-test records, newest first (R287); last result and kind -/
  selfTests : List Bytes := []
  lastSelf : Nat := 0
  /-- stripes rebuilt, for log page 0x01 -/
  rebuilt : Nat := 0
  /-- the calendar ran when the device stopped, and its value then (R334) -/
  stopCal : Option Nat := none
  configOk : Bool := true
  journalOk : Bool := true
  /-- units of the intent list that the next start does not find in the drain area (R104) -/
  missing : List SUnit := []
  /-- units that lie in the drain area (R102, R344); a drain was cut short (R104) -/
  drained : List SUnit := []
  drainCut : Bool := false
  /-- units whose drain relocation failed (R102) -/
  drainFailed : List SUnit := []
  noManifest : Bool := false
  lastStop : LastStop := {}
  deriving DecidableEq, Repr

/-- The state of the block. -/
structure State where
  /-- commands that wait, first in first out -/
  pending : List Instr := []
  dev : Dev := .rom
  /-- register fields that differ from their reset value, by key (R7; Machine/Regs.lean) -/
  csr : Map Nat := []
  /-- staged values of class B fields, by the same key (R14) -/
  staged : Map Nat := []
  evr : Evr := {}
  time : Time := {}
  bas : Basalt := {}
  vcore : Vcore := {}
  led : Ledger := {}
  pfw : Pfw := {}
  drain : Drain := {}
  start : Start := {}
  pcie : Pcie := {}
  rings : Map Ring := []
  mbx : Mbx := {}
  chans : Map Chan := []
  alloc : Alloc := {}
  str : Strata := {}
  eng : Map Engine := []
  hooks : Hooks := {}
  roles : Roles := {}
  tab : Tables := {}
  fl : Flash := {}
  dram : Dram := {}
  fab : Fabric := {}
  img : Img := {}
  usb : Usb := {}
  selfTest : Option SelfTest := none
  jtag : JtagInstr := .bypass
  /-- junction temperature in °C at the last reading (R593) -/
  junction : Int := 25
  crn : CairnUnit := {}
  /-- outcome counters per service class (R577): key 8 * (class - 1) + place -/
  cls : Map Nat := []
  /-- fabric ports failed, one bit a port (R275 bit 2), and the causes of R275 bits 9 to 11 that other units keep -/
  portsFailed : Nat := 0
  rebuilding : Bool := false
  sparesOut : Bool := false
  flintLatched : Bool := false
  /-- changes to each log page since the start (R277) -/
  pageSeq : Map Nat := []
  nv : Nv := {}
  out : List Out := []
  deriving DecidableEq, Repr

/-- The logic die right after it leaves reset, on a new part (R118; the values no rule gives are named in the assumption log). -/
def State.reset : State := { eng := [(0, { run := true })] }

end Sys2Proof.Machine
end

