-- ==== Sys2Proof/Machine/Regs.lean ====
section
/-! DEFINITION. The register fields of BAR0 as the register tables of spec/ lay them out: place, width, reset
value, access code (R9) and change class (R12). A field's value is held in `State.csr` under its place. -/

namespace Sys2Proof.Machine

/-- The access codes of R9 (L64 halves are read through `L64`). -/
inductive Access | rw | ro | wo | w1c | rc
  deriving DecidableEq, Repr

/-- The change classes of R12; `none` for a field software cannot write. -/
inductive Change | static | boundary | live | none
  deriving DecidableEq, Repr

/-- One register field. -/
structure Field where
  off : Nat
  lo : Nat
  width : Nat
  reset : Nat
  access : Access
  change : Change
  deriving DecidableEq, Repr

/-- Where `State.csr` keeps the field. -/
def Field.key (f : Field) : Nat := f.off * 32 + f.lo

/-- The value of a field. -/
def State.f (s : State) (f : Field) : Nat := s.csr.get f.reset f.key

/-- Set a field; a value wider than the field is cut to its width. -/
def State.setF (s : State) (f : Field) (v : Nat) : State :=
  { s with csr := s.csr.set f.reset f.key (v % 2 ^ f.width) }

/-- A field of one bit. -/
def State.bitF (s : State) (f : Field) : Bool := s.f f = 1

/-- Add to a counting field, which saturates at its width. -/
def State.countF (s : State) (f : Field) (n : Nat) : State := s.setF f (satAdd (2 ^ f.width - 1) (s.f f) n)

/-- A read-write field of class L. -/
def rwL (off lo width reset : Nat) : Field := ⟨off, lo, width, reset, .rw, .live⟩
/-- A read-write field of class B. -/
def rwB (off lo width reset : Nat) : Field := ⟨off, lo, width, reset, .rw, .boundary⟩
/-- A read-write field of class S. -/
def rwS (off lo width reset : Nat) : Field := ⟨off, lo, width, reset, .rw, .static⟩
/-- A read-only field. -/
def ro (off lo width reset : Nat) : Field := ⟨off, lo, width, reset, .ro, .none⟩
/-- A write-only field of class L. -/
def wo (off lo width : Nat) : Field := ⟨off, lo, width, 0, .wo, .live⟩
/-- A write-1-to-clear field. -/
def w1c (off lo width : Nat) : Field := ⟨off, lo, width, 0, .w1c, .none⟩
/-- A read-clears field. -/
def rc (off lo width : Nat) : Field := ⟨off, lo, width, 0, .rc, .none⟩

namespace Reg

/-! GLB (06_start_reset_and_bedrock.md, 00_scope.md) -/
def glbId : Field := ro 0x0 0 32 0x51420824
def glbRestart : Field := wo 0x8 0 1
def glbStaticWr : Field := w1c 0x10 0 1
def glbErrAddr : Field := ro 0x14 0 20 0
def syncTable : Field := rwL 0x30 0 3 0
def syncIndex : Field := rwL 0x30 8 8 0
def syncReject : Field := ro 0x30 30 1 0
def syncBusy : Field := ro 0x30 31 1 0

/-! HLK (09_pci_express_host_link.md) -/
def linkSpeed : Field := ro 0x400 0 3 0
def linkWidth : Field := ro 0x400 3 3 0
def linkUp : Field := ro 0x400 6 1 0
def linkReversed : Field := ro 0x400 7 1 0
def linkPolarity : Field := ro 0x400 8 4 0
def linkPm : Field := ro 0x400 12 3 0
def maxSpeed : Field := rwB 0x404 0 3 4
def retrain : Field := wo 0x404 3 1
def resetsFlr : Field := rc 0x408 0 8
def resetsHot : Field := rc 0x408 8 8
def resetsPerst : Field := rc 0x408 16 8
def resetsDegrade : Field := rc 0x408 24 8
def errPoison : Field := w1c 0x40C 0 1
def errCplTo : Field := w1c 0x40C 1 1
def errUnexp : Field := w1c 0x40C 2 1
def errFatal : Field := w1c 0x40C 3 1

/-! HQ (10_kenino_rings_and_mailbox.md, 11_io_commands.md) -/
def hqBaseLo : Field := rwS 0x1000 9 23 0
def hqBaseHi : Field := rwS 0x1004 0 32 0
def ringEn (n : Nat) : Field := rwL (0x1020 + 4 * n) 0 1 0
def asyncLost : Field := rc 0x1080 0 8
def pushMiss : Field := rc 0x1080 8 16
def cycWindow : Field := rwB 0x10C0 0 14 1000
def cycMaxCmds : Field := rwB 0x10C0 14 7 8
def cycMaxUnits : Field := rwB 0x10C0 21 11 8
def cycCmds : Field := ro 0x10C4 0 8 0
def cycUnits : Field := ro 0x10C4 8 11 0
def cycOver : Field := rc 0x10C8 0 16

/-! MBX (10_kenino_rings_and_mailbox.md) -/
def mbxVector : Field := rwL 0x2000 0 4 0
def mbxTimeout : Field := rwB 0x2000 4 10 100
def mbxIeSlot : Field := rwL 0x2000 16 1 0
def mbxIeFree : Field := rwL 0x2000 17 1 0
def mbxIeTo : Field := rwL 0x2000 18 1 0
def h2dSet : Field := wo 0x2004 0 32
def h2dMask : Field := rwL 0x200C 0 32 0
def d2hBitsClr : Field := w1c 0x2010 0 32
def d2hMask : Field := rwL 0x2014 0 32 0xFFFFFFFF
def h2dPost : Field := wo 0x2018 0 8
def d2hFree : Field := wo 0x2018 8 8

/-! TMR (20_lodestone_timers.md) -/
def tmrEn (n : Nat) : Field := rwL (0x3100 + 0x20 * n) 0 1 0
def tmrMode (n : Nat) : Field := rwS (0x3100 + 0x20 * n) 1 3 0
def tmrGsrc (n : Nat) : Field := rwS (0x3100 + 0x20 * n) 4 4 0
def tmrGpol (n : Nat) : Field := rwS (0x3100 + 0x20 * n) 8 1 0
def tmrGedge (n : Nat) : Field := rwS (0x3100 + 0x20 * n) 9 2 1
def tmrLink (n : Nat) : Field := rwS (0x3100 + 0x20 * n) 11 2 0
def tmrMaster (n : Nat) : Field := rwS (0x3100 + 0x20 * n) 13 3 0
def tmrRKey (n : Nat) : Field := rwL (0x3100 + 0x20 * n) 16 1 0
def tmrRHook (n : Nat) : Field := rwL (0x3100 + 0x20 * n) 17 1 0
def tmrRCairn (n : Nat) : Field := rwL (0x3100 + 0x20 * n) 18 1 0
def tmrOut (n : Nat) : Field := rwL (0x3100 + 0x20 * n) 19 2 0
def tmrRVein (n : Nat) : Field := rwL (0x3100 + 0x20 * n) 24 8 0
def tmrPeriod (n : Nat) : Field := rwL (0x3104 + 0x20 * n) 0 32 0xFFFFFFFF
def tmrCount (n : Nat) : Field := rwL (0x3108 + 0x20 * n) 0 32 0
def tmrCapture (n : Nat) : Field := ro (0x310C + 0x20 * n) 0 32 0
def tmrRun (n : Nat) : Field := ro (0x3110 + 0x20 * n) 0 1 0
def tmrEvt (n : Nat) : Field := w1c (0x3110 + 0x20 * n) 1 1
def tmrCap (n : Nat) : Field := w1c (0x3110 + 0x20 * n) 2 1
def tmrOvr (n : Nat) : Field := rc (0x3110 + 0x20 * n) 16 16
def gpioFunc (g : Nat) : Field := rwL (0x3200 + 4 * g) 0 2 0
def gpioTimer (g : Nat) : Field := rwL (0x3200 + 4 * g) 2 3 0
def gpioLevel (g : Nat) : Field := rwL (0x3200 + 4 * g) 5 1 0
def gpioIn (g : Nat) : Field := ro (0x3200 + 4 * g) 6 1 0
def gpioFilt (g : Nat) : Field := rwL (0x3200 + 4 * g) 8 8 0
def gpioKedge (g : Nat) : Field := rwL (0x3200 + 4 * g) 16 2 0

/-! XFR (17_transfer_engine_and_buffers.md) -/
def xfrBaseLo : Field := rwS 0x4000 9 23 0
def xfrBaseHi : Field := rwS 0x4004 0 32 0
def chResume (n : Nat) : Field := wo (0x4040 + 4 * n) 0 1
def holdMs : Field := rwL 0x4204 0 10 100
def raceLost : Field := rc 0x420C 0 16
def raceDeferred : Field := rc 0x420C 16 16

/-! PWR (04, 05, 02) -/
def vinOk : Field := ro 0x5000 0 1 0
def onVres : Field := ro 0x5000 1 1 0
def band : Field := ro 0x5000 6 2 1
def resvCut : Field := ro 0x5000 17 1 0
def vresSet : Field := rwB 0x5008 0 6 24
def chgLimit : Field := rwL 0x5008 6 2 3
def measNow : Field := wo 0x500C 0 1
def pfwMode : Field := rwB 0x5040 0 2 0
def pfwDisc : Field := rwB 0x5040 2 7 20
def collTh : Field := rwL 0x5040 9 8 0
def pfwFault : Field := w1c 0x5044 6 1
def vcoreCode : Field := ro 0x5080 0 5 15
def vcoreLoop : Field := ro 0x5080 5 3 0
def vcorePace : Field := ro 0x5080 8 11 0
def ceilSeen : Field := w1c 0x5080 19 1

/-! EVR (21_amber_scree_and_trouble_counters.md) -/
def evrSupp : Field := rc 0x6010 0 16

/-! STR (13, 14) -/
def strMissDram : Field := rc 0x800C 0 16
def strMissFlash : Field := rc 0x800C 16 16
def qryFloor : Field := rwB 0x8100 0 6 6
def qryTarget : Field := rwB 0x8100 6 6 16
def qryShare : Field := rwB 0x8100 12 6 20
def qryRebuildShare : Field := rwB 0x8100 18 6 25
def wlDelta : Field := rwB 0x8180 0 6 10
def tOffset : Field := rwB 0x8180 8 6 0
def offH : Field := rwB 0x8180 14 8 168
def offRow : Field := rwB 0x8180 22 4 1

/-! FLC (15_flash_channels_and_vein_engines.md) -/
def chMode (n : Nat) : Field := ro (0x9000 + 0x100 * n) 0 2 0
def chTiming (n : Nat) : Field := ro (0x9000 + 0x100 * n) 4 4 0
def rxDly (n : Nat) : Field := rwB (0x9004 + 0x100 * n) 0 8 64
def errIface (n : Nat) : Field := rc (0x9008 + 0x100 * n) 0 16
def errHard (n : Nat) : Field := rc (0x9008 + 0x100 * n) 16 16
def chScr (n w : Nat) : Field := rwL (0x9010 + 0x100 * n + 4 * w) 0 32 0
def minRun : Field := rwB 0x9800 0 13 500
def susCount : Field := rc 0x9804 0 16
def susCapped : Field := rc 0x9804 16 16

/-! DRC (16_dram_controller.md) -/
def drcEn : Field := rwL 0xA000 0 1 0
def drcIdle : Field := ro 0xA000 1 1 1
def drcRate : Field := rwS 0xA004 0 3 1
def drcRanks2 : Field := rwS 0xA004 3 1 0
def drcX16 : Field := rwS 0xA004 4 1 0
def drcDensity : Field := rwS 0xA004 5 2 0
def drcMap : Field := rwS 0xA004 7 2 3
def drcRdbi : Field := rwS 0xA004 9 1 0
def drcForce2x : Field := rwS 0xA004 10 1 0
def drcCl : Field := rwS 0xA004 11 5 11
def drcCwl : Field := rwS 0xA004 16 5 9
def drcSet : Field := ro 0xA008 0 2 0
def drcReplay : Field := ro 0xA008 2 1 0
def drcReinit : Field := ro 0xA008 3 1 0
def drcRfail : Field := ro 0xA008 4 2 0
def drcIfail : Field := ro 0xA008 6 2 0
def postpone : Field := rwB 0xA00C 0 4 8
def ratThresh : Field := rwB 0xA010 0 16 0
def scrubHours : Field := rwL 0xA014 0 8 12
def eccCorr : Field := rc 0xA020 0 16
def eccUncorr : Field := rc 0xA020 16 16
def eccAddr : Field := ro 0xA024 0 32 0
def parAlerts : Field := rc 0xA028 0 16
def parReinit : Field := rc 0xA028 16 16
def ratCnt : Field := rc 0xA02C 0 32

/-! FAB (18_ilide_fabric.md) -/
def portEn : Field := rwL 0xB000 0 2 0
def portLink (p : Nat) : Field := ro (0xB010 + 4 * p) 0 2 0
def portFec (p : Nat) : Field := ro (0xB010 + 4 * p) 2 1 0
def portPaused (p : Nat) : Field := ro (0xB010 + 4 * p) 3 8 0
def portXoff (p : Nat) : Field := ro (0xB010 + 4 * p) 11 8 0
def portWd (p : Nat) : Field := ro (0xB010 + 4 * p) 19 8 0
def portDrop (p : Nat) : Field := rc (0xB020 + 8 * p) 0 16
def portBind (p : Nat) : Field := rc (0xB024 + 8 * p) 0 16
def quarClr : Field := wo 0xB040 0 32

/-! BEL (07, 08) -/
def hookEn : Field := rwL 0xD044 0 16 0
def hookMerged : Field := rc 0xD048 0 16
def dbgEng : Field := rwL 0xD800 0 4 0
def dbgStop : Field := rwL 0xD800 4 1 0
def dbgStep : Field := wo 0xD800 5 1

end Reg

end Sys2Proof.Machine
end

