-- ==== Sys2Proof/Machine/Events.lean ====
section
/-! DEFINITION. The catalogue of R516, the source units of R501 and the making of one event record (R500 to R507,
R513, R514): all of it but the notices that a kept record sends (Machine/Ops.lean). -/

namespace Sys2Proof.Machine

/-- Source units (R501). -/
def Src.basalt : Nat := 0x00
def Src.ledger : Nat := 0x01
def Src.start : Nat := 0x02
def Src.keystone : Nat := 0x03
def Src.hook : Nat := 0x04
def Src.channel (n : Nat) : Nat := 0x10 + n
def Src.dieSched : Nat := 0x18
def Src.strata : Nat := 0x20
def Src.quarry : Nat := 0x21
def Src.tumbler : Nat := 0x22
def Src.ring : Nat := 0x30
def Src.mailbox : Nat := 0x31
def Src.xfr : Nat := 0x32
def Src.pcie : Nat := 0x33
def Src.dram : Nat := 0x40
def Src.fab (p : Nat) : Nat := 0x50 + p
def Src.ilide : Nat := 0x52
def Src.cairn : Nat := 0x58
def Src.sec : Nat := 0x60
def Src.flint : Nat := 0x61
def Src.usb : Nat := 0x62
def Src.image : Nat := 0x68
def Src.lodestone : Nat := 0x70
def Src.selfTest : Nat := 0x78
def Src.recorder : Nat := 0x7F

/-- Severity and rate class of each code (R516); a code it does not list is not recorded. -/
def catalogue : List (Nat × Nat × Nat) :=
  [(0x0010,1,0),(0x0011,6,0),(0x0012,9,0),(0x0013,12,0),(0x0014,4,2),(0x0015,11,0),(0x0016,8,3),(0x0017,13,0),
   (0x0020,8,3),(0x0030,12,0),(0x0043,14,0),(0x0044,13,0),(0x0060,10,3),(0x1001,2,0),(0x1002,2,0),(0x1003,3,0),
   (0x1010,11,0),(0x1011,15,0),(0x1012,15,0),(0x1013,9,0),(0x1020,14,0),(0x1030,4,0),(0x1040,5,2),(0x1041,5,2),
   (0x1042,5,2),(0x1050,12,0),(0x1060,3,1),(0x1070,3,1),(0x1071,4,1),(0x1072,4,0),(0x1073,4,0),(0x1074,1,3)]
  ++ [(0x2003,4,1),(0x2005,4,1),(0x2004,5,1),(0x2010,10,2),(0x2011,7,3),(0x2020,5,2),(0x2021,5,2),(0x2022,9,1),
   (0x2030,5,2),(0x2031,5,2),(0x2040,8,2),(0x2041,6,3),(0x2042,7,0),(0x2050,8,2),(0x2051,8,1),(0x3010,6,1),
   (0x3020,12,0),(0x3021,13,0),(0x3050,13,0),(0x3051,13,0),(0x3060,8,3),(0x3061,12,0),(0x3062,10,3),(0x3070,10,0),
   (0x3071,6,0),(0x3072,14,0),(0x3080,6,1),(0x3081,8,0),(0x3082,9,0),(0x3090,9,2),(0x3091,6,0)]
  ++ [(0x4001,2,0),(0x4002,13,0),(0x4010,4,2),(0x4011,9,1),(0x4020,5,2),(0x4030,10,0),(0x4031,14,0),(0x4040,4,2),
   (0x4050,2,1),(0x5001,2,1),(0x5002,7,1),(0x5003,6,1),(0x5010,2,1),(0x5011,8,1),(0x5012,7,1),(0x5030,9,2),
   (0x5031,7,2),(0x5040,10,1),(0x5041,4,1),(0x6010,10,0),(0x6011,9,0),(0x6012,8,0),(0x6020,4,1),(0x6021,8,1),
   (0x6022,2,1),(0x6023,10,2),(0x6030,8,0),(0x6031,8,0),(0x6040,5,1),(0x6041,3,1),(0x6042,8,1)]
  ++ [(0x6050,13,0),(0x6051,10,0),(0x6052,5,0),(0x7001,3,1),(0x7002,5,0),(0x7003,5,0),(0x7004,5,0),(0x7005,9,1),
   (0x7010,12,0),(0x7020,8,0),(0x7021,10,0),(0x7030,6,0),(0x7040,4,1),(0x7041,10,0),(0x7042,5,2),(0x8001,15,0),
   (0x8002,13,0),(0x8010,6,1),(0x8011,11,0),(0x8012,9,0),(0x8013,4,0),(0x8020,3,1),(0x9001,2,1),(0x9002,2,1),
   (0x9003,11,0),(0x9004,5,1),(0xA010,9,1),(0xA011,8,1),(0xA013,10,0),(0xA020,5,1),(0xA021,5,1),(0xA022,6,2),
   (0xA023,8,2),(0xA024,8,0),(0xF001,6,0),(0xF002,4,0),(0xF003,4,1),(0xF010,11,0),(0xF011,9,0)]

/-- Severity and rate class of a code; hook logs (0xA100 to 0xA1FF) are one row of R516. -/
def sevRate (code : Nat) : Nat × Nat :=
  if 0xA100 ≤ code ∧ code ≤ 0xA1FF then (3, 2)
  else ((catalogue.find? fun r => r.1 == code).map fun r => r.2).getD (0, 0)

/-- Bucket size of a rate class, and the ticks between two regained tokens (R513; 25 000 000 ticks a second). -/
def bucketSize : Nat → Nat
  | 1 => 64 | 2 => 8 | _ => 2
def bucketPeriod : Nat → Nat
  | 1 => 390625 | 2 => 3125000 | _ => 25000000

/-- The event time field (R500, R502). -/
def State.timeField (s : State) : Nat :=
  if s.time.calSet then s.time.calendar % 2 ^ 64
  else s.time.optMs % 2 ^ 40 + (s.time.cycles % 2 ^ 24) * 2 ^ 40

/-- An event time field of kind 0 (R484, `TMR_OPT`). -/
def State.optField (s : State) : Nat := s.time.optMs % 2 ^ 40 + (s.time.cycles % 2 ^ 24) * 2 ^ 40

/-- Uptime low half. -/
def State.upLo (s : State) : Nat := s.time.uptime % 2 ^ 32

/-- The 32 bytes of a record (R500). -/
def EvRec.bytes (r : EvRec) : Bytes :=
  let body := natLe 2 r.code ++ [BitVec.ofNat 8 (r.kind * 64 + r.area * 16 + r.sev), BitVec.ofNat 8 r.src]
    ++ natLe 8 r.time ++ natLe 4 r.p1 ++ natLe 4 r.p2 ++ natLe 4 r.p3 ++ natLe 4 r.p4
  body ++ natLe 4 (crc32c body).toNat

/-- Raise a trouble counter by 1, stopping at 0xFFFF (R517). -/
def State.bumpPlain (s : State) (i : Nat) : State :=
  { s with evr.tc := s.evr.tc.set 0 i (satAdd 0xFFFF (s.evr.tc.get 0 i) 1) }

/-- Records that Amber holds, staged ones included (R507). -/
def State.amberHeld (s : State) : Nat :=
  s.nv.amber.length + (s.evr.staging.filter fun r => r.area == 1).length

/-- The tokens of a code's bucket now (R513): it starts full, and a token returns at each whole period of uptime. -/
def State.tokens (s : State) (code cls : Nat) : Nat :=
  match s.evr.buckets.get? code with
  | none => bucketSize cls
  | some b => min (bucketSize cls) (b.tokens + (s.time.uptime / bucketPeriod cls - b.seen / bucketPeriod cls))

/-- Put a record into Scree staging, which has room for it (R505, R507). -/
def State.stage (s : State) (code src p1 p2 p3 p4 : Nat) : State :=
  let r : EvRec :=
    { code := code, kind := b2n s.time.calSet, area := b2n (s.amberHeld < 4096), sev := (sevRate code).1, src := src,
      time := s.timeField, p1 := p1 % 2 ^ 32, p2 := p2 % 2 ^ 32, p3 := p3 % 2 ^ 32, p4 := p4 % 2 ^ 32 }
  { s with evr := { s.evr with
      staging := s.evr.staging ++ [r], last := code } }

/-- Keep a record, or lose it when all 256 places are in use (R506); after step 6 of a drain none is kept (R505).
The flag says whether it was kept. -/
def State.keep (s : State) (code src p1 p2 p3 p4 : Nat) : State × Bool :=
  if s.evr.shut then (s, false)
  else if 256 ≤ s.evr.staging.length then
    ({ s.bumpPlain 1 with evr.lost := s.evr.lost + 1 }, false)
  else (s.stage code src p1 p2 p3 p4, true)

/-- One record through the recorder's arbiter (R503): a token, or suppression (R513, R514); then R505 to R507.
The flag says whether the record was kept. -/
def State.recordCore (s : State) (code src p1 p2 p3 p4 : Nat) : State × Bool :=
  let cls := (sevRate code).2
  let t := s.tokens code cls
  if cls ≠ 0 ∧ t = 0 then
    let x := s.evr.supp.get ⟨0, s.upLo⟩ code
    ({ (s.bumpPlain 0).countF Reg.evrSupp 1 with
        evr.supp := s.evr.supp.put code ⟨x.count + 1, x.first⟩ }, false)
  else
    let s1 := if cls = 0 then s
      else { s with evr.buckets := s.evr.buckets.put code ⟨t - 1, s.time.uptime⟩ }
    let was := s1.amberHeld
    let r := s1.keep code src p1 p2 p3 p4
    if r.2 ∧ was = 4095 then ((r.1.keep 0xF002 Src.recorder 0 0 0 0).1, true) else r

end Sys2Proof.Machine
end

