-- ==== Sys2Proof/Machine/Ops.lean ====
section
/-! DEFINITION. The operations many units share: access to the units held in tables, engine flags, hook and cairn
triggers, MSI-X messages, completion entries, the recording of events with its notices, trouble counters with the
cairns that count them, and changes of the device state. -/

namespace Sys2Proof.Machine

/-- What a command answers. -/
abbrev Result := Host.Outcome State Fault Refusal

/-! ### Units held in tables -/

def State.ring (s : State) (n : Nat) : Ring := s.rings.get {} n
def State.setRing (s : State) (n : Nat) (r : Ring) : State := { s with rings := s.rings.set {} n r }
def State.chan (s : State) (n : Nat) : Chan := s.chans.get {} n
def State.setChan (s : State) (n : Nat) (c : Chan) : State := { s with chans := s.chans.set {} n c }
def State.engine (s : State) (e : Nat) : Engine := s.eng.get {} e
def State.setEngine (s : State) (e : Nat) (x : Engine) : State := { s with eng := s.eng.set {} e x }
def State.vol (s : State) (v : Nat) : Vol := s.nv.vols.get {} v
def State.setVol (s : State) (v : Nat) (x : Vol) : State := { s with nv.vols := s.nv.vols.set {} v x }
def State.cairn (s : State) (c : Nat) : Cairn := s.nv.cairns.get {} c
def State.setCairn (s : State) (c : Nat) (x : Cairn) : State := { s with nv.cairns := s.nv.cairns.set {} c x }

/-- Send something out of the device. -/
def State.emit (s : State) (o : Out) : State := { s with out := o :: s.out }

/-- A page of LOG_READ has changed (R277). -/
def State.touch (s : State) (page : Nat) : State := { s with pageSeq := s.pageSeq.set 0 page (s.pageSeq.get 0 page + 1) }

/-- Ticks in a number of milliseconds and of microseconds (R33: 40 ns ticks). -/
def msTicks (ms : Nat) : Nat := ms * 25000
def usTicks (us : Nat) : Nat := us * 25

/-! ### Device states -/

/-- READY or READY_DEGRADED. -/
def Dev.inService (d : Dev) : Bool := d = .ready ∨ d = .readyDegraded
/-- READY, READY_DEGRADED or PRE_FREEZE. -/
def Dev.serves (d : Dev) : Bool := d.inService ∨ d = .preFreeze
/-- The logic die runs: its registers can be reached and its units can act. -/
def State.dieUp (s : State) : Bool := s.dev ≠ .off ∧ s.dev ≠ .safe ∧ ¬ s.bas.dieReset
/-- A block such as DRC, FAB, CRN or Quarry does not run (R587). -/
def Dev.minimal (d : Dev) : Bool := d = .rom ∨ d = .bedrock ∨ d = .recovery

/-! ### Engines and hooks -/

/-- Raise event flag `i` of engine `e` (R139). -/
def State.raise (s : State) (e i : Nat) : State :=
  let x := s.engine e
  s.setEngine e { x with ev := x.ev ||| (1#16 <<< i) }

/-- Raise a flag on every Vein engine named in an 8-bit set. -/
def State.raiseVein (s : State) (set i : Nat) : State :=
  (List.range 8).foldl (fun t v => if bit set v then t.raise (2 + v) i else t) s

/-- Hook entry fields (R169). -/
def hookTrig (e : Bytes) : Nat := leAt e 0 1
def hookDetail (e : Bytes) : Nat := leAt e 1 1
def hookCode (e : Bytes) : Nat := leAt e 2 2
def hookAddr (e : Bytes) : Nat := leAt e 4 4
def hookBudget (e : Bytes) : Nat := leAt e 8 4
def grantH2d (e : Bytes) : Nat := leAt e 12 4
def grantD2h (e : Bytes) : Nat := leAt e 16 4
def grantH2dSlots (e : Bytes) : Nat := leAt e 20 1
def grantD2hSlots (e : Bytes) : Nat := leAt e 21 1
def grantGpioOut (e : Bytes) : Nat := bits (leAt e 22 1) 3 0
def grantGpioEdge (e : Bytes) : Nat := bits (leAt e 22 1) 7 4
def grantTimers (e : Bytes) : Nat := leAt e 23 1
def grantCairn (e : Bytes) (c : Nat) : Bool := leAt e 24 2 ≤ c ∧ c < leAt e 24 2 + leAt e 26 2

/-- The entry of the hook that runs. -/
def State.hookEntry (s : State) : Bytes := (s.hooks.table[s.hooks.entry]?).getD []

/-- The running hook, if any, has this grant. -/
def State.granted (s : State) (p : Bytes → Bool) : Bool := s.hooks.busy && p s.hookEntry

/-- Queue a request for one entry, or merge it (R172). -/
def State.queueHook (s : State) (i : Nat) : State :=
  if s.hooks.queue.any fun r => r.entry == i then s.countF Reg.hookMerged 1
  else
    let s1 := { s with hooks.queue := s.hooks.queue ++ [HookReq.mk i s.upLo] }
    let s2 := s1.raise 0 5
    if s.hooks.busy then s2.raise 1 5 else s2

/-- The supervisor program runs, so that hooks may (R155). -/
def State.supervisor (s : State) : Bool := (s.engine 0).run && !(s.engine 0).dbg

/-- A trigger event: every enabled entry that `p` accepts gets a request (R172). Hooks run in service only, and not
after FREEZE (R93). -/
def State.hookTrigger (s : State) (p : Bytes → Bool) : State :=
  if s.bas.freeze ∨ ¬ s.supervisor then s
  else (placesOf p 0 s.hooks.table).foldl
    (fun t i => if bit (t.f Reg.hookEn) i then t.queueHook i else t) s

/-- A trigger of a kind that names a bit, slot, timer or event by number. -/
def hookIs (kind num : Nat) (e : Bytes) : Bool := hookTrig e == kind && bits (hookDetail e) 4 0 == num

/-! ### MSI-X (R185, R186) -/

/-- A vector's table entry is masked. -/
def State.vecMasked (s : State) (v : Nat) : Bool := (s.pcie.msix.byte (16 * v + 12)).getLsbD 0

/-- Whether the function may send a message now: R186. -/
def State.mayMsix (s : State) : Bool :=
  s.pcie.msixEn && s.pcie.bme && !s.pcie.d3 && !s.bas.freeze && !s.pcie.perstHeld

/-- Signal a vector: a message, or its pending bit. -/
def State.signal (s : State) (v : Nat) : State :=
  if s.mayMsix ∧ ¬ s.pcie.fnMask ∧ ¬ s.vecMasked v then s.emit (.msix v)
  else { s with pcie.pba := withBit s.pcie.pba v true }

/-! ### Completions (R205, R206, R217 to R221) -/

/-- Host writes may be issued: R94, R189, R192, R223. -/
def State.mayPost (s : State) : Bool := s.pcie.bme && !s.pcie.d3 && !s.bas.freeze && !s.pcie.perstHeld

/-- The count of outcomes of R577: class `c`, place `i` of its record. -/
def State.countClass (s : State) (c i : Nat) : State :=
  let k := 8 * (c - 1) + i
  { s.touch 6 with cls := s.cls.set 0 k (satAdd 0xFFFFFFFF (s.cls.get 0 k) 1) }

/-- The 32 bytes of a completion entry (R217); the deadline of R255 is 40 µs, 1000 ticks. -/
def cplStatus (now : Nat) (c : Cpl) : Nat := if c.deadline ∧ c.status = 0 ∧ c.arrive + 1000 < now then 1 else c.status
def cplBytes (r : Ring) (now : Nat) (c : Cpl) : Bytes :=
  natLe 2 (cplStatus now c) ++ [BitVec.ofNat 8 c.tag, BitVec.ofNat 8 (b2n r.phase + 2 * b2n c.async)]
    ++ natLe 4 c.cookie ++ natLe 2 c.slot ++ natLe 2 r.sqHead ++ padTo 16 c.result ++ natLe 4 (now - c.arrive)

/-- The index-block bytes 8 to 23 (R200). -/
def idxBytes (r : Ring) : Bytes :=
  natLe 4 r.sqHead ++ natLe 4 (r.cqTail + 65536 * b2n r.phase) ++ natLe 8 r.written

/-- Running fields take effect at the next fetch or post (R198). -/
def Ring.atBoundary (r : Ring) : Ring :=
  if r.nextRun then
    match r.synced with
    | some x =>
      let c := { r.ctx with
        vector := x.vector, prefetch := x.prefetch, modCount := x.modCount, modTime := x.modTime, chainTo := x.chainTo }
      { r with nextRun := false, ctx := c }
    | none => { r with nextRun := false }
  else r

/-- A free completion slot: (T + 1) mod depth ≠ H (R205). -/
def Ring.cqRoom (r : Ring) : Bool := (r.cqTail + 1) % r.ctx.cqDepth ≠ r.cqHead

/-- Free completion slots. -/
def Ring.cqFree (r : Ring) : Nat := (r.cqHead + r.ctx.cqDepth - r.cqTail - 1) % r.ctx.cqDepth

/-- The ring after a completion entry is written at its tail. -/
def Ring.advance (r : Ring) (c : Cpl) : Ring :=
  let t := (r.cqTail + 1) % r.ctx.cqDepth
  let cmds := if c.releases then r.cmds.filter (fun m => m.tag ≠ c.tag) else r.cmds
  { r with cqTail := t, phase := if t = 0 then !r.phase else r.phase, written := (r.written + 1) % 2 ^ 64, cmds := cmds }

/-- The interrupt that a written completion gives rise to (R220). -/
def State.moderate (s : State) (n : Nat) (c : Cpl) : State :=
  let r := s.ring n
  if c.async then s.signal 0
  else if c.noint then s
  else if r.ctx.modTime = 0 ∨ r.ctx.modCount ≤ r.modN + 1 then
    (s.setRing n { r with modN := 0 }).signal r.ctx.vector
  else s.setRing n { r with modN := r.modN + 1, modSince := if r.modN = 0 then s.time.uptime else r.modSince }

/-- A ring that is disabling becomes idle when its last tag is released and its last completion is written (R222). -/
def State.settleRing (s : State) (n : Nat) : State :=
  let r := s.ring n
  if r.state = 2 ∧ r.cmds.isEmpty ∧ r.waiting.isEmpty then s.setRing n { r with state := 0 } else s

/-- Write one completion entry: entry, index block, then the message (R221). -/
def State.writeCpl (s : State) (n : Nat) (c : Cpl) : State :=
  let r := (s.ring n).atBoundary
  let s1 := s.emit (.hostWrite (r.ctx.cqBase + 32 * r.cqTail) (cplBytes r s.time.uptime c))
  let r1 := r.advance c
  let s2 := s1.setRing n r1
  let s3 := if r1.ctx.idxwr then s2.emit (.hostWrite (r1.ctx.idxBase + 8) (idxBytes r1)) else s2
  s3.moderate n c

/-- Write waiting completions in order while they may be written and slots are free; `k` bounds their number. -/
def State.flushCpls (s : State) (n : Nat) : Nat → State
  | 0 => s
  | k + 1 =>
    let r := s.ring n
    match r.waiting with
    | [] => s
    | c :: cs =>
      if ¬ s.mayPost then s
      else if r.cqRoom then State.flushCpls ((s.setRing n { r with waiting := cs }).writeCpl n c) n k
      else if c.counted then s
      else (s.setRing n { r with waiting := { c with counted := true } :: cs }).bumpPlain 0x24

/-- Write what can be written on a ring. -/
def State.pumpRing (s : State) (n : Nat) : State :=
  (s.flushCpls n ((s.ring n).waiting.length)).settleRing n

/-- Hand a completion to its ring. -/
def State.postCpl (s : State) (n : Nat) (c : Cpl) : State :=
  let r := s.ring n
  (s.setRing n { r with waiting := r.waiting ++ [c] }).pumpRing n

/-! ### Events with their notices (R219, R288, R169) -/

/-- The codes that post an asynchronous entry (R288). -/
def asyncCodes : List Nat :=
  [0x1003, 0x0012, 0x0013, 0x0015, 0x0017, 0x0044, 0x0060, 0x1050, 0x3050, 0x3051, 0x4030, 0x6031, 0x6050, 0x8002,
   0x8011, 0x9003, 0xA013]

/-- Post an asynchronous entry on CQ 0, or drop and count it (R219). -/
def State.asyncEntry (s : State) (code : Nat) : State :=
  let r := s.ring 0
  if r.state = 1 ∧ 32 < r.cqFree then
    s.postCpl 0 {
      status := 0, tag := 0xFF, async := true, cookie := 0, slot := 0,
      result := natLe 4 0 ++ natLe 2 code ++ natLe 2 s.dev.code ++ natLe 8 s.timeField,
      arrive := s.time.uptime, noint := false, deadline := false, releases := false }
  else if r.state = 1 then (s.countF Reg.asyncLost 1).bumpPlain 0x29 else s

/-- What a kept record sends: its asynchronous entry and the hook requests of trigger 5. -/
def State.notice (s : State) (code : Nat) : State :=
  let s1 := s.touch 2
  let s2 := if asyncCodes.contains code then s1.asyncEntry code else s1
  s2.hookTrigger fun e => hookTrig e == 5 && hookCode e == code

/-- Record an event with its four parameters. -/
def State.record (s : State) (code src : Nat) (p1 : Nat := 0) (p2 : Nat := 0) (p3 : Nat := 0) (p4 : Nat := 0) : State :=
  let r := s.recordCore code src p1 p2 p3 p4
  if r.2 then r.1.notice code else r.1

/-! ### Cairn triggers (R469 to R471) -/

/-- Header fields of a cairn entry (R466). -/
def Cairn.flag (c : Cairn) (i : Nat) : Bool := bit (leAt c.entry 0 1) i
def Cairn.kind (c : Cairn) : Nat := leAt c.entry 1 1
def Cairn.detail (c : Cairn) : Nat := leAt c.entry 2 1
def Cairn.actions (c : Cairn) : Nat := leAt c.entry 3 1
def Cairn.thresh (c : Cairn) : Nat := leAt c.entry 4 2
def Cairn.minGap (c : Cairn) : Nat := leAt c.entry 6 2
def Cairn.source (c : Cairn) : Nat := leAt c.entry 8 2
def Cairn.next (c : Cairn) : Nat := leAt c.entry 10 2

/-- MIN_GAP has not passed since the cairn's last t0. -/
def State.inGap (s : State) (c : Cairn) : Bool :=
  match c.t0Tick with
  | some t => s.time.uptime < t + msTicks c.minGap
  | none => false

/-- Drop a trigger (R470): its counts and event 0xA022. -/
def State.dropTrigger (s : State) (i : Nat) (gap : Bool) : State :=
  let c := s.cairn i
  let s1 := s.setCairn i { c with drops := satAdd 0xFFFF c.drops 1 }
  let s2 := if gap then { s1 with crn.dropGap := satAdd 0xFFFF s1.crn.dropGap 1 }
    else { s1 with crn.dropA := satAdd 0xFFFF s1.crn.dropA 1 }
  ((s2.touch 0x0B).bumpPlain 0x51).record 0xA022 Src.cairn i

/-- Put a firing into the fire queue (R471). -/
def State.queueFiring (s : State) (i kind t0 t0Field depth : Nat) : State :=
  let c := s.cairn i
  let f : Firing := { cairn := i, number := c.firings + 1, kind := kind, t0 := t0, t0Field := t0Field, depth := depth }
  let c' := { c with
    state := 2, firings := satAdd 0xFFFF c.firings 1, depth := depth, t0 := t0Field, t0Tick := some t0, count := 0,
    ended := 0 }
  { (s.setCairn i c').touch 0x0B with crn.queue := s.crn.queue ++ [f] }

/-- A trigger of cairn `i` at this instant. Answer 0: fired; 1: dropped, not ARMED or queue full; 2: dropped by
MIN_GAP. Outside READY, READY_DEGRADED and PRE_FREEZE nothing fires (R469), and the answer is 1. -/
def State.fireCairn (s : State) (i kind t0 t0Field depth : Nat) : State × Nat :=
  let c := s.cairn i
  if ¬ s.dev.serves ∨ s.bas.freeze then (s, 1)
  else if c.state ≠ 1 ∨ 32 ≤ s.crn.queue.length then (s.dropTrigger i false, 1)
  else if s.inGap c then (s.dropTrigger i true, 2)
  else (s.queueFiring i kind t0 t0Field depth, 0)

/-- A trigger with t0 now. -/
def State.trigger (s : State) (i kind : Nat) : State × Nat := s.fireCairn i kind s.time.uptime s.optField 0

/-- Every cairn, in index order, whose entry `p` accepts is triggered. -/
def State.triggerAll (s : State) (kind : Nat) (p : Cairn → Bool) : State :=
  ((s.nv.cairns.filter fun x => p x.2).map fun x => x.1).foldl (fun t i => (t.trigger i kind).1) s

/-- Count one increment of trouble counter `i` against the ARMED cairns that count it, and fire those that reach
THRESH (R469 kind 2; increments at saturation count). -/
def State.countCairns (s : State) (i : Nat) : State :=
  ((s.nv.cairns.filter fun x => x.2.state == 1 && x.2.kind == 2 && x.2.detail == i).map fun x => x.1).foldl
    (fun t j =>
      let c := t.cairn j
      if c.thresh ≤ c.count + 1 then ((t.setCairn j { c with count := 0 }).trigger j 2).1
      else t.setCairn j { c with count := c.count + 1 }) s

/-- Raise a trouble counter, with the cairns that count it. -/
def State.bump (s : State) (i : Nat) : State := ((s.bumpPlain i).touch 4).countCairns i

/-- A late arrival (R37). -/
def State.late (s : State) : State := s.bump 0x21

/-- A write that is ignored: reserved address, missing role, or a block that does not run (R8, R587). -/
def State.ignoredWrite (s : State) : State := s.bump 0x03

/-- A value that is dropped with event 0x1041. -/
def State.dropValue (s : State) (src p1 : Nat) : State := s.record 0x1041 src p1

/-- Trial time counts while the device is in service (R558). -/
def State.countTrial (s : State) (was : Bool) : State :=
  if was ∧ ¬ s.dev.inService then
    { s with img.trialHeld := s.img.trialHeld + (s.time.uptime - s.img.trialAt) / 25000 }
  else if ¬ was ∧ s.dev.inService then { s with img.trialAt := s.time.uptime }
  else s

/-- Change the device state; a change after host access is accepted records event 0x1003 (R288). The USB port is attached
in READY, READY_DEGRADED, BEDROCK and RECOVERY only (R562). -/
def State.setDev (s : State) (d : Dev) : State :=
  if d = s.dev then s
  else
    let old := s.dev.code
    let s0 := if d.inService ∨ d = .bedrock ∨ d = .recovery then s
      else { s with usb := { vbus := s.usb.vbus } }
    let s1 := { s0 with dev := d }.countTrial s.dev.inService
    if s.start.hostAccess then s1.record 0x1003 Src.start old d.code else s1

/-- The command has had its effect. -/
def ok (s : State) : Result := .next s

/-- A register write: without effect where the logic die does not run, ignored and counted in RECOVERY (R587). -/
def State.asWrite (s : State) (f : State → State) : Result :=
  if ¬ s.dieUp then ok s else if s.dev = .recovery then ok s.ignoredWrite else ok (f s)

end Sys2Proof.Machine
end

