-- ==== Sys2Proof/Machine/Ledger.lean ====
section
/-! DEFINITION. The energy ledger (R78 to R88), the causes of READY_DEGRADED (R275), and the buffer counts that the
ledger and the allocator share (R415, R417, R418). Voltages are in mV, energies in µJ. -/

namespace Sys2Proof.Machine

/-- Charged base and charged unit cost of a temperature band (R80). -/
def bandBase : Nat → Nat
  | 0 => 11000 | 1 => 10000 | _ => 12000
def bandUnit : Nat → Nat
  | 0 => 62 | 1 => 56 | _ => 70

def State.base (s : State) : Nat := bandBase (s.f Reg.band)
def State.unitCost (s : State) : Nat := bandUnit (s.f Reg.band)

/-- Unused cycle-reserve units that are charged (R83). -/
def State.reserveUnused (s : State) : Nat := if s.led.reserveCharged then s.alloc.resSize - s.alloc.resUsed else 0

/-- Energy-at-risk (R80, R83). -/
def State.risk (s : State) : Nat := s.base + s.unitCost * (s.led.charged + s.reserveUnused)

/-- 20 times the floor voltage: 5.0 V + 3.0 A × (1.05 ESR + 2 mΩ) (R76, R78). -/
def vFloor20 (esr : Nat) : Nat := 100120 + 63 * esr

/-- `k` billionths of C × (v_top² − v_floor²), rounded to the nearest µJ (DEDUCED from the walk-through of
04_supply_rails_and_reservoir.md): 388 gives e_usable, 291 the limit (R76, R78). -/
def energyOf (k c esr vtop : Nat) : Nat :=
  if 20 * vtop ≤ vFloor20 esr then 0
  else (k * c * ((20 * vtop) ^ 2 - vFloor20 esr ^ 2) + 200 * 10 ^ 9) / (400 * 10 ^ 9)

/-- v_top of R78: the lower of VRES at the measurement and live VRES, and of a staged VRES_SET (R88). -/
def State.vTop (s : State) : Nat :=
  let v := min s.led.vtop s.bas.vresMv
  match s.led.stagedSet with
  | some x => min v (min (12000 + 500 * x) s.bas.vresSetMv)
  | none => v

/-- The ledger admits no one: no measurement has completed in this start, or the last one failed (R77, R85). -/
def State.ledgerShut (s : State) : Bool := !s.led.valid || s.led.failed

/-- A of R84. -/
def State.ledgerA (s : State) : Nat := (s.led.limit - s.base - s.alloc.resSize * s.unitCost) / s.unitCost

/-- Closed to all by R84. -/
def State.closedAll (s : State) : Bool := s.led.limit < s.base + s.unitCost

/-- The ledger is open to service class `c` (R84, R85). -/
def State.openTo (s : State) (c : Nat) : Bool :=
  if s.ledgerShut ∨ s.closedAll then false
  else if 256 ≤ s.ledgerA then true
  else if 16 ≤ s.ledgerA then c ≠ 7 ∧ c ≠ 8
  else c = 3 ∨ c = 2

/-- The energy of `k` more units fits (R82). -/
def State.energyFits (s : State) (k : Nat) : Bool := s.risk + s.unitCost * k ≤ s.led.limit

/-- Note the highest energy-at-risk (`PWR_RISK_PEAK`). -/
def State.notePeak (s : State) : State := { s with led.peak := max s.led.peak s.risk }

/-- The cycle reserve the configuration asks for: item 6 (R415). -/
def State.reserveWanted (s : State) : Nat :=
  match s.nv.config.get? (6 * 65536) with
  | some b => bits (leAt b 0 4) 9 0
  | none => 128

/-! ### READY_DEGRADED (R275, R123) -/

/-- The causes of R275, bit by bit. -/
def State.causes (s : State) : List Bool :=
  [s.nv.failed.channels ≠ 0, s.nv.failed.luns ≠ 0, s.portsFailed ≠ 0, s.f Reg.resvCut = 1,
   s.led.valid && !s.led.failed && s.closedAll, s.led.failed, s.f Reg.vcoreLoop = 4, s.time.ringOsc, !s.supervisor,
   s.rebuilding, s.sparesOut, s.flintLatched]

/-- IDENTIFY bytes 60 to 63. -/
def boolsNat : List Bool → Nat
  | [] => 0
  | b :: bs => b2n b + 2 * boolsNat bs
def State.degradedBits (s : State) : Nat := boolsNat s.causes

/-- At least one of bits 0 to 8 is 1. -/
def State.degraded (s : State) : Bool := (s.causes.take 9).any id

/-- READY or READY_DEGRADED, by the causes. -/
def State.serviceState (s : State) : Dev := if s.degraded then .readyDegraded else .ready

/-- Move between READY and READY_DEGRADED as the causes say (R275). -/
def State.regrade (s : State) : State := if s.dev.inService then s.setDev s.serviceState else s

/-! ### The ledger after a change of limit, band or charge (R84, R86) -/

/-- The reserve that leaves 64 units (R84). -/
def State.reserveKept (s : State) : Nat :=
  if s.led.limit < s.base + (64 + s.reserveWanted) * s.unitCost then
    (s.led.limit - s.base - 64 * s.unitCost) / s.unitCost
  else s.reserveWanted

/-- Cut or restore the reserve (R84). -/
def State.cutReserve (s : State) : State :=
  if s.ledgerShut then s
  else
    let k := s.reserveKept
    let was := s.f Reg.resvCut
    let s1 := ({ s with alloc.resSize := k }).setF Reg.resvCut (b2n (k < s.reserveWanted))
    if k < s.reserveWanted ∧ was = 0 then s1.record 0x0012 Src.ledger k else s1

/-- Settle the ledger after its limit, its band or its charges have changed; `wasClosed` says whether it was closed
to all before. -/
def State.settleLedger (s : State) (wasClosed : Bool) : State :=
  let s1 := s.cutReserve.notePeak
  let s2 := if ¬ s1.ledgerShut ∧ s1.closedAll ∧ ¬ wasClosed then s1.record 0x0013 Src.ledger else s1
  let excess := decide (s2.led.eUsable < s2.risk) && !s2.ledgerShut
  let s3 := if excess ∧ ¬ s2.led.overUsable then s2.record 0x0017 Src.ledger else s2
  ({ s3 with led.overUsable := excess }).regrade

/-- Recompute e_usable and the limit from the last measurement and live VRES (R78); a measurement in progress keeps
the dip basis in force. -/
def State.relimit (s : State) : State :=
  if s.ledgerShut then s
  else
    let was := s.closedAll
    let e := energyOf 388 s.led.c s.led.esr s.vTop
    let l := energyOf 291 s.led.c s.led.esr s.vTop
    let s1 := match s.led.phase with
      | .waitDip => { s with led.eUsable := e, led.savedLimit := l }
      | .falling => { s with led.eUsable := e, led.savedLimit := l }
      | _ => { s with led.eUsable := e, led.limit := l }
    s1.settleLedger was

/-! ### Staging units and their charge (R415 to R422) -/

/-- Free general units. -/
def State.genFree (s : State) : Nat :=
  1536 - s.alloc.withdrawn - max s.alloc.resSize s.alloc.resUsed - s.alloc.genUsed
/-- Free reserve units. -/
def State.resFree (s : State) : Nat := s.alloc.resSize - s.alloc.resUsed

/-- Headroom of R418. -/
def headroom : Nat → Nat
  | 6 => 8 | 7 => 32 | 8 => 256 | 9 => 512 | _ => 0

/-- `k` general units fit class `c` (R418). -/
def State.unitsFit (s : State) (c k : Nat) : Bool := k + headroom c ≤ s.genFree

/-- Take `k` general units and charge them (R417). -/
def State.takeGeneral (s : State) (k : Nat) : State :=
  ({ s with alloc.genUsed := s.alloc.genUsed + k, led.charged := s.led.charged + k }).notePeak

/-- Move `k` units from the cycle reserve to admitted data: no further admission (R83). -/
def State.takeReserve (s : State) (k : Nat) : State :=
  { s with alloc.resUsed := s.alloc.resUsed + k, led.charged := s.led.charged + k }

/-- Return `k` units and their charge (R422); `pool` is the pool of R575 they are released to. -/
def State.giveBack (s : State) (k pool : Nat) (fromReserve : Bool) : State :=
  let rel := (s.time.uptime, pool, k) :: s.alloc.released.filter (fun r => s.time.uptime < r.1 + msTicks 10)
  if fromReserve then
    { s with alloc.resUsed := s.alloc.resUsed - k, alloc.released := rel, led.charged := s.led.charged - k }
  else
    { s with alloc.genUsed := s.alloc.genUsed - k, alloc.released := rel, led.charged := s.led.charged - k }

/-- Units released to a pool in the last 10 ms; `all` counts every pool (R575). -/
def State.releasedIn (s : State) (all : Bool) (pool : Nat) : Nat :=
  ((s.alloc.released.filter fun r => (all || r.2.1 == pool) && s.time.uptime < r.1 + msTicks 10).map fun r => r.2.2).sum

/-- The retry hint of R575 in µs: ⌈1000 × missing / (released per ms)⌉, 10 000 when nothing was released. -/
def hintOf (missing released10 : Nat) : Nat :=
  if released10 = 0 then 10000 else max 100 (min 1000000 (ceilDiv (10000 * missing) released10))

/-! ### Words of the status registers -/

/-- `GLB_STATE`. -/
def State.glbState (s : State) : Nat := s.dev.code + 16 * s.start.kind
/-- `GLB_START`. -/
def State.glbStart (s : State) : Nat :=
  s.start.fails + 16 * s.start.src + 128 * (s.start.slot % 2) + 256 * b2n s.start.trial + 65536 * s.start.timeMs
/-- `GLB_BEDROCK_CAUSE`. -/
def State.glbCause (s : State) : Nat := if s.dev = .bedrock then s.start.bedrockCause else 0
/-- `PWR_LAST_STOP`. -/
def State.lastStopWord (s : State) : Nat :=
  let l := s.nv.lastStop
  l.cause + 8 * b2n l.sealDone + 16 * l.units + 2 ^ 15 * b2n l.loss + 65536 * l.drainT

/-- The 32-byte record of a start on page 0x0D: time field, `GLB_START`, `GLB_STATE.KIND` and `PWR_LAST_STOP`, in that order
(DEDUCED: the spec names the fields only). -/
def State.noteStart (s : State) : State :=
  let r := padTo 32 (natLe 8 s.timeField ++ natLe 4 s.glbStart ++ natLe 4 s.start.kind ++ natLe 4 s.lastStopWord)
  { s.touch 0x0D with nv.startHist := (r :: s.nv.startHist).take 16 }

end Sys2Proof.Machine
end

