-- ==== Sys2Proof/Machine/Power.lean ====
section
/-! DEFINITION. The VCORE loop and the crystal (02_time_without_a_clock.md), the charger, the reservoir measurement
and the junction sensor (04_supply_rails_and_reservoir.md). The commands that stop or start the device stand in
Machine/Collapse.lean and Machine/Start.lean. -/

namespace Sys2Proof.Machine

/-! ### VCORE (R29 to R31) -/

def State.paceTarget (s : State) : Nat := s.nv.paceFloor + 64

/-- The row of R29 that holds, as the loop state it leads to. -/
def State.paceRow (s : State) (pace : Nat) : Nat :=
  if s.bas.freeze then 5
  else if ¬ s.vcore.released then 0
  else if s.f Reg.vcoreLoop = 4 ∧ s.vcore.above < 400 then 4
  else if pace < s.paceTarget ∧ s.f Reg.vcoreCode < 30 then 2
  else if pace < s.nv.paceFloor ∧ s.f Reg.vcoreCode = 30 then 4
  else if 16 ≤ s.vcore.high ∧ 0 < s.f Reg.vcoreCode then 3
  else 1

/-- Count the window into PACE and into the runs of windows R29 asks about. -/
def State.countWindow (s : State) (pace : Nat) : State :=
  ({ s with vcore := { s.vcore with
      above := if s.paceTarget ≤ pace then s.vcore.above + 1 else 0
      high := if s.paceTarget + 64 < pace then s.vcore.high + 1 else 0 } }).setF Reg.vcorePace (min pace 2047)

/-- Act on the row. -/
def State.paceAct (s : State) (row : Nat) : State :=
  let was := s.f Reg.vcoreLoop
  let s1 := s.setF Reg.vcoreLoop row
  if row = 2 then ({ s1 with vcore.unacked := true }).emit (.vcoreStep true) |>.regrade
  else if row = 3 then ({ s1 with vcore.unacked := true, vcore.high := 0 }).emit (.vcoreStep false) |>.regrade
  else if row = 4 ∧ was ≠ 4 then
    (((s1.setF Reg.ceilSeen 1).bump 0x0C).record 0x0060 Src.basalt).regrade
  else s1.regrade

/-- PACE_WINDOW_END (R29, R30, R31): a window that ends while a step is unacknowledged takes no action. -/
def execPaceWindowEnd (pace : BitVec 16) (s : State) : Result :=
  if ¬ s.dieUp then ok s
  else
    let s1 := s.countWindow pace.toNat
    if s1.vcore.unacked ∧ ¬ s1.bas.freeze then ok s1 else ok (s1.paceAct (s1.paceRow pace.toNat))

/-- VCORE_STEP_ACK (R30): Basalt reports the code it has applied. -/
def execVcoreStepAck (code : Fin 31) (s : State) : Result :=
  if s.vcore.unacked then ok (({ s with vcore.unacked := false }).setF Reg.vcoreCode code.val) else ok s

/-! ### Crystal (R35) -/

/-- The crystal is lost: the ring oscillator takes over (R35). -/
def State.crystalLost (s : State) : State :=
  ((({ s with time.ringOsc := true }).bump 0x0D).record 0x8002 Src.lodestone).regrade

/-- CRYSTAL_LOST (R35): count from the ring oscillator, record 0x8002, degraded until the next start. -/
def execCrystalLost (s : State) : Result :=
  if ¬ s.dieUp ∨ s.time.ringOsc ∨ (s.dev = .rom ∧ s.start.rom ≠ .running ∧ s.start.rom ≠ .stuck) then ok s
  else ok s.crystalLost

/-- NO_CRYSTAL_TIMEOUT (R35): the ROM records 0x8001 and stays in state ROM without service. -/
def execNoCrystalTimeout (s : State) : Result :=
  if s.dev = .rom ∧ s.start.rom = .crystal then ok (({ s with start.rom := .stuck }).record 0x8001 Src.lodestone) else ok s

/-! ### Charger (R65 to R67) -/

/-- Riset lies between 6 kΩ and 60 kΩ (R66). -/
def risetOk (r : Nat) : Bool := 6000 ≤ r ∧ r ≤ 60000

/-- The charger's mode at a field voltage: stopped above 38 V, BOOST below VRES_SET − 1.0 V, else FOLLOW. -/
def State.chargerMode (s : State) (vin : Nat) : Nat :=
  if s.bas.freeze ∨ ¬ risetOk s.bas.riset then 0
  else if 38000 < vin then 3
  else if vin + 1000 < s.bas.vresSetMv then 1
  else 2

/-- The power states VIN and VRES give (R64). -/
def State.noteVin (s : State) (vin vres : Nat) : State :=
  (({ s with bas.vinMv := vin, bas.vresMv := vres }).setF Reg.vinOk (b2n (4500 ≤ vin ∧ vin ≤ 36000))).setF
    Reg.onVres (b2n (vin < vres))

/-- CHARGER_MODE_CHANGE (R67). A measurement that has stopped the charger keeps it stopped (R74). -/
def execChargerModeChange (vin : BitVec 16) (s : State) : Result :=
  let s1 := s.noteVin vin.toNat s.bas.vresMv
  if ¬ s.bas.inputOn ∨ s.led.phase = .falling then ok s1
  else ok { s1 with bas.chgMode := s1.chargerMode vin.toNat }

/-- VIN_OVERVOLTAGE (R65): the charger stops, and event 0x0020 records the peak in mV and the duration in µs. -/
def execVinOvervoltage (peakMv durationUs : BitVec 32) (s : State) : Result :=
  if ¬ s.bas.inputOn then ok s
  else ok (({ s with bas.chgMode := 3 }).record 0x0020 Src.basalt peakMv.toNat durationUs.toNat)

/-! ### Measuring the reservoir (R73 to R77) -/

/-- A 32-byte record of log page 0x0C. -/
def State.measRecord (s : State) (c esr vtop e l outcome : Nat) : Bytes :=
  natLe 8 s.timeField ++ natLe 4 c ++ natLe 4 esr ++ natLe 4 vtop ++ natLe 4 e ++ natLe 4 l ++ natLe 4 outcome

def State.addMeas (s : State) (r : Bytes) : State := { s.touch 0x0C with nv.measHist := (r :: s.nv.measHist).take 32 }

/-- A measurement is asked for. -/
def State.askMeasure (s : State) : State :=
  if s.led.phase = .idle then { s with led.phase := .due, led.retryMs := 0 } else s

/-- Measurements run: the die is up and no drain is under way. -/
def State.mayMeasure (s : State) : Bool := s.dieUp && !s.bas.freeze

/-- MEASUREMENT_DUE (R73). -/
def execMeasurementDue (s : State) : Result := if s.mayMeasure then ok s.askMeasure else ok s

/-- PWR_MEAS_NOW (R73): a write of 1 to `PWR_MEAS_CTRL.NOW`. -/
def State.measureNow (s : State) : State := if s.mayMeasure then s.askMeasure else s

def execPwrMeasNow (s : State) : Result := s.asWrite State.measureNow

/-- A new VRES_SET is staged (R88); values of 47 and above are dropped with event 0x1041. -/
def State.stageVres (s : State) (value : Nat) : State :=
  if 47 ≤ value then s.dropValue Src.ledger 0x5008
  else ({ s with
      led.stagedSet := some value, staged := s.staged.put Reg.vresSet.key value }).askMeasure.relimit

/-- MEASUREMENT_BEGIN (R74 steps 1 and 2): VRES_SET's boundary, and the limit comes down to the dip basis. -/
def execMeasurementBegin (s : State) : Result :=
  if ¬ s.mayMeasure ∨ s.led.phase ≠ .due then ok s
  else
    let s1 := match s.led.stagedSet with
      | some v =>
        ({ s with bas.vresSetMv := 12000 + 500 * v, staged := s.staged.erase Reg.vresSet.key }).setF Reg.vresSet v
      | none => s
    let was := s1.closedAll
    let basis := if s1.ledgerShut then 0 else energyOf 291 s1.led.c s1.led.esr (min s1.vTop s1.bas.vresMv - 500)
    ok (({ s1 with
      led.phase := .waitDip, led.savedLimit := s1.led.limit, led.vtopNow := s1.bas.vresMv
      led.limit := basis }).settleLedger was)

/-- VIN lies within its operating range. -/
def State.vinInRange (s : State) : Bool := 4500 ≤ s.bas.vinMv ∧ s.bas.vinMv ≤ 36000

/-- Energy-at-risk is at or below the dip basis. Before the first measurement the ledger holds nothing but its base,
and no basis binds (DEDUCED from R74 and R85). -/
def State.dipReached (s : State) : Bool := s.ledgerShut || s.risk ≤ s.led.limit

/-- DIP_BASIS_REACHED (R74 step 3, R75): the charger stops and the fall begins, if VIN is in range. -/
def execDipBasisReached (s : State) : Result :=
  if s.led.phase = .waitDip ∧ s.dipReached ∧ s.vinInRange ∧ s.mayMeasure then
    ok { s with led.phase := .falling, bas.chgMode := 0 }
  else ok s

/-- MEASUREMENT_ABANDONED (R75). -/
def execMeasurementAbandoned (s : State) : Result :=
  if s.led.phase = .waitDip ∧ s.mayMeasure then
    let was := s.closedAll
    let s1 := { s with led.phase := .idle, led.limit := s.led.savedLimit, led.retryMs := 1000 }
    ok ((((s1.settleLedger was).bump 0x04).record 0x0014 Src.ledger).addMeas (s.measRecord 0 0 s.led.vtopNow 0 0 2))
  else ok s

/-- A measurement fails (R77): the ledger is closed, and the next attempt is due in 60 s. -/
def State.measureFails (s : State) : State :=
  let s1 := { s with led.phase := .idle, led.failed := true, led.retryMs := 60000 }
  (((s1.bump 0x07).record 0x0015 Src.ledger).addMeas (s.measRecord 0 0 s.led.vtopNow 0 0 1)).regrade

/-- A measurement completes with C in µF and ESR in mΩ (R74 step 6, R76, R78). -/
def State.measured (s : State) (c esr : Nat) : State :=
  let was := s.closedAll
  let s1 := { s with
    led.phase := .idle, led.retryMs := 0, led.valid := true, led.doneAt := s.time.uptime, led.failed := false, led.c := c, led.esr := esr
    led.vtop := s.led.vtopNow, led.stagedSet := none, bas.chgMode := s.chargerMode s.bas.vinMv }
  let e := energyOf 388 c esr s1.vTop
  let l := energyOf 291 c esr s1.vTop
  let s2 := ({ s1 with led.eUsable := e, led.limit := l }).record 0x0010 Src.ledger c esr s.led.vtopNow e
  let s3 := if l < 120000 then s2.record 0x0011 Src.ledger else s2
  (s3.addMeas (s.measRecord c esr s.led.vtopNow e l 0)).settleLedger was

/-- RESERVOIR_FALL_TIMED (R74 steps 4 to 6, R77): 50 mA for the fall of 0.50 V give C = ticks / 250 µF. -/
def execReservoirFallTimed (ticks : BitVec 32) (esr : BitVec 16) (s : State) : Result :=
  if s.led.phase ≠ .falling ∨ ¬ s.mayMeasure then ok s
  else if ticks.toNat < 100000 ∨ 3000000 < ticks.toNat then
    ok ({ s with bas.chgMode := s.chargerMode s.bas.vinMv }).measureFails
  else ok (s.measured (ticks.toNat / 250) esr.toNat)

/-- RESERVOIR_CHARGE_TIMEOUT (R77): VRES_SET − 0.25 V not reached within 5 s. -/
def execReservoirChargeTimeout (s : State) : Result :=
  if s.mayMeasure ∧ ¬ s.led.valid then ok s.measureFails else ok s

/-- VRES_SAMPLE (R78): live VRES, every 64 ticks, with VIN beside it. -/
def execVresSample (vres vin : BitVec 16) (s : State) : Result :=
  if s.bas.inputOn then ok (s.noteVin vin.toNat vres.toNat).relimit else ok s

/-- VRES_LOW (R79): outside a measurement. -/
def execVresLow (s : State) : Result :=
  if s.mayMeasure ∧ s.led.phase ≠ .waitDip ∧ s.led.phase ≠ .falling then ok (s.record 0x0016 Src.ledger) else ok s

/-! ### Junction temperature (R80, R593) -/

/-- The band a temperature lies in without hysteresis: 0 up to 0 °C, 1 to 85 °C, 2 to 125 °C, 3 above. -/
def bandOf (t : Int) : Nat := if t < 0 then 0 else if t < 85 then 1 else if t < 125 then 2 else 3

/-- The band after a reading: 3 °C of hysteresis on the way down (R80). -/
def bandAfter (old : Nat) (t : Int) : Nat := if old ≤ bandOf t then bandOf t else min old (bandOf (t + 3))

end Sys2Proof.Machine
end

