-- ==== Sys2Proof/Machine/Collapse.lean ====
section
/-! DEFINITION. FREEZE, the power-fail warning and the drain (05_when_the_field_supply_collapses.md). -/

namespace Sys2Proof.Machine

/-! ### Hooks at an abandonment (R173, R174) -/

/-- Stop the running hook (R174): counted; the third in a row disables its entry. -/
def State.abandonHook (s : State) : State :=
  let i := s.hooks.entry
  let n := s.hooks.abandoned.get 0 i + 1
  let x := s.engine 1
  let s1 := (s.setEngine 1 { x with run := false, waiting := none }).bump 0x50
  let s2 := { s1 with hooks := { s1.hooks with busy := false, abandoned := s1.hooks.abandoned.set 0 i n } }
  if 3 ≤ n then
    (({ s2 with hooks.abandoned := s2.hooks.abandoned.erase i }).setF Reg.hookEn (withBit (s2.f Reg.hookEn) i false)).record
      0xA013 Src.hook i
  else s2

/-! ### FREEZE (R89, R92 to R94) -/

/-- Units of commands that hold staging without an applied effect are discarded (R93, R108). -/
def State.dropMoving (s : State) (c : Cmd) : State :=
  if c.units ≠ 0 ∧ (c.stage = .moving ∨ c.stage = .running) then s.giveBack c.units 0 c.fromReserve else s

/-- A connection's context. -/
def State.conn (s : State) (c : Nat) : Conn := s.fab.conns.get {} c
def State.setConn (s : State) (c : Nat) (x : Conn) : State := { s with fab.conns := s.fab.conns.set {} c x }
/-- The partition slot of a connection (R443). -/
def State.connSlot (s : State) (c : Nat) : Nat := leAt (s.tab.conn.get [] c) 1 1

/-- A connection's partly received message is discarded and its units come back. -/
def State.dropIn (s : State) (c : Nat) : State :=
  let x := s.conn c
  match x.inMsg with
  | some m => (s.setConn c { x with inMsg := none }).giveBack m.units (1 + s.connSlot c) false
  | none => s

/-- A 32-byte self-test record (R287). -/
def State.selfRecord (s : State) (t : SelfTest) (result failing detail : Nat) : Bytes :=
  natLe 8 s.timeField ++ [BitVec.ofNat 8 result, BitVec.ofNat 8 failing, BitVec.ofNat 8 t.kind,
    BitVec.ofNat 8 (b2n (s.led.valid && decide (s.led.limit < 120000)))] ++
  natLe 4 (ceilDiv (s.time.uptime - t.began) 25000) ++ natLe 4 detail ++ List.replicate 12 0

/-- Put a self-test's record first on page 0x08. -/
def State.endSelfRecord (s : State) (t : SelfTest) (result failing detail : Nat) : State :=
  { s.touch 8 with
    nv.selfTests := (s.selfRecord t result failing detail :: s.nv.selfTests).take 16
    nv.lastSelf := result + 256 * t.kind
    selfTest := none }

/-- Firings at FREEZE (R481): those whose pins and record are durable wait to resume; of the others nothing exists. -/
def State.freezeCairns (s : State) : State :=
  let kept := s.crn.running.filter fun f => f.durable
  let lost := s.crn.queue ++ s.crn.running.filter fun f => !f.durable
  let s1 := lost.foldl (fun t f =>
    let c := t.cairn f.cairn
    let pins := t.nv.pins.filter fun (p : Pin) => !(f.pins.any fun q => q.1 == p.handle && q.2.1 == p.vol)
    { t.setCairn f.cairn { c with state := if c.cancelled then 0 else 1, cancelled := false } with nv.pins := pins }) s
  let s2 := kept.foldl (fun t f => t.setCairn f.cairn { t.cairn f.cairn with state := 4 }) s1
  { s2 with nv.firings := s2.nv.firings ++ kept, crn := { s2.crn with queue := [], running := [] } }

/-- A channel at FREEZE (R93, R365): the operation in progress runs on, suspended programs resume at class 1, an erase
in progress or suspended is reset, and nothing else that waits is issued. -/
def FChan.freeze (c : FChan) : FChan :=
  let reset (o : FOp) : FOp :=
    { o with kind := 5, cls := 1, resume := false, suspendable := false, load := .none, suspends := 0 }
  let progs := (c.susp.filter fun o => o.kind ≠ 3).map fun (o : FOp) => { o with resume := true, cls := 1, suspendable := false }
  let erases := (c.susp ++ c.cur.toList).filter fun o => o.kind == 3
  { c with queue := progs ++ erases.map reset, susp := [] }

/-- A block of a LUN. -/
def State.lun (s : State) (n : Nat) : Lun := s.nv.luns.get {} n
def State.setLun (s : State) (n : Nat) (l : Lun) : State := { s with nv.luns := s.nv.luns.set {} n l }
def State.block (s : State) (n b : Nat) : FBlock := (s.lun n).blocks.get {} b
def State.setBlock (s : State) (n b : Nat) (x : FBlock) : State :=
  let l := s.lun n
  s.setLun n { l with blocks := l.blocks.set {} b x }

/-- A flash channel. -/
def State.fchan (s : State) (n : Nat) : FChan := s.fl.chans.get {} n
def State.setFchan (s : State) (n : Nat) (c : FChan) : State := { s with fl.chans := s.fl.chans.set {} n c }

/-- The staging units an operation carries. -/
def FOp.ids (o : FOp) : List Nat :=
  match o.load with
  | .units ids => ids
  | _ => []

/-- Flash at FREEZE: units of operations that have not started are staged again, and erases leave their blocks
erase-incomplete (R93, R366). -/
def State.freezeFlash (s : State) : State :=
  (List.range 8).foldl (fun t n =>
    let c := t.fchan n
    let back := c.queue.flatMap FOp.ids
    let erases := (c.susp ++ c.cur.toList).filter fun o => o.kind == 3
    let t1 := erases.foldl (fun (u : State) o => u.setBlock o.lun o.block { u.block o.lun o.block with state := .incomplete }) t
    let t2 := { t1 with str.units := t1.str.units.map fun (u : SUnit) =>
      if u.place = UnitAt.programming ∧ back.contains u.id then { u with place := UnitAt.staged } else u }
    t2.setFchan n c.freeze) s

/-- What every block does at its safe point (R93). -/
def State.freezeBlocks (s : State) : State :=
  let s1 := if s.hooks.busy then s.abandonHook else s
  let s2 := ((s1.rings.flatMap fun r => r.2.cmds)).foldl State.dropMoving s1
  let s3 := (s2.raiseVein 0xFF 4).freezeCairns.freezeFlash
  let s4 := (s3.fab.conns.map fun c => c.1).foldl State.dropIn s3
  let s5 := match s4.selfTest with
    | some t => (s4.record 0x9004 Src.selfTest t.kind).endSelfRecord t 3 0 0
    | none => s4
  { s5 with
    rings := s5.rings.map fun r => (r.1, { r.2 with cmds := [], waiting := [], chain := none, snap := none })
    mbx := { s5.mbx with h2dFull := 0, d2hFull := 0 }
    led := { s5.led with phase := .idle, stagedSet := s5.led.stagedSet }
    bas := { s5.bas with chgMode := 0 }
    hooks := { s5.hooks with queue := [] } }

/-- The cause code of `PWR_LAST_STOP` (a draining reset leaves 0: no code is given for it). -/
def FreezeCause.code : FreezeCause → Nat
  | .collapse => 1 | .pfw => 2 | .railFault => 3 | .resetPin => 0 | .restart => 0

/-- The supply fails while a draining reset is under way: its drain ends in SAFE; with the logic die in reset there is nothing
left to drain (DEDUCED from R89 and R105). -/
def State.turnToSafe (s : State) (cause : FreezeCause) : State :=
  let s1 := { s with bas.freeze := true, bas.cause := some cause }
  if s.bas.dieReset then
    { s1 with dev := .safe, bas.latchCause := cause.code, bas.safeReleased := false, bas.rails := .removed }
  else { s1 with drain.warm := false }

/-- Raise FREEZE: the device drains (R89, R101). `warm`: a reset that drains first (R116). -/
def State.freezeNow (s : State) (cause : FreezeCause) (warm : Bool) : State :=
  if s.dev = .off ∨ s.dev = .safe then s
  else if s.bas.dieReset ∨ s.bas.freeze then
    if ¬ warm ∧ (s.bas.dieReset ∨ s.drain.warm) then s.turnToSafe cause else s
  else
    let s1 := s.freezeBlocks
    let s2 := { s1 with bas.freeze := true, bas.cause := some cause, drain := { step := 1, warm := warm } }
    s2.setDev .draining

/-- The collapse threshold in mV (R90). -/
def State.collapseMv (s : State) : Nat := 4200 + 200 * s.f Reg.collTh

/-- SUPPLY_COLLAPSE (R89, R92): VIN falls below the threshold. -/
def execSupplyCollapse (vin : BitVec 16) (s : State) : Result :=
  let s1 := s.noteVin vin.toNat s.bas.vresMv
  if vin.toNat < s.collapseMv then ok (s1.freezeNow .collapse false) else ok s1

/-! ### PFW (R95 to R100) -/

/-- A channel warns under a MODE at given levels (R95). -/
def warnA (mode : Nat) (aOn : Bool) : Bool := mode ≠ 0 && !aOn
def warnB (mode : Nat) (bOn : Bool) : Bool := if mode = 1 then !bOn else if mode = 2 then bOn else false

def State.warnsA (s : State) : Bool := warnA (s.f Reg.pfwMode) s.pfw.aOn
def State.warnsB (s : State) : Bool := warnB (s.f Reg.pfwMode) s.pfw.bOn

/-- PFW acts in this state (R97). -/
def State.pfwActs (s : State) : Bool :=
  (s.dev = .starting ∧ s.start.configLoaded) ∨ s.dev.serves ∨ s.dev = .bedrock

/-- Enter PRE_FREEZE (R98, R100); entry from service triggers the PFW cairns (R469 kind 5). -/
def State.enterPreFreeze (s : State) (ch : PfwCh) : State :=
  let served := s.dev.inService
  let s1 := ({ s with pfw := { s.pfw with state := .timing, first := ch, back := s.dev } }).setDev .preFreeze
  if served then s1.triggerAll 5 fun c => c.kind == 5 && c.state ≠ 0 else s1

/-- Return to the state before the warning (R98). -/
def State.leavePreFreeze (s : State) (p : PfwState) : State :=
  let s1 := { s with pfw.state := p }
  if s.pfw.back.inService then s1.setDev s1.serviceState else s1.setDev s.pfw.back

/-- Confirmed: both channels warn (R98); event 0x8012 (R516), and the device drains. -/
def State.confirmPfw (s : State) : State := (s.record 0x8012 Src.basalt).freezeNow .pfw false

/-- Settle the state machine after a channel's level changed (R98, R99). -/
def State.settlePfw (s : State) (ch : PfwCh) : State :=
  match s.pfw.state with
  | .armed =>
    if s.warnsA ∧ s.warnsB then (s.enterPreFreeze ch).confirmPfw
    else if s.warnsA then s.enterPreFreeze .a
    else if s.warnsB then s.enterPreFreeze .b
    else s
  | .timing =>
    if s.warnsA ∧ s.warnsB then s.confirmPfw
    else if ¬ s.warnsA ∧ ¬ s.warnsB then ((s.leavePreFreeze .armed).bump 0x31).record 0x8010 Src.basalt
    else s
  | _ => s

/-- The boundary of MODE and DISC_MS (R106): both channels idle with PFW ARMED or disabled. -/
def State.pfwBoundary (s : State) : State :=
  if (s.pfw.state = .armed ∨ s.pfw.state = .off) ∧ ¬ s.warnsA ∧ ¬ s.warnsB ∧
     ((s.staged.get? Reg.pfwMode.key).isSome ∨ (s.staged.get? Reg.pfwDisc.key).isSome) then
    let m := s.staged.get (s.f Reg.pfwMode) Reg.pfwMode.key
    let d := s.staged.get (s.f Reg.pfwDisc) Reg.pfwDisc.key
    let s1 := (s.setF Reg.pfwMode m).setF Reg.pfwDisc d
    { s1 with
      staged := (s1.staged.erase Reg.pfwMode.key).erase Reg.pfwDisc.key
      pfw.state := if m = 0 then .off else .armed
      bas.modeCopy := some m }
  else s

/-- The warning returns to idle at the staged boundary, and a channel that warns under a new MODE opens TIMING. -/
def State.pfwMoved (s : State) (ch : PfwCh) : State :=
  if s.bas.freeze ∨ ¬ s.pfwActs then s
  else
    let s1 := (s.settlePfw ch).pfwBoundary
    if s1.bas.freeze then s1 else s1.settlePfw ch

/-- PFW_CHANNEL_CHANGE (R96, R98): a channel's filtered level, held for 50 µs. -/
def execPfwChannelChange (ch : PfwCh) (on : Bool) (s : State) : Result :=
  let s1 := match ch with
    | .a => { s with pfw.aOn := on }
    | .b => { s with pfw.bOn := on }
  ok (s1.pfwMoved ch)

/-- PFW_DISCREPANCY_EXPIRY (R98, R99): D ends with exactly one channel warning. -/
def execPfwDiscrepancyExpiry (s : State) : Result :=
  if s.pfw.state = .timing ∧ ¬ s.bas.freeze then
    ok ((((s.leavePreFreeze .disarmed).setF Reg.pfwFault 1).bump 0x30).record 0x8011 Src.basalt)
  else ok s

/-- PFW_REARM (R98): both channels idle for D while DISARMED. -/
def execPfwRearm (s : State) : Result :=
  if s.pfw.state = .disarmed ∧ ¬ s.warnsA ∧ ¬ s.warnsB ∧ ¬ s.bas.freeze then
    ok ((({ s with pfw.state := .armed }).record 0x8013 Src.basalt).pfwMoved .a)
  else ok s

/-! ### The drain (R101 to R105) -/

def State.stopCause (s : State) : Nat := (s.bas.cause.map FreezeCause.code).getD 0

/-- A unit whose program is verified and whose journal record is durable (R311). -/
def SUnit.durable (u : SUnit) : Bool := u.place = UnitAt.verified && u.journalled

/-- Units that are durable leave staging with their charge (R311, R422). -/
def State.releaseDurable (s : State) : State :=
  let durable := s.str.units.filter SUnit.durable
  let s1 := durable.foldl (fun t u => t.giveBack 1 u.part u.fromReserve) s
  { s1 with str.units := s1.str.units.filter fun (u : SUnit) => !u.durable }

/-- Records of verified programs become durable with the manifest or the journal (R101 steps 2 and 4). -/
def State.journalVerified (s : State) : State :=
  ({ s with
    str.units := s.str.units.map fun (u : SUnit) => if u.place = UnitAt.verified then { u with journalled := true } else u
    str.openPage := [], str.pages := [] }).releaseDurable

/-- Step 1: programs under way run to status; a unit whose relocation failed too stays staged. -/
def State.drainPrograms (s : State) (failed : List Nat) : State :=
  { s with
    str.units := s.str.units.map fun (u : SUnit) =>
      if u.place = UnitAt.programming then
        if failed.contains u.id then { u with place := UnitAt.staged } else { u with place := UnitAt.verified }
      else u }

/-- Step 3: every remaining unit goes to the drain area; one whose relocation fails is listed with cause 4 at the next
start (R102). -/
def State.drainUnits (s : State) (failed : List Nat) : State :=
  let left := s.str.units.filter fun u => u.place == UnitAt.staged
  { s with
    str.units := s.str.units.map fun (u : SUnit) =>
      if u.place = UnitAt.staged ∧ ¬ failed.contains u.id then { u with drained := true } else u
    nv.drainFailed := left.filter fun u => failed.contains u.id
    drain.units := (left.filter fun u => !failed.contains u.id).length }

/-- Save what every journal page and boot record carries (R484, R518). -/
def State.saveTimes (s : State) : State :=
  { s with
    nv.savedOpt := max s.nv.savedOpt s.time.optMs
    nv.savedCycles := max s.nv.savedCycles s.time.cycles
    nv.savedTc := s.evr.tc }

/-- Move staged records to the recorder area (R505 to R508): Amber keeps those with area 1, Scree the newest 32 768. -/
def State.flushScree (s : State) : State :=
  let st := s.evr.staging
  { s with
    nv.amber := s.nv.amber ++ st.filter (fun r => r.area == 1)
    nv.scree := (s.nv.scree ++ st).drop (s.nv.scree.length + st.length - 32768)
    nv.screeSeq := s.nv.screeSeq + st.length
    evr.staging := [] }

/-- How the run ended, for the next start (`PWR_LAST_STOP`). -/
def State.noteStop (s : State) (sealDone : Bool) : State :=
  { s with
    nv.lastStop := { cause := s.stopCause, sealDone := sealDone, units := if sealDone then s.drain.units else 0,
                     loss := false, drainT := if sealDone then s.drain.elapsed else 0 }
    nv.drained := s.nv.drained ++ s.str.units.filter fun (u : SUnit) => u.drained
    bas.latchCause := if s.drain.warm then s.bas.latchCause else s.stopCause }

/-- The end of a drain: SAFE with SAFE_n asserted and the rails removed (R105, R107), or the logic die into reset
(R116). -/
def State.endDrain (s : State) : State :=
  if s.drain.warm then { s with bas.dieReset := true, drain.step := 0 }
  else { s with dev := .safe, drain.step := 0, bas.safeReleased := false, bas.rails := .removed }

/-- The drain ends before its seal (R104). `reached` names the units that are in the drain area by then; every other unit of
the intent list is lost, or, with no manifest, the loss is unknown. -/
def State.cutDrain (s : State) (reached : List Nat) : State :=
  let us := s.str.units.map fun (u : SUnit) => { u with drained := u.drained || (s.drain.manifest && reached.contains u.id) }
  let s1 := { s with str.units := us }.bump 0x06
  { s1 with
    nv.missing := s1.nv.missing ++ us.filter fun (u : SUnit) => !u.drained
    nv.noManifest := s1.nv.noManifest || !s.drain.manifest
    nv.drainCut := true, nv.savedTc := s1.evr.tc }

/-- DRAIN_CUT_SHORT (R104): VRES reaches the floor before the seal. -/
def execDrainCutShort (reached : List Nat) (s : State) : Result :=
  if s.drain.step = 0 ∨ s.drain.sealDone ∨ s.drain.warm then ok s
  else ok (((s.cutDrain reached).noteStop false).endDrain)

/-- INPUT_STAGE_OFF (R105, R107): Basalt's input stage stops; its always-on copies are lost. A logic die that still ran stops
without its drain (DEDUCED: as a drain cut short before its manifest, or where it stands). -/
def execInputStageOff (s : State) : Result :=
  let s1 := if s.dieUp then
      (if s.drain.sealDone then s.noteStop true else if s.drain.step ≠ 0 ∨ ¬ s.str.units.isEmpty then (s.cutDrain []).noteStop false
       else s.noteStop false)
    else s
  ok { s1 with
    dev := .off
    bas := { s1.bas with inputOn := false, rails := .off, modeCopy := none, freeze := false, cause := none, chgMode := 0,
                         safeReleased := false, dieReset := false, alert := false } }

/-- The PFW inputs hold a restart (R106). -/
def State.pfwHolds (s : State) : Bool :=
  match s.bas.modeCopy with
  | none => false
  | some m => warnA m s.pfw.aOn || warnB m s.pfw.bOn

/-- SAFE_RESTART (R105, R596): VIN has been in range and above the threshold for 100 ms with no warning, at 140 °C or less. -/
def execSafeRestart (s : State) : Result :=
  if s.dev = .safe ∧ s.bas.rails = .removed ∧ s.vinInRange ∧ s.collapseMv < s.bas.vinMv ∧ ¬ s.pfwHolds ∧ s.junction ≤ 140 then
    ok { s with bas.rails := .rising, bas.nextSrc := 1, bas.dieReset := true }
  else ok s

end Sys2Proof.Machine
end

