-- ==== Sys2Proof/Config.lean ====
section
/-! DEFINITION. What one part fixes and the spec leaves open: the free values of the model. None has a body, so that no
proof can see a value. -/

namespace Sys2Proof

/-- Output bytes of the DRBG in the order they are drawn (R539: random by construction). -/
opaque Config.drbg : Nat → BitVec 8
/-- The maker role key of the hidden fuses, 32 bytes (R530). -/
opaque Config.makerKey : Nat → BitVec 8
/-- Whether a signature of R548 verifies: key index 0 to 3, the bytes it covers, and the 64 signature bytes. The four
public keys lie in the ROM and the spec does not give them. -/
opaque Config.signatureOk : Nat → Bytes → Bytes → Bool
/-- The calibration row's bytes that are fixed at manufacture (R371). -/
opaque Config.calibration : Nat → BitVec 8
/-- What a 16-bit count field of `XFR_TRANSIT` shows of a count that it cannot hold. -/
opaque Config.transitField : Nat → BitVec 16
/-- The volume and the journal point that a loss entry of cause 5 names, by the power-cycle count of the start (R113). -/
opaque Config.lossVolume : Nat → BitVec 8
opaque Config.lossPoint : Nat → BitVec 64
/-- What the USB descriptors of the calibration row hold beyond R563: the bytes of idVendor, idProduct and bcdDevice, and the
descriptors of strings 1 and 2. -/
opaque Config.usbIds : Nat → BitVec 8
opaque Config.usbString : Nat → Bytes
/-- The version of the mask ROM (R274, bytes 52 to 55). -/
opaque Config.romVersion : BitVec 32

end Sys2Proof
end

