-- ==== Sys2Proof/Machine/Crypto.lean ====
section
/-! DEFINITION. SHA-256 (FIPS 180-4) and HMAC-SHA-256, as R167, R429, R462, R526 and R549 use them. -/

namespace Sys2Proof.Machine

/-- The 64 round constants. -/
def shaK : List Nat :=
  [0x428a2f98, 0x71374491, 0xb5c0fbcf, 0xe9b5dba5, 0x3956c25b, 0x59f111f1, 0x923f82a4, 0xab1c5ed5,
   0xd807aa98, 0x12835b01, 0x243185be, 0x550c7dc3, 0x72be5d74, 0x80deb1fe, 0x9bdc06a7, 0xc19bf174,
   0xe49b69c1, 0xefbe4786, 0x0fc19dc6, 0x240ca1cc, 0x2de92c6f, 0x4a7484aa, 0x5cb0a9dc, 0x76f988da,
   0x983e5152, 0xa831c66d, 0xb00327c8, 0xbf597fc7, 0xc6e00bf3, 0xd5a79147, 0x06ca6351, 0x14292967]
  ++ [0x27b70a85, 0x2e1b2138, 0x4d2c6dfc, 0x53380d13, 0x650a7354, 0x766a0abb, 0x81c2c92e, 0x92722c85,
   0xa2bfe8a1, 0xa81a664b, 0xc24b8b70, 0xc76c51a3, 0xd192e819, 0xd6990624, 0xf40e3585, 0x106aa070,
   0x19a4c116, 0x1e376c08, 0x2748774c, 0x34b0bcb5, 0x391c0cb3, 0x4ed8aa4a, 0x5b9cca4f, 0x682e6ff3,
   0x748f82ee, 0x78a5636f, 0x84c87814, 0x8cc70208, 0x90befffa, 0xa4506ceb, 0xbef9a3f7, 0xc67178f2]

/-- The initial hash value. -/
def shaInit : List Word :=
  [0x6a09e667, 0xbb67ae85, 0x3c6ef372, 0xa54ff53a, 0x510e527f, 0x9b05688c, 0x1f83d9ab, 0x5be0cd19]

/-- A word of four bytes, most significant first. -/
def beWord (b : Bytes) : Word :=
  match b with
  | [p, q, r, t] => p ++ q ++ r ++ t
  | _ => 0

/-- The 16 words of a block. -/
def beWords : Nat → Bytes → List Word
  | 0, _ => []
  | n + 1, b => beWord (b.take 4) :: beWords n (b.drop 4)

/-- Extend the message schedule, held newest first, by `n` words. -/
def schedule : Nat → List Word → List Word
  | 0, w => w
  | n + 1, w =>
    let w2 := (w[1]?).getD 0
    let w7 := (w[6]?).getD 0
    let w15 := (w[14]?).getD 0
    let w16 := (w[15]?).getD 0
    let s0 := w15.rotateRight 7 ^^^ w15.rotateRight 18 ^^^ (w15 >>> 3)
    let s1 := w2.rotateRight 17 ^^^ w2.rotateRight 19 ^^^ (w2 >>> 10)
    schedule n ((s1 + w7 + s0 + w16) :: w)

/-- One round on the working variables. -/
def shaRound (v : List Word) (kw : Word) : List Word :=
  match v with
  | [a, b, c, d, e, f, g, h] =>
    let s1 := e.rotateRight 6 ^^^ e.rotateRight 11 ^^^ e.rotateRight 25
    let ch := (e &&& f) ^^^ (~~~e &&& g)
    let t1 := h + s1 + ch + kw
    let s0 := a.rotateRight 2 ^^^ a.rotateRight 13 ^^^ a.rotateRight 22
    let maj := (a &&& b) ^^^ (a &&& c) ^^^ (b &&& c)
    [t1 + s0 + maj, a, b, c, d + t1, e, f, g]
  | _ => v

/-- One 64-byte block. -/
def shaBlock (h : List Word) (block : Bytes) : List Word :=
  let w := (schedule 48 (beWords 16 block).reverse).reverse
  let v := ((shaK.zip w).map fun p => BitVec.ofNat 32 p.1 + p.2).foldl shaRound h
  (h.zip v).map fun p => p.1 + p.2

/-- The blocks of a padded message; `n` bounds their number. -/
def shaBlocks : Nat → List Word → Bytes → List Word
  | 0, h, _ => h
  | n + 1, h, b => if b.isEmpty then h else shaBlocks n (shaBlock h (b.take 64)) (b.drop 64)

/-- `n` bytes of a number, most significant first. -/
def natBe (n v : Nat) : Bytes := (natLe n v).reverse

/-- The number a run of bytes spells, most significant first. -/
def beNat (b : Bytes) : Nat := leNat b.reverse

/-- SHA-256. -/
def sha256 (m : Bytes) : Bytes :=
  let z := (119 - m.length % 64) % 64
  let p := m ++ [0x80] ++ List.replicate z 0 ++ natBe 8 (8 * m.length)
  (shaBlocks (p.length / 64 + 1) shaInit p).flatMap fun x => natBe 4 x.toNat

/-- HMAC-SHA-256 under a key of at most 64 bytes. -/
def hmac (key m : Bytes) : Bytes :=
  let k := padTo 64 key
  sha256 ((k.map fun x => x ^^^ 0x5c) ++ sha256 ((k.map fun x => x ^^^ 0x36) ++ m))

/-- ASCII codes. -/
def ascii (s : String) : Bytes := s.toList.map fun c => BitVec.ofNat 8 c.toNat

end Sys2Proof.Machine
end

