-- ==== Sys2Proof/Machine/Timers.lean ====
section
/-! DEFINITION. Lodestone's general timers and GPIO (20_lodestone_timers.md), the rights of register writes (R519,
R522), and one tick of the time base. -/

namespace Sys2Proof.Machine

/-- A register path holds the installer role or more (R519): Keystone's window always does. -/
def State.installer (s : State) (p : Path) : Bool :=
  match p with
  | .pcie => 1 ≤ s.roles.pcie
  | .keystone => true

/-- A write that needs the installer role: done, or dropped and counted (R522). -/
def State.asInstaller (s : State) (p : Path) (f : State → State) : State :=
  if s.installer p then f s else s.ignoredWrite

/-! ### Timer outputs (R498) -/

/-- Drive a GPIO output. -/
def State.drive (s : State) (g : Nat) (v : Bool) : State := { s with time.gpioOut := withBit s.time.gpioOut g v }

/-- Update the outputs of FUNC 2 that timer `n` drives: toggled or pulsed at a period event, else by RUN. -/
def State.timerOutputs (s : State) (n : Nat) (event : Bool) : State :=
  (List.range 4).foldl (fun t g =>
    if t.f (Reg.gpioFunc g) = 2 ∧ t.f (Reg.gpioTimer g) = n then
      match t.f (Reg.tmrOut n) with
      | 1 => if event then t.drive g (!bit t.time.gpioOut g) else t
      | 2 => t.drive g event
      | 3 => t.drive g (t.bitF (Reg.tmrRun n))
      | _ => t.drive g false
    else t) s

/-! ### Counting (R487 to R495) -/

/-- Set a flag of `TMR_TSTAT`, or count in OVR that it was still set (R494, R495). -/
def State.timerFlag (s : State) (flag ovr : Field) : State :=
  if s.f flag = 1 then s.countF ovr 1 else s.setF flag 1

/-- Start a timer from count 0 (R489). -/
def State.startTimer (s : State) (n : Nat) : State :=
  (((s.setF (Reg.tmrRun n) 1).setF (Reg.tmrCount n) 0)).timerOutputs n false

/-- Deliver a period event on the routes of R495. -/
def State.timerRoutes (s : State) (n : Nat) : State :=
  let s1 := s.timerFlag (Reg.tmrEvt n) (Reg.tmrOvr n)
  let s2 := if s1.bitF (Reg.tmrRKey n) then s1.raise 0 0 else s1
  let s3 := s2.raiseVein (s2.f (Reg.tmrRVein n)) 0
  let s4 := if s3.bitF (Reg.tmrRHook n) then
      let t := if s3.granted (fun e => bit (grantTimers e) n) then s3.raise 1 0 else s3
      t.hookTrigger (hookIs 3 n)
    else s3
  let s5 := if s4.bitF (Reg.tmrRCairn n) then s4.triggerAll 3 (fun c => c.kind == 3 && c.detail == n && c.state ≠ 0) else s4
  s5.timerOutputs n true

/-- The period event of timer `n`: the count returns to 0, the routes are served, a one-shot stops, and the slaves act
at the same tick (R487, R488, R491). `k` bounds the chain of slaves, which are higher-numbered. -/
def State.periodEvent (s : State) (n : Nat) : Nat → State
  | 0 => s
  | k + 1 =>
    let s1 := (s.setF (Reg.tmrCount n) 0).timerRoutes n
    let s2 := if s1.f (Reg.tmrMode n) = 1 then (s1.setF (Reg.tmrRun n) 0).timerOutputs n false else s1
    (List.range 8).foldl (fun t m =>
      if n < m ∧ t.f (Reg.tmrMaster m) = n then
        if t.f (Reg.tmrLink m) = 1 then t.startTimer m
        else if t.f (Reg.tmrLink m) = 2 ∧ t.bitF (Reg.tmrRun m) then
          let c := t.f (Reg.tmrCount m) + 1
          if t.f (Reg.tmrPeriod m) ≤ c then State.periodEvent t m k else t.setF (Reg.tmrCount m) c
        else t
      else t) s2

/-- One counting step of timer `n` (R487, R492). -/
def State.countStep (s : State) (n : Nat) : State :=
  let c := s.f (Reg.tmrCount n) + 1
  if s.f (Reg.tmrPeriod n) ≤ c then s.periodEvent n 8 else s.setF (Reg.tmrCount n) c

/-- The gate level of timer `n` (R488 to R490). -/
def State.gateOn (s : State) (n : Nat) : Bool :=
  let src := s.f (Reg.tmrGsrc n)
  let level := if src = 5 then s.bitF (Reg.tmrRun (s.f (Reg.tmrMaster n))) else bit s.time.gpioIn (src - 1)
  if src = 0 then true else level != s.bitF (Reg.tmrGpol n)

/-- A tick at timer `n`: a counting step in the timed modes without CASCADE (R488). -/
def State.timerTick (s : State) (n : Nat) : State :=
  if ¬ s.bitF (Reg.tmrRun n) ∨ s.f (Reg.tmrLink n) = 2 then s
  else
    match s.f (Reg.tmrMode n) with
    | 1 => if s.gateOn n then s.countStep n else s
    | 2 => if s.gateOn n then s.countStep n else s
    | 4 => s.countStep n
    | 5 => s.countStep n
    | _ => s

/-- One Lodestone tick: uptime, operating time, calendar (R483 to R485) and the timers. -/
def State.tick (s : State) : State :=
  let t := s.time
  let opt := if t.optPhase + 1 = 25000 then { t with optPhase := 0, optMs := t.optMs + 1 } else { t with optPhase := t.optPhase + 1 }
  let cal := if ¬ t.calSet then opt
    else if opt.calPhase + 1 = 25 then { opt with calPhase := 0, calendar := opt.calendar + 1 }
    else { opt with calPhase := opt.calPhase + 1 }
  (List.range 8).foldl State.timerTick { s with time := { cal with uptime := (t.uptime + 1) % 2 ^ 64 } }

/-- TIMER_PERIOD_EVENT (R495): the running timer's count reaches PERIOD. -/
def execTimerPeriodEvent (n : Fin 8) (s : State) : Result :=
  if s.bitF (Reg.tmrRun n) ∧ s.dieUp then ok (s.periodEvent n 8) else ok s

/-! ### Timer register writes (R489, R492, R499) -/

/-- Write EN of timer `n`: start from count 0, or stop at once (R489). -/
def State.writeTimerEn (s : State) (n : Nat) (en : Bool) : State :=
  if en then (s.setF (Reg.tmrEn n) 1).startTimer n
  else (((s.setF (Reg.tmrEn n) 0).setF (Reg.tmrRun n) 0)).timerOutputs n false

def execTimerEnable (p : Path) (n : Fin 8) (s : State) : Result :=
  s.asWrite fun t => t.asInstaller p fun u => u.writeTimerEn n true

def execTimerStop (p : Path) (n : Fin 8) (s : State) : Result :=
  s.asWrite fun t => t.asInstaller p fun u => u.writeTimerEn n false

/-- A write to PERIOD: live; 0 is dropped with event 0x1041 (R492, R499). -/
def State.writePeriod (s : State) (n value : Nat) : State :=
  if value = 0 then s.dropValue Src.lodestone (0x3104 + 0x20 * n) else s.setF (Reg.tmrPeriod n) value

def execTimerPeriodWrite (p : Path) (n : Fin 8) (value : Word) (s : State) : Result :=
  s.asWrite fun t => t.asInstaller p fun u => u.writePeriod n value.toNat

def execTimerCountWrite (p : Path) (n : Fin 8) (value : Word) (s : State) : Result :=
  s.asWrite fun t => t.asInstaller p fun u => u.setF (Reg.tmrCount n) value.toNat

/-- `TMR_CTRL_n` holds values R499 drops. -/
def badTimerCtrl (n v : Nat) : Bool :=
  6 ≤ bits v 3 1 || 5 < bits v 7 4 || bits v 12 11 = 3 ||
  ((bits v 12 11 ≠ 0 || bits v 7 4 = 5) && n ≤ bits v 15 13)

/-! ### GPIO (R490, R498) -/

/-- An edge selection (1 rising, 2 falling, 3 both) takes this edge. -/
def edgeSel (sel : Nat) (rising : Bool) : Bool := bit sel (if rising then 0 else 1)

/-- A gate edge at timer `n` (R488): a counting step, a capture or a retrigger. -/
def State.gateEdge (s : State) (n : Nat) (rising : Bool) : State :=
  if ¬ s.bitF (Reg.tmrRun n) ∨ ¬ edgeSel (s.f (Reg.tmrGedge n)) (rising != s.bitF (Reg.tmrGpol n)) then s
  else
    let mode := s.f (Reg.tmrMode n)
    if mode = 3 then s.countStep n
    else if mode = 4 then (s.setF (Reg.tmrCapture n) (s.f (Reg.tmrCount n))).timerFlag (Reg.tmrCap n) (Reg.tmrOvr n)
    else if mode = 5 then s.setF (Reg.tmrCount n) 0
    else s

/-- Timers gated by GPIO `g` take the edge. -/
def State.gateEdges (s : State) (g : Nat) (level : Bool) : State :=
  (List.range 8).foldl (fun t n => if t.f (Reg.tmrGsrc n) = g + 1 then t.gateEdge n level else t) s

/-- An input's edge goes to Keystone by KEDGE, to a hook granted it, and to the hook triggers of kind 4. -/
def State.inputEdge (s : State) (g : Nat) (level : Bool) : State :=
  if s.f (Reg.gpioFunc g) = 0 then
    let s3 := if edgeSel (s.f (Reg.gpioKedge g)) level then s.raise 0 4 else s
    let s4 := if s3.granted (fun e => bit (grantGpioEdge e) g) then s3.raise 1 4 else s3
    s4.hookTrigger fun e => hookIs 4 g e && edgeSel (bits (hookDetail e) 7 6) level
  else s

/-- GPIO_EDGE (R490, R498): a filtered level change of GPIO `g`. -/
def execGpioEdge (g : Fin 4) (level : Bool) (s : State) : Result :=
  if ¬ s.dieUp ∨ bit s.time.gpioIn g.val = level then ok s
  else
    let s1 := ({ s with time.gpioIn := withBit s.time.gpioIn g.val level }).setF (Reg.gpioIn g.val) (b2n level)
    ok ((s1.gateEdges g.val level).inputEdge g.val level)

/-- `TMR_GPIO_g` as R499 accepts it: FUNC 3 and a timer output of OUT 0 are dropped. -/
def State.badGpio (s : State) (v : Nat) : Bool :=
  bits v 1 0 = 3 || (bits v 1 0 = 2 && s.f (Reg.tmrOut (bits v 4 2)) = 0)

/-- Drive a FUNC 1 output from LEVEL or GPOUT; any other function ignores it (R498). -/
def State.setLevel (s : State) (g : Nat) (v : Bool) : State :=
  if s.f (Reg.gpioFunc g) = 1 then (s.setF (Reg.gpioLevel g) (b2n v)).drive g v else s

/-- A write to `TMR_GPIO_g` (R498, R499). -/
def State.writeGpio (s : State) (g v : Nat) : State :=
  if s.badGpio v then s.dropValue Src.lodestone (0x3200 + 4 * g)
  else
    let s1 := (((s.setF (Reg.gpioFunc g) (bits v 1 0)).setF (Reg.gpioTimer g) (bits v 4 2)).setF (Reg.gpioFilt g)
      (bits v 15 8)).setF (Reg.gpioKedge g) (bits v 17 16)
    if bits v 1 0 = 1 then s1.setLevel g (bit v 5) else s1.timerOutputs (bits v 4 2) false

end Sys2Proof.Machine
end

