-- ==== Sys2Proof/Machine/Mailbox.lean ====
section
/-! DEFINITION. The mailbox: doorbell bits, message slots and their timeout (10_kenino_rings_and_mailbox.md, R224 to
R230). -/

namespace Sys2Proof.Machine

/-- Which slots a timeout names. -/
def State.mbxVector (s : State) : Nat := s.f Reg.mbxVector

/-- The mailbox works: not after FREEZE (R93), nor while PE_PERST_n holds it in reset (R192). -/
def State.mbxUp (s : State) : Bool := s.dieUp && !s.bas.freeze && !s.pcie.perstHeld

/-- Raise a mailbox flag on the sandbox when the running hook is granted one of the bits. -/
def State.raiseGranted (s : State) (i : Nat) (grant : Bytes → Nat) (set : Nat) : State :=
  if s.granted (fun e => grant e &&& set ≠ 0) then s.raise 1 i else s

/-- Set host-to-device doorbell bits (R224): newly set bits raise E1 and trigger hooks. -/
def State.setH2d (s : State) (b : Nat) : State :=
  let new := b &&& (0xFFFFFFFF - s.mbx.h2dBits % 2 ^ 32)
  let s1 := { s with mbx.h2dBits := s.mbx.h2dBits ||| b }
  let s2 := if new &&& (0xFFFFFFFF - s1.f Reg.h2dMask) ≠ 0 then s1.raise 0 1 else s1
  let s3 := s2.raiseGranted 1 grantH2d new
  (List.range 32).foldl (fun t i => if bit new i then t.hookTrigger (hookIs 1 i) else t) s3

def execMbxH2dSet (b : Word) (s : State) : Result := s.asWrite fun t => if t.mbxUp then t.setH2d b.toNat else t

/-- Clear device-to-host bits by writing 1 (R225). -/
def State.clearD2h (s : State) (b : Nat) : State :=
  { s with mbx.d2hBits := s.mbx.d2hBits &&& (0xFFFFFFFF - b % 2 ^ 32) }

def execMbxD2hClear (b : Word) (s : State) : Result := s.asWrite fun t => if t.mbxUp then t.clearD2h b.toNat else t

/-- Set device-to-host bits (R225): the vector is sent for a newly set, unmasked bit. -/
def State.setD2h (s : State) (b : Nat) : State :=
  let new := b &&& (0xFFFFFFFF - s.mbx.d2hBits % 2 ^ 32)
  let s1 := { s with mbx.d2hBits := s.mbx.d2hBits ||| b }
  if new &&& (0xFFFFFFFF - s1.f Reg.d2hMask) ≠ 0 then s1.signal s1.mbxVector else s1

/-- TIMEOUT_MS takes its staged value at the next slot post in either direction. -/
def State.mbxBoundary (s : State) : State :=
  match s.staged.get? Reg.mbxTimeout.key with
  | some v => ({ s with staged := s.staged.erase Reg.mbxTimeout.key }).setF Reg.mbxTimeout v
  | none => s

/-- A host write into a host-to-device slot (R226): 4 to 64 bytes, 4-byte aligned; dropped and counted when the slot is
full, and as a reserved access when it breaks that form. -/
def State.writeH2dSlot (s : State) (slot off : Nat) (data : Bytes) : State :=
  if data.length < 4 ∨ 64 < off + data.length ∨ off % 4 ≠ 0 ∨ data.length % 4 ≠ 0 then s.ignoredWrite
  else if bit s.mbx.h2dFull slot then s.bump 0x22
  else { s with mbx.h2d := s.mbx.h2d.setBytes (64 * slot + off) data }

def execH2dSlotWrite (slot : Fin 8) (off : BitVec 6) (data : Bytes) (s : State) : Result :=
  s.asWrite fun t => if t.mbxUp then t.writeH2dSlot slot.val off.toNat data else t

/-- Post one host-to-device slot (R226). -/
def State.postH2d (s : State) (slot : Nat) : State :=
  if bit s.mbx.h2dFull slot then s.bump 0x22
  else
    let s1 := { s.mbxBoundary with mbx.h2dFull := withBit s.mbx.h2dFull slot true }
    ((s1.raise 0 2).raiseGranted 2 grantH2dSlots (2 ^ slot)).hookTrigger (hookIs 2 slot)

def State.postH2ds (s : State) (set : Nat) : State :=
  (List.range 8).foldl (fun t i => if bit set i then t.postH2d i else t) s

def execH2dPost (set : BitVec 8) (s : State) : Result := s.asWrite fun t => if t.mbxUp then t.postH2ds set.toNat else t

/-- E3: a device-to-host slot freed by the host or by its timeout. -/
def State.raiseFreed (s : State) (slot : Nat) : State := (s.raise 0 3).raiseGranted 3 grantD2hSlots (2 ^ slot)

/-- The host frees a device-to-host slot (R227); a free that comes after the slot's timeout is late (R229). -/
def State.freeD2h (s : State) (slot : Nat) : State :=
  if bit s.mbx.d2hFull slot then ({ s with mbx.d2hFull := withBit s.mbx.d2hFull slot false }).raiseFreed slot
  else if bit s.mbx.d2hTo slot then s.late
  else s

def State.freeD2hs (s : State) (set : Nat) : State :=
  (List.range 8).foldl (fun t i => if bit set i then t.freeD2h i else t) s

def execD2hFree (set : BitVec 8) (s : State) : Result := s.asWrite fun t => if t.mbxUp then t.freeD2hs set.toNat else t

/-- A full slot times out (R228). -/
def State.timeoutH2d (s : State) (slot : Nat) : State :=
  let s1 := { s with
    mbx.h2dFull := withBit s.mbx.h2dFull slot false, mbx.h2dTo := withBit s.mbx.h2dTo slot true }
  let s2 := (s1.record 0x2030 Src.mailbox slot).bump 0x25
  if s2.bitF Reg.mbxIeTo then s2.signal s2.mbxVector else s2

def State.timeoutD2h (s : State) (slot : Nat) : State :=
  let s1 := { s with
    mbx.d2hFull := withBit s.mbx.d2hFull slot false, mbx.d2hTo := withBit s.mbx.d2hTo slot true }
  let s2 := ((s1.record 0x2031 Src.mailbox slot).bump 0x25).raiseFreed slot
  if s2.bitF Reg.mbxIeTo then s2.signal s2.mbxVector else s2

/-- MAILBOX_SLOT_TIMEOUT (R228): `toHost` names the direction. -/
def execMailboxSlotTimeout (toHost : Bool) (slot : Fin 8) (s : State) : Result :=
  if ¬ s.mbxUp then ok s
  else if toHost then (if bit s.mbx.d2hFull slot.val then ok (s.timeoutD2h slot.val) else ok s)
  else if bit s.mbx.h2dFull slot.val then ok (s.timeoutH2d slot.val)
  else ok s

/-- MBSEND's effect on a slot (R227): posted, or still full. -/
def State.sendD2h (s : State) (slot : Nat) : State :=
  let cnt := bits s.mbx.seq (4 * slot + 3) (4 * slot)
  let s1 := { s.mbxBoundary with
    mbx.d2hFull := withBit s.mbx.d2hFull slot true
    mbx.seq := s.mbx.seq - cnt * 2 ^ (4 * slot) + (cnt + 1) % 16 * 2 ^ (4 * slot) }
  if s1.bitF Reg.mbxIeSlot then s1.signal s1.mbxVector else s1

/-- MBFREE's effect on a slot (R226, R229, R230). -/
def State.freeH2d (s : State) (slot : Nat) : State :=
  if bit s.mbx.h2dFull slot then
    let s1 := { s with mbx.h2dFull := withBit s.mbx.h2dFull slot false }
    if s1.bitF Reg.mbxIeFree then s1.signal s1.mbxVector else s1
  else if bit s.mbx.h2dTo slot then s.late
  else s

/-- The csr entries of a register range back to their reset values. -/
def State.resetRegs (s : State) (lo hi : Nat) : State :=
  { s with
    csr := s.csr.filter fun (p : Nat × Nat) => p.1 < 32 * lo || 32 * hi ≤ p.1
    staged := s.staged.filter fun (p : Nat × Nat) => p.1 < 32 * lo || 32 * hi ≤ p.1 }

/-- The mailbox after a reset of the host-facing units (R223): reset values, slots emptied, E3 on Keystone. -/
def State.resetMailbox (s : State) : State := ({ s.resetRegs 0x2000 0x2A00 with mbx := {} }).raise 0 3

end Sys2Proof.Machine
end

