-- ==== Sys2Proof/Machine/Rings.lean ====
section
/-! DEFINITION. The Kenino rings: contexts, doorbells, push windows, fetching, entries and chains
(10_kenino_rings_and_mailbox.md, R195 to R223). -/

namespace Sys2Proof.Machine

/-! ### Ring context entries (R197, R198) -/

/-- The context a 64-byte entry spells. -/
def RingCtx.ofBytes (b : Bytes) : RingCtx :=
  let m := leAt b 28 1
  { sqBase := leAt b 0 8, cqBase := leAt b 8 8, idxBase := leAt b 16 8, sqDepth := leAt b 24 2, cqDepth := leAt b 26 2
    modeV := bit m 0, dbBare := bit m 1, push := bit m 2, idxwr := bit m 3, cls := leAt b 29 1
    vector := leAt b 30 1, prefetch := leAt b 31 1, modCount := leAt b 32 2, modTime := leAt b 34 2
    chainTo := leAt b 36 2 }

/-- The structural fields of two contexts agree. -/
def RingCtx.sameShape (a b : RingCtx) : Bool :=
  a.sqBase = b.sqBase && a.cqBase = b.cqBase && a.idxBase = b.idxBase && a.sqDepth = b.sqDepth && a.cqDepth = b.cqDepth
    && a.modeV == b.modeV && a.dbBare == b.dbBare && a.push == b.push && a.idxwr == b.idxwr && a.cls = b.cls

/-- The checks of R198 on ranges, alignment and must-be-0 fields. -/
def ringEntryOk (n : Nat) (b : Bytes) : Bool :=
  let c := RingCtx.ofBytes b
  c.sqBase % 4096 = 0 && c.cqBase % 4096 = 0 && c.idxBase % 64 = 0 &&
  32 ≤ c.sqDepth && c.sqDepth ≤ 1024 && 32 ≤ c.cqDepth && c.cqDepth ≤ 1024 && (n ≠ 0 || 64 ≤ c.cqDepth) &&
  bits (leAt b 28 1) 7 4 = 0 && c.cls ≤ 1 && (n ≠ 0 || c.cls = 0) && c.vector ≤ 15 && (n ≠ 0 || c.vector = 0) &&
  1 ≤ c.prefetch && c.prefetch ≤ 16 && 1 ≤ c.modCount && c.modCount ≤ 64 && c.modTime ≤ 1000 &&
  10 ≤ c.chainTo && c.chainTo ≤ 10000 && (slice b 38 26).all (fun x => x = 0)

/-- A sync of ring entry `n` is accepted (R198). -/
def State.ringSyncOk (s : State) (n : Nat) (b : Bytes) : Bool :=
  let r := s.ring n
  ringEntryOk n b && (r.state = 0 || (RingCtx.ofBytes b).sameShape r.ctx)

/-- Take an accepted ring entry. -/
def State.takeRingEntry (s : State) (n : Nat) (b : Bytes) : State :=
  let r := s.ring n
  s.setRing n { r with synced := some (RingCtx.ofBytes b), nextRun := r.state ≠ 0 }

/-! ### Latency tolerance (R188) -/

/-- A cycle-class ring is enabled. -/
def State.cycleRing (s : State) : Bool := s.rings.any fun r => r.2.state ≠ 0 && r.2.ctx.cls = 1

/-- Send a new LTR message when the tolerance changes. -/
def State.noteLtr (s : State) : State :=
  let us := if s.cycleRing then 10 else 1000
  if s.pcie.ltr = us then s else ({ s with pcie.ltr := us }).emit (.ltr us)

/-! ### Entries (R213 to R216) -/

/-- A completion for a command. -/
def Cmd.cpl (c : Cmd) (status : Nat) (result : Bytes) : Cpl :=
  { status := status, tag := c.tag, async := false, cookie := c.cookie, slot := c.slot, result := padTo 16 result
    arrive := c.arrive, noint := c.noint, deadline := c.eligible && (status = 0), releases := true }

/-- End a command without giving it a tag: TAG_IN_USE, CHAIN_BROKEN, or a malformed entry. -/
def State.endEntry (s : State) (c : Cmd) (status : Nat) : State :=
  s.postCpl c.ring { c.cpl status [] with releases := false }

/-- Tags in use: fetched commands and an open chain's (R196). -/
def Ring.tagUsed (r : Ring) (tag : Nat) : Bool := r.cmds.any fun c => c.tag = tag

/-- The opcodes of R195. -/
def opcodeKnown (op : Nat) : Bool := (1 ≤ op && op ≤ 9) || (0x40 ≤ op && op ≤ 0x57)

/-- A whole command has been fetched: it takes its tag, or completes with TAG_IN_USE (R196). An opcode that no ring carries
completes at once, by checks 1 and 2 of R233. -/
def State.addCmd (s : State) (c : Cmd) : State :=
  let r := s.ring c.ring
  if r.tagUsed c.tag then s.endEntry c 0x0204
  else if ¬ opcodeKnown c.opcode then
    (s.setRing c.ring { r with cmds := r.cmds ++ [{ c with stage := .done }] }).postCpl c.ring
      (c.cpl (if s.dev = .bedrock then 0x0800 else 0x0200) [])
  else s.setRing c.ring { r with cmds := r.cmds ++ [c] }

/-- The uptime of the doorbell that made a slot pending (R217). -/
def arriveOf (now depth slot : Nat) : List (Nat × Nat) → Nat
  | [] => now
  | (tail, t) :: bs => if (tail + depth - slot) % depth ≠ 0 ∧
      ∀ b ∈ bs, (tail + depth - slot) % depth ≤ (b.1 + depth - slot) % depth then t else arriveOf now depth slot bs

/-- The command an entry's header starts. -/
def State.headerCmd (s : State) (n slot : Nat) (e : Bytes) : Cmd :=
  let r := s.ring n
  { ring := n, tag := bits (leAt e 2 1) 4 0, opcode := leAt e 0 1, cookie := leAt e 4 4, slot := slot, body := slice e 8 56
    modeV := r.ctx.modeV, noint := bit (leAt e 1 1) 2, arrive := arriveOf s.time.uptime r.ctx.sqDepth slot r.bells }

def eFirst (e : Bytes) : Bool := bit (leAt e 1 1) 0
def eLast (e : Bytes) : Bool := bit (leAt e 1 1) 1
/-- The header's must-be-0 bits are 0. -/
def eClean (e : Bytes) : Bool := bits (leAt e 1 1) 7 3 = 0 && bits (leAt e 2 1) 7 5 = 0

def State.setChain (s : State) (n : Nat) (c : Option (Cmd × Nat)) : State :=
  s.setRing n { s.ring n with chain := c }

/-- A broken chain completes with the tag, cookie and slot of its first entry (R215). -/
def State.breakChain (s : State) (c : Cmd) : State :=
  ((s.setChain c.ring none).bump 0x23).endEntry c 0x0205

/-- Start a chain, or take a one-entry command (mode C). -/
def State.chainStart (s : State) (c : Cmd) (e : Bytes) : State :=
  if ¬ eClean e ∨ leAt e 3 1 ≠ 1 then s.endEntry c 0x0201
  else if eLast e then s.addCmd c
  else s.setChain c.ring (some (c, 1))

/-- An entry in mode C (R215). -/
def State.chainEntry (s : State) (n slot : Nat) (e : Bytes) : State :=
  let c := s.headerCmd n slot e
  match (s.ring n).chain with
  | none => if eFirst e then s.chainStart c e else s.breakChain c
  | some (o, k) =>
    if eFirst e then (s.breakChain o).chainStart c e
    else if c.opcode ≠ o.opcode ∨ c.tag ≠ o.tag ∨ 8 ≤ k then s.breakChain o
    else if ¬ eClean e ∨ leAt e 3 1 ≠ 1 then (s.setChain n none).endEntry o 0x0201
    else
      let o' := { o with body := o.body ++ slice e 4 60 }
      if eLast e then (s.setChain n none).addCmd o' else s.setChain n (some (o', k + 1))

/-- Slots pending on a ring (R204). -/
def Ring.pendingSlots (r : Ring) : Nat := (r.sqTail + r.ctx.sqDepth - r.sqHead) % r.ctx.sqDepth

/-- An entry in mode V (R214): the slots of one entry gather in `chain`, whose count is of slots still to come. -/
def State.variableEntry (s : State) (n slot : Nat) (e : Bytes) : State :=
  match (s.ring n).chain with
  | some (o, k) =>
    let o' := { o with body := o.body ++ slice e 0 64 }
    if k ≤ 1 then (s.setChain n none).addCmd o' else s.setChain n (some (o', k - 1))
  | none =>
    let c := s.headerCmd n slot e
    let len := leAt e 3 1
    if ¬ eFirst e ∨ ¬ eLast e ∨ ¬ eClean e ∨ len < 1 ∨ 8 < len then s.endEntry c 0x0201
    else if (s.ring n).pendingSlots + 1 < len then
      (s.setRing n { s.ring n with sqHead := (s.ring n).sqTail }).endEntry c 0x0201
    else if len = 1 then s.addCmd c
    else s.setChain n (some (c, len - 1))

/-- Read one slot: the head passes it, then the entry is parsed. A slot the head no longer names is skipped. -/
def State.takeSlot (s : State) (n slot : Nat) (e : Bytes) : State :=
  let r := s.ring n
  if r.sqHead ≠ slot ∨ r.pendingSlots = 0 then s
  else
    let s1 := s.setRing n { r with sqHead := (slot + 1) % r.ctx.sqDepth }
    if r.ctx.modeV then s1.variableEntry n slot e else s1.chainEntry n slot e

/-- Drop the doorbells that the head has passed. -/
def State.trimBells (s : State) (n : Nat) : State :=
  let r := s.ring n
  if r.sqHead = r.sqTail then s.setRing n { r with bells := [] } else s

/-! ### Fetching (R207, R209, R212) -/

/-- The ring unit may read host memory. -/
def State.mayFetch (s : State) (n : Nat) : Bool :=
  let r := s.ring n
  r.state = 1 && s.mayPost && r.fetching.isNone && r.cmds.length < 32 && r.pendingSlots ≠ 0

/-- The largest read R207 allows from the head: PREFETCH slots, not past the tail, the ring's end or a snapshot. -/
def Ring.fetchRun (r : Ring) : Nat :=
  let k := min (min r.ctx.prefetch r.pendingSlots) (r.ctx.sqDepth - r.sqHead)
  match r.snap with
  | some (first, _) => min k ((first + r.ctx.sqDepth - r.sqHead) % r.ctx.sqDepth)
  | none => k

/-- One step of fetching: a slot from the snapshot, or a read of host memory. -/
def State.fetchStep (s : State) (n : Nat) : State :=
  let r := (s.ring n).atBoundary
  match r.snap with
  | some (first, b) =>
    if first = r.sqHead then
      let left := b.drop 64
      let s1 := s.setRing n { r with
        snap := if left.isEmpty then none else some ((first + 1) % r.ctx.sqDepth, left) }
      s1.takeSlot n first (b.take 64)
    else
      (s.setRing n { r with fetching := some (r.sqHead, r.fetchRun) }).emit
        (.hostRead (r.ctx.sqBase + 64 * r.sqHead) (64 * r.fetchRun))
  | none =>
    (s.setRing n { r with fetching := some (r.sqHead, r.fetchRun) }).emit
      (.hostRead (r.ctx.sqBase + 64 * r.sqHead) (64 * r.fetchRun))

/-- Fetch what can be fetched now. -/
def State.pumpFetch (s : State) (n : Nat) : Nat → State
  | 0 => s.trimBells n
  | k + 1 => if s.mayFetch n then State.pumpFetch (s.fetchStep n) n k else s.trimBells n

def State.fetchAll (s : State) (n : Nat) : State := s.pumpFetch n 1025

/-- The slots of a completed fetch read, from slot `slot` on. -/
def State.takeSlots (s : State) (n slot : Nat) : Nat → Bytes → State
  | 0, _ => s
  | k + 1, b => State.takeSlots (s.takeSlot n slot (padTo 64 (b.take 64))) n (slot + 1) k (b.drop 64)

/-- A ring enters FAULT (R208). -/
def State.ringFault (s : State) (n cause : Nat) : State :=
  (s.setRing n { s.ring n with state := 3, fault := cause, fetching := none, indexing := false }).record
    0x2022 Src.ring n cause

/-- A completion that no request awaits (R191): discarded and counted. -/
def State.unexpectedCpl (s : State) : State := (s.setF Reg.errUnexp 1).late

/-- A fetch read ends (R208). A Completer Abort or Unsupported Request status is handled as a poisoned read (DESIGN
CHOICE: R208 names the other two ends only). -/
def State.fetchEnd (s : State) (n : Nat) (e : ReadEnd) : State :=
  match (s.ring n).fetching with
  | none => s.unexpectedCpl
  | some (slot, k) =>
    let s1 := s.setRing n { s.ring n with fetching := none }
    if (s.ring n).state ≠ 1 then s1
    else match e with
      | .data b => (s1.takeSlots n slot k b).fetchAll n
      | .timedOut => (s1.setF Reg.errCplTo 1).ringFault n 1
      | _ => (s1.setF Reg.errPoison 1).ringFault n 2

/-! ### Doorbells (R202, R203, R206, R211, R212) -/

/-- Ignore a doorbell (R203). -/
def State.badBell (s : State) (n : Nat) : State := (s.record 0x2020 Src.ring n).bump 0x22

/-- Take an accepted tail. -/
def State.newTail (s : State) (n tail : Nat) : State :=
  let r := s.ring n
  if tail = r.sqTail then s
  else s.setRing n { r with sqTail := tail, bells := r.bells ++ [(tail, s.time.uptime)] }

/-- The push of a PUSHED doorbell whose tail runs from `old` to `new` (R212). -/
def State.takePush (s : State) (n old new : Nat) : State :=
  let r := s.ring n
  let k := (new + r.ctx.sqDepth - old) % r.ctx.sqDepth
  let r1 := { r with pushed := 0 }
  if r.ctx.push ∧ r.pushed = 64 * k ∧ r.snap.isNone ∧ k ≤ 4 then
    s.setRing n { r1 with snap := some (old, r.push.bytes 0 (64 * k)) }
  else ((s.setRing n r1).countF Reg.pushMiss 1).bump 0x26

/-- A doorbell or push write the device ignores after FREEZE (R93). -/
def State.bellsFrozen (s : State) : Bool := s.bas.freeze

/-- A doorbell or push-window write: it needs the PCIe function out of reset, and is ignored after FREEZE (R93, R587). -/
def State.asBell (s : State) (f : State → State) : Result :=
  if s.pcie.perstHeld then ok s else s.asWrite fun t => if t.bellsFrozen then t.ignoredWrite else f t

/-- DB_TAIL (R202, R203). -/
def State.dbTail (s : State) (n v : Nat) : State :=
  let r := s.ring n
  let tail := bits v 9 0
  if r.state ≠ 1 ∨ r.ctx.dbBare ∨ bits v 15 10 ≠ 0 ∨ bits v 31 17 ≠ 0 ∨ r.ctx.sqDepth ≤ tail then s.badBell n
  else if tail = r.sqTail then s
  else
    let old := r.sqTail
    let s1 := s.newTail n tail
    (if bit v 16 then s1.takePush n old tail else s1).fetchAll n

def execDbTail (n : Fin 8) (v : Word) (s : State) : Result :=
  s.asBell fun t => t.dbTail n.val v.toNat

/-- Start an index-block read (R202), held while the host cannot be read. -/
def State.startIndex (s : State) (n : Nat) : State :=
  let r := s.ring n
  (s.setRing n { r with indexing := true, again := false }).emit (.hostRead r.ctx.idxBase 4)

/-- DB_BARE (R202, R203). -/
def State.dbBare (s : State) (n : Nat) : State :=
  let r := s.ring n
  if r.state ≠ 1 ∨ ¬ r.ctx.dbBare then s.badBell n
  else if r.indexing then s.setRing n { r with again := true }
  else s.startIndex n

def execDbBare (n : Fin 8) (s : State) : Result :=
  s.asBell fun t => t.dbBare n.val

/-- An index-block read ends (R202, R208). -/
def State.indexEnd (s : State) (n : Nat) (e : ReadEnd) : State :=
  let r := s.ring n
  if ¬ r.indexing then s.unexpectedCpl
  else
    let s1 := s.setRing n { r with indexing := false, again := false }
    if r.state ≠ 1 then s1
    else match e with
      | .data b =>
        let v := leAt b 0 4
        let s2 := if r.ctx.sqDepth ≤ v then s1.badBell n else (s1.newTail n v).fetchAll n
        if r.again then s2.startIndex n else s2
      | .timedOut => (s1.setF Reg.errCplTo 1).ringFault n 3
      | _ => (s1.setF Reg.errPoison 1).ringFault n 3

/-- DB_CQH (R203, R206). -/
def State.dbCqh (s : State) (n v : Nat) : State :=
  let r := s.ring n
  let h := bits v 9 0
  let d := (h + r.ctx.cqDepth - r.cqHead) % r.ctx.cqDepth
  if r.state = 0 ∨ r.state = 2 ∨ bits v 31 10 ≠ 0 ∨ r.ctx.cqDepth ≤ h then s.badBell n
  else if d = 0 then s
  else if (r.cqTail + r.ctx.cqDepth - r.cqHead) % r.ctx.cqDepth < d then s.badBell n
  else ((s.setRing n { r with cqHead := h }).pumpRing n).fetchAll n

def execDbCqh (n : Fin 8) (v : Word) (s : State) : Result :=
  s.asBell fun t => t.dbCqh n.val v.toNat

/-- PUSH_WINDOW_WRITE (R211, R212, R584). -/
def State.pushWrite (s : State) (n off : Nat) (data : Bytes) : State :=
  let r := s.ring n
  if 0x100 ≤ off then s.ignoredWrite
  else if data.length < 4 ∨ 64 < data.length ∨ data.length % 4 ≠ 0 ∨ off % 4 ≠ 0 ∨ 0x100 < off + data.length then s
  else s.setRing n { r with push := r.push.setBytes off data, pushed := r.pushed + data.length }

def execPushWindowWrite (n : Fin 8) (off : BitVec 12) (data : Bytes) (s : State) : Result :=
  s.asBell fun t => t.pushWrite n.val off.toNat data

/-- CHAIN_TIMEOUT (R215, R216): CHAIN_TO passes without LAST. -/
def execChainTimeout (n : Fin 8) (s : State) : Result :=
  match (s.ring n.val).chain with
  | some (o, _) => if (s.ring n.val).ctx.modeV ∨ s.bas.freeze then ok s else ok (s.breakChain o)
  | none => ok s

/-- MODERATION_TIMEOUT (R220): the oldest counted completion has waited MOD_TIME. -/
def execModerationTimeout (n : Fin 8) (s : State) : Result :=
  let r := s.ring n.val
  if r.modN = 0 ∨ s.bas.freeze then ok s else ok ((s.setRing n.val { r with modN := 0 }).signal r.ctx.vector)

/-! ### Enabling and disabling (R199, R222) -/

/-- The ring as an enable leaves it. -/
def Ring.enabled (r : Ring) (c : RingCtx) : Ring :=
  { synced := r.synced, ctx := c, state := 1, push := r.push, pushed := r.pushed }

/-- A write of 1 to `HQ_RING_CTRL_n.EN` (R199). A ring that is enabled already, or disabling, is not enabled anew: the
write is without effect in the first case and refused in the second (DESIGN CHOICE). -/
def State.enableRing (s : State) (n : Nat) : State :=
  let r := s.ring n
  match r.synced with
  | none => s.record 0x2021 Src.ring n
  | some c =>
    if r.state = 2 then s.record 0x2021 Src.ring n
    else if r.state = 0 then ((s.setRing n (r.enabled c)).setF (Reg.ringEn n) 1).noteLtr
    else s

def execRingEnable (n : Fin 8) (s : State) : Result :=
  if s.pcie.perstHeld then ok s else s.asWrite fun t => if t.bas.freeze then t else t.enableRing n.val

/-- End a command with a status: its completion, and the outcome counter of its class (R577). -/
def classPlace (status : Nat) : Option Nat :=
  if status = 0 then some 0 else if status = 1 then some 1 else if status = 0x0100 then some 3
  else if status = 0x0101 then some 4 else if status = 0x0102 then some 5 else if status = 0x0103 then some 6 else none

/-- A command has ended: its tag stays in use until its completion entry is written (R196). -/
def State.markDone (s : State) (c : Cmd) : State :=
  let r := s.ring c.ring
  s.setRing c.ring { r with cmds := r.cmds.map fun (x : Cmd) => if x.tag = c.tag then { x with stage := .done } else x }

def State.complete (s : State) (c : Cmd) (status : Nat) (result : Bytes) : State :=
  let late := c.eligible && status = 0 && c.arrive + 1000 < s.time.uptime
  let s1 := match classPlace (if late then 1 else status) with
    | some i => s.countClass c.cls i
    | none => s
  let s2 := { s1 with alloc.queue := s1.alloc.queue.filter fun q => !(q.1 == c.ring && q.2.1 == c.tag) }
  ((s2.markDone c).postCpl c.ring (c.cpl status result)).fetchAll c.ring

/-- Commands fetched but not started end with ABORTED_HOST (R222, R259). -/
def Cmd.unstarted (c : Cmd) : Bool := c.stage = .fetched || c.stage = .held

/-- A write of 0 to EN (R222). -/
def State.disableRing (s : State) (n : Nat) : State :=
  let r := s.ring n
  if r.state = 0 ∨ r.state = 2 then s.setF (Reg.ringEn n) 0
  else
    let s1 := (s.setRing n { r with state := 2, fault := 0, snap := none, fetching := none, indexing := false }).setF
      (Reg.ringEn n) 0
    let s2 := match r.chain with
      | some (o, _) => (s1.setChain n none).endEntry o 0x0701
      | none => s1
    let s3 := (r.cmds.filter Cmd.unstarted).foldl (fun t c => t.complete c 0x0701 []) s2
    (s3.settleRing n).noteLtr

def execRingDisable (n : Fin 8) (s : State) : Result :=
  if s.pcie.perstHeld then ok s else s.asWrite fun t => if t.bas.freeze then t else t.disableRing n.val

end Sys2Proof.Machine
end

