-- ==== Sys2Proof/Machine/Volumes.lean ====
section
/-! DEFINITION. Volumes as commands see them: the map, staging units, streams, pins, the journal tail and the loss
report (13_strata.md, R113, R114, R235 to R252). -/

namespace Sys2Proof.Machine

/-! ### The map (R294, R304) -/

/-- The place of logical 4 KiB block `b` in the map: boot views swap with the active slot (R294). -/
def State.place (s : State) (v b : Nat) : Nat :=
  let x := s.vol v
  if x.kind = 2 ∧ s.nv.boot.bootSlot = 1 then (if b < x.cap then b + x.cap else b - x.cap) else b

/-- What the map holds at a place of a volume. -/
def State.blk (s : State) (v p : Nat) : Option Blk := (s.vol v).map.get? p

def State.setBlk (s : State) (v p : Nat) (b : Option Blk) : State :=
  let x := s.vol v
  s.setVol v { x with map := match b with
                             | some y => x.map.put p y
                             | none => x.map.erase p }

/-- Blocks of 4 KiB a volume's commands reach. -/
def Vol.blocks (x : Vol) : Nat := if x.kind = 2 then 2 * x.cap else x.cap
/-- Logical blocks in the volume's own block size (R231, R293). -/
def Vol.lbas (x : Vol) : Nat := if x.emul then 8 * x.blocks else x.blocks
/-- Bytes of one logical block. -/
def Vol.lbaBytes (x : Vol) : Nat := if x.emul then 512 else 4096

/-! ### Loss report (R113, R114) -/

/-- Take one block out of the runs of a volume (R114). -/
def splitRun (v b : Nat) (r : LossRun) : List LossRun :=
  if r.vol ≠ v ∨ r.cause = 5 ∨ b < r.first ∨ r.first + r.len ≤ b then [r]
  else
    (if r.first < b then [{ r with len := b - r.first }] else []) ++
    (if b + 1 < r.first + r.len then [{ r with first := b + 1, len := r.first + r.len - b - 1 }] else [])

def State.unlose (s : State) (v p : Nat) : State :=
  { s with nv.loss.runs := s.nv.loss.runs.flatMap (splitRun v p) }

/-- Add one lost block: merged with an adjacent run of its volume and cause, or as a run of its own; at most 4096 runs
(R113, R114). -/
def addRun (r : LossRun) : List LossRun → List LossRun × Bool
  | [] => ([r], true)
  | x :: xs =>
    if x.vol = r.vol ∧ x.cause = r.cause ∧ r.cause ≠ 5 ∧ x.first + x.len = r.first ∧ x.len + r.len ≤ 65535 then
      ({ x with len := x.len + r.len } :: xs, true)
    else
      let t := addRun r xs
      (x :: t.1, t.2)

def State.lose (s : State) (r : LossRun) : State :=
  let runs := (addRun r s.nv.loss.runs).1
  let l := s.nv.loss
  let l1 := if runs.length ≤ 4096 then { l with runs := runs } else { l with trunc := true }
  { s with nv.loss := { l1 with oldest := if l.runs.isEmpty then r.cycle else l.oldest, newest := r.cycle } }

/-! ### Journal tail (R311, R313) -/

/-- Records per journal page: 16 bytes each in a 16 KiB page of W3's parts (DEDUCED: the page size is the LUN table's). -/
def journalPage : Nat := 1024

/-- One record enters the journal tail; a full page goes to its program at once (R311). Past 2^20 records a checkpoint
starts (R313). -/
def State.journal (s : State) (unit : Nat) : State :=
  let p := s.str.openPage ++ [unit]
  let n := s.str.sinceCkpt + 1
  let ck := if s.str.ckptAt.isNone ∧ 2 ^ 20 ≤ n then some n else s.str.ckptAt
  if journalPage ≤ p.length then
    { s with str := { s.str with openPage := [], pages := s.str.pages ++ [p], sinceCkpt := n, ckptAt := ck } }
  else { s with str := { s.str with openPage := p, sinceCkpt := n, ckptAt := ck } }

/-- A change that a P command, a pin or a seal commits: it is durable before the completion (R251, R262, R303). -/
def State.commit (s : State) : State := s.journal 0

/-! ### Staging units (R304, R311) -/

/-- Put one 4 KiB block's new data into a staging unit and the map (R304, R315); `p` is its place. -/
def State.stageBlock (s : State) (v p : Nat) (data : Bytes) (group : Nat) (fromReserve : Bool) (part granted : Nat) : State :=
  let u : SUnit :=
    { id := s.str.nextUnit, vol := v, lba := p, stream := false, group := group, fromReserve := fromReserve, part := part
      granted := granted, prev := s.blk v p }
  let s1 := { s with str := { s.str with units := s.str.units ++ [u], nextUnit := s.str.nextUnit + 1 } }
  (s1.setBlk v p (some { data := padTo 4096 data })).unlose v p

/-- A staged unit of a block that is overwritten or trimmed before its program starts needs no program: it is released
(13_strata.md, Edges). -/
def State.dropStaged (s : State) (v p : Nat) : State :=
  let old := s.str.units.filter fun u => u.vol == v && u.lba == p && !u.stream && u.place == UnitAt.staged
  let s1 := old.foldl (fun t u => t.giveBack 1 u.part u.fromReserve) s
  { s1 with str.units := s1.str.units.filter fun (u : SUnit) =>
      !(u.vol == v && u.lba == p && !u.stream && u.place == UnitAt.staged) }

/-- The bytes a 4 KiB block reads as (R112): zeros where unmapped. -/
def State.blockBytes (s : State) (v p : Nat) : Bytes :=
  match s.blk v p with
  | some b => padTo 4096 b.data
  | none => List.replicate 4096 0

/-! ### Streams (R243 to R247, R297 to R302) -/

/-- The extent of a record (R297). -/
def extent (len : Nat) : Nat := 32 + 8 * ceilDiv len 8
def Vol.space (x : Vol) : Nat := x.cap * 4096
def Vol.used (x : Vol) : Nat := (x.recs.map fun r => extent r.payload.length).sum

/-- A pin keeps the record (R301). -/
def State.pinned (s : State) (v seq : Nat) : Bool :=
  s.nv.pins.any fun p => p.vol = v && p.first ≤ seq && seq < p.first + p.count

/-- A record may be released: no pin, and its age is at least the retention (R299). -/
def State.mayRelease (s : State) (v : Nat) (r : SRec) : Bool :=
  !s.pinned v r.seq && (s.vol v).retention * 1000 ≤ s.time.optMs - r.optMs

/-- The oldest records to release so that `need` bytes fit into `free`; none if one of them may not go (R299). -/
def State.toRelease (s : State) (v need : Nat) : Nat → List SRec → Option Nat
  | free, [] => if need ≤ free then some 0 else none
  | free, r :: rs =>
    if need ≤ free then some 0
    else if s.mayRelease v r then (State.toRelease s v need (free + extent r.payload.length) rs).map (· + 1)
    else none

/-- Release the `k` oldest records (R299, R300, R114). -/
def State.releaseOldest (s : State) (v k : Nat) : State :=
  let x := s.vol v
  let gone := x.recs.take k
  let s1 := s.setVol v { x with recs := x.recs.drop k, released := x.released + k }
  gone.foldl (fun t r => if r.lost then t.unlose v (r.off / 4096) else t) s1

/-- Stream records below the write offset: place one record at acceptance (R243, R297). -/
def State.accept (s : State) (v : Nat) (payload : Bytes) (src transform units : Nat) (fromReserve : Bool) (part granted : Nat) :
    State :=
  let x := s.vol v
  let r : SRec :=
    { seq := x.nextSeq, ticks := s.time.uptime, cycles := s.time.cycles, optMs := s.time.optMs, payload := payload
      src := src, transform := transform, off := x.writeOff }
  let s1 := s.setVol v { x with
    recs := x.recs ++ [r], nextSeq := x.nextSeq + 1
    writeOff := (x.writeOff + extent payload.length) % max 1 x.space }
  let us := (List.range units).map fun i =>
    ({ id := s.str.nextUnit + i, vol := v, lba := r.seq, stream := true, group := 0, fromReserve := fromReserve
       part := part, granted := granted } : SUnit)
  { s1 with str := { s1.str with units := s1.str.units ++ us, nextUnit := s1.str.nextUnit + units } }

/-- The 32-byte header and padded payload a record reads back as (R245). -/
def SRec.bytes (r : SRec) : Bytes :=
  let h := natLe 8 r.seq ++ natLe 8 r.ticks ++ natLe 4 r.cycles ++ natLe 4 r.payload.length ++ natLe 2 r.src ++
    [BitVec.ofNat 8 r.transform, 0]
  h ++ natLe 4 (crc32c (h ++ r.payload)).toNat ++ padTo (8 * ceilDiv r.payload.length 8) r.payload

/-! ### Transforms (R408, R409) -/

/-- Interleave-to-planar: stored byte `j` comes from input byte of frame f, lane l, element byte b (R408). -/
def planar (e l : Nat) (x : Bytes) : Bytes :=
  let n := x.length / (e * l)
  (List.range x.length).map fun j =>
    let b := j % e
    let f := (j / e) % n
    let lane := j / (e * n)
    ((x[(f * l + lane) * e + b]?).getD 0)

/-- Bit-plane: bit `m` of byte `q` of plane `j` is bit `j` of element 8q + m (R409). -/
def bitPlane (e : Nat) (x : Bytes) : Bytes :=
  let n := x.length / e
  (List.range x.length).map fun i =>
    let j := i / (n / 8)
    let q := i % (n / 8)
    BitVec.ofNat 8 (((List.range 8).map fun m =>
      if (((x[(8 * q + m) * e + j / 8]?).getD 0).getLsbD (j % 8)) then 2 ^ m else 0).sum)

/-- The stored form of an APPEND's payload (R242). -/
def transformed (t e l : Nat) (x : Bytes) : Bytes :=
  if t = 1 then planar e l x else if t = 2 then bitPlane e x else x

/-- The transform fields of R242 suit the length: element size 2^code, lanes 2 to 16. -/
def transformOk (t code lanes len : Nat) : Bool :=
  if t = 0 then code = 0 && lanes = 0
  else if t = 1 then code ≤ 3 && 2 ≤ lanes && lanes ≤ 16 && len % (2 ^ code * lanes) = 0
  else if t = 2 then code ≤ 3 && lanes = 0 && len % (8 * 2 ^ code) = 0
  else false

/-! ### Locks (R233 check 5, R273) -/

/-- The volume's key is not loaded, or a SANITIZE has struck it. -/
def State.volLocked (s : State) (v : Nat) : Bool :=
  let x := s.vol v
  (x.encrypt && !bit s.roles.keys v) || x.sanitize

end Sys2Proof.Machine
end

