-- ==== Sys2Proof/Machine/Io.lean ====
section
/-! DEFINITION. The I/O commands (11_io_commands.md): checks, data pointers, admission, and the effect of each opcode.
A command row starts the fetched command that its ring and tag name. -/

namespace Sys2Proof.Machine

/-! ### Bodies and data pointers (R231, R232) -/

def Cmd.b (c : Cmd) (i n : Nat) : Nat := leAt c.body i n
def Cmd.volume (c : Cmd) : Nat := c.b 0 1
def Cmd.dkind (c : Cmd) : Nat := c.b 1 1
def Cmd.opflags (c : Cmd) : Nat := c.b 2 2
def Cmd.length (c : Cmd) : Nat := c.b 4 4
def Cmd.start (c : Cmd) : Nat := c.b 8 8
def Cmd.daddr (c : Cmd) : Nat := c.b 16 8
def Cmd.dcount (c : Cmd) : Nat := c.b 24 4
/-- Body bytes from `i` on, `n` of them, are 0. -/
def Cmd.zero (c : Cmd) (i n : Nat) : Bool := c.b i n = 0

/-- The 16-byte segments of a list (R232). -/
def segsOf (b : Bytes) (n : Nat) : List Bytes := (List.range n).map fun i => slice b (16 * i) 16
def segAddr (x : Bytes) : Nat := leAt x 0 8
def segLen (x : Bytes) : Nat := leAt x 8 4
def segOk (x : Bytes) : Bool :=
  segAddr x % 4 = 0 && segLen x % 4 = 0 && 4 ≤ segLen x && segLen x ≤ 2 ^ 21 && leAt x 12 4 = 0

/-- The raw segments a command's pointer names; `list` is the segment list the device read for DKIND 3. -/
def Cmd.rawSegs (c : Cmd) (list : Bytes) : List Bytes :=
  if c.dkind = 2 then segsOf (c.body.drop 56) c.dcount else if c.dkind = 3 then segsOf list c.dcount else []

/-- The data pointer suits a transfer of `n` bytes, as far as the entry itself shows (R232). -/
def Cmd.pointerOk (c : Cmd) (n : Nat) : Bool :=
  let k := c.dkind
  if n = 0 then k = 0 && c.daddr = 0 && c.dcount = 0
  else if k = 1 then c.daddr % 4 = 0 && c.dcount = 0
  else if k = 2 then
    c.daddr = 0 && 1 ≤ c.dcount && c.dcount ≤ (if c.modeV then 28 else 26) &&
    (c.rawSegs []).all segOk && ((c.rawSegs []).map segLen).sum = n
  else if k = 3 then 1 ≤ c.dcount && c.dcount ≤ 512 && c.daddr % 16 = 0
  else false

/-- The segment list read for DKIND 3 is well formed and sums to the transfer (R232). -/
def Cmd.listOk (c : Cmd) (n : Nat) (list : Bytes) : Bool :=
  c.dkind ≠ 3 || ((c.rawSegs list).all segOk && ((c.rawSegs list).map segLen).sum = n)

/-- Host address and length of each run of the transfer. -/
def Cmd.runs (c : Cmd) (n : Nat) (list : Bytes) : List (Nat × Nat) :=
  if c.dkind = 1 then [(c.daddr, n)] else (c.rawSegs list).map fun x => (segAddr x, segLen x)

/-- Cut one run into descriptors: at most 4096 B, no 4 KiB host boundary, and no unit boundary on the device side
unless a transform runs (R406). `k` bounds their number. -/
def cutRun (toHost transit whole : Bool) (addr len off : Nat) : Nat → List Desc
  | 0 => []
  | k + 1 =>
    if len = 0 then []
    else
      let host := 4096 - addr % 4096
      let dev := if whole then 4096 else 4096 - off % 4096
      let m := min len (min host dev)
      { addr := addr, len := m, off := off, toHost := toHost, transit := transit } ::
        cutRun toHost transit whole (addr + m) (len - m) (off + m) k

def cutRuns (toHost transit whole : Bool) : Nat → List (Nat × Nat) → List Desc
  | _, [] => []
  | off, (a, n) :: rs => cutRun toHost transit whole a n off (2 * n + 2) ++ cutRuns toHost transit whole (off + n) rs

/-- Write bytes out over the runs of a transfer. -/
def State.scatter (s : State) (bs : Bytes) : List (Nat × Nat) → State
  | [] => s
  | (a, n) :: rs => if bs.isEmpty then s else State.scatter (s.emit (.hostWrite a (bs.take n))) (bs.drop n) rs

/-! ### Commands in their ring -/

/-- The command that holds a tag. -/
def State.cmd? (s : State) (n tag : Nat) : Option Cmd := (s.ring n).cmds.find? fun c => c.tag == tag

/-- Replace a command in its ring. -/
def State.setCmd (s : State) (c : Cmd) : State :=
  let r := s.ring c.ring
  s.setRing c.ring { r with cmds := r.cmds.map fun x => if x.tag = c.tag then c else x }

/-- Start the fetched or held command of a ring and tag that carries an opcode; anything else leaves the state. -/
def State.startCmd (s : State) (n tag opcode : Nat) (f : State → Cmd → State) : Result :=
  match s.cmd? n tag with
  | some c => if c.opcode = opcode ∧ c.unstarted ∧ s.dieUp ∧ ¬ s.bas.freeze then ok (f s c) else ok s
  | none => ok s

/-! ### Checks (R233, R234) -/

/-- Opcodes that write, for R234 and R249. -/
def kindAllows (opcode kind : Nat) : Bool :=
  if opcode = 4 ∨ opcode = 7 ∨ opcode = 8 ∨ opcode = 9 then kind = 1
  else if opcode = 5 then kind ≤ 2
  else kind = 0 || kind = 2

/-- The largest length in bytes an opcode takes (READ, WRITE: 2 MiB). -/
def Cmd.bytesOf (s : State) (c : Cmd) : Nat := c.length * (s.vol c.volume).lbaBytes

/-- Fields and data pointer of an opcode (R231, R232, R242, R247 to R252). -/
def State.ioFieldsOk (s : State) (c : Cmd) : Bool :=
  let op := c.opcode
  let n := c.bytesOf s
  if op = 1 ∨ op = 2 then
    c.opflags = 0 && 1 ≤ c.length && n ≤ 2 ^ 21 && c.zero 28 28 && c.pointerOk n
  else if op = 3 then c.opflags = 0 && 1 ≤ c.length && c.zero 28 28 && c.pointerOk n
  else if op = 4 then
    c.opflags = 0 && 1 ≤ c.length && c.length ≤ 262144 && c.start = 0 && c.zero 31 25 && c.pointerOk c.length &&
    transformOk (c.b 28 1) (c.b 29 1) (c.b 30 1) c.length
  else if op = 5 then c.opflags ≤ 1 && c.length = 0 && c.start = 0 && c.zero 28 28 && c.pointerOk 0
  else if op = 6 then c.opflags = 0 && 1 ≤ c.length && c.zero 28 28 && c.pointerOk 0
  else if op = 7 then c.opflags = 0 && c.length = 0 && c.start = 0 && c.zero 28 28 && c.pointerOk 0
  else if op = 8 then
    c.opflags = 0 && 32 ≤ c.length && c.length ≤ 2 ^ 21 && c.length % 8 = 0 && c.zero 32 24 && c.pointerOk c.length
  else if op = 9 then
    c.pointerOk 0 && c.zero 30 26 &&
    (if c.opflags = 1 then c.length = 0 && c.start = 0
     else c.zero 28 2 && 1 ≤ c.length && (if c.opflags = 2 then c.length ≤ 600000 && c.start = 0 else c.opflags = 0))
  else false

/-- Checks 1 to 9 of R233 on a command of rings 1 to 7, in order: the status of the first that fails. -/
def State.ioCheck (s : State) (c : Cmd) : Option Nat :=
  let v := c.volume
  let x := s.vol v
  if s.dev = .bedrock ∧ ¬ (c.opcode = 1 ∧ v = 0 ∧ c.ring = 1) then some 0x0800
  else if c.ring = 0 ∨ c.opcode < 1 ∨ 9 < c.opcode then some 0x0200
  else if 31 < v ∨ 3 < c.dkind ∨ x.kind = 255 ∨ ¬ kindAllows c.opcode x.kind ∨ ¬ s.ioFieldsOk c then some 0x0201
  else if v = 0 ∧ (c.opcode = 2 ∨ c.opcode = 3 ∨ c.opcode = 6) ∧ s.roles.pcie = 0 then some 0x0400
  else if s.volLocked v then some 0x0401
  else if (c.opcode = 1 ∨ c.opcode = 2 ∨ c.opcode = 3 ∨ c.opcode = 6) ∧ x.lbas < c.start + c.length then some 0x0202
  else if c.opcode = 3 ∧ 262144 < c.bytesOf s then some 0x0203
  else if (c.opcode = 4 ∨ c.opcode = 7) ∧ x.isSealed then some 0x0302
  else if s.dev = .preFreeze ∧ (c.opcode = 2 ∨ c.opcode = 3 ∨ c.opcode = 4 ∨ c.opcode = 6 ∨ c.opcode = 7) then some 0x0103
  else none

/-- The hint of a REFUSED_SHUTDOWN (R575): 1000 µs and the time left of D, here the whole of D, while PFW is TIMING. -/
def State.shutdownHint (s : State) : Nat :=
  if s.pfw.state = .timing then 1000 + 1000 * s.f Reg.pfwDisc else 0xFFFFFFFF

/-- Run the checks, then `f`. The hint of REFUSED_SHUTDOWN goes with the opcodes R576 names. -/
def State.checked (s : State) (c : Cmd) (f : State → Cmd → State) : State :=
  match s.ioCheck c with
  | some st => s.complete c st (if st = 0x0103 ∧ 2 ≤ c.opcode ∧ c.opcode ≤ 4 then natLe 4 s.shutdownHint else [])
  | none => f s c

/-! ### Classes, budget and admission (R253 to R258, R417 to R420) -/

/-- 4 KiB blocks a block command touches, first and count. -/
def Cmd.blockSpan (s : State) (c : Cmd) : Nat × Nat :=
  if (s.vol c.volume).emul then
    (c.start / 8, ceilDiv (c.start + c.length) 8 - c.start / 8)
  else (c.start, c.length)

/-- Staging units a writing command needs (R243). -/
def Cmd.unitsOf (s : State) (c : Cmd) : Nat := if c.opcode = 4 then ceilDiv c.length 4096 else (c.blockSpan s).2

/-- Eligible for the cycle class (R253). -/
def State.eligible (s : State) (c : Cmd) : Bool :=
  (s.ring c.ring).ctx.cls = 1 &&
  (if c.opcode = 4 then c.length ≤ 16384
   else (c.opcode = 2 || c.opcode = 3) && 4 * 4096 ≥ c.bytesOf s && c.bytesOf s % 4096 = 0 &&
     (c.start * (s.vol c.volume).lbaBytes) % 4096 = 0)

/-- Within the budget of the running window, counting itself (R254). -/
def State.inBudget (s : State) (k : Nat) : Bool :=
  s.f Reg.cycCmds + 1 ≤ s.f Reg.cycMaxCmds && s.f Reg.cycUnits + k ≤ s.f Reg.cycMaxUnits

/-- Count an eligible command into its window; over budget it is counted, and the first of the window recorded (R256). -/
def State.countCycle (s : State) (k : Nat) : State :=
  let s1 := (s.countF Reg.cycCmds 1).countF Reg.cycUnits k
  if s.inBudget k then s1
  else
    let s2 := s1.countF Reg.cycOver 1
    if s.staged.get 0 1 = 0 then ({ s2 with staged := s2.staged.put 1 1 }).record 0x2041 Src.ring else s2

/-- The units missing behind a REFUSED_ENERGY (R575). -/
def State.energyShort (s : State) (c : Nat) : Nat := (if c = 7 ∨ c = 8 then 256 else 16) - s.ledgerA

def State.energyHint (s : State) (c : Nat) : Nat := hintOf (s.energyShort c) (s.releasedIn true 0)

/-- What admission answers: granted, refused with REFUSED_ENERGY, or held in the class queue. -/
inductive Admit
  | granted (s : State) (fromReserve : Bool)
  | refused
  | held
  deriving DecidableEq, Repr

/-- An earlier request of the same class waits (R419). -/
def State.blocked (s : State) (c : Cmd) (cls : Nat) : Bool :=
  match s.alloc.queue.find? fun q => q.2.2.1 == cls with
  | some q => !(q.1 == c.ring && q.2.1 == c.tag)
  | none => false

/-- Ask for `k` general units in class `cls` (R82, R85, R417 to R420). -/
def State.askGeneral (s : State) (c : Cmd) (cls k : Nat) : Admit :=
  if ¬ s.openTo cls then .refused
  else if s.blocked c cls ∨ ¬ s.unitsFit cls k ∨ ¬ s.energyFits k then .held
  else .granted (s.takeGeneral k) false

/-- Ask for the units of a writing command (R255 to R257). -/
def State.askUnits (s : State) (c : Cmd) (k : Nat) : Admit :=
  if c.budgeted then
    if ¬ s.openTo 3 then .refused
    else if k ≤ s.resFree then .granted (s.takeReserve k) true
    else s.askGeneral c 3 k
  else s.askGeneral c 7 k

/-- Wait in the class queue (R420): counted once (R577). -/
def State.hold (s : State) (c : Cmd) (cls k : Nat) : State :=
  if c.stage = .held then s
  else
    ({ s.setCmd { c with stage := .held } with
      alloc.queue := s.alloc.queue ++ [(c.ring, c.tag, cls, k)] }).countClass cls 2

/-- Classify a writing command at its first start (R253, R254, R256). -/
def State.classify (s : State) (c : Cmd) : State × Cmd :=
  if c.stage = .held then (s, c)
  else if s.eligible c then
    let k := c.unitsOf s
    let b := s.inBudget k
    let c1 := { c with eligible := true, budgeted := b, cls := if b then 3 else 7 }
    ((s.countCycle k).setCmd c1, c1)
  else (s, { c with cls := 7 })

/-- A short reserve is recorded and counted (R257). -/
def State.noteShort (s : State) (c : Cmd) (k : Nat) : State :=
  if c.budgeted ∧ s.resFree < k ∧ c.stage ≠ .held then (s.record 0x2040 Src.ring).bump 0x27 else s

/-! ### Transfer faults (R411 to R414) -/

/-- The descriptor words of a fault (R406). -/
def descWords (c : Cmd) (d : Desc) : List Nat :=
  [d.addr % 2 ^ 32, d.addr / 2 ^ 32,
   d.len + 65536 * (b2n d.toHost + 2 * (if c.opcode = 4 then c.b 28 1 else 0) + 8 * c.tag) + 2 ^ 24 * (c.ring + 8 * b2n d.transit),
   d.off]

/-- Latch and count a fault, and halt the channel in halt mode (R413, R414). -/
def State.latchFault (s : State) (c : Cmd) (d : Desc) (code : Nat) : State :=
  let ch := s.chan c.ring
  let words := descWords c d ++ [code + 8 * b2n (!d.toHost) + 256 * (c.slot % 256), d.addr % 2 ^ 32, s.upLo,
    satAdd 0xFFFF ((ch.fault[7]?).getD 0) 1]
  let f := if ch.halted then ch.fault.take 7 ++ [satAdd 0xFFFF ((ch.fault[7]?).getD 0) 1] else words
  let s1 := s.setChan c.ring { ch with
    fault := f, faults := satAdd 0xFFFF ch.faults 1, halted := ch.halted || ch.ctx.halt }
  let s2 := (s1.record 0x2050 Src.xfr c.ring code).bump 0x28
  if ch.ctx.halt ∧ ¬ ch.halted then s2.record 0x2051 Src.xfr c.ring else s2

/-- A command ends with DMA_FAULT: its units and charge come back at once, and nothing is applied (R413). -/
def State.dmaFault (s : State) (c : Cmd) (d : Desc) (code : Nat) : State :=
  ((s.latchFault c d code).giveBack c.units 0 c.fromReserve).complete c 0x0600 []

/-- The descriptor at an offset of a command's transfer. -/
def descAt (ds : List Desc) (off : Nat) : Desc :=
  ((ds.filter fun d => d.off ≤ off).getLast?).getD
    { addr := 0, len := 4, off := off, toHost := false, transit := false }

/-! ### Applying writes (R237 to R243) -/

/-- Stage the blocks of a WRITE or WRITE_ATOMIC: `i` blocks from the first, the data running on (R239 merges partial
blocks of an emulated volume). -/
def State.applyBlocks (s : State) (c : Cmd) (group first bytesIn : Nat) (data : Bytes) : Nat → State
  | 0 => s
  | i + 1 =>
    let p := s.place c.volume first
    let old := s.blockBytes c.volume p
    let take := 4096 - bytesIn
    let new := padTo 4096 (overlay old bytesIn (data.take take))
    State.applyBlocks ((s.dropStaged c.volume p).stageBlock c.volume p new group c.fromReserve 0 c.granted) c group (first + 1) 0
      (data.drop take) i

/-- A WRITE or WRITE_ATOMIC whose data is all in staging (R237, R241). -/
def State.applyWrite (s : State) (c : Cmd) (data : Bytes) : State :=
  let span := c.blockSpan s
  let into := if (s.vol c.volume).emul then 512 * (c.start % 8) else 0
  let g := if c.opcode = 3 then s.str.nextGroup else 0
  let s1 := { s with str.nextGroup := s.str.nextGroup + 1 }
  (s1.applyBlocks c g span.1 into data span.2).complete c 0 []

/-- An earlier APPEND of the same ring to the same stream is neither accepted nor failed (R244). -/
def State.earlierAppend (s : State) (c : Cmd) : Bool :=
  ((s.ring c.ring).cmds.takeWhile fun x => x.tag ≠ c.tag).any fun x =>
    x.opcode = 4 && x.volume = c.volume && x.stage ≠ .done

/-- Accept a record whose payload is in staging, or refuse it when the stream cannot hold it (R243, R246, R250, R299):
the effect, the status and the result. -/
def State.acceptInto (s : State) (c : Cmd) (data : Bytes) : State × Nat × Bytes :=
  let v := c.volume
  let x := s.vol v
  let need := extent c.length
  let back := s.giveBack c.units 0 c.fromReserve
  if x.isSealed then (back, 0x0302, [])
  else match s.toRelease v need (x.space - x.used) x.recs with
    | none => (back, 0x0101, natLe 4 0xFFFFFFFF)
    | some k =>
      let e := 2 ^ c.b 29 1
      let payload := transformed (c.b 28 1) e (c.b 30 1) (padTo c.length data)
      ((s.releaseOldest v k).accept v payload c.ring (c.b 28 1) c.units c.fromReserve 0 c.granted, 0, natLe 4 0 ++ natLe 8 x.nextSeq)

/-- The same with its completion. -/
def State.acceptNow (s : State) (c : Cmd) (data : Bytes) : State :=
  let r := s.acceptInto c data
  r.1.complete c r.2.1 r.2.2

/-- Accept the staged APPENDs of a ring and stream whose turn has come; `k` bounds their number. -/
def State.acceptReady (s : State) (n v : Nat) : Nat → State
  | 0 => s
  | k + 1 =>
    match (s.ring n).cmds.find? fun c => c.opcode == 4 && c.volume == v && c.stage == .running && !s.earlierAppend c with
    | some c => State.acceptReady (s.acceptNow c (c.got.get [] 0)) n v k
    | none => s

/-- An APPEND whose last byte is in staging: accepted now, or waiting for its turn (R243, R244). -/
def State.applyAppend (s : State) (c : Cmd) (data : Bytes) : State :=
  if s.earlierAppend c then s.setCmd { c with stage := .running, got := [(0, data)] }
  else (s.acceptNow c data).acceptReady c.ring c.volume 32

/-- Its turn may come when an earlier APPEND fails too. -/
def State.afterAppend (s : State) (c : Cmd) : State := if c.opcode = 4 then s.acceptReady c.ring c.volume 32 else s

/-- All data of a command that moves data to the device has arrived. -/
def State.applyIn (s : State) (c : Cmd) (data : Bytes) : State :=
  if c.opcode = 4 then s.applyAppend c data else s.applyWrite c data

/-- The data stage of an admitted command. -/
def State.moveIn (s : State) (c : Cmd) (n : Nat) (x : Xfer) : State :=
  match x with
  | .done segs data =>
    if c.listOk n segs then s.applyIn c data
    else ((s.giveBack c.units 0 c.fromReserve).complete c 0x0201 []).afterAppend c
  | .issued segs =>
    if c.listOk n segs then
      let ds := cutRuns false false (c.opcode = 4 && c.b 28 1 ≠ 0) 0 (c.runs n segs)
      s.setCmd { c with stage := .moving, descs := ds, segs := c.runs n segs }
    else ((s.giveBack c.units 0 c.fromReserve).complete c 0x0201 []).afterAppend c
  | .faulted off code =>
    let ds := cutRuns false false false 0 (c.runs n [])
    (s.dmaFault c (descAt ds off.toNat) code.toNat).afterAppend c

/-- Start a writing command: class, admission, then its data (R237, R240, R243, R253 to R257). A halted channel issues
nothing, and the command waits with its tag held (R414). -/
def State.startWrite (s : State) (c0 : Cmd) (x : Xfer) : State :=
  s.checked c0 fun s c1 =>
    if (s.chan c1.ring).halted then s
    else
      let k := c1.unitsOf s
      let sc := s.classify c1
      let c := sc.2
      let s1 := sc.1.noteShort c k
      match s1.askUnits c k with
      | .refused => (s1.complete c 0x0102 (natLe 4 (s1.energyHint c.cls))).afterAppend c
      | .held => s1.hold c c.cls k
      | .granted s2 fromReserve =>
        let c2 := { c with units := k, fromReserve := fromReserve, granted := s.time.uptime }
        let s3 := { s2.setCmd c2 with
          alloc.queue := s2.alloc.queue.filter fun q => !(q.1 == c.ring && q.2.1 == c.tag) }
        s3.moveIn c2 (if c.opcode = 4 then c.length else c.bytesOf s) x

/-! ### Data to the host (R235, R247) -/

/-- Send data to the host and end the command, now or descriptor by descriptor. -/
def State.moveOut (s : State) (c : Cmd) (n : Nat) (data : Bytes) (status : Nat) (result : Bytes) (x : Xfer) : State :=
  match x with
  | .done segs _ =>
    if c.listOk n segs then (s.scatter data (c.runs n segs)).complete c status result else s.complete c 0x0201 []
  | .issued segs =>
    if c.listOk n segs then
      s.setCmd { c with
        stage := .moving, descs := cutRuns true true false 0 (c.runs n segs), got := [(0, data)], segs := c.runs n segs
        endStatus := status, endResult := result }
    else s.complete c 0x0201 []
  | .faulted off code => s.dmaFault c (descAt (cutRuns true true false 0 (c.runs n [])) off.toNat) code.toNat

/-! ### FLUSH, TRIM, SEAL_STREAM, PIN_RANGE (R248 to R252) -/

/-- A FLUSH covers units of volume `v` admitted at uptime `t`: those admitted by the tick of its doorbell (DESIGN CHOICE: one admitted
in that very tick counts as earlier). -/
def Cmd.covers (c : Cmd) (v t : Nat) : Bool := (c.opflags = 1 || v = c.volume) && t ≤ c.arrive

/-- Units a FLUSH covers are all durable, those of commands and messages whose data is still on its way among them (R248). -/
def State.flushed (s : State) (c : Cmd) : Bool :=
  !(s.str.units.any fun u => c.covers u.vol u.granted) &&
  !(s.rings.any fun r => r.2.cmds.any fun x =>
    (x.stage == .moving || x.stage == .running) && 2 ≤ x.opcode && x.opcode ≤ 4 && c.covers x.volume x.granted) &&
  !(s.fab.conns.any fun x => match x.2.inMsg with
    | some m => c.covers m.vol m.granted
    | none => false)

/-- FLUSH: it completes once nothing it covers is left in staging; till then it runs on (R248). -/
def State.startFlush (s : State) (c0 : Cmd) : State :=
  s.checked c0 fun s c => if s.flushed c then s.complete c 0 [] else s.setCmd { c with stage := .held }

/-- TRIM block by block (R249, R317): unmapped, out of the loss report, its journal record in the tail. A part of a 4 KiB
block of an emulated volume reads as zeros in that part. -/
def State.trimBlocks (s : State) (v first : Nat) : Nat → State
  | 0 => s
  | k + 1 =>
    let p := s.place v first
    let s1 := if (s.blk v p).isSome then (((s.dropStaged v p).setBlk v p none).unlose v p).journal 0 else s
    State.trimBlocks s1 v (first + 1) k

/-- The mapped places of a volume that a TRIM of blocks [first, first + n) covers. -/
def State.mappedIn (s : State) (v first n : Nat) : List Nat :=
  ((s.vol v).map.map fun e => e.1).filter fun p =>
    let b := if (s.vol v).kind = 2 ∧ s.nv.boot.bootSlot = 1 then
        (if p < (s.vol v).cap then p + (s.vol v).cap else p - (s.vol v).cap) else p
    first ≤ b && b < first + n

/-- Zero sectors of one 4 KiB block of an emulated volume. -/
def State.trimPart (s : State) (v b lo hi : Nat) : State :=
  let p := s.place v b
  match s.blk v p with
  | none => s
  | some x => if hi ≤ lo then s
    else (s.setBlk v p (some { x with data := overlay (padTo 4096 x.data) (512 * lo) (List.replicate (512 * (hi - lo)) 0) })).journal 0

/-- Trim whole 4 KiB blocks by their mapped places. -/
def State.trimWhole (s : State) (v first n : Nat) : State :=
  (s.mappedIn v first n).foldl (fun t p => (((t.dropStaged v p).setBlk v p none).unlose v p).journal 0) s

/-- TRIM (R249). -/
def State.startTrim (s : State) (c0 : Cmd) : State :=
  s.checked c0 fun s c =>
    let v := c.volume
    let s1 := if (s.vol v).emul then
        let lo := c.start
        let hi := c.start + c.length
        let b0 := ceilDiv lo 8
        let b1 := hi / 8
        if b1 < b0 then s.trimPart v b1 (lo % 8) (hi % 8)
        else
          let t := s.trimWhole v b0 (b1 - b0)
          let t1 := if lo % 8 = 0 then t else t.trimPart v (lo / 8) (lo % 8) 8
          t1.trimPart v b1 0 (hi % 8)
      else s.trimWhole v c.start c.length
    s1.complete c 0 []

/-- SEAL_STREAM (R250, R303). -/
def State.startSeal (s : State) (c0 : Cmd) : State :=
  s.checked c0 fun s c =>
    let x := s.vol c.volume
    let last := match x.recs.getLast? with
      | some r => r.seq
      | none => 0xFFFFFFFFFFFFFFFF
    ((s.setVol c.volume { x with isSealed := true }).commit).complete c 0 (natLe 4 0 ++ natLe 8 last)

/-- A free host pin handle, below 0x8000 (R473). -/
def State.freeHandle (s : State) : Nat :=
  ((List.range 129).find? fun h => !(s.nv.pins.any fun p => p.handle == h)).getD 0

/-- Both limits of R252 leave room for one more pin. -/
def State.pinRoom (s : State) (v : Nat) : Bool :=
  (s.nv.pins.filter fun p => p.vol == v).length < 16 && s.nv.pins.length < 128

/-- Records a pin by sequence covers, and those a pin by time covers (R251). -/
def State.spanOf (s : State) (v first n : Nat) : List SRec := (s.vol v).recs.filter fun r => first ≤ r.seq && r.seq < first + n
def State.windowOf (s : State) (v from_ : Nat) : List SRec :=
  (s.vol v).recs.filter fun r => r.cycles = s.time.cycles && from_ ≤ r.ticks

/-- Pin a run of records under a handle. -/
def State.addPin (s : State) (v handle : Nat) (rs : List SRec) : State :=
  let first := match rs with
    | [] => 0
    | r :: _ => r.seq
  { s.commit with nv.pins := s.nv.pins ++ [{ vol := v, handle := handle, first := first, count := rs.length }] }

def State.pinRecords (s : State) (c : Cmd) (rs : List SRec) (gap : Bool) : State :=
  if ¬ s.pinRoom c.volume then s.complete c 0x0101 []
  else
    let h := s.freeHandle
    let first := match rs with
      | [] => 0
      | r :: _ => r.seq
    (s.addPin c.volume h rs).complete c 0
      (natLe 2 h ++ natLe 2 (b2n gap) ++ natLe 8 first ++ natLe 4 rs.length)

/-- PIN_RANGE by sequence: GAP when part of the span was already released. -/
def State.startPinSeq (s : State) (c0 : Cmd) : State :=
  s.checked c0 fun s c =>
    let x := s.vol c.volume
    let oldest := match x.recs with
      | [] => x.nextSeq
      | r :: _ => r.seq
    s.pinRecords c (s.spanOf c.volume c.start c.length) (c.start < oldest)

/-- PIN_RANGE by time: the records accepted in the last T ms of this power cycle, counted from the doorbell. -/
def State.startPinTime (s : State) (c0 : Cmd) : State :=
  s.checked c0 fun s c =>
    s.pinRecords c ((s.windowOf c.volume (c.arrive - msTicks c.length)).filter fun r => r.ticks ≤ c.arrive) false

/-- PIN_RANGE with RELEASE (R251, R252). -/
def State.startPinRelease (s : State) (c0 : Cmd) : State :=
  s.checked c0 fun s c =>
    let h := c.b 28 2
    if s.nv.pins.any fun p => p.vol == c.volume && p.handle == h then
      ({ s.commit with nv.pins := s.nv.pins.filter fun (p : Pin) => !(p.vol == c.volume && p.handle == h) }).complete c 0 []
    else s.complete c 0x0201 []

/-! ### The commands -/

/-- A command's form of PIN_RANGE: 0 by sequence, 1 release, 2 by time; a form with both flags set is checked (and
refused) as a pin by sequence. -/
def State.startPin (s : State) (n tag form : Nat) (f : State → Cmd → State) : Result :=
  s.startCmd n tag 9 fun s c =>
    let mine := if c.opflags = 1 then 1 else if c.opflags = 2 then 2 else 0
    if mine = form then f s c else s

def execWrite (n : Fin 8) (tag : BitVec 5) (x : Xfer) (s : State) : Result :=
  s.startCmd n.val tag.toNat 2 fun s c => s.startWrite c x
def execWriteAtomic (n : Fin 8) (tag : BitVec 5) (x : Xfer) (s : State) : Result :=
  s.startCmd n.val tag.toNat 3 fun s c => s.startWrite c x
def execAppend (n : Fin 8) (tag : BitVec 5) (x : Xfer) (s : State) : Result :=
  s.startCmd n.val tag.toNat 4 fun s c => s.startWrite c x
def execFlush (n : Fin 8) (tag : BitVec 5) (s : State) : Result := s.startCmd n.val tag.toNat 5 State.startFlush
def execTrim (n : Fin 8) (tag : BitVec 5) (s : State) : Result := s.startCmd n.val tag.toNat 6 State.startTrim
def execSealStream (n : Fin 8) (tag : BitVec 5) (s : State) : Result := s.startCmd n.val tag.toNat 7 State.startSeal
def execPinBySequence (n : Fin 8) (tag : BitVec 5) (s : State) : Result := s.startPin n.val tag.toNat 0 State.startPinSeq
def execPinByTime (n : Fin 8) (tag : BitVec 5) (s : State) : Result := s.startPin n.val tag.toNat 2 State.startPinTime
def execPinRelease (n : Fin 8) (tag : BitVec 5) (s : State) : Result := s.startPin n.val tag.toNat 1 State.startPinRelease

/-- BUDGET_WINDOW_END (R254): counting restarts, and `HQ_CYC_BUDGET` takes its staged value. -/
def execBudgetWindowEnd (s : State) : Result :=
  let take (t : State) (f : Field) : State :=
    match t.staged.get? f.key with
    | some v => ({ t with staged := t.staged.erase f.key }).setF f v
    | none => t
  let s1 := take (take (take s Reg.cycWindow) Reg.cycMaxCmds) Reg.cycMaxUnits
  ok ({ (s1.setF Reg.cycCmds 0).setF Reg.cycUnits 0 with staged := s1.staged.erase 1 })

end Sys2Proof.Machine
end

