-- ==== Sys2Proof/Machine/Security.lean ====
section
/-! DEFINITION. Roles, the challenge and response exchange, the failure hold, Flint and its DRBG, and the JTAG port
(22_roles_keys_and_flint.md; 03_balls_and_signals.md, R62, R63). Paths are numbered as in challenges: 0 PCIe, 1 USB,
2 JTAG. -/

namespace Sys2Proof.Machine

/-! ### Random numbers (R539, R540) -/

/-- Draw `k` bytes from the DRBG: free values, each drawn once. -/
def State.draw (s : State) (k : Nat) : State × Bytes :=
  ({ s with
      nv.keys.drawn := s.nv.keys.drawn + k
      roles.flint.requests := s.roles.flint.requests + 1 },
   (List.range k).map fun i => Config.drbg (s.nv.keys.drawn + i))

/-! ### Roles (R519, R520) -/

/-- The role a path holds: 0 operator, 1 installer, 2 maker. -/
def State.roleOf (s : State) (path : Nat) : Nat :=
  match path with
  | 0 => s.roles.pcie
  | 1 => s.roles.usb
  | _ => if s.roles.jtag then 2 else 0

/-- Low 32 bits of the last challenge counter value issued (R544). -/
def State.lastChal (s : State) : Nat := (s.nv.keys.nextChal - 1) % 2 ^ 32

/-- An outstanding challenge is void (R524). -/
def State.voidChal (s : State) (path : Nat) : State := { s with roles.chal := s.roles.chal.erase path }

/-- Change the role of a path: a challenge is void, and a role that ends records event 0x6022 (R520, R524, R544). -/
def State.setRole (s : State) (path role : Nat) : State :=
  let old := s.roleOf path
  if old = role then s
  else
    let s1 := s.voidChal path
    let s2 := if old = 0 then s1 else s1.record 0x6022 Src.sec path old s1.lastChal
    match path with
    | 0 => { s2 with roles.pcie := role }
    | 1 => { s2 with roles.usb := role }
    | _ => { s2 with roles.jtag := role = 2 }

/-- The path's holding ends: its role and its challenge (R519, R570). -/
def State.endPath (s : State) (path : Nat) : State := (s.setRole path 0).voidChal path

/-- MAKER_ROLE_EXPIRY (R520). -/
def execMakerRoleExpiry (path : Fin 3) (s : State) : Result :=
  if s.dieUp ∧ s.roleOf path.val = 2 then ok (s.setRole path.val 0) else ok s

/-! ### Keys as the exchange sees them (R528, R530) -/

/-- The installer key, not stored while the configuration area is unreadable (R528, R561). -/
def State.installerKey (s : State) : Option Bytes :=
  if (s.dev = .bedrock ∧ s.start.bedrockCause = 4) ∨ (s.dev = .recovery ∧ ¬ s.nv.configOk) then none else s.nv.keys.installer

/-- The maker role key of the hidden fuses. -/
def makerKeyBytes : Bytes := (List.range 32).map Config.makerKey

/-- The key of a role. -/
def State.roleKey (s : State) (role : Nat) : Option Bytes := if role = 2 then some makerKeyBytes else s.installerKey

/-- Calibration bytes from an offset (R371). -/
def calBytes (off n : Nat) : Bytes := (List.range n).map fun i => Config.calibration (off + i)

/-- A byte of the calibration row outside the fuses and the check value (R371): magic and format version, PACE_FLOOR and PACE_TARGET,
the digest of the maker key, the reserved zeros; the rest was fixed at manufacture. -/
def State.calPlain (s : State) (i : Nat) : Byte :=
  if i < 8 then (natLe 4 0x52434B51 ++ natLe 4 1).getD i 0
  else if 0x34 ≤ i ∧ i < 0x38 then (natLe 2 s.nv.paceFloor ++ natLe 2 s.paceTarget).getD (i - 0x34) 0
  else if 0x600 ≤ i ∧ i < 0x620 then (sha256 makerKeyBytes).getD (i - 0x600) 0
  else if 0x628 ≤ i then 0
  else Config.calibration i

/-- A byte of the calibration row: the thermometer of the rollback fuses (R550) at 0x620, and at 0x7FC the CRC-32C of the row without
it (R371). -/
def State.calByte (s : State) (i : Nat) : Byte :=
  if 0x620 ≤ i ∧ i < 0x628 then (natLe 8 (2 ^ s.nv.floor - 1)).getD (i - 0x620) 0
  else if 0x7FC ≤ i then (natLe 4 (crc32c ((List.range 0x620).map s.calPlain ++
    (List.range 0x1D4).map fun j => s.calPlain (0x628 + j))).toNat).getD (i - 0x7FC) 0
  else s.calPlain i

/-- `n` bytes of the calibration row from an offset. -/
def State.calRow (s : State) (off n : Nat) : Bytes := (List.range n).map fun i => s.calByte (off + i)

/-! ### Challenges (R524, R525) -/

/-- The remaining hold of a path in µs, if one runs (R529). -/
def State.holdLeft (s : State) (path : Nat) : Option Nat :=
  (s.nv.keys.holds.get? path).map fun e => (e - s.time.uptime) / 25

/-- Take the next counter value; a block of 65 536 is journalled before its first value is issued (R525). -/
def State.takeChal (s : State) : State × Nat :=
  let n := s.nv.keys.nextChal
  let s1 := if s.nv.keys.reserved ≤ n then { s.commit with nv.keys.reserved := s.nv.keys.reserved + 65536 } else s
  ({ s1 with nv.keys.nextChal := n + 1 }, n)

/-- The 64 bytes of a challenge. -/
def State.chalBytes (s : State) (path role n : Nat) (nonce : Bytes) : Bytes :=
  ascii "QKCH" ++ [BitVec.ofNat 8 role,
    BitVec.ofNat 8 (b2n (!s.roles.flint.drbg) + 2 * b2n (role = 1 && s.installerKey.isNone)), BitVec.ofNat 8 path, 0] ++
  natLe 8 n ++ nonce ++ calBytes 8 24 ++ natLe 4 s.time.cycles ++ natLe 4 0

/-- Issue a challenge on a path: the state with it outstanding, and its bytes. -/
def State.issueChal (s : State) (path role : Nat) : State × Bytes :=
  let t := s.takeChal
  let d := if s.roles.flint.drbg then t.1.draw 16 else (t.1, List.replicate 16 0)
  let b := d.1.chalBytes path role t.2 d.2
  ({ d.1 with roles.chal := d.1.roles.chal.put path { role := role, ctr := t.2, bytes := b } }, b)

/-- CHALLENGE_EXPIRY (R524): 60 s after it was issued. -/
def execChallengeExpiry (path : Fin 3) (s : State) : Result := if s.dieUp then ok (s.voidChal path.val) else ok s

/-! ### Responses (R526 to R529) -/

/-- The hold in seconds that the `n`th consecutive rejection starts, if it is a fourth. -/
def holdSeconds (n : Nat) : Option Nat :=
  if n = 0 ∨ n % 4 ≠ 0 then none else if 6 < n / 4 then some 3600 else some (min 3600 (60 * 2 ^ (n / 4 - 1)))

/-- Count a rejected response (R527 to R529). -/
def State.reject (s : State) (path role : Nat) : State :=
  let s1 := (s.record 0x6021 Src.sec path role s.lastChal).bump 0x41
  let s2 := if path = 2 then s1.bump 0x43 else s1
  let n := s2.nv.keys.rejects.get 0 path + 1
  let s3 := { s2.commit with nv.keys.rejects := s2.nv.keys.rejects.put path n }
  match holdSeconds n with
  | some h =>
    { s3 with nv.keys.holds := s3.nv.keys.holds.put path (s.time.uptime + msTicks (1000 * h)) }.record 0x6023 Src.sec path h
  | none => s3

/-- The tag of a response is right for the challenge (R526 to R528). The JTAG path holds the maker role only (R519). -/
def State.tagOk (s : State) (path : Nat) (c : Challenge) (tag : Bytes) : Bool :=
  if path = 2 ∧ c.role ≠ 2 then false
  else match s.roleKey c.role with
  | some k => tag == hmac k c.bytes
  | none => path == 1 && tag.all (fun b => b == 0)

/-- The response suits the outstanding challenge. -/
def State.responseOk (s : State) (path : Nat) (data : Bytes) : Bool :=
  match s.roles.chal.get? path with
  | none => false
  | some c =>
    slice data 0 4 == ascii "QKRS" && leAt data 4 1 == c.role && leAt data 5 3 == 0 && leAt data 8 8 == c.ctr &&
    s.tagOk path c (slice data 16 32)

/-- Grant a role (R527, R529, R570). -/
def State.grant (s : State) (path role n : Nat) : State :=
  let s1 := { s.commit with nv.keys.rejects := s.nv.keys.rejects.erase path }
  let s2 := (s1.setRole path role).record (if role = 2 then 0x6012 else 0x6020) Src.sec path role (n % 2 ^ 32)
  if path = 1 then s2.record 0x7040 Src.usb path role else s2

/-- Take a response: granted, or rejected; either way the challenge is void. -/
def State.respond (s : State) (path : Nat) (data : Bytes) : State × Bool :=
  match s.roles.chal.get? path with
  | some c =>
    if s.responseOk path data then ((s.voidChal path).grant path c.role c.ctr, true)
    else ((s.voidChal path).reject path c.role, false)
  | none => (s.reject path (leAt data 4 1), false)

/-- CHALLENGE_HOLD_END (R529). -/
def execChallengeHoldEnd (path : Fin 3) (s : State) : Result :=
  if s.dieUp then ok { s with nv.keys.holds := s.nv.keys.holds.erase path.val } else ok s

/-! ### Flint (R537 to R543) -/

def Reg.aptMax : Field := ro 0x7800 4 10 0
def Reg.rctMax : Field := ro 0x7800 14 7 0
def Reg.fltWin : Field := rc 0x7804 0 32

def State.setFlint (s : State) (f : Flint) : State := { s with roles.flint := f }

/-- Pending ENTROPY_GET commands (opcode 0x4D) end with ENTROPY_FAIL (R541). -/
def State.failEntropy (s : State) : State :=
  ((s.ring 0).cmds.filter fun c => c.opcode == 0x4D && c.stage == .held).foldl (fun t c => t.complete c 0x0500 []) s

/-- A health test fails (R541, R543): `test` 1 repetition, 2 proportion, 3 start-up; `count` the failing count. -/
def State.healthFail (s : State) (test count : Nat) : State :=
  let f := s.roles.flint
  let s1 := s.setFlint { f with drbg := false, passed := 0, halted := true, stat := 2, failAt := s.time.uptime }
  let s2 := (s1.failEntropy.record 0x6051 Src.flint test f.reruns count).bump 0x42
  if f.stat = 2 ∧ 3 ≤ f.reruns then
    let s3 := s2.setFlint { s2.roles.flint with stat := 3 }
    (({ s3 with flintLatched := true }).record 0x6050 Src.flint test f.reruns count).bump 0x40
  else s2

/-- A window passes (R538, R539, R543): four are the start-up test, two more instantiate the DRBG. -/
def State.windowPass (s : State) : State :=
  let f := s.roles.flint
  let s1 := s.countF Reg.fltWin 1
  if f.stat = 1 ∧ f.drbg then
    if f.reseed then s1.setFlint { f with reseed := false, requests := 0 } else s1
  else if f.passed + 1 < 6 then
    s1.setFlint { f with passed := f.passed + 1, stat := if f.passed + 1 = 4 ∧ f.stat = 0 then 1 else f.stat }
  else
    let s2 := s1.setFlint { f with passed := 0, drbg := true, requests := 0, reseed := false, stat := 1, reruns := 0 }
    if f.stat = 2 then s2.record 0x6052 Src.flint 3 f.reruns else s2

/-- FLINT_WINDOW (R537, R538): the longest run of one bit value in the window, and how often its first bit occurs. -/
def execFlintWindow (rct apt : BitVec 11) (s : State) : Result :=
  let f := s.roles.flint
  if ¬ s.dieUp ∨ s.dev = .rom ∨ f.halted ∨ f.stat = 3 then ok s
  else
    let s1 := (s.setF Reg.aptMax apt.toNat).setF Reg.rctMax (max (s.f Reg.rctMax) (min 127 rct.toNat))
    let starting := !f.drbg
    if 81 ≤ rct.toNat then ok (s1.healthFail (if starting then 3 else 1) rct.toNat)
    else if 824 ≤ apt.toNat then ok (s1.healthFail (if starting then 3 else 2) apt.toNat)
    else ok s1.windowPass

/-- FLINT_RERUN (R543): 1 s after a failure. -/
def execFlintRerun (s : State) : Result :=
  let f := s.roles.flint
  if s.dieUp ∧ f.halted ∧ f.stat = 2 then
    ok (s.setFlint { f with halted := false, passed := 0, reruns := f.reruns + 1 })
  else ok s

/-- DRBG_RESEED (R539): a reseed falls due; the next conditioned window serves it. -/
def execDrbgReseed (s : State) : Result :=
  if s.dieUp ∧ s.roles.flint.drbg then ok (s.setFlint { s.roles.flint with reseed := true }) else ok s

/-- The seed of a block's scrambler (R361, R542): 4 bytes of the DRBG, or the fallback while Flint is failed. -/
def State.scramblerSeed (s : State) : State × Bytes :=
  if s.roles.flint.drbg then s.draw 4
  else
    let f := s.roles.flint
    (s.setFlint { f with seeds := f.seeds + 1 }, natLe 4 (crc32c (natLe 8 s.time.cycles ++ natLe 4 f.seeds)).toNat)

/-! ### JTAG (R62, R63, R519, R528) -/

/-- What an instruction decodes to: boundary-scan drive only while RESET_n is low, the other private instructions only
for the maker role. QKCHAL and QKRESP are the lock itself (DEDUCED from R63 and R528). -/
def State.tapDecode (s : State) (i : JtagInstr) : JtagInstr :=
  match i with
  | .extest => if s.bas.resetLow then i else .bypass
  | .clamp => if s.bas.resetLow then i else .bypass
  | .highz => if s.bas.resetLow then i else .bypass
  | .qkdebug => if s.roles.jtag then i else .bypass
  | _ => i

/-- JTAG_INSTRUCTION (R62, R63). -/
def execJtagInstruction (i : JtagInstr) (s : State) : Result := ok { s with jtag := s.tapDecode i }

/-- TAP_RESET (R519): the TAP returns to BYPASS and the maker role held on JTAG ends. -/
def execTapReset (s : State) : Result := ok { s.endPath 2 with jtag := .bypass }

/-- The device can serve the JTAG exchange: the logic die runs and QKCHAL or QKRESP is selected. -/
def State.tapServes (s : State) (i : JtagInstr) : Bool := s.dieUp && !s.bas.freeze && s.jtag == i

/-- QKCHAL_READ (R524, R528, R529): a maker challenge on the JTAG path; while a hold runs the register reads zeros
(DEDUCED: no challenge is issued). -/
def execQkchalRead (s : State) : Result :=
  if ¬ s.tapServes .qkchal then ok s
  else match s.holdLeft 2 with
  | some _ => ok (s.emit (.jtag 0))
  | none =>
    let r := s.issueChal 2 2
    ok (r.1.emit (.jtag (leNat r.2)))

/-- QKRESP_WRITE (R526 to R528): the 48 bytes shifted in. -/
def execQkrespWrite (data : BitVec 384) (s : State) : Result :=
  if s.tapServes .qkresp then ok (s.respond 2 (natLe 48 data.toNat)).1 else ok s

end Sys2Proof.Machine
end

