-- ==== Sys2Proof/Machine/Tables.lean ====
section
/-! DEFINITION. Instance tables and their syncs (00_scope.md, R16 to R21), with the checks of connection entries (R443,
R444), LUN entries (R355, R356) and transfer-channel entries (R404, R405). -/

namespace Sys2Proof.Machine

/-! ### Connection entries (R443 to R445) -/

def connValid (b : Bytes) : Bool := bit (leAt b 0 1) 0
def connSealed (b : Bytes) : Bool := bit (leAt b 0 1) 1
def connAllows (b : Bytes) (p : Nat) : Bool := bit (leAt b 0 1) (2 + p)
def connPref (b : Bytes) : Nat := b2n (bit (leAt b 0 1) 4)
def connPart (b : Bytes) : Nat := leAt b 1 1
def connDcid (b : Bytes) : Nat := leAt b 2 2
def connMac (b : Bytes) (p : Nat) : Bytes := slice b (4 + 6 * p) 6
def connTag (b : Bytes) (p : Nat) : Nat := leAt b (16 + 2 * p) 2
def connRto (b : Bytes) : Nat := leAt b 20 2
def connKeep (b : Bytes) : Nat := leAt b 22 2
def connRetry (b : Bytes) : Nat := leAt b 24 1
def connKeySlot (b : Bytes) : Nat := leAt b 25 1
def connTrigRate (b : Bytes) : Nat := leAt b 26 2
def connTrigBurst (b : Bytes) : Nat := leAt b 28 1

/-- Bytes 0 to 19 and byte 25 are the binding fields (R445). -/
def connBinding (b : Bytes) : Bytes := slice b 0 20 ++ slice b 25 1

/-! ### Partitions (R450) -/

/-- A partition definition in force. -/
def State.part (s : State) (slot : Nat) : Bytes := s.tab.parts.get [] slot
/-- The stored definition (configuration item 7). -/
def State.partStored (s : State) (slot : Nat) : Bytes := s.nv.config.get [] (7 * 65536 + slot)
def partId (b : Bytes) : Nat := bits (leAt b 0 2) 11 0
def partOn (b : Bytes) : Bool := bit (leAt b 0 2) 15
def partSeal (b : Bytes) : Bool := bit (leAt b 2 1) 0
def partQuota (b : Bytes) : Nat := leAt b 4 2
def partFirstTag (b : Bytes) : Nat := leAt b 6 1
def partLastTag (b : Bytes) : Nat := leAt b 7 1
def partThresh (b : Bytes) : Nat := leAt b 8 2
def partDur (b : Bytes) : Nat := leAt b 10 2
def winKind (b : Bytes) (w : Nat) : Nat := leAt b (16 + 12 * w) 1
def winVol (b : Bytes) (w : Nat) : Nat := leAt b (17 + 12 * w) 1
def winMax (b : Bytes) (w : Nat) : Nat := leAt b (18 + 12 * w) 4

/-- A MAC address is unicast. -/
def unicast (m : Bytes) : Bool := !((m[0]?).getD 0).getLsbD 0 && m.any (fun x => x ≠ 0)

/-- Fields of a connection entry in range (R443). An entry that is not VALID is checked for its must-be-0 fields only
(DEDUCED: the closing entry of R445 names no partner). -/
def connRangeOk (b : Bytes) : Bool :=
  bits (leAt b 0 1) 7 5 = 0 && (slice b 29 99).all (fun x => x = 0) &&
  (!connValid b ||
    (connPart b ≤ 15 && connDcid b ≤ 0xFFFF && 20 ≤ connRto b && connRto b ≤ 50000 && 1 ≤ connKeep b && connKeep b ≤ 1000 &&
     1 ≤ connRetry b && connRetry b ≤ 7 && connKeySlot b ≤ 31 && 1 ≤ connTrigBurst b &&
     (List.range 2).all fun p => !connAllows b p ||
       (1 ≤ bits (connTag b p) 11 0 && bits (connTag b p) 11 0 ≤ 4094 && bits (connTag b p) 15 15 = 0)))

/-- The checks of R444 on an entry of the connection table. -/
def State.connEntryOk (s : State) (b : Bytes) : Bool :=
  connRangeOk b &&
  (!connValid b ||
    (connAllows b (connPref b) && ((List.range 2).all fun p => !connAllows b p || unicast (connMac b p)) &&
     partOn (s.partStored (connPart b)) && (connSealed b || !partSeal (s.partStored (connPart b))) &&
     (!connSealed b || (s.nv.keys.conn.get? (connKeySlot b)).isSome)))

/-! ### LUN entries (R350, R355, R356) -/

/-- Channel, chip enable and LUN within the chip enable of LUN `n`; its position on its channel (R350). -/
def lunChannel (n : Nat) : Nat := n / 16
def lunCe (n : Nat) : Nat := n / 4 % 4
def lunSub (n : Nat) : Nat := n % 4
def lunPosition (n : Nat) : Nat := n % 16
/-- The LUN at a position of a channel. -/
def lunAt (ch pos : Nat) : Nat := 16 * ch + pos

def lunPresent (b : Bytes) : Bool := bit (leAt b 0 1) 0
def lunParity (b : Bytes) : Bool := bit (leAt b 0 1) 1
def lunSusProg (b : Bytes) : Bool := bit (leAt b 0 1) 2
def lunSusErase (b : Bytes) : Bool := bit (leAt b 0 1) 3
def lunCell (b : Bytes) : Nat := bits (leAt b 1 1) 1 0
def lunFormat (b : Bytes) : Nat := bits (leAt b 1 1) 3 2
def lunIface (b : Bytes) : Nat := bits (leAt b 3 1) 1 0
def lunMain (b : Bytes) : Nat := leAt b 4 2
def lunSpare (b : Bytes) : Nat := leAt b 6 2
def lunPages (b : Bytes) : Nat := leAt b 8 2
def lunPagesP (b : Bytes) : Nat := leAt b 10 2
def lunBlocks (b : Bytes) : Nat := leAt b 12 4
def lunRate (b : Bytes) : Nat := leAt b 18 2
def lunSusUs (b : Bytes) : Nat := leAt b 30 2
def lunRated (b : Bytes) (pslc : Bool) : Nat := leAt b (if pslc then 36 else 32) 4
def lunDisturb (b : Bytes) (pslc : Bool) : Nat := 1000 * leAt b (if pslc then 42 else 40) 2

/-- P of a parity format (R358). -/
def parityBytes : Nat → Nat
  | 0 => 208 | 1 => 368 | 2 => 496 | _ => 1008

/-- Codewords a page holds (R358). -/
def lunCodewords (b : Bytes) : Nat := lunMain b / 4096

/-- The LUN's highest interface suits the sampled VCCQ (R351, R356). -/
def lunRateOk (v18 : Bool) (b : Bytes) : Bool :=
  match lunIface b with
  | 0 => bits (leAt b 3 1) 7 4 ≤ 5
  | 1 => v18 && bits (leAt b 3 1) 7 4 ≤ 10
  | 2 => lunRate b ≤ (if v18 then 800 else 1200)
  | _ => false

/-- Fields of a LUN entry in range (R355). -/
def lunRangeOk (b : Bytes) : Bool :=
  bits (leAt b 0 1) 7 4 = 0 && lunCell b ≤ 2 && bits (leAt b 1 1) 7 4 = 0 && 4096 ≤ lunMain b && lunMain b ≤ 18432 &&
  lunMain b % 1024 = 0 && 64 ≤ lunPages b && lunPages b ≤ 4096 && 128 ≤ lunBlocks b && lunBlocks b ≤ 65535 &&
  leAt b 16 1 ≤ 15 && 1 ≤ leAt b 17 1 && leAt b 17 1 ≤ 16 && 10 ≤ lunRate b && lunRate b ≤ 1200 && 1 ≤ lunSusUs b &&
  lunSusUs b ≤ 1000 && (slice b 48 16).all (fun x => x = 0)

/-- Some block of the map or record lies on LUN `n`. -/
def State.lunMapped (s : State) (n : Nat) : Bool :=
  s.nv.vols.any fun v =>
    (v.2.map.any fun m => m.2.loc ≠ 0 && m.2.loc / 2 ^ 32 == n) || (v.2.recs.any fun r => r.loc ≠ 0 && r.loc / 2 ^ 32 == n)

/-- LUN `n` holds a boot area: LUN 0 of chip enable 0 on channel 0 or 1 (R373). -/
def bootLun (n : Nat) : Bool := n = lunAt 0 0 || n = lunAt 1 0

/-- The fields R356 fixes while a LUN is in use. -/
def lunFixed (b : Bytes) : Bytes := slice b 1 1 ++ slice b 4 12 ++ [BitVec.ofNat 8 (b2n (lunParity b))]

/-- The checks of R356 on entry `n` of the LUN table. -/
def State.lunEntryOk (s : State) (n : Nat) (b : Bytes) : Bool :=
  let old := s.tab.lun.get [] n
  leAt b 2 1 = lunChannel n + 8 * lunCe n + 32 * lunSub n && lunRangeOk b && lunRateOk s.bas.vccq18 b &&
  lunCodewords b * (4112 + parityBytes (lunFormat b)) ≤ lunMain b + lunSpare b &&
  (!(s.lunMapped n || bootLun n) || !lunPresent old || lunFixed b == lunFixed old)

/-! ### Transfer-channel entries (R404, R405) -/

/-- The entry a 64-byte table entry spells. -/
def ChanCtx.ofBytes (b : Bytes) : ChanCtx :=
  { descTo := leAt b 0 2, maxRead := leAt b 2 1, outstanding := leAt b 3 1, weight := leAt b 4 1, halt := bit (leAt b 5 1) 0 }

def chanEntryOk (b : Bytes) : Bool :=
  let c := ChanCtx.ofBytes b
  50 ≤ c.descTo && c.descTo ≤ 50000 && c.maxRead ≤ 5 && 1 ≤ c.outstanding && c.outstanding ≤ 32 && 1 ≤ c.weight &&
  c.weight ≤ 16 && bits (leAt b 5 1) 7 1 = 0 && (slice b 6 58).all (fun x => x = 0)

/-! ### Syncs (R17 to R21) -/

/-- Entries of a table (R16); 0 for an identifier that names none. -/
def tableCount : Nat → Nat
  | 0 => 8 | 1 => 8 | 2 => 256 | 3 => 128 | _ => 0
/-- Bytes of an entry. -/
def tableEntry : Nat → Nat
  | 2 => 128 | _ => 64

/-- The host address of an entry of tables 0 and 1. -/
def State.entryAddr (s : State) (t i : Nat) : Nat :=
  if t = 0 then 512 * s.f Reg.hqBaseLo + 2 ^ 32 * s.f Reg.hqBaseHi + 64 * i
  else 512 * s.f Reg.xfrBaseLo + 2 ^ 32 * s.f Reg.xfrBaseHi + 64 * i

/-- Issue the host read of a sync that waits for one (R21). -/
def State.issueSync (s : State) : State :=
  match s.tab.sync with
  | some y =>
    if y.issued ∨ 2 ≤ y.table ∨ tableCount y.table ≤ y.index ∨ ¬ s.mayPost then s
    else ({ s with tab.sync := some { y with issued := true } }).emit (.hostRead (s.entryAddr y.table y.index) 64)
  | none => s

/-- A write to `GLB_TABLE_SYNC` (R17, R18). -/
def State.startSync (s : State) (t i : Nat) : State :=
  if s.tab.sync.isSome then (s.record 0x1042 Src.keystone t i).bump 0x0F
  else
    let s1 := ((s.setF Reg.syncTable t).setF Reg.syncIndex i).setF Reg.syncBusy 1
    ({ s1 with tab.sync := some { table := t, index := i, issued := false } }).issueSync

/-- TABLE_SYNC (R17; roles of R583): tables 0 and 1 need no role, the others the installer role. -/
def execTableSync (p : Path) (table : BitVec 3) (index : BitVec 8) (s : State) : Result :=
  s.asWrite fun t => if table.toNat < 2 ∨ t.installer p then t.startSync table.toNat index.toNat else t.ignoredWrite

/-- A rejected sync: REJECT, event 0x1041, BUSY clear (R18, R21). -/
def State.rejectSync (s : State) (y : Sync) : State :=
  (((({ s with tab.sync := none }).setF Reg.syncReject 1).setF Reg.syncBusy 0)).record 0x1041 Src.keystone y.table y.index |>.bump 0x0F

/-- A connection entry waits for its boundary (R445), with the partition it uses (R280). -/
def State.takeConnEntry (s : State) (i : Nat) (b : Bytes) : State :=
  let slot := connPart b
  { s with tab := { s.tab with
      connNext := s.tab.connNext.put i b
      parts := if connValid b then s.tab.parts.set [] slot (s.partStored slot) else s.tab.parts } }

/-- A LUN entry takes effect at once when its LUN has no operation in progress and none suspended (R356). -/
def State.lunIdle (s : State) (n : Nat) : Bool :=
  let c := s.fchan (lunChannel n)
  !(c.susp.any fun o => o.lun == n) && !(c.cur.any fun o => o.lun == n)

/-- A LUN that re-enters service is empty (R580). -/
def State.readmitLun (s : State) (n : Nat) (old new : Bytes) : State :=
  if lunPresent new ∧ (s.lun n).failed ≠ 0 ∧ ¬ s.lunMapped n ∧ s.fl.rebuild ≠ some n ∧ old ≠ [] then
    let l := s.lun n
    let bl := l.blocks.map fun e => (e.1, if e.2.state = .retired then e.2 else { e.2 with state := .incomplete, reads := 0 })
    let s1 := s.setLun n { l with failed := 0, blocks := bl }
    ({ s1 with nv.failed.luns := s1.nv.failed.luns - 1 }).regrade
  else s

/-- Apply the LUN entries whose boundary is here (R356). -/
def State.lunBoundary (s : State) (n : Nat) : State :=
  match s.tab.lunNext.get? n with
  | some b =>
    if s.lunIdle n then
      ({ s with tab := { s.tab with lun := s.tab.lun.set [] n b, lunNext := s.tab.lunNext.erase n } }).readmitLun n
        (s.tab.lun.get [] n) b
    else s
  | none => s

/-- Accept an entry for its boundary. -/
def State.acceptEntry (s : State) (y : Sync) (b : Bytes) : State :=
  match y.table with
  | 0 => s.takeRingEntry y.index b
  | 1 => s.setChan y.index { s.chan y.index with ctx := ChanCtx.ofBytes b, next := none }
  | 2 => s.takeConnEntry y.index b
  | _ => ({ s with tab.lunNext := s.tab.lunNext.put y.index b }).lunBoundary y.index

/-- The checks of the entity's chapter (R18). -/
def State.entryOk (s : State) (y : Sync) (b : Bytes) : Bool :=
  match y.table with
  | 0 => s.ringSyncOk y.index b
  | 1 => chanEntryOk b
  | 2 => s.connEntryOk b
  | _ => s.lunEntryOk y.index b

/-- The entry a sync copies: read from the host, or the stored one. -/
def State.syncData (s : State) (y : Sync) : Option Bytes :=
  match y.table with
  | 2 => some (padTo 128 (s.tab.connStored.get [] y.index))
  | 3 => some (padTo 64 (s.tab.lunStored.get [] y.index))
  | _ => y.data

/-- A read of a host-memory entry ends (R21). -/
def State.syncRead (s : State) (e : ReadEnd) : State :=
  match s.tab.sync with
  | some y =>
    if ¬ y.issued ∨ y.data.isSome then s.unexpectedCpl
    else match e with
      | .data b => { s with tab.sync := some { y with data := some (padTo 64 b) } }
      | .timedOut => (s.setF Reg.errCplTo 1).rejectSync y
      | .poisoned => (s.setF Reg.errPoison 1).rejectSync y
      | .unsupported => s.rejectSync y
  | none => s.unexpectedCpl

/-- SYNC_HOLD_TIMEOUT (R21): the read has been held by Bus Master Enable 0 for 10 ms. -/
def execSyncHoldTimeout (s : State) : Result :=
  match s.tab.sync with
  | some y => if y.table < 2 ∧ ¬ y.issued then ok (s.rejectSync y) else ok s
  | none => ok s

/-- A reset of the host-facing units ends a sync of a host-memory entry: its read is discarded (DEDUCED from R21, R192). -/
def State.dropSync (s : State) : State :=
  match s.tab.sync with
  | some y => if y.table < 2 then s.rejectSync y else s
  | none => s

/-! ### Entries as the engines see them (R152) -/

/-- The 64 bytes of a ring context entry (R197). -/
def RingCtx.bytes (c : RingCtx) : Bytes :=
  padTo 64 (natLe 8 c.sqBase ++ natLe 8 c.cqBase ++ natLe 8 c.idxBase ++ natLe 2 c.sqDepth ++ natLe 2 c.cqDepth ++
    natLe 1 (b2n c.modeV + 2 * b2n c.dbBare + 4 * b2n c.push + 8 * b2n c.idxwr) ++ natLe 1 c.cls ++ natLe 1 c.vector ++
    natLe 1 c.prefetch ++ natLe 2 c.modCount ++ natLe 2 c.modTime ++ natLe 2 c.chainTo)

/-- The 64 bytes of a transfer-channel entry (R404). -/
def ChanCtx.bytes (c : ChanCtx) : Bytes :=
  padTo 64 (natLe 2 c.descTo ++ natLe 1 c.maxRead ++ natLe 1 c.outstanding ++ natLe 1 c.weight ++ natLe 1 (b2n c.halt))

/-- The cached copy of an entry; a ring that has had no sync reads zeros. -/
def State.cachedEntry (s : State) (t i : Nat) : Bytes :=
  match t with
  | 0 => ((s.ring i).synced.map RingCtx.bytes).getD []
  | 1 => (s.chan i).ctx.bytes
  | 2 => s.tab.conn.get [] i
  | _ => s.tab.lun.get [] i

/-- Write word `w` of the stored copy of an entry of tables 2 and 3. -/
def State.storeWord (s : State) (t i w v : Nat) : State :=
  if t = 2 then { s with tab.connStored := s.tab.connStored.set [] i (overlay (s.tab.connStored.get [] i) (4 * w) (natLe 4 v)) }
  else { s with tab.lunStored := s.tab.lunStored.set [] i (overlay (s.tab.lunStored.get [] i) (4 * w) (natLe 4 v)) }

end Sys2Proof.Machine
end

