-- ==== Sys2Proof/Machine/Xfer.lean ====
section
/-! DEFINITION. The transfer engine's descriptors, halted channels and held requests
(17_transfer_engine_and_buffers.md, R406 to R414, R420). -/

namespace Sys2Proof.Machine

/-- A command under way that has a descriptor at an offset of its transfer. -/
def State.movingCmd (s : State) (n tag off : Nat) : Option (Cmd × Desc) :=
  match s.cmd? n tag with
  | some c =>
    if c.stage = .moving then (c.descs.find? fun d => d.off == off).map fun d => (c, d) else none
  | none => none

/-- A descriptor ends in fault: the command completes with DMA_FAULT (R411, R413). -/
def State.descFault (s : State) (c : Cmd) (d : Desc) (code : Nat) : State := (s.dmaFault c d code).afterAppend c

/-- Bytes of `data` that a descriptor writes, run by run around the holes of its transfer (R235). A hole covers whole
512-byte sectors. -/
def State.writeDesc (s : State) (c : Cmd) (d : Desc) : State :=
  let data := c.got.get [] 0
  if c.holes.isEmpty then s.emit (.hostWrite d.addr (slice data d.off d.len))
  else
    let first := d.off / 512
    let last := (d.off + d.len - 1) / 512
    (List.range (last + 1 - first)).foldl (fun t i =>
      let lo := max d.off (512 * (first + i))
      let hi := min (d.off + d.len) (512 * (first + i + 1))
      if c.holes.any fun h => h.1 ≤ lo && lo < h.1 + h.2 then t
      else t.emit (.hostWrite (d.addr + (lo - d.off)) (slice data lo (hi - lo)))) s

/-- Data of a descriptor arrives (R407): pieces of one descriptor arrive in address order (DESIGN CHOICE). -/
def State.descData (s : State) (c : Cmd) (d : Desc) (b : Bytes) : State :=
  s.setCmd { c with got := c.got.put d.off (c.got.get [] d.off ++ b) }

/-- A descriptor ends without fault (R407); the last one completes the transfer. -/
def State.descEnd (s : State) (c : Cmd) (d : Desc) : State :=
  let c1 := { c with descs := c.descs.filter fun x => x.off ≠ d.off }
  let s1 := if d.toHost then s.writeDesc c d else s
  let s2 := s1.setCmd c1
  if ¬ c1.descs.isEmpty then s2
  else if d.toHost then s2.complete c1 c1.endStatus c1.endResult
  else s2.applyIn c1 (c1.got.flatMap fun p => p.2)

/-- DESCRIPTOR_END (R407): a descriptor's last data has arrived, or is written to the host. -/
def execDescriptorEnd (n : Fin 8) (tag : BitVec 5) (off : BitVec 22) (s : State) : Result :=
  match s.movingCmd n.val tag.toNat off.toNat with
  | some (c, d) =>
    if s.bas.freeze ∨ (d.toHost ∧ ¬ s.mayPost) ∨ (¬ d.toHost ∧ (c.got.get [] d.off).length < d.len) then ok s
    else ok (s.descEnd c d)
  | none => ok s

/-- DESCRIPTOR_TIMEOUT (R412, R413). -/
def execDescriptorTimeout (n : Fin 8) (tag : BitVec 5) (off : BitVec 22) (s : State) : Result :=
  match s.movingCmd n.val tag.toNat off.toNat with
  | some (c, d) => if s.bas.freeze then ok s else ok (s.descFault c d 4)
  | none => ok s

/-- A read of host memory for a descriptor ends (R411, R412): data of a descriptor that has ended is late. -/
def State.transferRead (s : State) (n tag off : Nat) (e : ReadEnd) : State :=
  match s.movingCmd n tag off with
  | some (c, d) =>
    if d.toHost then s.unexpectedCpl
    else match e with
      | .data b => s.descData c d b
      | .timedOut => (s.setF Reg.errCplTo 1).descFault c d 1
      | .poisoned => (s.setF Reg.errPoison 1).descFault c d 2
      | .unsupported => s.descFault c d 3
  | none => s.unexpectedCpl

/-- CHANNEL_RESUME (R414): a write of 1 to `XFR_CH_CTRL_n.RESUME`. -/
def State.resumeChannel (s : State) (n : Nat) : State := s.setChan n { s.chan n with halted := false }

def execChannelResume (n : Fin 8) (s : State) : Result :=
  if s.pcie.perstHeld then ok s else s.asWrite fun t => t.resumeChannel n.val

/-- The hint of a DEFERRED or an RNR for `k` units of class `cls` (R575). -/
def State.unitsHint (s : State) (cls k : Nat) : Nat := hintOf (k + headroom cls - s.genFree) (s.releasedIn false 0)

/-- ALLOC_HOLD_EXPIRY (R420): a class-7 request that has waited HOLD_MS leaves its queue. -/
def execAllocHoldExpiry (n : Fin 8) (tag : BitVec 5) (s : State) : Result :=
  match s.alloc.queue.find? fun q => q.1 == n.val && q.2.1 == tag.toNat && q.2.2.1 == 7 with
  | some q =>
    match s.cmd? n.val tag.toNat with
    | some c =>
      if s.bas.freeze then ok s
      else ok (((s.countF Reg.raceDeferred 1).complete c 0x0100 (natLe 4 (s.unitsHint 7 q.2.2.2))).afterAppend c)
    | none => ok s
  | none => ok s

end Sys2Proof.Machine
end

