-- ==== Sys2Proof/Machine/Pcie.lean ====
section
/-! DEFINITION. The PCIe host link: resets of the host-facing units, bus mastering, power states, MSI-X masks, errors,
read completions and link training (09_pci_express_host_link.md; R223). -/

namespace Sys2Proof.Machine

/-! ### AER status (R190): one bit per row of the rule's table -/

def aerPlace : PcieError → Nat
  | .correctable => 0 | .poisonedWrite => 1 | .poisonedCompletion => 2 | .completionTimeout => 3 | .unexpected => 4
  | .unsupported => 5 | .fatal => 6

def State.noteAer (s : State) (e : PcieError) : State := { s with pcie.aer := withBit s.pcie.aer (aerPlace e) true }

/-- PCIE_ERROR_RECEIVED (R190). -/
def execPcieErrorReceived (e : PcieError) (s : State) : Result :=
  if ¬ s.dieUp ∨ s.pcie.perstHeld then ok s
  else
    let s1 := s.noteAer e
    match e with
    | .correctable => ok (s1.bump 0x19)
    | .poisonedWrite => ok (s1.setF Reg.errPoison 1)
    | .poisonedCompletion => ok (s1.setF Reg.errPoison 1)
    | .completionTimeout => ok (s1.setF Reg.errCplTo 1)
    | .unexpected => ok (s1.setF Reg.errUnexp 1)
    | .unsupported => ok s1
    | .fatal => ok (((s1.setF Reg.errFatal 1).record 0x2010 Src.pcie).bump 0x18)

/-! ### Resets of the host-facing units (R192, R193, R223) -/

/-- APPENDs whose payload is staged and charged are accepted in their order, with no completion (R193). -/
def State.acceptSilently (s : State) (cs : List Cmd) : State :=
  cs.foldl (fun t c => if c.opcode = 4 ∧ c.stage = .running then (t.acceptInto c (c.got.get [] 0)).1 else t) s

/-- Units of transfers that had not ended come back (R193). -/
def State.dropTransfers (s : State) (cs : List Cmd) : State :=
  cs.foldl (fun t c => if c.stage = .moving ∧ c.units ≠ 0 then t.giveBack c.units 0 c.fromReserve else t) s

/-- The ring unit, the transfer engine's host side and the mailbox in reset. -/
def State.resetHostSide (s : State) : State :=
  let cs := s.rings.flatMap fun r => r.2.cmds
  let s1 := ((s.dropTransfers cs).acceptSilently cs).dropSync
  let s2 := { s1 with
    rings := [], chans := [], alloc.queue := [], pcie.ltr := 1000
    selfTest := s1.selfTest.map fun (t : SelfTest) => { t with ring := 8, stop := none } }
  (((s2.resetRegs 0x1000 0x1080).resetRegs 0x4000 0x4020)).resetMailbox

/-- The PCIe function's own state: configuration space at its defaults; `keepAer`: the sticky bits stay. -/
def State.resetFunction (s : State) (keepAer : Bool) : State :=
  { s with pcie := { s.pcie with
      bme := false, aer := if keepAer then s.pcie.aer else 0, msixEn := false, fnMask := false, d3 := false
      msix := (List.range 16).map fun v => (16 * v + 12, 1)
      pba := 0, l1Asked := false } }

/-- The link is down. -/
def State.linkDown (s : State) : State :=
  ((({ s with pcie.up := false }).resetRegs 0x400 0x404))

/-- A reset of the PCIe link or function: its event, its count, and the role that ends (R192, R519). -/
def State.pcieReset (s : State) (code : Nat) (count : Field) (keepAer : Bool) : State :=
  let s1 := ((s.record code Src.pcie).countF count 1).bump 0x20
  ((s1.resetHostSide).resetFunction keepAer).endPath 0

/-- PERST_ASSERT (R192): host-facing units reset and held. -/
def execPerstAssert (s : State) : Result :=
  if s.pcie.perstHeld then ok s
  else if ¬ s.dieUp then ok { s with pcie.perstHeld := true }
  else
    let s1 := (s.pcieReset 0x2005 Reg.resetsPerst false).linkDown
    ok { s1 with pcie := { s1.pcie with perstHeld := true, detect := false, crs := true } }

/-- PERST_DEASSERT (R181): the LTSSM enters Detect; configuration requests are answered under R122. -/
def execPerstDeassert (s : State) : Result :=
  ok { s with pcie := { s.pcie with perstHeld := false, detect := s.dieUp, crs := s.dev = .rom || s.dev = .starting || !s.dieUp } }

/-- HOT_RESET (R192): a hot reset, or the link going down. -/
def execHotReset (s : State) : Result :=
  if ¬ s.dieUp ∨ s.pcie.perstHeld then ok s
  else ok (s.pcieReset 0x2004 Reg.resetsHot true).linkDown

/-- FUNCTION_LEVEL_RESET (R192, R194). -/
def execFunctionLevelReset (s : State) : Result :=
  if ¬ s.dieUp ∨ s.pcie.perstHeld then ok s else ok (s.pcieReset 0x2003 Reg.resetsFlr true)

/-! ### Bus mastering, power states, MSI-X (R185, R186, R189, R192) -/

/-- Send the pending messages that may be sent now. -/
def State.sendPending (s : State) : State :=
  if ¬ s.mayMsix ∨ s.pcie.fnMask then s
  else (List.range 16).foldl (fun t v =>
    if bit t.pcie.pba v ∧ ¬ t.vecMasked v then ({ t with pcie.pba := withBit t.pcie.pba v false }).emit (.msix v) else t) s

/-- Held fetches, posts and completions go on, in order (R189, R223); a held sync read is issued (R21). -/
def State.resumeHost (s : State) : State :=
  ((List.range 8).foldl (fun t n => (t.pumpRing n).fetchAll n) s).issueSync.sendPending

/-- BUS_MASTER_ENABLE_CLEAR (R192). -/
def execBusMasterEnableClear (s : State) : Result :=
  if s.pcie.perstHeld then ok s else ok { s with pcie.bme := false }

/-- BUS_MASTER_ENABLE_SET (R223). -/
def execBusMasterEnableSet (s : State) : Result :=
  if ¬ s.dieUp ∨ s.pcie.perstHeld then ok s else ok ({ s with pcie.bme := true }).resumeHost

/-- D3HOT_ENTRY (R189). -/
def execD3hotEntry (s : State) : Result :=
  if ¬ s.dieUp ∨ s.pcie.perstHeld then ok s else ok { s with pcie.d3 := true }

/-- D0_RETURN (R189, R192): the function keeps its state, and the rings resume. -/
def execD0Return (s : State) : Result :=
  if ¬ s.dieUp ∨ s.pcie.perstHeld then ok s else ok ({ s with pcie.d3 := false }).resumeHost

/-- Clear a vector's mask bit in the MSI-X table. -/
def State.unmaskVector (s : State) (v : Nat) : State :=
  ({ s with pcie.msix := s.pcie.msix.setByte (16 * v + 12) (s.pcie.msix.byte (16 * v + 12) &&& 0xFE) }).sendPending

/-- MSIX_UNMASK (R185): a vector's mask, or (none) MSI-X Enable set with the function-wide mask clear. -/
def execMsixUnmask (v : Option (Fin 16)) (s : State) : Result :=
  if ¬ s.dieUp ∨ s.pcie.perstHeld then ok s
  else match v with
  | some i => ok (s.unmaskVector i.val)
  | none => ok ({ s with pcie := { s.pcie with msixEn := true, fnMask := false } }).sendPending

/-! ### Reads of host memory (R191, R208, R411, R21) -/

/-- The AER bit of how a read ended. -/
def State.noteEnd (s : State) (e : ReadEnd) : State :=
  match e with
  | .poisoned => s.noteAer .poisonedCompletion
  | .timedOut => s.noteAer .completionTimeout
  | _ => s

/-- A read ends, for whichever unit asked for it. -/
def State.readEnd (s : State) (k : ReadFor) (n tag off : Nat) (e : ReadEnd) : State :=
  let s1 := s.noteEnd e
  match k with
  | .fetch => s1.fetchEnd n e
  | .index => s1.indexEnd n e
  | .table => s1.syncRead e
  | .transfer => s1.transferRead n tag off e

/-- HOST_READ_COMPLETION (R191): the completion for a read arrives; tag and offset name a transfer's descriptor. -/
def execHostReadCompletion (k : ReadFor) (n : Fin 8) (tag : BitVec 5) (off : BitVec 22) (e : ReadEnd) (s : State) : Result :=
  if ¬ s.dieUp ∨ s.pcie.perstHeld ∨ s.bas.freeze then ok s else ok (s.readEnd k n.val tag.toNat off.toNat e)

/-- COMPLETION_TIMEOUT (R191): the timeout wins. -/
def execCompletionTimeout (k : ReadFor) (n : Fin 8) (tag : BitVec 5) (off : BitVec 22) (s : State) : Result :=
  if ¬ s.dieUp ∨ s.pcie.perstHeld ∨ s.bas.freeze then ok s
  else ok (s.readEnd k n.val tag.toNat off.toNat .timedOut)

/-! ### Link training and link power (R178, R179, R187) -/

/-- LINK_RETRAIN (R178): a write of 1 to `HLK_CTRL.RETRAIN`; the link goes through Recovery. -/
def execLinkRetrain (s : State) : Result :=
  s.asWrite fun t => if t.pcie.up then t.setF Reg.linkPm 4 else t

/-- MAX_SPEED takes its staged value at a training. -/
def State.takeMaxSpeed (s : State) : State :=
  match s.staged.get? Reg.maxSpeed.key with
  | some v => ({ s with staged := s.staged.erase Reg.maxSpeed.key }).setF Reg.maxSpeed v
  | none => s

/-- PCIE_LINK_UP (R178, R179): training ends at a rate code 1 to 4 and 1, 2 or 4 lanes. -/
def execPcieLinkUp (speed width : BitVec 3) (reversed : Bool) (polarity : BitVec 4) (s : State) : Result :=
  let w := width.toNat
  if ¬ s.dieUp ∨ s.pcie.perstHeld ∨ speed = 0 ∨ (w ≠ 1 ∧ w ≠ 2 ∧ w ≠ 4) then ok s
  else
    let s1 := s.takeMaxSpeed
    let v := min speed.toNat (s1.f Reg.maxSpeed)
    let s2 := (((((({ s1 with pcie := { s1.pcie with up := true, detect := true } }).setF Reg.linkSpeed v).setF
      Reg.linkWidth w).setF Reg.linkUp 1).setF Reg.linkReversed (b2n (reversed && w = 4))).setF Reg.linkPolarity
      polarity.toNat).setF Reg.linkPm 0
    ok (if v < s2.f Reg.maxSpeed ∨ w < 4 then (s2.countF Reg.resetsDegrade 1).record 0x2011 Src.pcie v w else s2)

/-- A read of host memory is outstanding. -/
def State.readsOut (s : State) : Bool :=
  s.rings.any (fun r => r.2.fetching.isSome || r.2.indexing || r.2.cmds.any fun c => c.stage = .moving && c.descs.any fun d => !d.toHost)
  || (match s.tab.sync with
      | some y => y.issued && y.data.isNone
      | none => false)

/-- ASPM_L1_REQUEST (R187). -/
def execAspmL1Request (s : State) : Result :=
  if s.dieUp ∧ s.pcie.up ∧ ¬ s.cycleRing ∧ ¬ s.readsOut then ok { s with pcie.l1Asked := true } else ok s

end Sys2Proof.Machine
end

