-- ==== Sys2Proof/Machine/Quarry.lean ====
section
/-! DEFINITION. Flash blocks, moves, wear, retention, failed units and rebuild (14_quarry_and_tumbler.md; R339 to R349,
R366 to R369, R578 to R580). Quarry and Tumbler move whole blocks: an operation of a move names a block, at its page 0
(DESIGN CHOICE). -/

namespace Sys2Proof.Machine

/-! ### LUNs and blocks -/

def State.lunEntry (s : State) (n : Nat) : Bytes := s.tab.lun.get [] n
def State.lunRun (s : State) (n : Nat) : LunRun := s.fl.luns.get {} n
def State.setLunRun (s : State) (n : Nat) (r : LunRun) : State := { s with fl.luns := s.fl.luns.set {} n r }

/-- LUN `n` is present and in service; on a channel that is too (R350). -/
def State.lunHealthy (s : State) (n : Nat) : Bool :=
  lunPresent (s.lunEntry n) && (s.lun n).failed = 0 && !bit s.nv.failed.channels (lunChannel n)
def State.healthyLuns (s : State) : List Nat := (List.range 128).filter s.lunHealthy

/-- Blocks that the boot area (R373) and the recorder area (blocks 64 to 95 of each boot LUN) take from LUN `n`. -/
def bootBlocks (n : Nat) : Nat := if bootLun n then 96 else 0
/-- Blocks of LUN `n` outside those areas and the drain area (R320). -/
def State.usableBlocks (s : State) (n : Nat) : Nat := lunBlocks (s.lunEntry n) - bootBlocks n - 1
/-- Free blocks (R320). -/
def State.freeCount (s : State) (n : Nat) : Nat :=
  s.usableBlocks n - ((s.lun n).blocks.filter fun b => b.2.state ≠ BlockState.free).length
def State.retiredCount (s : State) (n : Nat) : Nat :=
  ((s.lun n).blocks.filter fun b => b.2.state == BlockState.retired).length

/-- The place of a block, as `Blk.loc` holds it. -/
def locOf (n b : Nat) : Nat := 1 + 2 ^ 32 * n + b

/-- Mapped 4 KiB blocks and records whose data lies in a block. -/
def State.validIn (s : State) (loc : Nat) : Nat :=
  (s.nv.vols.map fun v => (v.2.map.filter fun m => m.2.loc == loc).length + (v.2.recs.filter fun r => r.loc == loc).length).sum

/-- Change every mapped block and record by its place. -/
def State.mapData (s : State) (f : Blk → Blk) (g : SRec → SRec) : State :=
  { s with nv.vols := s.nv.vols.map fun v =>
      (v.1, { v.2 with map := v.2.map.map (fun m => (m.1, f m.2)), recs := v.2.recs.map g }) }

/-- Install a block's copies: every entry that still names the source names the copy (R326, R315). -/
def State.moveLoc (s : State) (old new : Nat) : State :=
  s.mapData (fun b => if b.loc = old then { b with loc := new } else b)
    (fun r => if r.loc = old then { r with loc := new } else r)

/-- Stripe parity is on (R342): every LUN position in use has a parity member on each of the eight channels. -/
def State.parityOn (s : State) : Bool :=
  s.tab.lun.any (fun e => lunPresent e.2) &&
  s.tab.lun.all fun e => !lunPresent e.2 || (List.range 8).all fun c => lunParity (s.lunEntry (lunAt c (lunPosition e.1)))

/-! ### The die scheduler's queues (R353, R362) -/

/-- The die scheduler lets this operation be suspended (R362). -/
def State.maySuspend (s : State) (o : FOp) : Bool :=
  (o.kind = 3 && lunSusErase (s.lunEntry o.lun)) || (o.kind = 2 && lunSusProg (s.lunEntry o.lun) && 4 ≤ o.cls)

/-- Queue an operation on its channel: E1 is raised on the Vein engine. -/
def State.queueOp (s : State) (o : FOp) : State :=
  let n := lunChannel o.lun
  let c := s.fchan n
  let o1 := { o with tag := s.fl.nextTag, suspendable := s.maySuspend o }
  let s1 := s.setFchan n { c with queue := c.queue ++ [o1] }
  ({ s1 with fl.nextTag := (s.fl.nextTag + 1) % 2 ^ 32 }).raise (2 + n) 1

/-- Staging units go back to being staged, to be placed again (R579). -/
def State.restage (s : State) (ids : List Nat) : State :=
  { s with str.units := s.str.units.map fun (u : SUnit) =>
      if u.place = UnitAt.programming ∧ ids.contains u.id then { u with place := UnitAt.staged } else u }

/-! ### Loss of a stripe (R349) -/

/-- The data of LUN `n` is lost: its blocks and records are marked, with cause 2. The class-4 scan is one step here
(DESIGN CHOICE). -/
def State.loseLun (s : State) (n : Nat) : State :=
  let on (loc : Nat) : Bool := loc ≠ 0 && loc / 2 ^ 32 == n
  let runs := s.nv.vols.flatMap fun v =>
    (v.2.map.filter fun m => on m.2.loc).map (fun m =>
      ({ vol := v.1, cause := 2, len := 1, first := m.1, cycle := s.time.cycles } : LossRun)) ++
    (v.2.recs.filter fun r => on r.loc).map fun r =>
      ({ vol := v.1, cause := 2, len := ceilDiv (extent r.payload.length) 4096, first := r.off / 4096, cycle := s.time.cycles } : LossRun)
  if runs.isEmpty then s
  else
    let s1 := runs.foldl State.lose (s.record 0x3072 Src.quarry n)
    let s2 := s1.mapData (fun b => if on b.loc then { b with lost := true, loc := 0 } else b)
      (fun r => if on r.loc then { r with lost := true, loc := 0 } else r)
    s2.record 0x0044 Src.strata

/-! ### Failed LUNs and channels (R345, R346, R368, R369, R578, R579) -/

/-- Flash blocks of LUN `n` that hold mapped data. -/
def State.mappedBlocks (s : State) (n : Nat) : List Nat :=
  (s.nv.vols.flatMap fun v =>
    (v.2.map.filterMap fun m => if m.2.loc ≠ 0 ∧ m.2.loc / 2 ^ 32 = n then some (m.2.loc % 2 ^ 32 - 1) else none) ++
    v.2.recs.filterMap fun r => if r.loc ≠ 0 ∧ r.loc / 2 ^ 32 = n then some (r.loc % 2 ^ 32 - 1) else none).eraseDups

/-- Another failed LUN of the same position still holds members of the same stripes. -/
def State.stripeBroken (s : State) (n : Nat) : Bool :=
  (List.range 8).any fun c =>
    let m := lunAt c (lunPosition n)
    m ≠ n && (s.lun m).failed ≠ 0 && s.lunMapped m

/-- Rebuild the data of LUN `n`, or lose it (R345, R349). -/
def State.rebuildOrLose (s : State) (n : Nat) : State :=
  if ¬ s.lunMapped n then s
  else if ¬ s.parityOn ∨ s.stripeBroken n then s.loseLun n
  else if s.fl.rebuild.isSome then s
  else
    let s1 := { s with
      fl.rebuild := some n, fl.done := 0, fl.total := (s.mappedBlocks n).length
      rebuilding := true }
    s1.record 0x3070 Src.quarry n

/-- Take LUN `n` out of service: its operations are dropped, unverified programs staged again (R579). The recorder
keeps one copy from then on if it was a boot LUN (R509). -/
def State.markLun (s : State) (n cause : Nat) : State :=
  let c := s.fchan (lunChannel n)
  let mine := (c.queue ++ c.susp ++ c.cur.toList).filter fun o => o.lun == n
  let c1 := { c with
    queue := c.queue.filter (fun o => o.lun ≠ n), susp := c.susp.filter (fun o => o.lun ≠ n)
    cur := c.cur.map fun o => if o.lun = n then { o with load := .none, kind := 6 } else o }
  let s1 := (s.setFchan (lunChannel n) c1).restage (mine.flatMap FOp.ids)
  let s0 := s1.setLun n { s1.lun n with failed := cause }
  let s2 := if bootLun n ∧ ¬ s0.nv.single then ({ s0 with nv.single := true }).record 0xF011 Src.recorder else s0
  (({ s2 with nv.failed.luns := s2.nv.failed.luns + b2n (cause ≠ 4) }).commit).rebuildOrLose n

/-- Take a channel out of service (R155, R161, R369). -/
def State.failChannel (s : State) (ch : Nat) : State :=
  if bit s.nv.failed.channels ch then s
  else
    let luns := (s.healthyLuns.filter fun n => lunChannel n == ch)
    let s1 := { s with nv.failed.channels := withBit s.nv.failed.channels ch true }
    let s2 := luns.foldl (fun t n => t.markLun n 4) (s1.record 0x3021 Src.dieSched ch)
    (s2.setFchan ch { s2.fchan ch with queue := [], susp := [] }).regrade

/-- Take a LUN out of service (R368); a channel all of whose LUNs have failed goes with it (R369). -/
def State.failLun (s : State) (n cause : Nat) : State :=
  if ¬ s.lunHealthy n then s
  else
    let s1 := ((s.record 0x3020 (Src.channel (lunChannel n)) n cause).markLun n cause).regrade
    if (s1.healthyLuns.filter fun m => lunChannel m == lunChannel n).isEmpty then s1.failChannel (lunChannel n) else s1

/-! ### Capacity (R341) -/

/-- 4 KiB blocks that LUN `n` offers: without the spare reserve, FLOOR, TARGET and the drain area, and without the
retirements past the spare reserve. -/
def State.lunCapacity (s : State) (n : Nat) : Nat :=
  let e := s.lunEntry n
  let blocks := lunBlocks e - bootBlocks n
  let spare := ceilDiv (3 * lunBlocks e) 100
  let held := spare + s.f Reg.qryFloor + s.f Reg.qryTarget + 1
  (blocks - held - (s.retiredCount n - spare)) * lunPages e * lunCodewords e

/-- Capacity in 4 KiB blocks; with parity on, seven eighths of it. -/
def State.capacity (s : State) : Nat :=
  let all := (s.healthyLuns.map s.lunCapacity).sum
  if s.parityOn then all * 7 / 8 else all

/-- Blocks of all volumes, boot slots counted twice. -/
def State.allocated (s : State) : Nat := (s.nv.vols.map fun v => if v.2.kind = 255 then 0 else v.2.blocks).sum

/-! ### Retirement (R339 to R341) -/

/-- Retire a block that holds no valid data: `cause` counts the cases of R339 from 1. -/
def State.retire (s : State) (n b cause : Nat) : State :=
  let x := s.block n b
  let s1 := s.setBlock n b { x with state := .retired, move := 0, retireAfter := false }
  let s2 := ((s1.record 0x3080 (Src.channel (lunChannel n)) n b cause).bump 0x14).commit
  let s3 := if 8 * lunBlocks (s2.lunEntry n) < 100 * s2.retiredCount n then s2.failLun n 1 else s2
  if ¬ s3.sparesOut ∧ s3.capacity ≤ s3.allocated then ({ s3 with sparesOut := true }).record 0x3061 Src.quarry else s3

/-! ### Moves (R325, R326, R335) -/

/-- Raise the class of the operations of a move already queued. -/
def raiseMove (n b cls : Nat) (c : FChan) : FChan :=
  { c with queue := c.queue.map fun o =>
      if o.lun = n ∧ (o.load = .move b ∨ (o.kind = 3 ∧ o.block = b)) ∧ cls < o.cls then { o with cls := cls } else o }

/-- Move a closed block at a class; one move serves every reason (R335). -/
def State.moveBlock (s : State) (n b cls : Nat) : State :=
  let x := s.block n b
  if x.state ≠ .closed ∧ x.state ≠ .reclaiming then s
  else if x.move = 0 then
    (s.setBlock n b { x with state := .reclaiming, move := cls }).queueOp
      { lun := n, kind := 1, block := b, page := 0, cell := x.cell, cls := cls, codewords := lunCodewords (s.lunEntry n), load := .move b }
  else if cls < x.move then
    (s.setBlock n b { x with move := cls }).setFchan (lunChannel n) (raiseMove n b cls (s.fchan (lunChannel n)))
  else s

/-- Retire a block now if it holds nothing valid, else after its move (R338, R339). -/
def State.retireSoon (s : State) (n b cause cls : Nat) : State :=
  if s.validIn (locOf n b) = 0 then s.retire n b cause
  else
    let s1 := s.setBlock n b { s.block n b with retireAfter := true }
    let x := s1.block n b
    (if x.state = .open_ then s1.setBlock n b { x with state := .closed } else s1).moveBlock n b cls

/-- The free block of lowest wear on a LUN (R328), of those the block list names and the first unlisted one. -/
def State.freshBlock (s : State) (n : Nat) : Option Nat :=
  let base := bootBlocks n
  let l := (s.lun n).blocks
  let unlisted := ((List.range (l.length + 1)).map (· + base)).find? fun b =>
    (l.get? b).isNone && b + 1 < lunBlocks (s.lunEntry n)
  match unlisted with
  | some b => some b
  | none =>
    let free := l.filter fun e => e.2.state == BlockState.free
    match free with
    | [] => none
    | e :: es => some (es.foldl (fun (m : Nat × FBlock) x => if x.2.wear < m.2.wear then x else m) e).1

/-- Open a free block in a cell use: its scrambler seed is drawn (R361). -/
def State.openBlock (s : State) (n b cell : Nat) (landing : Bool) : State :=
  let s1 := s.scramblerSeed.1
  s1.setBlock n b { s1.block n b with state := .open_, cell := cell, landing := landing }

/-- Cell use of ordinary data on a LUN (R319). -/
def State.cellOf (s : State) (n : Nat) : Nat := lunCell (s.lunEntry n)

/-- The oldest two cohorts of a LUN merge when it holds more than 1024 (14_quarry_and_tumbler.md, Retention refresh). -/
def mergeCohorts (cs : List Cohort) : List Cohort :=
  if cs.length ≤ 1024 then cs
  else match cs with
    | a :: b :: rest => { b with acc := max a.acc b.acc, overdue := a.overdue || b.overdue } :: rest
    | _ => cs

/-- The 10-minute period of an operating minute. -/
def periodOf (min : Nat) : Nat := min / 10

/-- A block closes: it joins the cohort of its LUN, cell use and 10-minute period. -/
def State.closeBlock (s : State) (n b : Nat) : State :=
  let x := s.block n b
  let now := s.time.optMs / 60000
  let s1 := s.setBlock n b { x with state := .closed, closedSeq := s.fl.nextClosed, closedMin := now }
  let l := s1.lun n
  let has := l.cohorts.any fun c => c.period == periodOf now && c.cell == x.cell
  let cs := if has then l.cohorts
    else mergeCohorts (l.cohorts ++ [{ period := periodOf now, cell := x.cell, acc := 0, overdue := false }])
  { s1.setLun n { l with cohorts := cs } with fl.nextClosed := s1.fl.nextClosed + 1 }

/-- The read of a move has ended: copies go to a fresh block, or, with nothing valid left, the victim is erased. -/
def State.moveRead (s : State) (n b cls : Nat) : State :=
  let erase := ({ lun := n, kind := 3, block := b, page := 0, cell := (s.block n b).cell, cls := cls } : FOp)
  if s.validIn (locOf n b) = 0 then s.queueOp erase
  else match s.freshBlock n with
    | some d =>
      (s.openBlock n d (s.cellOf n) false).queueOp
        { lun := n, kind := 2, block := d, page := 0, cell := s.cellOf n, cls := cls, codewords := lunCodewords (s.lunEntry n), load := .move b }
    | none => s.setBlock n b { s.block n b with state := .closed, move := 0 }

/-- The copies of a move are verified: they are installed and committed, and the victim is erased (R326). -/
def State.moveWritten (s : State) (n b d cls : Nat) : State :=
  (((s.moveLoc (locOf n b) (locOf n d)).commit).closeBlock n d).queueOp
    { lun := n, kind := 3, block := b, page := 0, cell := (s.block n b).cell, cls := cls }

/-- A copy is abandoned: its source stays valid, and the destination holds nothing (R326). -/
def State.moveAbandoned (s : State) (n b d : Nat) : State :=
  let s1 := s.setBlock n b { s.block n b with state := .closed, move := 0 }
  if s1.validIn (locOf n d) = 0 ∧ (s1.block n d).state = .open_ then s1.setBlock n d { s1.block n d with state := .incomplete } else s1

/-! ### Rebuild (R345 to R347) -/

/-- The LUN whose rebuild is due next. -/
def State.nextRebuild (s : State) : Option Nat := (List.range 128).find? fun n => (s.lun n).failed ≠ 0 && s.lunMapped n

/-- The rebuild of a LUN has no member left: the next one begins, or the rebuild ends. -/
def State.settleRebuild (s : State) : State :=
  match s.fl.rebuild with
  | some n =>
    if s.lunMapped n then s
    else
      let s1 := (s.record 0x3071 Src.quarry n)
      match s1.nextRebuild with
      | some m =>
        ({ s1 with fl.rebuild := some m, fl.done := 0, fl.total := (s1.mappedBlocks m).length }).record 0x3070 Src.quarry m
      | none => { s1 with fl.rebuild := none, rebuilding := false }
  | none => s

/-- A rebuilt block is verified; progress is committed every 1024 stripes (R347). -/
def State.rebuilt (s : State) (src victim n d : Nat) : State :=
  let s1 := (s.moveLoc (locOf src victim) (locOf n d)).closeBlock n d
  let k := s1.fl.done + 1
  let s2 := { s1 with fl.done := k, nv.rebuilt := s1.nv.rebuilt + 1 }
  (if k % 1024 = 0 then s2.commit else s2).settleRebuild

/-- A member of the failed LUN that no rebuild operation carries yet. -/
def State.rebuildTarget (s : State) (src : Nat) : Option Nat :=
  let busy := s.fl.chans.flatMap fun c => (c.2.queue ++ c.2.cur.toList ++ c.2.susp).filterMap fun o => match o.load with
    | .rebuild m v => if m = src then some v else none
    | _ => none
  (s.mappedBlocks src).find? fun b => !busy.contains b

/-- LUN `n` may take rebuilt members of LUN `src` (R345, R346). -/
def State.rebuildsOn (s : State) (src n : Nat) : Bool :=
  lunChannel n = lunChannel src || (s.healthyLuns.filter fun m => lunChannel m == lunChannel src).isEmpty

/-- Start the next rebuild operation on LUN `n`. -/
def State.pumpRebuild (s : State) (n : Nat) : State :=
  match s.fl.rebuild with
  | some src =>
    if ¬ s.rebuildsOn src n then s
    else match s.rebuildTarget src, s.freshBlock n with
      | some b, some d =>
        (s.openBlock n d (s.cellOf n) false).queueOp
          { lun := n, kind := 2, block := d, page := 0, cell := s.cellOf n, cls := 4, codewords := lunCodewords (s.lunEntry n), load := .rebuild src b }
      | _, _ => s
  | none => s

/-! ### Wear (R327 to R330) -/

/-- Mean wear of a LUN's blocks in ppm. -/
def State.meanWear (s : State) (n : Nat) : Nat :=
  ((s.lun n).blocks.map fun b => b.2.wear).sum / max 1 (lunBlocks (s.lunEntry n))

/-- Some block of the device has passed its rated endurance. -/
def State.anyWorn (s : State) : Bool := s.nv.luns.any fun l => l.2.blocks.any fun b => 1000000 < b.2.wear

/-- A block has been erased and verified: free, or retired if it is to be (R327, R330, R338, R366). -/
def State.erased (s : State) (n b : Nat) : State :=
  let x := s.block n b
  let rated := lunRated (s.lunEntry n) (x.cell = 1)
  let wear := if x.cell = 3 then x.wear else x.wear + 1000000 / max 1 rated
  let was := s.anyWorn
  let y : FBlock := { wear := wear, slow := x.slow, recon := x.recon }
  let s1 := (s.setBlock n b y).commit
  let s2 := if ¬ was ∧ s1.anyWorn then s1.record 0x3082 Src.tumbler n b else s1
  let s3 := if 800000 < s2.meanWear n ∧ ¬ (s2.lunRun n).wornNoted then
      (s2.setLunRun n { s2.lunRun n with wornNoted := true }).record 0x3081 Src.tumbler n
    else s2
  let s4 := if x.retireAfter then s3.retire n b 4 else s3
  if 3 ≤ s4.freeCount n then s4.setLunRun n { s4.lunRun n with heldBack := false } else s4

/-- WEAR_CHECK (R329): every 60 s. -/
def State.wearCheck (s : State) (n : Nat) : State :=
  let bs := (s.lun n).blocks
  let closed := bs.filter fun b => b.2.state == BlockState.closed
  let high := bs.foldl (fun m b => max m b.2.wear) 0
  let due : Bool := match (s.lunRun n).lastMove with
    | some t => decide (t + msTicks 10000 ≤ s.time.uptime)
    | none => true
  match closed with
  | [] => s
  | e :: es =>
    let low := es.foldl (fun (m : Nat × FBlock) b => if b.2.wear < m.2.wear then b else m) e
    if due ∧ low.2.wear + 10000 * s.f Reg.wlDelta < high then
      (s.setLunRun n { s.lunRun n with lastMove := some s.time.uptime }).moveBlock n low.1 9
    else s

/-- Background work of Quarry and Tumbler runs: not in the minimal states, nor after FREEZE. -/
def State.quarryUp (s : State) : Bool := s.dieUp && !s.dev.minimal && !s.bas.freeze && s.dev ≠ .draining

def execWearCheck (s : State) : Result :=
  if s.quarryUp ∧ ¬ s.fl.hot then ok (s.healthyLuns.foldl State.wearCheck s) else ok s

/-! ### Pacing (R322 to R325, R345, R367) -/

/-- The share in ticks of a 1 ms window (R323, R345). -/
def State.shareTicks (s : State) (n : Nat) : Nat :=
  let base := match s.fl.rebuild with
    | some src => if s.rebuildsOn src n then s.f Reg.qryRebuildShare else s.f Reg.qryShare
    | none => s.f Reg.qryShare
  let step := if s.f Reg.band = 2 then 10 else if s.f Reg.band = 3 then 20 else 0
  250 * min 60 (base + step)

/-- The reclaim mode (R322). -/
def State.modeOf (s : State) (n : Nat) : Nat :=
  let f := s.freeCount n
  if s.f Reg.qryTarget ≤ f then 0 else if s.f Reg.qryFloor ≤ f then 1 else 2

/-- Quarry's next victim (R325). -/
def State.victim (s : State) (n : Nat) : Option Nat :=
  let closed := (s.lun n).blocks.filter fun b => b.2.state == BlockState.closed
  match closed.find? fun b => b.2.landing with
  | some b => some b.1
  | none => match closed with
    | [] => none
    | e :: es =>
      let v (x : Nat × FBlock) := s.validIn (locOf n x.1)
      some (es.foldl (fun (m : Nat × FBlock) b =>
        if v b < v m ∨ (v b = v m ∧ b.2.closedSeq < m.2.closedSeq) then b else m) e).1

/-- A reclaim or re-erase of LUN `n` is queued or under way. -/
def State.reclaiming (s : State) (n : Nat) : Bool :=
  let c := s.fchan (lunChannel n)
  (c.queue ++ c.cur.toList ++ c.susp).any fun o => o.lun == n && (o.kind == 3 || o.load ≠ .none && FOp.ids o == [])

/-- Erase an erase-incomplete block again (R367). -/
def State.reErase (s : State) (n cls : Nat) : Option State :=
  match (s.lun n).blocks.find? fun b => b.2.state == BlockState.incomplete with
  | some b => some (s.queueOp { lun := n, kind := 3, block := b.1, page := 0, cell := b.2.cell, cls := cls })
  | none => none

/-- Quarry's work for the window. -/
def State.reclaim (s : State) (n mode : Nat) : State :=
  let cls := if mode = 2 then 4 else 9
  if s.reclaiming n ∨ (cls = 9 ∧ s.fl.hot) then s
  else match s.reErase n cls with
    | some t => t
    | none =>
      if mode = 0 then s
      else match s.victim n with
        | some b => s.moveBlock n b cls
        | none => s

/-- R324 at a LUN: held back at 2 or fewer free blocks, until 3; event 0x3062 when every healthy LUN is. -/
def State.holdBack (s : State) (n : Nat) : State :=
  let r := s.lunRun n
  let s1 := s.setLunRun n { r with heldBack := if s.freeCount n ≤ 2 then true else r.heldBack && s.freeCount n < 3 }
  let all := !s1.healthyLuns.isEmpty && s1.healthyLuns.all fun m => (s1.lunRun m).heldBack
  let s2 := if all ∧ ¬ s1.fl.allHeld then s1.record 0x3062 Src.quarry else s1
  { s2 with fl.allHeld := all }

/-- `STR_QRY_CTRL` takes its staged value (R14; boundary: the next pacing window). -/
def State.takeStaged (s : State) (fs : List Field) : State :=
  fs.foldl (fun t f => match t.staged.get? f.key with
    | some v => ({ t with staged := t.staged.erase f.key }).setF f v
    | none => t) s

/-- PACING_WINDOW (R322 to R325): a window begins on LUN `n`; `busy` is the die time in ticks that Quarry's class-4
operations used in the window that ends. -/
def execPacingWindow (lun : Fin 128) (busy : BitVec 16) (s : State) : Result :=
  let n := lun.val
  if ¬ s.quarryUp ∨ ¬ s.lunHealthy n then ok s
  else
    let s1 := s.takeStaged [Reg.qryFloor, Reg.qryTarget, Reg.qryShare, Reg.qryRebuildShare]
    let r := s1.lunRun n
    let excess := busy.toNat - r.share
    let mode := s1.modeOf n
    let s2 := (s1.setLunRun n { r with mode := mode, overrun := excess, share := s1.shareTicks n - excess }).holdBack n
    ok ((s2.reclaim n mode).pumpRebuild n)

/-- FLOOR_MODE_TIMEOUT (R324). -/
def execFloorModeTimeout (lun : Fin 128) (s : State) : Result :=
  if s.quarryUp ∧ s.lunHealthy lun.val ∧ (s.lunRun lun.val).mode = 2 then ok (s.record 0x3060 Src.quarry lun.val) else ok s

/-! ### Retention (R333 to R335) -/

/-- The unit of a retention accumulator is 1 / 5 298 048 000, which every interval of R333 in minutes divides. -/
def accOne : Nat := 5298048000

/-- Interval in hours by row and cell use: 0 SLC, 1 pSLC, 2 TLC (R333). -/
def retentionHours (row cell : Nat) : Nat :=
  let r := match row with
    | 0 => (43800, 26280, 8760) | 1 => (26280, 11520, 2880) | 2 => (10800, 4320, 1080) | 3 => (3360, 1344, 336)
    | 4 => (1200, 480, 120) | 5 => (480, 192, 48) | 6 => (240, 96, 24) | 7 => (160, 64, 16) | _ => (120, 48, 12)
  if cell = 0 then r.1 else if cell = 1 then r.2.1 else r.2.2

/-- The row of a temperature (R333). -/
def retentionRow (t : Int) : Nat :=
  if t < 55 then 0 else if t < 70 then 1 else if t < 85 then 2 else if t < 100 then 3 else if t < 115 then 4
  else if t < 125 then 5 else if t < 135 then 6 else if t < 145 then 7 else 8

/-- T_OFFSET, signed (R333). -/
def State.tOffset (s : State) : Int :=
  let v := s.f Reg.tOffset
  if v < 32 then (v : Int) else (v : Int) - 64

/-- A block belongs to a cohort. -/
def inCohort (c : Cohort) (b : FBlock) : Bool :=
  (b.state = .closed || b.state = .reclaiming) && b.cell = c.cell && periodOf b.closedMin = c.period

/-- What `minutes` at a row add to a cohort: double when a block of it is past 100 % wear (R330). -/
def accStep (bs : Map FBlock) (c : Cohort) (row minutes : Nat) : Nat :=
  let worn := bs.any fun b => inCohort c b.2 && 1000000 < b.2.wear
  (if worn then 2 else 1) * minutes * (accOne / (60 * retentionHours row c.cell))

/-- Age every cohort of a LUN; cohorts with no block left are dropped. -/
def ageLun (row minutes : Nat) (l : Lun) : Lun :=
  { l with cohorts := (l.cohorts.filter fun c => l.blocks.any fun b => inCohort c b.2).map fun c =>
      { c with acc := c.acc + accStep l.blocks c row minutes } }

/-- Moves of a cohort that is due, and of one that is overdue (R335). -/
def State.refreshCohort (s : State) (n : Nat) (c : Cohort) : State :=
  let bs := ((s.lun n).blocks.filter fun b => inCohort c b.2).map fun b => b.1
  let late := 11 * accOne ≤ 10 * c.acc
  let s1 := if late ∧ ¬ c.overdue then
      let t := (s.record 0x3090 Src.tumbler n c.cell).bump 0x17
      t.setLun n { t.lun n with cohorts := (t.lun n).cohorts.map fun d =>
        if d.period = c.period ∧ d.cell = c.cell then { d with overdue := true } else d }
    else s
  if accOne ≤ c.acc then bs.foldl (fun t b => t.moveBlock n b (if late then 4 else 9)) s1 else s1

def State.refreshLun (s : State) (n : Nat) : State := (s.lun n).cohorts.foldl (fun t c => t.refreshCohort n c) s

/-- RETENTION_STEP (R333, R335): every 60 s. `STR_TMB_CTRL` takes its staged value here. -/
def execRetentionStep (s : State) : Result :=
  if ¬ s.quarryUp then ok s
  else
    let s1 := s.takeStaged [Reg.wlDelta, Reg.tOffset, Reg.offH, Reg.offRow]
    let row := retentionRow (s1.junction + s1.tOffset)
    let s2 := { s1 with
      fl.row := row
      nv.luns := s1.nv.luns.map fun (l : Nat × Lun) => (l.1, ageLun row 1 l.2) }
    ok (s2.healthyLuns.foldl State.refreshLun s2)

/-- The time off ages every cohort at a start (R334). -/
def State.ageOff (s : State) : State :=
  let known := s.nv.stopCal.isSome && s.time.calSet
  let minutes := if known then (s.time.calendar - s.nv.stopCal.getD 0) / 60000000 else 60 * s.f Reg.offH
  let s1 := { s with nv.luns := s.nv.luns.map fun (l : Nat × Lun) => (l.1, ageLun (s.f Reg.offRow) minutes l.2) }
  if known then s1 else s1.record 0x3091 Src.tumbler

/-! ### Reads of blocks (R314, R331, R336 to R338) -/

/-- One page read of a flash block (R331). -/
def State.countRead (s : State) (loc : Nat) : State :=
  if loc = 0 then s
  else
    let n := loc / 2 ^ 32
    let b := loc % 2 ^ 32 - 1
    let x := s.block n b
    let limit := lunDisturb (s.lunEntry n) (x.cell = 1)
    let s1 := s.setBlock n b { x with reads := x.reads + 1 }
    if limit = 0 ∨ x.reads + 1 < limit then s1
    else if x.reads + 1 = limit then (s1.bump 0x14).moveBlock n b 9
    else if 2 * x.reads < 3 * limit ∧ 3 * limit ≤ 2 * (x.reads + 1) then (s1.bump 0x14).moveBlock n b 4
    else s1

/-- What the flash reported on a place that was read. -/
def State.noteMedia (s : State) (loc : Nat) (m : Media) : State :=
  let n := loc / 2 ^ 32
  let b := loc % 2 ^ 32 - 1
  let l := s.lun n
  let x := s.block n b
  let hard := s.countF (Reg.errHard (lunChannel n)) 1
  match m with
  | .segment => s.bump 0x13
  | .retry page index =>
    if loc = 0 then s
    else
      let cs := l.cohorts.map fun c => if inCohort c x then { c with thr := c.thr.set page.val index.val } else c
      hard.setLun n { l with cohorts := cs }
  | .soft =>
    if loc = 0 then s else (((hard.setLun n { l with soft := l.soft + 1 }).bump 0x15).moveBlock n b 9)
  | .rebuilt =>
    if loc = 0 then s
    else
      let s1 := (hard.setLun n { l with recon := l.recon + 1 }).bump 0x16
      let y := s1.block n b
      (s1.setBlock n b { y with recon := y.recon + 1, retireAfter := y.retireAfter || decide (2 ≤ y.recon + 1) }).moveBlock n b 4
  | .failed => if loc = 0 then s else hard

end Sys2Proof.Machine
end

