-- ==== Sys2Proof/Machine/Flash.lean ====
section
/-! DEFINITION. The die scheduler's operations as the Vein engines take and report them (08_belion_engines_and_flash_bus.md,
R159 to R162; R363 to R369), the journal and checkpoint (R311 to R313, R321, R484) and the recorder's writes (R505 to
R508, R515). -/

namespace Sys2Proof.Machine

/-! ### Taking an operation (R159, R160, R364) -/

/-- While an operation is suspended on a LUN, only reads, status operations and its resume may go there (R364). -/
def FChan.allows (c : FChan) (o : FOp) : Bool :=
  o.resume || o.kind = 1 || o.kind = 5 || o.kind = 6 || o.kind = 7 ||
  !((c.susp.any fun x => x.lun == o.lun) || (c.queue.any fun x => x.resume && x.lun == o.lun))

/-- The operation the scheduler hands out next: the first of the best class among those allowed. -/
def FChan.pick (c : FChan) (may : FOp → Bool) : Option FOp :=
  (c.queue.filter fun o => c.allows o && may o).foldl (fun (m : Option FOp) o => match m with
    | some x => if o.cls < x.cls then some o else some x
    | none => some o) none

/-- The operation serves a refresh move: its block's cohort is due (R335). -/
def State.isRefresh (s : State) (o : FOp) : Bool :=
  let b := match o.load with
    | .move v => v
    | _ => o.block
  (s.lun o.lun).cohorts.any fun c => decide (accOne ≤ c.acc) && inCohort c (s.block o.lun b)

/-- Above 150 °C no class 9 work but refresh moves is issued (R595). -/
def State.mayIssue (s : State) (o : FOp) : Bool := !(s.fl.hot && o.cls == 9 && !s.isRefresh o)

/-- Bound busy time in ticks of an operation, from the LUN table (R160 word 4). -/
def busyTicks (e : Bytes) (o : FOp) : Nat :=
  if o.kind = 1 ∨ o.kind = 7 then 25 * leAt e (if o.cell = 1 then 22 else 20) 2
  else if o.kind = 2 ∨ o.kind = 4 then 25 * leAt e (if o.cell = 1 then 26 else 24) 2
  else if o.kind = 3 then 250 * leAt e 28 2
  else 0

/-- The threshold-set index for a page type of a LUN's block (R336): that of its cohort; 0 while it belongs to none. -/
def State.readIndex (s : State) (n b page : Nat) : Nat :=
  match (s.lun n).cohorts.find? fun c => inCohort c (s.block n b) with
  | some c => c.thr.getD page 0
  | none => 0

/-- The 32 bytes of a descriptor (R160). The row address is block × pages per block + page (PRESUMED; its byte order is the
NAND's). -/
def State.opBytes (s : State) (o : FOp) : Bytes :=
  let e := s.lunEntry o.lun
  let w0 := o.kind + 256 * lunCe o.lun + 1024 * lunSub o.lun + 4096 * o.cell + 65536 * o.cls +
    2 ^ 24 * b2n o.resume + 2 ^ 25 * b2n o.suspendable
  let pages := if o.cell = 1 then lunPagesP e else lunPages e
  let page := if o.cell = 2 then o.page % 3 else 0
  let index := if o.kind = 1 ∨ o.kind = 7 then s.readIndex o.lun o.block page else 0
  natLe 4 w0 ++ natLe 4 ((o.block * pages + o.page) % 2 ^ 24) ++ natLe 4 0 ++
  natLe 4 (256 * o.codewords + 65536 * page) ++
  natLe 4 (busyTicks e o) ++ natLe 4 index ++ natLe 4 o.feature ++ natLe 4 o.tag

/-- A program or an erase is issued: SAFE_n is released (R107). -/
def State.issues (s : State) (o : FOp) : State :=
  if 2 ≤ o.kind ∧ o.kind ≤ 4 then { s with bas.safeReleased := true } else s

/-- An erase starts: its journal record is written, and the block is erase-incomplete until its status is verified (R366). -/
def State.eraseStarts (s : State) (o : FOp) : State :=
  if o.kind = 3 ∧ ¬ o.resume then (s.setBlock o.lun o.block { s.block o.lun o.block with state := .incomplete, found := false }).journal 0 else s

/-- Take the next operation of a channel: the state, its handle and its descriptor. E2 is cleared in the same step. -/
def State.takeOp (s : State) (ch : Nat) : Option (State × Nat × Bytes) :=
  let c := s.fchan ch
  match c.pick s.mayIssue with
  | none => none
  | some o =>
    let h := (c.handle + 1) % 16
    let o1 := { o with suspendable := o.suspendable && decide (o.suspends < 16) }
    let c1 := { c with queue := c.queue.erase o, cur := some o1, handle := h, since := s.time.uptime, late := 0 }
    let x := s.engine (2 + ch)
    let s1 := (s.setFchan ch c1).setEngine (2 + ch) { x with ev := x.ev &&& 0xFFFB#16 }
    some ((s1.issues o).eraseStarts o, h, s.opBytes o1)

/-! ### Ends of operations (R161, R311, R326, R339, R345, R366) -/

/-- Data of verified units lies in its block now. -/
def State.placeUnits (s : State) (n b : Nat) (ids : List Nat) : State :=
  let us := s.str.units.filter fun u => ids.contains u.id
  us.foldl (fun t u =>
    let x := t.vol u.vol
    if u.stream then
      t.setVol u.vol { x with recs := x.recs.map fun r => if r.seq = u.lba then { r with loc := locOf n b } else r }
    else match t.blk u.vol u.lba with
      | some y => t.setBlk u.vol u.lba (some { y with loc := locOf n b })
      | none => t) s

/-- Units of a verified program: their records enter the journal tail (R311). -/
def State.verifyUnits (s : State) (n b : Nat) (ids : List Nat) : State :=
  let s1 := s.placeUnits n b ids
  let s2 := { s1 with
    str.units := s1.str.units.map fun (u : SUnit) => if ids.contains u.id then { u with place := UnitAt.verified } else u }
  ids.foldl State.journal s2

/-- The last page of a block has been programmed. -/
def State.lastPage (s : State) (o : FOp) : Bool :=
  let e := s.lunEntry o.lun
  (if o.cell = 1 then lunPagesP e else lunPages e) ≤ o.page + 1

/-- An operation is done (outcome 0). -/
def State.opDone (s : State) (o : FOp) : State :=
  match o.load with
  | .units ids =>
    let s1 := s.verifyUnits o.lun o.block ids
    if s1.lastPage o then s1.closeBlock o.lun o.block else s1
  | .move b => if o.kind = 1 then s.moveRead o.lun b o.cls else s.moveWritten o.lun b o.block o.cls
  | .rebuild src b => s.rebuilt src b o.lun o.block
  | .none => if o.kind = 3 then s.erased o.lun o.block else s

/-- What an operation carried goes back: units are staged again, a copy is abandoned. -/
def State.opUndone (s : State) (o : FOp) : State :=
  match o.load with
  | .units ids => s.restage ids
  | .move b => s.moveAbandoned o.lun b (if o.kind = 1 then b else o.block)
  | .rebuild _ _ => s.setBlock o.lun o.block { s.block o.lun o.block with state := .incomplete }
  | .none => s

/-- An operation's status shows failure (outcome 1): a failed program or erase retires its block (R339). -/
def State.opFailed (s : State) (o : FOp) : State :=
  let s1 := s.opUndone o
  if o.kind = 3 then s1.retire o.lun o.block 3
  else if o.kind = 2 ∨ o.kind = 4 then s1.retireSoon o.lun o.block 2 9
  else s1

/-- A read decoded after no pass (outcome 2): reconstructed when parity is on, else its data is unreadable (R337). -/
def State.opUnreadable (s : State) (o : FOp) : State :=
  let loc := locOf o.lun o.block
  if s.parityOn then (s.bump 0x16).opDone o
  else (s.mapData (fun b => if b.loc = loc then { b with bad := true } else b)
    (fun r => if r.loc = loc then { r with bad := true } else r)).opDone o

/-- Another operation of the LUN reported outcome 3 or 5: the fourth in a row fails it (R368). -/
def State.countBad (s : State) (n : Nat) : State :=
  let k := (s.lunRun n).bad + 1
  let s1 := s.setLunRun n { s.lunRun n with bad := k }
  if 4 ≤ k then s1.failLun n 2 else s1

/-- Busy beyond its time (outcome 3): the second on a block retires it (R339). -/
def State.opBusy (s : State) (o : FOp) : State :=
  let x := s.block o.lun o.block
  let s1 := (s.setBlock o.lun o.block { x with slow := x.slow + 1 }).opUndone o
  let s2 := if x.slow = 1 ∧ x.state ≠ .retired then s1.retireSoon o.lun o.block 5 9 else s1
  s2.countBad o.lun

/-- Suspended (outcome 4): counted (R364). -/
def State.opSuspended (s : State) (ch : Nat) (o : FOp) : State :=
  let o1 := { o with suspends := o.suspends + 1, resume := false }
  let l := s.lun o.lun
  let s1 := (s.setFchan ch { s.fchan ch with susp := (s.fchan ch).susp ++ [o1] }).countF Reg.susCount 1
  let s2 := s1.setLun o.lun { l with suspensions := l.suspensions + 1 }
  if o.suspends + 1 = 16 then (s2.countF Reg.susCapped 1).bump 0x11 else s2

/-- An interface error on a channel (R369): the sixteenth within 1 s fails it. -/
def State.ifaceError (s : State) (ch : Nat) : State :=
  let c := s.fchan ch
  let errs := s.time.uptime :: c.errs.filter fun t => s.time.uptime < t + msTicks 1000
  let s1 := ((s.setFchan ch { c with errs := errs }).countF (Reg.errIface ch) 1).bump 0x10
  if 16 ≤ errs.length then s1.failChannel ch else s1

/-- Interface error (outcome 5): reissued once on the same LUN (R369). -/
def State.opIface (s : State) (o : FOp) : State :=
  let l := s.lun o.lun
  let s1 := s.setLun o.lun { l with ifErr := l.ifErr + 1 }
  if ¬ o.reissued ∧ s1.lunHealthy o.lun then s1.queueOp { o with reissued := true }
  else (s1.opUndone o).countBad o.lun

/-- A suspended operation is resumed: a new descriptor at its class raised to 4 (R364). -/
def State.queueResume (s : State) (ch : Nat) (o : FOp) : State :=
  let c := s.fchan ch
  let o1 := { o with resume := true, cls := min o.cls 4 }
  (s.setFchan ch { c with susp := c.susp.erase o, queue := c.queue ++ [o1] }).raise (2 + ch) 1

/-- Resume what no read of classes 1 to 8 keeps waiting, and take LUN entries at their boundary (R356, R364). -/
def State.settleChannel (s : State) (ch : Nat) : State :=
  let idle := (s.fchan ch).susp.filter fun o =>
    !((s.fchan ch).queue.any fun r => r.kind == 1 && r.lun == o.lun && decide (r.cls ≤ 8))
  let s1 := if s.bas.freeze then s else idle.foldl (fun t o => t.queueResume ch o) s
  ((s1.tab.lunNext.map fun e => e.1).filter fun n => lunChannel n == ch).foldl State.lunBoundary s1

/-- The operation in progress on a channel ends with an outcome (R161). -/
def State.endOp (s : State) (ch : Nat) (o : FOp) (outcome : Nat) : State :=
  let s1 := s.setFchan ch { s.fchan ch with cur := none }
  let s2 := if outcome = 3 ∨ outcome = 5 then s1 else s1.setLunRun o.lun { s1.lunRun o.lun with bad := 0 }
  let s3 := match outcome with
    | 0 => s2.opDone o
    | 1 => s2.opFailed o
    | 2 => s2.opUnreadable o
    | 3 => s2.opBusy o
    | 4 => s2.opSuspended ch o
    | 5 => s2.opIface o
    | _ => s2.opUndone o
  s3.settleChannel ch

/-- OPDONE's effect (R161): none, when the handle is not in progress. A report that lost to its expiry is late. -/
def State.reportOp (s : State) (ch handle outcome : Nat) : Option State :=
  let c := s.fchan ch
  match c.cur with
  | some o => if c.handle = handle then some (s.endOp ch o outcome) else none
  | none =>
    if c.late = handle + 1 then some (s.setFchan ch { c with late := 0 }).late else none

/-- VEIN_REPORT_TIMEOUT (R161). -/
def execVeinReportTimeout (ch : Fin 8) (s : State) : Result :=
  let c := s.fchan ch.val
  match c.cur with
  | some o =>
    if s.dieUp then
      let s1 := (s.setFchan ch.val { c with cur := none, late := c.handle + 1 }).opUndone o
      ok ((s1.record 0x3051 Src.dieSched ch.val).failChannel ch.val)
    else ok s
  | none => ok s

/-- SUSPEND_REQUEST (R159, R363): a read waits and the operation has run its minimum. -/
def execSuspendRequest (ch : Fin 8) (s : State) : Result :=
  match (s.fchan ch.val).cur with
  | some o => if o.suspendable ∧ o.suspends < 16 ∧ ¬ s.bas.freeze ∧ s.dieUp then ok (s.raise (2 + ch.val) 2) else ok s
  | none => ok s

/-- RESUME_DEADLINE (R364): 2 ms after the suspension of an operation on a LUN. -/
def execResumeDeadline (lun : Fin 128) (s : State) : Result :=
  let ch := lunChannel lun.val
  match (s.fchan ch).susp.find? fun o => o.lun == lun.val with
  | some o => if s.bas.freeze then ok s else ok (s.queueResume ch o)
  | none => ok s

/-- LUN_RESET_TIMEOUT (R368): no ready status within 10 ms of a RESET. -/
def execLunResetTimeout (lun : Fin 128) (s : State) : Result := if s.dieUp then ok (s.failLun lun.val 3) else ok s

/-! ### Placement and the journal (R311 to R313, R319, R321) -/

/-- Pages of the open page's units: cycle-class units go to landing pages, others to the configured cell use (R319). -/
def State.waitingUnits (s : State) (landing : Bool) : List SUnit :=
  s.str.units.filter fun u => u.place == UnitAt.staged && u.fromReserve == landing

/-- OPEN_PAGE_CLOSE (R319, R321): a page of a block is filled with the oldest waiting units of its kind, padded, and its
program queued. The scheduler's choice of the place is the operand (DESIGN CHOICE). -/
def execOpenPageClose (lun : Fin 128) (block page : BitVec 16) (landing : Bool) (s : State) : Result :=
  let n := lun.val
  let b := block.toNat
  let x := s.block n b
  let cell := if landing then 1 else s.cellOf n
  let us := (s.waitingUnits landing).take (lunCodewords (s.lunEntry n))
  let mine := x.state = BlockState.open_ ∧ x.cell = cell ∧ x.landing = landing
  if ¬ s.dieUp ∨ s.dev.minimal ∨ s.bas.freeze ∨ ¬ s.lunHealthy n ∨ (s.lunRun n).heldBack ∨ us.isEmpty ∨ b < bootBlocks n ∨
     lunBlocks (s.lunEntry n) ≤ b + 1 ∨ ¬ (mine ∨ x.state = BlockState.free) then ok s
  else
    let s1 := if x.state = .free then s.openBlock n b cell landing else s
    let ids := us.map fun u => u.id
    let s2 := { s1 with
      str.units := s1.str.units.map fun (u : SUnit) => if ids.contains u.id then { u with place := UnitAt.programming } else u }
    let cls := if landing then 3 else if us.any fun u => u.part ≠ 0 then 5 else 7
    ok (s2.queueOp { lun := n, kind := 2, block := b, page := page.toNat, cell := cell, cls := cls,
                     codewords := lunCodewords (s.lunEntry n), load := .units ids })

/-- JOURNAL_PAGE_TIMER (R311): 100 µs after the page's first record its program starts. -/
def execJournalPageTimer (s : State) : Result :=
  if s.str.openPage.isEmpty ∨ ¬ s.dieUp ∨ s.bas.freeze then ok s
  else ok { s with str := { s.str with openPage := [], pages := s.str.pages ++ [s.str.openPage] } }

/-- FLUSH commands that nothing in staging holds up any longer complete (R248). -/
def State.serveFlush (s : State) : State :=
  ((s.rings.flatMap fun r => r.2.cmds).filter fun c => c.ring ≠ 0 && c.opcode == 5 && c.stage == .held).foldl
    (fun t c => if t.flushed c then t.complete c 0 [] else t) s

/-- A journal page is verified: a firing whose last commit lies in it is durable (R480). -/
def Firing.pageDone (f : Firing) : Firing :=
  if f.pages = 1 then { f with pages := 0, durable := true, pinsDurable := true } else { f with pages := f.pages - 1 }

/-- The oldest journal page's records are durable; units whose program is verified too are released (R311, R422). A page
carries the times (R484). -/
def State.pageVerified (s : State) : State :=
  match s.str.pages with
  | [] => s
  | p :: ps =>
    if ¬ s.dieUp ∨ s.bas.freeze then s
    else
      let s1 := { s with
        str := { s.str with
          pages := ps
          units := s.str.units.map fun (u : SUnit) => if p.contains u.id then { u with journalled := true } else u }
        nv := { s.nv with
          savedOpt := max s.nv.savedOpt s.time.optMs
          savedCycles := max s.nv.savedCycles s.time.cycles }
        crn := { s.crn with running := s.crn.running.map Firing.pageDone } }
      s1.releaseDurable.serveFlush.settleRebuild

/-- CHECKPOINT_COMPLETE (R312, R332, R518). -/
def execCheckpointComplete (s : State) : Result :=
  match s.str.ckptAt with
  | none => ok s
  | some n =>
    if ¬ s.dieUp ∨ s.bas.freeze then ok s
    else
      let s1 := { s with
        str.sinceCkpt := s.str.sinceCkpt - n, str.ckptAt := none, nv.savedTc := s.evr.tc
        nv.luns := s.nv.luns.map fun (l : Nat × Lun) =>
          (l.1, { l.2 with blocks := l.2.blocks.map fun (b : Nat × FBlock) => (b.1, { b.2 with savedReads := b.2.reads }) }) }
      ok (s1.record 0x1074 Src.strata)

/-- OPTIME_SAVE (R484, R518). -/
def execOptimeSave (s : State) : Result :=
  if s.dieUp ∧ ¬ s.bas.freeze ∧ s.dev ≠ .rom then ok (s.saveTimes.journal 0) else ok s

/-! ### The recorder (R505, R506, R515) -/

/-- SCREE_FLUSH (R505, R506): staging goes to the recorder area; records lost meanwhile are reported then. -/
def execScreeFlush (s : State) : Result :=
  if ¬ s.dieUp ∨ s.bas.freeze ∨ s.evr.staging.isEmpty then ok s
  else
    let n := s.evr.lost
    let s1 := { s.flushScree with evr := { s.flushScree.evr with lost := 0 } }
    ok (if n = 0 then s1.touch 3 else (s1.touch 3).record 0xF010 Src.recorder n)

/-- SUPPRESSION_SUMMARY (R515). -/
def execSuppressionSummary (s : State) : Result :=
  if ¬ s.dieUp then ok s
  else
    let xs := s.evr.supp
    ok (xs.foldl (fun t x => t.record 0xF001 Src.recorder x.1 x.2.count x.2.first) { s with evr.supp := [] })

end Sys2Proof.Machine
end

