-- ==== Sys2Proof/Machine/Reads.lean ====
section
/-! DEFINITION. READ and READ_STREAM with what the flash does under them (R235, R236, R247, R308, R331, R336 to R338). -/

namespace Sys2Proof.Machine

/-- The map place of a logical block in the volume's own block size. -/
def State.lbaPlace (s : State) (v lba : Nat) : Nat :=
  if (s.vol v).emul then s.place v (lba / 8) else s.place v lba

/-- A lookup through the translation cache, counted when it misses (R308). An entry that names a staging unit is locked. -/
def State.lookup (s : State) (v p : Nat) : State :=
  let key := v * 2 ^ 40 + p
  let seg := v * 2 ^ 32 + p / 1024
  if s.str.cached.contains key ∨ s.str.units.any (fun u => u.vol == v && u.lba == p && !u.stream) then s
  else
    let s1 := { s with str.cached := (key :: s.str.cached).take 65536 }
    if s.str.loaded.contains seg then s1.countF Reg.strMissDram 1
    else ({ s1 with str.loaded := seg :: s1.str.loaded }).countF Reg.strMissFlash 1

/-- Where the data of a block lies in flash, 0 while it lies in staging. -/
def State.locAt (s : State) (v p : Nat) : Nat := ((s.blk v p).map fun b => b.loc).getD 0

/-- Map places are read: lookups, page reads (one per block, DESIGN CHOICE) and what the flash reported. -/
def State.readBlocks (s : State) (v : Nat) (ps : List Nat) (media : List (Nat × Media)) : State :=
  let s1 := ps.foldl (fun t p => (t.lookup v p).countRead (t.locAt v p)) s
  media.foldl (fun t m => t.noteMedia (t.locAt v m.1) m.2) s1

/-- Records are read, by sequence number. -/
def State.readRecords (s : State) (v : Nat) (media : List (Nat × Media)) : State :=
  media.foldl (fun t m => match (t.vol v).recs.find? fun r => r.seq == m.1 with
    | some r => (t.countRead r.loc).noteMedia r.loc m.2
    | none => t) s

/-- The places that no decode pass could read (R337 step 5). -/
def failedOf (media : List (Nat × Media)) : List Nat := (media.filter fun m => m.2 == .failed).map fun m => m.1

/-- The status of reading one block: READ_LOST, MEDIA_UNRECOVERED, or none. `bad` names blocks unreadable now. -/
def State.readStatus (s : State) (v first i : Nat) (bad : List Nat) : Option Nat :=
  match s.blk v (s.place v (first + i)) with
  | none => none
  | some b => if b.lost then some 0x0301 else if b.bad ∨ bad.contains i then some 0x0300 else none

/-- Bytes of logical block `i` of a READ. -/
def State.readBytes (s : State) (v start i : Nat) : Bytes :=
  let x := s.vol v
  if x.emul then
    slice (s.blockBytes v (s.place v ((start + i) / 8))) (512 * ((start + i) % 8)) 512
  else s.blockBytes v (s.place v (start + i))

/-- The status of logical block `i` of a READ. -/
def State.lbaStatus (s : State) (v start i : Nat) (bad : List Nat) : Option Nat :=
  if (s.vol v).emul then s.readStatus v ((start + i) / 8) 0 (if bad.contains i then [0] else [])
  else s.readStatus v start i bad

/-- The failing blocks of a READ with their statuses, in order. -/
def State.failing (s : State) (v start n : Nat) (bad : List Nat) : List (Nat × Nat) :=
  (List.range n).filterMap fun i => (s.lbaStatus v start i bad).map fun st => (i, st)

/-- The writes of a READ: every block that reads goes to its place in the host's buffer (R235). -/
def State.scatterBlocks (s : State) (v start size : Nat) (fails : List (Nat × Nat)) (runs : List (Nat × Nat)) : Nat → Nat → State
  | _, 0 => s
  | i, k + 1 =>
    let cut := (cutRuns true true true 0 runs).filter fun d => i * size < d.off + d.len && d.off < (i + 1) * size
    let bs := s.readBytes v start i
    let s1 := if fails.any fun f => f.1 == i then s
      else cut.foldl (fun t d =>
        let lo := max d.off (i * size)
        let hi := min (d.off + d.len) ((i + 1) * size)
        t.emit (.hostWrite (d.addr + (lo - d.off)) (slice bs (lo - i * size) (hi - lo)))) s
    State.scatterBlocks s1 v start size fails runs (i + 1) k

/-- READ (R235, R236): `media` says what the flash reported on blocks of the transfer, by index. -/
def State.startRead (s0 : State) (c0 : Cmd) (media : List (Nat × Media)) (x : Xfer) : State :=
  s0.checked c0 fun sa c =>
    if (sa.chan c.ring).halted then sa
    else
      let v := c.volume
      let size := (sa.vol v).lbaBytes
      let bad := failedOf media
      let s := sa.readBlocks v (((List.range c.length).map fun i => sa.lbaPlace v (c.start + i)).eraseDups)
        (media.map fun m => (sa.lbaPlace v (c.start + m.1), m.2))
      let n := c.length * size
      let fails := s.failing v c.start c.length bad
      let status := match fails with
        | [] => 0
        | f :: _ => f.2
      let result := natLe 4 0 ++ natLe 4 (match fails with
        | [] => 0xFFFFFFFF
        | f :: _ => f.1) ++ natLe 4 fails.length
      match x with
      | .done segs _ =>
        if c.listOk n segs then
          (s.scatterBlocks v c.start size fails (c.runs n segs) 0 c.length).complete c status result
        else s.complete c 0x0201 []
      | _ => s.moveOut { c with holes := fails.map fun f => (f.1 * size, size) } n
          ((List.range c.length).flatMap fun i => s.readBytes v c.start i) status result x

/-- What READ_STREAM copies: the records from a sequence on, each whole (R247). `room` bytes and `limit` records are
left (limit 0: none set). Answer: bytes, records, next sequence, NOFIT, status. -/
def streamCopy (bad : List Nat) : Nat → Nat → List SRec → Nat → Nat → Bytes × Nat × Nat × Bool × Nat
  | _, _, [], next, _ => ([], 0, next, false, 0)
  | room, limit, r :: rs, _, taken =>
    if limit ≠ 0 ∧ limit ≤ taken then ([], 0, r.seq, false, 0)
    else if r.lost then ([], 0, r.seq, false, 0x0301)
    else if r.bad ∨ bad.contains r.seq then ([], 0, r.seq, false, 0x0300)
    else if room < r.bytes.length then ([], 0, r.seq, true, 0)
    else
      let t := streamCopy bad (room - r.bytes.length) limit rs (r.seq + 1) (taken + 1)
      (r.bytes ++ t.1, t.2.1 + 1, t.2.2.1, t.2.2.2.1, t.2.2.2.2)

/-- READ_STREAM (R247): `media` says what the flash reported, by sequence number. -/
def State.startReadStream (s0 : State) (c0 : Cmd) (media : List (Nat × Media)) (x : Xfer) : State :=
  s0.checked c0 fun sa c =>
    if (sa.chan c.ring).halted then sa
    else
      let bad := failedOf media
      let s := sa.readRecords c.volume media
      let recs := (s.vol c.volume).recs
      let from_ := recs.filter fun r => c.start ≤ r.seq
      let oldest := match recs with
        | [] => c.start
        | r :: _ => r.seq
      let t := streamCopy bad c.length (c.b 28 4) from_ (max c.start oldest) 0
      let nextSeq := match from_ with
        | [] => c.start
        | _ => t.2.2.1
      let result := natLe 4 t.1.length ++ natLe 8 nextSeq ++ natLe 2 t.2.1 ++
        natLe 2 (b2n (c.start < oldest) + 2 * b2n t.2.2.2.1)
      s.moveOut c c.length t.1 t.2.2.2.2 result x

/-! ### The commands -/

def execRead (n : Fin 8) (tag : BitVec 5) (x : Xfer) (media : List (Nat × Media)) (s : State) : Result :=
  s.startCmd n.val tag.toNat 1 fun s c => s.startRead c media x
def execReadStream (n : Fin 8) (tag : BitVec 5) (x : Xfer) (media : List (Nat × Media)) (s : State) : Result :=
  s.startCmd n.val tag.toNat 8 fun s c => s.startReadStream c media x

end Sys2Proof.Machine
end

