-- ==== Sys2Proof/Machine/Dram.lean ====
section
/-! DEFINITION. The DRAM controller (16_dram_controller.md): initialisation, refresh, activation tables, parity alerts and
replays, reinitialisation, scrubbing; and the rails of R72 with the entry into Bedrock (R134). -/

namespace Sys2Proof.Machine

/-- Enter Bedrock with a cause (R131 to R134): no DRAM, the bootstrap program on channels 0 and 1, and the ring unit accepts
host access. -/
def State.enterBedrock (s : State) (cause : Nat) : State :=
  let boot : Map Engine := [(2, { run := true }), (3, { run := true })]
  let s1 := { s with
    start.bedrockCause := cause, str.mapMode := 2, dram := {}
    eng := (s.eng.filter fun (x : Nat × Engine) => x.1 < 2) ++ boot }
  let s2 := ((s1.setDev .bedrock).record 0x1020 Src.start cause).bump 0x09
  { s2.noteStart with start.hostAccess := true, pcie.crs := false }

/-! ### Geometry (R379, R383) -/

/-- Row bits at a density code. -/
def rowBits (density : Nat) : Nat := 15 + density
/-- Data of one rank in MiB. -/
def rankMiB (x16 : Bool) (density : Nat) : Nat := (if x16 then 1024 else 2048) * 2 ^ density
def State.dramRanks (s : State) : Nat := 1 + s.f Reg.drcRanks2
def State.dramCap (s : State) : Nat := s.dramRanks * rankMiB (s.bitF Reg.drcX16) (s.f Reg.drcDensity)

/-- A data capacity the device supports (R379). -/
def State.dramSupported (s : State) : Bool := 1024 ≤ s.dramCap && s.dramCap ≤ 8192 && s.f Reg.drcDensity ≤ 2

/-- Rank, bank (bank group above bank address) and row of a device DRAM address (R383). -/
def State.dramPlace (s : State) (addr : Nat) : Nat × Nat × Nat :=
  let g := if s.bitF Reg.drcX16 then 1 else 2
  let r := rowBits (s.f Reg.drcDensity)
  let rank := if s.dramRanks = 2 then addr / (s.dramCap * 2 ^ 19) else 0
  let a := addr / 32
  let order := s.f Reg.drcMap
  let bg := if order = 0 then a / 2 ^ 7 % 2 ^ g else if order = 2 then a / 2 ^ (9 + r) % 2 ^ g else a % 2 ^ g
  let ba := if order = 0 then a / 2 ^ (7 + g) % 4 else if order = 2 then a / 2 ^ (7 + r) % 4 else a / 2 ^ g % 4
  let row := if order = 2 then a / 2 ^ 7 % 2 ^ r else a / 2 ^ (9 + g) % 2 ^ r
  let bg1 := if order = 3 then bg ^^^ (row % 2 ^ g) else bg
  let ba1 := if order = 3 then ba ^^^ (row / 2 ^ g % 4) else ba
  (rank, 4 * bg1 + ba1, row)

/-! ### Reinitialisation (R397 to R399) -/

/-- Ask for a reinitialisation at the next refresh boundary. -/
def State.askReinit (s : State) : State :=
  if s.bitF Reg.drcReinit then s else (s.setF Reg.drcReinit 1).record 0x4030 Src.dram

/-- Copies of moves under way are abandoned (R326, R398). -/
def State.abandonMoves (s : State) : State :=
  (List.range 8).foldl (fun t ch =>
    let c := t.fchan ch
    let isMove (o : FOp) : Bool := match o.load with
      | .move _ => true
      | .rebuild _ _ => true
      | _ => false
    let gone := c.queue.filter isMove
    let c1 := { c with
      queue := c.queue.filter fun o => !isMove o
      cur := c.cur.map fun o => if isMove o then { o with load := .none, kind := 6 } else o }
    (gone ++ c.cur.toList.filter isMove).foldl State.opUndone (t.setFchan ch c1)) s

/-- Read counts as after an unclean start: the checkpoint's, and 25 % of the limit (R332). -/
def State.restoreReads (s : State) : State :=
  { s with nv.luns := s.nv.luns.map fun (l : Nat × Lun) =>
      let e := s.lunEntry l.1
      (l.1, { l.2 with blocks := l.2.blocks.map fun (b : Nat × FBlock) =>
        (b.1, { b.2 with reads := b.2.savedReads + lunDisturb e (b.2.cell = 1) / 4 }) }) }

/-- Commands whose transfer uses DRAM end with ABORTED_RESET (R398). -/
def State.abortTransit (s : State) : State :=
  ((s.rings.flatMap fun r => r.2.cmds).filter fun c => c.stage == .moving && c.descs.any fun d => d.transit).foldl
    (fun t c => t.complete c 0x0700 []) s

/-- The DRAM contents are lost, and the memory is initialised again (R398). -/
def State.startReinit (s : State) : State :=
  let s1 := s.abandonMoves.restoreReads.abortTransit
  { s1.countF Reg.parReinit 1 with
    dram := { s1.dram with initing := true, acts := [], written := [], retry := [] }
    str := { s1.str with loaded := [] } }

/-! ### Initialisation (R381, R382, R384) -/

/-- DRAM_ENABLE (R384): Keystone writes 1 to `DRC_CTRL.EN`. With rate 0 in the description the controller detects ranks,
width and density (R382): `found` holds them. -/
def State.enableDram (s : State) (found : Option (Bool × Bool × BitVec 2)) : State :=
  let s1 := match found with
    | some (two, x16, d) =>
      (((((((s.setF Reg.drcRate 1).setF Reg.drcCl 11).setF Reg.drcCwl 9).setF Reg.drcMap 3).setF Reg.drcRdbi 0).setF
        Reg.drcRanks2 (b2n two)).setF Reg.drcX16 (b2n x16)).setF Reg.drcDensity d.toNat
    | none => s
  let s2 := if found.isSome then s1.setF Reg.ratThresh 8192 else s1
  { (s2.setF Reg.drcEn 1).setF Reg.drcIdle 0 with dram.initing := true }

def execDramEnable (p : Path) (found : Option (Bool × Bool × BitVec 2)) (s : State) : Result :=
  s.asWrite fun t => match p with
  | .pcie => t.ignoredWrite
  | .keystone => if t.bitF Reg.drcEn ∨ (t.dev ≠ .starting ∧ t.dev ≠ .rom) then t else t.enableDram found

/-- An initialisation has passed (R384). -/
def State.dramPassed (s : State) : State :=
  let s1 := { s with dram := { s.dram with
      up := true, initing := false, ranks := s.dramRanks, capMiB := s.dramCap, debt0 := 8, debt1 := 8, acts := [], written := []
      lastZqcs := s.time.uptime, railBad := false, uncorr := [] } }
  let s2 := ((((s1.setF Reg.drcReinit 0).setF Reg.drcSet (s.f Reg.band)).setF Reg.drcIfail 0).setF Reg.drcRfail 0).setF
    Reg.drcReplay 0
  s2.record 0x4001 Src.dram (s.f Reg.drcRate) s.dramRanks s.dramCap

/-- A reinitialisation has failed: three in a row restart the logic die with a drain (R399). -/
def State.reinitFailed (s : State) : State :=
  let k := min 3 (s.f Reg.drcIfail + 1)
  let s1 := { s.setF Reg.drcIfail k with dram.initing := false }
  if k = 3 then ({ s1.record 0x4031 Src.dram with bas.nextSrc := 3 }).freezeNow .restart true
  else s1.setF Reg.drcReinit 1

/-- DRAM_INIT_COMPLETE (R384, R398, R399): the failing step, 0 for none. -/
def execDramInitComplete (step : Fin 5) (s : State) : Result :=
  if ¬ s.dram.initing ∨ ¬ s.dieUp ∨ s.bas.freeze then ok s
  else if step.val = 0 ∧ s.dramSupported then ok s.dramPassed
  else if s.dram.up then ok s.reinitFailed
  else ok (({ s with dram.initing := false }.record 0x4002 Src.dram step.val).enterBedrock 3)

/-! ### Refresh (R386 to R390) -/

/-- Changes staged for a refresh boundary (R388, R390). -/
def State.refreshBoundary (s : State) : State :=
  let s1 := s.takeStaged [Reg.postpone]
  let s2 := if s1.f Reg.drcSet = s1.f Reg.band then s1
    else (s1.setF Reg.drcSet (s1.f Reg.band)).record 0x4050 Src.dram (s1.f Reg.band)
  let s3 := if s2.dram.lastZqcs + msTicks 128 ≤ s2.time.uptime then { s2 with dram.lastZqcs := s2.time.uptime } else s2
  if s3.bitF Reg.drcReinit ∧ ¬ s3.dram.initing ∧ ¬ s3.dram.alert ∧ ¬ s3.dram.railBad then s3.startReinit
  else if s3.bitF Reg.drcReinit ∧ s3.dram.alert then s3.reinitFailed
  else s3

/-- REFRESH_INTERVAL (R387, R388): tREFI passes for a rank, which has no waiting access if `idle`. Debts are held as
debt + 8. -/
def execRefreshInterval (rank : Fin 2) (idle : Bool) (s : State) : Result :=
  if ¬ s.dram.up ∨ s.dram.initing ∨ s.bas.freeze ∨ ¬ s.dieUp ∨ s.dram.ranks ≤ rank.val then ok s
  else
    let d := min 16 ((if rank.val = 0 then s.dram.debt0 else s.dram.debt1) + 1)
    let refresh := (idle && decide (0 < d)) || decide (8 + s.f Reg.postpone ≤ d)
    let e := if refresh then d - 1 else d
    let s1 := if rank.val = 0 then { s with dram.debt0 := e } else { s with dram.debt1 := e }
    ok (if refresh ∧ rank.val = 0 then s1.refreshBoundary else s1)

/-- REFRESH_WINDOW_START (R392): every activation table is cleared; THRESH takes its staged value. -/
def execRefreshWindowStart (s : State) : Result :=
  if s.dram.up ∧ s.dieUp then ok (({ s with dram.acts := [] }).takeStaged [Reg.ratThresh]) else ok s

/-! ### Row activations (R392, R393) -/

/-- One ACT of a row against a bank's table: the table after it and the row's estimate. -/
def actTable (row : Nat) (t : List (Nat × Nat)) : List (Nat × Nat) × Nat :=
  match t.find? fun e => e.1 == row with
  | some (_, n) => (t.map (fun e => if e.1 = row then (row, min 0xFFFF (n + 1)) else e), min 0xFFFF (n + 1))
  | none =>
    if t.length < 32 then (t ++ [(row, 1)], 1)
    else
      let low := t.foldl (fun m e => min m e.2) 0xFFFF
      let i := t.findIdx fun e => e.2 == low
      (t.set i (row, min 0xFFFF (low + 1)), min 0xFFFF (low + 1))

/-- An activation at an address; at a multiple of THRESH the neighbours are refreshed (R393). -/
def State.activate (s : State) (addr : Nat) : State :=
  let p := s.dramPlace addr
  let key := 16 * p.1 + p.2.1
  let r := actTable p.2.2 (s.dram.acts.get [] key)
  let s1 := { s with dram.acts := s.dram.acts.put key r.1 }
  let t := s.f Reg.ratThresh
  if t ≠ 0 ∧ r.2 % t = 0 then ((s1.bump 0x1D).countF Reg.ratCnt 1).record 0x4040 Src.dram key p.2.2 else s1

/-! ### Check bits (R400, R401) -/

/-- Latch the address of an error: burst index, uncorrectable, beat. -/
def State.latchEcc (s : State) (addr : Nat) (bad : Bool) : State :=
  s.setF Reg.eccAddr (addr / 32 % 2 ^ 28 + 2 ^ 28 * b2n bad + 2 ^ 29 * (addr / 4 % 8))

/-- A corrected error (R400). -/
def State.eccCorrected (s : State) (addr : Nat) : State :=
  (((s.latchEcc addr false).countF Reg.eccCorr 1).bump 0x1A).record 0x4010 Src.dram (addr % 2 ^ 32)

/-- An uncorrectable error (R400): its consumer by the row of the rule's table, from 0. -/
def State.eccUncorrectable (s : State) (addr consumer : Nat) : State :=
  let us := s.time.uptime :: s.dram.uncorr.filter fun t => s.time.uptime < t + msTicks 1000
  let s1 := ((((s.latchEcc addr true).countF Reg.eccUncorr 1).bump 0x1B).record 0x4011 Src.dram (addr % 2 ^ 32) consumer)
  let s2 := { s1 with dram.uncorr := us }
  let s3 := if consumer = 1 then s2.abandonMoves else if consumer = 2 then s2.bump 0x13 else if consumer = 4 then s2.restoreReads else s2
  if 16 ≤ us.length then s3.askReinit else s3

/-- What the controller met while it read. -/
def State.dramFact (s : State) (f : DramFact) : State :=
  match f with
  | .activation a => s.activate a.toNat
  | .corrected a => s.eccCorrected a.toNat
  | .uncorrectable a c => s.eccUncorrectable a.toNat c.val
  | .write a => { s with dram.written := if s.dram.written.contains (a.toNat / 2 ^ 20) then s.dram.written else a.toNat / 2 ^ 20 :: s.dram.written }

/-- SCRUB_PASS (R385, R401): the written regions are read once; `facts` lists what that met. -/
def execScrubPass (facts : List DramFact) (s : State) : Result :=
  if s.dram.up ∧ ¬ s.dram.initing ∧ s.dieUp ∧ ¬ s.bas.freeze then ok (facts.foldl State.dramFact s) else ok s

/-! ### Command parity (R395 to R397) -/

/-- A replay has failed: the third in a row asks for a reinitialisation (R397). -/
def State.replayFailed (s : State) : State :=
  let k := min 3 (s.f Reg.drcRfail + 1)
  let s1 := s.setF Reg.drcRfail k
  if k = 3 then (s1.setF Reg.drcReplay 0).askReinit else s1

/-- DRAM_PARITY_ALERT (R396): D_ALERT_n goes low, and the controller stops. -/
def execDramParityAlert (s : State) : Result :=
  if s.dram.up ∧ s.dieUp ∧ ¬ s.dram.alert then
    ok (({ s with dram.alert := true }.countF Reg.parAlerts 1).setF Reg.drcReplay 1)
  else ok s

/-- D_ALERT_N_HIGH (R396, R397): the buffered commands are replayed; `again`: D_ALERT_n fell before they were complete. -/
def execDAlertNHigh (rank : Fin 2) (replayed : BitVec 5) (again : Bool) (s : State) : Result :=
  if ¬ s.dram.alert ∨ ¬ s.dieUp then ok s
  else if ¬ s.bitF Reg.drcReplay then ok { s with dram.alert := false }
  else if again then ok (s.countF Reg.parAlerts 1).replayFailed
  else
    let s1 := (({ s with dram.alert := false }.setF Reg.drcReplay 0).setF Reg.drcRfail 0)
    ok ((s1.record 0x4020 Src.dram rank.val replayed.toNat).bump 0x1C)

/-- ALERT_TIMEOUT (R397): D_ALERT_n stays low beyond 2 µs. -/
def execAlertTimeout (s : State) : Result :=
  if s.dram.alert ∧ s.bitF Reg.drcReplay ∧ s.dieUp then ok s.replayFailed else ok s

/-! ### Rails (R72, R399) -/

/-- The number of a rail in event 0x0030 (PRESUMED: the spec gives no numbers; its order of R72). -/
def railCode : Rail → Nat
  | .vmid => 0 | .v3v3 => 1 | .vcore => 2 | .vddq => 3 | .vppOut => 4 | .fvccOut => 5 | .vccqOut => 6

/-- The rail's fault stops the DRAM only. -/
def dramRail (r : Rail) : Bool := r = .vddq || r = .vppOut

/-- A rail fault: the alert, event 0x0030 and its count, then the rail's action (R72). -/
def State.railFault (s : State) (code : Nat) (dram : Bool) : State :=
  let s1 := (({ s with bas.alert := true }.raise 0 6).record 0x0030 Src.basalt code).bump 0x05
  if dram then { s1 with dram := { s1.dram with railBad := true } } else s1.freezeNow .railFault false

/-- RAIL_FAULT (R72). -/
def execRailFault (r : Rail) (s : State) : Result :=
  if ¬ s.dieUp ∨ s.bas.badRails.contains r then ok s
  else ok (({ s with bas.badRails := r :: s.bas.badRails }).railFault (railCode r) (dramRail r))

/-- RAIL_RECOVERY (R399): VDDQ or VPP_OUT is within tolerance again; the reinitialisation follows. -/
def execRailRecovery (r : Rail) (s : State) : Result :=
  if ¬ dramRail r ∨ ¬ s.bas.badRails.contains r then ok s
  else
    let left := s.bas.badRails.filter fun x => x ≠ r
    let s1 := { s with
      bas := { s.bas with badRails := left, alert := !left.isEmpty }
      dram := { s.dram with railBad := left.any dramRail } }
    ok (if s1.dram.up ∧ ¬ s1.dram.railBad ∧ s1.dieUp then s1.askReinit else s1)

/-! ### The junction sensor (R593 to R596) -/

/-- A new band and the ledger that follows it (R80, R84). -/
def State.setBand (s : State) (b : Nat) : State :=
  if s.f Reg.band = b then s else (s.setF Reg.band b).settleLedger s.closedAll

/-- JUNCTION_SENSOR_READ (R593, R595, R596): the reading of one millisecond, in °C. One of 163 or more stands for the whole
millisecond (DEDUCED). -/
def execJunctionSensorRead (t : Int) (s : State) : Result :=
  if ¬ s.bas.inputOn then ok s
  else if ¬ s.dieUp then ok { s with junction := t }
  else
    let s1 := { s with junction := t, fl.row := retentionRow (t + s.tOffset), fl.hot := decide (150 < t) }
    let s2 := s1.setBand (bandAfter (s.f Reg.band) t)
    ok (if 163 ≤ t ∧ ¬ s.bas.freeze then s2.railFault 0xFF false else s2)

end Sys2Proof.Machine
end

