-- ==== Sys2Proof/Machine/Flags.lean ====
section
/-! DEFINITION. The Belion flags: how results set Z, N, C and V, and the conditions of branches
(07_belion_model_and_encoding.md, R137, R146). -/

namespace Sys2Proof.Machine

/-- Z and N from a result. -/
def Engine.flagZN (x : Engine) (r : Word) : Engine := { x with z := r == 0#32, n := r.msb }

/-- Carry out of a + b + c. -/
def carryOf (a b : Word) (c : Bool) : Bool := 2 ^ 32 ≤ a.toNat + b.toNat + b2n c
/-- Signed overflow of a + b + c, whose low 32 bits are `r`. -/
def overOf (a b r : Word) : Bool := a.msb == b.msb && r.msb != a.msb

/-- Z, N, C, V of a + b + c with result `r`; a subtraction adds the complement of b with c = 1, so that C is 1 when there is no
borrow. -/
def Engine.flagAdd (x : Engine) (a b r : Word) (c : Bool) : Engine :=
  { x.flagZN r with c := carryOf a b c, v := overOf a b r }

/-- a + b + c, low 32 bits. -/
def sumOf (a b : Word) (c : Bool) : Word := a + b + BitVec.ofNat 32 (b2n c)

/-- The last bit a shift moves out; none for an amount of 0. -/
def outLeft (a : Word) (n : Nat) : Option Bool := if n = 0 then none else some (a.getLsbD (32 - n))
def outRight (a : Word) (n : Nat) : Option Bool := if n = 0 then none else some (a.getLsbD (n - 1))

/-- Z and N from a result and C from the last bit shifted out. -/
def Engine.flagShift (x : Engine) (r : Word) (out : Option Bool) : Engine :=
  { x.flagZN r with c := out.getD x.c }

/-- The conditions by number; 15 is none (R144). -/
def Engine.cond (x : Engine) (k : Nat) : Bool :=
  match k with
  | 0 => true
  | 1 => x.z
  | 2 => !x.z
  | 3 => x.c
  | 4 => !x.c
  | 5 => x.c && !x.z
  | 6 => !x.c || x.z
  | 7 => x.n == x.v
  | 8 => x.n != x.v
  | 9 => !x.z && x.n == x.v
  | 10 => x.z || x.n != x.v
  | 11 => x.n
  | 12 => !x.n
  | 13 => x.v
  | 14 => !x.v
  | _ => false

end Sys2Proof.Machine
end

