-- ==== Sys2Proof/Machine/Operands.lean ====
section
/-! DEFINITION. Belion operands: the registers of an engine, the four instruction formats as words, and an engine's data memory
(07_belion_model_and_encoding.md, R136, R141, R144). -/

namespace Sys2Proof.Machine

/-! ### Registers (R136) -/

/-- A register; k0 reads as 0. -/
def Engine.reg (x : Engine) (r : BitVec 4) : Word := if r = 0 then 0 else x.k.get 0 r.toNat
/-- Write a register; a write to k0 is discarded. -/
def Engine.setReg (x : Engine) (r : BitVec 4) (v : Word) : Engine :=
  if r = 0 then x else { x with k := x.k.set 0 r.toNat v }

/-- simm and uimm of format B. -/
def simm (i : BitVec 16) : Word := i.signExtend 32
def uimm (i : BitVec 16) : Word := i.setWidth 32

/-! ### The formats (R144) -/

/-- Format A. -/
def fmtA (major func : Nat) (kd ka kb : BitVec 4) (f : Bool) : Word :=
  BitVec.ofNat 32 (major * 2 ^ 26 + kd.toNat * 2 ^ 22 + ka.toNat * 2 ^ 18 + kb.toNat * 2 ^ 14 + b2n f * 2 ^ 13 + func)
/-- Format B. -/
def fmtB (major : Nat) (kd ka : BitVec 4) (f : Bool) (imm : BitVec 16) : Word :=
  BitVec.ofNat 32 (major * 2 ^ 26 + kd.toNat * 2 ^ 22 + ka.toNat * 2 ^ 18 + b2n f * 2 ^ 16 + imm.toNat)
/-- Format C. -/
def fmtC (major : Nat) (cond : BitVec 4) (off : BitVec 22) : Word :=
  BitVec.ofNat 32 (major * 2 ^ 26 + cond.toNat * 2 ^ 22 + off.toNat)
/-- Format D. -/
def fmtD (major sub : Nat) (kd ka : BitVec 4) (operand : BitVec 12) : Word :=
  BitVec.ofNat 32 (major * 2 ^ 26 + kd.toNat * 2 ^ 22 + ka.toNat * 2 ^ 18 + sub * 2 ^ 12 + operand.toNat)

/-- "value" of a format D operation: ka plus the zero-extended operand. -/
def valueOf (a : Word) (operand : BitVec 12) : Nat := (a + operand.setWidth 32).toNat

/-! ### Engine kinds and memories -/

/-- 0 Keystone, 1 hook sandbox, 2 Vein. -/
def kindOf (e : Nat) : Nat := if e = 0 then 0 else if e = 1 then 1 else 2
/-- Program memory in bytes. -/
def progSize (e : Nat) : Nat := if e = 0 then 0x10000 else if e = 1 then 0x2000 else 0x4000
/-- Data memory in bytes, from address 0 of the engine's data space. -/
def dataSize (e : Nat) : Nat := if e = 0 then 0x8000 else if e = 1 then 0x800 else 0x1000

/-- The engine that holds a data memory, and where an address lies in it: the sandbox window is Keystone's (R141). -/
def dataHome (e : Nat) : Nat := if e = 1 then 0 else e
def dataPlace (e a : Nat) : Nat := if e = 1 then 0x7800 + a else a

/-- Bytes of an engine's data memory. -/
def State.dataBytes (s : State) (e a n : Nat) : Bytes := (s.eng.get {} (dataHome e)).data.bytes (dataPlace e a) n

/-- Store bytes in an engine's data memory. -/
def State.setData (s : State) (e a : Nat) (b : Bytes) : State :=
  let x := s.eng.get {} (dataHome e)
  { s with eng := s.eng.set {} (dataHome e) { x with data := x.data.setBytes (dataPlace e a) b } }

end Sys2Proof.Machine
end

