-- ==== Sys2Proof/Machine/Belion.lean ====
section
/-! DEFINITION. The Belion instructions that reach no register window: arithmetic, branches, events, mailbox, tables and time
(07_belion_model_and_encoding.md), and one instruction's run with its faults (R135, R144 to R155). A command names the engine
and the instruction it executes next (DESIGN CHOICE: the word at the PC is not compared with it). -/

namespace Sys2Proof.Machine

/-! ### Faults (R154, R155) -/

/-- The sandbox stops with the supervisor program (R155, R177). -/
def State.stopHooks (s : State) : State :=
  let x := s.engine 1
  { s.setEngine 1 { x with run := false, waiting := none } with hooks := { s.hooks with busy := false, queue := [] } }

/-- The K commands under way end with ABORTED_RESET, and nothing of them is applied: a HOOK_LOAD that waits, and a self-test,
whose record reads interrupted (R264, R287). -/
def State.abortK (s : State) : State :=
  let s1 := match s.selfTest with
    | some t => (s.record 0x9004 Src.selfTest t.kind).endSelfRecord t 3 0 0
    | none => s
  ((s1.ring 0).cmds.filter fun c => (c.opcode == 0x48 && c.stage == .running) || (c.opcode == 0x52 && c.stage == .held)).foldl
    (fun t c => t.complete c 0x0700 []) s1

/-- What follows when the supervisor program stops (R155): in service no hook runs, and the device is degraded. -/
def State.supervisorStopped (s : State) : State :=
  if s.dev = .rom ∨ s.dev = .starting then s
  else if s.dev.minimal then s.stopHooks.regrade
  else s.stopHooks.abortK.regrade

/-- The event code and source of an engine's fault. -/
def faultEvent (e : Nat) : Nat × Nat :=
  if e = 0 then (0x1050, Src.keystone) else if e = 1 then (0xA010, Src.hook) else (0x3050, Src.channel (e - 2))

/-- An engine faults at byte address `at_` on a word. -/
def State.engineFault (s : State) (e cause at_ : Nat) (word : Word) : State :=
  let x := s.engine e
  let s1 := s.setEngine e
    { x with run := false, stepping := false, waiting := none, fault := true, cause := cause, fpc := at_ / 4 }
  let s2 := s1.record (faultEvent e).1 (faultEvent e).2 cause at_ e word.toNat
  if e = 0 then (s2.bump 0x0A).supervisorStopped
  else if e = 1 then (if s2.hooks.busy then (s2.bump 0x53).abandonHook else s2)
  else s2.failChannel (e - 2)

/-! ### One instruction (R135, R145, R149) -/

/-- What an instruction's body answers: its effect with the next PC in sequence, a jump, an instruction that is not over yet,
or a fault before any effect. -/
inductive Ran
  | done (s : State)
  | jump (s : State) (target : Nat)
  | stay (s : State)
  | fault (cause : Nat)
  deriving DecidableEq, Repr

/-- The engine executes instructions now: Keystone and the sandbox halt at FREEZE (R93). -/
def State.engineRuns (s : State) (e : Nat) : Bool :=
  let x := s.engine e
  s.dieUp && (x.run && !x.dbg || x.stepping) && x.waiting.isNone && !(s.bas.freeze && e < 2)

/-- Set an engine's PC. -/
def State.setPc (s : State) (e pc : Nat) : State := s.setEngine e { s.engine e with pc := pc }

/-- The next instruction in sequence; past the last word of program memory the engine faults at the word executed (R149). -/
def State.advance (s : State) (e pc : Nat) (word : Word) : State :=
  if pc + 4 < progSize e ∨ ¬ ((s.engine e).run || (s.engine e).stepping) then s.setPc e (pc + 4) else s.engineFault e 5 pc word

/-- A jump to a byte address (R149). -/
def State.jumpTo (s t : State) (e pc target : Nat) (word : Word) : State :=
  if target % 4 ≠ 0 then s.engineFault e 3 pc word
  else if progSize e ≤ target then s.engineFault e 5 pc word
  else t.setPc e target

/-- Run one instruction with its word on engine `e`; `kinds` has a bit per permitted engine kind (R145). -/
def State.run (s : State) (e : Fin 10) (kinds : Nat) (word : Word) (f : State → Engine → Ran) : Result :=
  let x := s.engine e.val
  if ¬ s.engineRuns e.val then ok s
  else if ¬ bit kinds (kindOf e.val) then ok (s.engineFault e.val 2 x.pc word)
  else match f s x with
    | .done t => ok (t.advance e.val x.pc word)
    | .jump t a => ok (s.jumpTo t e.val x.pc a word)
    | .stay t => ok t
    | .fault c => ok (s.engineFault e.val c x.pc word)

/-- ILLEGAL_INSTRUCTION (R143, R144): the engine fetches a word that is none of its instructions, or one with a parity error. -/
def execIllegalInstruction (e : Fin 10) (word : Word) (parity : Bool) (s : State) : Result :=
  s.run e 7 word fun _ _ => .fault (if parity then 6 else 1)

/-! ### Arithmetic and logic, major 0x01 -/

/-- A format A operation on two registers; its flags when S is 1. -/
def State.opA (s : State) (e : Fin 10) (func : Nat) (kd ka kb : BitVec 4) (f : Bool)
    (op : Engine → Word → Word → Word) (fl : Engine → Word → Word → Word → Engine) : Result :=
  s.run e 7 (fmtA 1 func kd ka kb f) fun s x =>
    let a := x.reg ka
    let b := x.reg kb
    let r := op x a b
    .done (s.setEngine e.val ((if f then fl x a b r else x).setReg kd r))

/-- Flags Z and N only. -/
def zn (x : Engine) (_ _ r : Word) : Engine := x.flagZN r

/-- CLZ. -/
def leadingZeros (a : Word) : Nat := ((List.range 32).takeWhile fun i => !a.getLsbD (31 - i)).length
/-- POPC. -/
def ones (a : Word) : Nat := ((List.range 32).filter fun i => a.getLsbD i).length
/-- BSWAP. -/
def swapBytes (a : Word) : Word := BitVec.ofNat 32 (beNat (natLe 4 a.toNat))
/-- Amount of a shift. -/
def amount (b : Word) : Nat := b.toNat % 32

def execAdd (e : Fin 10) (kd ka kb : BitVec 4) (f : Bool) (s : State) : Result :=
  s.opA e 0x000 kd ka kb f (fun _ a b => sumOf a b false) fun x a b r => x.flagAdd a b r false
def execAdc (e : Fin 10) (kd ka kb : BitVec 4) (f : Bool) (s : State) : Result :=
  s.opA e 0x001 kd ka kb f (fun x a b => sumOf a b x.c) fun x a b r => x.flagAdd a b r x.c
def execSub (e : Fin 10) (kd ka kb : BitVec 4) (f : Bool) (s : State) : Result :=
  s.opA e 0x002 kd ka kb f (fun _ a b => sumOf a (~~~b) true) fun x a b r => x.flagAdd a (~~~b) r true
def execSbc (e : Fin 10) (kd ka kb : BitVec 4) (f : Bool) (s : State) : Result :=
  s.opA e 0x003 kd ka kb f (fun x a b => sumOf a (~~~b) x.c) fun x a b r => x.flagAdd a (~~~b) r x.c
def execAnd (e : Fin 10) (kd ka kb : BitVec 4) (f : Bool) (s : State) : Result :=
  s.opA e 0x004 kd ka kb f (fun _ a b => a &&& b) zn
def execOr (e : Fin 10) (kd ka kb : BitVec 4) (f : Bool) (s : State) : Result :=
  s.opA e 0x005 kd ka kb f (fun _ a b => a ||| b) zn
def execXor (e : Fin 10) (kd ka kb : BitVec 4) (f : Bool) (s : State) : Result :=
  s.opA e 0x006 kd ka kb f (fun _ a b => a ^^^ b) zn
def execAndn (e : Fin 10) (kd ka kb : BitVec 4) (f : Bool) (s : State) : Result :=
  s.opA e 0x007 kd ka kb f (fun _ a b => a &&& ~~~b) zn
def execShl (e : Fin 10) (kd ka kb : BitVec 4) (f : Bool) (s : State) : Result :=
  s.opA e 0x008 kd ka kb f (fun _ a b => a <<< amount b) fun x a b r => x.flagShift r (outLeft a (amount b))
def execShr (e : Fin 10) (kd ka kb : BitVec 4) (f : Bool) (s : State) : Result :=
  s.opA e 0x009 kd ka kb f (fun _ a b => a >>> amount b) fun x a b r => x.flagShift r (outRight a (amount b))
def execSar (e : Fin 10) (kd ka kb : BitVec 4) (f : Bool) (s : State) : Result :=
  s.opA e 0x00A kd ka kb f (fun _ a b => a.sshiftRight (amount b)) fun x a b r => x.flagShift r (outRight a (amount b))
def execRor (e : Fin 10) (kd ka kb : BitVec 4) (f : Bool) (s : State) : Result :=
  s.opA e 0x00B kd ka kb f (fun _ a b => a.rotateRight (amount b)) fun x a b r => x.flagShift r (outRight a (amount b))
def execMul (e : Fin 10) (kd ka kb : BitVec 4) (f : Bool) (s : State) : Result :=
  s.opA e 0x00C kd ka kb f (fun _ a b => a * b) zn
def execMulhu (e : Fin 10) (kd ka kb : BitVec 4) (f : Bool) (s : State) : Result :=
  s.opA e 0x00D kd ka kb f (fun _ a b => BitVec.ofNat 32 (a.toNat * b.toNat / 2 ^ 32)) zn
def execMinu (e : Fin 10) (kd ka kb : BitVec 4) (f : Bool) (s : State) : Result :=
  s.opA e 0x00E kd ka kb f (fun _ a b => if a.toNat ≤ b.toNat then a else b) zn
def execMaxu (e : Fin 10) (kd ka kb : BitVec 4) (f : Bool) (s : State) : Result :=
  s.opA e 0x00F kd ka kb f (fun _ a b => if a.toNat ≤ b.toNat then b else a) zn
def execClz (e : Fin 10) (kd ka : BitVec 4) (f : Bool) (s : State) : Result :=
  s.opA e 0x012 kd ka 0 f (fun _ a _ => BitVec.ofNat 32 (leadingZeros a)) zn
def execPopc (e : Fin 10) (kd ka : BitVec 4) (f : Bool) (s : State) : Result :=
  s.opA e 0x013 kd ka 0 f (fun _ a _ => BitVec.ofNat 32 (ones a)) zn
def execBswap (e : Fin 10) (kd ka : BitVec 4) (f : Bool) (s : State) : Result :=
  s.opA e 0x014 kd ka 0 f (fun _ a _ => swapBytes a) zn
def execCrcw (e : Fin 10) (kd ka kb : BitVec 4) (f : Bool) (s : State) : Result :=
  s.opA e 0x020 kd ka kb f (fun _ a b => crcRun a (natLe 4 b.toNat)) zn

/-- CMP and TST: flags only; S is ignored. -/
def execCmp (e : Fin 10) (ka kb : BitVec 4) (f : Bool) (s : State) : Result :=
  s.run e 7 (fmtA 1 0x010 0 ka kb f) fun s x =>
    let b := ~~~(x.reg kb)
    .done (s.setEngine e.val (x.flagAdd (x.reg ka) b (sumOf (x.reg ka) b true) true))
def execTst (e : Fin 10) (ka kb : BitVec 4) (f : Bool) (s : State) : Result :=
  s.run e 7 (fmtA 1 0x011 0 ka kb f) fun s x => .done (s.setEngine e.val (x.flagZN (x.reg ka &&& x.reg kb)))

/-! ### Immediate operations -/

/-- A format B operation on a register and an immediate. -/
def State.opB (s : State) (e : Fin 10) (major : Nat) (kd ka : BitVec 4) (f : Bool) (imm : BitVec 16)
    (op : Word → Word) (fl : Engine → Word → Word → Engine) : Result :=
  s.run e 7 (fmtB major kd ka f imm) fun s x =>
    let a := x.reg ka
    let r := op a
    .done (s.setEngine e.val ((if f then fl x a r else x).setReg kd r))

def execAddi (e : Fin 10) (kd ka : BitVec 4) (f : Bool) (imm : BitVec 16) (s : State) : Result :=
  s.opB e 0x02 kd ka f imm (fun a => sumOf a (simm imm) false) fun x a r => x.flagAdd a (simm imm) r false
def execAndi (e : Fin 10) (kd ka : BitVec 4) (f : Bool) (imm : BitVec 16) (s : State) : Result :=
  s.opB e 0x03 kd ka f imm (fun a => a &&& uimm imm) fun x _ r => x.flagZN r
def execOri (e : Fin 10) (kd ka : BitVec 4) (f : Bool) (imm : BitVec 16) (s : State) : Result :=
  s.opB e 0x04 kd ka f imm (fun a => a ||| uimm imm) fun x _ r => x.flagZN r
def execXori (e : Fin 10) (kd ka : BitVec 4) (f : Bool) (imm : BitVec 16) (s : State) : Result :=
  s.opB e 0x05 kd ka f imm (fun a => a ^^^ uimm imm) fun x _ r => x.flagZN r

def execCmpi (e : Fin 10) (ka : BitVec 4) (f : Bool) (imm : BitVec 16) (s : State) : Result :=
  s.run e 7 (fmtB 0x06 0 ka f imm) fun s x =>
    let b := ~~~(simm imm)
    .done (s.setEngine e.val (x.flagAdd (x.reg ka) b (sumOf (x.reg ka) b true) true))

def execShli (e : Fin 10) (kd ka : BitVec 4) (f : Bool) (n : BitVec 5) (s : State) : Result :=
  s.opB e 0x07 kd ka f (n.setWidth 16) (fun a => a <<< n.toNat) fun x a r => x.flagShift r (outLeft a n.toNat)
def execShri (e : Fin 10) (kd ka : BitVec 4) (f : Bool) (n : BitVec 5) (s : State) : Result :=
  s.opB e 0x08 kd ka f (n.setWidth 16) (fun a => a >>> n.toNat) fun x a r => x.flagShift r (outRight a n.toNat)
def execSari (e : Fin 10) (kd ka : BitVec 4) (f : Bool) (n : BitVec 5) (s : State) : Result :=
  s.opB e 0x09 kd ka f (n.setWidth 16) (fun a => a.sshiftRight n.toNat) fun x a r => x.flagShift r (outRight a n.toNat)
def execLui (e : Fin 10) (kd : BitVec 4) (imm : BitVec 16) (s : State) : Result :=
  s.opB e 0x0A kd 0 false imm (fun _ => uimm imm <<< 16) fun x _ _ => x

/-! ### Branches and jumps (R146, R149) -/

/-- A format C target: the branch's address plus 4 × offset, as a 32-bit byte address. -/
def branchTarget (pc : Nat) (off : BitVec 22) : Nat := (BitVec.ofNat 32 pc + (off.signExtend 32 <<< 2)).toNat

def execBCond (e : Fin 10) (cond : BitVec 4) (off : BitVec 22) (s : State) : Result :=
  s.run e 7 (fmtC 0x20 cond off) fun s x =>
    if cond = 15 then .fault 1
    else if x.cond cond.toNat then .jump s (branchTarget x.pc off)
    else .done s

def execCallCond (e : Fin 10) (cond : BitVec 4) (off : BitVec 22) (s : State) : Result :=
  s.run e 7 (fmtC 0x21 cond off) fun s x =>
    if cond = 15 then .fault 1
    else if x.cond cond.toNat then
      .jump (s.setEngine e.val (x.setReg 15 (BitVec.ofNat 32 (x.pc + 4)))) (branchTarget x.pc off)
    else .done s

def execJr (e : Fin 10) (ka : BitVec 4) (imm : BitVec 16) (s : State) : Result :=
  s.run e 7 (fmtB 0x22 0 ka false imm) fun s x => .jump s (x.reg ka + simm imm).toNat

def execJalr (e : Fin 10) (kd ka : BitVec 4) (imm : BitVec 16) (s : State) : Result :=
  s.run e 7 (fmtB 0x23 kd ka false imm) fun s x =>
    .jump (s.setEngine e.val (x.setReg kd (BitVec.ofNat 32 (x.pc + 4)))) (x.reg ka + simm imm).toNat

/-! ### Events (R139, R140, R150, R151) -/

/-- The masked flags, returned and cleared in one step. -/
def Engine.takeFlags (x : Engine) (kd : BitVec 4) (mask : BitVec 16) : Engine :=
  ({ x with ev := x.ev &&& ~~~mask }).setReg kd ((x.ev &&& mask).setWidth 32)

/-- A WAIT returns: on an event with its flags, on expiry with 0. -/
def Engine.endWait (x : Engine) (kd : BitVec 4) (mask : BitVec 16) (expired : Bool) : Engine :=
  let y := { x with waiting := none, n := false, z := expired }
  if expired then y.setReg kd 0 else y.takeFlags kd mask

/-- WAIT: returns at once when a masked flag is set, else the engine waits. -/
def execWait (e : Fin 10) (kd ka : BitVec 4) (f : Bool) (mask : BitVec 16) (s : State) : Result :=
  s.run e 7 (fmtB 0x24 kd ka f mask) fun s x =>
    if mask = 0 ∧ x.reg ka = 0 then .fault 1
    else if x.ev &&& mask ≠ 0 then .done (s.setEngine e.val (x.endWait kd mask false))
    else .stay (s.setEngine e.val { x with
      waiting := some { kd := kd, mask := mask, limit := (x.reg ka).toNat, start := s.time.uptime } })

/-- The engine may end its WAIT. -/
def State.waitEnds (s : State) (e : Nat) : Bool :=
  s.dieUp && (s.engine e).run && !(s.engine e).dbg && !(s.bas.freeze && e < 2)

/-- WAIT_END (R150, R151): by a masked flag, or by the limit, which makes a raise of the same instant late. -/
def execWaitEnd (e : Fin 10) (expired : Bool) (s : State) : Result :=
  let x := s.engine e.val
  match x.waiting with
  | some w =>
    let up := s.waitEnds e.val
    if up ∧ expired ∧ w.limit ≠ 0 then
      let s1 := if x.ev &&& w.mask = 0 then s else s.late
      let s2 := s1.setEngine e.val ((s1.engine e.val).endWait w.kd w.mask true)
      ok (s2.advance e.val x.pc (fmtB 0x24 w.kd 0 false w.mask))
    else if up ∧ ¬ expired ∧ x.ev &&& w.mask ≠ 0 then
      ok ((s.setEngine e.val (x.endWait w.kd w.mask false)).advance e.val x.pc (fmtB 0x24 w.kd 0 false w.mask))
    else ok s
  | none => ok s

/-- SEV raises E8 to E15: `hi` is imm[15:8]. -/
def execSev (e : Fin 10) (hi : BitVec 8) (s : State) : Result :=
  s.run e 7 (fmtB 0x25 0 0 false (hi ++ 0#8)) fun s x => .done (s.setEngine e.val { x with ev := x.ev ||| (hi ++ 0#8) })

def execEclr (e : Fin 10) (kd : BitVec 4) (imm : BitVec 16) (s : State) : Result :=
  s.run e 7 (fmtB 0x26 kd 0 false imm) fun s x => .done (s.setEngine e.val (x.takeFlags kd imm))

def execEget (e : Fin 10) (kd : BitVec 4) (imm : BitVec 16) (s : State) : Result :=
  s.run e 7 (fmtB 0x27 kd 0 false imm) fun s x => .done (s.setEngine e.val (x.setReg kd ((x.ev &&& imm).setWidth 32)))

/-! ### Mailbox, major 0x28 (R224 to R230); the sandbox faults outside its grants (R171) -/

/-- The sandbox may touch a set of granted bits. -/
def State.mayTouch (s : State) (e : Nat) (grant : Bytes → Nat) (set : Nat) : Bool :=
  e ≠ 1 || (grant s.hookEntry ||| set) == grant s.hookEntry

/-- An instruction with its result in kd. -/
def State.withReg (s : State) (e : Nat) (kd : BitVec 4) (v : Nat) : State :=
  s.setEngine e ((s.engine e).setReg kd (BitVec.ofNat 32 v))
/-- Set Z. -/
def State.withZ (s : State) (e : Nat) (z : Bool) : State := s.setEngine e { s.engine e with z := z }

/-- MBDB. While PE_PERST_n holds the mailbox in reset, nothing reaches it (DEDUCED from R192). -/
def execMbdb (e : Fin 10) (ka : BitVec 4) (s : State) : Result :=
  s.run e 3 (fmtA 0x28 0x000 0 ka 0 false) fun s x =>
    let b := (x.reg ka).toNat
    if ¬ s.mayTouch e.val grantD2h b then .fault 4 else .done (if s.mbxUp then s.setD2h b else s)

def execMback (e : Fin 10) (kd ka : BitVec 4) (f : Bool) (s : State) : Result :=
  s.run e 3 (fmtA 0x28 0x001 kd ka 0 f) fun s x =>
    let b := (x.reg ka).toNat
    if ¬ s.mayTouch e.val grantH2d b then .fault 4
    else
      let had := s.mbx.h2dBits &&& b
      let s1 := ({ s with mbx.h2dBits := s.mbx.h2dBits - had }).withReg e.val kd had
      .done (if f then s1.withZ e.val (had == 0) else s1)

/-- Slot and word numbers. -/
def slotOf (a : Word) : Nat := a.toNat % 8
def wordOf (b : Word) : Nat := b.toNat % 16

def execMbrd (e : Fin 10) (kd ka kb : BitVec 4) (s : State) : Result :=
  s.run e 3 (fmtA 0x28 0x002 kd ka kb false) fun s x =>
    let n := slotOf (x.reg ka)
    if ¬ s.mayTouch e.val grantH2dSlots (2 ^ n) then .fault 4
    else .done (s.withReg e.val kd (leNat (s.mbx.h2d.bytes (64 * n + 4 * wordOf (x.reg kb)) 4)))

def execMbwr (e : Fin 10) (kd ka kb : BitVec 4) (s : State) : Result :=
  s.run e 3 (fmtA 0x28 0x003 kd ka kb false) fun s x =>
    let n := slotOf (x.reg ka)
    if ¬ s.mayTouch e.val grantD2hSlots (2 ^ n) then .fault 4
    else .done { s with mbx.d2h := s.mbx.d2h.setBytes (64 * n + 4 * wordOf (x.reg kb)) (natLe 4 (x.reg kd).toNat) }

def execMbsend (e : Fin 10) (kd ka : BitVec 4) (f : Bool) (s : State) : Result :=
  s.run e 3 (fmtA 0x28 0x004 kd ka 0 f) fun s x =>
    let n := slotOf (x.reg ka)
    if ¬ s.mayTouch e.val grantD2hSlots (2 ^ n) then .fault 4
    else
      let full := bit s.mbx.d2hFull n || !s.mbxUp
      .done (((if full then s else s.sendD2h n).withReg e.val kd (b2n (!full))).withZ e.val full)

def execMbfree (e : Fin 10) (ka : BitVec 4) (s : State) : Result :=
  s.run e 3 (fmtA 0x28 0x005 0 ka 0 false) fun s x =>
    let n := slotOf (x.reg ka)
    if ¬ s.mayTouch e.val grantH2dSlots (2 ^ n) then .fault 4 else .done (if s.mbxUp then s.freeH2d n else s)

def execMbstat (e : Fin 10) (kd : BitVec 4) (s : State) : Result :=
  s.run e 3 (fmtA 0x28 0x006 kd 0 0 false) fun s _ =>
    .done (s.withReg e.val kd (s.mbx.h2dFull + 256 * s.mbx.d2hFull + 65536 * s.mbx.d2hTo))

/-! ### Tables and time (R152, R153) -/

/-- Table and index named by ka. -/
def tableOf (a : Word) : Nat := a.toNat % 8
def indexOf (a : Word) : Nat := a.toNat / 256 % 256

/-- The table, index and word exist. -/
def entryWordOk (t i w : Nat) : Bool := t < 4 && i < tableCount t && 4 * w < tableEntry t

def execTld (e : Fin 10) (kd ka kb : BitVec 4) (s : State) : Result :=
  s.run e 5 (fmtA 0x2C 0x000 kd ka kb false) fun s x =>
    let t := tableOf (x.reg ka)
    let i := indexOf (x.reg ka)
    let w := (x.reg kb).toNat
    if ¬ entryWordOk t i w ∨ (e.val ≠ 0 ∧ (t ≠ 3 ∨ lunChannel i ≠ e.val - 2)) then .fault 4
    else .done (s.withReg e.val kd (leAt (s.cachedEntry t i) (4 * w) 4))

def execTwr (e : Fin 10) (kd ka kb : BitVec 4) (s : State) : Result :=
  s.run e 1 (fmtA 0x2C 0x001 kd ka kb false) fun s x =>
    let t := tableOf (x.reg ka)
    let i := indexOf (x.reg ka)
    let w := (x.reg kb).toNat
    if ¬ entryWordOk t i w ∨ t < 2 then .fault 4 else .done (s.storeWord t i w (x.reg kd).toNat)

def execTsync (e : Fin 10) (kd ka : BitVec 4) (f : Bool) (s : State) : Result :=
  s.run e 1 (fmtA 0x2C 0x002 kd ka 0 f) fun s x =>
    let t := tableOf (x.reg ka)
    let i := indexOf (x.reg ka)
    if ¬ entryWordOk t i 0 then .fault 4
    else
      let busy := s.tab.sync.isSome
      .done (((s.startSync t i).withReg e.val kd (b2n busy)).withZ e.val (!busy))

def execTimel (e : Fin 10) (kd ka kb : BitVec 4) (s : State) : Result :=
  s.run e 7 (fmtA 0x2D 0x000 kd ka kb false) fun s x =>
    .done ((s.setEngine e.val { x with upHold := s.time.uptime / 2 ^ 32 }).withReg e.val kd s.time.uptime)
def execTimeh (e : Fin 10) (kd ka kb : BitVec 4) (s : State) : Result :=
  s.run e 7 (fmtA 0x2D 0x001 kd ka kb false) fun s x => .done (s.withReg e.val kd x.upHold)
def execClkl (e : Fin 10) (kd ka kb : BitVec 4) (s : State) : Result :=
  s.run e 7 (fmtA 0x2D 0x002 kd ka kb false) fun s x =>
    .done ((s.setEngine e.val { x with calHold := s.time.calendar / 2 ^ 32 }).withReg e.val kd s.time.calendar)
def execClkh (e : Fin 10) (kd ka kb : BitVec 4) (s : State) : Result :=
  s.run e 7 (fmtA 0x2D 0x003 kd ka kb false) fun s x => .done (s.withReg e.val kd x.calHold)

def execNop (e : Fin 10) (s : State) : Result := s.run e 7 (fmtA 0x2E 0x000 0 0 0 false) fun s _ => .done s

/-- FENCE: window stores are complete at once in this model, so nothing is waited for. -/
def execFence (e : Fin 10) (kd ka kb : BitVec 4) (s : State) : Result :=
  s.run e 7 (fmtA 0x2E 0x001 kd ka kb false) fun s _ => .done s

end Sys2Proof.Machine
end

