-- ==== Sys2Proof/Machine/Fabric.lean ====
section
/-! DEFINITION. The Ilide fabric, sending side (18_ilide_fabric.md): ports and pauses, frames, HELLO, the message queue with
go-back-N, failover and quarantine. Frames are held without their Ethernet FCS, which the port's MAC adds and checks. -/

namespace Sys2Proof.Machine

/-! ### Ports (R424 to R426, R456 to R458) -/

def portEnable (b : Bytes) : Bool := bit (leAt b 0 1) 0
def portFallback (b : Bytes) : Bool := bit (leAt b 0 1) 1
def portOnlyKx (b : Bytes) : Bool := bit (leAt b 0 1) 2
def portPfc (b : Bytes) : Nat := leAt b 1 1
def portType (b : Bytes) : Nat := leAt b 2 2
def portMac (b : Bytes) : Bytes := slice b 4 6
def portWd (b : Bytes) : Nat := leAt b 10 2

/-- The settings of a port in force. -/
def State.port (s : State) (p : Nat) : Bytes := s.fab.portCfg.get [] p
/-- The port is enabled and its link is up. -/
def State.portUp (s : State) (p : Nat) : Bool := 2 ≤ s.f (Reg.portLink p) && bit (s.f Reg.portEn) p

/-- The fabric runs: not in the minimal states, nor after FREEZE. -/
def State.fabUp (s : State) : Bool := s.dieUp && !s.dev.minimal && !s.bas.freeze

/-- The partner pauses a priority of a port. -/
def State.paused (s : State) (p prio : Nat) : Bool := bit (s.f (Reg.portPaused p)) prio

/-- The pause watchdog bars a priority: until it has gone unpaused for PAUSE_WD (R457). -/
def State.barred (s : State) (p prio : Nat) : Bool :=
  bit (s.f (Reg.portWd p)) prio &&
  (s.paused p prio || decide (s.time.uptime < s.fab.resumed.get 0 (8 * p + prio) + msTicks (portWd (s.port p))))

/-- Put a frame on a port; while its priority is paused it waits there. -/
def State.putFrame (s : State) (p prio : Nat) (f : Bytes) : State :=
  if ¬ s.portUp p ∨ s.bas.freeze then s
  else if s.paused p prio then
    { s with fab.held := s.fab.held.put (8 * p + prio) (s.fab.held.get [] (8 * p + prio) ++ [f]) }
  else s.emit (.frame p f)

/-- A PFC frame of the port: pause (or XON) for one priority (IEEE 802.1Qbb). -/
def State.sendPfc (s : State) (p prio : Nat) (pause : Bool) : State :=
  let quanta := (List.range 8).flatMap fun i => natBe 2 (if i = prio ∧ pause then 0xFFFF else 0)
  if ¬ s.portUp p ∨ s.bas.freeze then s
  else s.emit (.frame p (padTo 60 ([0x01, 0x80, 0xC2, 0, 0, 0x01] ++ portMac (s.port p) ++ natBe 2 0x8808 ++ natBe 2 0x0101 ++
    natBe 2 (2 ^ prio) ++ quanta)))

/-- Set or end the port's own pause of a priority. -/
def State.ownPause (s : State) (p prio : Nat) (on : Bool) : State :=
  (s.setF (Reg.portXoff p) (withBit (s.f (Reg.portXoff p)) prio on)).sendPfc p prio on

/-- The receive buffer holds `fill` bytes of a priority: XOFF at 48 KiB, XON below 24 KiB (R456, R458). -/
def State.noteFill (s : State) (p prio fill : Nat) : State :=
  let key := 8 * p + prio
  let s1 := { s with fab.rx := s.fab.rx.set 0 key fill }
  let s2 := if fill ≤ 49152 then { s1 with fab.limited := s1.fab.limited.erase key } else s1
  if ¬ bit (portPfc (s.port p)) prio then s2
  else if 49152 ≤ fill ∧ ¬ bit (s2.f (Reg.portXoff p)) prio ∧ (s2.fab.limited.get? key).isNone then s2.ownPause p prio true
  else if fill < 24576 ∧ bit (s2.f (Reg.portXoff p)) prio then s2.ownPause p prio false
  else s2

/-- A frame finds no room: the buffer is full without PFC, or above 48 KiB after PAUSE_TX_LIMIT (R456, R458). -/
def State.noRoom (s : State) (p prio fill : Nat) : Bool :=
  if bit (portPfc (s.port p)) prio then (s.fab.limited.get? (8 * p + prio)).isSome && decide (49152 < fill)
  else decide (196608 ≤ fill)

/-! ### Connections -/

/-- The entry of a connection in force. -/
def State.connEntry (s : State) (c : Nat) : Bytes := s.tab.conn.get [] c
/-- Its partition definition in force. -/
def State.connPartDef (s : State) (c : Nat) : Bytes := s.part (connPart (s.connEntry c))
/-- Priority of a connection on a port. -/
def State.connPcp (s : State) (c p : Nat) : Nat := bits (connTag (s.connEntry c) p) 14 12
/-- Its connection key. -/
def State.connKey (s : State) (c : Nat) : Bytes := (s.nv.keys.conn.get? (connKeySlot (s.connEntry c))).getD []
/-- Flint can make nonces (R464). -/
def State.canNonce (s : State) : Bool := s.roles.flint.drbg

/-! ### Frames (R427 to R430) -/

/-- The 48-byte header. -/
def State.ilideHeader (s : State) (c op flags plen psn : Nat) (body : Bytes) : Bytes :=
  natBe 1 0x10 ++ natBe 1 op ++ natBe 1 flags ++ [0] ++ natBe 2 (partId (s.connPartDef c)) ++
  natBe 2 (connDcid (s.connEntry c)) ++ natBe 2 c ++ natBe 2 plen ++ [0] ++ natBe 3 (psn % 2 ^ 24) ++ padTo 32 body

/-- The ICRC over header and payload. -/
def icrc (b : Bytes) : Bytes := natBe 4 (crc32c b).toNat

/-- A frame of connection `c` on port `p`; `key` seals it. -/
def State.ilideFrame (s : State) (c p op flags psn : Nat) (body payload : Bytes) (key : Option Bytes) : Bytes :=
  let e := s.connEntry c
  let fl := flags + (if key.isSome then 4 else 0)
  let inner := s.ilideHeader c op fl payload.length psn body ++ payload
  let sealed_ := inner ++ icrc inner
  let tci := 8192 * s.connPcp c p + bits (connTag e p) 11 0
  connMac e p ++ portMac (s.port p) ++ natBe 2 0x8100 ++ natBe 2 tci ++ natBe 2 (portType (s.port p)) ++ sealed_ ++
  (match key with
   | some k => (hmac k sealed_).take 12
   | none => [])

/-- Send a frame of a connection. -/
def State.sendOn (s : State) (c p op flags psn : Nat) (body payload : Bytes) (key : Option Bytes) : State :=
  let x := s.conn c
  (s.setConn c { x with packets := satAdd 0xFFFF x.packets 1 }).putFrame p (s.connPcp c p)
    (s.ilideFrame c p op flags psn body payload key)

/-- Send a frame of an established session on the port in use. -/
def State.sendSession (s : State) (c op flags psn : Nat) (body payload : Bytes) : State :=
  s.sendOn c (s.conn c).port op flags psn body payload (if connSealed (s.connEntry c) then (s.conn c).session else none)

/-! ### Sending messages (R431, R435, R439) -/

/-- Packets of a message. -/
def OMsg.packets (m : OMsg) : Nat := max 1 (ceilDiv m.payload.length 4096)

/-- Flags, header bytes 16 to 47 and payload of packet `i` of a message. -/
def OMsg.packet (m : OMsg) (i : Nat) : Nat × Bytes × Bytes :=
  let last := i + 1 == m.packets
  (b2n (i == 0) + 2 * b2n last + 8 * b2n (last && m.imm),
   natBe 4 m.msn ++ padTo 8 m.head ++
     (match m.base with
      | some b => natBe 8 (b + 4096 * i)
      | none => padTo 8 []) ++
     (if last then padTo 12 m.tail else padTo 12 []),
   (m.payload.drop (4096 * i)).take 4096)

/-- A sealed session is near its packet limit (R463). -/
def State.rekeyDue (s : State) (c : Nat) : Bool :=
  connSealed (s.connEntry c) && (decide (2 ^ 23 ≤ (s.conn c).snd + 64) || decide (2 ^ 23 ≤ (s.conn c).epsn + 64))

/-- Messages of the connection may be sent now. -/
def State.maySend (s : State) (c : Nat) : Bool :=
  let x := s.conn c
  x.st = 3 && !x.holdHello && x.holdUntil ≤ s.time.uptime && s.portUp x.port && !s.barred x.port (s.connPcp c x.port) &&
  !s.rekeyDue c && !s.bas.freeze

/-- Send what the window of 64 packets allows; `k` bounds the packets of one call. -/
def State.pump (s : State) (c : Nat) : Nat → State
  | 0 => s
  | k + 1 =>
    let x := s.conn c
    if ¬ s.maySend c ∨ x.una + 64 ≤ x.snd ∨ x.npsn ≤ x.snd then s
    else match x.outq.find? fun m => m.psn ≤ x.snd && x.snd < m.psn + m.packets with
      | none => s
      | some m =>
        let q := m.packet (x.snd - m.psn)
        let retry := if x.snd < x.top then 16 else 0
        let s1 := s.sendSession c m.op (q.1 + retry) x.snd q.2.1 q.2.2
        State.pump (s1.setConn c { s1.conn c with snd := x.snd + 1, top := max x.top (x.snd + 1) }) c k

/-- Go back to the oldest unacknowledged packet (R435). -/
def State.goBack (s : State) (c : Nat) : State :=
  (s.setConn c { s.conn c with snd := (s.conn c).una, holdUntil := 0 }).pump c 64

/-- Hand a message to a connection; its MSN is the connection's next. READ_RESP carries its request's MSN. -/
def State.enqueue (s : State) (c : Nat) (m : OMsg) : State :=
  let x := s.conn c
  let m1 := { m with psn := x.npsn, msn := if m.op = 4 then m.msn else x.nmsn }
  (s.setConn c { x with
    outq := x.outq ++ [m1], npsn := x.npsn + m.packets
    nmsn := if m.op = 4 then x.nmsn else (x.nmsn + 1) % 2 ^ 32 }).pump c 64

/-! ### HELLO, UP and DOWN (R446, R462) -/

/-- The body of a HELLO. -/
def State.helloBody (s : State) (kind : Nat) (restart : Bool) (msn : Nat) (nonce : Bytes) : Bytes :=
  natBe 1 kind ++ natBe 1 (b2n restart) ++ [0, 0] ++ natBe 4 msn ++ padTo 16 nonce ++ natBe 4 (s.time.cycles % 2 ^ 32)

/-- Send a HELLO on a port, sealed under the connection key when the entry is SEALED. -/
def State.sendHello (s : State) (c p kind : Nat) (restart : Bool) (msn : Nat) (nonce : Bytes) : State :=
  s.sendOn c p 0x20 0 0 (s.helloBody kind restart msn nonce) [] (if connSealed (s.connEntry c) then some (s.connKey c) else none)

/-- A nonce for a sealed HELLO; none for others. -/
def State.helloNonce (s : State) (c : Nat) : State × Bytes := if connSealed (s.connEntry c) then s.draw 16 else (s, [])

/-- The device may originate or answer a HELLO request (R464). -/
def State.mayHello (s : State) (c : Nat) : Bool := !connSealed (s.connEntry c) || s.canNonce

/-- Send a HELLO request on a port. -/
def State.requestHello (s : State) (c p : Nat) : State :=
  if ¬ s.mayHello c then s.setConn c { s.conn c with port := p }
  else
    let d := s.helloNonce c
    let x := d.1.conn c
    (d.1.setConn c { x with st := 2, port := p, nonce := d.2 }).sendHello c p 0 x.restart 0 d.2

/-- The other allowed port of a connection, or the same one. -/
def State.nextPort (s : State) (c p : Nat) : Nat := if connAllows (s.connEntry c) (1 - p) then 1 - p else p

/-- What a connection keeps of its own messages when it goes DOWN at its retry limit: those of cairns wait (R441, R475). -/
def Conn.keepCairns (x : Conn) : Conn := { x with outq := x.outq.filter fun m => m.cairn ≠ 0 }

/-- Put a connection DOWN: partial messages go, and HELLO requests begin on its preferred port (R445, R446, R454). -/
def State.connDown (s : State) (c : Nat) : State :=
  let was := (s.conn c).st
  let s1 := s.dropIn c
  let s2 := s1.setConn c { s1.conn c with st := 1, session := none, tries := 0, movedOnce := false }
  let s3 := if was = 3 then (s2.record 0x5011 (Src.fab (s.conn c).port) c).bump 0x3A else s2
  s3.requestHello c (connPref (s.connEntry c))

/-- Give the messages of a queue their PSNs anew, from `n`. -/
def renumber : Nat → List OMsg → List OMsg
  | _, [] => []
  | n, m :: ms => { m with psn := n } :: renumber (n + m.packets) ms

/-- The connection is UP on a port (R446): PSNs restart, and unacknowledged messages are sent again from their start. -/
def State.connUp (s : State) (c p : Nat) (session : Option Bytes) : State :=
  let s1 := s.dropIn c
  let x := s1.conn c
  let q := renumber 0 x.outq
  let again := ((x.outq.filter fun m => m.psn < x.top).map OMsg.packets).sum
  let s2 := s1.setConn c { x with
    st := 3, port := p, epsn := 0, nakSent := false, replies := [], una := 0, snd := 0, top := again
    npsn := (q.map OMsg.packets).sum, outq := q, holdUntil := 0, holdHello := false, tries := 0, movedOnce := false
    session := session, restart := false }
  (s2.record 0x5010 (Src.fab p) c p).pump c 64

/-- The session key of R462. -/
def sessionKey (k reqNonce repNonce : Bytes) (reqIdx repIdx : Nat) : Bytes :=
  hmac k (ascii "ILIDE-S1" ++ reqNonce ++ repNonce ++ natBe 2 reqIdx ++ natBe 2 repIdx)

/-! ### Failover (R454) -/

/-- Move a connection to its other allowed port if that is up, else put it DOWN. -/
def State.failover (s : State) (c : Nat) : State :=
  let x := s.conn c
  if x.st ≠ 3 then s
  else
    let p := 1 - x.port
    if connAllows (s.connEntry c) p ∧ s.portUp p ∧ ¬ s.barred p (s.connPcp c p) then
      let s1 := s.setConn c { x with port := p, failovers := satAdd 0xFFFF x.failovers 1 }
      ((s1.record 0x5012 (Src.fab p) c p).bump 0x3B).goBack c
    else s.connDown c

/-- Every connection that is UP on a port and meets `f` fails over. -/
def State.failoverPort (s : State) (p : Nat) (f : Nat → Bool) : State :=
  ((s.fab.conns.filter fun x => x.2.st == 3 && x.2.port == p && f x.1).map fun x => x.1).foldl State.failover s

/-- Close a connection whose entry is no longer VALID (R445). -/
def State.closeConn (s : State) (c : Nat) : State :=
  let x := s.conn c
  if x.st = 0 then s
  else
    let d := s.helloNonce c
    let s1 := (if s.mayHello c then d.1.sendHello c x.port 3 false 0 d.2 else s).dropIn c
    s1.setConn c { s1.conn c with st := 0, outq := [], una := 0, snd := 0, top := 0, npsn := 0, session := none, quarantined := false }

/-! ### Violations and quarantine (R461) -/

/-- One violation; QTHRESH of them within a second quarantine the connection. -/
def State.violation (s : State) (c : Nat) : State :=
  let x := s.conn c
  let sec := s.time.uptime / 25000000
  let n := if x.vioSec = sec then x.vioNow + 1 else 1
  let s1 := (s.setConn c { x with violations := satAdd 0xFFFF x.violations 1, vioSec := sec, vioNow := n }).bump 0x3D
  if partThresh (s.connPartDef c) ≤ n ∧ ¬ x.quarantined then
    let s2 := s1.dropIn c
    ((s2.setConn c { s2.conn c with quarantined := true, lastQNak := none }).record 0x5040 Src.ilide c).bump 0x3E
  else s1

/-- The quarantine ends; the count restarts. -/
def State.release (s : State) (c : Nat) : State :=
  if (s.conn c).quarantined then
    (s.setConn c { s.conn c with quarantined := false, vioNow := 0, lastQNak := none }).record 0x5041 Src.ilide c
  else s

/-! ### Replies (R434, R438) -/

/-- Send a reply of a message and keep it for duplicates of its LAST packet. -/
def State.reply (s : State) (c last op : Nat) (body : Bytes) : State :=
  let x := s.conn c
  (s.setConn c { x with replies := ((last, op, body) :: x.replies).take 64 }).sendSession c op 0 0 body []

/-- The ACK of a message (R430). -/
def ackBody (last msn seq : Nat) : Bytes := [0] ++ natBe 3 (last % 2 ^ 24) ++ natBe 4 msn ++ natBe 2 0 ++ [0, 0] ++ natBe 8 seq
/-- A NAK. -/
def nakBody (code psn msn hint status : Nat) : Bytes :=
  natBe 1 code ++ natBe 3 (psn % 2 ^ 24) ++ natBe 4 msn ++ natBe 4 hint ++ natBe 2 status

/-- The Kenino status a NAK code stands for (R438; RNR stands for DEFERRED, DEDUCED from R574 and R575). -/
def nakStatus (code : Nat) : Nat :=
  match code with
  | 2 => 0x0100 | 3 => 0x0101 | 4 => 0x0102 | 5 => 0x0103 | 6 => 0x0302 | 7 => 0x0400 | 8 => 0x0201 | 9 => 0x0200 | 10 => 0x0401
  | _ => 0

/-- A terminal NAK: the message up to `last` is consumed without effect. -/
def State.nakTerminal (s : State) (c code last msn : Nat) : State :=
  let s1 := s.dropIn c
  (s1.setConn c { s1.conn c with epsn := (last + 1) % 2 ^ 24, nakSent := false }).reply c last 0x11
    (nakBody code last msn 0 (nakStatus code))

/-- A retryable NAK: ePSN stays at the message's FIRST packet. -/
def State.nakRetry (s : State) (c code first msn hint : Nat) : State :=
  let s1 := s.dropIn c
  let x := s1.conn c
  (s1.setConn c { x with
    epsn := first, nakSent := true
    rnrNaks := if code = 2 then satAdd 0xFFFF x.rnrNaks 1 else x.rnrNaks
    quotaNaks := if code = 3 then satAdd 0xFFFF x.quotaNaks 1 else x.quotaNaks }).sendSession c 0x11 0 0
      (nakBody code first msn hint (nakStatus code)) []

end Sys2Proof.Machine
end

