-- ==== Sys2Proof/Machine/Cairns.lean ====
section
/-! DEFINITION. Cairn firings and their actions (19_cairns.md, R471 to R481). A firing runs on by itself until
an action has to wait: for its pins to be durable, or for its messages to be acknowledged. -/

namespace Sys2Proof.Machine

/-! ### The entry's action slots (R467) -/

def Cairn.slot (c : Cairn) (i : Nat) : Bytes := slice c.entry (32 + 16 * i) 16
def slotKind (a : Bytes) : Nat := leAt a 0 1

/-! ### Firings -/

def State.firing? (s : State) (c : Nat) : Option Firing := s.crn.running.find? fun f => f.cairn == c
def State.setFiring (s : State) (f : Firing) : State :=
  { s with crn.running := s.crn.running.map fun (g : Firing) => if g.cairn = f.cairn then f else g }

/-- Pages to be verified until a commit made now is durable. -/
def State.pagesAhead (s : State) : Nat := if s.str.openPage.isEmpty then s.str.pages.length else s.str.pages.length + 1

/-- Commit something of a firing through the journal (R480). -/
def State.commitFiring (s : State) (f : Firing) : State :=
  let s1 := s.commit
  s1.setFiring { f with pages := s1.pagesAhead }

/-- The present action ends with a result, and the next one is due. -/
def Firing.ended (f : Firing) (r : Nat) : Firing :=
  { f with action := f.action + 1, results := f.results ++ [r], begun := false, next := 0, acked := 0, part := 0 }

/-! ### PIN (R473, R478) -/

/-- The volume's part of an action is over: deleted, absent or under SANITIZE. -/
def State.volGone (s : State) (v : Nat) : Bool := (s.vol v).kind ≠ 1 || (s.vol v).sanitize

/-- The handle of a cairn pin. -/
def cairnHandle (c v : Nat) : Nat := 0x8000 + 32 * c + v

/-- The records a PIN covers on one stream. -/
def State.pinSpan (s : State) (f : Firing) (a : Bytes) (v : Nat) : List SRec :=
  let n := leAt a 8 4
  if bit (leAt a 1 1) 0 then (s.vol v).recs.drop ((s.vol v).recs.length - n)
  else s.windowOf v (f.t0 - msTicks n)

/-- Pin one stream: the state, the pin, and the part's result. -/
def State.pinOne (s : State) (f : Firing) (a : Bytes) (v : Nat) : State × List (Nat × Nat × Nat) × Nat :=
  let h := cairnHandle f.cairn v
  if s.volGone v then (s, [], 7)
  else if (s.nv.pins.any fun p => p.vol == v && p.handle == h) ∨ ¬ s.pinRoom v then (s, [], 2)
  else (s.addPin v h (s.pinSpan f a v), [(h, v, f.action)], 0)

/-- The PIN action over its volume mask. -/
def State.runPin (s : State) (f : Firing) (a : Bytes) : State :=
  let r := ((List.range 32).filter fun v => bit (leAt a 4 4) v).foldl
    (fun (t : State × List (Nat × Nat × Nat) × Nat) v =>
      let u := t.1.pinOne f a v
      (u.1, t.2.1 ++ u.2.1, max t.2.2 u.2.2)) (s, [], 0)
  r.1.commitFiring ({ f with pins := f.pins ++ r.2.1, pinsDurable := false }.ended r.2.2)

/-! ### SHIP (R474) -/

/-- Records of one stream that a SHIP takes, with at most `room` bytes (none: no limit): the records, whether LIMIT cut them,
whether some were skipped. -/
def shipRecords : Option Nat → List SRec → List SRec × Bool × Bool
  | _, [] => ([], false, false)
  | room, r :: rs =>
    if r.lost ∨ r.bad then
      let t := shipRecords room rs
      (t.1, t.2.1, true)
    else match room with
      | some k =>
        if k < r.bytes.length then ([], true, false)
        else
          let t := shipRecords (some (k - r.bytes.length)) rs
          (r :: t.1, t.2)
      | none =>
        let t := shipRecords none rs
        (r :: t.1, t.2)

/-- Records that end within a run of the stream's bytes. -/
def endsWithin (lo hi : Nat) : Nat → List SRec → Nat
  | _, [] => 0
  | at_, r :: rs => (if lo < at_ + r.bytes.length ∧ at_ + r.bytes.length ≤ hi then 1 else 0) + endsWithin lo hi (at_ + r.bytes.length) rs

/-- The messages of one stream's bytes from a window offset: 262 144 B each, the last with its immediate data. -/
def shipMessages (c window base : Nat) (imm : Bytes) (recs : List SRec) (data : Bytes) : List OMsg :=
  let n := ceilDiv data.length 262144
  (List.range n).map fun i =>
    let p := (data.drop (262144 * i)).take 262144
    { op := 2, msn := 0, head := natBe 4 p.length ++ natBe 2 window ++ [0, 0], base := some (base + 262144 * i)
      tail := if i + 1 = n then imm else [], imm := i + 1 == n, payload := p, cairn := c + 1
      records := endsWithin (262144 * i) (262144 * i + p.length) 0 recs }

/-- The immediate data of R474. -/
def shipImm (f : Firing) (v flags : Nat) : Bytes :=
  natBe 2 f.cairn ++ natBe 2 (f.number % 65536) ++ natBe 1 v ++ natBe 1 flags ++ [0, 0]

/-- The messages of a SHIP and its result, stream by stream over the source slot's pins. -/
def State.shipPlan (s : State) (f : Firing) (window : Nat) : Option Nat → Nat → List (Nat × Nat × Nat) → List OMsg × Nat
  | _, _, [] => ([], 0)
  | room, base, (h, v, _) :: rest =>
    match s.nv.pins.find? fun p => p.vol == v && p.handle == h with
    | none =>
      let t := State.shipPlan s f window room base rest
      (t.1, if s.volGone v then 7 else t.2)
    | some p =>
      let r := shipRecords room (s.spanOf v p.first p.count)
      let data := r.1.flatMap SRec.bytes
      let flags := b2n rest.isEmpty + 2 * b2n r.2.1 + 4 * b2n r.2.2 + 8 * b2n f.resumed
      let t := State.shipPlan s f window (room.map fun k => k - data.length) (base + 4096 * ceilDiv data.length 4096) rest
      (shipMessages f.cairn window base (shipImm f v flags) r.1 data ++ t.1,
       max (max (b2n r.2.1) (if r.2.2 then 5 else 0)) (if s.volGone v then max 7 t.2 else t.2))

/-- The plan of the present SHIP. -/
def State.plan (s : State) (f : Firing) (a : Bytes) : List OMsg × Nat :=
  let limit := leAt a 12 4
  s.shipPlan f (leAt a 4 2) (if limit = 0 then none else some (1024 * limit)) (4096 * leAt a 8 4)
    (f.pins.filter fun p => p.2.2 == leAt a 3 1)

/-- Hand messages of a SHIP to its connection, at most 4 ahead of acknowledgement; `k` bounds them. -/
def State.pumpShip (s : State) (c conn : Nat) (ms : List OMsg) : Nat → State
  | 0 => s
  | k + 1 =>
    match s.firing? c with
    | none => s
    | some f =>
      if f.acked + 4 ≤ f.next then s
      else match ms[f.next]? with
        | none => s
        | some m => State.pumpShip ((s.setFiring { f with next := f.next + 1 }).enqueue conn m) c conn ms k

/-- A SHIP goes on, or ends when its last message is acknowledged. -/
def State.runShip (s : State) (f : Firing) (a : Bytes) : State :=
  let p := s.plan f a
  if p.1.length ≤ f.acked then
    let r := max f.part p.2
    s.commitFiring ({ f with ships := max f.ships r }.ended r)
  else (s.setFiring { f with begun := true, part := max f.part p.2 }).pumpShip f.cairn (leAt a 2 1) p.1 4

/-! ### SEND (R467, R472) -/

def State.runSend (s : State) (f : Firing) (a : Bytes) : State :=
  let n := bits (leAt a 1 1) 3 0
  if f.begun then s
  else (s.setFiring { f with begun := true, next := 1 }).enqueue (leAt a 2 1)
    { op := 5, msn := 0, head := natBe 4 n ++ natBe 1 (leAt a 3 1) ++ [0, 0, 0], base := none, tail := [], imm := false
      payload := slice a 4 n, cairn := f.cairn + 1 }

/-! ### Running a firing (R472) -/

/-- One step of a firing: true when it may go on at once. -/
def State.runAction (s : State) (f : Firing) : State × Bool :=
  let c := s.cairn f.cairn
  let a := c.slot f.action
  if c.actions ≤ f.action then (s, false)
  else match slotKind a with
    | 1 => (s.runPin f a, true)
    | 2 =>
      if ¬ f.pinsDurable ∧ ¬ f.begun then (s, false)
      else
        let t := s.runShip f a
        (t, (t.firing? f.cairn).any fun g => g.action ≠ f.action)
    | 3 => (s.runSend f a, false)
    | _ => (((if s.mbxUp then s.setD2h (leAt a 4 4) else s)).commitFiring (f.ended 0), true)

/-- Run a firing until it waits; `k` bounds its actions. -/
def State.runFiring (s : State) (c : Nat) : Nat → State
  | 0 => s
  | k + 1 =>
    match s.firing? c with
    | none => s
    | some f =>
      let r := s.runAction f
      if r.2 then State.runFiring r.1 c k else r.1

/-- Every running firing goes on as far as it can. -/
def State.runFirings (s : State) : State := (s.crn.running.map fun f => f.cairn).foldl (fun t c => t.runFiring c 8) s

/-- The cairn unit works (R469, R93). -/
def State.cairnsUp (s : State) : Bool := s.dieUp && s.dev.serves && !s.bas.freeze

/-- CAIRN_FIRING_START (R471): the oldest queued firing starts when fewer than 4 run. -/
def execCairnFiringStart (s : State) : Result :=
  match s.crn.queue with
  | [] => ok s
  | f :: q =>
    if ¬ s.cairnsUp ∨ 4 ≤ s.crn.running.length then ok s
    else
      let s1 := ({ s with crn := { s.crn with queue := q, running := s.crn.running ++ [f] } }).record 0xA020 Src.cairn f.cairn
        f.number f.kind (f.t0 % 2 ^ 32)
      ok ((s1.commitFiring f).runFiring f.cairn 8)

/-! ### Acknowledgements (R475, R481) -/

/-- A message of a firing has been acknowledged: progress is journalled, and the firing goes on. -/
def State.cairnAcked (s : State) (m : OMsg) : State :=
  match s.firing? (m.cairn - 1) with
  | none => s
  | some f =>
    if m.cairn = 0 ∨ ¬ f.begun then s
    else
      let g := { f with acked := f.acked + 1, shipped := f.shipped + m.records, bytes := f.bytes + (if m.op = 2 then m.payload.length else 0) }
      let s1 := (s.commit).setFiring (if m.op = 5 then g.ended 0 else g)
      s1.runFiring g.cairn 8

/-- Messages of a firing left on its connections belong to no action any more. -/
def State.orphan (s : State) (c : Nat) : State :=
  { s with fab.conns := s.fab.conns.map fun x =>
      (x.1, { x.2 with outq := x.2.outq.map fun (m : OMsg) => if m.cairn = c + 1 then { m with cairn := 0 } else m }) }

/-- The present SHIP or SEND ends with a result of its connection. -/
def State.cairnBroken (s : State) (c r : Nat) : State :=
  match s.firing? c with
  | none => s
  | some f =>
    if ¬ f.begun then s
    else
      let ship := slotKind ((s.cairn c).slot f.action) = 2
      let x := max r f.part
      let g := if ship then { f with ships := max f.ships x } else f
      ((s.orphan c).setFiring (g.ended x)).runFiring c 8

/-- SHIP_CONNECTION_TIMEOUT (R475): the connection of a SHIP or SEND has not been UP for 60 s. Its messages are dropped, and
the action ends with result 3. -/
def execShipConnectionTimeout (c : Fin 512) (s : State) : Result :=
  match s.firing? c.val with
  | none => ok s
  | some f =>
    let a := (s.cairn c.val).slot f.action
    let conn := leAt a 2 1
    if ¬ s.cairnsUp ∨ ¬ f.begun ∨ (s.conn conn).st = 3 ∨ (slotKind a ≠ 2 ∧ slotKind a ≠ 3) then ok s
    else
      let x := s.conn conn
      ok ((s.setConn conn { x with outq := x.outq.filter fun m => m.cairn ≠ c.val + 1 }).cairnBroken c.val 3)

/-! ### The end of a firing (R476) -/

/-- The result of a firing: its highest; at least 6 when it was resumed. -/
def Firing.result (f : Firing) : Nat := f.results.foldl max (if f.resumed then 6 else 0)

/-- Release the pins of a firing. -/
def State.releasePins (s : State) (f : Firing) : State :=
  { s.commit with nv.pins := s.nv.pins.filter fun (p : Pin) => !(f.pins.any fun q => q.1 == p.handle && q.2.1 == p.vol) }

/-- The chain trigger of step 4. -/
def State.chain (s : State) (c : Cairn) (f : Firing) : State :=
  if ¬ c.flag 3 ∨ (c.flag 4 ∧ f.result ≠ 0) then s
  else if 8 ≤ f.depth then s.record 0xA023 Src.cairn f.cairn
  else (s.fireCairn c.next 6 f.t0 f.t0Field (f.depth + 1)).1

/-- CAIRN_FIRING_END (R476, R477): every action has ended. -/
def execCairnFiringEnd (i : Fin 512) (s : State) : Result :=
  match s.firing? i.val with
  | none => ok s
  | some f =>
    let c := s.cairn i.val
    if ¬ s.cairnsUp ∨ f.action < c.actions then ok s
    else
      let r := f.result
      let s1 := s.record 0xA021 Src.cairn i.val r f.shipped f.bytes
      let s2 := if r = 0 then s1 else s1.bump 0x52
      let s3 := if c.flag 2 ∧ f.ships = 0 then s2.releasePins f else s2
      let c3 := s3.cairn i.val
      let after := { c3 with
        entry := if c3.cancelled then [] else c3.entry
        state := if c3.cancelled then 0 else if c.flag 1 then 1 else 3
        cancelled := false, count := 0, result := r, ended := f.results.length }
      let s4 := { (s3.setCairn i.val after).touch 0x0B with crn := { s3.crn with
        running := s3.crn.running.filter (fun g => g.cairn ≠ i.val)
        lastCairn := i.val, lastResult := r, lastNumber := f.number % 65536 } }
      ok (s4.chain c f)

/-- JOURNAL_PAGE_VERIFIED (R311, R422, R480): the records of the oldest page are durable; a firing whose pins are now durable
goes on. -/
def execJournalPageVerified (s : State) : Result := ok s.pageVerified.runFirings

end Sys2Proof.Machine
end

