-- ==== Sys2Proof/Machine/Image.lean ====
section
/-! DEFINITION. Images: the container and its checks, download sessions, commit, trial and confirmation, the rollback floor
(23_images_updates_and_service_port.md, R545 to R560; R373 to R378), and loading a program section (R166 to R170). -/

namespace Sys2Proof.Machine

/-! ### The container (R545 to R549) -/

def imgTotal (b : Bytes) : Nat := leAt b 8 4
def imgVersion (b : Bytes) : Nat := leAt b 12 4
def imgSvn (b : Bytes) : Nat := leAt b 16 1
def imgFlags (b : Bytes) : Nat := leAt b 17 1
def imgKey (b : Bytes) : Nat := leAt b 18 1
def imgCount (b : Bytes) : Nat := leAt b 19 1
/-- Entry `i` of the section table. -/
def imgSection (b : Bytes) (i : Nat) : Bytes := slice b (64 + 16 * i) 16
def secType (x : Bytes) : Nat := leAt x 0 1
def secOff (x : Bytes) : Nat := leAt x 4 4
def secLen (x : Bytes) : Nat := leAt x 8 4
/-- The sections an image names. -/
def imgSections (b : Bytes) : List Bytes := (List.range (min 12 (imgCount b))).map (imgSection b)
/-- The bytes of a section. -/
def secBytes (b x : Bytes) : Bytes := slice b (secOff x) (secLen x)

/-- Check 1 of R549: magic, version, header length, total length, part number and stepping. -/
def imgHeaderOk (b : Bytes) : Bool :=
  leAt b 0 4 = 0x4D494B51 && leAt b 4 2 = 1 && leAt b 6 2 = 256 && 1024 ≤ imgTotal b && imgTotal b ≤ 4194304 &&
  imgTotal b % 64 = 0 && imgTotal b ≤ b.length && leAt b 20 2 = 0x0824 && leAt b 22 1 ≤ 0x42

/-- One entry of the section table (R547). -/
def secOk (total : Nat) (x : Bytes) : Bool :=
  1 ≤ secType x && secType x ≤ 4 && leAt x 1 3 = 0 && leAt x 12 4 = 0 && secOff x % 64 = 0 && 256 ≤ secOff x &&
  secOff x + secLen x ≤ total - 64

/-- No two sections share a byte. -/
def secsApart : List Bytes → Bool
  | [] => true
  | x :: xs => (xs.all fun y => secOff x + secLen x ≤ secOff y || secOff y + secLen y ≤ secOff x) && secsApart xs

/-- Sections of a type. -/
def secsOf (b : Bytes) (t : Nat) : List Bytes := (imgSections b).filter fun x => secType x = t

/-- Check 2 of R549: the section table. The engine masks of the Vein sections are disjoint and name V0 to V7 together: their
bits add up to 255 with no carry, eight of them in all. -/
def imgTableOk (b : Bytes) : Bool :=
  let masks := (secsOf b 2).map fun x => leAt (secBytes b x) 5 1
  3 ≤ imgCount b && imgCount b ≤ 12 && ((imgSections b).all (secOk (imgTotal b))) && secsApart (imgSections b) &&
  (slice b (64 + 16 * imgCount b) (192 - 16 * imgCount b)).all (fun x => x = 0) &&
  (secsOf b 1).length = 1 && 1 ≤ (secsOf b 2).length && (secsOf b 2).length ≤ 8 && (secsOf b 3).length = 1 &&
  ((secsOf b 3).all fun x => secLen x = 16) && (secsOf b 4).length ≤ 1 &&
  masks.foldl (· ||| ·) 0 = 255 && masks.sum = 255

/-- Check 3: the signature over bytes 0 to total length − 65 (R548); there is no key above index 3. -/
def imgSigned (b : Bytes) : Bool :=
  imgKey b ≤ 3 && Config.signatureOk (imgKey b) (b.take (imgTotal b - 64)) (slice b (imgTotal b - 64) 64)

/-- The image status code of R549, checks 1 to 4. -/
def imageCode (floor : Nat) (b : Bytes) : Nat :=
  if ¬ imgHeaderOk b then 1 else if ¬ imgTableOk b then 2 else if ¬ imgSigned b then 3 else if imgSvn b < floor then 4 else 0

/-- The completion status of an image status code. -/
def imageStatus (code : Nat) : Nat := if code = 0 then 0 else if code = 4 then 0x0902 else 0x0900

/-! ### Slots, pools and the boot record (R373 to R377, R552 to R554) -/

def State.pool (s : State) (g : Nat) : Pool := s.nv.pools.get {} g

/-- Bytes held contiguously from offset 0; `k` bounds the chunks. -/
def heldFrom (p : Pool) : Nat → Nat → Nat
  | n, 0 => n
  | n, k + 1 => match p.chunks.get? (n / 4096) with
    | some _ => heldFrom p (n + 4096) k
    | none => n
def Pool.held (p : Pool) : Nat := heldFrom p 0 1024

/-- The first `n` bytes of a pool. -/
def Pool.bytes (p : Pool) (n : Nat) : Bytes :=
  ((List.range (ceilDiv n 4096)).flatMap fun i => padTo 4096 (p.chunks.get [] i)).take n

/-- Write a boot record (R374, R375), which carries the operating time and the power-cycle count (R484). -/
def State.writeBoot (s : State) (f : BootRec → BootRec) : State :=
  { s with
    nv.boot := { f s.nv.boot with seq := s.nv.boot.seq + 1 }
    nv.savedOpt := max s.nv.savedOpt s.time.optMs, nv.savedCycles := max s.nv.savedCycles s.time.cycles }

/-- The boot LUN on channel `n`, 0 or 1, works. -/
def State.bootCopy (s : State) (n : Nat) : Bool := (s.lun (lunAt n 0)).failed = 0 && !bit s.nv.failed.channels n

/-- Length and version that the boot record names for a slot. -/
def BootRec.len (r : BootRec) (g : Nat) : Nat := if g = 0 then r.len0 else r.len1
def BootRec.version (r : BootRec) (g : Nat) : Nat := if g = 0 then r.version0 else r.version1

/-- The image a slot holds, by the boot record. -/
def State.slotImage (s : State) (g : Nat) : Bytes := (s.pool g).bytes (s.nv.boot.len g)

/-- The session's target, on a path. -/
def State.sessionOn (s : State) (path : Nat) : Option Nat :=
  match s.img.session with
  | some (p, g) => if p = path then some g else none
  | none => none

/-- Bytes held contiguously in the session's pool. -/
def State.heldBytes (s : State) : Nat :=
  match s.img.session with
  | some (_, g) => (s.pool g).held
  | none => 0

/-- Revert a trial: it is cleared in the boot record, with event 0x1013. -/
def State.endTrial (s : State) : State :=
  (s.writeBoot fun b => { b with trial := 255, trialStarts := 0, trialMs := 0 }).record 0x1013 Src.start

/-- Open a session on a path (R552). -/
def State.beginSession (s : State) (path : Nat) : State :=
  let g := if s.nv.boot.confirmed = 0 then 1 else 0
  let s1 := if s.nv.boot.trial = g then s.endTrial else s
  let s2 := { s1 with
    nv.pools := s1.nv.pools.set {} g { readable := b2n (s.bootCopy 0) + 2 * b2n (s.bootCopy 1) }
    img := { s1.img with session := some (path, g), checked := s1.img.checked.erase g } }
  (s2.record 0x7001 Src.image path g).touch 9

/-- The pool has an unwritten page left: 31 blocks of pSLC pages (R373), once the LUN table is in force. -/
def State.poolRoom (s : State) (g : Nat) : Bool :=
  let e := s.tab.lun.get [] 0
  !lunPresent e || decide ((s.pool g).writes < 31 * lunPagesP e * lunCodewords e)

/-- Hold one chunk (R553). -/
def State.putChunk (s : State) (g unit : Nat) (data : Bytes) : State :=
  let p := s.pool g
  { s.touch 9 with nv.pools := s.nv.pools.set {} g { p with
      chunks := p.chunks.put unit (padTo 4096 data), writes := p.writes + 1 } }

/-- Hold `k` chunks from unit `unit` on; the flag says whether every one found a page. -/
def State.putChunks (s : State) (g unit : Nat) : Nat → Bytes → State × Bool
  | 0, _ => (s, true)
  | k + 1, data =>
    if s.poolRoom g then State.putChunks (s.putChunk g unit (data.take 4096)) g (unit + 1) k (data.drop 4096) else (s, false)

/-! ### Commit (R555, R556) -/

/-- The status code of both copies: the checks of the copy that is read first, then unreadable copies, then a difference. A
copy on a failed boot LUN is not read. -/
def State.copiesCode (s : State) (b : Bytes) (c : Copies) : Nat :=
  let p := s.bootCopy 0
  let m := s.bootCopy 1
  let code := if (p && c.primary) || (m && c.mirror) then imageCode s.nv.floor b else 5
  if code ≠ 0 then code
  else if (p && !c.primary) || (m && !c.mirror) then 5
  else if p && m && !c.same then 6
  else 0

/-- The slot named by a commit: on trial in service, else confirmed at once with F set to 0 (R556). -/
def State.nameSlot (s : State) (g : Nat) (b : Bytes) : State :=
  let s1 := s.writeBoot fun r =>
    let r1 := if g = 0 then { r with version0 := imgVersion b, len0 := b.length } else { r with version1 := imgVersion b, len1 := b.length }
    if s.dev.minimal then { r1 with confirmed := g, trial := 255, trialStarts := 0, trialMs := 0, fails := 0 }
    else { r1 with trial := g, trialStarts := 0, trialMs := 0 }
  if s.dev.minimal then { s1 with bas.latchF := 0, start.fails := 0 } else s1

/-- Commit `len` bytes on a path: the state, and the image status code (none: IMAGE_SEQUENCE). -/
def State.commitImage (s : State) (path len : Nat) (c : Copies) : State × Option (Nat × Nat) :=
  match s.sessionOn path with
  | none => (s, none)
  | some g =>
    let p := s.pool g
    let b := p.bytes len
    if p.held < len ∨ imgTotal b ≠ len then (s, none)
    else
      let code := s.copiesCode b c
      let s1 := { s.touch 9 with
        img := { s.img with lastStatus := code, checked := s.img.checked.put g (if code = 0 then 1 else 2), sram := b }
        nv.pools := s.nv.pools.set {} g { p with
          readable := b2n (s.bootCopy 0 && c.primary) + 2 * b2n (s.bootCopy 1 && c.mirror) } }
      if code = 0 then
        (({ s1.nameSlot g b with img.session := none }).record 0x7002 Src.image g (imgVersion b), some (0, g))
      else ((s1.bump 0x48).record 0x7005 Src.image code, some (code, g))

/-! ### Trial, confirmation and the floor (R551, R557 to R559) -/

/-- The running image is on trial. -/
def State.onTrial (s : State) : Bool := s.start.trial && s.img.running ≠ 255 && s.nv.boot.trial == s.img.running

/-- Trial operating time in ms. -/
def State.trialNow (s : State) : Nat :=
  if s.onTrial then s.nv.boot.trialMs + s.img.trialHeld + (if s.dev.inService then (s.time.uptime - s.img.trialAt) / 25000 else 0)
  else s.nv.boot.trialMs

/-- Save the trial time in the boot record. -/
def State.saveTrial (s : State) : State :=
  if s.onTrial then
    let k := if s.dev.inService then (s.time.uptime - s.img.trialAt) / 25000 else 0
    let s1 := s.writeBoot fun b => { b with trialMs := b.trialMs + s.img.trialHeld + k }
    { s1 with img := { s1.img with trialHeld := 0, trialAt := s.img.trialAt + 25000 * k } }
  else s

/-- Raise the rollback floor to the confirmed image's SVN (R551): there are 64 fuses (R550). -/
def State.raiseFloor (s : State) : State :=
  let g := s.nv.boot.confirmed
  let b := s.slotImage g
  let v := min 64 (imgSvn b)
  if g ≠ 255 ∧ bit (imgFlags b) 1 ∧ s.nv.floor < v then ({ s with nv.floor := v }).record 0x7030 Src.image s.nv.floor v
  else s

/-- Confirm the running trial image (R559). -/
def State.confirmImage (s : State) : State :=
  let g := s.nv.boot.trial
  let s1 := s.writeBoot fun b => { b with confirmed := g, trial := 255, trialStarts := 0, trialMs := 0 }
  (({ s1 with start.trial := false }).raiseFloor.record 0x7004 Src.image g).touch 9

/-- TRIAL_TIME_SAVE (R558). -/
def execTrialTimeSave (s : State) : Result := if s.dieUp ∧ ¬ s.bas.freeze then ok s.saveTrial else ok s

/-- TRIAL_EXPIRY (R558, R559): 600 000 ms of trial operating time. -/
def execTrialExpiry (s : State) : Result :=
  if ¬ s.dieUp ∨ ¬ s.dev.inService ∨ ¬ s.onTrial then ok s
  else if s.img.selfConfirm then ok s.confirmImage
  else ok { s.endTrial.touch 9 with start.trial := false }

/-! ### Image status (R560) -/

/-- The 16 bytes of a slot. -/
def State.slotStatus (s : State) (g : Nat) : Bytes :=
  let p := s.pool g
  let b := p.bytes 256
  let st := if p.chunks.isEmpty then 0 else s.img.checked.get 3 g
  padTo 16 (natLe 4 (s.nv.boot.version g) ++ natLe 4 (s.nv.boot.len g) ++ natLe 1 (imgSvn b) ++ natLe 1 st ++
    natLe 1 (if p.chunks.isEmpty then 0 else p.readable) ++ natLe 1 (imgFlags b))

/-- The 256 bytes of page 0x09. -/
def State.imagePage (s : State) : Bytes :=
  let held := s.heldBytes
  let total := match s.img.session with
    | some (_, g) => if 256 ≤ held then imgTotal ((s.pool g).bytes 256) else 0
    | none => 0
  padTo 256 (natLe 1 s.nv.boot.confirmed ++ natLe 1 s.nv.boot.trial ++ natLe 1 s.nv.boot.trialStarts ++
    natLe 1 (if s.dev.minimal then 255 else s.img.running) ++ natLe 4 s.trialNow ++
    natLe 1 (b2n s.img.session.isSome) ++ natLe 1 ((s.img.session.map fun x => x.2).getD 0) ++
    natLe 1 ((s.img.session.map fun x => x.1).getD 0) ++ natLe 1 s.nv.floor ++ natLe 4 s.img.lastStatus ++
    natLe 8 held ++ natLe 4 total ++ natLe 4 0 ++ s.slotStatus 0 ++ s.slotStatus 1)

/-! ### Loading a program section (R164, R166 to R170) -/

def ldKind (h : Bytes) : Nat := leAt h 4 1
def ldMask (h : Bytes) : Nat := leAt h 5 1
def ldCode (h : Bytes) : Nat := leAt h 8 4
def ldData (h : Bytes) : Nat := leAt h 12 4
def ldEntry (h : Bytes) : Nat := leAt h 16 4
def ldHooks (h : Bytes) : Nat := leAt h 20 2

/-- Header CRC, magic, version and reserved fields. -/
def ldHeaderOk (h : Bytes) : Bool :=
  leAt h 60 4 = (crc32c (slice h 0 60)).toNat && leAt h 0 4 = 0x504C4542 && leAt h 6 2 = 1 && leAt h 22 2 = 0

/-- The parts of a section. -/
def ldCodeBytes (b : Bytes) : Bytes := slice b 64 (ldCode b)
def ldTable (b : Bytes) : List Bytes := (List.range (ldHooks b)).map fun i => slice b (64 + ldCode b + 32 * i) 32
def ldDataBytes (b : Bytes) : Bytes := slice b (64 + ldCode b + 32 * ldHooks b) (ldData b)
def ldLength (b : Bytes) : Nat := 64 + ldCode b + 32 * ldHooks b + ldData b

/-- The number in a hook's detail exists for its trigger kind. -/
def hookDetailOk (e : Bytes) : Bool :=
  let n := bits (hookDetail e) 4 0
  match hookTrig e with
  | 2 => n < 8
  | 3 => n < 8
  | 4 => n < 4 && bits (hookDetail e) 7 6 ≠ 0
  | _ => true

/-- An entry of the entry table is in range (R169, R170); an unused entry is not looked at. No configuration item reserves a
resource for the host, so that no grant is refused (DEDUCED). -/
def hookEntryOk (code : Nat) (e : Bytes) : Bool :=
  hookTrig e = 0 ||
  (hookTrig e ≤ 5 && hookDetailOk e && hookAddr e % 4 = 0 && hookAddr e < code && 25000 ≤ hookBudget e &&
   hookBudget e ≤ 25000000 && leAt e 24 2 ≤ 511 && leAt e 26 2 ≤ 512 && leAt e 28 4 = 0)

/-- Lengths, entry address, and kind against the operation used; `k` is the kind wanted. -/
def ldShapeOk (k : Nat) (b : Bytes) : Bool :=
  ldKind b = k && (k = 2 || ldMask b = 0) && ldCode b % 4 = 0 && ldCode b ≠ 0 && ldCode b ≤ progSize k &&
  ldData b ≤ dataSize k && ldLength b ≤ b.length &&
  (if k = 1 then 1 ≤ ldHooks b && ldHooks b ≤ 16 && (ldTable b).all (hookEntryOk (ldCode b))
   else ldHooks b = 0 && ldEntry b % 4 = 0 && ldEntry b < ldCode b)

/-- The load result of a section of kind `k` (R167); `allowed`: the state admits a load (R164). -/
def loadCode (k : Nat) (allowed : Bool) (b : Bytes) : Nat :=
  if ¬ ldHeaderOk b then 2
  else if ¬ ldShapeOk k b then 4
  else if sha256 (slice b 64 (ldLength b - 64)) ≠ slice b 24 32 then 3
  else if ¬ allowed then 5
  else 1

/-- The engines a section of kind `k` is for. -/
def loadTargets (k : Nat) (b : Bytes) : List Nat :=
  if k = 2 then ((List.range 8).filter fun v => bit (ldMask b) v).map (· + 2) else [k]

/-- Load engine `e` with a good section (R138, R167): the rest of its data memory is zeroed. The sandbox runs only hooks. -/
def State.loadEngine (s : State) (e : Nat) (b : Bytes) : State :=
  let x : Engine := { prog := Memory.setBytes [] 0 (ldCodeBytes b), loadRes := 1, pc := if e = 1 then 0 else ldEntry b, run := e ≠ 1 }
  if e = 1 then
    let s1 := s.setEngine 1 x
    s1.setData 1 0 (padTo 0x800 (ldDataBytes b))
  else s.setEngine e { x with data := Memory.setBytes [] 0 (ldDataBytes b) }

/-- The hook table of a loaded section is in force, with its enables: one per used entry. -/
def State.takeHooks (s : State) (b : Bytes) : State :=
  let en := (placesOf (fun e => hookTrig e ≠ 0) 0 (ldTable b)).foldl (fun m i => withBit m i true) 0
  ({ s with hooks := { s.hooks with table := ldTable b, abandoned := [] } }).setF Reg.hookEn en

/-- Load a section of kind `k`: the state and the result code. A refused load changes no engine; any other failure leaves its
targets stopped with no program (R168). -/
def State.loadSection (s : State) (k : Nat) (allowed : Bool) (b : Bytes) : State × Nat :=
  let code := loadCode k allowed b
  let es := loadTargets k b
  if code = 1 then
    let s1 := es.foldl (fun t e => t.loadEngine e b) s
    (if k = 1 then s1.takeHooks b else s1, 1)
  else if code = 5 then (es.foldl (fun t e => t.setEngine e { t.engine e with loadRes := 5 }) s, 5)
  else
    let s1 := es.foldl (fun t e => t.setEngine e { loadRes := code }) s
    (if k = 1 then ({ s1 with hooks := { s1.hooks with table := [], abandoned := [] } }).setF Reg.hookEn 0 else s1, code)

end Sys2Proof.Machine
end

