-- ==== Sys2Proof/Machine/Status.lean ====
section
/-! DEFINITION. What the device reports: IDENTIFY, VOLUME_QUERY, the log pages, the loss report and the configuration items
(12_admin_commands_and_status.md, R274 to R281; R113, R318, R370, R465, R482, R577). -/

namespace Sys2Proof.Machine

/-! ### IDENTIFY (R274, R275) -/

/-- Raw bytes of a LUN. -/
def rawBytes (e : Bytes) : Nat := lunBlocks e * lunPages e * lunMain e
/-- LUNs present. -/
def State.presentLuns (s : State) : List Nat := (List.range 128).filter fun n => lunPresent (s.lunEntry n)
/-- Transit units (R416): a sixteenth of the DRAM, at most 256 MiB. -/
def State.transitUnits (s : State) : Nat := if s.dram.up then min 65536 (s.dram.capMiB * 16) else 0

/-- Transit units in use: those whose READ data is still on its way to the host (R416, R422). -/
def State.transitUsed (s : State) : Nat :=
  ((s.rings.flatMap fun r => r.2.cmds).map fun c =>
    ((c.descs.filter fun d => d.transit).map fun d => d.off / 4096).eraseDups.length).sum
/-- Blocks available to new volumes (R341). -/
def State.available (s : State) : Nat := s.capacity - s.allocated
/-- Flint as IDENTIFY byte 152 shows it. -/
def State.flintByte (s : State) : Nat := if s.flintLatched then 2 else if s.roles.flint.stat = 2 then 1 else 0
/-- A volume's state bits: EMUL512, ENCRYPT, locked, sealed. -/
def State.volBits (s : State) (v : Nat) : Nat :=
  let x := s.vol v
  b2n x.emul + 2 * b2n x.encrypt + 4 * b2n (x.kind ≠ 255 && s.volLocked v) + 8 * b2n x.isSealed
/-- The 16 bytes of a volume summary. -/
def State.volSummary (s : State) (v : Nat) : Bytes :=
  let x := s.vol v
  if x.kind = 255 then padTo 16 [0xFF]
  else padTo 16 (natLe 1 x.kind ++ natLe 1 (s.volBits v) ++ natLe 6 0 ++ natLe 8 x.cap)

/-- IDENTIFY bytes 56 to 155: the health bytes of page 0x01. -/
def State.health (s : State) : Bytes :=
  let ports := b2n (s.portUp 0) + 2 * b2n (s.portUp 1)
  padTo 100 (natLe 1 s.dev.code ++ natLe 1 s.start.kind ++ natLe 1 s.glbCause ++
    natLe 1 (s.start.slot % 2 + 2 * b2n s.start.trial) ++ natLe 4 s.degradedBits ++ natLe 1 (255 - s.nv.failed.channels % 256) ++
    natLe 1 ports ++ natLe 2 s.healthyLuns.length ++ natLe 2 s.presentLuns.length ++ natLe 2 0 ++
    natLe 8 (s.presentLuns.map fun n => rawBytes (s.lunEntry n)).sum ++ natLe 8 s.available ++
    natLe 8 (if s.dram.up then s.dram.capMiB * 2 ^ 20 else 0) ++ natLe 8 (s.transitUnits * 4096) ++ natLe 2 1536 ++
    natLe 2 s.alloc.resSize ++ natLe 1 32 ++ natLe 1 (s.nv.vols.filter fun v => v.2.kind ≠ 255).length ++
    natLe 2 s.nv.pins.length ++ natLe 4 262144 ++ natLe 4 2097152 ++
    natLe 4 (b2n s.parityOn + 2 + 4 * b2n (s.f Reg.portEn ≠ 0) + 8 * b2n s.usb.vbus) ++ natLe 8 s.time.cycles ++
    natLe 8 s.time.optMs ++ natLe 4 s.led.limit ++ natLe 4 s.led.eUsable ++ natLe 2 (s.junction % 65536).toNat ++
    natLe 1 (s.f Reg.band) ++ natLe 1 (s.f Reg.vcoreCode) ++ natLe 1 s.flintByte ++ natLe 2 s.nv.lastSelf)

/-- The 4096 bytes of IDENTIFY. -/
def State.identify (s : State) : Bytes :=
  padTo 4096 (natLe 4 0x51420824 ++ natLe 2 0x1F5C ++ natLe 2 0x0824 ++ calBytes 8 24 ++ calBytes 0x20 16 ++
    natLe 4 (if s.dev.minimal then 0 else s.img.version) ++ natLe 4 Config.romVersion.toNat ++ s.health ++ natLe 100 0 ++
    (List.range 32).flatMap s.volSummary)

/-! ### VOLUME_QUERY (R318) -/

/-- The time field of kind 0 of a record's acceptance. -/
def SRec.timeField (r : SRec) : Nat := r.optMs % 2 ^ 40 + (r.cycles % 2 ^ 24) * 2 ^ 40

/-- The slot active at the next start. -/
def BootRec.nextSlot (b : BootRec) : Nat := (b.once.orElse fun _ => b.revert).getD b.bootSlot

/-- The 256 bytes of VOLUME_QUERY. A stream's mapped blocks are those its records fill (DEDUCED). -/
def State.volQuery (s : State) (v : Nat) : Bytes :=
  let x := s.vol v
  if x.kind = 255 then padTo 256 [0, 0xFF]
  else
    let lost := ((s.nv.loss.runs.filter fun r => r.vol == v).map fun r => r.len).sum
    let mapped := if x.kind = 1 then ceilDiv x.used 4096 else x.map.length
    let oldest := (x.recs.head?.map fun r => r.seq).getD x.nextSeq
    let oldTime := (x.recs.head?.map SRec.timeField).getD 0
    let str := x.kind = 1
    let boot := x.kind = 2
    let b := s.nv.boot
    padTo 256 (natLe 1 v ++ natLe 1 x.kind ++ natLe 1 (s.volBits v + 16 * b2n x.sanitize) ++
      natLe 1 (s.nv.pins.filter fun p => p.vol == v).length ++ natLe 4 x.retention ++ natLe 8 x.cap ++ natLe 8 mapped ++
      natLe 8 lost ++ natLe 8 (if str then x.nextSeq else 0) ++ natLe 8 (if str then oldest else 0) ++ natLe 8 oldTime ++
      natLe 8 (if str then x.used else 0) ++ natLe 8 x.released ++ natLe 1 (if boot then b.bootSlot else 0) ++
      natLe 1 (b2n (boot && (b.once.isSome || b.revert.isSome))) ++ natLe 1 (if boot then b.nextSlot else 0) ++ natLe 5 0 ++
      natLe 4 (s.str.loaded.filter fun k => k / 2 ^ 32 == v).length)

/-! ### The loss report (R113) -/

/-- The 16 bytes of an entry. -/
def LossRun.bytes (r : LossRun) : Bytes :=
  natLe 1 r.vol ++ natLe 1 r.cause ++ natLe 2 r.len ++ natLe 8 r.first ++ natLe 4 r.cycle

/-- The 64-byte header. -/
def State.lossHeader (s : State) : Bytes :=
  let l := s.nv.loss
  let h := padTo 60 (natLe 2 1 ++ natLe 2 l.runs.length ++ natLe 4 (b2n l.trunc + 2 * b2n (l.runs.any fun r => r.cause = 5)) ++
    natLe 4 l.oldest ++ natLe 4 l.newest ++ natLe 8 (l.runs.map fun r => r.len).sum)
  h ++ natLe 4 (crc32c h).toNat

/-! ### Log pages (R276, R277) -/

/-- A LUN's 32 bytes of page 0x07 (R370). -/
def State.lunPage (s : State) (n : Nat) : Bytes :=
  let l := s.lun n
  let e := s.lunEntry n
  if ¬ lunPresent e then List.replicate 32 0
  else
    let high := l.blocks.foldl (fun m b => max m b.2.wear) 0
    padTo 32 (natLe 1 (if s.lunHealthy n then 1 else 2) ++
      natLe 1 (if l.failed ≠ 0 then l.failed else if s.lunHealthy n then 0 else 4) ++ natLe 2 (s.retiredCount n) ++
      natLe 4 (s.freeCount n) ++ natLe 2 (s.meanWear n / 1000) ++ natLe 2 (high / 1000) ++ natLe 4 l.incomplete ++
      natLe 4 l.suspensions ++ natLe 4 l.soft ++ natLe 4 l.recon ++ natLe 2 (min 0xFFFF l.ifErr))

/-- A connection's 32 bytes of page 0x0A (R465). -/
def State.connPage (s : State) (c : Nat) : Bytes :=
  let x := s.conn c
  padTo 32 (natLe 1 (if x.quarantined then 4 else x.st) ++ natLe 1 (x.port + 2 * b2n (x.st = 3 && x.session.isSome)) ++
    natLe 2 x.violations ++ natLe 4 x.acted ++ natLe 4 x.packets ++ natLe 2 x.rtos ++ natLe 2 x.seqNaks ++ natLe 2 x.rnrNaks ++
    natLe 2 x.quotaNaks ++ natLe 2 x.failovers ++ natLe 2 x.icrcErrs ++ natLe 4 (min 0xFFFFFFFF (x.appended / 1024)) ++
    natLe 4 (s.nv.lastMsn.get 0xFFFFFFFF c))

/-- A cairn's 16 bytes of page 0x0B (R482). -/
def State.cairnPage (s : State) (c : Nat) : Bytes :=
  let x := s.cairn c
  natLe 1 x.state ++ natLe 1 x.result ++ natLe 2 x.firings ++ natLe 2 x.drops ++ natLe 1 x.ended ++ natLe 1 x.depth ++ natLe 8 x.t0

/-- Blocks a SANITIZE under way has in scope. -/
def State.sanScopeNow (s : State) : Nat := s.nv.sanScope

/-- The records of Amber and Scree, staged ones included (R507; DEDUCED that a read shows those too). -/
def State.amberAll (s : State) : List EvRec := s.nv.amber ++ s.evr.staging.filter fun r => r.area == 1
def State.screeAll (s : State) : List EvRec :=
  let all := s.nv.scree ++ s.evr.staging
  all.drop (all.length - 32768)

/-- Pages a read may name. -/
def pageKnown (p : Nat) : Bool := 1 ≤ p && p ≤ 13

/-- The bytes of a page. -/
def State.page (s : State) (p : Nat) : Bytes :=
  match p with
  | 1 => padTo 512 (padTo 104 s.health ++ natLe 8 s.nv.rebuilt ++ natLe 8 (s.fl.total - s.fl.done) ++ natLe 8 s.nv.sanDone ++
      natLe 8 s.sanScopeNow)
  | 2 => s.amberAll.flatMap EvRec.bytes
  | 3 => s.screeAll.flatMap EvRec.bytes
  | 4 => (List.range 128).flatMap fun i => natLe 2 (s.evr.tc.get 0 i)
  | 5 => s.lossHeader ++ s.nv.loss.runs.flatMap LossRun.bytes
  | 6 => (List.range 72).flatMap fun k => natLe 4 (s.cls.get 0 k)
  | 7 => (List.range 128).flatMap s.lunPage
  | 8 => padTo 512 (s.nv.selfTests.take 16).flatten
  | 9 => s.imagePage
  | 10 => (List.range 256).flatMap s.connPage
  | 11 => (List.range 512).flatMap s.cairnPage
  | 12 => padTo 1024 (s.nv.measHist.take 32).flatten
  | 13 => padTo 512 (s.nv.startHist.take 16).flatten
  | _ => []

/-- The page sequence (R277, R508). -/
def State.pageSequence (s : State) (p : Nat) : Nat :=
  match p with
  | 2 => s.amberAll.length
  | 3 => s.nv.screeSeq + s.evr.staging.length
  | _ => s.pageSeq.get 0 p

/-- The records of a page that decode from neither copy are replaced in a read (R510): by their places. -/
def State.pageWith (s : State) (p : Nat) (gone : List Nat) : Bytes :=
  let area := b2n (p = 2)
  let sub (i : Nat) (r : EvRec) : EvRec := if gone.contains i then
      { code := 0xF020, kind := r.kind, area := r.area, sev := 9, src := Src.recorder, time := r.time, p1 := area, p2 := i, p3 := 0, p4 := 0 }
    else r
  if p = 2 then ((List.range s.amberAll.length).zip s.amberAll).flatMap fun x => (sub x.1 x.2).bytes
  else if p = 3 then ((List.range s.screeAll.length).zip s.screeAll).flatMap fun x => (sub x.1 x.2).bytes
  else s.page p

/-! ### Configuration items (R280) -/

/-- Bytes of an item, and how many there are of it; 0 for an item that does not exist. -/
def itemSize : Nat → Nat
  | 1 => 128 | 2 => 64 | 3 => 4 | 4 => 4 | 5 => 4 | 6 => 4 | 7 => 64 | 8 => 32 | _ => 0
def itemCount : Nat → Nat
  | 1 => 256 | 2 => 128 | 3 => 1 | 4 => 1 | 5 => 1 | 6 => 1 | 7 => 16 | 8 => 2 | _ => 0

/-- What an item that has never been stored holds: the reset values of its register, and the defaults of R415 and R424. -/
def itemDefault (item : Nat) : Bytes :=
  match item with
  | 3 => natLe 4 (4 * 20)
  | 4 => natLe 4 (24 + 64 * 3)
  | 5 => natLe 4 (1000 + 2 ^ 14 * 8 + 2 ^ 21 * 8)
  | 6 => natLe 4 128
  | 8 => padTo 32 (natLe 2 0 ++ natLe 2 0x88B5 ++ natLe 6 0 ++ natLe 2 100 ++ natLe 2 10)
  | _ => List.replicate (itemSize item) 0

def State.storedItem (s : State) (item index : Nat) : Bytes := s.nv.config.get (itemDefault item) (item * 65536 + index)

/-- `PWR_PFW_CTRL`, `PWR_CHG_CTRL` and `HQ_CYC_BUDGET` in force. -/
def State.pfwCtrl (s : State) : Nat := s.f Reg.pfwMode + 4 * s.f Reg.pfwDisc + 512 * s.f Reg.collTh
def State.chgCtrl (s : State) : Nat := s.f Reg.vresSet + 64 * s.f Reg.chgLimit
def State.cycBudget (s : State) : Nat := s.f Reg.cycWindow + 2 ^ 14 * s.f Reg.cycMaxCmds + 2 ^ 21 * s.f Reg.cycMaxUnits

/-- The item in force. -/
def State.itemInForce (s : State) (item index : Nat) : Bytes :=
  padTo (itemSize item) (match item with
    | 1 => s.tab.conn.get [] index
    | 2 => s.tab.lun.get [] index
    | 3 => natLe 4 s.pfwCtrl
    | 4 => natLe 4 s.chgCtrl
    | 5 => natLe 4 s.cycBudget
    | 6 => natLe 4 s.alloc.resSize
    | 7 => s.part index
    | 8 => s.port index
    | _ => [])

end Sys2Proof.Machine
end

