-- ==== Sys2Proof/Machine/Ilide.lean ====
section
/-! DEFINITION. The Ilide fabric, receiving side: the checks on arrival, the six opcodes, the ports' link and pause events, the
connection timers and boundaries (18_ilide_fabric.md). A frame is given without its FCS. -/

namespace Sys2Proof.Machine

/-! ### Header fields (R427, R430) -/

/-- A number sent most significant byte first. -/
def beAt (b : Bytes) (i n : Nat) : Nat := beNat (slice b i n)

def hOp (h : Bytes) : Nat := beAt h 1 1
def hFlags (h : Bytes) : Nat := beAt h 2 1
def hFirst (h : Bytes) : Bool := bit (hFlags h) 0
def hLast (h : Bytes) : Bool := bit (hFlags h) 1
def hSealed (h : Bytes) : Bool := bit (hFlags h) 2
def hPart (h : Bytes) : Nat := beAt h 4 2
def hDcid (h : Bytes) : Nat := beAt h 6 2
def hScid (h : Bytes) : Nat := beAt h 8 2
def hPsn (h : Bytes) : Nat := beAt h 13 3
def hMsn (h : Bytes) : Nat := beAt h 16 4
def hLen (h : Bytes) : Nat := beAt h 20 4
def hWindow (h : Bytes) : Nat := beAt h 24 2
/-- Header bytes from `i` on, `n` of them, are 0. -/
def hZero (h : Bytes) (i n : Nat) : Bool := beAt h i n = 0

/-- The opcode byte of a frame. -/
def frameOp (f : Bytes) : Nat := beAt f 19 1
/-- Opcodes that take no PSN (R431). -/
def noPsn (op : Nat) : Bool := op = 0x10 || op = 0x11 || op = 0x20

/-- A frame's parts: header and payload as the ICRC covers them, the ICRC, and the seal tag. -/
def frameTail (e : Bytes) : Nat := if hSealed e then 16 else 4
def frameInner (e : Bytes) : Bytes := e.take (e.length - frameTail e)
def frameIcrc (e : Bytes) : Bytes := slice e (e.length - frameTail e) 4
def frameTag (e : Bytes) : Bytes := slice e (e.length - 12) 12

/-! ### Checks 1 to 5 (R459) -/

/-- Check 1. -/
def State.frameOk (s : State) (p : Nat) (f : Bytes) (fcs : Bool) : Bool :=
  let n := f.length - 18
  fcs && 52 ≤ n && n ≤ 4160 && slice f 0 6 == portMac (s.port p) && beAt f 12 2 = 0x8100 && beAt f 16 2 = portType (s.port p)

/-- Check 2. -/
def icrcOk (e : Bytes) : Bool := 48 + frameTail e ≤ e.length && frameIcrc e == icrc (frameInner e)

/-- Check 3. -/
def State.bound (s : State) (p : Nat) (f h : Bytes) : Bool :=
  let c := hDcid h
  let e := s.connEntry c
  c < 256 && connValid e && connAllows e p && slice f 6 6 == connMac e p && beAt f 14 2 % 4096 = connTag e p % 4096 &&
  hPart h % 4096 = partId (s.connPartDef c)

/-- Check 4. -/
def State.tagged (s : State) (e : Bytes) : Bool :=
  let h := frameInner e
  let c := hDcid h
  let want := connSealed (s.connEntry c)
  hSealed h == want &&
  (!want || (match (if hOp h = 0x20 then some (s.connKey c) else (s.conn c).session) with
    | some k => frameTag e == (hmac k (h ++ frameIcrc e)).take 12
    | none => false))

/-- One of a connection's saturating counts. -/
def State.tallyIcrc (s : State) (c : Nat) : State :=
  if c < 256 ∧ connValid (s.connEntry c) then s.setConn c { s.conn c with icrcErrs := satAdd 0xFFFF (s.conn c).icrcErrs 1 } else s

/-- The answer of a quarantined connection: at most one NAK a second, to a packet in order, which it consumes (R461). -/
def State.quarantineNak (s : State) (c : Nat) (h : Bytes) : State :=
  let x := s.conn c
  let due : Bool := match x.lastQNak with
    | some t => decide (t + msTicks 1000 ≤ s.time.uptime)
    | none => true
  if x.st = 3 ∧ due ∧ hPsn h = x.epsn then
    (s.setConn c { x with lastQNak := some s.time.uptime }).nakTerminal c 12 (hPsn h) (hMsn h)
  else s

/-! ### Check 6: order (R433, R436, R455) -/

/-- A packet ahead of ePSN: one NAK SEQ. -/
def State.nakSeq (s : State) (c : Nat) : State :=
  let x := s.conn c
  if x.nakSent then s
  else (s.setConn c { x with nakSent := true, seqNaks := satAdd 0xFFFF x.seqNaks 1 }).sendSession c 0x11 0 0 (nakBody 1 x.epsn 0 0 0) []

/-- A duplicate: the reply of the message whose LAST packet it is goes out again. -/
def State.answerAgain (s : State) (c : Nat) (h : Bytes) : State :=
  if ¬ hLast h then s
  else match (s.conn c).replies.find? fun r => r.1 == hPsn h with
    | some r => s.sendSession c r.2.1 0 0 r.2.2 []
    | none => s

/-- A packet that takes a PSN: acted on when it is the expected one, on whichever port it came. -/
def State.inOrder (s : State) (c p : Nat) (h : Bytes) (act : State → State) : State :=
  let x := s.conn c
  let d := (hPsn h + 2 ^ 24 - x.epsn) % 2 ^ 24
  if x.st ≠ 3 then s
  else if d = 0 then
    act (s.setConn c { x with port := p, nakSent := false, acted := satAdd 0xFFFFFFFF x.acted 1 })
  else if d ≤ 2 ^ 23 then s.nakSeq c
  else s.answerAgain c h

/-! ### Check 7: form (R431) -/

/-- Version, reserved fields and PLEN. -/
def formOk (h : Bytes) : Bool :=
  beAt h 0 1 = 0x10 && bits (hFlags h) 7 5 = 0 && hZero h 3 1 && bits (hPart h) 15 12 = 0 && hZero h 12 1 &&
  beAt h 10 2 = h.length - 48

/-- A malformed packet: INVALID, and one violation. -/
def State.malformed (s : State) (c : Nat) (h : Bytes) : State := (s.nakTerminal c 9 (hPsn h) (hMsn h)).violation c

/-- A refusal of check 8: terminal, and one violation. -/
def State.refuse (s : State) (c code last : Nat) (h : Bytes) : State := (s.nakTerminal c code last (hMsn h)).violation c

/-! ### Windows and admission (R450, R451, R453) -/

/-- Staging units a partition slot uses. -/
def State.partUnits (s : State) (slot : Nat) : Nat :=
  (s.str.units.filter fun u => u.part == 1 + slot).length +
  (s.fab.conns.map fun x => if s.connSlot x.1 = slot then (match x.2.inMsg with
    | some m => m.units
    | none => 0) else 0).sum

/-- Packets of a message of `n` bytes. -/
def packetsOf (n : Nat) : Nat := max 1 (ceilDiv n 4096)

/-- The NAK code of check 8 for an APPEND, 0 for none. -/
def State.appendRefusal (s : State) (c : Nat) (h : Bytes) : Nat :=
  let d := s.connPartDef c
  let w := hWindow h
  let len := hLen h
  if 3 < w ∨ winKind d w ≠ 1 then 7
  else if (s.vol (winVol d w)).kind ≠ 1 ∨ winMax d w < len ∨ ¬ transformOk (beAt h 26 1) (beAt h 27 1) (beAt h 28 1) len then 8
  else 0

/-- Start a message at its FIRST packet: its grant, or the NAK of its outcome (R438, R575). -/
def State.beginAppend (s : State) (c : Nat) (h : Bytes) (go : State → State) : State :=
  let slot := s.connSlot c
  let d := s.connPartDef c
  let v := winVol d (hWindow h)
  let psn := hPsn h
  let last := psn + packetsOf (hLen h) - 1
  let k := ceilDiv (hLen h) 4096
  let used := s.partUnits slot
  let cls := if used + k ≤ partQuota d then 5 else 8
  let refusal := s.appendRefusal c h
  if refusal ≠ 0 then s.refuse c refusal last h
  else if s.volLocked v then s.nakTerminal c 10 last (hMsn h)
  else if (s.vol v).isSealed then s.nakTerminal c 6 last (hMsn h)
  else if ¬ s.dev.inService then (s.countClass cls 6).nakRetry c 5 psn (hMsn h) s.shutdownHint
  else if ¬ s.openTo cls then (s.countClass cls 5).nakRetry c 4 psn (hMsn h) (s.energyHint cls)
  else if ¬ s.unitsFit cls k ∨ ¬ s.energyFits k then
    if cls = 5 then (s.countClass 5 7).nakRetry c 2 psn (hMsn h) (s.unitsHint 5 k)
    else (s.countClass 8 4).nakRetry c 3 psn (hMsn h) (hintOf (used + k - partQuota d) (s.releasedIn false (1 + slot)))
  else
    let s1 := s.takeGeneral k
    go (s1.setConn c { s1.conn c with inMsg := some {
      msn := hMsn h, mlen := hLen h, window := hWindow h, form := slice h 26 3, firstPsn := psn, data := [], units := k
      vol := v, granted := s.time.uptime, excess := cls = 8 } })

/-- Mark the newest record of a stream with its connection and MSN (R447). -/
def markRecord (c msn seq : Nat) (r : SRec) : SRec := if r.seq = seq then { r with conn := c + 1, msn := msn } else r

/-- The LAST packet of an APPEND: the record is accepted and acknowledged (R243, R434, R447, R448). -/
def State.endAppend (s : State) (c : Nat) (m : IMsg) (last : Nat) : State :=
  let v := winVol (s.connPartDef c) m.window
  let x := s.vol v
  let cls := if m.excess then 8 else 5
  if x.kind ≠ 1 then s.nakTerminal c 8 last m.msn
  else if x.isSealed then s.nakTerminal c 6 last m.msn
  else match s.toRelease v (extent m.mlen) (x.space - x.used) x.recs with
    | none => (s.countClass cls 4).nakRetry c 3 m.firstPsn m.msn 0xFFFFFFFF
    | some k =>
      let payload := transformed (beAt m.form 0 1) (2 ^ beAt m.form 1 1) (beAt m.form 2 1) m.data
      let s1 := (s.releaseOldest v k).accept v payload (4096 + partId (s.connPartDef c)) (beAt m.form 0 1) m.units false
        (1 + s.connSlot c) m.granted
      let y := s1.vol v
      let s2 := { s1.setVol v { y with recs := y.recs.map (markRecord c m.msn x.nextSeq) } with
        nv.lastMsn := s1.nv.lastMsn.put c m.msn }
      let z := s2.conn c
      ((s2.setConn c { z with inMsg := none, epsn := (last + 1) % 2 ^ 24, appended := z.appended + m.mlen }).countClass cls 0).reply
        c last 0x10 (ackBody last m.msn x.nextSeq)

/-- Take one packet's payload into the open message. -/
def State.takeAppend (s : State) (c : Nat) (h payload : Bytes) : State :=
  match (s.conn c).inMsg with
  | none => s.malformed c h
  | some m =>
    let data := m.data ++ payload
    let whole := data.length = m.mlen
    let full := payload.length = 4096
    if hMsn h ≠ m.msn ∨ hLen h ≠ m.mlen ∨ hWindow h ≠ m.window ∨ hLast h ≠ decide whole ∨ (¬ whole ∧ ¬ full) ∨
       m.mlen < data.length then s.malformed c h
    else if whole then s.endAppend c { m with data := data } (hPsn h)
    else
      let x := s.conn c
      s.setConn c { x with inMsg := some { m with data := data }, epsn := (hPsn h + 1) % 2 ^ 24 }

/-- APPEND (R431, R437, R453). -/
def State.actAppend (s : State) (c : Nat) (h : Bytes) : State :=
  let payload := h.drop 48
  let opened := (s.conn c).inMsg.isSome
  if ¬ formOk h ∨ hFirst h = opened ∨ hLen h = 0 ∨ 262144 < hLen h ∨ ¬ hZero h 29 19 ∨
     (hFirst h ∧ payload.length ≠ min 4096 (hLen h)) then s.malformed c h
  else if hFirst h then s.beginAppend c h fun t => t.takeAppend c h payload
  else s.takeAppend c h payload

/-! ### READ_REQ (R452, R453) -/

/-- The 512 bytes of a STATUS window. -/
def State.statusWindow (s : State) (c : Nat) : Bytes :=
  let vols := (List.range 32).flatMap fun v =>
    let x := s.vol v
    natLe 8 (if x.kind = 1 then x.nextSeq else 2 ^ 64 - 1)
  padTo 512 (padTo 128 s.health ++ vols ++ natLe 4 (s.partUnits (s.connSlot c)) ++ natLe 4 (partQuota (s.connPartDef c)) ++
    natLe 2 (s.conn c).violations)

/-- Acknowledge a message of one packet. -/
def State.ackOne (s : State) (c : Nat) (h : Bytes) : State :=
  (((s.setConn c { s.conn c with epsn := (hPsn h + 1) % 2 ^ 24 }).countClass 5 0)).reply c (hPsn h) 0x10 (ackBody (hPsn h) (hMsn h) 0)

/-- The response of a READ_REQ. -/
def State.respondRead (s : State) (c : Nat) (h data : Bytes) (status : Nat) (tail : Bytes) : State :=
  (s.ackOne c h).enqueue c
    { op := 4, msn := hMsn h, head := natBe 4 data.length ++ natBe 2 status ++ [0, 0], base := some 0, tail := tail, imm := false
      payload := data }

/-- A read of a STREAM_READ window, as READ_STREAM copies (R247). -/
def State.readWindow (s0 : State) (c v : Nat) (h : Bytes) (media : List (Nat × Media)) : State :=
  let s := s0.readRecords v media
  let start := beAt h 28 8
  let recs := (s.vol v).recs
  let from_ := recs.filter fun r => start ≤ r.seq
  let oldest := match recs with
    | [] => start
    | r :: _ => r.seq
  let t := streamCopy (failedOf media) (hLen h) (beAt h 36 4) from_ (max start oldest) 0
  let nextSeq := match from_ with
    | [] => start
    | _ => t.2.2.1
  s.respondRead c h t.1 t.2.2.2.2 (natBe 8 nextSeq ++ natBe 2 t.2.1 ++ natBe 2 (b2n (start < oldest) + 2 * b2n t.2.2.2.1))

/-- READ_REQ (R451 to R453). -/
def State.actRead (s : State) (c : Nat) (h : Bytes) (media : List (Nat × Media)) : State :=
  let d := s.connPartDef c
  let w := hWindow h
  let kind := if 3 < w then 0 else winKind d w
  let v := winVol d w
  let len := hLen h
  if ¬ formOk h ∨ ¬ hFirst h ∨ ¬ hLast h ∨ h.length ≠ 48 ∨ ¬ hZero h 26 2 ∨ ¬ hZero h 40 8 then s.malformed c h
  else if kind ≠ 2 ∧ kind ≠ 3 then s.refuse c 7 (hPsn h) h
  else if winMax d w < len ∨ (kind = 2 ∧ 512 < beAt h 28 8 + len) ∨
      (kind = 3 ∧ ((s.vol v).kind ≠ 1 ∨ len < 32 ∨ len % 8 ≠ 0)) then s.refuse c 8 (hPsn h) h
  else if kind = 2 then s.respondRead c h (slice (s.statusWindow c) (beAt h 28 8) len) 0 []
  else if s.volLocked v then s.nakTerminal c 10 (hPsn h) (hMsn h)
  else s.readWindow c v h media

/-! ### SEND (R434, R460) -/

/-- The trigger tokens of a connection now, and the uptime up to which they are counted. -/
def State.tokensNow (s : State) (c : Nat) : Nat × Nat :=
  let x := s.conn c
  let e := s.connEntry c
  let gained := (s.time.uptime - x.tokenAt) * connTrigRate e / 25000000
  if connTrigBurst e ≤ x.tokens + gained then (connTrigBurst e, s.time.uptime)
  else (x.tokens + gained, x.tokenAt + gained * 25000000 / max 1 (connTrigRate e))

/-- SEND: the trigger reaches the cairns of its tag and source (R469). -/
def State.actSend (s : State) (c : Nat) (h : Bytes) : State :=
  let d := s.connPartDef c
  let tag := beAt h 24 1
  let t := s.tokensNow c
  if ¬ formOk h ∨ ¬ hFirst h ∨ ¬ hLast h ∨ 64 < hLen h ∨ h.length ≠ 48 + hLen h ∨ ¬ hZero h 25 23 then s.malformed c h
  else if tag < partFirstTag d ∨ partLastTag d < tag then s.refuse c 7 (hPsn h) h
  else if connTrigRate (s.connEntry c) = 0 ∨ t.1 = 0 then s.refuse c 11 (hPsn h) h
  else
    let s1 := s.setConn c { s.conn c with tokens := t.1 - 1, tokenAt := t.2 }
    (s1.triggerAll 1 fun x => x.kind == 1 && x.detail == tag && (x.source == c || x.source == 0xFFFF) && x.state ≠ 0).ackOne c h

/-! ### ACK and NAK (R435, R438, R439, R463) -/

/-- A sealed session near its limit starts a new exchange, or goes DOWN when no nonce can be made (R463, R464). -/
def State.rekey (s : State) (c : Nat) : State :=
  if (s.conn c).st = 3 ∧ s.rekeyDue c then (if s.mayHello c then s.requestHello c (s.conn c).port else s.connDown c) else s

/-- Everything up to a PSN is acknowledged; `done` says what becomes of a cairn's message. -/
def State.acknowledge (s : State) (c psn : Nat) (done : State → OMsg → State) : State :=
  let x := s.conn c
  let d := (psn + 2 ^ 24 - x.una % 2 ^ 24) % 2 ^ 24
  let una := x.una + d + 1
  if 64 ≤ d ∨ x.top < una then s
  else
    let gone := x.outq.filter fun m => m.psn + m.packets ≤ una
    let s1 := s.setConn c { x with
      una := una, snd := max x.snd una, tries := 0, movedOnce := false
      outq := x.outq.filter fun m => una < m.psn + m.packets }
    (gone.foldl done s1).pump c 64

/-- ACK: an ACK that advances restarts the timer and frees the window; its messages are delivered. -/
def State.actAck (s : State) (c : Nat) (h : Bytes) (late : Bool) : State :=
  if ¬ formOk h ∨ h.length ≠ 48 ∨ ¬ hZero h 16 1 ∨ ¬ hZero h 26 2 ∨ ¬ hZero h 36 12 then s.violation c
  else if (s.conn c).st ≠ 3 then s
  else
    let s1 := if late then s.late else s
    (s1.acknowledge c (beAt h 17 3) State.cairnAcked).rekey c

/-- A retryable NAK: the message goes again from its FIRST packet, no earlier than the hint. -/
def State.holdMessage (s : State) (c psn hint : Nat) : State :=
  let x := s.conn c
  let d := (psn + 2 ^ 24 - x.una % 2 ^ 24) % 2 ^ 24
  if 64 ≤ d ∨ x.top ≤ x.una + d then s
  else s.setConn c { x with
    snd := x.una + d, holdHello := decide (hint = 0xFFFFFFFF)
    holdUntil := if hint = 0xFFFFFFFF then 0 else s.time.uptime + usTicks hint }

/-- NAK. -/
def State.actNak (s : State) (c : Nat) (h : Bytes) : State :=
  let code := beAt h 16 1
  if ¬ formOk h ∨ h.length ≠ 48 ∨ code = 0 ∨ 12 < code ∨ ¬ hZero h 30 18 then s.violation c
  else if (s.conn c).st ≠ 3 then s
  else if code = 1 then (s.goBack c).rekey c
  else if code ≤ 5 then s.holdMessage c (beAt h 17 3) (beAt h 24 4)
  else (s.acknowledge c (beAt h 17 3) fun t m => if m.cairn = 0 then t else t.cairnBroken (m.cairn - 1) 4).rekey c

/-! ### HELLO (R446, R447, R462, R464) -/

/-- Answer a request: the reply tells the last APPEND that survives, and the connection is UP on that port. -/
def State.answerHello (s : State) (c p : Nat) (h : Bytes) : State :=
  if ¬ s.mayHello c then s
  else
    let d := s.helloNonce c
    let s1 := d.1.sendHello c p 1 false (d.1.nv.lastMsn.get 0xFFFFFFFF c) d.2
    s1.connUp c p (if connSealed (s.connEntry c) then some (sessionKey (s.connKey c) (slice h 24 16) d.2 (hScid h) c) else none)

/-- A HELLO of a connection on a port. -/
def State.actHello (s : State) (c p : Nat) (h : Bytes) : State :=
  let x := s.conn c
  let kind := beAt h 16 1
  if ¬ formOk h ∨ h.length ≠ 48 ∨ 3 < kind ∨ bits (beAt h 17 1) 7 1 ≠ 0 ∨ ¬ hZero h 18 2 ∨ ¬ hZero h 44 4 then s.violation c
  else if x.quarantined ∧ kind ≠ 2 then s
  else match kind with
    | 0 => s.answerHello c p h
    | 1 =>
      if x.st = 2 then
        s.connUp c p (if connSealed (s.connEntry c) then some (sessionKey (s.connKey c) x.nonce (slice h 24 16) c (hScid h)) else none)
      else s
    | 2 => s
    | _ => if x.st = 3 then s.connDown c else s

/-! ### Arrival (R459) -/

/-- What a frame past checks 1 to 4 does. -/
def State.actFrame (s : State) (c p : Nat) (h : Bytes) (a : Arrival) (media : List (Nat × Media)) : State :=
  let op := hOp h
  if op = 0x10 then s.actAck c h a.late
  else if op = 0x11 then s.actNak c h
  else if op = 0x20 then s.actHello c p h
  else if (s.conn c).quarantined then s.quarantineNak c h
  else s.inOrder c p h fun t =>
    (if op = 0x01 then t.actAppend c h else if op = 0x03 then t.actRead c h media else if op = 0x05 then t.actSend c h
     else t.malformed c h).rekey c

/-- A frame arrives at a port: its place in the buffer, then the checks in order. A frame that lost to a timer of R442 is counted
late; an ACK counts itself. -/
def State.arrive (s : State) (p : Nat) (f : Bytes) (fcs : Bool) (a : Arrival) (media : List (Nat × Media)) : State :=
  let prio := bits (beAt f 14 2) 15 13
  if ¬ s.fabUp ∨ ¬ s.portUp p then s
  else
    let s1 := s.noteFill p prio a.fill.toNat
    let e := f.drop 18
    let h := frameInner e
    if s1.noRoom p prio a.fill.toNat then s1
    else if ¬ s1.frameOk p f fcs then s1.countF (Reg.portDrop p) 1
    else if ¬ icrcOk e then (s1.bump 0x38).tallyIcrc (hDcid e)
    else if ¬ s1.bound p f h then (s1.countF (Reg.portBind p) 1).bump 0x39
    else if ¬ s1.tagged e then (s1.bump 0x3F).violation (hDcid h)
    else (if a.late ∧ hOp h ≠ 0x10 then s1.late else s1).actFrame (hDcid h) p h a media

/-- A frame of one opcode whose FCS is good; any other frame leaves the state. -/
def State.arriveOp (s : State) (op p : Nat) (f : Bytes) (a : Arrival) (media : List (Nat × Media)) : Result :=
  if frameOp f = op then ok (s.arrive p f true a media) else ok s

def execIlideAppend (p : Fin 2) (frame : Bytes) (a : Arrival) (s : State) : Result := s.arriveOp 0x01 p.val frame a []
def execReadReq (p : Fin 2) (frame : Bytes) (a : Arrival) (media : List (Nat × Media)) (s : State) : Result :=
  s.arriveOp 0x03 p.val frame a media
def execSend (p : Fin 2) (frame : Bytes) (a : Arrival) (s : State) : Result := s.arriveOp 0x05 p.val frame a []
def execAck (p : Fin 2) (frame : Bytes) (a : Arrival) (s : State) : Result := s.arriveOp 0x10 p.val frame a []
def execNak (p : Fin 2) (frame : Bytes) (a : Arrival) (s : State) : Result := s.arriveOp 0x11 p.val frame a []
def execHello (p : Fin 2) (frame : Bytes) (a : Arrival) (s : State) : Result := s.arriveOp 0x20 p.val frame a []

/-- The six opcodes that have rows of their own. -/
def ilideOps : List Nat := [0x01, 0x03, 0x05, 0x10, 0x11, 0x20]

/-- OTHER_FRAME (R426, R459): a frame that fails its FCS, or is none of the six opcodes. -/
def execOtherFrame (p : Fin 2) (frame : Bytes) (fcs : Bool) (a : Arrival) (s : State) : Result :=
  if fcs ∧ ilideOps.contains (frameOp frame) then ok s else ok (s.arrive p.val frame fcs a [])

/-! ### Ports (R423 to R426, R456 to R458) -/

/-- What a port holds of a link that is gone. -/
def State.clearPort (s : State) (p : Nat) : State :=
  let off (k : Nat) : Bool := k / 8 ≠ p
  { (s.setF (Reg.portPaused p) 0).setF (Reg.portXoff p) 0 with
    fab := { s.fab with
      held := s.fab.held.filter (fun e => off e.1), rx := s.fab.rx.filter (fun e => off e.1)
      limited := s.fab.limited.filter (fun e => off e.1) } }

/-- A port whose link was declared down has failed, until its link comes up or it is taken down (R275, R578; DEDUCED). -/
def State.failPort (s : State) (p : Nat) (failed : Bool) : State :=
  if bit s.portsFailed p = failed then s else { s with portsFailed := withBit s.portsFailed p failed }.regrade

/-- PORT_LINK_UP (R423 to R425): the port takes its settings. Event 0x5001 gives the speed in Mb/s (DESIGN CHOICE). -/
def execPortLinkUp (p : Fin 2) (kx fec : Bool) (s : State) : Result :=
  let b := s.storedItem 8 p.val
  let fits := portEnable b && portMac b ≠ List.replicate 6 0 && (if kx then portFallback b || portOnlyKx b else !portOnlyKx b)
  if ¬ s.fabUp ∨ ¬ bit (s.f Reg.portEn) p.val ∨ 2 ≤ s.f (Reg.portLink p.val) ∨ ¬ fits then ok s
  else
    let s1 := { s with fab.portCfg := s.fab.portCfg.set [] p.val b }
    let s2 := ((s1.setF (Reg.portLink p.val) (if kx then 3 else 2)).setF (Reg.portFec p.val) (b2n (fec && !kx))).record 0x5001
      (Src.fab p.val) (if kx then 1000 else 10000)
    ok ((if kx ∧ ¬ portOnlyKx b then s2.record 0x5003 (Src.fab p.val) else s2).failPort p.val false)

/-- The link of a port goes down: its connections fail over. -/
def State.portDown (s : State) (p link : Nat) : State :=
  ((s.clearPort p).setF (Reg.portLink p) link).failoverPort p fun _ => true

/-- PORT_LINK_DOWN (R425, R454). -/
def execPortLinkDown (p : Fin 2) (s : State) : Result :=
  if ¬ s.dieUp ∨ s.dev.minimal ∨ s.f (Reg.portLink p.val) < 2 then ok s
  else ok (((s.record 0x5002 (Src.fab p.val)).portDown p.val 1).failPort p.val true)

/-- Enable or disable a port (`FAB_CTRL.PORT_EN`). -/
def State.enablePort (s : State) (p : Nat) (on : Bool) : State :=
  let was := bit (s.f Reg.portEn) p
  let b := s.storedItem 8 p
  if was = on then s
  else if on then
    (s.setF Reg.portEn (withBit (s.f Reg.portEn) p true)).setF (Reg.portLink p)
      (b2n (portEnable b && portMac b ≠ List.replicate 6 0))
  else ((s.portDown p 0).setF Reg.portEn (withBit (s.f Reg.portEn) p false)).failPort p false

/-- PORT_ENABLE: a write of one PORT_EN bit (R454 for a port taken down). -/
def execPortEnable (path : Path) (p : Fin 2) (on : Bool) (s : State) : Result :=
  s.asWrite fun u => if ¬ u.fabUp then u.ignoredWrite else u.asInstaller path fun t => t.enablePort p.val on

/-- The frames that wait for a priority go out. -/
def State.releaseHeld (s : State) (p prio : Nat) : State :=
  let key := 8 * p + prio
  let fs := s.fab.held.get [] key
  let s1 := { s with fab := { s.fab with held := s.fab.held.erase key, resumed := s.fab.resumed.put key s.time.uptime } }
  fs.foldl (fun t f => t.putFrame p prio f) (s1.setF (Reg.portPaused p) (withBit (s1.f (Reg.portPaused p)) prio false))

/-- PFC_FRAME (R456): for each enabled priority a pause (`quanta` bit set: a time that is not 0) or an XON. -/
def execPfcFrame (p : Fin 2) (set quanta : BitVec 8) (s : State) : Result :=
  let honoured := portPfc (s.port p.val)
  if ¬ s.fabUp ∨ ¬ s.portUp p.val then ok s
  else ok ((List.range 8).foldl (fun t i =>
    if ¬ bit set.toNat i ∨ ¬ bit honoured i then t
    else if bit quanta.toNat i then t.setF (Reg.portPaused p.val) (withBit (t.f (Reg.portPaused p.val)) i true)
    else if bit (t.f (Reg.portPaused p.val)) i then t.releaseHeld p.val i
    else t) s)

/-- PAUSE_WATCHDOG (R457): the partner has kept a priority paused for PAUSE_WD. -/
def execPauseWatchdog (p : Fin 2) (prio : Fin 8) (s : State) : Result :=
  if ¬ s.fabUp ∨ ¬ s.paused p.val prio.val then ok s
  else
    let s1 := ((s.record 0x5030 (Src.fab p.val) prio.val).bump 0x3C).setF (Reg.portWd p.val)
      (withBit (s.f (Reg.portWd p.val)) prio.val true)
    ok (s1.failoverPort p.val fun c => s1.connPcp c p.val == prio.val)

/-- PAUSE_TX_LIMIT (R458): the port's own pause reaches PAUSE_TX_MAX. -/
def execPauseTxLimit (p : Fin 2) (prio : Fin 8) (s : State) : Result :=
  if ¬ s.fabUp ∨ ¬ bit (s.f (Reg.portXoff p.val)) prio.val then ok s
  else
    let s1 := (s.ownPause p.val prio.val false).record 0x5031 (Src.fab p.val) prio.val
    let key := 8 * p.val + prio.val
    ok (if 49152 < s1.fab.rx.get 0 key then { s1 with fab.limited := s1.fab.limited.put key true } else s1)

/-! ### Timers (R440 to R442) -/

/-- The retry limit is reached: the connection moves, or goes DOWN when it has moved before (R441). -/
def State.retryLimit (s : State) (c : Nat) : State :=
  let x := s.conn c
  if x.movedOnce then (s.setConn c x.keepCairns).connDown c
  else
    let s1 := (s.setConn c { x with tries := 0 }).failover c
    if (s1.conn c).st = 3 then s1.setConn c { s1.conn c with movedOnce := true } else s1

/-- RETRANSMIT_TIMEOUT (R435, R440, R441): go back, counted; a resend that a retryable NAK's hint asks for is not (R439). -/
def execRetransmitTimeout (c : Fin 256) (s : State) : Result :=
  let x := s.conn c.val
  if ¬ s.fabUp ∨ x.st ≠ 3 ∨ x.top ≤ x.una ∨ x.holdHello ∨ s.time.uptime < x.holdUntil then ok s
  else if x.holdUntil ≠ 0 then ok ((s.setConn c.val { x with holdUntil := 0 }).pump c.val 64)
  else
    let s1 := s.setConn c.val { x with rtos := satAdd 0xFFFF x.rtos 1, tries := x.tries + 1 }
    ok (if connRetry (s.connEntry c.val) ≤ x.tries + 1 then s1.retryLimit c.val else s1.goBack c.val)

/-- ASSEMBLY_TIMEOUT (R440): the partial message goes, and ePSN returns to its FIRST packet. -/
def execAssemblyTimeout (c : Fin 256) (s : State) : Result :=
  match (s.conn c.val).inMsg with
  | none => ok s
  | some m =>
    if ¬ s.fabUp then ok s
    else
      let s1 := s.dropIn c.val
      ok (s1.setConn c.val { s1.conn c.val with epsn := m.firstPsn, nakSent := false })

/-- KEEPALIVE_SEND (R440). -/
def execKeepaliveSend (c : Fin 256) (s : State) : Result :=
  if ¬ s.fabUp ∨ (s.conn c.val).st ≠ 3 ∨ ¬ s.mayHello c.val then ok s
  else
    let d := s.helloNonce c.val
    ok (d.1.sendHello c.val (s.conn c.val).port 2 false 0 d.2)

/-- PARTNER_SILENCE (R440, R454): no valid frame for 3 × KEEPALIVE. -/
def execPartnerSilence (c : Fin 256) (s : State) : Result := if s.fabUp then ok (s.failover c.val) else ok s

/-- HELLO_RETRY (R440, R446): the request goes again, on each allowed port in turn. -/
def execHelloRetry (c : Fin 256) (s : State) : Result :=
  let x := s.conn c.val
  if ¬ s.fabUp ∨ ¬ s.dev.serves ∨ (x.st ≠ 1 ∧ x.st ≠ 2) then ok s
  else ok (s.requestHello c.val (if x.st = 1 then x.port else s.nextPort c.val x.port))

/-! ### Entries and quarantine (R445, R461) -/

/-- No message is partly received, and none partly sent. -/
def Conn.atBoundary (x : Conn) : Bool :=
  x.inMsg.isNone && !(x.outq.any fun m => m.psn < x.snd && x.snd < m.psn + m.packets)

/-- An entry takes effect. A change of a binding field, or a new connection, is followed by a HELLO exchange. -/
def State.applyEntry (s : State) (c : Nat) (b : Bytes) : State :=
  let old := s.connEntry c
  let s1 := { s with tab := { s.tab with conn := s.tab.conn.set [] c b, connNext := s.tab.connNext.erase c } }
  if ¬ connValid b ∨ (connValid old ∧ connBinding old == connBinding b) then s1
  else if s1.dev.serves then s1.connDown c
  else s1.setConn c { s1.conn c with st := 1, port := connPref b }

/-- CONNECTION_BOUNDARY (R445): its boundary, or (`forced`) 100 ms after the sync. -/
def execConnectionBoundary (c : Fin 256) (forced : Bool) (s : State) : Result :=
  match s.tab.connNext.get? c.val with
  | none => ok s
  | some b => if ¬ s.fabUp ∨ (¬ forced ∧ ¬ (s.conn c.val).atBoundary) then ok s else ok (s.applyEntry c.val b)

/-- What an accepted sync of a connection's entry does at once: a quarantine ends, and VALID 0 closes the connection. -/
def State.syncConn (s : State) (c : Nat) (b : Bytes) : State :=
  let s1 := s.release c
  if connValid b then s1 else (s1.closeConn c).applyEntry c b

/-- TABLE_SYNC_DONE (R17 to R19, R445): the copy ends. A sync that still awaits its host read goes on. -/
def execTableSyncDone (s : State) : Result :=
  match s.tab.sync with
  | none => ok s
  | some y =>
    if tableCount y.table ≤ y.index then ok (s.rejectSync y)
    else match s.syncData y with
      | none => ok s
      | some b =>
        if s.entryOk y b then
          let s1 := (({ s with tab.sync := none }.setF Reg.syncReject 0).setF Reg.syncBusy 0).acceptEntry y b
          ok (if y.table = 2 then s1.syncConn y.index b else s1)
        else ok (s.rejectSync y)

/-- QUARANTINE_END (R461): QDUR seconds have passed. -/
def execQuarantineEnd (c : Fin 256) (s : State) : Result :=
  if s.fabUp ∧ partDur (s.connPartDef c.val) ≠ 0 then ok (s.release c.val) else ok s

/-- A write to `FAB_QUAR_CLR`. -/
def State.clearQuarantine (s : State) (v : Nat) : State := if bit v 31 then s.release (v % 256) else s

def execQuarantineClear (path : Path) (value : Word) (s : State) : Result :=
  s.asWrite fun u => if ¬ u.fabUp then u.ignoredWrite else u.asInstaller path fun t => t.clearQuarantine value.toNat

end Sys2Proof.Machine
end

