-- ==== Sys2Proof/Machine/Start.lean ====
section
/-! DEFINITION. Reset sources and the Keystone ROM (06_start_reset_and_bedrock.md, R115 to R130; R561): what crosses a start,
the failed-start count, the choice and load of the image; and the last steps of the drain. -/

namespace Sys2Proof.Machine

/-! ### The failed-start count (R124 to R126) -/

/-- Write F to the latch, and to the boot record when a boot LUN works (R124). -/
def State.setFails (s : State) (v : Nat) : State :=
  let s1 := { s with bas.latchF := v, start.fails := v }
  if s.bootCopy 0 ∨ s.bootCopy 1 then s1.writeBoot fun b => { b with fails := v } else s1

/-- A failed start (R126): the logic die goes into reset without a drain. Staged event records are written first, and the trouble
counters saved (DEDUCED from R126 and R505: nothing of a start that failed could be read otherwise). -/
def State.failedStart (s : State) (cause : Nat) : State :=
  let s1 := (s.record 0x1010 Src.start cause).bump 0x08
  let s2 := if s.start.trial then s1.endTrial else s1.setFails (min 3 (s.start.fails + 1))
  let s3 := s2.noteStart.flushScree.saveTimes
  { s3 with bas.dieReset := true, bas.nextSrc := 4, nv.lastStop := {} }

/-- A start is under way that can fail: ROM with its image not refused, or STARTING, a warning included (R98). -/
def State.startRuns (s : State) : Bool :=
  s.dieUp && !s.bas.freeze &&
  ((s.dev = .rom && s.start.rom = .running) || s.dev = .starting || (s.dev = .preFreeze && s.pfw.back = .starting))

/-- START_TIMEOUT (R126). -/
def execStartTimeout (s : State) : Result := if s.startRuns then ok (s.failedStart 1) else ok s

/-- WATCHDOG_EXPIRY (R165). -/
def execWatchdogExpiry (s : State) : Result := if s.startRuns then ok (s.failedStart 2) else ok s

/-- WATCHDOG_HALF (R165). -/
def execWatchdogHalf (s : State) : Result := if s.startRuns then ok (s.raise 0 7) else ok s

/-- FAILED_COUNT_CLEAR (R125): 60 s in service without interruption. -/
def execFailedCountClear (s : State) : Result :=
  if s.dieUp ∧ s.dev.inService ∧ ¬ s.bas.freeze ∧ ¬ s.start.cleared then ok ({ s with start.cleared := true }.setFails 0)
  else ok s

/-- A write to `GLB_START`: FAILS 0 clears F; other values are dropped. -/
def State.writeStart (s : State) (value : Nat) : State :=
  if value % 4 = 0 then s.setFails 0 else s.dropValue Src.start 0x18

/-- GLB_START_WRITE (R124, R587). -/
def execGlbStartWrite (p : Path) (value : Word) (s : State) : Result :=
  if ¬ s.dieUp then ok s
  else if s.dev = .recovery then ok s.ignoredWrite
  else ok (s.asInstaller p fun t => t.writeStart value.toNat)

/-! ### Reset requests (R115, R116) -/

/-- The device drains and restarts its logic die. -/
def State.restart (s : State) (src : Nat) (cause : FreezeCause) : State :=
  if s.bas.freeze ∨ ¬ s.dieUp then s else ({ s with bas.nextSrc := src }).freezeNow cause true

/-- A write of 1 to `GLB_CTRL.RESTART`: ignored in PRE_FREEZE, DRAINING and SAFE. -/
def State.restartRequest (s : State) : State := if s.dev = .preFreeze then s else s.restart 3 .restart

/-- RESTART_REQUEST (R116, R587). -/
def execRestartRequest (p : Path) (s : State) : Result :=
  if ¬ s.dieUp then ok s
  else if s.dev = .recovery then ok s.ignoredWrite
  else ok (s.asInstaller p State.restartRequest)

/-- RESET_N_ACCEPTED (R56, R116): no effect in SAFE, nor on a drain that ends in SAFE; one drain runs for a restart request and
RESET_n. -/
def execResetNAccepted (s : State) : Result :=
  if s.dev = .off ∨ s.dev = .safe then ok s
  else if s.bas.dieReset ∨ (s.bas.freeze ∧ s.drain.warm) then ok { s with bas.resetLow := true }
  else if s.bas.freeze then ok s
  else ok (({ s with bas.resetLow := true }.record 0x1030 Src.start).restart 2 .resetPin)

/-- RESET_N_RELEASE (R115): the warm start may begin. -/
def execResetNRelease (s : State) : Result := ok { s with bas.resetLow := false }

/-! ### Power (R59, R64, R70) -/

/-- POWER_ON (R70): the input stage comes up and samples VCCQ_SEL. Riset is checked (R66). `latch`: VRES has stayed at 2.0 V or
more since the retention latch was written (R592). -/
def execPowerOn (vin vres : BitVec 16) (riset : BitVec 32) (vccq18 latch : Bool) (s : State) : Result :=
  if s.bas.inputOn then ok s
  else ok { s with
    dev := .off
    bas := { vinMv := vin.toNat, vresMv := vres.toNat, riset := riset.toNat, vccq18 := vccq18, rails := .rising, dieReset := true
             latchF := if latch then s.bas.latchF else 0, latchCause := if latch then s.bas.latchCause else 0 } }

/-- RAILS_GOOD (R70): every rail is within tolerance; the logic die's cold reset may end. -/
def execRailsGood (s : State) : Result := if s.bas.rails = .rising then ok { s with bas.rails := .good } else ok s

/-! ### The logic die leaves reset (R118) -/

/-- The run before this start ended with a sealed drain that wrote no units (R119); a restart from SAFE counts as after power
loss (R105). -/
def State.cleanStop (s : State) : Bool := s.nv.lastStop.sealDone && s.nv.lastStop.units = 0 && s.bas.nextSrc ≠ 1

/-- `GLB_STATE.KIND`. -/
def State.startKind (s : State) : Nat := if 2 ≤ s.bas.nextSrc then (if s.cleanStop then 2 else 3) else b2n s.cleanStop

/-- The time base at a start (R483 to R485). -/
def State.freshTime (s : State) : Time :=
  { optMs := s.nv.savedOpt, cycles := s.nv.savedCycles + 1, gpioIn := s.time.gpioIn }

/-- What remains of the holds of R529 on the new uptime count. -/
def holdsLeft (now : Nat) (m : Map Nat) : Map Nat := m.map fun x => (x.1, x.2 - now)

/-- Non-volatile state as the new run finds it: counters resume (R484, R525), moves and cairn gaps of the old run are over, and
the stop of that run is on record (R119). -/
def State.freshNv (s : State) (rom : RomFacts) : Nv :=
  { s.nv with
    savedCycles := s.nv.savedCycles + 1, configOk := rom.config, journalOk := rom.journal
    stopCal := if s.time.calSet then some s.time.calendar else none
    keys := { s.nv.keys with nextChal := s.nv.keys.reserved, holds := holdsLeft s.time.uptime s.nv.keys.holds }
    lastStop := { s.nv.lastStop with cause := s.bas.latchCause, loss := false }
    cairns := s.nv.cairns.map fun (c : Nat × Cairn) => (c.1, { c.2 with t0Tick := none })
    luns := s.nv.luns.map fun (l : Nat × Lun) => (l.1, { l.2 with blocks := l.2.blocks.map fun (b : Nat × FBlock) =>
      (b.1, { b.2 with move := 0, state := if b.2.state = .reclaiming then .closed else b.2.state }) }) }

/-- Basalt when the logic die leaves reset: FREEZE is lowered (R89), and the charger regulates to the reset value of VRES_SET. -/
def State.freshBasalt (s : State) : Basalt :=
  { s.bas with
    freeze := false, cause := none, dieReset := false, toBedrock := false, vresSetMv := 24000, badRails := [], alert := false }

/-- The logic die right after reset (R118): only pins, Basalt and non-volatile state cross it. -/
def State.fresh (s : State) (st : Straps) (rom : RomFacts) : State :=
  let s1 : State := { State.reset with
    pending := s.pending, out := s.out, bas := s.freshBasalt, nv := s.freshNv rom, time := s.freshTime, evr.tc := s.nv.savedTc
    pfw := { aOn := s.pfw.aOn, bOn := s.pfw.bOn }, pcie := { perstHeld := s.pcie.perstHeld, detect := !s.pcie.perstHeld }
    usb := { vbus := s.usb.vbus }, jtag := s.jtag, junction := s.junction
    fl.nextClosed := 1 + (s.nv.luns.flatMap fun l => l.2.blocks.map fun b => b.2.closedSeq).foldl max 0
    start := { rom := .running, straps := { st with recoveryLow := false }, src := s.bas.nextSrc, kind := s.startKind
               fails := s.bas.latchF, riseTicks := if s.bas.nextSrc < 2 then usTicks rom.riseUs.toNat else 0 } }
  let s2 := (List.range 4).foldl (fun t g => t.setF (Reg.gpioIn g) (b2n (bit s.time.gpioIn g))) (s1.noteVin s.bas.vinMv s.bas.vresMv)
  { s2 with bas.chgMode := s2.chargerMode s.bas.vinMv }

/-- What every start does to stored data once the boot record has been read: a boot slot named once, or its revert (R295),
write offsets (R297), read counts (R332), the time off (R334), erases without a pass record (R366, R367), a cycle budget above
the reserve (R415), MSNs of surviving fabric records (R447). -/
def State.bootSlots (s : State) : State :=
  let b := s.nv.boot
  match b.once, b.revert with
  | some n, _ => s.writeBoot fun r => { r with bootSlot := n, once := none, revert := some b.bootSlot }
  | none, some n => (s.writeBoot fun r => { r with bootSlot := n, revert := none }).record 0x1073 Src.strata n
  | none, none => s

/-- Write offsets advance to the next multiple of 4096 (R297). -/
def Vol.nextPage (x : Vol) : Vol := { x with writeOff := 4096 * ceilDiv x.writeOff 4096 % max 1 x.space }

/-- Erase-incomplete blocks are found (R366, R367). -/
def State.findErases (s : State) : State :=
  let found := s.nv.luns.flatMap fun l =>
    (l.2.blocks.filter fun b => b.2.state == BlockState.incomplete && !b.2.found).map fun b => (l.1, b.1)
  found.foldl (fun t (x : Nat × Nat) =>
    let l := t.lun x.1
    let t1 := t.setLun x.1 { l with incomplete := l.incomplete + 1 }
    ((t1.setBlock x.1 x.2 { t1.block x.1 x.2 with found := true }).record 0x3010 Src.quarry x.1 x.2).bump 0x12) s

/-- The stored cycle budget breaks R258 against the reserve. -/
def State.budgetOver (s : State) : Bool :=
  let w := leAt (s.storedItem 5 0) 0 4
  let window := bits w 13 0
  s.reserveWanted < bits w 31 21 * (1 + ceilDiv 10000 (max 1 window))

def State.recoverData (s : State) : State :=
  let s1 := { s.bootSlots with nv.vols := s.nv.vols.map fun (v : Nat × Vol) => (v.1, if v.2.kind = 1 then v.2.nextPage else v.2) }
  let s2 := if s1.start.kind = 1 ∨ s1.start.kind = 2 then s1 else
    { s1 with nv.luns := s1.nv.luns.map fun (l : Nat × Lun) => (l.1, { l.2 with blocks := l.2.blocks.map fun (b : Nat × FBlock) =>
        (b.1, { b.2 with reads := b.2.savedReads + lunDisturb (s1.storedItem 2 l.1) (b.2.cell = 1) / 4 }) }) }
  let s3 := s2.ageOff.findErases
  if s3.budgetOver then s3.record 0x2042 Src.xfr else s3

/-! ### The image (R127, R128, R378, R557) -/

/-- The ROM verifies a slot's primary copy, and its mirror when that fails (R378): the state, and whether either is good. Each
failed verification counts in trouble counter 0x48 (R549). -/
def State.verifySlot (s : State) (g : Nat) (c : Copies) : State × Bool :=
  let code := imageCode s.nv.floor (s.slotImage g)
  let p := s.bootCopy 0 && c.primary && code = 0
  let m := s.bootCopy 1 && c.mirror && code = 0 && c.same
  if p then (s, true)
  else
    let s1 := (s.bump 0x48).record 0x7020 Src.start g
    if m then (s1, true) else (s1.bump 0x48, false)

/-- Load one section at a start; a failure is a failed start with cause 3 (R168). The flag says whether it loaded. -/
def State.loadAtStart (s : State) (k : Nat) (sec : Bytes) : State × Bool :=
  let r := s.loadSection k true sec
  if r.2 = 1 then (r.1, true) else ((r.1.record 0x7010 Src.start k r.2).failedStart 3, false)

/-- Load every section of a list, stopping at the first that fails. -/
def State.loadAll (s : State) (k : Nat) : List Bytes → State × Bool
  | [] => (s, true)
  | x :: xs =>
    let r := s.loadAtStart k x
    if r.2 then State.loadAll r.1 k xs else r

/-- Where the stored hook section lies in staging SRAM: behind the image, at the next multiple of 4096 (DESIGN CHOICE). -/
def sramOf (image hooks : Bytes) : Bytes := if hooks.isEmpty then image else padTo (4096 * ceilDiv image.length 4096) image ++ hooks

/-- Start a verified slot: its Vein programs and its Keystone program are loaded, and the image program runs (R121). -/
def State.startSlot (s : State) (g : Nat) : State :=
  let b := s.slotImage g
  let s1 := { s with
    start.slot := g
    img := { s.img with running := g, version := imgVersion b, selfConfirm := bit (imgFlags b) 0, checked := s.img.checked.put g 1
                        sram := sramOf b (s.nv.config.get [] 0) } }
  let v := s1.loadAll 2 ((secsOf b 2).map (secBytes b))
  if v.2 then (v.1.loadAll 0 ((secsOf b 1).map (secBytes b))).1 else v.1

/-- The facts of a slot's copies. -/
def copiesOf (rom : RomFacts) (g : Nat) : Copies := if g = 0 then rom.g0 else rom.g1

/-- Start the confirmed slot, or the other one when it is verifiable, or enter Bedrock with cause 2 (R128). -/
def State.startConfirmed (s : State) (rom : RomFacts) : State :=
  let g := s.nv.boot.confirmed
  if g = 255 then s.enterBedrock 2
  else
    let r := s.verifySlot g (copiesOf rom g)
    if r.2 then r.1.startSlot g
    else
      let s1 := (r.1.record 0x1010 Src.start 3).bump 0x08
      let q := s1.verifySlot (1 - g) (copiesOf rom (1 - g))
      if q.2 then
        let s2 := (q.1.writeBoot fun b => { b with confirmed := 1 - g }).setFails 0
        (s2.record 0x7021 Src.start (1 - g)).startSlot (1 - g)
      else q.1.enterBedrock 2

/-- Start the trial slot, or clear a trial whose three starts are used up (R557). -/
def State.startTrial (s : State) (rom : RomFacts) : State :=
  let g := s.nv.boot.trial
  if s.nv.boot.trialStarts < 3 then
    let s1 := { s.writeBoot fun b => { b with trialStarts := b.trialStarts + 1 } with start.trial := true, start.slot := g }
    let r := (s1.record 0x7003 Src.start g).verifySlot g (copiesOf rom g)
    if r.2 then r.1.startSlot g else r.1.failedStart 3
  else s.endTrial.startConfirmed rom

/-- F as the ROM finds it (R124), and the bootstrap Vein program in V0 and V1. -/
def State.romReady (s : State) : State :=
  { s with
    start := { s.start with fails := max s.bas.latchF s.nv.boot.fails }
    eng := (s.eng.put 2 { run := true }).put 3 { run := true } }

/-- The ROM from the boot record on (R124, R127, R128, R557, R568). `asked`: the installer asked for Bedrock. -/
def State.romBoot (s : State) (rom : RomFacts) (asked : Bool) : State :=
  if asked then s.enterBedrock 6
  else if 3 ≤ s.start.fails then s.enterBedrock 1
  else if s.nv.boot.trial ≠ 255 then s.startTrial rom
  else s.startConfirmed rom

/-- The ROM samples RECOVERY_n low (R561). -/
def State.enterRecovery (s : State) : State :=
  (({ s with start.straps := { s.start.straps with recoveryLow := true } }.record 0x7041 Src.start).setDev .recovery).noteStart

/-- The ROM from its start (R35, R372, R561). -/
def State.romStart (s : State) (st : Straps) (rom : RomFacts) (asked : Bool) : State :=
  if ¬ rom.crystal then { s with start.rom := .crystal }
  else if ¬ rom.calRow then { s with start.rom := .stuck }.record 0x1012 Src.start
  else if st.recoveryLow then s.enterRecovery
  else if ¬ rom.lunAnswers then s
  else s.romReady.recoverData.romBoot rom asked

/-- The logic die may leave reset: rails good, RESET_n high. -/
def State.mayLeaveReset (s : State) : Bool :=
  s.bas.inputOn && s.bas.rails = .good && !s.bas.resetLow &&
  (s.bas.dieReset || (s.dev = .rom && s.start.rom = .reset))

/-- LOGIC_DIE_RESET_RELEASE (R118): straps are sampled, SRAM is cleared, and the Keystone ROM runs up to the start of the image
program, a Bedrock, RECOVERY, or a state it stays in. -/
def execLogicDieResetRelease (st : Straps) (rom : RomFacts) (s : State) : Result :=
  if ¬ s.mayLeaveReset then ok s
  else
    let s1 := s.fresh st rom
    let s2 := s1.record 0x1001 Src.start s1.start.src s1.start.kind
    let s3 := if st.testEn then s2.record 0x6010 Src.start else s2
    ok (s3.romStart st rom s.bas.toBedrock)

/-- BOOT_LUN_TIMEOUT (R130): no boot LUN has answered. -/
def execBootLunTimeout (s : State) : Result :=
  if s.dieUp ∧ s.dev = .rom ∧ s.start.rom = .running ∧ s.img.running = 255 then
    ok ({ s with start.rom := .stuck }.record 0x1011 Src.start)
  else ok s

/-- CONFIG_RETRY_LIMIT (R122): 1 s after PE_PERST_n was deasserted. -/
def execConfigRetryLimit (s : State) : Result :=
  if s.dieUp ∧ ¬ s.pcie.perstHeld then ok { s with pcie.crs := false } else ok s

/-! ### The drain's steps (R101) -/

/-- DRAIN_STEP_DONE (R101): the present step's work is done, and the next one starts. -/
def execDrainStepDone (work : DrainWork) (s : State) : Result :=
  let s0 := { s with drain.elapsed := work.elapsed.toNat }
  match s.drain.step with
  | 1 => ok { s0.drainPrograms work.failed with drain.step := 2 }
  | 2 => ok { s0.journalVerified with drain.step := 3, drain.manifest := true }
  | 3 => ok { s0.drainUnits work.failed with drain.step := 4, bas.safeReleased := true }
  | 4 => ok { s0.journalVerified with drain.step := 5 }
  | 5 => ok { s0 with drain.step := 6, drain.sealDone := true, evr.shut := true }
  | 6 => ok { s0.flushScree with drain.step := 7 }
  | 7 => ok { s0.saveTrial.saveTimes with
              drain.step := 8, nv.boot.seq := s.nv.boot.seq + 1, nv.boot.stopCause := s.stopCause
              nv.boot.stopSealed := s.drain.sealDone }
  | 8 => ok (s0.noteStop true).endDrain
  | _ => ok s

end Sys2Proof.Machine
end

