-- ==== Sys2Proof/Machine/Bus.lean ====
section
/-! DEFINITION. The register file: which registers there are and who writes them (25_register_address_map.md, R582 to R587), what
a read returns (R7 to R10), and what a write does by access code and change class (R12 to R15, R522). -/

namespace Sys2Proof.Machine

/-! ### The map (R582, R583) -/

/-- Who may write a register: any role, the installer role, or Keystone only (R583). -/
inductive Writer | any | installer | keystone
  deriving DecidableEq, Repr

/-- The rows of R583: offset, count, stride and writer. -/
def regMap : List (Nat × Nat × Nat × Writer) :=
  [(0x0, 2, 4, .any), (0x8, 1, 4, .installer), (0x10, 2, 4, .any), (0x18, 1, 4, .installer), (0x1C, 2, 4, .any),
   (0x30, 1, 4, .any), (0x400, 4, 4, .any),
   (0x1000, 2, 4, .any), (0x1020, 8, 4, .any), (0x1040, 8, 4, .any), (0x1080, 1, 4, .any), (0x10C0, 1, 4, .installer),
   (0x10C4, 2, 4, .any), (0x2000, 9, 4, .any), (0x2400, 128, 4, .any), (0x2800, 128, 4, .any)]
  ++ [(0x3000, 7, 4, .any), (0x3100, 8, 0x20, .installer), (0x3104, 8, 0x20, .installer), (0x3108, 8, 0x20, .installer),
   (0x310C, 8, 0x20, .any), (0x3110, 8, 0x20, .installer), (0x3200, 4, 4, .installer),
   (0x4000, 2, 4, .any), (0x4020, 8, 4, .any), (0x4040, 8, 4, .any), (0x4100, 64, 4, .any), (0x4200, 1, 4, .any),
   (0x4204, 1, 4, .installer), (0x4208, 2, 4, .any),
   (0x5000, 2, 4, .any), (0x5008, 1, 4, .installer), (0x500C, 10, 4, .any), (0x5040, 1, 4, .installer), (0x5044, 2, 4, .any),
   (0x5080, 1, 4, .any), (0x6000, 1, 4, .any), (0x6008, 4, 4, .any), (0x6800, 64, 4, .any),
   (0x7000, 3, 4, .any), (0x7010, 2, 4, .any), (0x7800, 2, 4, .any)]
  ++ [(0x8000, 4, 4, .any), (0x8100, 1, 4, .installer), (0x8104, 2, 4, .any), (0x8180, 1, 4, .installer), (0x8184, 1, 4, .any),
   (0x9000, 8, 0x100, .any), (0x9004, 8, 0x100, .installer), (0x9008, 8, 0x100, .any), (0x9010, 8, 0x100, .keystone),
   (0x9014, 8, 0x100, .keystone), (0x9018, 8, 0x100, .keystone), (0x901C, 8, 0x100, .keystone),
   (0x9800, 1, 4, .installer), (0x9804, 2, 4, .any),
   (0xA000, 2, 4, .keystone), (0xA008, 1, 4, .any), (0xA00C, 3, 4, .installer), (0xA020, 4, 4, .any), (0xA100, 64, 4, .keystone),
   (0xB000, 1, 4, .installer), (0xB010, 2, 4, .any), (0xB020, 4, 4, .any), (0xB040, 1, 4, .installer), (0xB044, 1, 4, .any),
   (0xC000, 3, 4, .any), (0xD000, 10, 4, .any), (0xD040, 1, 4, .any), (0xD044, 1, 4, .installer), (0xD048, 1, 4, .any),
   (0xD050, 1, 4, .any), (0xE000, 4, 4, .any)]

/-- The writer of the register at a 4-byte aligned offset; none where no register table names the offset. -/
def regWriter (a : Nat) : Option Writer :=
  (regMap.find? fun r => decide (r.1 ≤ a) && (a - r.1) % r.2.2.1 == 0 && decide ((a - r.1) / r.2.2.1 < r.2.1)).map fun r => r.2.2.2

/-- Offsets of a block that runs only outside ROM and Bedrock: STR Quarry and Tumbler, DRC, FAB and CRN (R587). -/
def needsService (a : Nat) : Bool := (0x8100 ≤ a && a < 0x8200) || (0xA000 ≤ a && a < 0xD000)

/-- The block of the register does not run (R587); DRC runs where DRAM does. -/
def State.notRunning (s : State) (a : Nat) : Bool :=
  (s.dev = .rom || s.dev = .bedrock) && needsService a && !(0xA000 ≤ a && a < 0xB000 && s.dram.up)

/-- RECOVERY serves reads of GLB, EVR and IMG (R587). -/
def inRecovery (a : Nat) : Bool := a < 0x400 || (0x6000 ≤ a && a < 0x6900) || (0xE000 ≤ a && a < 0xE010)

/-! ### The fields of the register tables -/

/-- Fields of timer `n`. -/
def timerFields (n : Nat) : List Field :=
  [Reg.tmrEn n, Reg.tmrMode n, Reg.tmrGsrc n, Reg.tmrGpol n, Reg.tmrGedge n, Reg.tmrLink n, Reg.tmrMaster n, Reg.tmrRKey n,
   Reg.tmrRHook n, Reg.tmrRCairn n, Reg.tmrOut n, Reg.tmrRVein n, Reg.tmrPeriod n, Reg.tmrCount n, Reg.tmrCapture n, Reg.tmrRun n,
   Reg.tmrEvt n, Reg.tmrCap n, Reg.tmrOvr n]
def gpioFields (g : Nat) : List Field :=
  [Reg.gpioFunc g, Reg.gpioTimer g, Reg.gpioLevel g, Reg.gpioIn g, Reg.gpioFilt g, Reg.gpioKedge g]
def chanFields (n : Nat) : List Field :=
  [Reg.chMode n, Reg.chTiming n, Reg.rxDly n, Reg.errIface n, Reg.errHard n, Reg.chScr n 0, Reg.chScr n 1, Reg.chScr n 2, Reg.chScr n 3]
def portFields (p : Nat) : List Field :=
  [Reg.portLink p, Reg.portFec p, Reg.portPaused p, Reg.portXoff p, Reg.portDrop p, Reg.portBind p]

/-- The fields held in `State.csr`, by block. -/
def blockFields (a : Nat) : List Field :=
  if a < 0x400 then [Reg.glbId, Reg.glbStaticWr, Reg.glbErrAddr, Reg.syncTable, Reg.syncIndex, Reg.syncReject, Reg.syncBusy]
  else if a < 0x1000 then
    [Reg.linkSpeed, Reg.linkWidth, Reg.linkUp, Reg.linkReversed, Reg.linkPolarity, Reg.linkPm, Reg.maxSpeed, Reg.resetsFlr,
     Reg.resetsHot, Reg.resetsPerst, Reg.resetsDegrade, Reg.errPoison, Reg.errCplTo, Reg.errUnexp, Reg.errFatal]
  else if a < 0x2000 then
    [Reg.hqBaseLo, Reg.hqBaseHi, Reg.asyncLost, Reg.pushMiss, Reg.cycWindow, Reg.cycMaxCmds, Reg.cycMaxUnits, Reg.cycCmds,
     Reg.cycUnits, Reg.cycOver] ++ (List.range 8).map Reg.ringEn
  else if a < 0x3000 then
    [Reg.mbxVector, Reg.mbxTimeout, Reg.mbxIeSlot, Reg.mbxIeFree, Reg.mbxIeTo, Reg.h2dMask, Reg.d2hMask]
  else if a < 0x4000 then (List.range 8).flatMap timerFields ++ (List.range 4).flatMap gpioFields
  else if a < 0x5000 then [Reg.xfrBaseLo, Reg.xfrBaseHi, Reg.holdMs, Reg.raceLost, Reg.raceDeferred]
  else if a < 0x6000 then
    [Reg.vinOk, Reg.onVres, Reg.band, Reg.resvCut, Reg.vresSet, Reg.chgLimit, Reg.pfwMode, Reg.pfwDisc, Reg.collTh, Reg.pfwFault,
     Reg.vcoreCode, Reg.vcoreLoop, Reg.vcorePace, Reg.ceilSeen]
  else if a < 0x7000 then [Reg.evrSupp]
  else if a < 0x8000 then [Reg.aptMax, Reg.rctMax, Reg.fltWin]
  else if a < 0x9000 then
    [Reg.strMissDram, Reg.strMissFlash, Reg.qryFloor, Reg.qryTarget, Reg.qryShare, Reg.qryRebuildShare, Reg.wlDelta, Reg.tOffset,
     Reg.offH, Reg.offRow]
  else if a < 0xA000 then (List.range 8).flatMap chanFields ++ [Reg.minRun, Reg.susCount, Reg.susCapped]
  else if a < 0xB000 then
    [Reg.drcEn, Reg.drcIdle, Reg.drcRate, Reg.drcRanks2, Reg.drcX16, Reg.drcDensity, Reg.drcMap, Reg.drcRdbi, Reg.drcForce2x,
     Reg.drcCl, Reg.drcCwl, Reg.drcSet, Reg.drcReplay, Reg.drcReinit, Reg.drcRfail, Reg.drcIfail, Reg.postpone, Reg.ratThresh,
     Reg.scrubHours, Reg.eccCorr, Reg.eccUncorr, Reg.eccAddr, Reg.parAlerts, Reg.parReinit, Reg.ratCnt]
  else if a < 0xC000 then [Reg.portEn] ++ portFields 0 ++ portFields 1
  else if a < 0xD000 then []
  else if a < 0xE000 then [Reg.hookEn, Reg.hookMerged]
  else []

/-- The fields of one register. -/
def fieldsAt (a : Nat) : List Field := (blockFields a).filter fun f => f.off = a

/-- What a read shows of a field: a staged value where one waits (R14), nothing of a write-only field. -/
def State.shown (s : State) (f : Field) : Nat :=
  if f.access = .wo then 0 else s.staged.get (s.f f) f.key

/-- The part of a register that its fields give. -/
def State.fieldWord (s : State) (a : Nat) : Nat := ((fieldsAt a).map fun f => s.shown f * 2 ^ f.lo).sum
/-- The reset value of that part. -/
def resetWord (a : Nat) : Nat := ((fieldsAt a).map fun f => if f.access = .wo then 0 else f.reset * 2 ^ f.lo).sum

/-! ### The parts of registers that other state gives -/

/-- `TMR_UP`, `TMR_CAL`, `TMR_OPT`, `EVR_SCREE_SEQ` and `SEC_CHAL` (R10). -/
def State.wide (s : State) : L64 → Nat
  | .up => s.time.uptime
  | .cal => s.time.calendar
  | .opt => s.optField
  | .screeSeq => s.pageSequence 3
  | .chal => s.nv.keys.nextChal

/-- The L64 low and high halves by offset. -/
def l64Low (a : Nat) : Option L64 :=
  if a = 0x3000 then some .up else if a = 0x3008 then some .cal else if a = 0x3010 then some .opt
  else if a = 0x6008 then some .screeSeq else if a = 0x7010 then some .chal else none
def l64High (a : Nat) : Option L64 := if 4 ≤ a then l64Low (a - 4) else none
def l64Offset : L64 → Nat
  | .up => 0x3000 | .cal => 0x3008 | .opt => 0x3010 | .screeSeq => 0x6008 | .chal => 0x7010

/-- Where the holding register of a path lies in `Time.holding`. -/
def holdKey (p : Path) (x : L64) : Nat :=
  (match p with
    | .pcie => 0
    | .keystone => 8) +
  (match x with
    | .up => 0 | .cal => 1 | .opt => 2 | .screeSeq => 3 | .chal => 4)

/-- Bits as a number, bit 0 first. -/
def flagsNat (p : Nat → Bool) (n : Nat) : Nat := ((List.range n).map fun i => b2n (p i) * 2 ^ i).sum

/-- GLB and the ring unit. -/
def State.glbWord (s : State) (a : Nat) : Nat :=
  if a = 0x4 then s.glbState
  else if a = 0x18 then s.glbStart
  else if a = 0x1C then
    b2n s.bas.vccq18 + 2 * b2n s.start.straps.fbclkLvds + 4 * b2n s.start.straps.recoveryLow + 8 * b2n s.start.straps.testEn
  else if a = 0x20 then s.glbCause
  else 0
def State.ringWord (s : State) (a : Nat) : Nat :=
  if 0x1040 ≤ a ∧ a < 0x1060 then
    let r := s.ring ((a - 0x1040) / 4)
    r.sqHead + 2 ^ 10 * r.cmds.length + 2 ^ 16 * r.state + 2 ^ 18 * r.fault
  else 0

def State.mbxWord (s : State) (a : Nat) : Nat :=
  if a = 0x2008 then s.mbx.h2dBits
  else if a = 0x2010 then s.mbx.d2hBits
  else if a = 0x201C then s.mbx.h2dFull + 2 ^ 8 * s.mbx.d2hFull + 2 ^ 16 * s.mbx.h2dTo + 2 ^ 24 * s.mbx.d2hTo
  else if a = 0x2020 then s.mbx.seq
  else if 0x2800 ≤ a then leNat (s.mbx.d2h.bytes (a - 0x2800) 4)
  else 0

/-- Read requests of channel `n` in flight (`XFR_CH_STAT.READS`): host reads of its commands not yet ended, as many as
OUTSTANDING allows (DEDUCED). -/
def State.readsFlying (s : State) (n : Nat) : Nat :=
  min (s.chan n).ctx.outstanding
    (((s.ring n).cmds.filter fun c => c.stage == .moving).flatMap fun c => c.descs.filter fun d => !d.toHost).length
def State.chanState (s : State) (n : Nat) : Nat :=
  if (s.chan n).halted then 2 else if (s.ring n).cmds.any fun c => c.stage == .moving then 1 else 0

/-- A transit count in 16 bits; 65 536 does not fit, and the spec states no value for it. -/
def transitField (n : Nat) : Nat := if n < 65536 then n else (Config.transitField n).toNat

def State.xfrWord (s : State) (a : Nat) : Nat :=
  if 0x4020 ≤ a ∧ a < 0x4040 then
    let n := (a - 0x4020) / 4
    s.chanState n + 4 * s.readsFlying n + 2 ^ 8 * (s.chan n).faults
  else if 0x4100 ≤ a ∧ a < 0x4200 then ((s.chan ((a - 0x4100) / 0x20)).fault[(a - 0x4100) % 0x20 / 4]?).getD 0
  else if a = 0x4200 then s.genFree + 2 ^ 11 * s.resFree + 2 ^ 21 * s.alloc.resSize
  else if a = 0x4208 then
    transitField (s.transitUnits - s.transitUsed - s.alloc.transitLost) + 2 ^ 16 * transitField s.transitUnits
  else 0

/-- A measurement is in progress (`PWR_STAT.MEAS_BUSY`). -/
def State.measuring (s : State) : Bool := s.led.phase = .waitDip || s.led.phase = .falling
def PfwState.code : PfwState → Nat
  | .off => 0 | .armed => 1 | .timing => 2 | .disarmed => 3

def State.pwrWord (s : State) (a : Nat) : Nat :=
  if a = 0x5000 then
    4 * s.bas.chgMode + 16 * b2n s.measuring + 32 * b2n s.led.valid + 2 ^ 8 * flagsNat (fun i => s.openTo (i + 1)) 9
  else if a = 0x5004 then s.bas.vinMv + 2 ^ 16 * s.bas.vresMv
  else if a = 0x5010 then s.led.c
  else if a = 0x5014 then s.led.esr
  else if a = 0x5018 then s.led.vtop
  else if a = 0x501C then s.led.eUsable
  else if a = 0x5020 then s.led.limit
  else if a = 0x5024 then s.risk
  else if a = 0x5028 then s.led.peak
  else if a = 0x502C then s.unitCost + 2 ^ 16 * (s.base / 10)
  else if a = 0x5030 then (if s.led.reserveCharged then s.alloc.resSize else 0)
  else if a = 0x5044 then
    b2n s.pfw.aOn + 2 * b2n s.pfw.bOn + 4 * b2n s.warnsA + 8 * b2n s.warnsB + 16 * s.pfw.state.code + 128 * b2n (s.pfw.first = .b)
  else if a = 0x5048 then s.lastStopWord
  else 0

def State.evrWord (s : State) (a : Nat) : Nat :=
  if a = 0x6000 then
    s.amberHeld + 2 ^ 13 * b2n (4096 ≤ s.amberHeld) + 2 ^ 14 * s.evr.staging.length + 2 ^ 23 * b2n s.nv.single
  else if a = 0x6014 then s.evr.last
  else if 0x6800 ≤ a then
    let w := (a - 0x6800) / 4
    s.evr.tc.get 0 (2 * w) + 2 ^ 16 * s.evr.tc.get 0 (2 * w + 1)
  else 0

/-- The longest remaining hold in units of 16 s, rounded up (DESIGN CHOICE). -/
def State.holdUnits (s : State) : Nat :=
  min 255 (ceilDiv (((List.range 3).map fun p => (s.holdLeft p).getD 0).foldl max 0) 16000000)

def State.secWord (s : State) (a : Nat) : Nat :=
  if a = 0x7000 then s.roles.pcie + 4 * s.roles.usb + 16 * b2n s.roles.jtag + 32 * b2n s.installerKey.isSome
  else if a = 0x7004 then
    ((List.range 3).map fun p => min 255 (s.nv.keys.rejects.get 0 p) * 2 ^ (8 * p)).sum + 2 ^ 24 * s.holdUnits
  else if a = 0x7008 then flagsNat (fun v => (s.vol v).kind ≠ 255 && s.volLocked v) 32
  else if a = 0x7800 then s.roles.flint.stat + 4 * s.roles.flint.reruns
  else 0

/-- The map area in MiB (R305): DRAM without the transit pool, 64 MiB of tables and the segment directory. -/
def State.segments (s : State) : Nat :=
  (s.nv.vols.map fun v => if v.2.kind = 255 then 0 else ceilDiv v.2.blocks 1024).sum
def State.mapAreaMiB (s : State) : Nat :=
  if s.dram.up then (s.dram.capMiB * 2 ^ 20 - s.transitUnits * 4096 - 2 ^ 26 - 8 * s.segments) / 2 ^ 20 else 0

/-- The cohorts of healthy LUNs that `p` accepts, at most 255. -/
def State.cohorts (s : State) (p : Cohort → Bool) : Nat :=
  min 255 (s.healthyLuns.map fun n => ((s.lun n).cohorts.filter p).length).sum

def State.strWord (s : State) (a : Nat) : Nat :=
  if a = 0x8000 then
    s.str.mapMode + 4 * b2n s.str.ckptAt.isSome + 16 * s.nv.boot.bootSlot +
      32 * b2n (s.nv.boot.once.isSome || s.nv.boot.revert.isSome)
  else if a = 0x8004 then min 0x3FFFFF s.str.sinceCkpt
  else if a = 0x8008 then s.mapAreaMiB
  else if a = 0x8104 then
    (s.healthyLuns.filter fun n => (s.lunRun n).mode == 2).length + 2 ^ 8 * (s.healthyLuns.filter fun n => (s.lunRun n).heldBack).length +
      2 ^ 16 * b2n s.fl.rebuild.isSome + 2 ^ 17 * b2n s.sparesOut + 2 ^ 18 * b2n s.parityOn
  else if a = 0x8108 then
    match s.fl.rebuild with
    | some n => n + 2 ^ 8 * b2n (bit s.nv.failed.channels (lunChannel n)) + 2 ^ 16 * (if s.fl.total = 0 then 0 else s.fl.done * 1000 / s.fl.total)
    | none => 0xFF
  else if a = 0x8184 then
    s.fl.row + 2 ^ 8 * s.cohorts (fun c => decide (accOne ≤ c.acc)) + 2 ^ 16 * s.cohorts (fun c => c.overdue)
  else 0

/-- A channel is in service: healthy, with its Vein program released (R354). -/
def State.chanServes (s : State) (n : Nat) : Bool := !bit s.nv.failed.channels n && (s.engine (2 + n)).run
def State.flcWord (s : State) (a : Nat) : Nat :=
  if a = 0x9808 then flagsNat s.chanServes 8 + 2 ^ 8 * s.healthyLuns.length
  else if a < 0x9800 ∧ a % 0x100 = 0 then
    let n := (a - 0x9000) / 0x100
    let c := s.fchan n
    2 ^ 8 * b2n (s.chanServes n) + 2 ^ 9 * b2n c.wpHigh + 2 ^ 10 * b2n c.cur.isSome + 2 ^ 11 * b2n (!c.susp.isEmpty) +
      2 ^ 16 * flagsNat (fun i => s.lunHealthy (lunAt n i)) 16
  else 0

def State.fabWord (s : State) (a : Nat) : Nat :=
  if a = 0xB010 ∨ a = 0xB014 then
    let p := (a - 0xB010) / 4
    2 ^ 19 * flagsNat (fun i => s.barred p i) 8
  else if a = 0xB044 then (s.fab.conns.filter fun c => c.2.st == 3).length
  else 0

def State.crnWord (s : State) (a : Nat) : Nat :=
  if a = 0xC000 then
    (s.nv.cairns.filter fun c => c.2.state == 1).length + 2 ^ 10 * s.crn.running.length + 2 ^ 13 * s.crn.queue.length
  else if a = 0xC004 then s.crn.dropA + 2 ^ 16 * s.crn.dropGap
  else s.crn.lastCairn + 2 ^ 12 * s.crn.lastResult + 2 ^ 16 * (s.crn.lastNumber % 65536)

def State.belWord (s : State) (a : Nat) : Nat :=
  if a < 0xD028 then
    let x := s.engine ((a - 0xD000) / 4)
    b2n x.run + 2 * b2n x.waiting.isSome + 4 * b2n x.fault + 8 * x.cause + 2 ^ 16 * x.fpc
  else if a = 0xD040 then
    s.hooks.entry + 2 ^ 4 * b2n s.hooks.busy + 2 ^ 5 * s.hooks.queue.length + 2 ^ 16 * s.hooks.result
  else if a = 0xD050 then ((List.range 10).map fun n => (s.engine n).loadRes * 2 ^ (3 * n)).sum
  else 0

def State.imgWord (s : State) (a : Nat) : Nat :=
  if a = 0xE000 then
    b2n (s.img.running = 1) + 2 * b2n s.start.trial + 4 * b2n (s.nv.boot.trial ≠ 255 && !s.start.trial) +
      8 * b2n s.img.session.isSome + 2 ^ 5 * s.nv.floor
  else if a = 0xE004 then (if s.dev.minimal then 0 else s.img.version)
  else if a = 0xE008 then s.heldBytes
  else s.trialNow

/-- What the state besides the register fields gives of a register. -/
def State.statusWord (s : State) (a : Nat) : Nat :=
  if a < 0x400 then s.glbWord a
  else if a < 0x1000 then 0
  else if a < 0x2000 then s.ringWord a
  else if a < 0x3000 then s.mbxWord a
  else if a < 0x4000 then (if a = 0x3018 then b2n s.time.calSet + 2 * b2n s.time.ringOsc else 0)
  else if a < 0x5000 then s.xfrWord a
  else if a < 0x6000 then s.pwrWord a
  else if a < 0x7000 then s.evrWord a
  else if a < 0x8000 then s.secWord a
  else if a < 0x9000 then s.strWord a
  else if a < 0xA000 then s.flcWord a
  else if a < 0xB000 then (if 0xA100 ≤ a then leNat (s.dram.delay.bytes (a - 0xA100) 4) else 0)
  else if a < 0xC000 then s.fabWord a
  else if a < 0xD000 then s.crnWord a
  else if a < 0xE000 then s.belWord a
  else s.imgWord a

/-- The reset value of a register of a block that does not run (R587). -/
def idleWord (a : Nat) : Nat := resetWord a + (if a = 0x8108 then 0xFF else 0)

/-! ### Reads (R7 to R10, R584 to R587) -/

/-- A register as a path reads it, without the effects of the read. -/
def State.regWord (s : State) (p : Path) (a : Nat) : Nat :=
  if (regWriter a).isNone ∨ (s.dev = .recovery ∧ ¬ inRecovery a) then 0
  else if s.notRunning a then idleWord a
  else match l64Low a, l64High a with
    | some x, _ => s.wide x % 2 ^ 32
    | none, some x => s.time.holding.get 0 (holdKey p x)
    | none, none => s.fieldWord a + s.statusWord a

/-- A low-half read latches the high half on its path (R10). -/
def State.latchHigh (s : State) (p : Path) (x : L64) : State :=
  { s with time.holding := s.time.holding.set 0 (holdKey p x) (s.wide x / 2 ^ 32 % 2 ^ 32) }

/-- A run of bits lies in the bytes returned: `lo` and `n` in bytes. A narrow read clears only the fields it returns whole
(DEDUCED). -/
def covered (lo n bitLo width : Nat) : Bool := 8 * lo ≤ bitLo && bitLo + width ≤ 8 * (lo + n)

/-- Read-clears fields of the tables that a read of `n` bytes from byte `lo` of a register returns. -/
def State.clearFields (s : State) (a lo n : Nat) : State :=
  ((fieldsAt a).filter fun f => (f.access = .rc || f == Reg.rctMax) && covered lo n f.lo f.width).foldl (fun t f => t.setF f 0) s

/-- Read-clears parts that other state gives. -/
def State.clearStatus (s : State) (a lo n : Nat) : State :=
  if 0x4020 ≤ a ∧ a < 0x4040 ∧ covered lo n 8 16 then
    let i := (a - 0x4020) / 4
    s.setChan i { s.chan i with faults := 0 }
  else if 0x4100 ≤ a ∧ a < 0x4200 ∧ a % 0x20 = 0x1C ∧ covered lo n 0 16 then
    let i := (a - 0x4100) / 0x20
    s.setChan i { s.chan i with fault := (s.chan i).fault.take 7 ++ [0] }
  else if a = 0x5028 ∧ covered lo n 0 32 then { s with led.peak := 0 }
  else if a = 0xC004 then
    let s1 := if covered lo n 0 16 then { s with crn.dropA := 0 } else s
    if covered lo n 16 16 then { s1 with crn.dropGap := 0 } else s1
  else s

/-- The effects of a read of `n` bytes from byte `lo` of the register at `a`. -/
def State.readEffect (s : State) (p : Path) (a lo n : Nat) : State :=
  if (regWriter a).isNone ∨ (s.dev = .recovery ∧ ¬ inRecovery a) ∨ s.notRunning a then s
  else
    let s1 := match l64Low a with
      | some x => s.latchHigh p x
      | none => s
    (s1.clearFields a lo n).clearStatus a lo n

def sizeBytes : Size → Nat
  | .b1 => 1 | .b2 => 2 | .b4 => 4

/-- Bytes `lo` to `lo + n - 1` of a word. -/
def cutWord (w lo n : Nat) : Nat := w / 2 ^ (8 * lo) % 2 ^ (8 * n)

/-- The debug window (R176). -/
def inDebug (a : Nat) : Bool := 0xD800 ≤ a && a < 0xE000

/-- An access to the debug window without the maker role: reserved space, with its event once in a start (R8, R176). -/
def State.refuseDebug (s : State) : State :=
  let s1 := if s.hooks.dbgRefused then s else ({ s with hooks.dbgRefused := true }).record 0x6011 Src.sec
  s1.bump 0x43

/-- The word that `BEL_DBG` shows at an address: bit 31 selects program memory. -/
def State.dbgWord (s : State) (e addr : Nat) : Nat :=
  if bit addr 31 then leNat ((s.engine e).prog.bytes (addr % 2 ^ 31 / 4 * 4) 4)
  else leNat (s.dataBytes e (addr % 2 ^ 31 / 4 * 4) 4)

/-- The debug registers as the maker reads them. -/
def State.dbgReg (s : State) (a : Nat) : Nat :=
  let e := s.f Reg.dbgEng
  let x := s.engine e
  if a = 0xD800 then e + 16 * s.f Reg.dbgStop
  else if a = 0xD804 then x.pc
  else if a = 0xD808 then b2n x.z + 2 * b2n x.n + 4 * b2n x.c + 8 * b2n x.v + 2 ^ 16 * x.ev.toNat
  else if 0xD840 ≤ a ∧ a < 0xD880 then (x.reg (BitVec.ofNat 4 ((a - 0xD840) / 4))).toNat
  else if a = 0xD880 then s.hooks.dbgAddr
  else if a = 0xD884 then s.dbgWord e s.hooks.dbgAddr
  else 0

/-- The debug window answers a path: the maker role, until FREEZE locks it (R176). -/
def State.debugOpen (s : State) (p : Path) : Bool := p = .pcie && s.roles.pcie = 2 && !s.bas.freeze

/-- A read of `n` bytes at an offset in one register's word: its value and its effects. -/
def State.busRead (s : State) (p : Path) (off n : Nat) : Nat × State :=
  let a := off / 4 * 4
  let lo := off % 4
  if 0x10000 ≤ off then
    (if 0x80000 ≤ off ∧ s.dev ≠ .recovery then leNat ((List.range n).map fun i => if off + i < 0x80800 then s.calByte (off + i - 0x80000) else 0) else 0, s)
  else if inDebug a then
    if s.dev = .recovery then (0, s)
    else if s.debugOpen p then (cutWord (s.dbgReg a) lo n, s)
    else (0, s.refuseDebug)
  else if 0x800 ≤ a ∧ a < 0x908 then
    (if p = .keystone ∨ s.dev = .recovery then 0
     else if a < 0x900 then leNat (s.pcie.msix.bytes (off - 0x800) n)
     else cutWord (if a = 0x900 then s.pcie.pba else 0) lo n, s)
  else (cutWord (s.regWord p a) lo n, s.readEffect p a lo n)

/-! ### Writes by change class (R12 to R15) -/

/-- A static write to a running block (R12, R13). -/
def State.staticDropped (s : State) (a : Nat) : State :=
  let s1 := if s.bitF Reg.glbStaticWr then s else (s.setF Reg.glbStaticWr 1).setF Reg.glbErrAddr a
  (s1.record 0x1040 Src.start a).bump 0x0E

/-- Write one field that is not static: staged, cleared by ones, or live. -/
def State.writeField (s : State) (v : Nat) (f : Field) : State :=
  let x := v / 2 ^ f.lo % 2 ^ f.width
  match f.access, f.change with
  | .w1c, _ => s.setF f (s.f f - (s.f f &&& x))
  | .rw, .boundary => { s with staged := s.staged.put f.key x }
  | .rw, .live => s.setF f x
  | _, _ => s

/-- Write the live, staged and write-1-to-clear fields of a register. -/
def State.writeFields (s : State) (a v : Nat) : State := (fieldsAt a).foldl (fun t f => t.writeField v f) s

/-- Write the static fields of a register. A write that leaves every static field of a register as it is, is not dropped where
the register holds other fields too (DEDUCED: such a register must be writable while its block runs). -/
def State.writeStatic (s : State) (running : Bool) (a v : Nat) : State :=
  let fs := fieldsAt a
  let st := fs.filter fun f => f.change = .static
  let same := st.all fun f => s.f f == v / 2 ^ f.lo % 2 ^ f.width
  if st.isEmpty then s
  else if ¬ running then st.foldl (fun t f => t.setF f (v / 2 ^ f.lo % 2 ^ f.width)) s
  else if same ∧ st.length ≠ fs.length then s
  else s.staticDropped a

/-- A block whose static fields may not be written now (R13): the ring unit, the host side of the transfer engine, a timer, or
the DRAM controller. -/
def State.blockRuns (s : State) (a : Nat) : Bool :=
  if a < 0x2000 then s.rings.any fun r => r.2.state ≠ 0
  else if a < 0x4000 then
    let n := (a - 0x3100) / 0x20
    s.bitF (Reg.tmrEn n) || s.bitF (Reg.tmrRun n)
  else if a < 0x5000 then (List.range 8).any fun n => s.chanState n ≠ 0
  else s.bitF Reg.drcEn || !s.bitF Reg.drcIdle

/-! ### Writes to registers with rules of their own -/

/-- `HLK_CTRL` (R178). -/
def State.writeLinkCtrl (s : State) (v : Nat) : State :=
  let m := bits v 2 0
  let s1 := if 1 ≤ m ∧ m ≤ 4 then s.writeField v Reg.maxSpeed else s.dropValue Src.pcie 0x404
  if bit v 3 ∧ s1.pcie.up then s1.setF Reg.linkPm 4 else s1

/-- `HQ_CYC_BUDGET`: a field out of range drops the write. -/
def cycBudgetOk (v : Nat) : Bool :=
  100 ≤ bits v 13 0 && bits v 13 0 ≤ 10000 && 1 ≤ bits v 20 14 && 1 ≤ bits v 31 21 && bits v 31 21 ≤ 1536
/-- `STR_QRY_CTRL`. -/
def qryCtrlOk (v : Nat) : Bool :=
  3 ≤ bits v 5 0 && bits v 5 0 ≤ 62 && bits v 5 0 + 1 ≤ bits v 11 6 && 5 ≤ bits v 17 12 && bits v 17 12 ≤ 40 &&
  5 ≤ bits v 23 18 && bits v 23 18 ≤ 50
/-- `STR_TMB_CTRL`: T_OFFSET is signed, −20 to +30. -/
def tmbCtrlOk (v : Nat) : Bool :=
  2 ≤ bits v 5 0 && bits v 5 0 ≤ 50 && (bits v 13 8 ≤ 30 || 44 ≤ bits v 13 8) && 1 ≤ bits v 21 14 && bits v 25 22 ≤ 8

/-- Write a register whose values are checked as a whole. -/
def State.writeChecked (s : State) (good : Bool) (src a v : Nat) : State := if good then s.writeFields a v else s.dropValue src a

/-- `MBX_CTRL` (R228). -/
def State.writeMbxCtrl (s : State) (v : Nat) : State :=
  let t := bits v 13 4
  let s1 := [Reg.mbxVector, Reg.mbxIeSlot, Reg.mbxIeFree, Reg.mbxIeTo].foldl (fun u f => u.writeField v f) s
  if 1 ≤ t ∧ t ≤ 1000 then s1.writeField v Reg.mbxTimeout else s1.dropValue Src.mailbox 0x2000

/-- The mailbox registers; while PE_PERST_n or FREEZE holds the mailbox nothing reaches it. -/
def State.writeMbx (s : State) (a v : Nat) : State :=
  if ¬ s.mbxUp then s
  else if a = 0x2000 then s.writeMbxCtrl v
  else if a = 0x2004 then s.setH2d v
  else if a = 0x2010 then s.clearD2h v
  else if a = 0x2018 then (s.postH2ds (bits v 7 0)).freeD2hs (bits v 15 8)
  else if a = 0x201C then
    { s with mbx.h2dTo := s.mbx.h2dTo - (s.mbx.h2dTo &&& bits v 23 16), mbx.d2hTo := s.mbx.d2hTo - (s.mbx.d2hTo &&& bits v 31 24) }
  else if 0x2400 ≤ a ∧ a < 0x2600 then s.writeH2dSlot ((a - 0x2400) / 64) ((a - 0x2400) % 64) (natLe 4 v)
  else s.writeFields a v

/-- The timer and GPIO registers (R489, R492, R499). -/
def State.writeTmr (s : State) (a v : Nat) : State :=
  if 0x3200 ≤ a then s.writeGpio ((a - 0x3200) / 4) v
  else
    let n := (a - 0x3100) / 0x20
    let r := a % 0x20
    if r = 0 then
      if badTimerCtrl n v then s.dropValue Src.lodestone a
      else
        let s1 := (s.writeStatic (s.blockRuns a) a v)
        let s2 := [Reg.tmrRKey n, Reg.tmrRHook n, Reg.tmrRCairn n, Reg.tmrOut n, Reg.tmrRVein n].foldl (fun t f => t.writeField v f) s1
        s2.writeTimerEn n (bit v 0)
    else if r = 4 then s.writePeriod n v
    else s.writeFields a v

/-- `PWR_CHG_CTRL` (R67, R88). -/
def State.writeChg (s : State) (v : Nat) : State := (s.writeField v Reg.chgLimit).stageVres (bits v 5 0)

/-- `PWR_PFW_CTRL` (R95, R106): each bad field is dropped, with one event. -/
def State.writePfw (s : State) (v : Nat) : State :=
  let mode := decide (bits v 1 0 ≠ 3)
  let disc := decide (2 ≤ bits v 8 2 ∧ bits v 8 2 ≤ 100)
  let th := decide (bits v 16 9 ≤ 129 ∧ 4200 + 200 * bits v 16 9 + 1000 ≤ s.bas.vinMv)
  let s1 := if mode then s.writeField v Reg.pfwMode else s
  let s2 := if disc then s1.writeField v Reg.pfwDisc else s1
  let s3 := if th then s2.writeField v Reg.collTh else s2
  let s4 := if mode && disc && th then s3 else s3.dropValue Src.basalt 0x5040
  s4.pfwBoundary

/-- The PWR registers. -/
def State.writePwr (s : State) (a v : Nat) : State :=
  if a = 0x5008 then s.writeChg v
  else if a = 0x500C then (if bit v 0 then s.measureNow else s)
  else if a = 0x5040 then s.writePfw v
  else s.writeFields a v

/-- The ring unit's registers (R199, R222, R254). -/
def State.writeHq (s : State) (a v : Nat) : State :=
  if a < 0x1008 then s.writeStatic (s.blockRuns a) a v
  else if 0x1020 ≤ a ∧ a < 0x1040 then
    let n := (a - 0x1020) / 4
    if bit v 0 then s.enableRing n else s.disableRing n
  else if a = 0x10C0 then s.writeChecked (cycBudgetOk v) Src.ring a v
  else s

/-- The transfer engine's registers (R414, R419). -/
def State.writeXfr (s : State) (a v : Nat) : State :=
  if a < 0x4008 then s.writeStatic (s.blockRuns a) a v
  else if 0x4040 ≤ a ∧ a < 0x4060 then (if bit v 0 then s.resumeChannel ((a - 0x4040) / 4) else s)
  else if a = 0x4204 then s.writeChecked (decide (1 ≤ bits v 9 0 ∧ bits v 9 0 ≤ 1000)) Src.xfr a v
  else s

/-- `DRC_CTRL.EN`: 1 initialises and runs (R384); 0 stops the controller. -/
def State.writeDrcEn (s : State) (v : Nat) : State :=
  if bit v 0 then (if s.bitF Reg.drcEn then s else s.enableDram none)
  else { (s.setF Reg.drcEn 0).setF Reg.drcIdle 1 with dram := { s.dram with up := false, initing := false } }

/-- The DRAM controller's registers. -/
def State.writeDrc (s : State) (a v : Nat) : State :=
  if a = 0xA000 then s.writeDrcEn v
  else if a = 0xA004 then s.writeStatic (s.blockRuns a) a v
  else if a = 0xA00C then s.writeChecked (decide (1 ≤ bits v 3 0 ∧ bits v 3 0 ≤ 8)) Src.dram a v
  else if a = 0xA010 then s.writeChecked (decide (1024 ≤ bits v 15 0)) Src.dram a v
  else if a = 0xA014 then s.writeChecked (decide (bits v 7 0 ≠ 0)) Src.dram a v
  else if 0xA100 ≤ a then
    if s.blockRuns a then s.staticDropped a else { s with dram.delay := s.dram.delay.setBytes (a - 0xA100) (natLe 4 v) }
  else s

/-- What a write of a whole register does, its right to be written settled. -/
def State.regEffect (s : State) (a v : Nat) : State :=
  if a = 0x8 then (if bit v 0 then s.restartRequest else s)
  else if a = 0x18 then s.writeStart v
  else if a = 0x30 then s.startSync (bits v 2 0) (bits v 15 8)
  else if a = 0x404 then s.writeLinkCtrl v
  else if a < 0x1000 then s.writeFields a v
  else if a < 0x2000 then s.writeHq a v
  else if a < 0x3000 then s.writeMbx a v
  else if a < 0x4000 then s.writeTmr a v
  else if a < 0x5000 then s.writeXfr a v
  else if a < 0x6000 then s.writePwr a v
  else if a = 0x8100 then s.writeChecked (qryCtrlOk v) Src.quarry a v
  else if a = 0x8180 then s.writeChecked (tmbCtrlOk v) Src.tumbler a v
  else if a = 0x9800 then s.writeChecked (decide (200 ≤ bits v 12 0 ∧ bits v 12 0 ≤ 5000)) Src.dieSched a v
  else if 0xA000 ≤ a ∧ a < 0xB000 then s.writeDrc a v
  else if a = 0xB000 then (s.enablePort 0 (bit v 0)).enablePort 1 (bit v 1)
  else if a = 0xB040 then s.clearQuarantine v
  else s.writeFields a v

/-! ### Writes by path (R7, R8, R522, R583 to R587) -/

/-- A path may write a register of this writer (R522, R583); `GLB_TABLE_SYNC` needs the installer role for tables 2 and up. -/
def State.mayWrite (s : State) (p : Path) (a v : Nat) : Writer → Bool
  | .any => a ≠ 0x30 || bits v 2 0 < 2 || s.installer p
  | .installer => s.installer p
  | .keystone => p = .keystone

/-- MSI-X table words (R185): a mask bit that is cleared sends its pending message. -/
def State.writeMsix (s : State) (a v : Nat) : State :=
  ({ s with pcie.msix := s.pcie.msix.setBytes (a - 0x800) (natLe 4 (if a % 16 = 12 then v % 2 else v)) }).sendPending

/-- A 32-bit write inside 0x0_0000 to 0x0_FFFF, outside the debug window. -/
def State.regWrite (s : State) (p : Path) (a v : Nat) : State :=
  if s.dev = .recovery then s.ignoredWrite
  else if 0x800 ≤ a ∧ a < 0x908 then
    (if p = .keystone then s.ignoredWrite else if a < 0x900 then s.writeMsix a v else s)
  else match regWriter a with
    | none => s.ignoredWrite
    | some w => if s.notRunning a ∨ ¬ s.mayWrite p a v w then s.ignoredWrite else s.regEffect a v

/-- A write to a doorbell page of ring `n` (R200 to R205). -/
def State.doorbellWrite (s : State) (n off v : Nat) : State :=
  if off = 0 then s.dbTail n v
  else if off = 4 then s.dbBare n
  else if off = 8 then s.dbCqh n v
  else s.ignoredWrite

/-- A write by the host above 0x0_FFFF: push windows, doorbells, the calibration view, reserved space (R93, R584, R585). -/
def State.hostWindowWrite (s : State) (off n v : Nat) : State :=
  let ring := off / 0x1000 % 16
  if s.dev = .recovery then s.ignoredWrite
  else if off < 0x18000 then
    (if s.bellsFrozen then s.ignoredWrite else if off % 0x1000 < 0x100 then s.pushWrite ring (off % 0x1000) (natLe n v) else s.ignoredWrite)
  else if 0x20000 ≤ off ∧ off < 0x28000 then
    (if s.bellsFrozen then s.ignoredWrite else if n ≠ 4 then s.ignoredWrite else s.doorbellWrite ring (off % 0x1000) v)
  else s.ignoredWrite

/-- A write of `n` bytes at an offset. The debug window takes the maker's writes elsewhere (Machine/Hooks.lean); here it is
refused. -/
def State.busWrite (s : State) (p : Path) (off n v : Nat) : State :=
  if 0x10000 ≤ off then (if p = .pcie then s.hostWindowWrite off n v else s.ignoredWrite)
  else if inDebug off then s.refuseDebug.ignoredWrite
  else if n ≠ 4 ∨ off % 4 ≠ 0 then s.ignoredWrite
  else s.regWrite p off (v % 2 ^ 32)

/-- A path reaches the registers: the logic die runs, and PE_PERST_n does not hold the PCIe function in reset. -/
def State.reaches (s : State) (p : Path) : Bool := s.dieUp && !(p = .pcie && s.pcie.perstHeld)

/-! ### The rows -/

/-- READ_CLEAR (R9, R10): a register read on a path, which returns its value and has the effects of the read. -/
def execReadClear (p : Path) (offset : BitVec 20) (size : Size) (s : State) : Result :=
  if ¬ s.reaches p then ok s
  else
    let r := s.busRead p offset.toNat (sizeBytes size)
    ok (r.2.emit (.regRead r.1))

/-- L64_LOW_READ (R10): a 32-bit read of a low half. -/
def execL64LowRead (p : Path) (which : L64) (s : State) : Result :=
  if ¬ s.reaches p then ok s
  else
    let r := s.busRead p (l64Offset which) 4
    ok (r.2.emit (.regRead r.1))

/-- VRES_SET_STAGED (R73, R88): a write to `PWR_CHG_CTRL`. -/
def execVresSetStaged (p : Path) (value : Word) (s : State) : Result :=
  if ¬ s.reaches p then ok s else s.asWrite fun t => t.busWrite p 0x5008 4 value.toNat

end Sys2Proof.Machine
end

