-- ==== Sys2Proof/Machine/Ready.lean ====
section
/-! DEFINITION. From ROM to service: the stored configuration in STARTING (R121, R122, R280, R532), replay at the entry into READY
(R104, R107 to R114), and what resumes there (R83, R123, R163, R273, R306, R307, R446, R447, R481, R551). -/

namespace Sys2Proof.Machine

/-! ### The stored configuration (R280) -/

/-- The stored entries of an item, by index. -/
def State.itemsOf (s : State) (item : Nat) : Map Bytes :=
  (s.nv.config.filter fun x => x.1 / 65536 == item).map fun x => (x.1 % 65536, x.2)

/-- Tables 2 and 3 and the partitions as stored; an entry that fails its checks is not taken (DEDUCED). -/
def State.loadTables (s : State) : State :=
  let s1 := { s with tab := { s.tab with parts := s.itemsOf 7, connStored := s.itemsOf 1, lunStored := s.itemsOf 2 } }
  { s1 with tab := { s1.tab with
    lun := (s.itemsOf 2).filter fun x => s1.lunEntryOk x.1 x.2
    conn := (s.itemsOf 1).filter fun x => s1.connEntryOk x.2 } }

/-- `PWR_PFW_CTRL` at a start: MODE and DISC_MS apply at once, and Basalt's copy of MODE is written (R106). -/
def State.loadPfw (s : State) : State :=
  match s.nv.config.get? (3 * 65536) with
  | none => { s with bas.modeCopy := some 0 }
  | some b =>
    let s1 := s.writePfw (leAt b 0 4)
    let m := s1.staged.get (s1.f Reg.pfwMode) Reg.pfwMode.key
    let s2 := s1.takeStaged [Reg.pfwMode, Reg.pfwDisc]
    { s2 with pfw.state := if m = 0 then .off else .armed, bas.modeCopy := some m }

/-- `PWR_CHG_CTRL` at a start. -/
def State.loadChg (s : State) : State :=
  match s.nv.config.get? (4 * 65536) with
  | none => s
  | some b => s.writeChg (leAt b 0 4)

/-- `HQ_CYC_BUDGET` at a start: no window runs yet, so that it applies at once. -/
def State.loadCyc (s : State) : State :=
  match s.nv.config.get? (5 * 65536) with
  | none => s
  | some b =>
    (s.writeChecked (cycBudgetOk (leAt b 0 4)) Src.ring 0x10C0 (leAt b 0 4)).takeStaged [Reg.cycWindow, Reg.cycMaxCmds, Reg.cycMaxUnits]

/-- Keys of DEVICE protection are loaded (R532). -/
def State.loadKeys (s : State) : State :=
  { s with roles.keys := (s.nv.keys.vol.filter fun k => k.2.secret.isNone).foldl (fun m k => withBit m k.1 true) s.roles.keys }

/-- Valid connections stand DOWN on their preferred port. -/
def State.loadConns (s : State) : State :=
  (s.tab.conn.filter fun x => connValid x.2).foldl (fun t x => t.setConn x.1 { t.conn x.1 with st := 1, port := connPref x.2 }) s

/-- STARTING: the configuration is loaded where it is readable, and the ring unit accepts host access (R122). -/
def State.enterStarting (s : State) : State :=
  let s1 := s.setDev .starting
  let s2 := if s1.nv.configOk then
      let t := s1.loadTables.loadPfw.loadChg.loadCyc.loadKeys.loadConns
      { t with alloc.resSize := t.reserveWanted, start.configLoaded := true }
    else s1
  { s2 with start.hostAccess := true, pcie.crs := false }

/-! ### Replay (R104, R108 to R114) -/

/-- A loss run of the stop before this start. -/
def State.lossOf (s : State) (v cause first len : Nat) : LossRun :=
  { vol := v, cause := cause, len := len, first := first, cycle := (s.time.cycles - 1) % 2 ^ 32 }

/-- Mark the record a unit belongs to as lost. -/
def State.loseRecord (s : State) (v seq cause : Nat) : State :=
  let x := s.vol v
  match x.recs.find? fun r => r.seq == seq && !r.lost with
  | none => s
  | some r =>
    (s.setVol v { x with recs := x.recs.map fun y => if y.seq = seq then { y with lost := true, loc := 0 } else y }).lose
      (s.lossOf v cause (r.off / 4096) (ceilDiv (extent r.payload.length) 4096))

/-- Mark a block as lost (R114). -/
def State.loseBlock (s : State) (v p cause : Nat) : State :=
  match s.blk v p with
  | none => s
  | some b => (s.setBlk v p (some { b with lost := true, loc := 0 })).lose (s.lossOf v cause p 1)

/-- A unit that replay does not find. A block that a later unit replaced is not lost with it (DEDUCED). -/
def State.loseUnit (s : State) (cause : Nat) (u : SUnit) : State :=
  if u.stream then s.loseRecord u.vol u.lba cause
  else if s.nv.drained.any fun d => !d.stream && d.vol == u.vol && d.lba == u.lba && u.id < d.id then s
  else s.loseBlock u.vol u.lba cause

/-- A unit's block gets back what the map held before it. -/
def State.revertUnit (s : State) (u : SUnit) : State := if u.stream then s else s.setBlk u.vol u.lba u.prev

/-- Command groups with a unit that is not found (R110). -/
def State.brokenGroups (s : State) : List Nat := (((s.nv.missing ++ s.nv.drainFailed).filter fun u => u.group ≠ 0).map fun u => u.group).eraseDups

/-- None of the units of a broken group is applied (R110). -/
def State.dropGroups (s : State) : State :=
  let gs := s.brokenGroups
  let us := s.nv.drained.filter fun u => gs.contains u.group
  let s1 := us.reverse.foldl State.revertUnit s
  { s1 with nv.drained := s1.nv.drained.filter fun (u : SUnit) => !gs.contains u.group }

/-- A stream ends before the first record that is absent (R111). -/
def Vol.cutAt (x : Vol) (seq : Nat) : Vol :=
  match x.recs.find? fun r => r.seq == seq with
  | none => x
  | some r => { x with recs := x.recs.filter (fun y => y.seq < seq), nextSeq := seq, writeOff := 4096 * ceilDiv r.off 4096 % max 1 x.space }

/-- With no manifest every unit of the intent list is gone, and the report says so in one entry of cause 5; the spec states
neither its volume nor the number of its journal point (R104, R113). -/
def State.loseAll (s : State) : State :=
  let us := s.nv.missing
  let s1 := us.reverse.foldl State.revertUnit s
  let s2 := (us.filter fun u => u.stream).foldl (fun t u => t.setVol u.vol ((t.vol u.vol).cutAt u.lba)) s1
  s2.lose { s2.lossOf (Config.lossVolume s.time.cycles).toNat 5 0 0 with first := (Config.lossPoint s.time.cycles).toNat }

/-- MSNs of fabric records that were lost do not count as accepted (R447). -/
def State.settleMsns (s : State) : State :=
  let lost := s.nv.vols.flatMap fun v => v.2.recs.filter fun r => r.lost && r.conn ≠ 0
  lost.reverse.foldl (fun t r =>
    let c := r.conn - 1
    if r.msn ≤ t.nv.lastMsn.get 0 c ∧ (t.nv.lastMsn.get? c).isSome then
      { t with nv.lastMsn := t.nv.lastMsn.put c ((r.msn + 2 ^ 32 - 1) % 2 ^ 32) }
    else t) s

/-- Stage what lies in the drain area again, for its normal program (DESIGN CHOICE: the spec does not say how the data leaves
the drain area). -/
def State.restageDrained (s : State) : State :=
  let us := (s.nv.drained.zip (List.range s.nv.drained.length)).map fun x =>
    { x.1 with id := s.str.nextUnit + x.2, place := UnitAt.staged, drained := false, journalled := false, fromReserve := false, granted := 0 }
  let s1 := { s with
    str.units := s.str.units ++ us, str.nextUnit := s.str.nextUnit + us.length, nv.drained := [] }
  s1.takeGeneral us.length

/-- Replay: what the drain did not keep is lost, and the rest is there. -/
def State.replay (s : State) : State :=
  let s1 := if s.nv.noManifest then s.loseAll
    else (s.nv.drainFailed.foldl (State.loseUnit · 4) (s.nv.missing.foldl (State.loseUnit · 1) s)).dropGroups
  let added := s.nv.noManifest || !s.nv.missing.isEmpty || !s.nv.drainFailed.isEmpty
  let s2 := if s.nv.drainCut then s1.record 0x0043 Src.strata else s1
  let s3 := if added then ({ s2 with nv.lastStop := { s2.nv.lastStop with loss := true } }).record 0x0044 Src.strata else s2
  let s4 := s3.settleMsns
  { s4 with nv.missing := [], nv.drainFailed := [], nv.noManifest := false, nv.drainCut := false }.restageDrained

/-! ### What resumes in READY -/

/-- The firings whose pins and record are durable go on (R481). -/
def State.resumeFirings (s : State) : State :=
  let fs := s.nv.firings.map fun (f : Firing) =>
    { f with resumed := true, next := f.acked, begun := false, pinsDurable := true, durable := true, pages := 0 }
  let s1 := { s with crn.running := fs, nv.firings := [] }
  (fs.foldl (fun t f => (t.setCairn f.cairn { t.cairn f.cairn with state := 2 }).record 0xA024 Src.cairn f.cairn) s1).runFirings

/-- Ports that item 8 enables run, and every valid connection asks with RESTART (R446). -/
def State.startFabric (s : State) : State :=
  let s1 := [0, 1].foldl (fun t p => if portEnable (t.storedItem 8 p) then t.enablePort p true else t) s
  (s1.tab.conn.filter fun x => connValid x.2).foldl
    (fun t x => (t.setConn x.1 { t.conn x.1 with restart := true }).requestHello x.1 (connPref x.2)) s1

/-- Segments of the map that hold an entry (R305), as many as the map area holds (R307; loaded in one step, DEDUCED). -/
def State.loadSegments (s : State) : State :=
  let all := (s.nv.vols.flatMap fun v => v.2.map.map fun m => v.1 * 2 ^ 32 + m.1 / 1024).eraseDups
  let total := (s.nv.vols.map fun v => if v.2.kind = 255 then 0 else v.2.blocks).sum
  { s with
    str.mapMode := if 4 * total ≤ s.mapAreaMiB * 2 ^ 20 then 0 else 1
    str.loaded := all.take (s.mapAreaMiB * 256) }

/-- Time to READY in ms (R120). -/
def State.readyMs (s : State) : Nat := min 0xFFFF ((s.start.riseTicks + s.time.uptime) / 25000)

/-- Enter READY or READY_DEGRADED (R83, R107, R123, R163). -/
def State.enterReady (s : State) : State :=
  let was := s.closedAll
  let s1 := s.replay.loadSegments
  let s2 := ({ s1 with led.reserveCharged := true, bas.safeReleased := true, start.timeMs := s1.readyMs }).settleLedger was
  let s3 := ((List.range 128).filter fun n => (s2.lun n).failed ≠ 0).foldl State.rebuildOrLose s2
  let s4 := s3.setDev s3.serviceState
  (s4.startFabric.resumeFirings.raiseFloor.record 0x1002 Src.start s4.start.timeMs).noteStart

/-- What prevents READY leads to Bedrock with its cause (R129, R306); 0: nothing does. -/
def State.readyBar (s : State) : Nat :=
  if ¬ s.dram.up ∨ s.mapAreaMiB < 64 then 3
  else if ¬ s.nv.configOk then 4
  else if ¬ s.nv.journalOk then 5
  else 0

/-- A request for a state (R163): the state and whether the device accepts it. -/
def State.askState (s : State) (v : Nat) : State × Bool :=
  let want := v % 16
  if want = 2 ∧ s.dev = .rom ∧ s.start.rom = .running ∧ s.img.running ≠ 255 then (s.enterStarting, true)
  else if want = 3 ∧ s.dev = .starting ∧ (s.led.valid ∨ s.led.failed) then
    if s.readyBar = 0 then (s.enterReady, true) else (s.enterBedrock s.readyBar, true)
  else if want = 8 ∧ (s.dev = .starting ∨ (s.dev = .rom ∧ s.start.rom = .running)) then (s.enterBedrock (bits v 10 8), true)
  else (s, false)

end Sys2Proof.Machine
end

