-- ==== Sys2Proof/Machine/BelionSys.lean ====
section
/-! DEFINITION. The Belion instructions that reach memory, the register window, the flash bus and the system: loads and stores
(R141 to R143, R147, R148), the Vein bus and operation queue (R156 to R159), Keystone's system operations (R163 to R168) and the
operations it shares with the sandbox (R171, R173). -/

namespace Sys2Proof.Machine

/-! ### The data space (R141) -/

/-- What an address of an engine's data space names. -/
inductive Space
  | data (a : Nat)
  | window (off : Nat)
  | calibration (off : Nat)
  | outside
  deriving DecidableEq, Repr

/-- The ranges of R141. -/
def spaceOf (e a : Nat) : Space :=
  if a < dataSize e then .data a
  else if e = 0 ∧ 0x100000 ≤ a ∧ a < 0x110000 then .window (a - 0x100000)
  else if e = 0 ∧ 0x180000 ≤ a ∧ a < 0x180800 then .calibration (a - 0x180000)
  else if 2 ≤ e ∧ 0x4000 ≤ a ∧ a < 0x4100 then .window (0x9000 + 0x100 * (e - 2) + (a - 0x4000))
  else .outside

/-- A corrected error of an engine memory is counted (R143). -/
def State.noteCheck (s : State) (c : MemCheck) : State := if c = .corrected then s.bump 0x0B else s

/-- The address of a memory instruction. -/
def Engine.addr (x : Engine) (ka : BitVec 4) (imm : BitVec 16) : Nat := (x.reg ka + simm imm).toNat

/-- A load of `n` bytes (R142, R147). -/
def State.load (s : State) (e : Fin 10) (major n : Nat) (kd ka : BitVec 4) (imm : BitVec 16) (chk : MemCheck) : Result :=
  s.run e 7 (fmtB major kd ka false imm) fun s x =>
    let a := x.addr ka imm
    if a % n ≠ 0 then .fault 3
    else match spaceOf e.val a with
      | .data p => if chk = .bad then .fault 6 else .done ((s.noteCheck chk).withReg e.val kd (leNat (s.dataBytes e.val p n)))
      | .window off =>
        let r := s.busRead .keystone off n
        .done (r.2.withReg e.val kd r.1)
      | .calibration off => .done (s.withReg e.val kd (leNat (s.calRow off n)))
      | .outside => .fault 4

/-- A store of `n` bytes. -/
def State.store (s : State) (e : Fin 10) (major n : Nat) (kd ka : BitVec 4) (imm : BitVec 16) (chk : MemCheck) : Result :=
  s.run e 7 (fmtB major kd ka false imm) fun s x =>
    let a := x.addr ka imm
    if a % n ≠ 0 then .fault 3
    else match spaceOf e.val a with
      | .data p => if chk = .bad then .fault 6 else .done ((s.noteCheck chk).setData e.val p (natLe n (x.reg kd).toNat))
      | .window off => .done (s.busWrite .keystone off n ((x.reg kd).toNat % 2 ^ (8 * n)))
      | .calibration _ => .done s
      | .outside => .fault 4

def execLdw (e : Fin 10) (kd ka : BitVec 4) (imm : BitVec 16) (chk : MemCheck) (s : State) : Result := s.load e 0x10 4 kd ka imm chk
def execLdh (e : Fin 10) (kd ka : BitVec 4) (imm : BitVec 16) (chk : MemCheck) (s : State) : Result := s.load e 0x11 2 kd ka imm chk
def execLdb (e : Fin 10) (kd ka : BitVec 4) (imm : BitVec 16) (chk : MemCheck) (s : State) : Result := s.load e 0x12 1 kd ka imm chk
def execStw (e : Fin 10) (kd ka : BitVec 4) (imm : BitVec 16) (chk : MemCheck) (s : State) : Result := s.store e 0x13 4 kd ka imm chk
def execSth (e : Fin 10) (kd ka : BitVec 4) (imm : BitVec 16) (chk : MemCheck) (s : State) : Result := s.store e 0x14 2 kd ka imm chk
def execStb (e : Fin 10) (kd ka : BitVec 4) (imm : BitVec 16) (chk : MemCheck) (s : State) : Result := s.store e 0x15 1 kd ka imm chk

/-- SWP (R147, R148): data memory only. -/
def execSwp (e : Fin 10) (kd ka : BitVec 4) (imm : BitVec 16) (chk : MemCheck) (s : State) : Result :=
  s.run e 7 (fmtB 0x16 kd ka false imm) fun s x =>
    let a := x.addr ka imm
    if a % 4 ≠ 0 then .fault 3
    else match spaceOf e.val a with
      | .data p =>
        if chk = .bad then .fault 6
        else .done (((s.noteCheck chk).setData e.val p (natLe 4 (x.reg kd).toNat)).withReg e.val kd (leNat (s.dataBytes e.val p 4)))
      | _ => .fault 4

/-! ### Vein flash-bus operations, major 0x30 (R156 to R158) -/

/-- The channel of a Vein engine. -/
def veinOf (e : Nat) : Nat := e - 2
/-- A bus operation waits while a transfer is under way (R157). -/
def State.onBus (s : State) (e : Nat) (f : State → Ran) : Ran :=
  if (s.fchan (veinOf e)).transfer.isSome then .stay s else f s
/-- A cycle on a Vein engine's channel. -/
def State.cycle (s : State) (e : Nat) (c : BusCycle) : State := s.emit (.flash (veinOf e) c)

def execCesel (e : Fin 10) (ka : BitVec 4) (operand : BitVec 12) (s : State) : Result :=
  s.run e 4 (fmtD 0x30 0x00 0 ka operand) fun s x => s.onBus e.val fun s =>
    let n := valueOf (x.reg ka) operand % 4
    .done ((s.setFchan (veinOf e.val) { s.fchan (veinOf e.val) with ce := n }).cycle e.val (.select n))

def execCmd (e : Fin 10) (ka : BitVec 4) (operand : BitVec 12) (s : State) : Result :=
  s.run e 4 (fmtD 0x30 0x01 0 ka operand) fun s x => s.onBus e.val fun s =>
    .done (s.cycle e.val (.command (BitVec.ofNat 8 (valueOf (x.reg ka) operand))))

/-- ADDR: 1 to 4 cycles; another count faults as a count outside its range (DEDUCED from R158). -/
def execAddr (e : Fin 10) (ka : BitVec 4) (n : BitVec 3) (s : State) : Result :=
  s.run e 4 (fmtD 0x30 0x02 0 ka (n.setWidth 12)) fun s x =>
    if n.toNat = 0 ∨ 4 < n.toNat then .fault 4
    else s.onBus e.val fun s => .done (s.cycle e.val (.address (natLe n.toNat (x.reg ka).toNat)))

/-- First codeword and count of a transfer. -/
def firstOf (a : Word) : Nat := bits a.toNat 7 0
def countOf (a : Word) : Nat := bits a.toNat 15 8

/-- Start a transfer on the bus. -/
def State.startTransfer (s : State) (e : Nat) (input : Bool) (c : BusCycle) : State :=
  (s.setFchan (veinOf e) { s.fchan (veinOf e) with transfer := some input }).cycle e c

def execDout (e : Fin 10) (ka : BitVec 4) (s : State) : Result :=
  s.run e 4 (fmtD 0x30 0x03 0 ka 0) fun s x =>
    if countOf (x.reg ka) = 0 ∨ 8 < countOf (x.reg ka) then .fault 4
    else s.onBus e.val fun s => .done (s.startTransfer e.val false (.encode (firstOf (x.reg ka)) (countOf (x.reg ka))))

def execDin (e : Fin 10) (ka : BitVec 4) (operand : BitVec 12) (s : State) : Result :=
  s.run e 4 (fmtD 0x30 0x04 0 ka operand) fun s x =>
    if countOf (x.reg ka) = 0 ∨ 8 < countOf (x.reg ka) then .fault 4
    else s.onBus e.val fun s =>
      .done (s.startTransfer e.val true (.decode (firstOf (x.reg ka)) (countOf (x.reg ka)) (operand.toNat % 4)))

/-- BUS_TRANSFER_END (R157): E3 is raised, and a DIN leaves its result; an interface error raises E5, sets BRES bit 24 and counts
(R158, R369). -/
def execBusTransferEnd (ch : Fin 8) (result : BitVec 24) (iface : Bool) (s : State) : Result :=
  let c := s.fchan ch.val
  match c.transfer with
  | none => ok s
  | some input =>
    if ¬ s.dieUp then ok s
    else
      let res := (if input then result.toNat else c.bres % 2 ^ 24) + 2 ^ 24 * b2n iface
      let s1 := (s.setFchan ch.val { c with transfer := none, bres := res }).raise (2 + ch.val) 3
      ok (if iface then (s1.raise (2 + ch.val) 5).ifaceError ch.val else s1)

def execBres (e : Fin 10) (kd ka : BitVec 4) (s : State) : Result :=
  s.run e 4 (fmtD 0x30 0x05 kd ka 0) fun s _ => s.onBus e.val fun s =>
    .done (s.withReg e.val kd (s.fchan (veinOf e.val)).bres)

/-- A run of raw bytes lies in the engine's data memory, 1 to 256 of them. -/
def rawRunOk (a n : Nat) : Bool := 1 ≤ n && n ≤ 256 && a + n ≤ 0x1000

def execDoutm (e : Fin 10) (ka : BitVec 4) (operand : BitVec 12) (s : State) : Result :=
  s.run e 4 (fmtD 0x30 0x06 0 ka operand) fun s x =>
    if ¬ rawRunOk (x.reg ka).toNat operand.toNat then .fault 4
    else s.onBus e.val fun s => .done (s.cycle e.val (.bytesOut (s.dataBytes e.val (x.reg ka).toNat operand.toNat)))

/-- DINM: `data` is what the bus returns. -/
def execDinm (e : Fin 10) (ka : BitVec 4) (operand : BitVec 12) (data : Bytes) (s : State) : Result :=
  s.run e 4 (fmtD 0x30 0x07 0 ka operand) fun s x =>
    if ¬ rawRunOk (x.reg ka).toNat operand.toNat then .fault 4
    else s.onBus e.val fun s =>
      .done ((s.setData e.val (x.reg ka).toNat (padTo operand.toNat data)).cycle e.val (.bytesIn operand.toNat))

/-- RDB: `byte` is what the bus returns. -/
def execRdb (e : Fin 10) (kd : BitVec 4) (byte : BitVec 8) (s : State) : Result :=
  s.run e 4 (fmtD 0x30 0x08 kd 0 0) fun s _ => s.onBus e.val fun s =>
    .done (((s.withReg e.val kd byte.toNat).withZ e.val (byte == 0)).cycle e.val .readByte)

def execBdly (e : Fin 10) (kd ka : BitVec 4) (operand : BitVec 12) (s : State) : Result :=
  s.run e 4 (fmtD 0x30 0x09 kd ka operand) fun s x => s.onBus e.val fun s =>
    .done (s.cycle e.val (.idle (10 * (valueOf (x.reg ka) operand % 4096))))

def execWpset (e : Fin 10) (kd ka : BitVec 4) (operand : BitVec 12) (s : State) : Result :=
  s.run e 4 (fmtD 0x30 0x0A kd ka operand) fun s x => s.onBus e.val fun s =>
    let high := bit (valueOf (x.reg ka) operand) 0
    .done ((s.setFchan (veinOf e.val) { s.fchan (veinOf e.val) with wpHigh := high }).cycle e.val (.protect high))

/-- Every LUN present on the channel allows the interface; with no LUN, SDR only (DEDUCED). -/
def State.modeAllowed (s : State) (ch kind timing : Nat) : Bool :=
  let ls := ((List.range 16).map fun i => s.lunEntry (lunAt ch i)).filter lunPresent
  decide (kind ≤ 2) && (kind == 0 || !ls.isEmpty) &&
  ls.all fun b => decide (kind < lunIface b) || (kind == lunIface b && decide (timing ≤ bits (leAt b 3 1) 7 4))

/-- BMODE: RX_DLY takes its staged value here. -/
def execBmode (e : Fin 10) (kd ka : BitVec 4) (operand : BitVec 12) (s : State) : Result :=
  s.run e 4 (fmtD 0x30 0x0B kd ka operand) fun s x =>
    let v := valueOf (x.reg ka) operand
    let ch := veinOf e.val
    if ¬ s.modeAllowed ch (bits v 1 0) (bits v 7 4) then .fault 4
    else s.onBus e.val fun s =>
      .done ((((s.takeStaged [Reg.rxDly ch]).setF (Reg.chMode ch) (bits v 1 0)).setF (Reg.chTiming ch) (bits v 7 4)).cycle e.val
        (.interface (bits v 1 0) (bits v 7 4)))

/-! ### Vein operation queue, major 0x31 (R159, R161) -/

/-- OPGET. An address that is no multiple of 32 faults as misaligned (DEDUCED). -/
def execOpget (e : Fin 10) (kd ka : BitVec 4) (operand : BitVec 12) (s : State) : Result :=
  s.run e 4 (fmtD 0x31 0x00 kd ka operand) fun s x =>
    let a := valueOf (x.reg ka) operand
    if a % 32 ≠ 0 then .fault 3
    else if 0x1000 < a + 32 ∨ (s.fchan (veinOf e.val)).cur.isSome then .fault 4
    else match s.takeOp (veinOf e.val) with
      | none => .done ((s.withReg e.val kd 0xFFFFFFFF).withZ e.val true)
      | some r => .done (((r.1.setData e.val a r.2.2).withReg e.val kd r.2.1).withZ e.val false)

def execOpdone (e : Fin 10) (ka : BitVec 4) (operand : BitVec 12) (s : State) : Result :=
  s.run e 4 (fmtD 0x31 0x01 0 ka operand) fun s x =>
    match s.reportOp (veinOf e.val) ((x.reg ka).toNat % 16) (operand.toNat % 16) with
    | none => .fault 4
    | some t => .done t

/-! ### Keystone system operations, major 0x38 -/

/-- HALT: the supervisor program is over, as after a fault of Keystone (DEDUCED). -/
def execHalt (e : Fin 10) (kd ka : BitVec 4) (operand : BitVec 12) (s : State) : Result :=
  s.run e 1 (fmtD 0x38 0x00 kd ka operand) fun s x =>
    .done (s.setEngine e.val { x with run := false, stepping := false, dbg := false }).supervisorStopped

/-- WDKICK (R165): the watchdog's time is outside the model. -/
def execWdkick (e : Fin 10) (s : State) : Result := s.run e 1 (fmtD 0x38 0x01 0 0 0) fun s _ => .done s

/-- Loads are taken in ROM and STARTING only, and not after FREEZE (R164). -/
def State.mayLoad (s : State) : Bool := (s.dev = .rom || s.dev = .starting) && !s.bas.freeze

/-- The section at a byte offset of staging SRAM. -/
def State.sramAt (s : State) (off : Nat) : Bytes := s.img.sram.drop off

/-- VLOAD and HLOAD: a load that fails at a start records event 0x7010, and one of a Vein section by the ROM is a failed start
(R168). An offset that is no multiple of 64 is out of range, result 4 (DEDUCED). -/
def State.loadFrom (s : State) (e k off : Nat) (kd : BitVec 4) : State :=
  let r := if off % 64 ≠ 0 then (s, 4) else s.loadSection k s.mayLoad (s.sramAt off)
  let s1 := r.1.withReg e kd r.2
  if r.2 = 1 ∨ ¬ s.mayLoad then s1
  else
    let s2 := s1.record 0x7010 Src.start k r.2
    if s.dev = .rom ∧ k = 2 then s2.failedStart 3 else s2

def execVload (e : Fin 10) (kd ka : BitVec 4) (operand : BitVec 12) (s : State) : Result :=
  s.run e 1 (fmtD 0x38 0x02 kd ka operand) fun s x => .done (s.loadFrom e.val 2 (x.reg ka).toNat kd)

def execHload (e : Fin 10) (kd ka : BitVec 4) (operand : BitVec 12) (s : State) : Result :=
  s.run e 1 (fmtD 0x38 0x03 kd ka operand) fun s x => .done (s.loadFrom e.val 1 (x.reg ka).toNat kd)

/-- IMGCHK (R549): 0, or the image status code. -/
def execImgchk (e : Fin 10) (kd ka : BitVec 4) (operand : BitVec 12) (s : State) : Result :=
  s.run e 1 (fmtD 0x38 0x04 kd ka operand) fun s x =>
    let c := imageCode s.nv.floor (s.sramAt (x.reg ka).toNat)
    .done ((if c = 0 then s else s.bump 0x48).withReg e.val kd c)

/-- SETSTATE (R163): kd is 0 when accepted, 1 when refused. -/
def execSetstate (e : Fin 10) (kd ka : BitVec 4) (operand : BitVec 12) (s : State) : Result :=
  s.run e 1 (fmtD 0x38 0x05 kd ka operand) fun s x =>
    let r := s.askState (x.reg ka).toNat
    .done (r.1.withReg e.val kd (b2n (!r.2)))

/-! ### Operations shared by Keystone and the sandbox, major 0x3A -/

/-- HEND (R173): the hook ends normally. -/
def State.endHook (s : State) (result : Nat) : State :=
  let x := s.engine 1
  { s.setEngine 1 { x with run := false, stepping := false, waiting := none } with
    hooks := { s.hooks with busy := false, result := result, abandoned := s.hooks.abandoned.erase s.hooks.entry } }

def execHend (e : Fin 10) (operand : BitVec 12) (s : State) : Result :=
  s.run e 2 (fmtD 0x3A 0x00 0 0 operand) fun s _ => .done (s.endHook operand.toNat)

/-- CFIRE: kd is 0 fired, 1 not armed, 2 held by MIN_GAP (R470); a cairn outside the hook's grant faults (R171). -/
def execCfire (e : Fin 10) (kd ka : BitVec 4) (operand : BitVec 12) (s : State) : Result :=
  s.run e 3 (fmtD 0x3A 0x01 kd ka operand) fun s x =>
    let c := (x.reg ka).toNat % 512
    if e.val = 1 ∧ ¬ grantCairn s.hookEntry c then .fault 4
    else
      let r := s.trigger c 4
      .done (r.1.withReg e.val kd r.2)

/-- GPOUT: each named GPIO to its bit; one that is no FUNC 1 output ignores it (R498). -/
def execGpout (e : Fin 10) (kd ka : BitVec 4) (operand : BitVec 12) (s : State) : Result :=
  s.run e 3 (fmtD 0x3A 0x02 kd ka operand) fun s x =>
    let named := (List.range 4).filter fun g => bit operand.toNat g
    if e.val = 1 ∧ ¬ (named.all fun g => bit (grantGpioOut s.hookEntry) g) then .fault 4
    else .done (named.foldl (fun t g => t.setLevel g (bit (x.reg ka).toNat g)) s)

/-- GPIN reads all four levels; the grants name edges and outputs only, so that it never faults (DEDUCED). -/
def execGpin (e : Fin 10) (kd ka : BitVec 4) (operand : BitVec 12) (s : State) : Result :=
  s.run e 3 (fmtD 0x3A 0x03 kd ka operand) fun s _ => .done (s.withReg e.val kd (s.time.gpioIn % 16))

def execHlog (e : Fin 10) (kd ka : BitVec 4) (operand : BitVec 12) (s : State) : Result :=
  s.run e 3 (fmtD 0x3A 0x04 kd ka operand) fun s x =>
    .done (s.record (0xA100 + operand.toNat % 256) (if e.val = 0 then Src.keystone else Src.hook) (x.reg ka).toNat (x.reg kd).toNat)

end Sys2Proof.Machine
end

