-- ==== Sys2Proof/Machine/Hooks.lean ====
section
/-! DEFINITION. The dispatch of hooks, their budget, and the debug window's stop (08_belion_engines_and_flash_bus.md, R172 to
R177). -/

namespace Sys2Proof.Machine

/-- Hooks are dispatched: the supervisor program runs, and FREEZE is low. -/
def State.hooksUp (s : State) : Bool := s.dieUp && s.supervisor && !s.bas.freeze

/-- HOOK_TRIGGER (R172): a trigger event of an enabled entry. -/
def execHookTrigger (entry : Fin 16) (s : State) : Result :=
  if s.hooksUp ∧ bit (s.f Reg.hookEn) entry.val ∧ hookTrig ((s.hooks.table[entry.val]?).getD []) ≠ 0 then ok (s.queueHook entry.val)
  else ok s

/-- The sandbox at the start of a hook (R172): E5 and E6 keep their values. -/
def Engine.startHook (x : Engine) (e : Bytes) (r : HookReq) : Engine :=
  let k : Map (BitVec 32) := [(1, BitVec.ofNat 32 r.entry), (2, BitVec.ofNat 32 (hookDetail e)), (3, BitVec.ofNat 32 r.trigger)]
  { x with
    k := k.filter fun p => p.2 ≠ 0, z := false, n := false, c := false, v := false, ev := x.ev &&& 0x0060#16, pc := hookAddr e
    run := true, waiting := none }

/-- Start the hook of a request. -/
def State.startHook (s : State) (r : HookReq) (rest : List HookReq) : State :=
  let s1 := s.setEngine 1 ((s.engine 1).startHook ((s.hooks.table[r.entry]?).getD []) r)
  let s2 := { s1 with hooks := { s1.hooks with queue := rest, entry := r.entry, busy := true } }
  if rest.isEmpty then s2 else (s2.raise 1 5).raise 0 5

/-- HOOK_START (R172): the sandbox is idle, and the oldest request starts. A sandbox stopped through the debug window runs no
hook until its next load (R177). -/
def execHookStart (s : State) : Result :=
  match s.hooks.queue with
  | [] => ok s
  | r :: rest => if s.hooksUp ∧ ¬ s.hooks.busy ∧ ¬ (s.engine 1).dbg then ok (s.startHook r rest) else ok s

/-- HOOK_BUDGET_WARNING (R173): 75 % of the budget has passed. -/
def execHookBudgetWarning (s : State) : Result := if s.hooksUp ∧ s.hooks.busy then ok (s.raise 1 7) else ok s

/-- HOOK_BUDGET_EXPIRY (R173, R174): the hook is abandoned. -/
def execHookBudgetExpiry (s : State) : Result :=
  if s.hooksUp ∧ s.hooks.busy then ok ((s.record 0xA011 Src.hook s.hooks.entry).abandonHook) else ok s

/-! ### The debug window (R176, R177) -/

/-- Stop an engine before its next instruction (R177). -/
def State.debugStop (s : State) (e : Nat) : State :=
  let x := s.engine e
  if 10 ≤ e ∨ ¬ x.run then s
  else
    let s1 := s.setEngine e { x with run := false, dbg := true }
    if e = 0 then s1.supervisorStopped else if e = 1 then s1 else s1.failChannel (e - 2)

/-- A write of ENG and STOP to `BEL_DBG_CTRL`. -/
def State.writeDbgCtrl (s : State) (eng : Nat) (stop : Bool) : State :=
  let s1 := (s.setF Reg.dbgEng eng).setF Reg.dbgStop (b2n stop)
  if stop then s1.debugStop eng else s1

/-- DEBUG_STOP (R176, R177): a write of `BEL_DBG_CTRL` with STOP 1. -/
def execDebugStop (p : Path) (eng : BitVec 4) (s : State) : Result :=
  if ¬ s.reaches p then ok s
  else if s.dev ≠ .recovery ∧ s.debugOpen p then ok (s.writeDbgCtrl eng.toNat true)
  else ok s.refuseDebug.ignoredWrite

end Sys2Proof.Machine
end

