-- ==== Sys2Proof/Machine/Admin.lean ====
section
/-! DEFINITION. The administrative commands of ring 0 (12_admin_commands_and_status.md, R260 to R281), with the volumes, boot
slots, cairns and images that some of them act on. A row starts the fetched command that its ring and tag name. -/

namespace Sys2Proof.Machine

/-! ### Marks, order and checks (R131, R233, R261 to R265) -/

/-- Opcodes marked P, W and K, and those that Bedrock serves. SELF_TEST needs W to start a test only. -/
def admP (op : Nat) : Bool := [0x41, 0x42, 0x46, 0x47, 0x4C, 0x4E, 0x4F, 0x51, 0x52, 0x53, 0x55].contains op
def admW (op : Nat) : Bool := op = 0x45 || admP op
def admK (op : Nat) : Bool := op = 0x46 || op = 0x48 || op = 0x52
def admBedrock (op : Nat) : Bool := [0x40, 0x44, 0x45, 0x46, 0x49, 0x4A, 0x4B, 0x57].contains op

/-- A P command's turn has come: no earlier one is outstanding, and no SANITIZE runs (R262, R273). -/
def State.admTurn (s : State) (c : Cmd) : Bool :=
  !admP c.opcode ||
  (s.nv.sanitize.isNone &&
    !((s.ring 0).cmds.takeWhile fun x => x.tag ≠ c.tag).any fun x => admP x.opcode && x.stage ≠ .done)

/-- What one opcode asks of a command: that Bedrock serves it, its fields and data pointer (check 3), the role (check 4), its
own ranges (in place of checks 6 to 8), and the mark W. -/
structure AdmRule where
  bedrock : Bool
  fields : Bool
  right : Bool
  range : Bool
  w : Bool
  deriving DecidableEq, Repr

/-- The checks of R261 in order: the status of the first that fails. No admin command needs a volume key (DEDUCED: check 5 is
of I/O, R533). -/
def State.admCheck (s : State) (c : Cmd) (r : AdmRule) : Option Nat :=
  if s.dev = .bedrock ∧ ¬ r.bedrock then some 0x0800
  else if c.ring ≠ 0 then some 0x0200
  else if ¬ r.fields then some 0x0201
  else if ¬ r.right then some 0x0400
  else if ¬ r.range then some 0x0201
  else if s.dev = .preFreeze ∧ r.w then some 0x0103
  else none

/-- A command ends with DEFERRED and its hint in µs (R265). -/
def State.defer (s : State) (c : Cmd) (hint : Nat) : State := s.complete c 0x0100 (natLe 4 hint)

/-- Start an admin command at its turn: checks, then the supervisor program for a K command (R264), then `f`. `mine` tells the
forms of one opcode apart. -/
def State.startAdm (s : State) (n tag op : Nat) (mine : Cmd → Bool) (rule : State → Cmd → AdmRule) (f : State → Cmd → State) : Result :=
  s.startCmd n tag op fun s c0 =>
    let c := { c0 with cls := 6 }
    if ¬ mine c ∨ ¬ s.admTurn c then s
    else match s.admCheck c (rule s c) with
      | some st => s.complete c st []
      | none => if admK op ∧ s.dev ≠ .bedrock ∧ ¬ s.supervisor then s.defer c 0xFFFFFFFF else f s c

/-- The path holds the installer or the maker role. -/
def State.asOwner (s : State) : Bool := 1 ≤ s.roles.pcie

/-- The rule of an opcode by its fields: `own` says that it needs the installer role. -/
def State.admRule (s : State) (c : Cmd) (own fields range : Bool) : AdmRule :=
  { bedrock := admBedrock c.opcode, fields := fields, right := !own || s.asOwner, range := range, w := admW c.opcode }

/-- OPFIELDS are 0. -/
def Cmd.noOps (c : Cmd) : Bool := c.zero 28 28
/-- TARGET, OPFLAGS and START are 0. -/
def Cmd.plain (c : Cmd) : Bool := c.volume = 0 && c.opflags = 0 && c.start = 0
/-- A form with no data: LENGTH and the pointer are 0. -/
def Cmd.noData (c : Cmd) : Bool := c.length = 0 && c.pointerOk 0
/-- A form that moves LENGTH bytes. -/
def Cmd.data (c : Cmd) : Bool := 1 ≤ c.length && c.length ≤ 2 ^ 21 && c.pointerOk c.length

/-! ### Data (R260, R232, R411) -/

/-- Data from the host: `f` applies it. -/
def State.admIn (s : State) (c : Cmd) (x : AdmXfer) (f : State → Bytes → State) : State :=
  match x with
  | .done segs data => if c.listOk c.length segs then f s (padTo c.length data) else s.complete c 0x0201 []
  | .faulted off code => s.dmaFault c (descAt (cutRuns false false false 0 (c.runs c.length [])) off.toNat) code.toNat

/-- Data to the host: `f` makes it and the result. What the copy takes, clears or issues stands although the transfer ends in
fault. -/
def State.admOut (s : State) (c : Cmd) (x : AdmXfer) (f : State → State × Bytes × Bytes) : State :=
  match x with
  | .done segs _ =>
    if c.listOk c.length segs then
      let r := f s
      (r.1.scatter r.2.1 (c.runs c.length segs)).complete c 0 r.2.2
    else s.complete c 0x0201 []
  | .faulted off code =>
    (f s).1.dmaFault c (descAt (cutRuns true false false 0 (c.runs c.length [])) off.toNat) code.toNat

/-! ### IDENTIFY, VOLUME_QUERY, LOG_READ, LOSS_REPORT (R274 to R279, R318) -/

/-- IDENTIFY. -/
def execIdentify (n : Fin 8) (tag : BitVec 5) (x : AdmXfer) (s : State) : Result :=
  s.startAdm n.val tag.toNat 0x40 (fun _ => true)
    (fun s c => s.admRule c false (c.plain && c.noOps && c.length = 4096 && c.data) true)
    fun s c => s.admOut c x fun t => (t, t.identify, natLe 4 4096)

/-- VOLUME_QUERY. -/
def execVolumeQuery (n : Fin 8) (tag : BitVec 5) (x : AdmXfer) (s : State) : Result :=
  s.startAdm n.val tag.toNat 0x43 (fun _ => true)
    (fun s c => s.admRule c false (c.volume ≤ 31 && c.opflags = 0 && c.start = 0 && c.noOps && c.length = 256 && c.data) true)
    fun s c => s.admOut c x fun t => (t, t.volQuery c.volume, natLe 4 256)

/-- Fields of LOG_READ (R266, R276 to R278). -/
def Cmd.logOk (c : Cmd) : Bool :=
  let rec_ := c.volume = 2 || c.volume = 3
  pageKnown c.volume && c.opflags ≤ 1 && (c.opflags = 0 || c.volume = 4 || c.volume = 6) && c.noOps && 4 ≤ c.length && c.length % 4 = 0 &&
  c.start % 4 = 0 && (!rec_ || (c.start % 32 = 0 && c.length % 32 = 0)) && c.data

/-- Clear the counters of page 0x04 or 0x06 that a read from `off` has copied (R278, R512). -/
def State.clearPage (s : State) (page off len : Nat) : State :=
  let s1 := if page = 4 then { s with evr.tc := s.evr.tc.filter fun e => !(decide (off ≤ 2 * e.1) && decide (2 * e.1 < off + len)) }
    else { s with cls := s.cls.filter fun e => !(decide (off ≤ 4 * e.1) && decide (4 * e.1 < off + len)) }
  (s1.touch page).record 0xF003 Src.recorder page

/-- The copy of LOG_READ: the state, the bytes, and the result. `gone` names the records of pages 0x02 and 0x03 that decode
from neither copy (R510). -/
def State.logCopy (s : State) (page off len : Nat) (clear : Bool) (gone : List Nat) : State × Bytes × Bytes :=
  let whole := s.pageWith page gone
  let data := (whole.drop off).take len
  let bad := if page = 2 ∨ page = 3 then
      (gone.eraseDups.filter fun i => decide (off ≤ 32 * i) && decide (32 * i < off + data.length)).length
    else 0
  let s1 := (List.range bad).foldl (fun t _ => t.bump 0x02) s
  (if clear then s1.clearPage page off len else s1, data,
   natLe 4 data.length ++ natLe 8 (s.pageSequence page) ++ natLe 4 whole.length)

/-- LOG_READ. -/
def execLogRead (n : Fin 8) (tag : BitVec 5) (gone : List (BitVec 16)) (x : AdmXfer) (s : State) : Result :=
  s.startAdm n.val tag.toNat 0x44 (fun _ => true)
    (fun s c => { bedrock := !(6 ≤ c.volume && pageKnown c.volume), fields := c.logOk, right := c.opflags = 0 || s.asOwner, range := true, w := false })
    fun s c => s.admOut c x fun t => t.logCopy c.volume c.start c.length (c.opflags = 1) (gone.map fun i => i.toNat)

/-- Entries of the loss report that a filter takes. -/
def State.lossMatches (s : State) (v cause : Nat) : List LossRun :=
  s.nv.loss.runs.filter fun r => (v == 0xFF || r.vol == v) && (cause == 0 || r.cause == cause)

/-- LOSS_REPORT. -/
def execLossReport (n : Fin 8) (tag : BitVec 5) (x : AdmXfer) (s : State) : Result :=
  s.startAdm n.val tag.toNat 0x57 (fun _ => true)
    (fun s c => s.admRule c false ((c.volume ≤ 31 || c.volume = 0xFF) && c.opflags = 0 && c.b 28 1 ≤ 5 && c.zero 29 27 && 64 ≤ c.length &&
      c.length % 16 = 0 && c.data) true)
    fun s c => s.admOut c x fun t =>
      let all := t.lossMatches c.volume (c.b 28 1)
      let sel := (all.drop c.start).take ((c.length - 64) / 16)
      let data := t.lossHeader ++ sel.flatMap LossRun.bytes
      (t, data, natLe 4 data.length ++ natLe 4 sel.length ++ natLe 4 all.length)

/-! ### Volumes (R268, R291 to R296, R532, R542) -/

/-- A started write or APPEND of the volume has not ended. The delete of a volume and a slot switch pass their arbiter once
such commands have ended (DESIGN CHOICE; R268, R296). -/
def State.writersOn (s : State) (v : Nat) : Bool :=
  s.rings.any fun r => r.2.cmds.any fun c =>
    c.volume == v && (c.opcode == 2 || c.opcode == 3 || c.opcode == 4) && (c.stage == .moving || c.stage == .running)

/-- Flint is failed (R541): rerunning or latched. -/
def State.flintFailed (s : State) : Bool := s.flintLatched || 2 ≤ s.roles.flint.stat

/-- Blocks granted for a capacity (R292). -/
def capGranted (cap : Nat) : Nat := 1024 * ceilDiv cap 1024

/-- R291 and R292 allow the volume. -/
def State.createOk (s : State) (c : Cmd) : Bool :=
  let kind := bits c.opflags 1 0
  let g := capGranted c.start
  (s.vol c.volume).kind = 255 && c.start ≠ 0 && (c.volume = 0) == (kind = 2) && (kind ≠ 1 || !bit c.opflags 2) && (kind = 1 || c.b 28 4 = 0) &&
  (if kind = 2 then 2 * g else g) ≤ s.available

/-- Make a volume key of DEVICE protection: a reseed, then 64 bytes (R530, R532, R539); it is loaded. -/
def State.makeKey (s : State) (v : Nat) : State :=
  let s1 := s.setFlint { s.roles.flint with requests := 0 }
  let s2 := (s1.draw 64).1
  ({ s2 with
    nv.keys.vol := s2.nv.keys.vol.put v { drawn := s1.nv.keys.drawn, secret := none }
    roles.keys := withBit s2.roles.keys v true }).record 0x6040 Src.sec v

/-- VOLUME_CREATE. -/
def State.createVolume (s : State) (c : Cmd) : State :=
  let g := capGranted c.start
  let x : Vol :=
    { kind := bits c.opflags 1 0, emul := bit c.opflags 2, encrypt := bit c.opflags 3, cap := g, retention := c.b 28 4 }
  let s1 := (s.setVol c.volume x).commit
  let s2 := if x.encrypt then s1.makeKey c.volume else s1
  (s2.record 0x1070 Src.strata c.volume).complete c 0 (natLe 4 0 ++ natLe 8 g)

/-- While Flint is failed an encrypted volume ends with ENTROPY_FAIL; while it starts, the command waits. -/
def execVolumeCreate (n : Fin 8) (tag : BitVec 5) (s : State) : Result :=
  s.startAdm n.val tag.toNat 0x41 (fun _ => true)
    (fun s c => s.admRule c true
      (c.volume ≤ 31 && c.opflags ≤ 15 && bits c.opflags 1 0 ≠ 3 && c.zero 32 24 && c.noData) (s.createOk c))
    fun s c =>
      if bit c.opflags 3 ∧ s.flintFailed then s.complete c 0x0500 []
      else if bit c.opflags 3 ∧ ¬ s.roles.flint.drbg then s
      else s.createVolume c

/-- Staged units of a volume that no program carries are discarded. -/
def State.dropUnits (s : State) (v : Nat) : State :=
  let gone (u : SUnit) : Bool := u.vol == v && u.place == UnitAt.staged
  let s1 := (s.str.units.filter gone).foldl (fun t u => t.giveBack 1 u.part u.fromReserve) s
  { s1 with
    str := { s1.str with
      units := s1.str.units.filter fun (u : SUnit) => !gone u
      loaded := s1.str.loaded.filter fun k => k / 2 ^ 32 ≠ v
      cached := s1.str.cached.filter fun k => k / 2 ^ 40 ≠ v }
    nv.drained := s1.nv.drained.filter fun (u : SUnit) => u.vol ≠ v }

/-- The pins and loss-report entries of a volume go. -/
def State.dropMarks (s : State) (v : Nat) : State :=
  { s with
    nv.pins := s.nv.pins.filter fun (p : Pin) => p.vol ≠ v
    nv.loss := { s.nv.loss with runs := s.nv.loss.runs.filter fun (r : LossRun) => r.vol ≠ v } }

/-- VOLUME_DELETE: every block is unmapped, and the volume's key goes with it (DEDUCED). -/
def State.deleteVolume (s : State) (c : Cmd) : State :=
  let v := c.volume
  let s1 := ((s.dropUnits v).dropMarks v).setVol v {}
  let s2 := ({ s1 with
    nv.keys.vol := s1.nv.keys.vol.erase v
    roles.keys := withBit s1.roles.keys v false }).commit
  (s2.record 0x1071 Src.strata v).complete c 0 []

def execVolumeDelete (n : Fin 8) (tag : BitVec 5) (s : State) : Result :=
  s.startAdm n.val tag.toNat 0x42 (fun _ => true)
    (fun s c => s.admRule c true (1 ≤ c.volume && c.volume ≤ 31 && c.opflags ≤ 1 && c.start = 0 && c.noOps && c.noData)
      ((s.vol c.volume).kind ≠ 255 && (c.opflags = 1 || !s.nv.pins.any fun p => p.vol == c.volume)))
    fun s c => if s.writersOn c.volume then s else s.deleteVolume c

/-- BOOT_SLOT_SWITCH (R295, R296). -/
def State.switchSlot (s : State) (g : Nat) (once : Bool) : State :=
  if once then s.writeBoot fun b => { b with once := some g }
  else if g = s.nv.boot.bootSlot then s.writeBoot fun b => { b with revert := none }
  else (s.writeBoot fun b => { b with bootSlot := g, once := none, revert := none }).record 0x1072 Src.strata g

def execBootSlotSwitch (n : Fin 8) (tag : BitVec 5) (s : State) : Result :=
  s.startAdm n.val tag.toNat 0x51 (fun _ => true)
    (fun s c => s.admRule c true (c.volume = 0 && c.opflags ≤ 3 && c.start = 0 && c.noOps && c.noData) true)
    fun s c =>
      if s.writersOn 0 then s else ((s.switchSlot (bits c.opflags 0 0) (bit c.opflags 1)).commit).complete c 0 []

/-! ### SANITIZE (R272, R273, R536, R542) -/

/-- The volumes a SANITIZE names; volume 0 only with BOOT. -/
def State.sanVols (s : State) (target : Nat) (boot : Bool) : List Nat :=
  (List.range 32).filter fun v => (target == 0xFF || v == target) && (s.vol v).kind ≠ 255 && (v ≠ 0 || boot)

/-- Flash blocks that hold data of the volumes (R272). -/
def State.blocksOf (s : State) (vs : List Nat) : List Nat :=
  (vs.flatMap fun v =>
    let x := s.vol v
    (x.map.map fun m => m.2.loc) ++ x.recs.map fun r => r.loc).eraseDups.filter fun l => l ≠ 0

/-- A volume after its data has gone: it reads as zeros, and its sequence numbers run on (R243). -/
def Vol.wiped (x : Vol) : Vol := { x with sanitize := false, map := [], recs := [] }

/-- Erase one block of the scope (R272). Data of other volumes in it moves to a fresh block first (DEDUCED). -/
def State.sanBlock (s : State) (loc : Nat) : State :=
  let n := loc / 2 ^ 32
  let b := loc % 2 ^ 32 - 1
  if s.validIn loc = 0 then s.erased n b
  else match s.freshBlock n with
    | some d =>
      let s1 := (s.openBlock n d (s.cellOf n) false).moveLoc loc (locOf n d)
      (s1.closeBlock n d).erased n b
    | none => s

/-- A SANITIZE begins: the volumes are locked (R273). -/
def State.beginSanitize (s : State) (vs : List Nat) (crypto : Bool) (target : Nat) : State :=
  let s1 := vs.foldl (fun t v => t.setVol v { t.vol v with sanitize := true }) s
  ({ s1.commit with
    nv.sanitize := some { vols := vs, crypto := crypto, began := s.time.uptime }
    nv.sanDone := 0, nv.sanScope := (s.blocksOf vs).length }).record 0x6030 Src.strata target

/-- Replace the key of a volume (R536). -/
def State.freshKey (s : State) (v : Nat) : State :=
  (({ s with nv.keys.vol := s.nv.keys.vol.erase v }).record 0x6042 Src.sec v).makeKey v

/-- A SANITIZE ends (R272, R273): the volumes remain and read as zeros. -/
def State.endSanitize (s : State) (y : Sanitize) : State :=
  let locs := s.blocksOf y.vols
  let s1 := y.vols.foldl (fun t v => (((t.dropUnits v).dropMarks v).setVol v (t.vol v).wiped)) s
  let s2 := if y.crypto then y.vols.foldl State.freshKey s1 else locs.foldl State.sanBlock s1
  ({ s2.commit with nv.sanitize := none, nv.sanDone := s2.nv.sanScope }).record 0x6031 Src.strata

/-- The completion of a SANITIZE that its ring still awaits: blocks erased, and the duration in ms (DEDUCED: rounded up). -/
def State.sanResult (s : State) (y : Sanitize) : Bytes :=
  natLe 4 0 ++ natLe 8 (if y.crypto then 0 else (s.blocksOf y.vols).length) ++ natLe 4 (ceilDiv (s.time.uptime - y.began) 25000)

/-- The end of the SANITIZE under way. After a start it resumes in READY, with no command to complete (R273). -/
def State.sanitizeEnds (s : State) (n tag : Nat) (crypto : Bool) : State :=
  match s.nv.sanitize with
  | none => s
  | some y =>
    if y.crypto ≠ crypto ∨ ¬ s.dieUp ∨ ¬ s.dev.inService ∨ s.bas.freeze ∨ (crypto ∧ ¬ s.roles.flint.drbg) then s
    else
      let s1 := s.endSanitize y
      match s.cmd? n tag with
      | some c => if c.opcode = 0x53 ∧ c.stage = .running ∧ n = 0 then s1.complete c 0 (s.sanResult y) else s1
      | none => s1

/-- Start a SANITIZE. -/
def State.startSanitize (s : State) (n tag : Nat) (mine : Cmd → Bool) : Result :=
  s.startAdm n tag 0x53 mine
    (fun s c =>
      let vs := s.sanVols c.volume (bit c.opflags 2)
      let how := bits c.opflags 1 0
      s.admRule c true ((c.volume ≤ 31 || c.volume = 0xFF) && c.opflags ≤ 7 && (how = 1 || how = 2) && c.start = 0 && c.noOps && c.noData)
        ((c.volume = 0xFF || !vs.isEmpty) && (how ≠ 1 || vs.all fun v => (s.vol v).encrypt)))
    fun s c =>
      let crypto := bits c.opflags 1 0 = 1
      if crypto ∧ s.flintFailed then s.complete c 0x0500 []
      else if crypto ∧ ¬ s.roles.flint.drbg then s
      else (s.beginSanitize (s.sanVols c.volume (bit c.opflags 2)) crypto c.volume).setCmd { c with stage := .running }

/-- SANITIZE_CRYPTO_ERASE: its start, or its end. A form that is neither erase is checked (and refused) here. -/
def execSanitizeCryptoErase (n : Fin 8) (tag : BitVec 5) (ends : Bool) (s : State) : Result :=
  if ends then ok (s.sanitizeEnds n.val tag.toNat true)
  else s.startSanitize n.val tag.toNat fun c => bits c.opflags 1 0 ≠ 2

/-- SANITIZE_BLOCK_ERASE: its start, or its end. -/
def execSanitizeBlockErase (n : Fin 8) (tag : BitVec 5) (ends : Bool) (s : State) : Result :=
  if ends then ok (s.sanitizeEnds n.val tag.toNat false)
  else s.startSanitize n.val tag.toNat fun c => bits c.opflags 1 0 = 2

/-! ### ABORT (R271, R286) -/

/-- The commands an ABORT names; it never ends itself or another ABORT. -/
def State.abortNames (s : State) (ring tag : Nat) : List Cmd :=
  (s.ring ring).cmds.filter fun c => (tag == 0xFF || c.tag == tag) && c.opcode ≠ 0x54 && c.stage ≠ .done

/-- A self-test ends at its next piece boundary (R286). -/
def State.haltTest (s : State) : State :=
  { s with selfTest := s.selfTest.map fun (t : SelfTest) => { t with stopping := true } }

def State.abort (s : State) (c : Cmd) : State :=
  let all := s.abortNames c.volume c.start
  let open_ := all.filter Cmd.unstarted
  let s1 := open_.foldl (fun t x => t.complete x 0x0701 []) s
  let s2 := if c.volume = 0 ∧ all.any fun x => x.opcode = 0x48 ∧ x.stage = .running then s1.haltTest else s1
  s2.complete c 0 (natLe 4 0 ++ natLe 4 open_.length ++ natLe 4 (all.length - open_.length))

def execAbort (n : Fin 8) (tag : BitVec 5) (s : State) : Result :=
  s.startAdm n.val tag.toNat 0x54 (fun _ => true)
    (fun s c => s.admRule c false (c.volume ≤ 7 && c.opflags = 0 && c.start ≤ 0xFF && c.noOps && c.noData) true)
    State.abort

/-! ### CLOCK_SET (R270) -/

def State.clockSet (s : State) (v : Nat) : State :=
  let old := s.time.calendar
  ({ s with time := { s.time with calendar := v, calPhase := 0, calSet := true } }).record 0x8020 Src.lodestone
    (old % 2 ^ 32) (old / 2 ^ 32) (v % 2 ^ 32) (v / 2 ^ 32)

def execClockSet (n : Fin 8) (tag : BitVec 5) (s : State) : Result :=
  s.startAdm n.val tag.toNat 0x50 (fun _ => true)
    (fun s c => s.admRule c false (c.volume = 0 && c.opflags = 0 && c.noOps && c.noData) true)
    fun s c => (s.clockSet c.start).complete c 0 (natLe 4 0 ++ natLe 8 s.time.calendar)

/-! ### Configuration items (R280, R281, R415, R424, R450) -/

/-- The rules of R450 on one window. -/
def State.windowOk (s : State) (b : Bytes) (w : Nat) : Bool :=
  let k := winKind b w
  let n := winMax b w
  k ≤ 3 && leAt b (22 + 12 * w) 6 = 0 &&
  (k ≠ 1 || (1 ≤ n && n ≤ 262144)) && ((k ≠ 2 && k ≠ 3) || (8 ≤ n && n ≤ 262144)) &&
  ((k ≠ 1 && k ≠ 3) || (s.vol (winVol b w)).kind = 1)

/-- The rules of R450 on the partition definition of a slot, enabled or not (DEDUCED). -/
def State.partOk (s : State) (slot : Nat) (b : Bytes) : Bool :=
  1 ≤ partId b && bits (leAt b 0 2) 14 12 = 0 && bits (leAt b 2 1) 7 1 = 0 && leAt b 3 1 = 0 && partQuota b ≤ 1536 && 1 ≤ partThresh b &&
  leAt b 12 4 = 0 && ((List.range 4).all (s.windowOk b)) &&
  (!partOn b || (List.range 16).all fun i => i = slot || !partOn (s.partStored i) || partId (s.partStored i) ≠ partId b)

/-- The ranges of R424. -/
def portOk (b : Bytes) : Bool :=
  bits (leAt b 0 1) 7 3 = 0 && unicast (portMac b) && 1 ≤ portWd b && portWd b ≤ 1000 && 1 ≤ leAt b 12 2 && leAt b 12 2 ≤ 100 &&
  (slice b 14 18).all fun x => x = 0

/-- The item's own checks on its data; those of tables 2 and 3 are made at their sync. -/
def State.itemOk (s : State) (item index : Nat) (b : Bytes) : Bool :=
  match item with
  | 6 => leAt b 0 4 ≤ 512
  | 7 => s.partOk index b
  | 8 => portOk b
  | _ => true

/-- Store an item, and the entry a sync will copy (R17). -/
def State.storeItem (s : State) (item index : Nat) (b : Bytes) : State :=
  let s1 := { s.commit with nv.config := s.nv.config.put (item * 65536 + index) b }
  match item with
  | 1 => { s1 with tab.connStored := s1.tab.connStored.set [] index b }
  | 2 => { s1 with tab.lunStored := s1.tab.lunStored.set [] index b }
  | _ => s1

/-- Write the value of an item 3 to 5 to its register: the state, and whether all of it was taken. -/
def State.applyItem (s : State) (item v : Nat) : State × Bool :=
  match item with
  | 3 => (s.writePfw v, bits v 1 0 ≠ 3 && 2 ≤ bits v 8 2 && bits v 8 2 ≤ 100 && bits v 16 9 ≤ 129 && 4200 + 200 * bits v 16 9 + 1000 ≤ s.bas.vinMv)
  | 4 => (s.writeChg v, bits v 5 0 < 47)
  | 5 => (s.writeChecked (cycBudgetOk v) Src.ring 0x10C0 v, cycBudgetOk v)
  | _ => (s, true)

def State.configWrite (s : State) (c : Cmd) (b : Bytes) : State :=
  if ¬ s.itemOk c.volume c.start b then s.complete c 0x0201 []
  else
    let s1 := (s.storeItem c.volume c.start b).record 0x1060 Src.strata c.volume c.start
    let r := if c.opflags = 1 then s1.applyItem c.volume (leAt b 0 4) else (s1, true)
    r.1.complete c 0 (natLe 4 0 ++ natLe 1 (b2n (!r.2)))

/-- Fields of both configuration commands. -/
def Cmd.itemFields (c : Cmd) : Bool :=
  c.opflags ≤ 1 && itemSize c.volume ≠ 0 && c.length = itemSize c.volume && c.start < itemCount c.volume && c.noOps && c.data

def execConfigWrite (n : Fin 8) (tag : BitVec 5) (x : AdmXfer) (s : State) : Result :=
  s.startAdm n.val tag.toNat 0x55 (fun _ => true)
    (fun s c => s.admRule c true (c.itemFields && (c.opflags = 0 || (3 ≤ c.volume && c.volume ≤ 5))) true)
    fun s c => s.admIn c x fun t b => t.configWrite c b

def execConfigRead (n : Fin 8) (tag : BitVec 5) (x : AdmXfer) (s : State) : Result :=
  s.startAdm n.val tag.toNat 0x56 (fun _ => true) (fun s c => s.admRule c false c.itemFields true)
    fun s c => s.admOut c x fun t =>
      (t, if c.opflags = 1 then t.itemInForce c.volume c.start else padTo c.length (t.storedItem c.volume c.start), natLe 4 c.length)

/-! ### Cairns (R269, R466 to R468, R477) -/

/-- The header of an entry is in range (R466). -/
def cairnHeaderOk (i : Nat) (b : Bytes) : Bool :=
  let c : Cairn := { entry := b }
  c.flag 0 && bits (leAt b 0 1) 7 5 = 0 && 1 ≤ c.kind && c.kind ≤ 6 &&
  (match c.kind with
   | 1 => true
   | 2 => c.detail ≤ 0x7F
   | 3 => c.detail ≤ 7
   | _ => c.detail = 0) &&
  1 ≤ c.actions && c.actions ≤ 6 && (if c.kind = 2 then 1 ≤ c.thresh else c.thresh = 0) &&
  (if c.kind = 1 then c.source ≤ 255 || c.source = 0xFFFF else c.source = 0) &&
  (if c.flag 3 then c.next ≤ 511 && c.next ≠ i else c.next = 0) && (slice b 12 20).all fun x => x = 0

/-- Action slot `k` of an entry is in range (R467, R468). -/
def State.cairnSlotOk (s : State) (b : Bytes) (k : Nat) : Bool :=
  let c : Cairn := { entry := b }
  let a := c.slot k
  if c.actions ≤ k then a.all fun x => x = 0
  else match slotKind a with
    | 1 =>
      let n := leAt a 8 4
      leAt a 1 1 ≤ 1 && leAt a 2 2 = 0 && leAt a 12 4 = 0 && 1 ≤ n && (leAt a 1 1 = 1 || n ≤ 600000) &&
      (List.range 32).all fun v => !bit (leAt a 4 4) v || (s.vol v).kind = 1
    | 2 =>
      leAt a 1 1 = 0 && leAt a 6 2 = 0 && decide (leAt a 3 1 < k) && slotKind (c.slot (leAt a 3 1)) = 1 && connValid (s.connEntry (leAt a 2 1))
    | 3 => leAt a 1 1 ≤ 8 && leAt a 12 4 = 0 && connValid (s.connEntry (leAt a 2 1))
    | 4 => leAt a 1 3 = 0 && leAt a 8 8 = 0
    | _ => false

/-- R468 accepts the entry of cairn `i`. -/
def State.cairnOk (s : State) (i : Nat) (b : Bytes) : Bool := cairnHeaderOk i b && (List.range 6).all (s.cairnSlotOk b)

/-- The cairn is firing, waits in the fire queue, or waits to resume. -/
def Cairn.busy (c : Cairn) : Bool := c.state = 2 || c.state = 4

def State.cairnPost (s : State) (c : Cmd) (b : Bytes) : State :=
  let i := c.start
  let x := s.cairn i
  if ¬ s.cairnOk i b then s.complete c 0x0201 []
  else if x.busy then s.defer c 10000
  else (((s.setCairn i { x with entry := b, state := 1, count := 0, cancelled := false }).touch 0x0B).commit).complete c 0 []

def execCairnPost (n : Fin 8) (tag : BitVec 5) (x : AdmXfer) (s : State) : Result :=
  s.startAdm n.val tag.toNat 0x4E (fun _ => true)
    (fun s c => s.admRule c true (c.volume = 0 && c.opflags = 0 && c.length = 128 && c.start ≤ 511 && c.noOps && c.data) true)
    fun s c => s.admIn c x fun t b => t.cairnPost c b

/-- A cancel: 0 unfired, 1 fired before, 2 not posted. A firing under way runs to its end (R269, R477). -/
def State.cairnCancel (s : State) (i : Nat) : State × Nat :=
  let x := s.cairn i
  if x.state = 0 then (s, 2)
  else if x.busy then (s.setCairn i { x with cancelled := true }, 1)
  else ((s.setCairn i { x with entry := [], state := 0, count := 0 }).touch 0x0B, if x.state = 1 then 0 else 1)

def execCairnCancel (n : Fin 8) (tag : BitVec 5) (s : State) : Result :=
  s.startAdm n.val tag.toNat 0x4F (fun _ => true)
    (fun s c => s.admRule c true (c.volume = 0 && c.opflags = 0 && c.start ≤ 511 && c.noOps && c.noData) true)
    fun s c =>
      let r := s.cairnCancel c.start
      r.1.commit.complete c 0 (natLe 4 0 ++ natLe 1 r.2)

/-! ### Images (R552 to R559) -/

/-- Chunks are admitted through the ledger at class 6, one at a time (R133, R554). -/
inductive ChunkGate | open_ | shut | wait
  deriving DecidableEq, Repr
def State.chunkGate (s : State) : ChunkGate :=
  if s.dev.minimal then .open_
  else if ¬ s.openTo 6 then .shut
  else if s.unitsFit 6 1 ∧ s.energyFits 1 then .open_
  else .wait

/-- Apply the chunks of an IMAGE_WRITE; one that finds no page applies nothing. -/
def State.imageWrite (s : State) (c : Cmd) (b : Bytes) : State :=
  let s1 := if c.opflags = 1 then s.beginSession 0 else s
  match s1.sessionOn 0 with
  | none => s.complete c 0x0901 []
  | some g =>
    let r := s1.putChunks g (c.start / 4096) (c.length / 4096) b
    if r.2 then r.1.complete c 0 (natLe 4 c.length ++ natLe 8 r.1.heldBytes) else s.complete c 0x0201 []

def execImageWrite (n : Fin 8) (tag : BitVec 5) (x : AdmXfer) (s : State) : Result :=
  s.startAdm n.val tag.toNat 0x45 (fun _ => true)
    (fun s c => s.admRule c true (c.volume = 0 && c.opflags ≤ 1 && c.noOps && c.length % 4096 = 0 && c.start % 4096 = 0 &&
      c.start + c.length ≤ 4194304 && c.data) true)
    fun s c =>
      if c.opflags = 0 ∧ (s.sessionOn 0).isNone then s.complete c 0x0901 []
      else match s.chunkGate with
        | .shut => s.complete c 0x0102 []
        | .wait => s.hold c 6 1
        | .open_ => s.admIn c x fun t b => t.imageWrite c b

/-- IMAGE_COMMIT, with what the reads of the copies showed. Its staging units come at class 6, at most 512 at a time (R417). -/
def execImageCommit (n : Fin 8) (tag : BitVec 5) (copies : Copies) (s : State) : Result :=
  s.startAdm n.val tag.toNat 0x46 (fun _ => true)
    (fun s c => s.admRule c true (c.plain && c.noOps && c.pointerOk 0) true)
    fun s c =>
      let r := s.commitImage 0 c.length copies
      match r.2 with
      | none => s.complete c 0x0901 []
      | some (code, g) =>
        if ¬ s.dev.minimal ∧ ¬ s.unitsFit 6 (min 512 (ceilDiv c.length 4096)) then s.hold c 6 (min 512 (ceilDiv c.length 4096))
        else r.1.complete c (imageStatus code) (natLe 4 0 ++ natLe 4 code ++ natLe 1 g)

/-- IMAGE_CONFIRM. -/
def execImageConfirm (n : Fin 8) (tag : BitVec 5) (s : State) : Result :=
  s.startAdm n.val tag.toNat 0x47 (fun _ => true)
    (fun s c => s.admRule c true (c.plain && c.noOps && c.noData) true)
    fun s c => if s.onTrial then s.confirmImage.complete c 0 [] else s.complete c 0x0901 []

/-! ### HOOK_LOAD (R168, R175, R264) -/

/-- Load the section: the queued requests are discarded; a good section is stored. A section that fails its checks is not, and
completes with IMAGE_INVALID (DEDUCED from R289). -/
def State.hookLoad (s : State) (c : Cmd) (b : Bytes) : State :=
  let s1 := (s.countF Reg.hookMerged s.hooks.queue.length)
  let r := ({ s1 with hooks := { s1.hooks with queue := [] } }).loadSection 1 true b
  if r.2 = 1 then ({ r.1.commit with nv.config := r.1.nv.config.put 0 b }).complete c 0 [] else r.1.complete c 0x0900 []

def execHookLoad (n : Fin 8) (tag : BitVec 5) (x : AdmXfer) (s : State) : Result :=
  s.startAdm n.val tag.toNat 0x52 (fun _ => true)
    (fun s c => s.admRule c true (c.plain && c.noOps && 64 ≤ c.length && c.length ≤ 10816 && c.data) true)
    fun s c =>
      if s.hooks.busy then (if c.stage = .held then s else s.setCmd { c with stage := .held })
      else s.admIn c x fun t b => t.hookLoad c b

end Sys2Proof.Machine
end

