-- ==== Sys2Proof/Decode.lean ====
section
/-! DEFINITION. Belion words: the encoding of every Belion instruction in the four formats of R144, and its reading back
(07_belion_model_and_encoding.md, R136 to R153; 08_belion_engines_and_flash_bus.md, R156 to R173). The rows of
spec/opcode_table.json give no bits, so that no word spells a command. -/

namespace Sys2Proof

/-- The rows of the table give no bits. -/
def decodeTableWord (_nbits _w : Nat) : Option Instr := none

namespace Machine

/-- An instruction whose fields that must be 0 are 0. -/
def keep (p : Prop) [Decidable p] (i : Instr) : Option Instr := if p then some i else none

/-! ### The fields of R144 -/

def majorOf (w : Word) : Nat := w.toNat / 2 ^ 26
def kdOf (w : Word) : BitVec 4 := w.extractLsb' 22 4
def kaOf (w : Word) : BitVec 4 := w.extractLsb' 18 4
def kbOf (w : Word) : BitVec 4 := w.extractLsb' 14 4
def immOf (w : Word) : BitVec 16 := w.extractLsb' 0 16
def offOf (w : Word) : BitVec 22 := w.extractLsb' 0 22
def operandOf (w : Word) : BitVec 12 := w.extractLsb' 0 12
def funcOf (w : Word) : Nat := w.toNat % 2 ^ 11
def subOf (w : Word) : Nat := w.toNat / 2 ^ 12 % 2 ^ 6
/-- Bits [12:11] of format A and bit 17 of format B are 0. -/
def gapA (w : Word) : Bool := w.toNat / 2 ^ 11 % 4 == 0
def gapB (w : Word) : Bool := !w.getLsbD 17

/-! ### Reading a word

The instruction of engine `e`; `chk` and `bus` are what only its run can show: the check bits of the data word, and the bytes that
the flash bus returns. -/

/-- Major 0x01. -/
def decAlu (e : Fin 10) (kd ka kb : BitVec 4) (f : Bool) (func : Nat) : Option Instr :=
  match func with
  | 0x000 => some (.add e kd ka kb f)
  | 0x001 => some (.adc e kd ka kb f)
  | 0x002 => some (.sub e kd ka kb f)
  | 0x003 => some (.sbc e kd ka kb f)
  | 0x004 => some (.and e kd ka kb f)
  | 0x005 => some (.or e kd ka kb f)
  | 0x006 => some (.xor e kd ka kb f)
  | 0x007 => some (.andn e kd ka kb f)
  | 0x008 => some (.shl e kd ka kb f)
  | 0x009 => some (.shr e kd ka kb f)
  | 0x00A => some (.sar e kd ka kb f)
  | 0x00B => some (.ror e kd ka kb f)
  | 0x00C => some (.mul e kd ka kb f)
  | 0x00D => some (.mulhu e kd ka kb f)
  | 0x00E => some (.minu e kd ka kb f)
  | 0x00F => some (.maxu e kd ka kb f)
  | 0x010 => keep (kd = 0) (.cmp e ka kb f)
  | 0x011 => keep (kd = 0) (.tst e ka kb f)
  | 0x012 => keep (kb = 0) (.clz e kd ka f)
  | 0x013 => keep (kb = 0) (.popc e kd ka f)
  | 0x014 => keep (kb = 0) (.bswap e kd ka f)
  | 0x020 => some (.crcw e kd ka kb f)
  | _ => none

/-- Major 0x28. -/
def decMbx (e : Fin 10) (kd ka kb : BitVec 4) (f : Bool) (func : Nat) : Option Instr :=
  match func with
  | 0x000 => keep (kd = 0 ∧ kb = 0 ∧ f = false) (.mbdb e ka)
  | 0x001 => keep (kb = 0) (.mback e kd ka f)
  | 0x002 => keep (f = false) (.mbrd e kd ka kb)
  | 0x003 => keep (f = false) (.mbwr e kd ka kb)
  | 0x004 => keep (kb = 0) (.mbsend e kd ka f)
  | 0x005 => keep (kd = 0 ∧ kb = 0 ∧ f = false) (.mbfree e ka)
  | 0x006 => keep (ka = 0 ∧ kb = 0 ∧ f = false) (.mbstat e kd)
  | _ => none

/-- Major 0x2C. -/
def decTab (e : Fin 10) (kd ka kb : BitVec 4) (f : Bool) (func : Nat) : Option Instr :=
  match func with
  | 0x000 => keep (f = false) (.tld e kd ka kb)
  | 0x001 => keep (f = false) (.twr e kd ka kb)
  | 0x002 => keep (kb = 0) (.tsync e kd ka f)
  | _ => none

/-- Major 0x2D. -/
def decTime (e : Fin 10) (kd ka kb : BitVec 4) (f : Bool) (func : Nat) : Option Instr :=
  match func with
  | 0x000 => keep (f = false) (.timel e kd ka kb)
  | 0x001 => keep (f = false) (.timeh e kd ka kb)
  | 0x002 => keep (f = false) (.clkl e kd ka kb)
  | 0x003 => keep (f = false) (.clkh e kd ka kb)
  | _ => none

/-- Major 0x2E. -/
def decMisc (e : Fin 10) (kd ka kb : BitVec 4) (f : Bool) (func : Nat) : Option Instr :=
  match func with
  | 0x000 => keep (kd = 0 ∧ ka = 0 ∧ kb = 0 ∧ f = false) (.nop e)
  | 0x001 => keep (f = false) (.fence e kd ka kb)
  | _ => none

/-- Format B. -/
def decB (e : Fin 10) (chk : MemCheck) (major : Nat) (kd ka : BitVec 4) (f : Bool) (imm : BitVec 16) : Option Instr :=
  match major with
  | 0x02 => some (.addi e kd ka f imm)
  | 0x03 => some (.andi e kd ka f imm)
  | 0x04 => some (.ori e kd ka f imm)
  | 0x05 => some (.xori e kd ka f imm)
  | 0x06 => keep (kd = 0) (.cmpi e ka f imm)
  | 0x07 => keep (imm.toNat < 32) (.shli e kd ka f (imm.setWidth 5))
  | 0x08 => keep (imm.toNat < 32) (.shri e kd ka f (imm.setWidth 5))
  | 0x09 => keep (imm.toNat < 32) (.sari e kd ka f (imm.setWidth 5))
  | 0x0A => keep (ka = 0 ∧ f = false) (.lui e kd imm)
  | 0x10 => keep (f = false) (.ldw e kd ka imm chk)
  | 0x11 => keep (f = false) (.ldh e kd ka imm chk)
  | 0x12 => keep (f = false) (.ldb e kd ka imm chk)
  | 0x13 => keep (f = false) (.stw e kd ka imm chk)
  | 0x14 => keep (f = false) (.sth e kd ka imm chk)
  | 0x15 => keep (f = false) (.stb e kd ka imm chk)
  | 0x16 => keep (f = false) (.swp e kd ka imm chk)
  | 0x22 => keep (kd = 0 ∧ f = false) (.jr e ka imm)
  | 0x23 => keep (f = false) (.jalr e kd ka imm)
  | 0x24 => some (.wait e kd ka f imm)
  | 0x25 => keep (kd = 0 ∧ ka = 0 ∧ f = false ∧ imm.toNat % 256 = 0) (.sev e (imm.extractLsb' 8 8))
  | 0x26 => keep (ka = 0 ∧ f = false) (.eclr e kd imm)
  | 0x27 => keep (ka = 0 ∧ f = false) (.eget e kd imm)
  | _ => none

/-- Major 0x30. -/
def decBus (e : Fin 10) (bus : Bytes) (kd ka : BitVec 4) (op : BitVec 12) (sub : Nat) : Option Instr :=
  match sub with
  | 0x00 => keep (kd = 0) (.cesel e ka op)
  | 0x01 => keep (kd = 0) (.cmd e ka op)
  | 0x02 => keep (kd = 0 ∧ op.toNat < 8) (.addr e ka (op.setWidth 3))
  | 0x03 => keep (kd = 0 ∧ op = 0) (.dout e ka)
  | 0x04 => keep (kd = 0) (.din e ka op)
  | 0x05 => keep (op = 0) (.bres e kd ka)
  | 0x06 => keep (kd = 0) (.doutm e ka op)
  | 0x07 => keep (kd = 0) (.dinm e ka op bus)
  | 0x08 => keep (ka = 0 ∧ op = 0) (.rdb e kd (bus.headD 0))
  | 0x09 => some (.bdly e kd ka op)
  | 0x0A => some (.wpset e kd ka op)
  | 0x0B => some (.bmode e kd ka op)
  | _ => none

/-- Major 0x31. -/
def decQueue (e : Fin 10) (kd ka : BitVec 4) (op : BitVec 12) (sub : Nat) : Option Instr :=
  match sub with
  | 0x00 => some (.opget e kd ka op)
  | 0x01 => keep (kd = 0) (.opdone e ka op)
  | _ => none

/-- Major 0x38. -/
def decKey (e : Fin 10) (kd ka : BitVec 4) (op : BitVec 12) (sub : Nat) : Option Instr :=
  match sub with
  | 0x00 => some (.halt e kd ka op)
  | 0x01 => keep (kd = 0 ∧ ka = 0 ∧ op = 0) (.wdkick e)
  | 0x02 => some (.vload e kd ka op)
  | 0x03 => some (.hload e kd ka op)
  | 0x04 => some (.imgchk e kd ka op)
  | 0x05 => some (.setstate e kd ka op)
  | _ => none

/-- Major 0x3A. -/
def decShared (e : Fin 10) (kd ka : BitVec 4) (op : BitVec 12) (sub : Nat) : Option Instr :=
  match sub with
  | 0x00 => keep (kd = 0 ∧ ka = 0) (.hend e op)
  | 0x01 => some (.cfire e kd ka op)
  | 0x02 => some (.gpout e kd ka op)
  | 0x03 => some (.gpin e kd ka op)
  | 0x04 => some (.hlog e kd ka op)
  | _ => none

/-- A format A word. -/
def readA (w : Word) (k : BitVec 4 → BitVec 4 → BitVec 4 → Bool → Nat → Option Instr) : Option Instr :=
  if gapA w then k (kdOf w) (kaOf w) (kbOf w) (w.getLsbD 13) (funcOf w) else none
/-- A format D word. -/
def readD (w : Word) (k : BitVec 4 → BitVec 4 → BitVec 12 → Nat → Option Instr) : Option Instr :=
  k (kdOf w) (kaOf w) (operandOf w) (subOf w)

/-- The instruction a word spells; none where it is illegal (R144). -/
def belDecode (e : Fin 10) (chk : MemCheck) (bus : Bytes) (w : Word) : Option Instr :=
  match majorOf w with
  | 0x01 => readA w (decAlu e)
  | 0x20 => if kdOf w = 15 then none else some (.bCond e (kdOf w) (offOf w))
  | 0x21 => if kdOf w = 15 then none else some (.callCond e (kdOf w) (offOf w))
  | 0x28 => readA w (decMbx e)
  | 0x2C => readA w (decTab e)
  | 0x2D => readA w (decTime e)
  | 0x2E => readA w (decMisc e)
  | 0x30 => readD w (decBus e bus)
  | 0x31 => readD w (decQueue e)
  | 0x38 => readD w (decKey e)
  | 0x3A => readD w (decShared e)
  | m => if gapB w then decB e chk m (kdOf w) (kaOf w) (w.getLsbD 16) (immOf w) else none

/-! ### Writing a word -/

/-- The word of a Belion instruction; none for a command that is no instruction. -/
def belEncode (i : Instr) : Option Word :=
  match i with
  | .add _ kd ka kb f => some (fmtA 0x01 0x000 kd ka kb f)
  | .adc _ kd ka kb f => some (fmtA 0x01 0x001 kd ka kb f)
  | .sub _ kd ka kb f => some (fmtA 0x01 0x002 kd ka kb f)
  | .sbc _ kd ka kb f => some (fmtA 0x01 0x003 kd ka kb f)
  | .and _ kd ka kb f => some (fmtA 0x01 0x004 kd ka kb f)
  | .or _ kd ka kb f => some (fmtA 0x01 0x005 kd ka kb f)
  | .xor _ kd ka kb f => some (fmtA 0x01 0x006 kd ka kb f)
  | .andn _ kd ka kb f => some (fmtA 0x01 0x007 kd ka kb f)
  | .shl _ kd ka kb f => some (fmtA 0x01 0x008 kd ka kb f)
  | .shr _ kd ka kb f => some (fmtA 0x01 0x009 kd ka kb f)
  | .sar _ kd ka kb f => some (fmtA 0x01 0x00A kd ka kb f)
  | .ror _ kd ka kb f => some (fmtA 0x01 0x00B kd ka kb f)
  | .mul _ kd ka kb f => some (fmtA 0x01 0x00C kd ka kb f)
  | .mulhu _ kd ka kb f => some (fmtA 0x01 0x00D kd ka kb f)
  | .minu _ kd ka kb f => some (fmtA 0x01 0x00E kd ka kb f)
  | .maxu _ kd ka kb f => some (fmtA 0x01 0x00F kd ka kb f)
  | .crcw _ kd ka kb f => some (fmtA 0x01 0x020 kd ka kb f)
  | .cmp _ ka kb f => some (fmtA 0x01 0x010 0 ka kb f)
  | .tst _ ka kb f => some (fmtA 0x01 0x011 0 ka kb f)
  | .clz _ kd ka f => some (fmtA 0x01 0x012 kd ka 0 f)
  | .popc _ kd ka f => some (fmtA 0x01 0x013 kd ka 0 f)
  | .bswap _ kd ka f => some (fmtA 0x01 0x014 kd ka 0 f)
  | .mbdb _ ka => some (fmtA 0x28 0x000 0 ka 0 false)
  | .mback _ kd ka f => some (fmtA 0x28 0x001 kd ka 0 f)
  | .mbrd _ kd ka kb => some (fmtA 0x28 0x002 kd ka kb false)
  | .mbwr _ kd ka kb => some (fmtA 0x28 0x003 kd ka kb false)
  | .mbsend _ kd ka f => some (fmtA 0x28 0x004 kd ka 0 f)
  | .mbfree _ ka => some (fmtA 0x28 0x005 0 ka 0 false)
  | .mbstat _ kd => some (fmtA 0x28 0x006 kd 0 0 false)
  | .tld _ kd ka kb => some (fmtA 0x2C 0x000 kd ka kb false)
  | .twr _ kd ka kb => some (fmtA 0x2C 0x001 kd ka kb false)
  | .tsync _ kd ka f => some (fmtA 0x2C 0x002 kd ka 0 f)
  | .timel _ kd ka kb => some (fmtA 0x2D 0x000 kd ka kb false)
  | .timeh _ kd ka kb => some (fmtA 0x2D 0x001 kd ka kb false)
  | .clkl _ kd ka kb => some (fmtA 0x2D 0x002 kd ka kb false)
  | .clkh _ kd ka kb => some (fmtA 0x2D 0x003 kd ka kb false)
  | .nop _ => some (fmtA 0x2E 0x000 0 0 0 false)
  | .fence _ kd ka kb => some (fmtA 0x2E 0x001 kd ka kb false)
  | .addi _ kd ka f imm => some (fmtB 0x02 kd ka f imm)
  | .andi _ kd ka f imm => some (fmtB 0x03 kd ka f imm)
  | .ori _ kd ka f imm => some (fmtB 0x04 kd ka f imm)
  | .xori _ kd ka f imm => some (fmtB 0x05 kd ka f imm)
  | .cmpi _ ka f imm => some (fmtB 0x06 0 ka f imm)
  | .shli _ kd ka f n => some (fmtB 0x07 kd ka f (n.setWidth 16))
  | .shri _ kd ka f n => some (fmtB 0x08 kd ka f (n.setWidth 16))
  | .sari _ kd ka f n => some (fmtB 0x09 kd ka f (n.setWidth 16))
  | .lui _ kd imm => some (fmtB 0x0A kd 0 false imm)
  | .ldw _ kd ka imm _ => some (fmtB 0x10 kd ka false imm)
  | .ldh _ kd ka imm _ => some (fmtB 0x11 kd ka false imm)
  | .ldb _ kd ka imm _ => some (fmtB 0x12 kd ka false imm)
  | .stw _ kd ka imm _ => some (fmtB 0x13 kd ka false imm)
  | .sth _ kd ka imm _ => some (fmtB 0x14 kd ka false imm)
  | .stb _ kd ka imm _ => some (fmtB 0x15 kd ka false imm)
  | .swp _ kd ka imm _ => some (fmtB 0x16 kd ka false imm)
  | .jr _ ka imm => some (fmtB 0x22 0 ka false imm)
  | .jalr _ kd ka imm => some (fmtB 0x23 kd ka false imm)
  | .wait _ kd ka f mask => some (fmtB 0x24 kd ka f mask)
  | .sev _ hi => some (fmtB 0x25 0 0 false (hi ++ 0#8))
  | .eclr _ kd imm => some (fmtB 0x26 kd 0 false imm)
  | .eget _ kd imm => some (fmtB 0x27 kd 0 false imm)
  | .bCond _ cond off => some (fmtC 0x20 cond off)
  | .callCond _ cond off => some (fmtC 0x21 cond off)
  | .cesel _ ka op => some (fmtD 0x30 0x00 0 ka op)
  | .cmd _ ka op => some (fmtD 0x30 0x01 0 ka op)
  | .addr _ ka n => some (fmtD 0x30 0x02 0 ka (n.setWidth 12))
  | .dout _ ka => some (fmtD 0x30 0x03 0 ka 0)
  | .din _ ka op => some (fmtD 0x30 0x04 0 ka op)
  | .bres _ kd ka => some (fmtD 0x30 0x05 kd ka 0)
  | .doutm _ ka op => some (fmtD 0x30 0x06 0 ka op)
  | .dinm _ ka op _ => some (fmtD 0x30 0x07 0 ka op)
  | .rdb _ kd _ => some (fmtD 0x30 0x08 kd 0 0)
  | .bdly _ kd ka op => some (fmtD 0x30 0x09 kd ka op)
  | .wpset _ kd ka op => some (fmtD 0x30 0x0A kd ka op)
  | .bmode _ kd ka op => some (fmtD 0x30 0x0B kd ka op)
  | .opget _ kd ka op => some (fmtD 0x31 0x00 kd ka op)
  | .opdone _ ka op => some (fmtD 0x31 0x01 0 ka op)
  | .halt _ kd ka op => some (fmtD 0x38 0x00 kd ka op)
  | .wdkick _ => some (fmtD 0x38 0x01 0 0 0)
  | .vload _ kd ka op => some (fmtD 0x38 0x02 kd ka op)
  | .hload _ kd ka op => some (fmtD 0x38 0x03 kd ka op)
  | .imgchk _ kd ka op => some (fmtD 0x38 0x04 kd ka op)
  | .setstate _ kd ka op => some (fmtD 0x38 0x05 kd ka op)
  | .hend _ op => some (fmtD 0x3A 0x00 0 0 op)
  | .cfire _ kd ka op => some (fmtD 0x3A 0x01 kd ka op)
  | .gpout _ kd ka op => some (fmtD 0x3A 0x02 kd ka op)
  | .gpin _ kd ka op => some (fmtD 0x3A 0x03 kd ka op)
  | .hlog _ kd ka op => some (fmtD 0x3A 0x04 kd ka op)
  | _ => none

end Machine

end Sys2Proof
end

