-- ==== Sys2Proof/Machine/Debug.lean ====
section
/-! DEFINITION. REGISTER_WRITE (R12) and the debug window's step (08_belion_engines_and_flash_bus.md, R176, R177). -/

namespace Sys2Proof.Machine

/-! ### One instruction of a stopped engine -/

/-- The meaning of a Belion instruction; another command is none. -/
def runBelion (i : Instr) (s : State) : Result :=
  match i with
  | .add e kd ka kb f => execAdd e kd ka kb f s
  | .adc e kd ka kb f => execAdc e kd ka kb f s
  | .sub e kd ka kb f => execSub e kd ka kb f s
  | .sbc e kd ka kb f => execSbc e kd ka kb f s
  | .and e kd ka kb f => execAnd e kd ka kb f s
  | .or e kd ka kb f => execOr e kd ka kb f s
  | .xor e kd ka kb f => execXor e kd ka kb f s
  | .andn e kd ka kb f => execAndn e kd ka kb f s
  | .shl e kd ka kb f => execShl e kd ka kb f s
  | .shr e kd ka kb f => execShr e kd ka kb f s
  | .sar e kd ka kb f => execSar e kd ka kb f s
  | .ror e kd ka kb f => execRor e kd ka kb f s
  | .mul e kd ka kb f => execMul e kd ka kb f s
  | .mulhu e kd ka kb f => execMulhu e kd ka kb f s
  | .minu e kd ka kb f => execMinu e kd ka kb f s
  | .maxu e kd ka kb f => execMaxu e kd ka kb f s
  | .crcw e kd ka kb f => execCrcw e kd ka kb f s
  | .cmp e ka kb f => execCmp e ka kb f s
  | .tst e ka kb f => execTst e ka kb f s
  | .clz e kd ka f => execClz e kd ka f s
  | .popc e kd ka f => execPopc e kd ka f s
  | .bswap e kd ka f => execBswap e kd ka f s
  | .mbdb e ka => execMbdb e ka s
  | .mback e kd ka f => execMback e kd ka f s
  | .mbrd e kd ka kb => execMbrd e kd ka kb s
  | .mbwr e kd ka kb => execMbwr e kd ka kb s
  | .mbsend e kd ka f => execMbsend e kd ka f s
  | .mbfree e ka => execMbfree e ka s
  | .mbstat e kd => execMbstat e kd s
  | .tld e kd ka kb => execTld e kd ka kb s
  | .twr e kd ka kb => execTwr e kd ka kb s
  | .tsync e kd ka f => execTsync e kd ka f s
  | .timel e kd ka kb => execTimel e kd ka kb s
  | .timeh e kd ka kb => execTimeh e kd ka kb s
  | .clkl e kd ka kb => execClkl e kd ka kb s
  | .clkh e kd ka kb => execClkh e kd ka kb s
  | .nop e => execNop e s
  | .fence e kd ka kb => execFence e kd ka kb s
  | .addi e kd ka f imm => execAddi e kd ka f imm s
  | .andi e kd ka f imm => execAndi e kd ka f imm s
  | .ori e kd ka f imm => execOri e kd ka f imm s
  | .xori e kd ka f imm => execXori e kd ka f imm s
  | .cmpi e ka f imm => execCmpi e ka f imm s
  | .shli e kd ka f n => execShli e kd ka f n s
  | .shri e kd ka f n => execShri e kd ka f n s
  | .sari e kd ka f n => execSari e kd ka f n s
  | .lui e kd imm => execLui e kd imm s
  | .ldw e kd ka imm chk => execLdw e kd ka imm chk s
  | .ldh e kd ka imm chk => execLdh e kd ka imm chk s
  | .ldb e kd ka imm chk => execLdb e kd ka imm chk s
  | .stw e kd ka imm chk => execStw e kd ka imm chk s
  | .sth e kd ka imm chk => execSth e kd ka imm chk s
  | .stb e kd ka imm chk => execStb e kd ka imm chk s
  | .swp e kd ka imm chk => execSwp e kd ka imm chk s
  | .jr e ka imm => execJr e ka imm s
  | .jalr e kd ka imm => execJalr e kd ka imm s
  | .wait e kd ka f mask => execWait e kd ka f mask s
  | .sev e hi => execSev e hi s
  | .eclr e kd imm => execEclr e kd imm s
  | .eget e kd imm => execEget e kd imm s
  | .bCond e cond off => execBCond e cond off s
  | .callCond e cond off => execCallCond e cond off s
  | .cesel e ka operand => execCesel e ka operand s
  | .cmd e ka operand => execCmd e ka operand s
  | .addr e ka n => execAddr e ka n s
  | .dout e ka => execDout e ka s
  | .din e ka operand => execDin e ka operand s
  | .bres e kd ka => execBres e kd ka s
  | .doutm e ka operand => execDoutm e ka operand s
  | .dinm e ka operand data => execDinm e ka operand data s
  | .rdb e kd byte => execRdb e kd byte s
  | .bdly e kd ka operand => execBdly e kd ka operand s
  | .wpset e kd ka operand => execWpset e kd ka operand s
  | .bmode e kd ka operand => execBmode e kd ka operand s
  | .opget e kd ka operand => execOpget e kd ka operand s
  | .opdone e ka operand => execOpdone e ka operand s
  | .halt e kd ka operand => execHalt e kd ka operand s
  | .wdkick e => execWdkick e s
  | .vload e kd ka operand => execVload e kd ka operand s
  | .hload e kd ka operand => execHload e kd ka operand s
  | .imgchk e kd ka operand => execImgchk e kd ka operand s
  | .setstate e kd ka operand => execSetstate e kd ka operand s
  | .hend e operand => execHend e operand s
  | .cfire e kd ka operand => execCfire e kd ka operand s
  | .gpout e kd ka operand => execGpout e kd ka operand s
  | .gpin e kd ka operand => execGpin e kd ka operand s
  | .hlog e kd ka operand => execHlog e kd ka operand s
  | _ => ok s

/-- The word of program memory at the PC. -/
def Engine.wordAtPc (x : Engine) : Word := BitVec.ofNat 32 (leNat (x.prog.bytes x.pc 4))

/-- The WAIT of a stepped engine ends on a masked flag, or when its limit has passed (R150). -/
def State.stepWait (s : State) (e : Nat) (w : Wait) : State :=
  let x := s.engine e
  let out (expired : Bool) := (s.setEngine e (x.endWait w.kd w.mask expired)).setPc e (x.pc + 4)
  if x.ev &&& w.mask ≠ 0 then out false
  else if w.limit ≠ 0 ∧ w.start + w.limit ≤ s.time.uptime then out true
  else s

/-- STEP 1: one instruction of an engine that was stopped through the window. A sandbox with no hook under way has none to execute
(DEDUCED). `chk` is what the memory's check bits show, and `bus` what the flash bus returns. -/
def State.stepEngine (s : State) (e : Fin 10) (chk : MemCheck) (bus : Bytes) : Result :=
  let x := s.engine e.val
  if ¬ x.dbg ∨ x.fault ∨ (e.val = 1 ∧ ¬ s.hooks.busy) then ok s
  else match x.waiting with
    | some w => ok (s.stepWait e.val w)
    | none =>
      if chk = .bad then ok (s.engineFault e.val 6 x.pc x.wordAtPc)
      else match belDecode e chk bus x.wordAtPc with
        | none => ok (s.engineFault e.val 1 x.pc x.wordAtPc)
        | some i =>
          match runBelion i (s.setEngine e.val { x with stepping := true }) with
          | .next t => ok (t.setEngine e.val { t.engine e.val with stepping := false })
          | o => o

/-- A write of `BEL_DBG_CTRL`: STOP acts before STEP (DESIGN CHOICE). Engine numbers 10 to 15 name none. -/
def State.writeDebug (s : State) (eng : Nat) (stop step : Bool) (chk : MemCheck) (bus : Bytes) : Result :=
  let s1 := s.writeDbgCtrl eng stop
  if h : eng < 10 then (if step then s1.stepEngine ⟨eng, h⟩ chk bus else ok s1) else ok s1

/-- DEBUG_STEP (R176): a write of `BEL_DBG_CTRL` with STEP 1. -/
def execDebugStep (p : Path) (eng : BitVec 4) (stop : Bool) (chk : MemCheck) (bus : Bytes) (s : State) : Result :=
  if ¬ s.reaches p then ok s
  else if s.dev ≠ .recovery ∧ s.debugOpen p then s.writeDebug eng.toNat stop true chk bus
  else ok s.refuseDebug.ignoredWrite

/-- REGISTER_WRITE (R7, R8, R9, R12): a write on a path, by the rules of the register at the offset. In the debug window the
control register and the memory address are writable, with whole-word writes. -/
def execRegisterWrite (p : Path) (offset : BitVec 20) (value : Word) (size : Size) (s : State) : Result :=
  let off := offset.toNat
  let v := value.toNat
  if ¬ s.reaches p then ok s
  else if s.dev = .recovery ∨ ¬ inDebug off ∨ ¬ s.debugOpen p then ok (s.busWrite p off (sizeBytes size) v)
  else if size ≠ .b4 then ok s.ignoredWrite
  else if off = 0xD800 then s.writeDebug (bits v 3 0) (bit v 4) (bit v 5) .clean []
  else if off = 0xD880 then ok { s with hooks.dbgAddr := v }
  else ok s.ignoredWrite

end Sys2Proof.Machine
end

