-- ==== Sys2Proof/Machine/SelfTest.lean ====
section
/-! DEFINITION. Self-tests (12_admin_commands_and_status.md, R282 to R287; R581). A piece is over when its command says so; the
units and transit memory a piece holds for its 50 µs are not counted as used (DESIGN CHOICE). -/

namespace Sys2Proof.Machine

/-! ### Bounds (R283 to R286) -/

/-- Healthy channels that a present LUN lies on. -/
def State.healthyChannels (s : State) : List Nat := (s.healthyLuns.map lunChannel).eraseDups

/-- Mapped pages: the 4 KiB blocks and records that lie in flash, by the codewords a page holds (DEDUCED). -/
def State.mappedPages (s : State) : Nat :=
  let n := (s.nv.vols.map fun v =>
    (v.2.map.filter fun m => m.2.loc ≠ 0).length +
    ((v.2.recs.filter fun r => r.loc ≠ 0).map fun r => ceilDiv (extent r.payload.length) 4096).sum).sum
  ceilDiv n (max 1 ((s.healthyLuns.map fun l => lunCodewords (s.lunEntry l)).foldl max 0))

/-- Largest t_read of the healthy LUNs in µs, and largest page transfer time in ns (R355). -/
def State.readUs (s : State) : Nat := (s.healthyLuns.map fun l => leAt (s.lunEntry l) 20 2).foldl max 0
def State.xferNs (s : State) : Nat :=
  (s.healthyLuns.map fun l => ceilDiv (1000 * (lunMain (s.lunEntry l) + lunSpare (s.lunEntry l))) (max 1 (lunRate (s.lunEntry l)))).foldl max 0

/-- Bound of a step in µs: R284 for steps 1 to 9, R285 for steps 10 to 12. -/
def State.stepUs (s : State) (step : Nat) : Nat :=
  match step with
  | 1 => 180000 | 2 => 150000 | 3 => 30000 | 4 => 6000 | 5 => 60000 | 6 => 60000 | 7 => 20000 | 8 => 11000 | 9 => 2000
  | 10 => ceilDiv (2500000 * 4096 * (s.transitUnits - s.transitUsed)) (2 ^ 30)
  | 11 =>
    let p := s.mappedPages
    let luns := max 1 s.healthyLuns.length
    let chans := max 1 s.healthyChannels.length
    ceilDiv (11 * max (1000 * (ceilDiv p luns * s.readUs)) (ceilDiv p chans * s.xferNs)) 10000
  | 12 => if s.parityOn then 1000000 else 0
  | _ => 0

/-- Steps of a kind of test. -/
def lastStep (kind : Nat) : Nat := if kind = 2 then 12 else 9

/-- The hint of R283: the bounds of the unfinished steps, the one in progress in full. -/
def State.testHint (s : State) (t : SelfTest) : Nat :=
  ((List.range 13).map fun k => if t.step ≤ k ∧ k ≤ lastStep t.kind then s.stepUs k else 0).sum

/-! ### The end of a test (R286, R287) -/

/-- A SELF_TEST command completes with bytes 8 to 19 of the record (R267). -/
def State.endTestCmd (s : State) (n tag : Nat) (rec_ : Bytes) : State :=
  match s.cmd? n tag with
  | some c => if c.opcode = 0x48 ∧ c.stage = .running then s.complete c 0 (natLe 4 0 ++ slice rec_ 8 12) else s
  | none => s

/-- The event of a result: passed, failed, or stopped and interrupted; a starved test has none (R287). -/
def State.noteTest (s : State) (t : SelfTest) (result step detail : Nat) : State :=
  match result with
  | 0 => s.record 0x9002 Src.selfTest t.kind
  | 1 => s.record 0x9003 Src.selfTest t.kind step detail
  | 2 => s.record 0x9004 Src.selfTest t.kind
  | _ => s

/-- A test ends: its record, its event, its command, and the stop request that ended it. -/
def State.endTest (s : State) (t : SelfTest) (result step detail : Nat) : State :=
  let rec_ := s.selfRecord t result step detail
  let s1 := ((s.endSelfRecord t result step detail).noteTest t result step detail).endTestCmd t.ring t.tag rec_
  match t.stop with
  | some (n, tag) => s1.endTestCmd n tag rec_
  | none => s1

/-! ### A unit found faulty (R581) -/

/-- Consumers of random numbers meet the outcomes of a latched failure until the next start (R581, steps 6 and 7). -/
def State.latchFlint (s : State) : State :=
  { (s.setFlint { s.roles.flint with drbg := false, passed := 0, halted := true, stat := 3 }).failEntropy with flintLatched := true }

/-- What the device does with the unit that a step found faulty. -/
def State.faultyUnit (s : State) (step unit : Nat) : State :=
  match step with
  | 1 => { s with alloc.withdrawn := s.alloc.withdrawn + 1 }
  | 2 => { s with alloc.transitLost := s.alloc.transitLost + 256 }
  | 3 => s.engineFault (unit % 10) 6 (s.engine (unit % 10)).pc 0
  | 4 => s.failChannel (unit % 8)
  | 5 => s.failLun (unit % 128) 2
  | 6 => s.latchFlint
  | 7 => s.latchFlint
  | 8 => if s.time.ringOsc then s else s.crystalLost
  | 9 => s.askMeasure
  | _ => s

/-- A step found a unit faulty: the test fails, and ends with it (DEDUCED: the record holds one failing step). -/
def State.failTest (s : State) (t : SelfTest) (unit : Nat) : State := (s.endTest t 1 t.step unit).faultyUnit t.step unit

/-! ### The pieces (R282, R284, R285) -/

/-- Step 9: a measurement completed within the last 61 minutes. -/
def State.measuredLately (s : State) : Bool := s.led.valid && decide (s.time.uptime ≤ s.led.doneAt + msTicks 3660000)

/-- The step after the present one: the next, but for step 12 without parity, or the end of the test. -/
def State.nextStep (s : State) (t : SelfTest) : State :=
  let k := t.step + 1
  if lastStep t.kind < k ∨ (k = 12 ∧ ¬ s.parityOn) then s.endTest t 0 0 0
  else { s with selfTest := some { t with step := k } }

/-- The last piece of a step ends. -/
def State.stepDone (s : State) (t : SelfTest) : State :=
  if t.step = 9 ∧ ¬ s.measuredLately then s.failTest t 0 else s.nextStep t

/-- What a piece found. Step 9 looks at the last measurement only. -/
def State.pieceEnds (s : State) (t : SelfTest) (p : Piece) : State :=
  match p with
  | .goes => s
  | .page lun block soft =>
    let loc := locOf lun.val block.toNat
    if t.step ≠ 11 then s else if soft then (s.countRead loc).noteMedia loc .soft else s.countRead loc
  | .last => s.stepDone t
  | .faulty unit => if t.step = 9 then s.stepDone t else s.failTest t unit.toNat

/-- SELF_TEST_PIECE_DONE: the running test is not paused (R283). A stop request takes effect once the piece is over (R286). -/
def execSelfTestPieceDone (p : Piece) (s : State) : Result :=
  match s.selfTest with
  | none => ok s
  | some t =>
    if ¬ s.dieUp ∨ ¬ s.dev.inService ∨ s.bas.freeze then ok s
    else
      let s1 := s.pieceEnds t p
      match s1.selfTest with
      | some u => if u.stopping then ok (s1.endTest u 2 0 0) else ok s1
      | none => ok s1

/-- SELF_TEST_STARVED (R286). -/
def execSelfTestStarved (s : State) : Result :=
  match s.selfTest with
  | some t => if s.dieUp ∧ s.dev.serves ∧ ¬ s.bas.freeze then ok (s.endTest t 4 0 0) else ok s
  | none => ok s

/-! ### The commands (R264, R283) -/

/-- SELF_TEST's rule; W to start a test (R263). -/
def State.testRule (_ : State) (c : Cmd) : AdmRule :=
  { bedrock := false, fields := c.volume = 0 && 1 ≤ c.opflags && c.opflags ≤ 3 && c.start = 0 && c.noOps && c.noData, right := true, range := true, w := c.opflags ≠ 3 }

/-- Start a test of a kind, unless one runs. -/
def State.startTest (s : State) (c : Cmd) (kind : Nat) : State :=
  match s.selfTest with
  | some t => s.defer c (s.testHint t)
  | none =>
    ({ s.setCmd { c with stage := .running } with
      selfTest := some { kind := kind, step := 1, ring := c.ring, tag := c.tag, began := s.time.uptime } }).record 0x9001 Src.selfTest kind

/-- SELF_TEST_SHORT. A form that is no test and no stop is checked (and refused) here. -/
def execSelfTestShort (n : Fin 8) (tag : BitVec 5) (s : State) : Result :=
  s.startAdm n.val tag.toNat 0x48 (fun c => c.opflags ≠ 2 && c.opflags ≠ 3) State.testRule fun s c => s.startTest c 1

/-- SELF_TEST_EXTENDED. -/
def execSelfTestExtended (n : Fin 8) (tag : BitVec 5) (s : State) : Result :=
  s.startAdm n.val tag.toNat 0x48 (fun c => c.opflags = 2) State.testRule fun s c => s.startTest c 2

/-- A stop: it completes when the test has ended; with no test running, at once (DEDUCED). A paused test stands at a piece
boundary, and ends at once (R283). -/
def State.stopTest (s : State) (c : Cmd) : State :=
  match s.selfTest with
  | none => s.complete c 0 []
  | some t =>
    match t.stop with
    | some _ => s.complete c 0 []
    | none =>
      let u := { t with stopping := true, stop := some (c.ring, c.tag) }
      let s1 := { s.setCmd { c with stage := .running } with selfTest := some u }
      if s.dev = .preFreeze then s1.endTest u 2 0 0 else s1

def execSelfTestStop (n : Fin 8) (tag : BitVec 5) (s : State) : Result :=
  s.startAdm n.val tag.toNat 0x48 (fun c => c.opflags = 3) State.testRule State.stopTest

end Sys2Proof.Machine
end

