-- ==== Sys2Proof/Machine/Keys.lean ====
section
/-! DEFINITION. The administrative commands of the security unit: roles, KEY_MANAGE and ENTROPY_GET
(22_roles_keys_and_flint.md, R523 to R542). -/

namespace Sys2Proof.Machine

/-! ### Roles over ring 0 (R519, R524 to R529) -/

/-- ROLE_CHALLENGE: DEFERRED while a hold runs. -/
def execRoleChallenge (n : Fin 8) (tag : BitVec 5) (x : AdmXfer) (s : State) : Result :=
  s.startAdm n.val tag.toNat 0x49 (fun _ => true)
    (fun s c => s.admRule c false ((c.volume = 1 || c.volume = 2) && c.opflags = 0 && c.start = 0 && c.noOps && c.length = 64 && c.data) true)
    fun s c => match s.holdLeft 0 with
      | some us => s.defer c us
      | none => s.admOut c x fun t =>
        let r := t.issueChal 0 c.volume
        (r.1, r.2, [])

/-- ROLE_RESPONSE: the role is granted, or the response is rejected. -/
def execRoleResponse (n : Fin 8) (tag : BitVec 5) (x : AdmXfer) (s : State) : Result :=
  s.startAdm n.val tag.toNat 0x4A (fun _ => true)
    (fun s c => s.admRule c false ((c.volume = 1 || c.volume = 2) && c.opflags = 0 && c.start = 0 && c.noOps && c.length = 48 && c.data) true)
    fun s c => s.admIn c x fun t b =>
      let r := t.respond 0 b
      r.1.complete c (if r.2 then 0 else 0x0400) []

/-- ROLE_DROP. -/
def execRoleDrop (n : Fin 8) (tag : BitVec 5) (s : State) : Result :=
  s.startAdm n.val tag.toNat 0x4B (fun _ => true) (fun s c => s.admRule c false (c.plain && c.noOps && c.noData) true)
    fun s c => (s.setRole 0 0).complete c 0 []

/-! ### KEY_MANAGE (R534, R535) -/

/-- The action; one that R534 does not list is checked (and refused) as STATUS. -/
def Cmd.action (c : Cmd) : Nat :=
  let a := c.opflags
  if 1 ≤ a ∧ a ≤ 6 then a else 8

/-- Fields of an action: LENGTH `len`, and for a slot or none the TARGET. -/
def Cmd.keyFields (c : Cmd) (target : Bool) (len : Nat) : Bool :=
  target && c.opflags = c.action && c.start = 0 && c.noOps && c.length = len && (if len = 0 then c.noData else c.data)

/-- Start an action: `own` when it needs the installer role. -/
def State.keyManage (s : State) (n tag action len : Nat) (own : Bool) (target : Cmd → Bool) (range : State → Cmd → Bool) (f : State → Cmd → State) :
    Result :=
  s.startAdm n tag 0x4C (fun c => c.action = action)
    (fun s c => s.admRule c own (c.keyFields (target c) len) (range s c)) f

/-- The key of an encrypted volume. -/
def State.volKey (s : State) (v : Nat) : Option VKey := if (s.vol v).encrypt then s.nv.keys.vol.get? v else none
/-- A volume with HOST protection. -/
def State.hostKey (s : State) (v : Nat) : Bool := (s.volKey v).any fun k => k.secret.isSome
/-- The secret that zeros stand for is none: DEVICE protection. -/
def secretOf (b : Bytes) : Option Bytes := if b.all fun x => x = 0 then none else some b

/-- An old secret or key that does not unwrap: ACCESS_DENIED, counted as a rejected response (R535). -/
def State.badSecret (s : State) (c : Cmd) : State := ((s.voidChal 0).reject 0 (s.roleOf 0)).complete c 0x0400 []

/-- PROTECT: the key is wrapped anew (R532, R534); whether it is loaded does not change (DEDUCED). -/
def State.protect (s : State) (c : Cmd) (b : Bytes) : State :=
  match s.volKey c.volume with
  | none => s.complete c 0x0201 []
  | some k =>
    if k.secret ≠ secretOf (slice b 0 32) then s.badSecret c
    else (({ s.commit with
        nv.keys.vol := s.nv.keys.vol.put c.volume { k with secret := secretOf (slice b 32 32) } }).record 0x6040 Src.sec c.volume 1).complete c 0 []

def execProtect (n : Fin 8) (tag : BitVec 5) (x : AdmXfer) (s : State) : Result :=
  s.keyManage n.val tag.toNat 1 64 true (fun c => c.volume ≤ 31) (fun s c => (s.volKey c.volume).isSome)
    fun s c => s.admIn c x fun t b => t.protect c b

/-- LOAD: unlocks until the next start. -/
def State.loadKey (s : State) (c : Cmd) (b : Bytes) : State :=
  match s.volKey c.volume with
  | none => s.complete c 0x0201 []
  | some k =>
    if k.secret ≠ some (slice b 0 32) then s.badSecret c
    else (({ s with roles.keys := withBit s.roles.keys c.volume true }).record 0x6041 Src.sec c.volume 2).complete c 0 []

def execLoad (n : Fin 8) (tag : BitVec 5) (x : AdmXfer) (s : State) : Result :=
  s.keyManage n.val tag.toNat 2 32 false (fun c => c.volume ≤ 31) (fun s c => s.hostKey c.volume)
    fun s c => s.admIn c x fun t b => t.loadKey c b

/-- UNLOAD: locks at once; commands admitted before run to their end (R536). -/
def execUnload (n : Fin 8) (tag : BitVec 5) (s : State) : Result :=
  s.keyManage n.val tag.toNat 3 0 false (fun c => c.volume ≤ 31) (fun s c => s.hostKey c.volume)
    fun s c => ({ s with roles.keys := withBit s.roles.keys c.volume false }).complete c 0 []

/-- SET_CONN_KEY. -/
def execSetConnKey (n : Fin 8) (tag : BitVec 5) (x : AdmXfer) (s : State) : Result :=
  s.keyManage n.val tag.toNat 4 32 true (fun c => c.volume ≤ 31) (fun _ _ => true)
    fun s c => s.admIn c x fun t b => ({ t.commit with nv.keys.conn := t.nv.keys.conn.put c.volume b }).complete c 0 []

/-- CLEAR_CONN_KEY: a VALID sealed connection that uses the slot goes DOWN at once (R535). -/
def State.clearConnKey (s : State) (slot : Nat) : State :=
  let s1 := ({ s.commit with nv.keys.conn := s.nv.keys.conn.erase slot }).record 0x6042 Src.sec (0x100 + slot) 5
  ((s1.tab.conn.filter fun x => connValid x.2 && connSealed x.2 && connKeySlot x.2 == slot).map fun x => x.1).foldl State.connDown s1

def execClearConnKey (n : Fin 8) (tag : BitVec 5) (s : State) : Result :=
  s.keyManage n.val tag.toNat 5 0 true (fun c => c.volume ≤ 31) (fun _ _ => true)
    fun s c => (s.clearConnKey c.volume).complete c 0 []

/-- SET_INSTALLER: the maker role, and a part with no installer key, need no old key (R535). -/
def State.setInstaller (s : State) (c : Cmd) (b : Bytes) : State :=
  if s.roles.pcie = 2 ∨ s.installerKey.isNone ∨ s.installerKey = some (slice b 0 32) then
    ({ s.commit with nv.keys.installer := some (slice b 32 32) }).complete c 0 []
  else s.badSecret c

def execSetInstaller (n : Fin 8) (tag : BitVec 5) (x : AdmXfer) (s : State) : Result :=
  s.keyManage n.val tag.toNat 6 64 true (fun c => c.volume = 0) (fun _ _ => true)
    fun s c => s.admIn c x fun t b => t.setInstaller c b

/-- The 64 bytes of STATUS. -/
def State.keyStatus (s : State) : Bytes :=
  let set (n : Nat) (p : Nat → Bool) := natLe 4 ((List.range n).foldl (fun m i => withBit m i (p i)) 0)
  padTo 64 (set 32 (fun v => (s.vol v).kind ≠ 255 && (s.vol v).encrypt) ++ set 32 (fun v => (s.vol v).kind ≠ 255 && s.volLocked v) ++
    set 32 (fun k => (s.nv.keys.conn.get? k).isSome) ++ natLe 1 (b2n s.installerKey.isSome))

def execStatus (n : Fin 8) (tag : BitVec 5) (x : AdmXfer) (s : State) : Result :=
  s.keyManage n.val tag.toNat 8 64 false (fun c => c.volume = 0) (fun _ _ => true)
    fun s c => s.admOut c x fun t => (t, t.keyStatus, [])

/-! ### ENTROPY_GET (R540 to R542) -/

/-- Time in µs to the end of the next rerun of the start-up test: 1 s after the failure and four windows of 1024 µs; or the
windows left of the one that runs. -/
def State.rerunHint (s : State) : Nat :=
  let f := s.roles.flint
  if f.halted then ceilDiv (f.failAt + msTicks 1000 - s.time.uptime) 25 + 4096 else 1024 * (4 - f.passed)

/-- ENTROPY_GET: it waits while Flint starts. -/
def execEntropyGet (n : Fin 8) (tag : BitVec 5) (x : AdmXfer) (s : State) : Result :=
  s.startAdm n.val tag.toNat 0x4D (fun _ => true)
    (fun s c => s.admRule c false (c.plain && c.noOps && 4 ≤ c.length && c.length ≤ 4096 && c.length % 4 = 0 && c.data) true)
    fun s c =>
      if s.flintLatched ∨ s.roles.flint.stat = 3 then s.complete c 0x0500 []
      else if s.roles.flint.stat = 2 then s.defer c s.rerunHint
      else if ¬ s.roles.flint.drbg ∨ s.roles.flint.reseed then s.setCmd { c with stage := .held }
      else s.admOut c x fun t =>
        let r := t.draw c.length
        (r.1, r.2, natLe 4 c.length)

end Sys2Proof.Machine
end

