-- ==== Sys2Proof/Machine/Usb.lean ====
section
/-! DEFINITION. The USB service port (23_images_updates_and_service_port.md, R561 to R570). A vendor request is a command once its
status stage has completed (IMAGE_CHUNK: its data stage, R566). EP2 delivers its data at once (DESIGN CHOICE). -/

namespace Sys2Proof.Machine

/-! ### The port (R562, R569, R570) -/

/-- States that the port serves. -/
def Dev.usbServes (d : Dev) : Bool := d.inService || d = .bedrock || d = .recovery

/-- USB_ATTACH: USB_VBUS has been valid for 10 ms; the port attaches where the state allows it. -/
def execUsbAttach (s : State) : Result :=
  if ¬ s.dieUp then ok s
  else if s.usb.attached ∨ ¬ s.dev.usbServes ∨ s.bas.freeze then ok { s with usb := { s.usb with vbus := true } }
  else ok { s with usb := { vbus := true, attached := true } }

/-- USB_DISCONNECT (R570): the role and the challenge of the path end; the download session survives. -/
def execUsbDisconnect (s : State) : Result :=
  if s.dieUp then ok ({ s with usb := {} }.endPath 1) else ok { s with usb := {} }

/-- USB_BUS_RESET (R569): with a control transfer under way, and at the speed the reset settles. -/
def execUsbBusReset (underWay high : Bool) (s : State) : Result :=
  if ¬ s.dieUp ∨ ¬ s.usb.attached then ok s
  else
    let s1 := { s with usb := { vbus := s.usb.vbus, attached := true, high := high } }
    if underWay then ok ((s1.record 0x7042 Src.usb).bump 0x49) else ok s1

/-! ### Standard requests (R563) -/

/-- Two bytes of a maximum packet size. -/
def bulkSize (high : Bool) : Bytes := natLe 2 (if high then 512 else 64)

/-- The configuration descriptor of a speed with its interface and endpoints (descriptor type 2, or 7 for the other speed). The
configuration value 1, the interval 0 and no interface string are the family's (PRESUMED). -/
def configDescriptor (type : Nat) (high : Bool) : Bytes :=
  natLe 1 9 ++ natLe 1 type ++ natLe 2 32 ++ [1, 1, 0, 0xC0, 0] ++ [9, 4, 0, 0, 2, 0xFF, 0x51, 0x01, 0] ++
  [7, 5, 0x01, 2] ++ bulkSize high ++ [0] ++ [7, 5, 0x82, 2] ++ bulkSize high ++ [0]

/-- The serial number as a string descriptor. -/
def serialString : Bytes := [50, 3] ++ (calBytes 8 24).flatMap fun x => [x, 0]

/-- A descriptor by type and index; none: the request is STALLed. -/
def State.descriptor (s : State) (type index : Nat) : Option Bytes :=
  match type with
  | 1 => some ([18, 1, 0, 2, 0, 0, 0, 64] ++ ((List.range 6).map Config.usbIds) ++ [1, 2, 3, 1])
  | 2 => if index = 0 then some (configDescriptor 2 s.usb.high) else none
  | 3 => match index with
    | 0 => some [4, 3, 0x09, 0x04]
    | 1 => some (Config.usbString 1)
    | 2 => some (Config.usbString 2)
    | 3 => some serialString
    | _ => none
  | 6 => some [10, 6, 0, 2, 0, 0, 0, 64, 1, 0]
  | 7 => if index = 0 then some (configDescriptor 7 (!s.usb.high)) else none
  | _ => none

/-- STALL a request. -/
def State.stall (s : State) : State := s.emit .usbStall
/-- Answer an IN request with at most `len` bytes. -/
def State.answer (s : State) (b : Bytes) (len : Nat) : State := s.emit (.usb (b.take len))

/-- Halt feature of an endpoint address. -/
def State.setHalt (s : State) (ep : Nat) (on : Bool) : State :=
  if ep = 0x01 then { s with usb := { s.usb with halt1 := on } }
  else if ep = 0x82 then { s with usb := { s.usb with halt2 := on } }
  else s.stall

/-- GET_STATUS: of the device (self-powered), the interface, or an endpoint. -/
def State.usbStatus (s : State) (type index len : Nat) : State :=
  if type = 0x80 then s.answer [1, 0] len
  else if type = 0x81 ∧ index = 0 then s.answer [0, 0] len
  else if type = 0x82 ∧ index = 0x01 then s.answer [BitVec.ofNat 8 (b2n s.usb.halt1), 0] len
  else if type = 0x82 ∧ index = 0x82 then s.answer [BitVec.ofNat 8 (b2n s.usb.halt2), 0] len
  else if type = 0x82 ∧ (index = 0 ∨ index = 0x80) then s.answer [0, 0] len
  else s.stall

/-- SET_CONFIGURATION: halts are cleared. -/
def State.setConfiguration (s : State) (v : Nat) : State :=
  if v ≤ 1 then { s with usb := { s.usb with configured := v = 1, halt1 := false, halt2 := false } } else s.stall

/-- A standard request: bmRequestType, bRequest, wValue, wIndex, wLength. SET_DESCRIPTOR, SYNCH_FRAME and features the port
does not have are STALLed. -/
def State.standardRequest (s : State) (type req value index len : Nat) : State :=
  match req with
  | 0 => s.usbStatus type index len
  | 1 => if type = 0x02 ∧ value = 0 then s.setHalt index false else s.stall
  | 3 => if type = 0x02 ∧ value = 0 then s.setHalt index true else if type = 0 ∧ value = 2 ∧ s.usb.high then s else s.stall
  | 5 => if type = 0 ∧ value ≤ 127 then { s with usb := { s.usb with address := value } } else s.stall
  | 6 => if type = 0x80 then
      match s.descriptor (value / 256) (value % 256) with
      | some b => s.answer b len
      | none => s.stall
    else s.stall
  | 8 => if type = 0x80 then s.answer [BitVec.ofNat 8 (b2n s.usb.configured)] len else s.stall
  | 9 => if type = 0 then s.setConfiguration value else s.stall
  | 10 => if type = 0x81 ∧ index = 0 ∧ s.usb.configured then s.answer [0] len else s.stall
  | 11 => if type = 0x01 ∧ index = 0 ∧ value = 0 ∧ s.usb.configured then { s with usb := { s.usb with halt1 := false, halt2 := false } }
    else s.stall
  | _ => s.stall

/-- USB_STANDARD_REQUEST. -/
def execUsbStandardRequest (type req : BitVec 8) (value index len : BitVec 16) (s : State) : Result :=
  if s.dieUp ∧ s.usb.attached then ok (s.standardRequest type.toNat req.toNat value.toNat index.toNat len.toNat) else ok s

/-! ### Vendor requests (R564 to R568) -/

/-- Serve a vendor request: any new one ends a stream (R567); one with bad fields, without its role, or in another state is
STALLed (R565). `role`: 0 any, 1 installer, 2 maker; `fields` and `states` hold where the request is allowed. -/
def State.vendor (s : State) (role : Nat) (fields states : Bool) (f : State → State) : Result :=
  if ¬ s.dieUp ∨ ¬ s.usb.attached then ok s
  else
    let s1 := { s with usb := { s.usb with stream := none } }
    if ¬ fields ∨ ¬ states ∨ s1.roles.usb < role then ok s1.stall else ok (f s1)

/-- Bytes of GET_STATE. -/
def State.stateBytes (s : State) : Bytes :=
  padTo 16 (natLe 1 s.glbState ++ natLe 1 s.glbCause ++ natLe 1 s.roles.usb ++ natLe 1 s.start.fails ++ natLe 4 s.glbStart ++
    natLe 1 (b2n s.img.session.isSome))

/-- GET_STATE. -/
def execGetState (value index len : BitVec 16) (s : State) : Result :=
  s.vendor 0 (value = 0 && index = 0 && len = 16) true fun t => t.answer t.stateBytes 16

/-- GET_IDENTIFY: in RECOVERY only bytes 0 to 59 are filled. -/
def execGetIdentify (value index len : BitVec 16) (s : State) : Result :=
  s.vendor 0 (value = 0 && index = 0 && 1 ≤ len.toNat && len.toNat ≤ 4096) true fun t =>
    t.answer (if t.dev = .recovery then padTo 4096 (t.identify.take 60) else t.identify) len.toNat

/-- CHALLENGE (R524, R529): STALLed while a hold runs (DEDUCED). -/
def execChallenge (value index len : BitVec 16) (s : State) : Result :=
  s.vendor 0 ((value = 1 || value = 2) && index = 0 && len = 64) true fun t =>
    if (t.holdLeft 1).isSome then t.stall
    else
      let r := t.issueChal 1 value.toNat
      r.1.answer r.2 64

/-- RESPONSE (R526 to R528): its outcome shows in GET_STATE byte 2 (DEDUCED: a rejected one is not STALLed). -/
def execResponse (value index : BitVec 16) (data : Bytes) (s : State) : Result :=
  s.vendor 0 (value = 0 && index = 0 && data.length = 48) true fun t => (t.respond 1 data).1

/-- DROP (R519). -/
def execDrop (value index : BitVec 16) (data : Bytes) (s : State) : Result :=
  s.vendor 0 (value = 0 && index = 0 && data.isEmpty) true fun t => t.setRole 1 0

/-- IMAGE_BEGIN (R552). -/
def execImageBegin (value index : BitVec 16) (data : Bytes) (s : State) : Result :=
  s.vendor 1 (value = 0 && index = 0 && data.isEmpty) true fun t => t.beginSession 1

/-- A chunk on the USB path: none where it is refused (R552 to R554). -/
def State.usbChunk (s : State) (unit : Nat) (b : Bytes) : Option State :=
  match s.sessionOn 1 with
  | none => none
  | some g =>
    let r := s.putChunks g unit 1 b
    if s.chunkGate = .open_ ∧ r.2 then some r.1 else none

/-- IMAGE_CHUNK. -/
def execImageChunk (value index : BitVec 16) (data : Bytes) (s : State) : Result :=
  s.vendor 1 (value.toNat ≤ 1023 && index = 0 && data.length = 4096) true fun t => (t.usbChunk value.toNat data).getD t.stall

/-- IMAGE_STREAM (R567): the units named lie below 4 MiB. -/
def execImageStream (value index : BitVec 16) (data : Bytes) (s : State) : Result :=
  s.vendor 1 (value.toNat ≤ 1023 && 1 ≤ index.toNat && index.toNat ≤ 1024 && value.toNat + index.toNat ≤ 1024 && data.isEmpty) true fun t =>
    if (t.sessionOn 1).isNone then t.stall else { t with usb := { t.usb with stream := some (value.toNat, index.toNat) } }

/-- STREAM_UNIT (R567): the last byte of a streamed unit arrives on EP1. A unit that is refused is not held. -/
def execStreamUnit (data : BitVec 32768) (s : State) : Result :=
  match s.usb.stream with
  | none => ok s
  | some (unit, left) =>
    if ¬ s.dieUp ∨ ¬ s.usb.attached ∨ ¬ s.usb.configured ∨ s.usb.halt1 ∨ s.roles.usb = 0 then ok s
    else
      let s1 := (s.usbChunk unit (natLe 4096 data.toNat)).getD s
      ok { s1 with usb := { s1.usb with stream := if left ≤ 1 then none else some (unit + 1, left - 1) } }

/-- IMAGE_COMMIT over USB (R555), with what the reads of the copies showed. -/
def execUsbImageCommit (value index : BitVec 16) (data : Bytes) (copies : Copies) (s : State) : Result :=
  s.vendor 1 (value = 0 && index = 0 && data.length = 4) true fun t =>
    let r := t.commitImage 1 (leAt data 0 4) copies
    match r.2 with
    | none => t.stall
    | some _ => r.1

/-- IMAGE_CONFIRM over USB (R559): READY and READY_DEGRADED; refused when the running image is not on trial. -/
def execUsbImageConfirm (value index : BitVec 16) (data : Bytes) (s : State) : Result :=
  s.vendor 1 (value = 0 && index = 0 && data.isEmpty) s.dev.inService fun t => if t.onTrial then t.confirmImage else t.stall

/-- IMAGE_STATUS (R560). -/
def execImageStatus (value index len : BitVec 16) (s : State) : Result :=
  s.vendor 0 (value = 0 && index = 0 && len = 64) true fun t => t.answer t.imagePage 64

/-- Fields of LOG_OPEN: the rules of R276 and R277; the minimal states serve pages 0x01 to 0x05. -/
def State.logOpenOk (s : State) (page index : Nat) (data : Bytes) : Bool :=
  let off := leAt data 0 8
  let len := leAt data 8 4
  pageKnown page && (!s.dev.minimal || page ≤ 5) && index = 0 && data.length = 16 && leAt data 12 4 = 0 && 4 ≤ len && len ≤ 2 ^ 21 &&
  len % 4 = 0 && off % 4 = 0 && ((page ≠ 2 && page ≠ 3) || (off % 32 = 0 && len % 32 = 0))

/-- LOG_OPEN: the page's bytes on EP2; `gone` as at LOG_READ. -/
def execLogOpen (value index : BitVec 16) (data : Bytes) (gone : List (BitVec 16)) (s : State) : Result :=
  s.vendor 0 (s.logOpenOk value.toNat index.toNat data) true fun t =>
    let r := t.logCopy value.toNat (leAt data 0 8) (leAt data 8 4) false (gone.map fun i => i.toNat)
    r.1.emit (.usb r.2.1)

/-- RAW_READ: a maker raw read of one page, main and spare bytes; `raw` is what the flash holds there. The operation goes to the
channel's Vein engine. -/
def execRawRead (value index : BitVec 16) (data raw : Bytes) (s : State) : Result :=
  let n := value.toNat
  let e := s.lunEntry n
  let row := leAt data 0 4
  let pages := max 1 (lunPages e)
  s.vendor 2 (n ≤ 127 && index = 0 && data.length = 8 && leAt data 4 4 = 0 && s.lunHealthy n && row / pages < lunBlocks e) s.dev.inService fun t =>
    (t.queueOp { lun := n, kind := 7, block := row / pages, page := row % pages, cell := lunCell e, cls := 6 }).emit
      (.usb (padTo (lunMain e + lunSpare e) raw))

/-- REBOOT (R568): a restart with a drain, into Bedrock with cause 6 for 1. -/
def execReboot (value index : BitVec 16) (data : Bytes) (s : State) : Result :=
  s.vendor 1 (value.toNat ≤ 1 && index = 0 && data.isEmpty) true fun t =>
    ({ t with bas.toBedrock := decide (value = 1) }).restart 3 .restart

end Sys2Proof.Machine
end

