-- ==== Sys2Proof/Machine/Dispatch.lean ====
section
/-! DEFINITION. The meaning of every command: one arm per constructor. -/

namespace Sys2Proof.Machine

def exec (i : Instr) (s : State) : Host.Outcome State Fault Refusal :=
  match i with
  | .registerWrite p offset value size => Sys2Proof.Machine.execRegisterWrite p offset value size s
  | .l64LowRead p which => Sys2Proof.Machine.execL64LowRead p which s
  | .readClear p offset size => Sys2Proof.Machine.execReadClear p offset size s
  | .tableSync p table index => Sys2Proof.Machine.execTableSync p table index s
  | .tableSyncDone => Sys2Proof.Machine.execTableSyncDone s
  | .syncHoldTimeout => Sys2Proof.Machine.execSyncHoldTimeout s
  | .paceWindowEnd pace => Sys2Proof.Machine.execPaceWindowEnd pace s
  | .vcoreStepAck code => Sys2Proof.Machine.execVcoreStepAck code s
  | .crystalLost => Sys2Proof.Machine.execCrystalLost s
  | .noCrystalTimeout => Sys2Proof.Machine.execNoCrystalTimeout s
  | .powerOn vin vres riset vccq18 latch => Sys2Proof.Machine.execPowerOn vin vres riset vccq18 latch s
  | .railsGood => Sys2Proof.Machine.execRailsGood s
  | .logicDieResetRelease st rom => Sys2Proof.Machine.execLogicDieResetRelease st rom s
  | .railFault r => Sys2Proof.Machine.execRailFault r s
  | .vinOvervoltage peakMv durationUs => Sys2Proof.Machine.execVinOvervoltage peakMv durationUs s
  | .inputStageOff => Sys2Proof.Machine.execInputStageOff s
  | .measurementDue => Sys2Proof.Machine.execMeasurementDue s
  | .pwrMeasNow => Sys2Proof.Machine.execPwrMeasNow s
  | .vresSetStaged p value => Sys2Proof.Machine.execVresSetStaged p value s
  | .measurementBegin => Sys2Proof.Machine.execMeasurementBegin s
  | .dipBasisReached => Sys2Proof.Machine.execDipBasisReached s
  | .measurementAbandoned => Sys2Proof.Machine.execMeasurementAbandoned s
  | .reservoirFallTimed ticks esr => Sys2Proof.Machine.execReservoirFallTimed ticks esr s
  | .reservoirChargeTimeout => Sys2Proof.Machine.execReservoirChargeTimeout s
  | .vresSample vres vin => Sys2Proof.Machine.execVresSample vres vin s
  | .vresLow => Sys2Proof.Machine.execVresLow s
  | .junctionSensorRead t => Sys2Proof.Machine.execJunctionSensorRead t s
  | .supplyCollapse vin => Sys2Proof.Machine.execSupplyCollapse vin s
  | .pfwChannelChange ch on => Sys2Proof.Machine.execPfwChannelChange ch on s
  | .pfwDiscrepancyExpiry => Sys2Proof.Machine.execPfwDiscrepancyExpiry s
  | .pfwRearm => Sys2Proof.Machine.execPfwRearm s
  | .drainStepDone work => Sys2Proof.Machine.execDrainStepDone work s
  | .drainCutShort reached => Sys2Proof.Machine.execDrainCutShort reached s
  | .safeRestart => Sys2Proof.Machine.execSafeRestart s
  | .resetNAccepted => Sys2Proof.Machine.execResetNAccepted s
  | .resetNRelease => Sys2Proof.Machine.execResetNRelease s
  | .restartRequest p => Sys2Proof.Machine.execRestartRequest p s
  | .startTimeout => Sys2Proof.Machine.execStartTimeout s
  | .watchdogExpiry => Sys2Proof.Machine.execWatchdogExpiry s
  | .watchdogHalf => Sys2Proof.Machine.execWatchdogHalf s
  | .failedCountClear => Sys2Proof.Machine.execFailedCountClear s
  | .glbStartWrite p value => Sys2Proof.Machine.execGlbStartWrite p value s
  | .bootLunTimeout => Sys2Proof.Machine.execBootLunTimeout s
  | .configRetryLimit => Sys2Proof.Machine.execConfigRetryLimit s
  | .jtagInstruction ir => Sys2Proof.Machine.execJtagInstruction ir s
  | .add e kd ka kb f => Sys2Proof.Machine.execAdd e kd ka kb f s
  | .adc e kd ka kb f => Sys2Proof.Machine.execAdc e kd ka kb f s
  | .sub e kd ka kb f => Sys2Proof.Machine.execSub e kd ka kb f s
  | .sbc e kd ka kb f => Sys2Proof.Machine.execSbc e kd ka kb f s
  | .and e kd ka kb f => Sys2Proof.Machine.execAnd e kd ka kb f s
  | .or e kd ka kb f => Sys2Proof.Machine.execOr e kd ka kb f s
  | .xor e kd ka kb f => Sys2Proof.Machine.execXor e kd ka kb f s
  | .andn e kd ka kb f => Sys2Proof.Machine.execAndn e kd ka kb f s
  | .shl e kd ka kb f => Sys2Proof.Machine.execShl e kd ka kb f s
  | .shr e kd ka kb f => Sys2Proof.Machine.execShr e kd ka kb f s
  | .sar e kd ka kb f => Sys2Proof.Machine.execSar e kd ka kb f s
  | .ror e kd ka kb f => Sys2Proof.Machine.execRor e kd ka kb f s
  | .mul e kd ka kb f => Sys2Proof.Machine.execMul e kd ka kb f s
  | .mulhu e kd ka kb f => Sys2Proof.Machine.execMulhu e kd ka kb f s
  | .minu e kd ka kb f => Sys2Proof.Machine.execMinu e kd ka kb f s
  | .maxu e kd ka kb f => Sys2Proof.Machine.execMaxu e kd ka kb f s
  | .cmp e ka kb f => Sys2Proof.Machine.execCmp e ka kb f s
  | .tst e ka kb f => Sys2Proof.Machine.execTst e ka kb f s
  | .clz e kd ka f => Sys2Proof.Machine.execClz e kd ka f s
  | .popc e kd ka f => Sys2Proof.Machine.execPopc e kd ka f s
  | .bswap e kd ka f => Sys2Proof.Machine.execBswap e kd ka f s
  | .crcw e kd ka kb f => Sys2Proof.Machine.execCrcw e kd ka kb f s
  | .addi e kd ka f imm => Sys2Proof.Machine.execAddi e kd ka f imm s
  | .andi e kd ka f imm => Sys2Proof.Machine.execAndi e kd ka f imm s
  | .ori e kd ka f imm => Sys2Proof.Machine.execOri e kd ka f imm s
  | .xori e kd ka f imm => Sys2Proof.Machine.execXori e kd ka f imm s
  | .cmpi e ka f imm => Sys2Proof.Machine.execCmpi e ka f imm s
  | .shli e kd ka f n => Sys2Proof.Machine.execShli e kd ka f n s
  | .shri e kd ka f n => Sys2Proof.Machine.execShri e kd ka f n s
  | .sari e kd ka f n => Sys2Proof.Machine.execSari e kd ka f n s
  | .lui e kd imm => Sys2Proof.Machine.execLui e kd imm s
  | .ldw e kd ka imm chk => Sys2Proof.Machine.execLdw e kd ka imm chk s
  | .ldh e kd ka imm chk => Sys2Proof.Machine.execLdh e kd ka imm chk s
  | .ldb e kd ka imm chk => Sys2Proof.Machine.execLdb e kd ka imm chk s
  | .stw e kd ka imm chk => Sys2Proof.Machine.execStw e kd ka imm chk s
  | .sth e kd ka imm chk => Sys2Proof.Machine.execSth e kd ka imm chk s
  | .stb e kd ka imm chk => Sys2Proof.Machine.execStb e kd ka imm chk s
  | .swp e kd ka imm chk => Sys2Proof.Machine.execSwp e kd ka imm chk s
  | .bCond e cond off => Sys2Proof.Machine.execBCond e cond off s
  | .callCond e cond off => Sys2Proof.Machine.execCallCond e cond off s
  | .jr e ka imm => Sys2Proof.Machine.execJr e ka imm s
  | .jalr e kd ka imm => Sys2Proof.Machine.execJalr e kd ka imm s
  | .wait e kd ka f mask => Sys2Proof.Machine.execWait e kd ka f mask s
  | .waitEnd e expired => Sys2Proof.Machine.execWaitEnd e expired s
  | .sev e hi => Sys2Proof.Machine.execSev e hi s
  | .eclr e kd imm => Sys2Proof.Machine.execEclr e kd imm s
  | .eget e kd imm => Sys2Proof.Machine.execEget e kd imm s
  | .mbdb e ka => Sys2Proof.Machine.execMbdb e ka s
  | .mback e kd ka f => Sys2Proof.Machine.execMback e kd ka f s
  | .mbrd e kd ka kb => Sys2Proof.Machine.execMbrd e kd ka kb s
  | .mbwr e kd ka kb => Sys2Proof.Machine.execMbwr e kd ka kb s
  | .mbsend e kd ka f => Sys2Proof.Machine.execMbsend e kd ka f s
  | .mbfree e ka => Sys2Proof.Machine.execMbfree e ka s
  | .mbstat e kd => Sys2Proof.Machine.execMbstat e kd s
  | .tld e kd ka kb => Sys2Proof.Machine.execTld e kd ka kb s
  | .twr e kd ka kb => Sys2Proof.Machine.execTwr e kd ka kb s
  | .tsync e kd ka f => Sys2Proof.Machine.execTsync e kd ka f s
  | .timel e kd ka kb => Sys2Proof.Machine.execTimel e kd ka kb s
  | .timeh e kd ka kb => Sys2Proof.Machine.execTimeh e kd ka kb s
  | .clkl e kd ka kb => Sys2Proof.Machine.execClkl e kd ka kb s
  | .clkh e kd ka kb => Sys2Proof.Machine.execClkh e kd ka kb s
  | .nop e => Sys2Proof.Machine.execNop e s
  | .fence e kd ka kb => Sys2Proof.Machine.execFence e kd ka kb s
  | .cesel e ka operand => Sys2Proof.Machine.execCesel e ka operand s
  | .cmd e ka operand => Sys2Proof.Machine.execCmd e ka operand s
  | .addr e ka n => Sys2Proof.Machine.execAddr e ka n s
  | .dout e ka => Sys2Proof.Machine.execDout e ka s
  | .din e ka operand => Sys2Proof.Machine.execDin e ka operand s
  | .busTransferEnd ch result iface => Sys2Proof.Machine.execBusTransferEnd ch result iface s
  | .bres e kd ka => Sys2Proof.Machine.execBres e kd ka s
  | .doutm e ka operand => Sys2Proof.Machine.execDoutm e ka operand s
  | .dinm e ka operand data => Sys2Proof.Machine.execDinm e ka operand data s
  | .rdb e kd byte => Sys2Proof.Machine.execRdb e kd byte s
  | .bdly e kd ka operand => Sys2Proof.Machine.execBdly e kd ka operand s
  | .wpset e kd ka operand => Sys2Proof.Machine.execWpset e kd ka operand s
  | .bmode e kd ka operand => Sys2Proof.Machine.execBmode e kd ka operand s
  | .opget e kd ka operand => Sys2Proof.Machine.execOpget e kd ka operand s
  | .opdone e ka operand => Sys2Proof.Machine.execOpdone e ka operand s
  | .veinReportTimeout ch => Sys2Proof.Machine.execVeinReportTimeout ch s
  | .halt e kd ka operand => Sys2Proof.Machine.execHalt e kd ka operand s
  | .wdkick e => Sys2Proof.Machine.execWdkick e s
  | .vload e kd ka operand => Sys2Proof.Machine.execVload e kd ka operand s
  | .hload e kd ka operand => Sys2Proof.Machine.execHload e kd ka operand s
  | .imgchk e kd ka operand => Sys2Proof.Machine.execImgchk e kd ka operand s
  | .setstate e kd ka operand => Sys2Proof.Machine.execSetstate e kd ka operand s
  | .hend e operand => Sys2Proof.Machine.execHend e operand s
  | .cfire e kd ka operand => Sys2Proof.Machine.execCfire e kd ka operand s
  | .gpout e kd ka operand => Sys2Proof.Machine.execGpout e kd ka operand s
  | .gpin e kd ka operand => Sys2Proof.Machine.execGpin e kd ka operand s
  | .hlog e kd ka operand => Sys2Proof.Machine.execHlog e kd ka operand s
  | .hookTrigger entry => Sys2Proof.Machine.execHookTrigger entry s
  | .hookStart => Sys2Proof.Machine.execHookStart s
  | .hookBudgetWarning => Sys2Proof.Machine.execHookBudgetWarning s
  | .hookBudgetExpiry => Sys2Proof.Machine.execHookBudgetExpiry s
  | .debugStop p eng => Sys2Proof.Machine.execDebugStop p eng s
  | .debugStep p eng stop chk bus => Sys2Proof.Machine.execDebugStep p eng stop chk bus s
  | .perstAssert => Sys2Proof.Machine.execPerstAssert s
  | .perstDeassert => Sys2Proof.Machine.execPerstDeassert s
  | .hotReset => Sys2Proof.Machine.execHotReset s
  | .functionLevelReset => Sys2Proof.Machine.execFunctionLevelReset s
  | .busMasterEnableClear => Sys2Proof.Machine.execBusMasterEnableClear s
  | .d3hotEntry => Sys2Proof.Machine.execD3hotEntry s
  | .d0Return => Sys2Proof.Machine.execD0Return s
  | .msixUnmask v => Sys2Proof.Machine.execMsixUnmask v s
  | .pcieErrorReceived e => Sys2Proof.Machine.execPcieErrorReceived e s
  | .hostReadCompletion k n tag off e => Sys2Proof.Machine.execHostReadCompletion k n tag off e s
  | .completionTimeout k n tag off => Sys2Proof.Machine.execCompletionTimeout k n tag off s
  | .linkRetrain => Sys2Proof.Machine.execLinkRetrain s
  | .aspmL1Request => Sys2Proof.Machine.execAspmL1Request s
  | .ringEnable n => Sys2Proof.Machine.execRingEnable n s
  | .ringDisable n => Sys2Proof.Machine.execRingDisable n s
  | .dbTail n v => Sys2Proof.Machine.execDbTail n v s
  | .dbBare n => Sys2Proof.Machine.execDbBare n s
  | .dbCqh n v => Sys2Proof.Machine.execDbCqh n v s
  | .pushWindowWrite n off data => Sys2Proof.Machine.execPushWindowWrite n off data s
  | .chainTimeout n => Sys2Proof.Machine.execChainTimeout n s
  | .moderationTimeout n => Sys2Proof.Machine.execModerationTimeout n s
  | .mbxH2dSet b => Sys2Proof.Machine.execMbxH2dSet b s
  | .mbxD2hClear b => Sys2Proof.Machine.execMbxD2hClear b s
  | .h2dSlotWrite slot off data => Sys2Proof.Machine.execH2dSlotWrite slot off data s
  | .h2dPost set => Sys2Proof.Machine.execH2dPost set s
  | .d2hFree set => Sys2Proof.Machine.execD2hFree set s
  | .mailboxSlotTimeout toHost slot => Sys2Proof.Machine.execMailboxSlotTimeout toHost slot s
  | .read n tag x media => Sys2Proof.Machine.execRead n tag x media s
  | .write n tag x => Sys2Proof.Machine.execWrite n tag x s
  | .writeAtomic n tag x => Sys2Proof.Machine.execWriteAtomic n tag x s
  | .append n tag x => Sys2Proof.Machine.execAppend n tag x s
  | .flush n tag => Sys2Proof.Machine.execFlush n tag s
  | .trim n tag => Sys2Proof.Machine.execTrim n tag s
  | .sealStream n tag => Sys2Proof.Machine.execSealStream n tag s
  | .readStream n tag x media => Sys2Proof.Machine.execReadStream n tag x media s
  | .pinBySequence n tag => Sys2Proof.Machine.execPinBySequence n tag s
  | .pinByTime n tag => Sys2Proof.Machine.execPinByTime n tag s
  | .pinRelease n tag => Sys2Proof.Machine.execPinRelease n tag s
  | .budgetWindowEnd => Sys2Proof.Machine.execBudgetWindowEnd s
  | .identify n tag x => Sys2Proof.Machine.execIdentify n tag x s
  | .volumeCreate n tag => Sys2Proof.Machine.execVolumeCreate n tag s
  | .volumeDelete n tag => Sys2Proof.Machine.execVolumeDelete n tag s
  | .volumeQuery n tag x => Sys2Proof.Machine.execVolumeQuery n tag x s
  | .logRead n tag gone x => Sys2Proof.Machine.execLogRead n tag gone x s
  | .imageWrite n tag x => Sys2Proof.Machine.execImageWrite n tag x s
  | .imageCommit n tag copies => Sys2Proof.Machine.execImageCommit n tag copies s
  | .imageConfirm n tag => Sys2Proof.Machine.execImageConfirm n tag s
  | .selfTestShort n tag => Sys2Proof.Machine.execSelfTestShort n tag s
  | .selfTestExtended n tag => Sys2Proof.Machine.execSelfTestExtended n tag s
  | .selfTestStop n tag => Sys2Proof.Machine.execSelfTestStop n tag s
  | .selfTestPieceDone p => Sys2Proof.Machine.execSelfTestPieceDone p s
  | .selfTestStarved => Sys2Proof.Machine.execSelfTestStarved s
  | .roleChallenge n tag x => Sys2Proof.Machine.execRoleChallenge n tag x s
  | .roleResponse n tag x => Sys2Proof.Machine.execRoleResponse n tag x s
  | .roleDrop n tag => Sys2Proof.Machine.execRoleDrop n tag s
  | .protect n tag x => Sys2Proof.Machine.execProtect n tag x s
  | .load n tag x => Sys2Proof.Machine.execLoad n tag x s
  | .unload n tag => Sys2Proof.Machine.execUnload n tag s
  | .setConnKey n tag x => Sys2Proof.Machine.execSetConnKey n tag x s
  | .clearConnKey n tag => Sys2Proof.Machine.execClearConnKey n tag s
  | .setInstaller n tag x => Sys2Proof.Machine.execSetInstaller n tag x s
  | .status n tag x => Sys2Proof.Machine.execStatus n tag x s
  | .entropyGet n tag x => Sys2Proof.Machine.execEntropyGet n tag x s
  | .cairnPost n tag x => Sys2Proof.Machine.execCairnPost n tag x s
  | .cairnCancel n tag => Sys2Proof.Machine.execCairnCancel n tag s
  | .clockSet n tag => Sys2Proof.Machine.execClockSet n tag s
  | .bootSlotSwitch n tag => Sys2Proof.Machine.execBootSlotSwitch n tag s
  | .hookLoad n tag x => Sys2Proof.Machine.execHookLoad n tag x s
  | .sanitizeCryptoErase n tag ends => Sys2Proof.Machine.execSanitizeCryptoErase n tag ends s
  | .sanitizeBlockErase n tag ends => Sys2Proof.Machine.execSanitizeBlockErase n tag ends s
  | .abort n tag => Sys2Proof.Machine.execAbort n tag s
  | .configWrite n tag x => Sys2Proof.Machine.execConfigWrite n tag x s
  | .configRead n tag x => Sys2Proof.Machine.execConfigRead n tag x s
  | .lossReport n tag x => Sys2Proof.Machine.execLossReport n tag x s
  | .descriptorTimeout n tag off => Sys2Proof.Machine.execDescriptorTimeout n tag off s
  | .descriptorEnd n tag off => Sys2Proof.Machine.execDescriptorEnd n tag off s
  | .channelResume n => Sys2Proof.Machine.execChannelResume n s
  | .allocHoldExpiry n tag => Sys2Proof.Machine.execAllocHoldExpiry n tag s
  | .journalPageTimer => Sys2Proof.Machine.execJournalPageTimer s
  | .journalPageVerified => Sys2Proof.Machine.execJournalPageVerified s
  | .checkpointComplete => Sys2Proof.Machine.execCheckpointComplete s
  | .openPageClose lun block page landing => Sys2Proof.Machine.execOpenPageClose lun block page landing s
  | .optimeSave => Sys2Proof.Machine.execOptimeSave s
  | .pacingWindow lun busy => Sys2Proof.Machine.execPacingWindow lun busy s
  | .floorModeTimeout lun => Sys2Proof.Machine.execFloorModeTimeout lun s
  | .wearCheck => Sys2Proof.Machine.execWearCheck s
  | .retentionStep => Sys2Proof.Machine.execRetentionStep s
  | .suspendRequest ch => Sys2Proof.Machine.execSuspendRequest ch s
  | .resumeDeadline lun => Sys2Proof.Machine.execResumeDeadline lun s
  | .lunResetTimeout lun => Sys2Proof.Machine.execLunResetTimeout lun s
  | .dramEnable p found => Sys2Proof.Machine.execDramEnable p found s
  | .refreshInterval rank idle => Sys2Proof.Machine.execRefreshInterval rank idle s
  | .refreshWindowStart => Sys2Proof.Machine.execRefreshWindowStart s
  | .dramParityAlert => Sys2Proof.Machine.execDramParityAlert s
  | .alertTimeout => Sys2Proof.Machine.execAlertTimeout s
  | .scrubPass facts => Sys2Proof.Machine.execScrubPass facts s
  | .portLinkUp p kx fec => Sys2Proof.Machine.execPortLinkUp p kx fec s
  | .portLinkDown p => Sys2Proof.Machine.execPortLinkDown p s
  | .portEnable path p on => Sys2Proof.Machine.execPortEnable path p on s
  | .ilideAppend p frame a => Sys2Proof.Machine.execIlideAppend p frame a s
  | .readReq p frame a media => Sys2Proof.Machine.execReadReq p frame a media s
  | .send p frame a => Sys2Proof.Machine.execSend p frame a s
  | .ack p frame a => Sys2Proof.Machine.execAck p frame a s
  | .nak p frame a => Sys2Proof.Machine.execNak p frame a s
  | .hello p frame a => Sys2Proof.Machine.execHello p frame a s
  | .pfcFrame p set quanta => Sys2Proof.Machine.execPfcFrame p set quanta s
  | .retransmitTimeout c => Sys2Proof.Machine.execRetransmitTimeout c s
  | .assemblyTimeout c => Sys2Proof.Machine.execAssemblyTimeout c s
  | .keepaliveSend c => Sys2Proof.Machine.execKeepaliveSend c s
  | .partnerSilence c => Sys2Proof.Machine.execPartnerSilence c s
  | .helloRetry c => Sys2Proof.Machine.execHelloRetry c s
  | .connectionBoundary c forced => Sys2Proof.Machine.execConnectionBoundary c forced s
  | .pauseWatchdog p prio => Sys2Proof.Machine.execPauseWatchdog p prio s
  | .pauseTxLimit p prio => Sys2Proof.Machine.execPauseTxLimit p prio s
  | .quarantineEnd c => Sys2Proof.Machine.execQuarantineEnd c s
  | .quarantineClear path value => Sys2Proof.Machine.execQuarantineClear path value s
  | .cairnFiringStart => Sys2Proof.Machine.execCairnFiringStart s
  | .cairnFiringEnd c => Sys2Proof.Machine.execCairnFiringEnd c s
  | .shipConnectionTimeout c => Sys2Proof.Machine.execShipConnectionTimeout c s
  | .timerPeriodEvent n => Sys2Proof.Machine.execTimerPeriodEvent n s
  | .timerEnable p n => Sys2Proof.Machine.execTimerEnable p n s
  | .timerStop p n => Sys2Proof.Machine.execTimerStop p n s
  | .timerPeriodWrite p n value => Sys2Proof.Machine.execTimerPeriodWrite p n value s
  | .timerCountWrite p n value => Sys2Proof.Machine.execTimerCountWrite p n value s
  | .gpioEdge g level => Sys2Proof.Machine.execGpioEdge g level s
  | .screeFlush => Sys2Proof.Machine.execScreeFlush s
  | .suppressionSummary => Sys2Proof.Machine.execSuppressionSummary s
  | .makerRoleExpiry path => Sys2Proof.Machine.execMakerRoleExpiry path s
  | .challengeExpiry path => Sys2Proof.Machine.execChallengeExpiry path s
  | .challengeHoldEnd path => Sys2Proof.Machine.execChallengeHoldEnd path s
  | .flintWindow rct apt => Sys2Proof.Machine.execFlintWindow rct apt s
  | .flintRerun => Sys2Proof.Machine.execFlintRerun s
  | .drbgReseed => Sys2Proof.Machine.execDrbgReseed s
  | .trialTimeSave => Sys2Proof.Machine.execTrialTimeSave s
  | .trialExpiry => Sys2Proof.Machine.execTrialExpiry s
  | .usbAttach => Sys2Proof.Machine.execUsbAttach s
  | .usbDisconnect => Sys2Proof.Machine.execUsbDisconnect s
  | .usbBusReset underWay high => Sys2Proof.Machine.execUsbBusReset underWay high s
  | .usbStandardRequest type req value index len => Sys2Proof.Machine.execUsbStandardRequest type req value index len s
  | .getState value index len => Sys2Proof.Machine.execGetState value index len s
  | .getIdentify value index len => Sys2Proof.Machine.execGetIdentify value index len s
  | .challenge value index len => Sys2Proof.Machine.execChallenge value index len s
  | .response value index data => Sys2Proof.Machine.execResponse value index data s
  | .drop value index data => Sys2Proof.Machine.execDrop value index data s
  | .imageBegin value index data => Sys2Proof.Machine.execImageBegin value index data s
  | .imageChunk value index data => Sys2Proof.Machine.execImageChunk value index data s
  | .imageStream value index data => Sys2Proof.Machine.execImageStream value index data s
  | .streamUnit data => Sys2Proof.Machine.execStreamUnit data s
  | .usbImageCommit value index data copies => Sys2Proof.Machine.execUsbImageCommit value index data copies s
  | .usbImageConfirm value index data => Sys2Proof.Machine.execUsbImageConfirm value index data s
  | .imageStatus value index len => Sys2Proof.Machine.execImageStatus value index len s
  | .logOpen value index data gone => Sys2Proof.Machine.execLogOpen value index data gone s
  | .rawRead value index data raw => Sys2Proof.Machine.execRawRead value index data raw s
  | .reboot value index data => Sys2Proof.Machine.execReboot value index data s
  | .pcieLinkUp speed width reversed polarity => Sys2Proof.Machine.execPcieLinkUp speed width reversed polarity s
  | .busMasterEnableSet => Sys2Proof.Machine.execBusMasterEnableSet s
  | .dramInitComplete step => Sys2Proof.Machine.execDramInitComplete step s
  | .dAlertNHigh rank replayed again => Sys2Proof.Machine.execDAlertNHigh rank replayed again s
  | .railRecovery r => Sys2Proof.Machine.execRailRecovery r s
  | .chargerModeChange vin => Sys2Proof.Machine.execChargerModeChange vin s
  | .otherFrame p frame fcs a => Sys2Proof.Machine.execOtherFrame p frame fcs a s
  | .tapReset => Sys2Proof.Machine.execTapReset s
  | .qkchalRead => Sys2Proof.Machine.execQkchalRead s
  | .qkrespWrite data => Sys2Proof.Machine.execQkrespWrite data s
  | .illegalInstruction e word parity => Sys2Proof.Machine.execIllegalInstruction e word parity s

end Sys2Proof.Machine
end

