-- ==== Sys2Proof/WellFormed.lean ====
section
/-! DEFINITION. The commands that the device can be given: what the types of the operands do not say yet. -/

namespace Sys2Proof

/-- The bytes of an access. -/
def Size.bytes : Size → Nat
  | .b1 => 1
  | .b2 => 2
  | .b4 => 4

/-- A register access of the size lies at a multiple of it (R7). -/
def alignedAt (off : BitVec 20) (z : Size) : Bool := off.toNat % z.bytes == 0

/-- A number in a field of `n` bytes. -/
def fitsIn (v : Word) (z : Size) : Bool := decide (v.toNat < 2 ^ (8 * z.bytes))

/-- A command of the device's environment is well formed: an access is aligned and its value fits (R7), a condition is one of
the fifteen named ones (R144), a raw transfer returns as many bytes as it names, and an address has 1 to 4 cycles (R156). -/
def Instr.wellFormed : Instr → Bool
  | .registerWrite _ off v z => alignedAt off z && fitsIn v z
  | .readClear _ off z => alignedAt off z
  | .bCond _ c _ => c != 15
  | .callCond _ c _ => c != 15
  | .addr _ _ n => n != 0 && decide (n.toNat ≤ 4)
  | .dinm _ _ n data => data.length == n.toNat
  | _ => true

end Sys2Proof
end

