-- ==== Sys2Proof/Safety.lean ====
section
/-! DEFINITION. The terms that claims about the block use: what it means that a command completes, and what stays as it was while
events are recorded and counters counted. -/

namespace Sys2Proof.Machine

/-- A command completes: it answers a next state, of which `p` holds. -/
def Answers (r : Host.Outcome State Fault Refusal) (p : State → Prop) : Prop := ∃ t, r = .next t ∧ p t

/-- The register fields that the notices of an event count in: suppressed records, asynchronous entries lost, merged hooks. -/
def noticeFields : List Field := [Reg.evrSupp, Reg.asyncLost, Reg.hookMerged]

/-- From `s` to `t` only records and counts have been made, and the notices that they send: asynchronous completion entries with
their messages, hook requests with their event flags, and the firings of cairns that count a trouble counter. -/
structure Steady (s t : State) : Prop where
  pending : t.pending = s.pending
  dev : t.dev = s.dev
  csr : ∀ f : Field, (∀ g ∈ noticeFields, f.key ≠ g.key) → t.f f = s.f f
  staged : t.staged = s.staged
  time : t.time = s.time
  bas : t.bas = s.bas
  vcore : t.vcore = s.vcore
  led : t.led = s.led
  pfw : t.pfw = s.pfw
  drain : t.drain = s.drain
  start : t.start = s.start
  pcie : { t.pcie with pba := s.pcie.pba } = s.pcie
  mbx : t.mbx = s.mbx
  chans : t.chans = s.chans
  alloc : t.alloc = s.alloc
  str : t.str = s.str
  eng : ∀ e, { t.engine e with ev := (s.engine e).ev } = s.engine e
  hooks : { t.hooks with queue := s.hooks.queue } = s.hooks
  roles : t.roles = s.roles
  tab : t.tab = s.tab
  fl : t.fl = s.fl
  dram : t.dram = s.dram
  fab : t.fab = s.fab
  img : t.img = s.img
  usb : t.usb = s.usb
  selfTest : t.selfTest = s.selfTest
  jtag : t.jtag = s.jtag
  junction : t.junction = s.junction
  portsFailed : t.portsFailed = s.portsFailed
  rebuilding : t.rebuilding = s.rebuilding
  sparesOut : t.sparesOut = s.sparesOut
  flintLatched : t.flintLatched = s.flintLatched
  nv : { t.nv with cairns := s.nv.cairns } = s.nv

/-- From `s` to `t` an event goes to the recorder with these parameters, and beside it only records and counts are made. -/
def Logs (s : State) (code src : Nat) (p1 p2 p3 p4 : Nat) (t : State) : Prop :=
  ∃ u, Steady s u ∧ Steady (u.record code src p1 p2 p3 p4) t

/-- From `s` to `t` a trouble counter counts once, and beside it only records and counts are made. -/
def Counts (s : State) (i : Nat) (t : State) : Prop := ∃ u, Steady s u ∧ Steady (u.bump i) t

/-- The device as READY or READY_DEGRADED by its causes, where it is in service. -/
def State.graded (s : State) : State := if s.dev.inService then { s with dev := s.serviceState } else s

/-- From `s` to `t` the device state becomes `d`: beside records and counts only the USB port, which may detach, and the count of
trial time. -/
def Becomes (s : State) (d : Dev) (t : State) : Prop :=
  ∃ u a b, (u = s.usb ∨ u = { vbus := s.usb.vbus }) ∧
    Steady { s with dev := d, usb := u, img := { s.img with trialHeld := a, trialAt := b } } t

/-- From `s` to `t` FREEZE is raised: every block stops at its safe point, and the device drains, into SAFE or, if `warm`, into a
restart. -/
def Drains (s : State) (c : FreezeCause) (warm : Bool) (t : State) : Prop :=
  Becomes { s.freezeBlocks with
    bas := { s.freezeBlocks.bas with freeze := true, cause := some c }, drain := { step := 1, warm := warm } } .draining t

/-- A register field of `t` as `s` holds it. -/
def State.fieldOf (s t : State) (f : Field) : Map Nat :=
  match s.csr.get? f.key with
  | some v => t.csr.put f.key v
  | none => t.csr.erase f.key

/-- From `s` to `t` the ledger settles: beside records and counts only its peak and its note of an excess change, the cycle reserve
with RESV_CUT, and the grade of a device in service. -/
def Settled (s t : State) : Prop :=
  Steady s { t with
    csr := s.fieldOf t Reg.resvCut, dev := s.dev
    led := { t.led with peak := s.led.peak, overUsable := s.led.overUsable }, alloc := { t.alloc with resSize := s.alloc.resSize } } ∧
  (t.dev = s.dev ∨ s.dev.inService = true ∧ t.dev.inService = true)

/-- From `s` to `t` fields take the values staged for them (R14), and nothing else changes. -/
structure Takes (s : State) (fs : List Field) (t : State) : Prop where
  taken : ∀ f ∈ fs, t.f f = match s.staged.get? f.key with
    | some x => x % 2 ^ f.width
    | none => s.f f
  cleared : ∀ f ∈ fs, t.staged.get? f.key = none
  others : ∀ f : Field, (∀ g ∈ fs, f.key ≠ g.key) → t.f f = s.f f
  staged : ∀ k, (∀ g ∈ fs, k ≠ g.key) → t.staged.get? k = s.staged.get? k
  rest : { t with csr := s.csr, staged := s.staged } = s

/-- From `s` to `t` register fields take values, cut to their widths, and nothing else changes. -/
structure Sets (s : State) (l : List (Field × Nat)) (t : State) : Prop where
  written : ∀ p ∈ l, t.f p.1 = p.2 % 2 ^ p.1.width
  others : ∀ f : Field, (∀ p ∈ l, f.key ≠ p.1.key) → t.f f = s.f f
  rest : { t with csr := s.csr } = s

/-! ### Commands of the rings -/

/-- The command `c` holds the tag of ring `n`, carries `op`, and has not started; the device can start it. -/
structure Starts (s : State) (n tag op : Nat) (c : Cmd) : Prop where
  here : s.cmd? n tag = some c
  opcode : c.opcode = op
  ring : c.ring = n
  fresh : c.unstarted = true
  up : s.dieUp = true
  live : s.bas.freeze = false

/-- The same of an administrative command in service, in its turn, with the supervisor program where it needs one (R262, R264).
`c` is the command with its class. -/
structure Turn (s : State) (tag : BitVec 5) (op : Nat) (c : Cmd) : Prop where
  start : ∃ c0, Starts s 0 tag.toNat op c0 ∧ c = { c0 with cls := 6 }
  turn : s.admTurn c = true
  service : s.dev.inService = true
  program : admK op = true → s.supervisor = true

/-- `data` goes to the host segments of `c` in order, then `c` completes OK with `result`. -/
def State.deliver (s : State) (c : Cmd) (segs data result : Bytes) : State :=
  (s.scatter data (c.runs c.length segs)).complete c 0 result

/-- The state with no units or energy awaited by `c`. -/
def State.unqueued (s : State) (c : Cmd) : State :=
  { s with alloc := { s.alloc with queue := s.alloc.queue.filter fun q => !(q.1 == c.ring && q.2.1 == c.tag) } }

/-! ### I/O commands -/

/-- The I/O command `c` can start, passes its checks (R233), and its transfer channel issues. -/
structure Clear (s : State) (n tag op : Nat) (c : Cmd) : Prop where
  start : Starts s n tag op c
  checks : s.ioCheck c = none
  going : (s.chan c.ring).halted = false

/-- Block `i` of a write of `data` to `n` blocks from `first` on, `into` bytes into the first: the data over the old bytes. -/
def State.newBlock (s : State) (v first into : Nat) (data : Bytes) (i : Nat) : Bytes :=
  padTo 4096 (overlay (s.blockBytes v (s.place v (first + i))) (if i = 0 then into else 0)
    ((data.drop (if i = 0 then 0 else 4096 * i - into)).take (4096 - if i = 0 then into else 0)))

/-- From `s` to `t` the blocks of a write hold its data, each in a staging unit of its own, and out of the loss report; no other block of
any volume changes. -/
structure Wrote (s : State) (v first into n : Nat) (data : Bytes) (t : State) : Prop where
  written : ∀ i, i < n → t.blockBytes v (s.place v (first + i)) = s.newBlock v first into data i
  others : ∀ p, (∀ i, i < n → p ≠ s.place v (first + i)) → t.blk v p = s.blk v p
  volume : { t.vol v with map := (s.vol v).map } = s.vol v
  volumes : ∀ w, w ≠ v → t.vol w = s.vol w
  next : t.str.nextUnit = s.str.nextUnit + n
  rest : { t with str := s.str, alloc := s.alloc, led := s.led, nv := { t.nv with vols := s.nv.vols, loss := s.nv.loss } } = s

/-- From `s` to `t` a record is accepted at the end of a stream, its `k` oldest records released before, each with its loss entries; the record
takes `n` staging units, and nothing else changes. -/
structure Appended (s : State) (v k n : Nat) (r : SRec) (fromReserve : Bool) (part granted : Nat) (t : State) : Prop where
  stream : t.vol v = { s.vol v with
    recs := (s.vol v).recs.drop k ++ [r], nextSeq := (s.vol v).nextSeq + 1, released := (s.vol v).released + k
    writeOff := ((s.vol v).writeOff + extent r.payload.length) % max 1 (s.vol v).space }
  volumes : ∀ w, w ≠ v → t.vol w = s.vol w
  str : t.str = { s.str with
    nextUnit := s.str.nextUnit + n
    units := s.str.units ++ (List.range n).map fun i => { id := s.str.nextUnit + i, vol := v, lba := r.seq, stream := true, group := 0, fromReserve := fromReserve, part := part, granted := granted } }
  rest : { t with str := s.str, nv := { t.nv with vols := s.nv.vols, loss := s.nv.loss } } = s

/-! ### Volumes -/

/-- From `s` to `t` the volumes of `vs` become `f` of what they were, and their staged units, their pins and their entries of the loss
report go; the staged units are given back. -/
structure Emptied (s : State) (vs : List Nat) (f : Vol → Vol) (t : State) : Prop where
  inside : ∀ v ∈ vs, t.vol v = f (s.vol v)
  outside : ∀ v, v ∉ vs → t.vol v = s.vol v
  str : t.str = { s.str with
    units := s.str.units.filter fun u => !(vs.contains u.vol && u.place == UnitAt.staged)
    loaded := s.str.loaded.filter fun k => !vs.contains (k / 2 ^ 32)
    cached := s.str.cached.filter fun k => !vs.contains (k / 2 ^ 40) }
  nv : { t.nv with vols := s.nv.vols } = { s.nv with
    pins := s.nv.pins.filter fun p => !vs.contains p.vol
    loss := { s.nv.loss with runs := s.nv.loss.runs.filter fun r => !vs.contains r.vol }
    drained := s.nv.drained.filter fun u => !vs.contains u.vol }
  alloc : { t.alloc with genUsed := s.alloc.genUsed, resUsed := s.alloc.resUsed, released := s.alloc.released } = s.alloc
  led : { t.led with charged := s.led.charged } = s.led
  rest : { t with str := s.str, nv := s.nv, alloc := s.alloc, led := s.led } = s

/-- From `s` to `t` a volume gets a key of DEVICE protection, of the DRBG's next 64 bytes after a reseed, which is loaded; event 0x6040. -/
def Keyed (s : State) (v : Nat) (t : State) : Prop :=
  Logs { s with
    nv := { s.nv with keys := { s.nv.keys with
      drawn := s.nv.keys.drawn + 64, vol := s.nv.keys.vol.put v { drawn := s.nv.keys.drawn, secret := none } } }
    roles := { s.roles with keys := withBit s.roles.keys v true, flint := { s.roles.flint with requests := 1 } } } 0x6040 Src.sec v 0 0 0 t

/-! ### The flash -/

/-- The register fields that the media side counts in: those of notices, and each channel's errors. -/
def mediaFields : List Field := noticeFields ++ (List.range 8).map Reg.errHard

/-- From `s` to `t` only the media side changes: the flash channels, LUNs and their blocks, the place and the loss of data, the loss report, the
journal, the DRBG's place, the grade of a device in service, records and counts. Which blocks are mapped, and how many records there
are, stands. -/
structure MediaSide (s t : State) : Prop where
  pending : t.pending = s.pending
  dev : t.dev = s.dev ∨ s.dev.inService = true ∧ t.dev.inService = true
  csr : ∀ f : Field, (∀ g ∈ mediaFields, f.key ≠ g.key) → t.f f = s.f f
  staged : t.staged = s.staged
  time : t.time = s.time
  bas : t.bas = s.bas
  vcore : t.vcore = s.vcore
  led : t.led = s.led
  pfw : t.pfw = s.pfw
  drain : t.drain = s.drain
  start : t.start = s.start
  pcie : { t.pcie with pba := s.pcie.pba } = s.pcie
  mbx : t.mbx = s.mbx
  chans : t.chans = s.chans
  alloc : t.alloc = s.alloc
  str : { t.str with units := s.str.units, openPage := s.str.openPage, pages := s.str.pages, sinceCkpt := s.str.sinceCkpt, ckptAt := s.str.ckptAt } = s.str
  eng : ∀ e, { t.engine e with ev := (s.engine e).ev } = s.engine e
  hooks : { t.hooks with queue := s.hooks.queue } = s.hooks
  roles : { t.roles with flint := { t.roles.flint with requests := s.roles.flint.requests, seeds := s.roles.flint.seeds } } = s.roles
  tab : t.tab = s.tab
  dram : t.dram = s.dram
  fab : t.fab = s.fab
  img : t.img = s.img
  usb : t.usb = s.usb
  selfTest : t.selfTest = s.selfTest
  jtag : t.jtag = s.jtag
  junction : t.junction = s.junction
  portsFailed : t.portsFailed = s.portsFailed
  flintLatched : t.flintLatched = s.flintLatched
  vols : ∀ v, { t.vol v with map := (s.vol v).map, recs := (s.vol v).recs } = s.vol v ∧
    (t.vol v).map.map (fun m => m.1) = (s.vol v).map.map (fun m => m.1) ∧ (t.vol v).recs.map (fun r => r.seq) = (s.vol v).recs.map (fun r => r.seq)
  nv : { t.nv with
    vols := s.nv.vols, loss := s.nv.loss, luns := s.nv.luns, failed := s.nv.failed, single := s.nv.single, cairns := s.nv.cairns
    keys := { t.nv.keys with drawn := s.nv.keys.drawn } } = s.nv

/-! ### Self-tests -/

/-- From `s` to `t` the self-test `x` ends with a result: its record of 32 bytes goes first in page 0x08, the result's event is recorded, and
its command, and a stop request that ended it, complete with bytes 8 to 19 of the record. -/
def TestEnded (s : State) (x : SelfTest) (result step detail : Nat) (t : State) : Prop :=
  let r : Bytes := natLe 8 s.timeField ++ natLe 1 result ++ natLe 1 step ++ natLe 1 x.kind ++ natLe 1 (b2n (s.led.valid && decide (s.led.limit < 120000))) ++
    natLe 4 (ceilDiv (s.time.uptime - x.began) 25000) ++ natLe 4 detail ++ natLe 12 0
  let finish (a : State) (n tag : Nat) : State := match a.cmd? n tag with
    | some c => if c.opcode = 0x48 ∧ c.stage = .running then a.complete c 0 (natLe 4 0 ++ slice r 8 12) else a
    | none => a
  ∃ u v : State, u = { s.touch 8 with
      selfTest := none, nv := { s.nv with selfTests := (r :: s.nv.selfTests).take 16, lastSelf := result + 256 * x.kind } } ∧
    (if result ≤ 2 then Logs u (0x9002 + result) Src.selfTest x.kind (if result = 1 then step else 0) (if result = 1 then detail else 0) 0 v else v = u) ∧
    t = match x.stop with
      | some (n, tag) => finish (finish v x.ring x.tag) n tag
      | none => finish v x.ring x.tag

/-! ### The fabric -/

/-- A frame arrives at a port that is up, and finds room; `u` is the state with the frame's place in the receive buffer taken. -/
structure Arrives (s : State) (p : Nat) (f : Bytes) (fill : Nat) (u : State) : Prop where
  running : s.fabUp = true
  linked : s.portUp p = true
  held : u = s.noteFill p (bits (beAt f 14 2) 15 13) fill
  room : u.noRoom p (bits (beAt f 14 2) 15 13) fill = false

/-- The frame passes the checks 1 to 4 of R459: `h` is its header with the payload, `c` its connection. -/
structure Passes (u : State) (p : Nat) (f : Bytes) (c : Nat) (h : Bytes) : Prop where
  frame : u.frameOk p f true = true
  code : icrcOk (f.drop 18) = true
  head : h = frameInner (f.drop 18)
  conn : c = hDcid h
  bound : u.bound p f h = true
  tagged : u.tagged (f.drop 18) = true

/-! ### Roles -/

/-- The state with a challenge void. -/
def State.unchallenged (s : State) (path : Nat) : State := { s with roles := { s.roles with chal := s.roles.chal.erase path } }

/-- The state with a role held on a path. -/
def State.holding (s : State) (path role : Nat) : State :=
  { s with roles := { s.roles with
      pcie := if path = 0 then role else s.roles.pcie, usb := if path = 1 then role else s.roles.usb
      jtag := if 2 ≤ path then role == 2 else s.roles.jtag } }

/-- From `s` to `t` a path's role becomes `role`: a change voids its challenge, and one from another role than the operator's records
event 0x6022. -/
def RoleBecomes (s : State) (path role : Nat) (t : State) : Prop :=
  if s.roleOf path = role then t = s
  else ∃ v : State, t = v.holding path role ∧
    if s.roleOf path = 0 then v = s.unchallenged path
    else Logs (s.unchallenged path) 0x6022 Src.sec path (s.roleOf path) s.lastChal 0 v

/-- The 64 bytes of the next challenge on a path. -/
def State.nextChallenge (s : State) (path role : Nat) : Bytes :=
  ascii "QKCH" ++ [BitVec.ofNat 8 role, BitVec.ofNat 8 (b2n (!s.roles.flint.drbg) + 2 * b2n (role = 1 && s.installerKey.isNone)),
    BitVec.ofNat 8 path, 0] ++ natLe 8 s.nv.keys.nextChal ++
  (if s.roles.flint.drbg then (List.range 16).map fun i => Config.drbg (s.nv.keys.drawn + i) else List.replicate 16 0) ++
  calBytes 8 24 ++ natLe 4 s.time.cycles ++ natLe 4 0

/-- From `s` to `t` a challenge is issued: the next counter value is taken, from a block reserved before, and beside it only the
DRBG's place and requests and the journal change. -/
structure Issued (s : State) (path role : Nat) (t : State) : Prop where
  chal : t.roles.chal = s.roles.chal.put path { role := role, ctr := s.nv.keys.nextChal, bytes := s.nextChallenge path role }
  next : t.nv.keys.nextChal = s.nv.keys.nextChal + 1
  reserved : t.nv.keys.reserved =
    if s.nv.keys.reserved ≤ s.nv.keys.nextChal then s.nv.keys.reserved + 65536 else s.nv.keys.reserved
  drawn : t.nv.keys.drawn = if s.roles.flint.drbg then s.nv.keys.drawn + 16 else s.nv.keys.drawn
  keys : { t.nv.keys with nextChal := s.nv.keys.nextChal, reserved := s.nv.keys.reserved, drawn := s.nv.keys.drawn } = s.nv.keys
  roles : { t.roles with chal := s.roles.chal, flint := s.roles.flint } = s.roles
  flint : { t.roles.flint with requests := s.roles.flint.requests } = s.roles.flint
  rest : { t with nv := { t.nv with keys := s.nv.keys }, roles := s.roles, str := s.str } = s

/-- From `s` to `t` a right response to challenge `k` grants its role. -/
def Granted (s : State) (path : Nat) (k : Challenge) (t : State) : Prop :=
  ∃ u v w : State, u = (s.unchallenged path).commit ∧
    RoleBecomes { u with nv := { u.nv with keys := { u.nv.keys with rejects := u.nv.keys.rejects.erase path } } } path k.role v ∧
    Logs v (if k.role = 2 then 0x6012 else 0x6020) Src.sec path k.role (k.ctr % 2 ^ 32) 0 w ∧
    if path = 1 then Logs w 0x7040 Src.usb 1 k.role 0 0 t else t = w

/-- From `s` to `t` a response is rejected and counted; each fourth in a row starts a hold. -/
def Rejected (s : State) (path role : Nat) (t : State) : Prop :=
  ∃ u v w x : State, Logs s 0x6021 Src.sec path role s.lastChal 0 u ∧ Counts u 0x41 v ∧ (if path = 2 then Counts v 0x43 w else w = v) ∧
    x = { w.commit with nv := { w.commit.nv with keys := { w.nv.keys with
      rejects := w.nv.keys.rejects.put path (s.nv.keys.rejects.get 0 path + 1) } } } ∧
    match holdSeconds (s.nv.keys.rejects.get 0 path + 1) with
    | none => t = x
    | some h => Logs { x with nv := { x.nv with keys := { x.nv.keys with
        holds := x.nv.keys.holds.put path (s.time.uptime + msTicks (1000 * h)) } } } 0x6023 Src.sec path h 0 0 t

/-! ### Images -/

/-- From `s` to `t` the running trial image is confirmed: the boot record names it, and a floor flag raises the rollback floor to its
SVN with event 0x7030; event 0x7004. -/
def Confirmed (s t : State) : Prop :=
  ∃ u v : State, u = { s.writeBoot (fun b => { b with confirmed := s.nv.boot.trial, trial := 255, trialStarts := 0, trialMs := 0 }) with
      start := { s.start with trial := false } } ∧
    (let b := s.slotImage s.nv.boot.trial
     let n := min 64 (imgSvn b)
     if bit (imgFlags b) 1 ∧ s.nv.floor < n then Logs { u with nv := { u.nv with floor := n } } 0x7030 Src.image s.nv.floor n 0 0 v
     else v = u) ∧
    Logs v 0x7004 Src.image s.nv.boot.trial 0 0 0 t

/-- The slot that a download session fills: the one that is not confirmed. -/
def State.spareSlot (s : State) : Nat := if s.nv.boot.confirmed = 0 then 1 else 0

/-- From `s` to `t` a download session opens on a path: its slot is emptied, a trial of that slot ends with event 0x1013, event 0x7001. -/
def Begun (s : State) (path : Nat) (t : State) : Prop :=
  ∃ u : State, (if s.nv.boot.trial = s.spareSlot then
      Logs (s.writeBoot fun b => { b with trial := 255, trialStarts := 0, trialMs := 0 }) 0x1013 Src.start 0 0 0 0 u else u = s) ∧
    Logs { u with
      nv := { u.nv with pools := u.nv.pools.set {} s.spareSlot { readable := b2n (s.bootCopy 0) + 2 * b2n (s.bootCopy 1) } }
      img := { u.img with session := some (path, s.spareSlot), checked := u.img.checked.erase s.spareSlot } } 0x7001 Src.image path s.spareSlot 0 0 t

/-- From `s` to `t` the image of `len` bytes in pool `g` is committed with the code of its checks: a good one is named by the boot record
and ends the session with event 0x7002; any other counts 0x48 and records 0x7005. -/
def Committed (s : State) (g len code : Nat) (c : Copies) (t : State) : Prop :=
  ∃ u v : State, Steady u v ∧ u = { s with
      img := { s.img with lastStatus := code, checked := s.img.checked.put g (if code = 0 then 1 else 2), sram := (s.pool g).bytes len }
      nv := { s.nv with pools := s.nv.pools.set {} g { s.pool g with
        readable := b2n (s.bootCopy 0 && c.primary) + 2 * b2n (s.bootCopy 1 && c.mirror) } } } ∧
    if code = 0 then
      ∃ w : State, w = v.nameSlot g ((s.pool g).bytes len) ∧
        Logs { w with img := { w.img with session := none } } 0x7002 Src.image g (imgVersion ((s.pool g).bytes len)) 0 0 t
    else Logs v 0x7005 Src.image code 0 0 0 t ∧ Counts v 0x48 t

/-! ### The USB port -/

/-- The state as a new vendor request leaves it: a stream ends. -/
def State.unstreamed (s : State) : State := { s with usb := { s.usb with stream := none } }

/-- A vendor request: nothing while the port is not attached; STALLed where it is not `good`, after any stream has ended; else `done`
holds of its outcome. -/
def Vendor (s : State) (i : Instr) (good : Prop) (done : Host.Outcome State Fault Refusal → Prop) : Prop :=
  (¬ (s.dieUp = true ∧ s.usb.attached = true) → exec i s = .next s) ∧
  (s.dieUp = true → s.usb.attached = true → ¬ good → exec i s = .next { s.unstreamed with out := .usbStall :: s.out }) ∧
  (s.dieUp = true → s.usb.attached = true → good → done (exec i s))

/-! ### The host link -/

/-- From `s` to `t` only the host-facing units change (rings, channels, mailbox, the PCIe function and its path's role), the transfers
they had under way come back or, where their data was staged, are accepted, and records and counts are made. -/
structure HostSide (s t : State) : Prop where
  pending : t.pending = s.pending
  dev : t.dev = s.dev
  time : t.time = s.time
  bas : t.bas = s.bas
  vcore : t.vcore = s.vcore
  led : { t.led with charged := s.led.charged } = s.led
  pfw : t.pfw = s.pfw
  drain : t.drain = s.drain
  start : t.start = s.start
  eng : ∀ e, { t.engine e with ev := (s.engine e).ev } = s.engine e
  hooks : { t.hooks with queue := s.hooks.queue } = s.hooks
  roles : { t.roles with pcie := s.roles.pcie, chal := s.roles.chal } = s.roles
  tab : { t.tab with sync := s.tab.sync } = s.tab
  fl : t.fl = s.fl
  dram : t.dram = s.dram
  fab : t.fab = s.fab
  img : t.img = s.img
  usb : t.usb = s.usb
  jtag : t.jtag = s.jtag
  junction : t.junction = s.junction
  nv : { t.nv with vols := s.nv.vols, loss := s.nv.loss, cairns := s.nv.cairns } = s.nv

/-- From `s` to `t` the host-facing units are reset: an event, its count of resets, count 0x20; rings, channels and mailbox empty, their
registers at reset values, the function's configuration at its defaults (`keepAer`: but for its sticky errors), the operator's role. -/
def HostReset (s : State) (code : Nat) (count : Field) (keepAer : Bool) (t : State) : Prop :=
  ∃ u v : State, Logs s code Src.pcie 0 0 0 0 u ∧ Counts (u.countF count 1) 0x20 v ∧ HostSide v t ∧
    t.rings = [] ∧ t.chans = [] ∧ t.alloc.queue = [] ∧ t.mbx = {} ∧ t.roles.pcie = 0 ∧ t.roles.chal.get? 0 = none ∧
    (∀ f : Field, 32 * 0x1000 ≤ f.key ∧ f.key < 32 * 0x1080 ∨ 32 * 0x4000 ≤ f.key ∧ f.key < 32 * 0x4020 ∨
      32 * 0x2000 ≤ f.key ∧ f.key < 32 * 0x2A00 → (∀ g ∈ noticeFields, f.key ≠ g.key) → t.f f = f.reset) ∧
    (t.pcie.bme, t.pcie.msixEn, t.pcie.fnMask, t.pcie.d3, t.pcie.l1Asked, t.pcie.aer, t.pcie.ltr, t.pcie.msix) =
      (false, false, false, false, false, if keepAer then s.pcie.aer else 0, 1000, (List.range 16).map fun v => (16 * v + 12, 1))

/-! ### Belion -/

/-- The engine executes its next instruction, and another word of its program memory follows it. -/
def Runs (s : State) (e : Fin 10) : Prop := s.engineRuns e.val = true ∧ (s.engine e.val).pc + 4 < progSize e.val

/-- From `s` to `t` no engine but `e` changes, which becomes `x`, and nothing else of the device does. -/
structure Only (s : State) (e : Nat) (x : Engine) (t : State) : Prop where
  self : t.engine e = x
  others : ∀ d, d ≠ e → t.engine d = s.engine d
  rest : { t with eng := s.eng } = s

/-- The engine at the next instruction in sequence. -/
def Engine.next (x : Engine) : Engine := { x with pc := x.pc + 4 }

/-- The engine after a result: `r` goes to kd, and where S is 1 the flags say what `r`, `c` and `v` are. -/
def Engine.result (x : Engine) (f : Bool) (kd : BitVec 4) (r : Word) (c v : Bool) : Engine :=
  (({ x with
    z := if f then decide (r = 0) else x.z, n := if f then decide (r.toInt < 0) else x.n
    c := if f then c else x.c, v := if f then v else x.v } : Engine).setReg kd r).next

/-- From `s` to `t` the bytes `b` go to address `a` of the data memory that engine `e` sees, `e` becomes `x` but for its data, and
nothing else of the device changes. -/
structure Stored (s : State) (e a : Nat) (b : Bytes) (x : Engine) (t : State) : Prop where
  data : ∀ d j, (t.engine d).data.byte j = if d = dataHome e ∧ dataPlace e a ≤ j ∧ j < dataPlace e a + b.length then
    b.getD (j - dataPlace e a) 0 else (s.engine d).data.byte j
  engines : ∀ d, { t.engine d with data := (s.engine d).data } = if d = e then x else s.engine d
  rest : { t with eng := s.eng } = s

end Sys2Proof.Machine

namespace Sys2Proof

/-- The three commands that answer a challenge (R519, R527): on the PCIe path, the USB path and the JTAG path. -/
def Instr.answersChallenge : Instr → Bool
  | .roleResponse .. => true
  | .response .. => true
  | .qkrespWrite .. => true
  | _ => false

end Sys2Proof
end

