-- ==== Sys2Proof/Certificates/Slice0/Obligations.lean ====
section
/-! DEFINITION. The statements for the provers. Each says, of every state and operand that meets its hypotheses, what its commands answer. -/

open Sys2Proof Sys2Proof.Machine

/-- R135, R137, R146, major 0x01: on every kind of engine each register operation leaves its result in kd (nowhere for k0), with S
= 1 the flags its row names, every other flag and event flag as it was, and the PC at the next word; no other engine and nothing
else of the device changes. C of a sum is its carry, of a difference that there is no borrow, of a shift the last bit shifted out;
V is that the exact signed result does not fit. CMP and TST set flags whatever S holds.
The choices of the model that it rests on: assumptions 15 and 17. -/
def Obligations.ArithmeticAndLogic : Prop :=
  ∀ (s : State) (e : Fin 10) (kd ka kb : BitVec 4) (f : Bool), Runs s e →
    let x := s.engine e.val
    let a := x.reg ka
    let b := x.reg kb
    let n := b.toNat % 32
    let left := if n = 0 then x.c else a.getLsbD (32 - n)
    let right := if n = 0 then x.c else a.getLsbD (n - 1)
    let c := b2n x.c
    let sum := a + b + BitVec.ofNat 32 c
    let diff := a - b - BitVec.ofNat 32 (1 - c)
    let wide (v : Int) (r : Word) : Bool := decide (r.toInt ≠ v)
    let gives (i : Instr) (kd : BitVec 4) (f : Bool) (r : Word) (c v : Bool) : Prop :=
      Answers (exec i s) (Only s e.val (x.result f kd r c v))
    gives (.add e kd ka kb f) kd f (a + b) (2 ^ 32 ≤ a.toNat + b.toNat) (wide (a.toInt + b.toInt) (a + b)) ∧
    gives (.adc e kd ka kb f) kd f sum (2 ^ 32 ≤ a.toNat + b.toNat + c) (wide (a.toInt + b.toInt + c) sum) ∧
    gives (.sub e kd ka kb f) kd f (a - b) (b.toNat ≤ a.toNat) (wide (a.toInt - b.toInt) (a - b)) ∧
    gives (.sbc e kd ka kb f) kd f diff (b.toNat + (1 - c) ≤ a.toNat) (wide (a.toInt - b.toInt - (1 - c : Nat)) diff) ∧
    gives (.and e kd ka kb f) kd f (a &&& b) x.c x.v ∧
    gives (.or e kd ka kb f) kd f (a ||| b) x.c x.v ∧
    gives (.xor e kd ka kb f) kd f (a ^^^ b) x.c x.v ∧
    gives (.andn e kd ka kb f) kd f (a &&& ~~~b) x.c x.v ∧
    gives (.shl e kd ka kb f) kd f (a <<< n) left x.v ∧
    gives (.shr e kd ka kb f) kd f (a >>> n) right x.v ∧
    gives (.sar e kd ka kb f) kd f (a.sshiftRight n) right x.v ∧
    gives (.ror e kd ka kb f) kd f (a.rotateRight n) right x.v ∧
    gives (.mul e kd ka kb f) kd f (BitVec.ofNat 32 (a.toNat * b.toNat)) x.c x.v ∧
    gives (.mulhu e kd ka kb f) kd f (BitVec.ofNat 32 (a.toNat * b.toNat / 2 ^ 32)) x.c x.v ∧
    gives (.minu e kd ka kb f) kd f (BitVec.ofNat 32 (min a.toNat b.toNat)) x.c x.v ∧
    gives (.maxu e kd ka kb f) kd f (BitVec.ofNat 32 (max a.toNat b.toNat)) x.c x.v ∧
    gives (.cmp e ka kb f) 0 true (a - b) (b.toNat ≤ a.toNat) (wide (a.toInt - b.toInt) (a - b)) ∧
    gives (.tst e ka kb f) 0 true (a &&& b) x.c x.v ∧
    gives (.clz e kd ka f) kd f (BitVec.ofNat 32 (if a = 0 then 32 else 31 - Nat.log2 a.toNat)) x.c x.v ∧
    gives (.popc e kd ka f) kd f (BitVec.ofNat 32 ((List.range 32).countP a.getLsbD)) x.c x.v ∧
    gives (.bswap e kd ka f) kd f
      (a.extractLsb' 0 8 ++ a.extractLsb' 8 8 ++ a.extractLsb' 16 8 ++ a.extractLsb' 24 8) x.c x.v ∧
    gives (.crcw e kd ka kb f) kd f (crcRun a (natLe 4 b.toNat)) x.c x.v

/-- R146, majors 0x02 to 0x0A: on every kind of engine each immediate operation leaves its result in kd, with S = 1 the flags its
row names, every other flag and event flag as it was, and the PC at the next word; nothing else changes. The immediate is
sign-extended for ADDI and CMPI and zero-extended for ANDI, ORI, XORI and LUI; CMPI sets its flags whatever S holds.
The choices of the model that it rests on: assumptions 15 and 17. -/
def Obligations.ImmediateOperations : Prop :=
  ∀ (s : State) (e : Fin 10) (kd ka : BitVec 4) (f : Bool) (imm : BitVec 16) (m : BitVec 5), Runs s e →
    let x := s.engine e.val
    let a := x.reg ka
    let i := BitVec.ofInt 32 imm.toInt
    let u := BitVec.ofNat 32 imm.toNat
    let n := m.toNat
    let left := if n = 0 then x.c else a.getLsbD (32 - n)
    let right := if n = 0 then x.c else a.getLsbD (n - 1)
    let wide (v : Int) (r : Word) : Bool := decide (r.toInt ≠ v)
    let gives (i : Instr) (kd : BitVec 4) (f : Bool) (r : Word) (c v : Bool) : Prop :=
      Answers (exec i s) (Only s e.val (x.result f kd r c v))
    gives (.addi e kd ka f imm) kd f (a + i) (2 ^ 32 ≤ a.toNat + i.toNat) (wide (a.toInt + imm.toInt) (a + i)) ∧
    gives (.andi e kd ka f imm) kd f (a &&& u) x.c x.v ∧
    gives (.ori e kd ka f imm) kd f (a ||| u) x.c x.v ∧
    gives (.xori e kd ka f imm) kd f (a ^^^ u) x.c x.v ∧
    gives (.cmpi e ka f imm) 0 true (a - i) (i.toNat ≤ a.toNat) (wide (a.toInt - imm.toInt) (a - i)) ∧
    gives (.shli e kd ka f m) kd f (a <<< n) left x.v ∧
    gives (.shri e kd ka f m) kd f (a >>> n) right x.v ∧
    gives (.sari e kd ka f m) kd f (a.sshiftRight n) right x.v ∧
    gives (.lui e kd imm) kd false (BitVec.ofNat 32 (imm.toNat * 65536)) x.c x.v

/-- R141, R142, R146 to R148: a load puts the little-endian bytes at ka + simm, zero-extended, into kd, and changes no memory; a store
puts the low bytes of kd there, and no other byte of any data memory changes; SWP does both at once. The sandbox addresses its 2 KiB
window of Keystone's memory. Every flag stays, and the PC goes to the next word. In Keystone's register window a load and a store
are accesses on the Keystone path; the calibration row reads as its bytes and ignores stores.
The choices of the model that it rests on: assumptions 15, 16 and 24. -/
def Obligations.LoadsAndStores : Prop :=
  ∀ (s : State) (e : Fin 10) (kd ka : BitVec 4) (imm : BitVec 16), Runs s e →
    let x := s.engine e.val
    let a := (x.reg ka + BitVec.ofInt 32 imm.toInt).toNat
    let home := if e.val = 1 then 0 else e.val
    let at_ := if e.val = 1 then 0x7800 + a else a
    let value (n : Nat) := leNat ((s.engine home).data.bytes at_ n)
    let loads (i : Instr) (v : Nat) : Prop := Answers (exec i s) (Only s e.val (x.setReg kd (BitVec.ofNat 32 v)).next)
    let stores (i : Instr) (n : Nat) : Prop :=
      Answers (exec i s) (Stored s e.val a (natLe n ((x.reg kd).toNat % 256 ^ n)) x.next)
    let reads (i : Instr) (off n : Nat) : Prop :=
      let r := s.busRead .keystone off n
      Answers (exec i s) (Only r.2 e.val { (r.2.engine e.val).setReg kd (BitVec.ofNat 32 r.1) with pc := x.pc + 4 })
    let writes (i : Instr) (off n : Nat) : Prop :=
      let t := s.busWrite .keystone off n ((x.reg kd).toNat % 256 ^ n)
      Answers (exec i s) (Only t e.val { t.engine e.val with pc := x.pc + 4 })
    (a < dataSize e.val →
      (a % 4 = 0 → loads (.ldw e kd ka imm .clean) (value 4) ∧ stores (.stw e kd ka imm .clean) 4 ∧
        Answers (exec (.swp e kd ka imm .clean) s) (Stored s e.val a (natLe 4 (x.reg kd).toNat)
          (x.setReg kd (BitVec.ofNat 32 (value 4))).next)) ∧
      (a % 2 = 0 → loads (.ldh e kd ka imm .clean) (value 2) ∧ stores (.sth e kd ka imm .clean) 2) ∧
      loads (.ldb e kd ka imm .clean) (value 1) ∧ stores (.stb e kd ka imm .clean) 1) ∧
    (e.val = 0 → ∀ (c : MemCheck) (off : Nat), off < 0x10000 → a = 0x100000 + off →
      (a % 4 = 0 → reads (.ldw e kd ka imm c) off 4) ∧
      (a % 4 = 0 → writes (.stw e kd ka imm c) off 4) ∧
      (a % 2 = 0 → writes (.sth e kd ka imm c) off 2) ∧ writes (.stb e kd ka imm c) off 1) ∧
    (e.val = 0 → ∀ (c : MemCheck) (off : Nat), off < 0x800 → a = 0x180000 + off →
      (a % 4 = 0 → loads (.ldw e kd ka imm c) (leNat ((List.range 4).map fun i => s.calByte (off + i))) ∧
        Answers (exec (.stw e kd ka imm c) s) (Only s e.val x.next)))

/-- R146, R149 and the table of conditions: a branch or call whose condition holds goes to its own address plus 4 times the offset, and
to the next word otherwise; a call leaves the address of the next word in k15. JR and JALR go to ka plus the immediate, and JALR
leaves the address of the next word in kd. No flag and nothing else changes. Targets outside program memory are not covered here.
The choices of the model that it rests on: assumption 15. -/
def Obligations.BranchesAndJumps : Prop :=
  ∀ (s : State) (e : Fin 10) (kd ka cond : BitVec 4) (off : BitVec 22) (imm : BitVec 16) (target : Nat), Runs s e →
    target % 4 = 0 → target < progSize e.val →
    let x := s.engine e.val
    let holds := [true, x.z, !x.z, x.c, !x.c, x.c && !x.z, !x.c || x.z, x.n == x.v, x.n != x.v, !x.z && x.n == x.v,
      x.z || x.n != x.v, x.n, !x.n, x.v, !x.v].getD cond.toNat false
    let back := BitVec.ofNat 32 (x.pc + 4)
    let goes (i : Instr) (y : Engine) : Prop := Answers (exec i s) (Only s e.val { y with pc := target })
    (holds = true → (target : Int) = x.pc + 4 * off.toInt →
      goes (.bCond e cond off) x ∧ goes (.callCond e cond off) (x.setReg 15 back)) ∧
    (cond ≠ 15 → holds = false → Answers (exec (.bCond e cond off) s) (Only s e.val x.next) ∧
      Answers (exec (.callCond e cond off) s) (Only s e.val x.next)) ∧
    (target = (x.reg ka + BitVec.ofInt 32 imm.toInt).toNat →
      goes (.jr e ka imm) x ∧ goes (.jalr e kd ka imm) (x.setReg kd back))

/-- R139, R140, R150, R151: WAIT returns at once with the masked flags, which it clears, Z = 0 and N = 0, or else the engine waits with
its limit from now. A wait ends by a masked flag in the same way, or by its limit with 0, Z = 1 and N = 0, where a masked flag of the
same instant stays set and counts in trouble counter 0x21. SEV raises flags E8 to E15, ECLR returns and clears the named ones, EGET
returns them. Flags not named stay, as does everything else; PC and waiting apart.
The choices of the model that it rests on: assumptions 15 and 17. -/
def Obligations.EventInstructions : Prop :=
  ∀ (s : State) (e : Fin 10) (kd ka : BitVec 4) (f : Bool) (mask : BitVec 16) (hi : BitVec 8) (w : Wait),
    let x := s.engine e.val
    let gives (i : Instr) (y : Engine) : Prop := Answers (exec i s) (Only s e.val y)
    (Runs s e →
      (x.ev &&& mask ≠ 0 → gives (.wait e kd ka f mask)
        (({ x with ev := x.ev &&& ~~~mask, z := false, n := false } : Engine).setReg kd ((x.ev &&& mask).setWidth 32)).next) ∧
      (x.ev &&& mask = 0 → ¬ (mask = 0 ∧ x.reg ka = 0) → gives (.wait e kd ka f mask)
        { x with waiting := some { kd := kd, mask := mask, limit := (x.reg ka).toNat, start := s.time.uptime } }) ∧
      gives (.sev e hi) ({ x with ev := x.ev ||| BitVec.ofNat 16 (hi.toNat * 256) } : Engine).next ∧
      gives (.eclr e kd mask) (({ x with ev := x.ev &&& ~~~mask } : Engine).setReg kd ((x.ev &&& mask).setWidth 32)).next ∧
      gives (.eget e kd mask) (x.setReg kd ((x.ev &&& mask).setWidth 32)).next) ∧
    (s.waitEnds e.val = true → x.pc + 4 < progSize e.val → x.waiting = some w →
      (x.ev &&& w.mask ≠ 0 → gives (.waitEnd e false)
        (({ x with ev := x.ev &&& ~~~w.mask, z := false, n := false, waiting := none } : Engine).setReg w.kd
          ((x.ev &&& w.mask).setWidth 32)).next) ∧
      (w.limit ≠ 0 → x.ev &&& w.mask = 0 → gives (.waitEnd e true)
        (({ x with z := true, n := false, waiting := none } : Engine).setReg w.kd 0).next) ∧
      (w.limit ≠ 0 → x.ev &&& w.mask ≠ 0 → Answers (exec (.waitEnd e true) s) fun t => ∃ u, Counts s 0x21 u ∧
        Only u e.val { (({ u.engine e.val with z := true, n := false, waiting := none } : Engine).setReg w.kd 0) with
          pc := x.pc + 4 } t))

/-- R146 (major 0x28), R171, R224 to R230: on Keystone, and on the sandbox for granted bits and slots, the mailbox instructions read and
change the mailbox as their rows say: MBDB sets device-to-host bits, MBACK clears host-to-device bits and returns those it cleared
(Z by S), MBRD and MBWR read and write a slot word, MBSEND posts a free slot and says whether it did (Z), MBFREE releases a slot,
MBSTAT returns the full slots and timeout flags. The PC goes to the next word, and no other engine, register or memory changes.
The choices of the model that it rests on: assumptions 15 and 18. -/
def Obligations.MailboxInstructions : Prop :=
  ∀ (s : State) (e : Fin 10) (kd ka kb : BitVec 4) (f : Bool), Runs s e → e.val ≤ 1 → s.mbxUp = true →
    let x := s.engine e.val
    let b := (x.reg ka).toNat
    let n := b % 8
    let w := 64 * n + 4 * ((x.reg kb).toNat % 16)
    let may (grant : Bytes → Nat) (set : Nat) : Prop := e.val = 1 → grant s.hookEntry ||| set = grant s.hookEntry
    let full := bit s.mbx.d2hFull n
    let count := bits s.mbx.seq (4 * n + 3) (4 * n)
    let next (u : State) : Engine := { u.engine e.val with pc := x.pc + 4 }
    (may grantD2h b → Answers (exec (.mbdb e ka) s) fun t => ∃ u, Only u e.val (next u) t ∧
      (b &&& (0xFFFFFFFF - s.mbx.d2hBits % 2 ^ 32) &&& (0xFFFFFFFF - s.f Reg.d2hMask) = 0 →
        u = { s with mbx.d2hBits := s.mbx.d2hBits ||| b }) ∧
      (b &&& (0xFFFFFFFF - s.mbx.d2hBits % 2 ^ 32) &&& (0xFFFFFFFF - s.f Reg.d2hMask) ≠ 0 →
        u = ({ s with mbx.d2hBits := s.mbx.d2hBits ||| b } : State).signal (s.f Reg.mbxVector))) ∧
    (may grantH2d b → Answers (exec (.mback e kd ka f) s) (Only
      { s with mbx.h2dBits := s.mbx.h2dBits - (s.mbx.h2dBits &&& b) } e.val
      (let y := x.setReg kd (BitVec.ofNat 32 (s.mbx.h2dBits &&& b))
       ({ y with z := if f then decide (s.mbx.h2dBits &&& b = 0) else x.z } : Engine).next))) ∧
    (may grantH2dSlots (2 ^ n) → Answers (exec (.mbrd e kd ka kb) s)
      (Only s e.val (x.setReg kd (BitVec.ofNat 32 (leNat (s.mbx.h2d.bytes w 4)))).next)) ∧
    (may grantD2hSlots (2 ^ n) → Answers (exec (.mbwr e kd ka kb) s)
      (Only { s with mbx.d2h := s.mbx.d2h.setBytes w (natLe 4 (x.reg kd).toNat) } e.val x.next)) ∧
    (may grantD2hSlots (2 ^ n) → full = true → Answers (exec (.mbsend e kd ka f) s)
      (Only s e.val (({ x.setReg kd 0 with z := true } : Engine).next))) ∧
    (may grantD2hSlots (2 ^ n) → full = false → Answers (exec (.mbsend e kd ka f) s) fun t => ∃ u,
      Steady { s.mbxBoundary with
        mbx.d2hFull := withBit s.mbx.d2hFull n true
        mbx.seq := s.mbx.seq - count * 2 ^ (4 * n) + (count + 1) % 16 * 2 ^ (4 * n) } u ∧
      Only u e.val { (u.engine e.val).setReg kd 1 with z := false, pc := x.pc + 4 } t) ∧
    (may grantH2dSlots (2 ^ n) → bit s.mbx.h2dFull n = true → Answers (exec (.mbfree e ka) s) fun t => ∃ u,
      Steady { s with mbx.h2dFull := withBit s.mbx.h2dFull n false } u ∧ Only u e.val (next u) t) ∧
    Answers (exec (.mbstat e kd) s) (Only s e.val
      (x.setReg kd (BitVec.ofNat 32 (s.mbx.h2dFull + 256 * s.mbx.d2hFull + 65536 * s.mbx.d2hTo))).next)

/-- R146 (majors 0x2C to 0x2E), R18, R152, R153: Keystone reads a word of any cached entry and a Vein engine one of a LUN of its own
channel; TWR writes a word of a stored entry alone; TSYNC starts a sync (kd 0, Z 1), or is dropped while one is busy (kd 1, Z 0,
event 0x1042 and a count). TIMEL and CLKL return the low half of their counter and latch the high half for this engine, which TIMEH and
CLKH return. NOP and FENCE do nothing. The PC goes to the next word, and nothing else changes.
The choices of the model that it rests on: assumption 15. -/
def Obligations.TablesTimeAndNothing : Prop :=
  ∀ (s : State) (e : Fin 10) (kd ka kb : BitVec 4) (f : Bool), Runs s e →
    let x := s.engine e.val
    let t := (x.reg ka).toNat % 8
    let i := (x.reg ka).toNat / 256 % 256
    let w := (x.reg kb).toNat
    let word (m : Map Bytes) : Map Bytes := m.set [] i (overlay (m.get [] i) (4 * w) (natLe 4 (x.reg kd).toNat))
    let conn := word s.tab.connStored
    let lun := word s.tab.lunStored
    let gives (i : Instr) (y : Engine) : Prop := Answers (exec i s) (Only s e.val y.next)
    let sets (v : Nat) : Engine := x.setReg kd (BitVec.ofNat 32 v)
    (t < 4 → i < tableCount t → 4 * w < tableEntry t → e.val = 0 ∨ (2 ≤ e.val ∧ t = 3 ∧ i / 16 = e.val - 2) →
      gives (.tld e kd ka kb) (sets (leAt (s.cachedEntry t i) (4 * w) 4))) ∧
    (e.val = 0 → i < tableCount t → 4 * w < tableEntry t →
      (t = 2 → Answers (exec (.twr e kd ka kb) s) (Only { s with tab.connStored := conn } e.val x.next)) ∧
      (t = 3 → Answers (exec (.twr e kd ka kb) s) (Only { s with tab.lunStored := lun } e.val x.next))) ∧
    (e.val = 0 → t < 4 → i < tableCount t → s.tab.sync = none → Answers (exec (.tsync e kd ka f) s) fun v => ∃ u y,
      Only u e.val { (sets 0) with z := true, pc := x.pc + 4 } v ∧ { u with csr := s.csr, tab := s.tab, out := s.out } = s ∧
      u.tab = { s.tab with sync := some y } ∧ y.table = t ∧ y.index = i ∧ y.data = none ∧
      u.f Reg.syncTable = t ∧ u.f Reg.syncIndex = i ∧ u.f Reg.syncBusy = 1) ∧
    (e.val = 0 → t < 4 → i < tableCount t → s.tab.sync ≠ none → Answers (exec (.tsync e kd ka f) s) fun v => ∃ u,
      Logs s 0x1042 Src.keystone t i 0 0 u ∧ Counts s 0x0F u ∧
      Only u e.val { (u.engine e.val).setReg kd 1 with z := false, pc := x.pc + 4 } v) ∧
    gives (.timel e kd ka kb) { sets s.time.uptime with upHold := s.time.uptime / 2 ^ 32 } ∧
    gives (.timeh e kd ka kb) (sets x.upHold) ∧
    gives (.clkl e kd ka kb) { sets s.time.calendar with calHold := s.time.calendar / 2 ^ 32 } ∧
    gives (.clkh e kd ka kb) (sets x.calHold) ∧
    gives (.nop e) x ∧ gives (.fence e kd ka kb) x

/-- R156 to R158: with no transfer under way on its channel, a Vein engine's bus operation puts its cycle on the bus: CESEL selects a chip
enable, CMD, ADDR and DOUTM send bytes, DINM and RDB bring the bytes the bus returns into data memory and kd (Z), DOUT and DIN start a
transfer, BRES returns the last result, BDLY idles 10 ns times the value, WPSET drives the protect pin, BMODE sets the interface that
every LUN of the channel allows. The PC goes to the next word and nothing else changes; while a transfer runs the engine stays.
The choices of the model that it rests on: assumptions 15 and 19. -/
def Obligations.BusOperations : Prop :=
  ∀ (s : State) (e : Fin 10) (kd ka : BitVec 4) (p : BitVec 12) (n : BitVec 3) (data : Bytes) (byte : BitVec 8),
    2 ≤ e.val → Runs s e →
    let x := s.engine e.val
    let ch := e.val - 2
    let c := s.fchan ch
    let a := (x.reg ka).toNat
    let v := (a + p.toNat) % 2 ^ 32
    let first := a % 256
    let count := a / 256 % 256
    let gives (i : Instr) (u : State) (o : BusCycle) : Prop := Answers (exec i s) (Only { u with out := .flash ch o :: u.out } e.val x.next)
    (c.transfer = none →
      gives (.cesel e ka p) (s.setFchan ch { c with ce := v % 4 }) (.select (v % 4)) ∧
      gives (.cmd e ka p) s (.command (BitVec.ofNat 8 v)) ∧
      (1 ≤ n.toNat → n.toNat ≤ 4 → gives (.addr e ka n) s (.address (natLe n.toNat a))) ∧
      (1 ≤ count → count ≤ 8 → gives (.dout e ka) (s.setFchan ch { c with transfer := some false }) (.encode first count)) ∧
      (1 ≤ count → count ≤ 8 →
        gives (.din e ka p) (s.setFchan ch { c with transfer := some true }) (.decode first count (p.toNat % 4))) ∧
      Answers (exec (.bres e kd ka) s) (Only s e.val (x.setReg kd (BitVec.ofNat 32 c.bres)).next) ∧
      (1 ≤ p.toNat → p.toNat ≤ 256 → a + p.toNat ≤ 4096 →
        gives (.doutm e ka p) s (.bytesOut ((s.engine e.val).data.bytes a p.toNat)) ∧
        (data.length = p.toNat → Answers (exec (.dinm e ka p data) s)
          (Stored { s with out := .flash ch (.bytesIn p.toNat) :: s.out } e.val a data x.next))) ∧
      Answers (exec (.rdb e kd byte) s) (Only { s with out := .flash ch .readByte :: s.out } e.val
        { (x.setReg kd (byte.setWidth 32)) with z := decide (byte = 0), pc := x.pc + 4 }) ∧
      gives (.bdly e kd ka p) s (.idle (10 * (v % 4096))) ∧
      gives (.wpset e kd ka p) (s.setFchan ch { c with wpHigh := v % 2 = 1 }) (.protect (v % 2 = 1)) ∧
      (s.modeAllowed ch (v % 4) (v / 16 % 16) = true → gives (.bmode e kd ka p)
        (((s.takeStaged [Reg.rxDly ch]).setF (Reg.chMode ch) (v % 4)).setF (Reg.chTiming ch) (v / 16 % 16))
        (.interface (v % 4) (v / 16 % 16)))) ∧
    (c.transfer ≠ none → exec (.cmd e ka p) s = .next s ∧ exec (.cesel e ka p) s = .next s ∧ exec (.bres e kd ka) s = .next s)

/-- R159: with an aligned place in data memory and no operation in progress, OPGET returns all ones and Z = 1 when the die scheduler has
no operation to hand out; else it takes the operation picked: the channel holds it under the next handle, which is returned with Z = 0,
its 32-byte descriptor lies at the address, E2 is clear, SAFE_n is released when it programs or erases (R107), and the PC goes to the
next word. OPDONE with the handle in progress ends the
operation with its outcome (R161), and one that lost to its expiry counts as late.
The choices of the model that it rests on: assumptions 15, 19 and 55. -/
def Obligations.OperationQueueInstructions : Prop :=
  ∀ (s : State) (e : Fin 10) (kd ka : BitVec 4) (p : BitVec 12) (o : FOp), 2 ≤ e.val → Runs s e →
    let x := s.engine e.val
    let c := s.fchan (e.val - 2)
    let a := ((x.reg ka).toNat + p.toNat) % 2 ^ 32
    let next (u : State) : Engine := { u.engine e.val with pc := x.pc + 4 }
    (a % 32 = 0 → a + 32 ≤ 4096 → c.cur = none →
      (c.pick s.mayIssue = none → Answers (exec (.opget e kd ka p) s)
        (Only s e.val { x.setReg kd 0xFFFFFFFF with z := true, pc := x.pc + 4 })) ∧
      (c.pick s.mayIssue = some o → Answers (exec (.opget e kd ka p) s) fun t =>
        let got := { o with suspendable := o.suspendable && decide (o.suspends < 16) }
        t.fchan (e.val - 2) = { c with
          queue := c.queue.erase o, cur := some got, handle := (c.handle + 1) % 16, since := s.time.uptime, late := 0 } ∧
        (let y := t.engine e.val
         y.k = (x.setReg kd (BitVec.ofNat 32 ((c.handle + 1) % 16))).k ∧ y.z = false ∧ y.n = x.n ∧ y.c = x.c ∧ y.v = x.v ∧
         y.ev = x.ev &&& ~~~4#16 ∧ y.pc = x.pc + 4 ∧ y.run = x.run ∧ y.data = x.data.setBytes a (s.opBytes got)) ∧
        (∀ d, d ≠ e.val → t.engine d = s.engine d) ∧ t.pending = s.pending ∧ t.csr = s.csr ∧
        t.bas = if 2 ≤ o.kind ∧ o.kind ≤ 4 then { s.bas with safeReleased := true } else s.bas)) ∧
    (c.cur = some o → c.handle = (x.reg ka).toNat % 16 →
      let u := s.endOp (e.val - 2) o (p.toNat % 16)
      Answers (exec (.opdone e ka p) s) (Only u e.val (next u))) ∧
    (c.cur = none → c.late = (x.reg ka).toNat % 16 + 1 → Answers (exec (.opdone e ka p) s) fun t => ∃ u,
      Counts (s.setFchan (e.val - 2) { c with late := 0 }) 0x21 u ∧ Only u e.val (next u) t)

/-- R157, R161, R363, R364, R368, R369: the end of a bus transfer frees the bus, leaves a DIN's result word and raises E3, and with an
interface error also sets bit 24 of the result, raises E5, counts 0x10 and notes the time; the sixteenth within a second fails the
channel. An overdue report fails the channel after event 0x3051. A read that waits asks a suspendable operation to suspend by E2; 2 ms
after a suspension the operation is queued again, resumed, at class 4 or better. A LUN that stays busy 10 ms after its reset fails.
The choices of the model that it rests on: assumptions 6 and 54. -/
def Obligations.DieScheduler : Prop :=
  ∀ (s : State) (ch : Fin 8) (lun : Fin 128) (result : BitVec 24) (input : Bool) (o : FOp), s.dieUp = true →
    let c := s.fchan ch.val
    let k := lunChannel lun.val
    let d := s.fchan k
    let e := 2 + ch.val
    let left := if input then result.toNat else c.bres % 2 ^ 24
    let errs := s.time.uptime :: c.errs.filter fun t => s.time.uptime < t + 25000000
    (c.transfer = some input →
      Answers (exec (.busTransferEnd ch result false) s) (Only (s.setFchan ch.val { c with transfer := none, bres := left }) e
        { s.engine e with ev := (s.engine e).ev ||| 8 }) ∧
      (errs.length < 16 → Answers (exec (.busTransferEnd ch result true) s) fun t => ∃ u : State,
        t = u.bump 0x10 ∧ u.fchan ch.val = { c with transfer := none, bres := left + 2 ^ 24, errs := errs } ∧
        (u.engine e).ev = (s.engine e).ev ||| 0x28 ∧ u.f (Reg.errIface ch.val) = min 0xFFFF (s.f (Reg.errIface ch.val) + 1) ∧
        { u with eng := s.eng, fl := s.fl, csr := s.csr } = s)) ∧
    (c.cur = some o → Answers (exec (.veinReportTimeout ch) s) fun t => ∃ u : State,
      Logs ((s.setFchan ch.val { c with cur := none, late := c.handle + 1 }).opUndone o) 0x3051 Src.dieSched ch.val 0 0 0 u ∧
      t = u.failChannel ch.val) ∧
    (bit s.nv.failed.channels ch.val = false →
      (s.failChannel ch.val).nv.failed.channels = withBit s.nv.failed.channels ch.val true ∧
      ((s.failChannel ch.val).fchan ch.val).queue = [] ∧ ((s.failChannel ch.val).fchan ch.val).susp = []) ∧
    (c.cur = some o → o.suspendable = true → o.suspends < 16 → s.bas.freeze = false →
      Answers (exec (.suspendRequest ch) s) (Only s e { s.engine e with ev := (s.engine e).ev ||| 4 })) ∧
    (d.susp.find? (fun o => o.lun == lun.val) = some o → s.bas.freeze = false → Answers (exec (.resumeDeadline lun) s) (Only
      (s.setFchan k { d with
        susp := d.susp.erase o, queue := d.queue ++ [{ o with resume := true, cls := min o.cls 4 }] }) (2 + k)
      { s.engine (2 + k) with ev := (s.engine (2 + k)).ev ||| 2 })) ∧
    Answers (exec (.lunResetTimeout lun) s) (fun t => t = s.failLun lun.val 3) ∧
    (∀ cause, ((s.markLun lun.val cause).lun lun.val).failed = cause)

/-- R163 to R168, R549: on Keystone, HALT ends the supervisor program; WDKICK has no effect but time; VLOAD and HLOAD load the section at
the multiple of 64 in ka and return its result code; IMGCHK returns the image status and counts a failed check; SETSTATE returns 1 and
changes nothing for a request that is refused, and 0 with its effect for one that is accepted. PC to the next word.
The choices of the model that it rests on: assumptions 15, 19, 20 and 34. -/
def Obligations.KeystoneOperations : Prop :=
  ∀ (s : State) (e : Fin 10) (kd ka : BitVec 4) (p : BitVec 12), e.val = 0 → Runs s e →
    let x := s.engine 0
    let a := (x.reg ka).toNat
    let code := imageCode s.nv.floor (s.img.sram.drop a)
    let loaded (k : Nat) : State × Nat := s.loadSection k true (s.img.sram.drop a)
    let halted : Engine := { x with run := false, stepping := false, dbg := false }
    let gives (i : Instr) (u : State) (v : Nat) : Prop := Answers (exec i s)
      (Only u 0 { (u.engine 0).setReg kd (BitVec.ofNat 32 v) with pc := x.pc + 4 })
    (s.dev = .rom ∨ s.dev = .starting → Answers (exec (.halt e kd ka p) s) (Only s 0 halted.next)) ∧
    Answers (exec (.halt e kd ka p) s) (fun t => let u := (s.setEngine 0 halted).supervisorStopped
      Only u 0 { u.engine 0 with pc := x.pc + 4 } t) ∧
    Answers (exec (.wdkick e) s) (Only s 0 x.next) ∧
    (s.dev = .rom ∨ s.dev = .starting → s.bas.freeze = false → a % 64 = 0 →
      ((loaded 2).2 = 1 → gives (.vload e kd ka p) (loaded 2).1 1) ∧
      ((loaded 1).2 = 1 → gives (.hload e kd ka p) (loaded 1).1 1) ∧
      ((loaded 1).2 ≠ 1 → Answers (exec (.hload e kd ka p) s) fun t => ∃ u,
        Logs ((loaded 1).1.setEngine 0 (((loaded 1).1.engine 0).setReg kd (BitVec.ofNat 32 (loaded 1).2))) 0x7010 Src.start 1 (loaded 1).2 0 0 u ∧
        Only u 0 { u.engine 0 with pc := x.pc + 4 } t)) ∧
    (code = 0 → gives (.imgchk e kd ka p) s 0) ∧
    (code ≠ 0 → Answers (exec (.imgchk e kd ka p) s) fun t => ∃ u,
      Counts s 0x48 u ∧ Only u 0 { (u.engine 0).setReg kd (BitVec.ofNat 32 code) with pc := x.pc + 4 } t) ∧
    ((s.askState a).2 = true → gives (.setstate e kd ka p) (s.askState a).1 0) ∧
    (a % 16 ≠ 2 → a % 16 ≠ 3 → a % 16 ≠ 8 → gives (.setstate e kd ka p) s 1)

/-- R170 to R174, R470, R498: HEND ends the running hook with its result; CFIRE triggers a cairn and returns 0 when it fires; GPOUT drives
each named GPIO to its bit of ka and GPIN returns the levels; HLOG records event 0xA100 + n. A trigger of an enabled entry queues one
request, or merges with one that waits; HOOK_START gives the oldest request the sandbox with k1 to k3 set and every other register and
flag 0; 75 % of the budget raises E7; its end abandons the hook.
The choices of the model that it rests on: assumptions 15 and 21. -/
def Obligations.HooksAndSharedOperations : Prop :=
  ∀ (s : State) (e : Fin 10) (kd ka : BitVec 4) (p : BitVec 12) (i : Fin 16) (r : HookReq) (rest : List HookReq),
    let x := s.engine e.val
    let h := s.engine 1
    let c := (x.reg ka).toNat % 512
    let entry := (s.hooks.table[r.entry]?).getD []
    let gives (i : Instr) (u : State) (v : Nat) : Prop := Answers (exec i s)
      (Only u e.val { (u.engine e.val).setReg kd (BitVec.ofNat 32 v) with pc := x.pc + 4 })
    (Runs s e → e.val ≤ 1 →
      (e.val = 1 → Answers (exec (.hend e p) s) (Only
        { s with hooks := { s.hooks with busy := false, result := p.toNat, abandoned := s.hooks.abandoned.erase s.hooks.entry } } 1
        { h with run := false, stepping := false, waiting := none, pc := h.pc + 4 })) ∧
      (e.val = 0 ∨ grantCairn s.hookEntry c → gives (.cfire e kd ka p) (s.trigger c 4).1 (s.trigger c 4).2) ∧
      (s.dev.serves → s.bas.freeze = false → (s.cairn c).state = 1 → s.crn.queue.length < 32 → s.inGap (s.cairn c) = false →
        (s.trigger c 4).2 = 0 ∧ ((s.trigger c 4).1.cairn c).state = 2 ∧
        ∃ f, (s.trigger c 4).1.crn.queue = s.crn.queue ++ [f] ∧ f.cairn = c ∧ f.kind = 4 ∧ f.t0 = s.time.uptime) ∧
      (let named := (List.range 4).filter (p.toNat.testBit ·)
       e.val = 0 ∨ (∀ g ∈ named, bit (grantGpioOut s.hookEntry) g = true) → Answers (exec (.gpout e kd ka p) s) fun t =>
        let u := named.foldl (fun t g => t.setLevel g ((x.reg ka).toNat.testBit g)) s
        Only u e.val { u.engine e.val with pc := x.pc + 4 } t) ∧
      gives (.gpin e kd ka p) s (s.time.gpioIn % 16) ∧
      (Answers (exec (.hlog e kd ka p) s) fun t => ∃ u, Logs s (0xA100 + p.toNat % 256)
        (if e.val = 0 then Src.keystone else Src.hook) (x.reg ka).toNat (x.reg kd).toNat 0 0 u ∧
        Only u e.val { u.engine e.val with pc := x.pc + 4 } t)) ∧
    (s.hooksUp = true →
      (bit (s.f Reg.hookEn) i.val → hookTrig ((s.hooks.table[i.val]?).getD []) ≠ 0 → (∀ q ∈ s.hooks.queue, q.entry ≠ i.val) →
        Answers (exec (.hookTrigger i) s) fun t => t.hooks.queue = s.hooks.queue ++ [⟨i.val, s.time.uptime % 2 ^ 32⟩] ∧
          (t.engine 0).ev.getLsbD 5 = true ∧ (s.hooks.busy = true → (t.engine 1).ev.getLsbD 5 = true) ∧ Steady s t) ∧
      (s.hooks.queue = r :: rest → s.hooks.busy = false → h.dbg = false → Answers (exec .hookStart s) fun t =>
        let y := t.engine 1
        t.hooks.queue = rest ∧ t.hooks.entry = r.entry ∧ t.hooks.busy = true ∧ y.run = true ∧ y.pc = hookAddr entry ∧
        y.reg 1 = BitVec.ofNat 32 r.entry ∧ y.reg 2 = BitVec.ofNat 32 (hookDetail entry) ∧
        y.reg 3 = BitVec.ofNat 32 r.trigger ∧ (∀ q : BitVec 4, q ≠ 1 → q ≠ 2 → q ≠ 3 → y.reg q = 0) ∧
        y.z = false ∧ y.n = false ∧ y.c = false ∧ y.v = false ∧ y.waiting = none ∧ y.data = h.data ∧ y.prog = h.prog ∧
        { t with eng := s.eng, hooks := s.hooks } = s) ∧
      (s.hooks.busy = true → Answers (exec .hookBudgetWarning s) (Only s 1 { h with ev := h.ev ||| 0x80 })) ∧
      (s.hooks.busy = true → Answers (exec .hookBudgetExpiry s) fun t =>
        t.hooks.busy = false ∧ (t.engine 1).run = false ∧ (t.engine 1).waiting = none ∧ t.pending = s.pending ∧ t.time = s.time ∧
        ∃ u, Logs s 0xA011 Src.hook s.hooks.entry 0 0 0 u ∧ t = u.abandonHook))

/-- R7 to R10, R12 to R15, R522: a reserved address reads as 0 and a write to it is ignored and counted in 0x03. A read of a low half
latches the high half on its path, in a holding register of its own, which the next read of the high address returns; it reads 0 until
then (R10). A static write to idle rings is kept, to
running ones dropped, with its address held and events. A field of class B waits for its boundary and reads as staged; without the
role the write is dropped and counted. One of class L is written at once. W1C clears what is written as 1, RC clears when read.
The choices of the model that it rests on: assumptions 25 and 27. -/
def Obligations.RegisterAccess : Prop :=
  ∀ (s : State) (p : Path) (a : BitVec 20) (v : Word) (x : L64) (n : Fin 8), s.reaches p = true → s.dev ≠ .recovery →
    let w := v.toNat
    let wr (a : BitVec 20) := exec (.registerWrite p a v .b4) s
    let errs := [Reg.errPoison, Reg.errCplTo, Reg.errUnexp, Reg.errFatal]
    let resets := [Reg.resetsFlr, Reg.resetsHot, Reg.resetsPerst, Reg.resetsDegrade]
    (a.toNat < 0x10000 → a.toNat % 4 = 0 → inDebug a.toNat = false → a.toNat < 0x800 ∨ 0x908 ≤ a.toNat → regWriter a.toNat = none →
      exec (.readClear p a .b4) s = .next (s.emit (.regRead 0)) ∧ Answers (wr a) (Counts s 0x03)) ∧
    (∀ t : State, t = ({ s with time.holding := s.time.holding.set 0 (holdKey p x) (s.wide x / 2 ^ 32 % 2 ^ 32) } : State).emit
        (.regRead (s.wide x % 2 ^ 32)) →
      exec (.l64LowRead p x) s = .next t ∧
      exec (.readClear p (BitVec.ofNat 20 (l64Offset x + 4)) .b4) t = .next (t.emit (.regRead (s.wide x / 2 ^ 32 % 2 ^ 32)))) ∧
    (exec (.readClear p (BitVec.ofNat 20 (l64Offset x + 4)) .b4) s = .next (s.emit (.regRead (s.time.holding.get 0 (holdKey p x) % 2 ^ 32))) ∧
      (∀ (q : Path) (y : L64), holdKey q y = holdKey p x → q = p ∧ y = x) ∧ State.reset.time.holding = []) ∧
    ((∀ r ∈ s.rings, r.2.state = 0) → wr 0x1000 = .next (s.setF Reg.hqBaseLo (w / 512))) ∧
    ((∃ r ∈ s.rings, r.2.state ≠ 0) → Answers (wr 0x1000) fun t =>
      t.f Reg.hqBaseLo = s.f Reg.hqBaseLo ∧ t.f Reg.glbStaticWr = 1 ∧
      (s.f Reg.glbStaticWr ≠ 1 → t.f Reg.glbErrAddr = 0x1000) ∧ (s.f Reg.glbStaticWr = 1 → t.f Reg.glbErrAddr = s.f Reg.glbErrAddr) ∧
      ∃ u : State, { u with csr := s.csr } = s ∧ Logs u 0x1040 Src.start 0x1000 0 0 0 t) ∧
    (s.installer p = true → Answers (wr (BitVec.ofNat 20 (0x9004 + 0x100 * n.val))) fun t =>
      t = { s with staged := s.staged.put (Reg.rxDly n.val).key (w % 256) } ∧ t.shown (Reg.rxDly n.val) = w % 256) ∧
    (s.installer p = false → Answers (wr (BitVec.ofNat 20 (0x9004 + 0x100 * n.val))) (Counts s 0x03)) ∧
    (s.mbxUp = true → wr 0x200C = .next (s.setF Reg.h2dMask w)) ∧
    (Answers (wr 0x40C) fun t => { t with csr := s.csr } = s ∧ (∀ g : Field, g.off ≠ 0x40C → g.lo < 32 → t.f g = s.f g) ∧
      ∀ g ∈ errs, s.f g ≤ 1 → t.f g = if w.testBit g.lo then 0 else s.f g) ∧
    (Answers (exec (.readClear p 0x408 .b4) s) fun t => ∃ u : State,
      t = u.emit (.regRead ((resets.map fun g => s.shown g * 2 ^ g.lo).sum % 2 ^ 32)) ∧
      { u with csr := s.csr } = s ∧ (∀ g ∈ resets, u.f g = 0) ∧ ∀ g : Field, g.off ≠ 0x408 → g.lo < 32 → u.f g = s.f g)

/-- R16 to R21: a sync of a table whose role the writer holds keeps table and index, sets BUSY and, for an entry in host memory, reads
its 64 bytes. While one goes on, another is dropped with events 0x1042; without the role it is dropped and counted. The end of the copy
takes an entry that passes its chapter's checks: a ring's waits for its boundary, a channel's is in force, a LUN's waits until the LUN is
idle. One out of range or that fails a check, and a host read held for 10 ms, ends with REJECT and event 0x1041.
The choices of the model that it rests on: assumptions 6 and 29. -/
def Obligations.TableSyncs : Prop :=
  ∀ (s : State) (p : Path) (t : BitVec 3) (i : BitVec 8) (y : Sync) (b : Bytes), s.dieUp = true → s.dev ≠ .recovery →
    let k := t.toNat
    let j := i.toNat
    let read := decide (k < 2 ∧ j < 8) && s.mayPost
    let rejected (z : State) : Prop := z.tab = { s.tab with sync := none } ∧ z.f Reg.syncBusy = 0 ∧ z.f Reg.syncReject = 1 ∧
      ∃ u : State, { u with tab := s.tab, csr := s.csr } = s ∧ Logs u 0x1041 Src.keystone y.table y.index 0 0 z
    let taken (z : State) : Prop := z.f Reg.syncBusy = 0 ∧ z.f Reg.syncReject = 0 ∧
      ∃ u : State, u.tab = { s.tab with sync := none } ∧ { u with tab := s.tab, csr := s.csr } = s ∧ z.csr = u.csr ∧
        (y.table = 0 → z = u.setRing y.index
          { s.ring y.index with synced := some (RingCtx.ofBytes b), nextRun := (s.ring y.index).state ≠ 0 }) ∧
        (y.table = 1 → z = u.setChan y.index { s.chan y.index with ctx := ChanCtx.ofBytes b, next := none }) ∧
        (y.table = 3 → z = { u with tab := if s.lunIdle y.index then
            { u.tab with lun := s.tab.lun.set [] y.index b, lunNext := (s.tab.lunNext.put y.index b).erase y.index }
          else { u.tab with lunNext := s.tab.lunNext.put y.index b } })
    (k < 2 ∨ s.installer p = true →
      (s.tab.sync = none → Answers (exec (.tableSync p t i) s) fun z =>
        z.tab = { s.tab with sync := some ⟨k, j, read, none⟩ } ∧ z.f Reg.syncTable = k ∧ z.f Reg.syncIndex = j ∧ z.f Reg.syncBusy = 1 ∧
        z.out = (if read then [.hostRead (s.entryAddr k j) 64] else []) ++ s.out ∧
        { z with tab := s.tab, csr := s.csr, out := s.out } = s) ∧
      (s.tab.sync ≠ none → Answers (exec (.tableSync p t i) s) (Logs s 0x1042 Src.keystone k j 0 0))) ∧
    (2 ≤ k → s.installer p = false → Answers (exec (.tableSync p t i) s) (Counts s 0x03)) ∧
    (s.tab.sync = some y →
      (tableCount y.table ≤ y.index → Answers (exec .tableSyncDone s) rejected) ∧
      (y.index < tableCount y.table → s.syncData y = some b → s.entryOk y b = true →
        y.table ≠ 2 → (y.table = 3 → s.lunIdle y.index = true → (s.lun y.index).failed = 0) → Answers (exec .tableSyncDone s) taken) ∧
      (y.index < tableCount y.table → s.syncData y = some b → s.entryOk y b = false → Answers (exec .tableSyncDone s) rejected) ∧
      (y.table < 2 → y.issued = false → Answers (exec .syncHoldTimeout s) rejected))

/-- R29 to R31, R35: a PACE window shows PACE cut to 2047 and the row of R29 that holds, its loop state; rows 2 and 3 ask Basalt for one
step of VCORE, and no window acts while a step is unacknowledged; entry into row 4 sets CEIL_SEEN, counts 0x0C and records 0x0060. The
acknowledged code is shown. A lost crystal makes the ring oscillator the clock with count 0x0D and event 0x8002; a start that finds no
crystal stays in ROM with event 0x8001.
The choices of the model that it rests on: assumption 6. -/
def Obligations.VcoreAndCrystal : Prop :=
  ∀ (s : State) (pace : BitVec 16) (code : Fin 31),
    let p := pace.toNat
    let floor := s.nv.paceFloor
    let above := if floor + 64 ≤ p then s.vcore.above + 1 else 0
    let high := if floor + 64 + 64 < p then s.vcore.high + 1 else 0
    let at_ := s.f Reg.vcoreCode
    let row :=
      if s.vcore.released = false then 0
      else if s.f Reg.vcoreLoop = 4 ∧ above < 400 then 4
      else if p < floor + 64 ∧ at_ < 30 then 2
      else if p < floor ∧ at_ = 30 then 4
      else if 16 ≤ high ∧ 0 < at_ then 3
      else 1
    (s.dieUp = true → s.bas.freeze = false →
      (s.vcore.unacked = true → exec (.paceWindowEnd pace) s =
        .next (({ s with vcore := { s.vcore with above := above, high := high } } : State).setF Reg.vcorePace (min p 2047))) ∧
      (s.vcore.unacked = false → Answers (exec (.paceWindowEnd pace) s) fun t => ∃ u : State,
        u.f Reg.vcoreLoop = row ∧ u.f Reg.vcorePace = min p 2047 ∧ u.f Reg.vcoreCode = at_ ∧
        u.vcore = { s.vcore with above := above, high := if row = 3 then 0 else high, unacked := decide (row = 2 ∨ row = 3) } ∧
        u.out = (if row = 2 then [.vcoreStep true] else if row = 3 then [.vcoreStep false] else []) ++ s.out ∧
        { u with csr := s.csr, vcore := s.vcore, out := s.out } = s ∧
        if row = 4 ∧ s.f Reg.vcoreLoop ≠ 4 then
          u.f Reg.ceilSeen = 1 ∧ ∃ w : State, Counts u 0x0C w ∧ Logs u 0x0060 Src.basalt 0 0 0 0 w ∧ Steady w.graded t
        else u.f Reg.ceilSeen = s.f Reg.ceilSeen ∧ Steady u.graded t)) ∧
    (s.vcore.unacked = true →
      exec (.vcoreStepAck code) s = .next (({ s with vcore := { s.vcore with unacked := false } } : State).setF Reg.vcoreCode code.val)) ∧
    (s.dieUp = true → s.time.ringOsc = false → s.dev ≠ .rom → Answers (exec .crystalLost s) fun t => ∃ w : State,
      Counts { s with time := { s.time with ringOsc := true } } 0x0D w ∧
      Logs { s with time := { s.time with ringOsc := true } } 0x8002 Src.lodestone 0 0 0 0 w ∧ Steady w.graded t) ∧
    (s.dev = .rom → s.start.rom = .crystal →
      Answers (exec .noCrystalTimeout s) (Logs { s with start := { s.start with rom := .stuck } } 0x8001 Src.lodestone 0 0 0 0))

/-- R64 to R67, R78 to R80, R593, R595: the charger's mode follows VIN, and above 38 V stops it with event 0x0020; a sample of VRES and
VIN shows in the power states and, once a measurement is valid, gives e_usable and the limit anew; a low VRES outside a measurement
is recorded as 0x0016; the sensor's reading sets the retention row and, with 3 °C of hysteresis, the band, whose change settles the
ledger.
The choices of the model that it rests on: assumptions 6 and 30. -/
def Obligations.ChargerAndSensors : Prop :=
  ∀ (s : State) (vin vres : BitVec 16) (peak dur : BitVec 32) (c : Int),
    let v := vin.toNat
    let r := vres.toNat
    let noted (u : State) (x : Nat) : Prop := { u with csr := s.csr } = { s with bas := { s.bas with vinMv := v, vresMv := x } } ∧
      u.f Reg.vinOk = b2n (decide (4500 ≤ v ∧ v ≤ 36000)) ∧ u.f Reg.onVres = b2n (decide (v < x)) ∧
      ∀ f : Field, f.key ≠ Reg.vinOk.key → f.key ≠ Reg.onVres.key → u.f f = s.f f
    let band := bandOf c
    let old := s.f Reg.band
    let new := if old ≤ band then band else min old (bandOf (c + 3))
    (s.bas.inputOn = true →
      (s.led.phase ≠ .falling → Answers (exec (.chargerModeChange vin) s) fun t => ∃ u, noted u s.bas.vresMv ∧
        t = { u with bas := { u.bas with chgMode :=
          if s.bas.freeze = true ∨ risetOk s.bas.riset = false then 0 else if 38000 < v then 3
          else if v + 1000 < s.bas.vresSetMv then 1 else 2 } }) ∧
      (s.led.phase = .falling → Answers (exec (.chargerModeChange vin) s) fun t => noted t s.bas.vresMv) ∧
      Answers (exec (.vinOvervoltage peak dur) s)
        (Logs { s with bas := { s.bas with chgMode := 3 } } 0x0020 Src.basalt peak.toNat dur.toNat 0 0) ∧
      (s.ledgerShut = true → Answers (exec (.vresSample vres vin) s) fun t => noted t r) ∧
      (s.ledgerShut = false → s.led.phase = .idle → s.led.stagedSet = none → Answers (exec (.vresSample vres vin) s) fun t =>
        ∃ u, noted u r ∧ Settled { u with led := { s.led with
          eUsable := energyOf 388 s.led.c s.led.esr (min s.led.vtop r), limit := energyOf 291 s.led.c s.led.esr (min s.led.vtop r) } } t) ∧
      (s.dieUp = true → c < 163 → Answers (exec (.junctionSensorRead c) s) fun t => ∃ u : State,
        { u with csr := s.csr } = { s with junction := c, fl := { s.fl with row := retentionRow (c + s.tOffset), hot := decide (150 < c) } } ∧
        u.f Reg.band = new ∧ (∀ f : Field, f.key ≠ Reg.band.key → u.f f = s.f f) ∧ if new = old then t = u else Settled u t)) ∧
    (s.mayMeasure = true → s.led.phase ≠ .waitDip → s.led.phase ≠ .falling →
      Answers (exec .vresLow s) (Logs s 0x0016 Src.ledger 0 0 0 0))

/-- R73 to R78, R88: a measurement is due when asked for; a new VRES_SET waits for it, and 47 or more is dropped with event 0x1041. It
begins by taking VRES_SET and lowering the limit to the dip basis; at the basis the charger stops for the fall; abandoned, the limit
comes back with count 0x04 and event 0x0014. A fall of 100 000 to 3 000 000 ticks gives C = ticks / 250, e_usable and the limit, with
event 0x0010, and 0x0011 below 120 mJ; another, or 5 s without charge, fails: the ledger shuts, 0x07 is counted, 0x0015 recorded.
The choices of the model that it rests on: assumptions 6 and 30. -/
def Obligations.ReservoirMeasurement : Prop :=
  ∀ (s : State) (p : Path) (value : Word) (ticks : BitVec 32) (esr : BitVec 16),
    let l := s.led
    let v := value.toNat % 64
    let n := ticks.toNat
    let c := n / 250
    let r := esr.toNat
    let top := min l.vtopNow s.bas.vresMv
    let e := energyOf 388 c r top
    let lim := energyOf 291 c r top
    let due := { s with led := { l with phase := .due, retryMs := 0 } }
    let kept (u w : State) (rec : Bytes) : Prop := w = { u.touch 0x0C with nv.measHist := (rec :: u.nv.measHist).take 32 }
    let fails (u t : State) : Prop := ∃ w x : State, Counts u 0x07 w ∧ Logs u 0x0015 Src.ledger 0 0 0 0 w ∧
      kept w x (s.measRecord 0 0 l.vtopNow 0 0 1) ∧ Steady x.graded t
    (s.mayMeasure = true →
      (l.phase = .idle → exec .measurementDue s = .next due ∧ (s.dev ≠ .recovery → exec .pwrMeasNow s = .next due)) ∧
      (s.reaches p = true → s.dev ≠ .recovery → s.installer p = true →
        (47 ≤ v → Answers (exec (.vresSetStaged p value) s)
          (Logs (s.setF Reg.chgLimit (value.toNat / 64 % 4)) 0x1041 Src.ledger 0x5008 0 0 0)) ∧
        (v < 47 → Answers (exec (.vresSetStaged p value) s) fun t =>
          t.led.stagedSet = some v ∧ t.staged = s.staged.put Reg.vresSet.key v ∧
          t.led.phase = (if l.phase = .idle then .due else l.phase) ∧ t.f Reg.chgLimit = value.toNat / 64 % 4 ∧ t.bas = s.bas)) ∧
      (l.phase = .due → (l.stagedSet = none ∨ l.stagedSet = some v) → Answers (exec .measurementBegin s) fun t => ∃ u : State,
        u.bas = { s.bas with vresSetMv := if l.stagedSet = none then s.bas.vresSetMv else 12000 + 500 * v } ∧
        u.led = { l with
          phase := .waitDip, savedLimit := l.limit, vtopNow := s.bas.vresMv
          limit := if s.ledgerShut then 0 else energyOf 291 l.c l.esr (min ({ s with bas := u.bas } : State).vTop s.bas.vresMv - 500) } ∧
        (l.stagedSet = some v → u.f Reg.vresSet = v ∧ u.staged = s.staged.erase Reg.vresSet.key) ∧
        { u with bas := s.bas, led := l, csr := s.csr, staged := s.staged } = s ∧ Settled u t) ∧
      (l.phase = .waitDip →
        (s.ledgerShut = true ∨ s.risk ≤ l.limit → 4500 ≤ s.bas.vinMv → s.bas.vinMv ≤ 36000 →
          exec .dipBasisReached s = .next { s with led := { l with phase := .falling }, bas := { s.bas with chgMode := 0 } }) ∧
        Answers (exec .measurementAbandoned s) fun t => ∃ u w x : State,
          Settled { s with led := { l with phase := .idle, limit := l.savedLimit, retryMs := 1000 } } u ∧ Counts u 0x04 w ∧
          Logs u 0x0014 Src.ledger 0 0 0 0 w ∧ kept w x (s.measRecord 0 0 l.vtopNow 0 0 2) ∧ t = x) ∧
      (l.phase = .falling → 100000 ≤ n → n ≤ 3000000 → Answers (exec (.reservoirFallTimed ticks esr) s) fun t => ∃ w x y : State,
        Logs { s with
          bas := { s.bas with chgMode := s.chargerMode s.bas.vinMv }
          led := { l with
            phase := .idle, retryMs := 0, valid := true, doneAt := s.time.uptime, failed := false, c := c, esr := r
            vtop := l.vtopNow, stagedSet := none, eUsable := e, limit := lim } } 0x0010 Src.ledger c r l.vtopNow e w ∧
        (if lim < 120000 then Logs w 0x0011 Src.ledger 0 0 0 0 x else x = w) ∧
        kept x y (s.measRecord c r l.vtopNow e lim 0) ∧ Settled y t) ∧
      (l.phase = .falling → n < 100000 ∨ 3000000 < n → Answers (exec (.reservoirFallTimed ticks esr) s) (fails { s with
        bas := { s.bas with chgMode := s.chargerMode s.bas.vinMv }
        led := { l with phase := .idle, failed := true, retryMs := 60000 } })) ∧
      (l.valid = false → Answers (exec .reservoirChargeTimeout s) (fails { s with
        led := { l with phase := .idle, failed := true, retryMs := 60000 } })))

/-- R72, R89 to R93, R95 to R100, R399: VIN below the collapse threshold raises FREEZE and the device drains. A rail fault raises E6,
counts 0x05 and records 0x0030; VDDQ and VPP stop DRAM alone, the others drain. PFW ARMED: one warning channel opens TIMING and
PRE_FREEZE, both confirm with event 0x8012 and drain; in TIMING both idle again return with count 0x31 and event 0x8010; D's end DISARMs
with the fault bit, 0x30 and 0x8011; both idle for D rearm with 0x8013. FREEZE leaves no command, post or hook waiting.
The choices of the model that it rests on: assumptions 6, 30, 31 and 32. -/
def Obligations.SupplyFailures : Prop :=
  ∀ (s : State) (vin : BitVec 16) (r : Rail) (ch : PfwCh) (on : Bool), s.dieUp = true → s.bas.freeze = false →
    let levels := if ch = .a then { s.pfw with aOn := on } else { s.pfw with bOn := on }
    let x := { s with pfw := levels }
    let opens (first : PfwCh) (t : State) : Prop := ∃ u, Becomes { x with pfw := { levels with state := .timing, first := first, back := s.dev } }
      .preFreeze u ∧ if s.dev.inService then t = u.triggerAll 5 fun c => c.kind == 5 && c.state ≠ 0 else t = u
    let back (u : State) : Dev := if s.pfw.back.inService then u.serviceState else s.pfw.back
    (vin.toNat < 4200 + 200 * s.f Reg.collTh → Answers (exec (.supplyCollapse vin) s) fun t => Drains (s.noteVin vin.toNat s.bas.vresMv) .collapse false t) ∧
    (r ∉ s.bas.badRails → Answers (exec (.railFault r) s) fun t => ∃ w : State,
      let u := ({ s with bas := { s.bas with badRails := r :: s.bas.badRails, alert := true } } : State).raise 0 6
      Logs u 0x0030 Src.basalt (railCode r) 0 0 0 w ∧ Counts u 0x05 w ∧
      if r = .vddq ∨ r = .vppOut then t = { w with dram := { w.dram with railBad := true } } else Drains w .railFault false t) ∧
    (r = .vddq ∨ r = .vppOut → r ∈ s.bas.badRails →
      let left := s.bas.badRails.filter fun x => x ≠ r
      let bad := left.any fun x => x = .vddq || x = .vppOut
      let u := { s with bas := { s.bas with badRails := left, alert := !left.isEmpty }, dram := { s.dram with railBad := bad } }
      (s.dram.up = true ∧ bad = false ∧ s.f Reg.drcReinit ≠ 1 → Answers (exec (.railRecovery r) s)
        (Logs (u.setF Reg.drcReinit 1) 0x4030 Src.dram 0 0 0 0)) ∧
      (s.dram.up = false ∨ bad = true ∨ s.f Reg.drcReinit = 1 → exec (.railRecovery r) s = .next u)) ∧
    (s.pfwActs = true →
      (s.pfw.state = .armed → x.warnsA = true → x.warnsB = false → Answers (exec (.pfwChannelChange ch on) s) (opens .a)) ∧
      (s.pfw.state = .armed → x.warnsA = false → x.warnsB = true → Answers (exec (.pfwChannelChange ch on) s) (opens .b)) ∧
      (s.pfw.state = .timing → x.warnsA = true → x.warnsB = true → Answers (exec (.pfwChannelChange ch on) s) fun t => ∃ w,
        Logs x 0x8012 Src.basalt 0 0 0 0 w ∧ Drains w .pfw false t) ∧
      (s.pfw.state = .timing → x.warnsA = false → x.warnsB = false → s.staged.get? Reg.pfwMode.key = none →
        s.staged.get? Reg.pfwDisc.key = none → Answers (exec (.pfwChannelChange ch on) s) fun t => ∃ u,
          Becomes { x with pfw := { levels with state := .armed } } (back { x with pfw := { levels with state := .armed } }) u ∧
          Counts u 0x31 t ∧ Logs u 0x8010 Src.basalt 0 0 0 0 t)) ∧
    (s.pfw.state = .timing → Answers (exec .pfwDiscrepancyExpiry s) fun t => ∃ u,
      Becomes { s with pfw := { s.pfw with state := .disarmed } } (back { s with pfw := { s.pfw with state := .disarmed } }) u ∧
      Counts (u.setF Reg.pfwFault 1) 0x30 t ∧ Logs (u.setF Reg.pfwFault 1) 0x8011 Src.basalt 0 0 0 0 t) ∧
    (s.pfw.state = .disarmed → s.warnsA = false → s.warnsB = false → s.staged.get? Reg.pfwMode.key = none →
      s.staged.get? Reg.pfwDisc.key = none →
      Answers (exec .pfwRearm s) (Logs { s with pfw := { s.pfw with state := .armed } } 0x8013 Src.basalt 0 0 0 0)) ∧
    (∀ q ∈ s.freezeBlocks.rings, q.2.cmds = [] ∧ q.2.waiting = [] ∧ q.2.chain = none ∧ q.2.snap = none) ∧
    s.freezeBlocks.hooks.queue = [] ∧ s.freezeBlocks.mbx.h2dFull = 0 ∧ s.freezeBlocks.mbx.d2hFull = 0 ∧
    s.freezeBlocks.led.phase = .idle ∧ s.freezeBlocks.bas.chgMode = 0

/-- R101 to R107, R116, R596: the drain's eight steps in order: programs run to status, records of verified programs become durable and
the manifest is written, the rest of the staged units goes to the drain area and SAFE_n is released, records again, the seal, which
shuts the recorder, the staged event records, the boot record, and the end: SAFE with the rails removed, or a reset of the die. A drain
cut short counts 0x06 and leaves the missing units. SAFE ends with a rise of the rails.
The choices of the model that it rests on: assumptions 6, 32 and 33. -/
def Obligations.DrainSteps : Prop :=
  ∀ (s : State) (w : DrainWork) (reached : List Nat),
    let k := s.drain.step
    let d := { s.drain with elapsed := w.elapsed.toNat }
    let fails (u : SUnit) : Bool := w.failed.contains u.id
    let did (p : State → Prop) : Prop := Answers (exec (.drainStepDone w) s) p
    let durable (q : Drain) : State := State.releaseDurable { s with
      drain := q
      str := { s.str with
        units := s.str.units.map fun u => if u.place = .verified then { u with journalled := true } else u
        openPage := [], pages := [] } }
    (k = 1 → did fun t => t = { s with drain := { d with step := 2 }, str := { s.str with
      units := s.str.units.map fun u => if u.place = .programming then { u with place := if fails u then .staged else .verified } else u } }) ∧
    (k = 2 → did fun t => t = { durable d with drain := { d with step := 3, manifest := true } }) ∧
    (k = 3 → did fun t => let left := s.str.units.filter fun u => u.place == .staged
      t.str.units = s.str.units.map (fun u => if u.place = .staged ∧ fails u = false then { u with drained := true } else u) ∧
      t.nv.drainFailed = left.filter fails ∧ t.drain = { d with step := 4, units := (left.filter fun u => !fails u).length } ∧
      t.bas = { s.bas with safeReleased := true } ∧ { t with str := s.str, nv := s.nv, drain := s.drain, bas := s.bas } = s) ∧
    (k = 4 → did fun t => t = { durable d with drain := { d with step := 5 } }) ∧
    (k = 5 → did fun t => t = { s with drain := { d with step := 6, sealDone := true }, evr := { s.evr with shut := true } }) ∧
    (k = 6 → did fun t => t.evr.staging = [] ∧ t.nv.amber = s.nv.amber ++ s.evr.staging.filter (fun r => r.area == 1) ∧
      t.drain = { d with step := 7 } ∧ t.nv.screeSeq = s.nv.screeSeq + s.evr.staging.length ∧
      t.nv.scree = (s.nv.scree ++ s.evr.staging).drop (s.nv.scree.length + s.evr.staging.length - 32768)) ∧
    (k = 7 → did fun t => t.drain = { d with step := 8 } ∧ t.nv.boot.seq = s.nv.boot.seq + 1 ∧
      t.nv.boot.stopSealed = s.drain.sealDone ∧ t.nv.boot.stopCause = (s.bas.cause.map FreezeCause.code).getD 0 ∧
      t.nv.savedOpt = max s.nv.savedOpt s.time.optMs ∧ t.nv.savedTc = s.evr.tc ∧ t.str = s.str ∧ t.bas = s.bas) ∧
    (k = 8 → did fun t => t.drain.step = 0 ∧ t.nv.lastStop.sealDone = true ∧ t.nv.lastStop.units = s.drain.units ∧
      t.nv.lastStop.drainT = w.elapsed.toNat ∧ t.nv.drained = s.nv.drained ++ s.str.units.filter (fun u => u.drained) ∧
      if s.drain.warm then t.dev = s.dev ∧ t.bas = { s.bas with dieReset := true }
      else t.dev = .safe ∧ t.bas = { s.bas with
        safeReleased := false, rails := .removed, latchCause := (s.bas.cause.map FreezeCause.code).getD 0 }) ∧
    (k ≠ 0 → s.drain.sealDone = false → s.drain.warm = false → Answers (exec (.drainCutShort reached) s) fun t =>
      let us := s.str.units.map fun u => { u with drained := u.drained || (s.drain.manifest && reached.contains u.id) }
      t.dev = .safe ∧ t.drain.step = 0 ∧ t.bas.rails = .removed ∧ t.bas.safeReleased = false ∧ t.str.units = us ∧
      t.nv.missing = s.nv.missing ++ us.filter (fun u => !u.drained) ∧ t.nv.drainCut = true ∧ t.nv.lastStop.sealDone = false ∧
      ∃ u : State, Counts { s with str := { s.str with units := us } } 0x06 u ∧ t.evr = u.evr) ∧
    (s.dev = .safe → s.bas.rails = .removed → 4500 ≤ s.bas.vinMv → s.bas.vinMv ≤ 36000 → 4200 + 200 * s.f Reg.collTh < s.bas.vinMv →
      s.pfwHolds = false → s.junction ≤ 140 →
      exec .safeRestart s = .next { s with bas := { s.bas with rails := .rising, nextSrc := 1, dieReset := true } }) ∧
    (s.dieUp = false → exec .inputStageOff s = .next { s with dev := .off, bas := { s.bas with
      inputOn := false, rails := .off, modeCopy := none, freeze := false, cause := none, chgMode := 0, safeReleased := false
      dieReset := false, alert := false } }) ∧
    (s.dieUp = true → k = 0 → s.str.units = [] → Answers (exec .inputStageOff s) fun t =>
      t.dev = .off ∧ t.bas.inputOn = false ∧ t.bas.rails = .off ∧ t.bas.freeze = false ∧ t.bas.modeCopy = none ∧ t.evr = s.evr)

/-- R56, R64, R66, R70, R115 to R118, R122, R124 to R126, R130, R165: power brings the input stage up with VCCQ_SEL sampled, then the
rails; RESET_n and a restart by the installer drain with source 2 or 3 and event 0x1030 for the pin. A start that times out or whose
watchdog expires fails: event 0x1010, count 0x08, F one higher up to 3, the die back in reset with source 4. At half the watchdog E7
comes. F clears after 60 s in service or by a write of 0. No boot LUN leaves ROM stuck with 0x1011.
The choices of the model that it rests on: assumptions 6 and 34. -/
def Obligations.PowerAndResets : Prop :=
  ∀ (s : State) (p : Path) (value : Word) (vin vres : BitVec 16) (riset : BitVec 32) (vccq latch : Bool),
    let fails (cause : Nat) (t : State) : Prop := ∃ u : State, Logs s 0x1010 Src.start cause 0 0 0 u ∧ Counts s 0x08 u ∧
      t.bas.dieReset = true ∧ t.bas.nextSrc = 4 ∧ t.nv.lastStop = {} ∧ t.evr.staging = [] ∧
      (s.start.trial = false → t.nv.amber = u.nv.amber ++ u.evr.staging.filter (fun r => r.area == 1) ∧ t.start.fails = min 3 (s.start.fails + 1) ∧ t.bas.latchF = min 3 (s.start.fails + 1))
    (s.bas.inputOn = false → exec (.powerOn vin vres riset vccq latch) s = .next { s with
      dev := .off
      bas := { vinMv := vin.toNat, vresMv := vres.toNat, riset := riset.toNat, vccq18 := vccq, rails := .rising, dieReset := true
               latchF := if latch then s.bas.latchF else 0, latchCause := if latch then s.bas.latchCause else 0 } }) ∧
    (s.bas.rails = .rising → exec .railsGood s = .next { s with bas := { s.bas with rails := .good } }) ∧
    exec .resetNRelease s = .next { s with bas := { s.bas with resetLow := false } } ∧
    (s.dev = .off ∨ s.dev = .safe → exec .resetNAccepted s = .next s) ∧
    (s.startRuns = true →
      Answers (exec .startTimeout s) (fails 1) ∧ Answers (exec .watchdogExpiry s) (fails 2) ∧
      Answers (exec .watchdogHalf s) (Only s 0 { s.engine 0 with ev := (s.engine 0).ev ||| 0x80 })) ∧
    (s.dieUp = true →
      (s.bas.freeze = false →
        (Answers (exec .resetNAccepted s) fun t => ∃ u, Logs { s with bas := { s.bas with resetLow := true } } 0x1030 Src.start 0 0 0 0 u ∧
          Drains { u with bas := { u.bas with nextSrc := 2 } } .resetPin true t) ∧
        (s.dev ≠ .recovery → s.dev ≠ .preFreeze → s.installer p = true →
          Answers (exec (.restartRequest p) s) (Drains { s with bas := { s.bas with nextSrc := 3 } } .restart true)) ∧
        (s.dev.inService = true → s.start.cleared = false → Answers (exec .failedCountClear s) fun t =>
          t.start = { s.start with cleared := true, fails := 0 } ∧ t.bas = { s.bas with latchF := 0 } ∧
          { t with start := s.start, bas := s.bas, nv := s.nv } = s)) ∧
      (s.dev = .preFreeze → s.installer p = true → exec (.restartRequest p) s = .next s) ∧
      (s.dev ≠ .recovery → s.installer p = false →
        Answers (exec (.restartRequest p) s) (Counts s 0x03) ∧ Answers (exec (.glbStartWrite p value) s) (Counts s 0x03)) ∧
      (s.dev ≠ .recovery → s.installer p = true →
        (value.toNat % 4 = 0 → Answers (exec (.glbStartWrite p value) s) fun t => t.start = { s.start with fails := 0 } ∧
          t.bas = { s.bas with latchF := 0 } ∧ { t with start := s.start, bas := s.bas, nv := s.nv } = s) ∧
        (value.toNat % 4 ≠ 0 → Answers (exec (.glbStartWrite p value) s) (Logs s 0x1041 Src.start 0x18 0 0 0))) ∧
      (s.dev = .rom → s.start.rom = .running → s.img.running = 255 → Answers (exec .bootLunTimeout s)
        (Logs { s with start := { s.start with rom := .stuck } } 0x1011 Src.start 0 0 0 0)) ∧
      (s.pcie.perstHeld = false → exec .configRetryLimit s = .next { s with pcie := { s.pcie with crs := false } }))

/-- R35, R56, R105, R115 to R119, R124, R127, R131, R372, R561: with the rails good and RESET_n high the logic die leaves reset: only
pins, Basalt and non-volatile state cross it; the start is recorded as 0x1001, and 0x6010 with TEST_EN. Without crystal ticks, a
calibration row (0x1012) or an answering boot LUN the ROM stays; RECOVERY_n low enters RECOVERY with 0x7041; a Bedrock asked for, or
the third failure, enters Bedrock: cause, event 0x1020, count 0x09, no DRAM, the bootstrap in V0 and V1, host access.
The choices of the model that it rests on: assumptions 8, 32, 34, 35 and 36. -/
def Obligations.DieStart : Prop :=
  ∀ (s : State) (st : Straps) (rom : RomFacts), s.mayLeaveReset = true →
    let f := s.fresh st rom
    let run := exec (.logicDieResetRelease st rom) s
    let loud (v : State) : Prop := ∃ u, Logs f 0x1001 Src.start s.bas.nextSrc f.start.kind 0 0 u ∧
      if st.testEn then Logs u 0x6010 Src.start 0 0 0 0 v else v = u
    let bedrock (v : State) (c : Nat) (t : State) : Prop :=
      t.dev = .bedrock ∧ t.start.bedrockCause = c ∧ t.start.hostAccess = true ∧ t.pcie.crs = false ∧ t.dram = {} ∧ t.bas = v.bas ∧
      t.pending = s.pending ∧ (t.engine 2).run = true ∧ (t.engine 3).run = true ∧ (t.engine 4).run = false
    f.dev = .rom ∧ f.start.rom = .running ∧ f.start.src = s.bas.nextSrc ∧ f.start.fails = s.bas.latchF ∧ f.pending = s.pending ∧
    f.time.uptime = 0 ∧ f.time.calSet = false ∧ f.time.optMs = s.nv.savedOpt ∧ f.time.cycles = s.nv.savedCycles + 1 ∧
    f.bas.freeze = false ∧ f.bas.dieReset = false ∧ f.bas.latchF = s.bas.latchF ∧ f.nv.vols = s.nv.vols ∧ f.nv.floor = s.nv.floor ∧
    f.nv.amber = s.nv.amber ∧ f.evr.staging = [] ∧ f.evr.tc = s.nv.savedTc ∧ f.rings = [] ∧ f.str = State.reset.str ∧
    f.roles = State.reset.roles ∧ f.led = State.reset.led ∧ f.eng = State.reset.eng ∧ f.dram = State.reset.dram ∧
    (rom.crystal = false → Answers run fun t => ∃ v, loud v ∧ t = { v with start := { v.start with rom := .crystal } }) ∧
    (rom.crystal = true →
      (rom.calRow = false → Answers run fun t => ∃ v, loud v ∧
        Logs { v with start := { v.start with rom := .stuck } } 0x1012 Src.start 0 0 0 0 t) ∧
      (rom.calRow = true →
        (st.recoveryLow = true → Answers run fun t => ∃ v w x, loud v ∧
          Logs { v with start := { v.start with straps := { v.start.straps with recoveryLow := true } } } 0x7041 Src.start 0 0 0 0 w ∧
          Becomes w .recovery x ∧ t = x.noteStart) ∧
        (st.recoveryLow = false → rom.lunAnswers = false → Answers run loud) ∧
        (st.recoveryLow = false → rom.lunAnswers = true → Answers run fun t => ∃ v, loud v ∧
          let r := v.romReady.recoverData
          t = r.romBoot rom s.bas.toBedrock ∧
          (s.bas.toBedrock = true → t = r.enterBedrock 6) ∧
          (s.bas.toBedrock = false → 3 ≤ r.start.fails → t = r.enterBedrock 1)))) ∧
    ∀ (v : State) (c : Nat), v.pending = s.pending → bedrock v c (v.enterBedrock c)

/-- R143, R144, R149, R155, R174, R176, R177: a word that is no instruction stops its engine with cause 1, or 6 for a parity error, its
PC and its event; Keystone's fault counts 0x0A, the sandbox's abandons the hook, a Vein's takes its channel out of service. The debug
window stops an engine before its next instruction and then executes one instruction a step; without the maker role the access is
refused, with event 0x6011 once in a start, counts 0x43 and 0x03.
The choices of the model that it rests on: assumptions 15, 22 and 23. -/
def Obligations.FaultsAndDebug : Prop :=
  ∀ (s : State) (p : Path) (e : Fin 10) (word : Word) (parity : Bool) (chk : MemCheck) (bus : Bytes) (i : Instr),
    let n := e.val
    let x := s.engine n
    let c := if parity then 6 else 1
    let eng := BitVec.ofNat 4 n
    let w := x.wordAtPc
    let u (stop : Nat) := (s.setF Reg.dbgEng n).setF Reg.dbgStop stop
    let refused (t : State) : Prop := ∃ v w : State, (if s.hooks.dbgRefused then v = s else
        Logs { s with hooks := { s.hooks with dbgRefused := true } } 0x6011 Src.sec 0 0 0 0 v) ∧ Counts v 0x43 w ∧ Counts w 0x03 t
    (s.engineRuns n = true → Answers (exec (.illegalInstruction e word parity) s) fun t => ∃ v,
      Logs (s.setEngine n { x with run := false, stepping := false, waiting := none, fault := true, cause := c, fpc := x.pc / 4 })
        (if n = 0 then 0x1050 else if n = 1 then 0xA010 else 0x3050)
        (if n = 0 then Src.keystone else if n = 1 then Src.hook else Src.channel (n - 2)) c x.pc n word.toNat v ∧
      (n = 0 → ∃ y, Counts v 0x0A y ∧ t = y.supervisorStopped) ∧
      (n = 1 → if v.hooks.busy then ∃ y, Counts v 0x53 y ∧ t = y.abandonHook else t = v) ∧
      (2 ≤ n → t = v.failChannel (n - 2))) ∧
    (s.reaches p = true → s.dev ≠ .recovery →
      (s.debugOpen p = true →
        (x.run = true →
          let y := (u 1).setEngine n { x with run := false, dbg := true }
          exec (.debugStop p eng) s = .next (if n = 0 then y.supervisorStopped else if n = 1 then y else y.failChannel (n - 2))) ∧
        (x.run = false → exec (.debugStop p eng) s = .next (u 1)) ∧
        (x.dbg = true → x.fault = false → n ≠ 1 ∨ s.hooks.busy = true → x.waiting = none → chk ≠ .bad →
          (belDecode e chk bus w = some i → ∃ t, runBelion i ((u 0).setEngine n { x with stepping := true }) = .next t ∧
            exec (.debugStep p eng false chk bus) s = .next (t.setEngine n { t.engine n with stepping := false })) ∧
          (belDecode e chk bus w = none →
            exec (.debugStep p eng false chk bus) s = .next ((u 0).engineFault n 1 x.pc w)))) ∧
      (s.debugOpen p = false →
        Answers (exec (.debugStop p eng) s) refused ∧ Answers (exec (.debugStep p eng false chk bus) s) refused))

/-- R519, R520, R524 to R529: ROLE_CHALLENGE takes the next counter value and sends the 64 bytes, or is DEFERRED while a hold runs; a right
ROLE_RESPONSE grants its role, a wrong one ends ACCESS_DENIED and counts; ROLE_DROP ends the role. A response is right that names the
challenge's role and counter value and carries its HMAC under the role's key.
The choices of the model that it rests on: assumptions 41 and 45. -/
def Obligations.RoleCommands : Prop :=
  ∀ (s : State) (tag : BitVec 5) (c : Cmd) (segs data : Bytes), c.opflags = 0 → c.start = 0 → c.noOps = true →
    (c.listOk c.length segs = true → (c.volume = 1 ∨ c.volume = 2) → c.data = true →
      (Turn s tag 0x49 c → c.length = 64 →
        (∀ us, s.holdLeft 0 = some us → exec (.roleChallenge 0 tag (.done segs data)) s = .next (s.complete c 0x0100 (natLe 4 us))) ∧
        (s.holdLeft 0 = none → Answers (exec (.roleChallenge 0 tag (.done segs data)) s) fun t => ∃ u,
          Issued s 0 c.volume u ∧ t = u.deliver c segs (s.nextChallenge 0 c.volume) [])) ∧
      (Turn s tag 0x4A c → c.length = 48 → ∀ k, s.roles.chal.get? 0 = some k →
        (s.responseOk 0 (padTo 48 data) = true → Answers (exec (.roleResponse 0 tag (.done segs data)) s) fun t => ∃ u,
          Granted s 0 k u ∧ t = u.complete c 0 []) ∧
        (s.responseOk 0 (padTo 48 data) = false → Answers (exec (.roleResponse 0 tag (.done segs data)) s) fun t => ∃ u,
          Rejected (s.unchallenged 0) 0 k.role u ∧ t = u.complete c 0x0400 []))) ∧
    (∀ (p : Nat) (b : Bytes) (k : Challenge) (key : Bytes), s.roles.chal.get? p = some k → s.roleKey k.role = some key →
      (s.responseOk p b = true ↔ slice b 0 4 = ascii "QKRS" ∧ leAt b 4 1 = k.role ∧ leAt b 5 3 = 0 ∧ leAt b 8 8 = k.ctr ∧
        slice b 16 32 = hmac key k.bytes ∧ (p = 2 → k.role = 2))) ∧
    (Turn s tag 0x4B c → c.volume = 0 → c.noData = true → Answers (exec (.roleDrop 0 tag) s) fun t => ∃ u,
      RoleBecomes s 0 0 u ∧ t = u.complete c 0 [])

/-- R62, R63, R519, R520, R524, R528, R529: the maker role ends on expiry; a challenge is void 60 s after it was issued; a hold ends in
time; QKCHAL gives a maker challenge, or zeros under a hold (a convention of the model); QKRESP takes the response; the boundary-scan
drive instructions act while RESET_n is low only, QKDEBUG for the maker only; a TAP reset ends the JTAG role and challenge.
The choices of the model that it rests on: assumptions 6 and 38. -/
def Obligations.PathRoles : Prop :=
  ∀ (s : State) (p : Fin 3) (i : JtagInstr) (data : BitVec 384),
    let b := natLe 48 data.toNat
    Answers (exec .tapReset s) (fun t => ∃ u, RoleBecomes s 2 0 u ∧ t = { u.unchallenged 2 with jtag := .bypass }) ∧
    exec (.jtagInstruction i) s = .next { s with jtag :=
      if (i = .extest ∨ i = .clamp ∨ i = .highz) ∧ s.bas.resetLow = false ∨ i = .qkdebug ∧ s.roles.jtag = false then .bypass else i } ∧
    (s.dieUp = true →
      exec (.challengeExpiry p) s = .next (s.unchallenged p.val) ∧
      exec (.challengeHoldEnd p) s = .next { s with nv := { s.nv with keys := { s.nv.keys with holds := s.nv.keys.holds.erase p.val } } } ∧
      (s.roleOf p.val = 2 → Answers (exec (.makerRoleExpiry p) s) (RoleBecomes s p.val 0)) ∧
      (s.bas.freeze = false →
        (s.jtag = .qkchal → ∀ us, s.holdLeft 2 = some us → exec .qkchalRead s = .next (s.emit (.jtag 0))) ∧
        (s.jtag = .qkchal → s.holdLeft 2 = none → Answers (exec .qkchalRead s) fun t => ∃ u,
          Issued s 2 2 u ∧ t = u.emit (.jtag (leNat (s.nextChallenge 2 2)))) ∧
        (∀ k, s.jtag = .qkresp → s.roles.chal.get? 2 = some k →
          (s.responseOk 2 b = true → Answers (exec (.qkrespWrite data) s) (Granted s 2 k)) ∧
          (s.responseOk 2 b = false → Answers (exec (.qkrespWrite data) s) (Rejected (s.unchallenged 2) 2 k.role)))))

/-- R532, R534 to R536, R540 to R542: KEY_MANAGE wraps a volume key anew, loads it (unlocks), unloads it (locks), stores and destroys
connection keys, taking down the sealed connections that use the slot, and stores the installer key; a wrong old secret ends
ACCESS_DENIED and counts as a rejected response; the actions 1, 4, 5 and 6 need the installer role. ENTROPY_GET sends DRBG bytes, fails
while Flint is latched, is deferred while it reruns and waits while it starts.
The choices of the model that it rests on: assumptions 45 and 52. -/
def Obligations.KeyCommands : Prop :=
  ∀ (s : State) (tag : BitVec 5) (c : Cmd) (segs data : Bytes) (k : VKey), c.start = 0 → c.noOps = true →
    let v := c.volume
    let wrong (t : State) : Prop := ∃ u, Rejected (s.unchallenged 0) 0 s.roles.pcie u ∧ t = u.complete c 0x0400 []
    let wrap (secret : Option Bytes) : State := { s.commit with nv := { s.nv with keys := { s.nv.keys with
      vol := s.nv.keys.vol.put v { k with secret := secret } } } }
    let setConn (m : Map Bytes) : State := { s.commit with nv := { s.nv with keys := { s.nv.keys with conn := m } } }
    (Turn s tag 0x4C c → v ≤ 31 →
      (s.volKey v = some k →
        (c.data = true → c.listOk c.length segs = true →
          (c.opflags = 1 → c.length = 64 →
            (s.roles.pcie = 0 → exec (.protect 0 tag (.done segs data)) s = .next (s.complete c 0x0400 [])) ∧
            (1 ≤ s.roles.pcie → ∀ b, b = padTo 64 data →
              (k.secret = secretOf (slice b 0 32) → Answers (exec (.protect 0 tag (.done segs data)) s) fun t => ∃ u,
                Logs (wrap (secretOf (slice b 32 32))) 0x6040 Src.sec v 1 0 0 u ∧ t = u.complete c 0 []) ∧
              (k.secret ≠ secretOf (slice b 0 32) → Answers (exec (.protect 0 tag (.done segs data)) s) wrong))) ∧
          (c.opflags = 2 → c.length = 32 → k.secret.isSome = true → ∀ b, b = padTo 32 data →
            (k.secret = some (slice b 0 32) → Answers (exec (.load 0 tag (.done segs data)) s) fun t => ∃ u,
              Logs { s with roles := { s.roles with keys := withBit s.roles.keys v true } } 0x6041 Src.sec v 2 0 0 u ∧ t = u.complete c 0 []) ∧
            (k.secret ≠ some (slice b 0 32) → Answers (exec (.load 0 tag (.done segs data)) s) wrong))) ∧
        (c.opflags = 3 → c.length = 0 → c.noData = true → k.secret.isSome = true → exec (.unload 0 tag) s =
          .next ({ s with roles := { s.roles with keys := withBit s.roles.keys v false } }.complete c 0 []))) ∧
      (1 ≤ s.roles.pcie → c.opflags = 4 → c.length = 32 → c.data = true → c.listOk c.length segs = true →
        exec (.setConnKey 0 tag (.done segs data)) s = .next ((setConn (s.nv.keys.conn.put v (padTo 32 data))).complete c 0 [])) ∧
      (1 ≤ s.roles.pcie → c.opflags = 5 → c.length = 0 → c.noData = true → Answers (exec (.clearConnKey 0 tag) s) fun t => ∃ u,
        Logs (setConn (s.nv.keys.conn.erase v)) 0x6042 Src.sec (0x100 + v) 5 0 0 u ∧
        t = (((u.tab.conn.filter fun x => connValid x.2 && connSealed x.2 && connKeySlot x.2 == v).map fun x => x.1).foldl
          State.connDown u).complete c 0 []) ∧
      (s.roles.pcie = 0 → (c.opflags = 4 → c.length = 32 → c.data = true → exec (.setConnKey 0 tag (.done segs data)) s = .next (s.complete c 0x0400 [])) ∧
        (c.opflags = 5 → c.length = 0 → c.noData = true → exec (.clearConnKey 0 tag) s = .next (s.complete c 0x0400 [])) ∧
        (c.opflags = 6 → c.length = 64 → v = 0 → c.data = true → exec (.setInstaller 0 tag (.done segs data)) s = .next (s.complete c 0x0400 []))) ∧
      (1 ≤ s.roles.pcie → v = 0 → c.opflags = 6 → c.length = 64 → c.data = true → c.listOk c.length segs = true → ∀ b, b = padTo 64 data →
        (s.roles.pcie = 2 ∨ s.installerKey = none ∨ s.installerKey = some (slice b 0 32) → exec (.setInstaller 0 tag (.done segs data)) s =
          .next ({ s.commit with nv := { s.nv with keys := { s.nv.keys with installer := some (slice b 32 32) } } }.complete c 0 [])) ∧
        (¬ (s.roles.pcie = 2 ∨ s.installerKey = none ∨ s.installerKey = some (slice b 0 32)) →
          Answers (exec (.setInstaller 0 tag (.done segs data)) s) wrong)) ∧
      (v = 0 → c.opflags = 8 → c.length = 64 → c.data = true → c.listOk c.length segs = true →
        exec (.status 0 tag (.done segs data)) s = .next (s.deliver c segs s.keyStatus []))) ∧
    (Turn s tag 0x4D c → v = 0 → c.opflags = 0 → 4 ≤ c.length → c.length ≤ 4096 → c.length % 4 = 0 → c.data = true →
      (s.flintLatched = true ∨ s.roles.flint.stat = 3 → exec (.entropyGet 0 tag (.done segs data)) s = .next (s.complete c 0x0500 [])) ∧
      (s.flintLatched = false →
        (s.roles.flint.stat = 2 → exec (.entropyGet 0 tag (.done segs data)) s = .next (s.complete c 0x0100 (natLe 4 s.rerunHint))) ∧
        (s.roles.flint.stat < 2 →
          (s.roles.flint.drbg = false ∨ s.roles.flint.reseed = true →
            exec (.entropyGet 0 tag (.done segs data)) s = .next (s.setCmd { c with stage := .held })) ∧
          (s.roles.flint.drbg = true → s.roles.flint.reseed = false → c.listOk c.length segs = true →
            exec (.entropyGet 0 tag (.done segs data)) s = .next (State.deliver { s with
              nv := { s.nv with keys := { s.nv.keys with drawn := s.nv.keys.drawn + c.length } }
              roles := { s.roles with flint := { s.roles.flint with requests := s.roles.flint.requests + 1 } } } c segs
              ((List.range c.length).map fun i => Config.drbg (s.nv.keys.drawn + i)) (natLe 4 c.length))))))

/-- R537 to R539, R541, R543: a window whose longest run is below 81 and whose count is below 824 passes and counts; four are the start-up
test and six bring up the DRBG, with event 0x6052 after a rerun; a due reseed is served. Any other window fails: the DRBG stops, waiting
ENTROPY_GETs end ENTROPY_FAIL, event 0x6051, count 0x42; after three reruns Flint latches, event 0x6050, count 0x40. The rerun starts over.
The choices of the model that it rests on: assumption 6. -/
def Obligations.FlintWindows : Prop :=
  ∀ (s : State) (rct apt : BitVec 11), s.dieUp = true →
    let f := s.roles.flint
    let test := if f.drbg = false then 3 else if 81 ≤ rct.toNat then 1 else 2
    let count := if 81 ≤ rct.toNat then rct.toNat else apt.toNat
    let seen := (s.setF Reg.aptMax apt.toNat).setF Reg.rctMax (max (s.f Reg.rctMax) (min 127 rct.toNat))
    let win := seen.countF Reg.fltWin 1
    let down : Flint := { f with drbg := false, passed := 0, halted := true, stat := 2, failAt := s.time.uptime }
    (f.halted = true → f.stat = 2 → exec .flintRerun s = .next (s.setFlint { f with halted := false, passed := 0, reruns := f.reruns + 1 })) ∧
    (f.drbg = true → exec .drbgReseed s = .next (s.setFlint { f with reseed := true })) ∧
    (s.dev ≠ .rom → f.halted = false → f.stat ≠ 3 →
      (rct.toNat < 81 → apt.toNat < 824 →
        (f.stat = 1 → f.drbg = true → exec (.flintWindow rct apt) s = .next (win.setFlint { f with
          reseed := false, requests := if f.reseed then 0 else f.requests })) ∧
        (f.stat ≠ 1 ∨ f.drbg = false → f.passed + 1 < 6 → exec (.flintWindow rct apt) s = .next (win.setFlint { f with
          passed := f.passed + 1, stat := if f.passed + 1 = 4 ∧ f.stat = 0 then 1 else f.stat })) ∧
        (f.stat ≠ 1 ∨ f.drbg = false → 6 ≤ f.passed + 1 → ∀ u, u = win.setFlint { f with
            passed := 0, drbg := true, requests := 0, reseed := false, stat := 1, reruns := 0 } →
          (f.stat ≠ 2 → exec (.flintWindow rct apt) s = .next u) ∧
          (f.stat = 2 → Answers (exec (.flintWindow rct apt) s) (Logs u 0x6052 Src.flint 3 f.reruns 0 0)))) ∧
      (81 ≤ rct.toNat ∨ 824 ≤ apt.toNat → Answers (exec (.flintWindow rct apt) s) fun t => ∃ u v : State,
        Logs (((seen.ring 0).cmds.filter fun c => c.opcode == 0x4D && c.stage == .held).foldl (fun t c => t.complete c 0x0500 [])
          (seen.setFlint down)) 0x6051 Src.flint test f.reruns count 0 u ∧ Counts u 0x42 v ∧ v.roles.flint = down ∧
        (¬ (f.stat = 2 ∧ 3 ≤ f.reruns) → t = v) ∧
        (f.stat = 2 ∧ 3 ≤ f.reruns → ∃ w, Logs { v with flintLatched := true, roles := { v.roles with flint := { down with stat := 3 } } }
          0x6050 Src.flint test f.reruns count 0 w ∧ Counts w 0x40 t)))

/-- R133, R175, R417, R552 to R559: IMAGE_WRITE opens a session with BEGIN and holds chunks in its pool once the ledger admits one; with no
session it ends IMAGE_SEQUENCE. IMAGE_COMMIT checks both copies and names the slot; IMAGE_CONFIRM confirms the running trial. The trial's
time is saved, and at its limit the trial is confirmed by itself or ends with 0x1013. HOOK_LOAD discards queued requests, then loads and
stores a good section; while a hook runs it waits.
The choices of the model that it rests on: assumptions 45 and 50. -/
def Obligations.ImageCommands : Prop :=
  ∀ (s : State) (tag : BitVec 5) (c : Cmd) (segs data : Bytes) (copies : Copies) (g : Nat),
    let b := padTo c.length data
    let units := min 512 (ceilDiv c.length 4096)
    (1 ≤ s.roles.pcie → c.volume = 0 → c.noOps = true →
      (c.start % 4096 = 0 → c.length % 4096 = 0 → c.start + c.length ≤ 4194304 → c.data = true → Turn s tag 0x45 c →
        (c.opflags = 0 → s.sessionOn 0 = none → exec (.imageWrite 0 tag (.done segs data)) s = .next (s.complete c 0x0901 [])) ∧
        (c.opflags = 1 ∨ c.opflags = 0 ∧ s.sessionOn 0 = some g →
          (s.openTo 6 = false → exec (.imageWrite 0 tag (.done segs data)) s = .next (s.complete c 0x0102 [])) ∧
          (s.openTo 6 = true → s.unitsFit 6 1 = false ∨ s.energyFits 1 = false →
            exec (.imageWrite 0 tag (.done segs data)) s = .next (s.hold c 6 1)) ∧
          (s.openTo 6 = true → s.unitsFit 6 1 = true → s.energyFits 1 = true → c.listOk c.length segs = true →
            Answers (exec (.imageWrite 0 tag (.done segs data)) s) fun t => ∃ u : State, ∃ h,
              (if c.opflags = 1 then Begun s 0 u ∧ h = s.spareSlot else u = s ∧ h = g) ∧
              ∀ r, r = u.putChunks h (c.start / 4096) (c.length / 4096) b →
                (r.2 = true → t = r.1.complete c 0 (natLe 4 c.length ++ natLe 8 r.1.heldBytes)) ∧ (r.2 = false → t = s.complete c 0x0201 [])))) ∧
      (c.opflags = 0 → c.start = 0 →
        (Turn s tag 0x46 c → c.pointerOk 0 = true →
          (s.sessionOn 0 = none → exec (.imageCommit 0 tag copies) s = .next (s.complete c 0x0901 [])) ∧
          (s.sessionOn 0 = some g →
            ((s.pool g).held < c.length ∨ imgTotal ((s.pool g).bytes c.length) ≠ c.length →
              exec (.imageCommit 0 tag copies) s = .next (s.complete c 0x0901 [])) ∧
            (c.length ≤ (s.pool g).held → imgTotal ((s.pool g).bytes c.length) = c.length →
              (s.unitsFit 6 units = false → exec (.imageCommit 0 tag copies) s = .next (s.hold c 6 units)) ∧
              (s.unitsFit 6 units = true → ∀ code, code = s.copiesCode ((s.pool g).bytes c.length) copies →
                Answers (exec (.imageCommit 0 tag copies) s) fun t => ∃ u, Committed s g c.length code copies u ∧
                  t = u.complete c (imageStatus code) (natLe 4 0 ++ natLe 4 code ++ natLe 1 g))))) ∧
        (Turn s tag 0x47 c → c.noData = true →
          (s.onTrial = true → Answers (exec (.imageConfirm 0 tag) s) fun t => ∃ u, Confirmed s u ∧ t = u.complete c 0 []) ∧
          (s.onTrial = false → exec (.imageConfirm 0 tag) s = .next (s.complete c 0x0901 []))) ∧
        (Turn s tag 0x52 c → 64 ≤ c.length → c.length ≤ 10816 → c.data = true →
          (s.hooks.busy = true → c.stage ≠ .held → exec (.hookLoad 0 tag (.done segs data)) s = .next (s.setCmd { c with stage := .held })) ∧
          (s.hooks.busy = false → c.listOk c.length segs = true → ∀ r, r = State.loadSection { s.countF Reg.hookMerged s.hooks.queue.length with
              hooks := { s.hooks with queue := [] } } 1 true b →
            (r.2 = 1 → exec (.hookLoad 0 tag (.done segs data)) s =
              .next ({ r.1.commit with nv := { r.1.nv with config := r.1.nv.config.put 0 b } }.complete c 0 [])) ∧
            (r.2 ≠ 1 → exec (.hookLoad 0 tag (.done segs data)) s = .next (r.1.complete c 0x0900 [])))))) ∧
    (s.dieUp = true → s.onTrial = true →
      (s.bas.freeze = false → ∀ k, k = (if s.dev.inService then (s.time.uptime - s.img.trialAt) / 25000 else 0) →
        exec .trialTimeSave s = .next { s.writeBoot (fun r => { r with trialMs := r.trialMs + s.img.trialHeld + k }) with
          img := { s.img with trialHeld := 0, trialAt := s.img.trialAt + 25000 * k } }) ∧
      (s.dev.inService = true →
        (s.img.selfConfirm = true → Answers (exec .trialExpiry s) (Confirmed s)) ∧
        (s.img.selfConfirm = false → Answers (exec .trialExpiry s) fun t => ∃ u,
          Logs (s.writeBoot fun r => { r with trial := 255, trialStarts := 0, trialMs := 0 }) 0x1013 Src.start 0 0 0 0 u ∧
          t = { u with start := { s.start with trial := false } })))

/-- R21, R122, R178, R179, R181, R185 to R187, R189, R192 to R194, R223, R519: PE_PERST_n, a hot reset or the link down, and an FLR reset
the host-facing units with their own event and count; bus mastering and power states change nothing else, and their return lets what
was held go on; an unmasked pending vector is sent; a link comes up at a rate no higher than MAX_SPEED, a degraded one with event 0x2011;
RETRAIN takes it through Recovery; L1 is asked for when nothing is outstanding.
The choices of the model that it rests on: assumptions 5, 6, 39 and 40. -/
def Obligations.HostLink : Prop :=
  ∀ (s : State) (v : Fin 16) (speed width : BitVec 3) (reversed : Bool) (polarity : BitVec 4),
    let msix (x : State) := x.sendPending
    exec .perstDeassert s = .next { s with pcie := { s.pcie with
      perstHeld := false, detect := s.dieUp, crs := s.dev = .rom || s.dev = .starting || !s.dieUp } } ∧
    (s.dieUp = true → s.pcie.perstHeld = false →
      (Answers (exec .perstAssert s) fun t => ∃ u, HostReset s 0x2005 Reg.resetsPerst false u ∧
        t = { u.linkDown with pcie := { u.linkDown.pcie with perstHeld := true, detect := false, crs := true } }) ∧
      (Answers (exec .hotReset s) fun t => ∃ u, HostReset s 0x2004 Reg.resetsHot true u ∧ t = u.linkDown) ∧
      (Answers (exec .functionLevelReset s) (HostReset s 0x2003 Reg.resetsFlr true)) ∧
      exec .busMasterEnableClear s = .next { s with pcie := { s.pcie with bme := false } } ∧
      exec .busMasterEnableSet s = .next (State.resumeHost { s with pcie := { s.pcie with bme := true } }) ∧
      exec .d3hotEntry s = .next { s with pcie := { s.pcie with d3 := true } } ∧
      exec .d0Return s = .next (State.resumeHost { s with pcie := { s.pcie with d3 := false } }) ∧
      exec (.msixUnmask none) s = .next (msix { s with pcie := { s.pcie with msixEn := true, fnMask := false } }) ∧
      exec (.msixUnmask (some v)) s = .next (msix { s with pcie := { s.pcie with
        msix := s.pcie.msix.setByte (16 * v.val + 12) (s.pcie.msix.byte (16 * v.val + 12) &&& 0xFE) } }) ∧
      (s.pcie.up = true → s.dev ≠ .recovery → exec .linkRetrain s = .next (s.setF Reg.linkPm 4)) ∧
      (s.pcie.up = true → s.cycleRing = false → s.readsOut = false → exec .aspmL1Request s = .next { s with pcie := { s.pcie with l1Asked := true } }) ∧
      (speed ≠ 0 → width.toNat = 1 ∨ width.toNat = 2 ∨ width.toNat = 4 → ∀ (u : State) (rate : Nat), u = s.takeMaxSpeed →
        rate = min speed.toNat (u.f Reg.maxSpeed) → Answers (exec (.pcieLinkUp speed width reversed polarity) s) fun t => ∃ w : State,
          (w.f Reg.linkSpeed, w.f Reg.linkWidth, w.f Reg.linkUp, w.f Reg.linkReversed, w.f Reg.linkPolarity, w.f Reg.linkPm) =
            (rate % 8, width.toNat, 1, b2n (reversed && width.toNat = 4), polarity.toNat, 0) ∧
          (∀ f : Field, f.key / 32 ≠ 0x400 → w.f f = u.f f) ∧
          { w with csr := u.csr, pcie := u.pcie } = u ∧ w.pcie = { u.pcie with up := true, detect := true } ∧
          if rate < u.f Reg.maxSpeed ∨ width.toNat < 4 then Logs (w.countF Reg.resetsDegrade 1) 0x2011 Src.pcie rate width.toNat 0 0 t else t = w))

/-- R190, R191, R202, R208, R407, R411 to R413: an error sets its AER bit, with its register bit, count or event; the completion of a
fetch brings its slots, that of an index read its tail, that of a transfer its descriptor's data; a poisoned, refused or timed-out one
faults the ring with 0x2022 (causes 1, 2, 3) or ends the command DMA_FAULT; one that nothing awaits is late and counts 0x21.
The choices of the model that it rests on: assumptions 39 and 41. -/
def Obligations.HostReads : Prop :=
  ∀ (s : State) (n : Fin 8) (tag : BitVec 5) (off : BitVec 22) (b : Bytes) (e : ReadEnd), s.dieUp = true → s.pcie.perstHeld = false →
    let aer (i : Nat) (x : State) : State := { x with pcie := { x.pcie with aer := withBit x.pcie.aer i true } }
    let r := s.ring n.val
    let got (k : ReadFor) (e : ReadEnd) := exec (.hostReadCompletion k n tag off e) s
    let noted := match e with
      | .poisoned => aer 2 s
      | .timedOut => aer 3 s
      | _ => s
    let fault (bit : Field) (cause : Nat) (t : State) : Prop := Logs ((noted.setF bit 1).setRing n.val { r with
      state := 3, fault := cause, fetching := none, indexing := false, again := if r.indexing then false else r.again }) 0x2022 Src.ring n.val cause 0 0 t
    (Answers (exec (.pcieErrorReceived .correctable) s) (Counts (aer 0 s) 0x19) ∧
      exec (.pcieErrorReceived .poisonedWrite) s = .next ((aer 1 s).setF Reg.errPoison 1) ∧
      exec (.pcieErrorReceived .poisonedCompletion) s = .next ((aer 2 s).setF Reg.errPoison 1) ∧
      exec (.pcieErrorReceived .completionTimeout) s = .next ((aer 3 s).setF Reg.errCplTo 1) ∧
      exec (.pcieErrorReceived .unexpected) s = .next ((aer 4 s).setF Reg.errUnexp 1) ∧
      exec (.pcieErrorReceived .unsupported) s = .next (aer 5 s) ∧
      Answers (exec (.pcieErrorReceived .fatal) s) (fun t => ∃ u, Logs ((aer 6 s).setF Reg.errFatal 1) 0x2010 Src.pcie 0 0 0 0 u ∧ Counts u 0x18 t)) ∧
    (s.bas.freeze = false →
      (∀ k, exec (.completionTimeout k n tag off) s = got k .timedOut) ∧
      (r.fetching = none → Answers (got .fetch e) (Counts (noted.setF Reg.errUnexp 1) 0x21)) ∧
      (∀ slot k, r.fetching = some (slot, k) → r.state = 1 → r.indexing = false →
        (e = .data b → got .fetch e = .next (((s.setRing n.val { r with fetching := none }).takeSlots n.val slot k b).fetchAll n.val)) ∧
        (e = .timedOut → Answers (got .fetch e) (fault Reg.errCplTo 1)) ∧
        (e = .poisoned ∨ e = .unsupported → Answers (got .fetch e) (fault Reg.errPoison 2))) ∧
      (r.indexing = false → Answers (got .index e) (Counts (noted.setF Reg.errUnexp 1) 0x21)) ∧
      (r.indexing = true → r.state = 1 → r.fetching = none →
        (e = .data b → r.again = false → ∀ u, u = s.setRing n.val { r with indexing := false, again := false } →
          (leAt b 0 4 < r.ctx.sqDepth → got .index e = .next ((u.newTail n.val (leAt b 0 4)).fetchAll n.val)) ∧
          (r.ctx.sqDepth ≤ leAt b 0 4 → Answers (got .index e) fun t => ∃ v, Logs u 0x2020 Src.ring n.val 0 0 0 v ∧ Counts v 0x22 t)) ∧
        (e = .timedOut → Answers (got .index e) (fault Reg.errCplTo 3)) ∧
        (e = .poisoned ∨ e = .unsupported → Answers (got .index e) (fault Reg.errPoison 3))) ∧
      (s.movingCmd n.val tag.toNat off.toNat = none → Answers (got .transfer e) (Counts (noted.setF Reg.errUnexp 1) 0x21)) ∧
      (∀ c d, s.movingCmd n.val tag.toNat off.toNat = some (c, d) → d.toHost = false →
        (e = .data b → got .transfer e = .next (s.setCmd { c with got := c.got.put d.off (c.got.get [] d.off ++ b) })) ∧
        (e = .timedOut → got .transfer e = .next (((noted.setF Reg.errCplTo 1).dmaFault c d 1).afterAppend c)) ∧
        (e = .poisoned → got .transfer e = .next (((noted.setF Reg.errPoison 1).dmaFault c d 2).afterAppend c)) ∧
        (e = .unsupported → got .transfer e = .next ((s.dmaFault c d 3).afterAppend c))) ∧
      (∀ y, s.tab.sync = some y → y.issued = true → got .table (.data b) = .next (s.syncRead (.data b))))

/-- R199, R202, R203, R206, R207, R211, R212, R215, R220, R222: a ring that is accepted is enabled with its pointers 0 and its phase 1;
disabling stops its fetching and aborts what has not started; a doorbell outside R203 moves its pointer, and a free ring then reads the
pending slots, at most PREFETCH and not past the end; a push fills the window, and a PUSHED doorbell that matches it takes a snapshot;
anything else is ignored with event 0x2020 and count 0x22. A chain without LAST breaks; the oldest counted completion brings its message.
The choices of the model that it rests on: assumptions 6, 28 and 41. -/
def Obligations.Rings : Prop :=
  ∀ (s : State) (n : Fin 8) (v : Word) (off : BitVec 12) (data : Bytes), s.dieUp = true → s.pcie.perstHeld = false → s.dev ≠ .recovery →
    let r := s.ring n.val
    let put (x : Ring) : State := s.setRing n.val x
    let bad (t : State) : Prop := ∃ u, Logs s 0x2020 Src.ring n.val 0 0 0 u ∧ Counts u 0x22 t
    let tail := bits v.toNat 9 0
    let w := v.toNat
    let belled : Ring := { r with sqTail := tail, bells := r.bells ++ [(tail, s.time.uptime)] }
    let count := (tail + r.ctx.sqDepth - r.sqTail) % r.ctx.sqDepth
    let freed := (tail + r.ctx.cqDepth - r.cqHead) % r.ctx.cqDepth
    (s.bas.freeze = true → Answers (exec (.dbTail n v) s) (Counts s 0x03) ∧ Answers (exec (.dbBare n) s) (Counts s 0x03) ∧
      Answers (exec (.dbCqh n v) s) (Counts s 0x03) ∧ Answers (exec (.pushWindowWrite n off data) s) (Counts s 0x03) ∧
      exec (.ringEnable n) s = .next s ∧ exec (.ringDisable n) s = .next s) ∧
    (s.bas.freeze = false →
      (r.state ≠ 1 ∨ r.ctx.dbBare = true ∨ bits w 15 10 ≠ 0 ∨ bits w 31 17 ≠ 0 ∨ r.ctx.sqDepth ≤ tail → Answers (exec (.dbTail n v) s) bad) ∧
      (r.state = 1 → r.ctx.dbBare = false → bits w 15 10 = 0 → bits w 31 17 = 0 → tail < r.ctx.sqDepth →
        (tail = r.sqTail → exec (.dbTail n v) s = .next s) ∧
        (tail ≠ r.sqTail →
          (bit w 16 = false → exec (.dbTail n v) s = .next ((put belled).fetchAll n.val)) ∧
          (bit w 16 = true → r.ctx.push = true → r.pushed = 64 * count → r.snap = none → count ≤ 4 → exec (.dbTail n v) s =
            .next ((put { belled with pushed := 0, snap := some (r.sqTail, r.push.bytes 0 (64 * count)) }).fetchAll n.val)) ∧
          (bit w 16 = true → r.ctx.push = false ∨ r.pushed ≠ 64 * count ∨ r.snap ≠ none ∨ 4 < count →
            Answers (exec (.dbTail n v) s) fun t => ∃ u, Counts ((put { belled with pushed := 0 }).countF Reg.pushMiss 1) 0x26 u ∧ t = u.fetchAll n.val) ∧
          (bit w 16 = false → s.mayPost = true → r.fetching = none → r.snap = none → r.cmds.length < 32 → r.sqHead < r.ctx.sqDepth → tail ≠ r.sqHead →
            let c := belled.atBoundary.ctx
            let k := min (min c.prefetch ((tail + r.ctx.sqDepth - r.sqHead) % r.ctx.sqDepth)) (r.ctx.sqDepth - r.sqHead)
            exec (.dbTail n v) s = .next ((s.setRing n.val { belled.atBoundary with fetching := some (r.sqHead, k) }).emit
              (.hostRead (c.sqBase + 64 * r.sqHead) (64 * k)))))) ∧
      (r.state ≠ 1 ∨ r.ctx.dbBare = false → Answers (exec (.dbBare n) s) bad) ∧
      (r.state = 1 → r.ctx.dbBare = true →
        (r.indexing = true → exec (.dbBare n) s = .next (put { r with again := true })) ∧
        (r.indexing = false → exec (.dbBare n) s = .next ((put { r with indexing := true, again := false }).emit (.hostRead r.ctx.idxBase 4)))) ∧
      (r.state = 0 ∨ r.state = 2 ∨ bits w 31 10 ≠ 0 ∨ r.ctx.cqDepth ≤ tail → Answers (exec (.dbCqh n v) s) bad) ∧
      (r.state = 1 ∨ r.state = 3 → bits w 31 10 = 0 → tail < r.ctx.cqDepth →
        (freed = 0 → exec (.dbCqh n v) s = .next s) ∧
        (freed ≠ 0 → (r.cqTail + r.ctx.cqDepth - r.cqHead) % r.ctx.cqDepth < freed → Answers (exec (.dbCqh n v) s) bad) ∧
        (freed ≠ 0 → freed ≤ (r.cqTail + r.ctx.cqDepth - r.cqHead) % r.ctx.cqDepth →
          exec (.dbCqh n v) s = .next (((put { r with cqHead := tail }).pumpRing n.val).fetchAll n.val) ∧
          (r.waiting = [] → r.state = 3 → exec (.dbCqh n v) s = .next ((put { r with cqHead := tail }).trimBells n.val)))) ∧
      (0x100 ≤ off.toNat → Answers (exec (.pushWindowWrite n off data) s) (Counts s 0x03)) ∧
      (data.length < 4 ∨ 64 < data.length ∨ data.length % 4 ≠ 0 ∨ off.toNat % 4 ≠ 0 ∨ 0x100 < off.toNat + data.length → off.toNat < 0x100 →
        exec (.pushWindowWrite n off data) s = .next s) ∧
      (4 ≤ data.length → data.length ≤ 64 → data.length % 4 = 0 → off.toNat % 4 = 0 → off.toNat + data.length ≤ 0x100 →
        exec (.pushWindowWrite n off data) s = .next (put { r with push := r.push.setBytes off.toNat data, pushed := r.pushed + data.length })) ∧
      (∀ c k, r.chain = some (c, k) → r.ctx.modeV = false → Answers (exec (.chainTimeout n) s) fun t => ∃ u : State,
        Counts (s.setRing c.ring { s.ring c.ring with chain := none }) 0x23 u ∧
        t = u.postCpl c.ring { c.cpl 0x0205 [] with releases := false }) ∧
      (r.modN ≠ 0 → exec (.moderationTimeout n) s = .next ((put { r with modN := 0 }).signal r.ctx.vector)) ∧
      (r.synced = none ∨ r.synced ≠ none ∧ r.state = 2 → Answers (exec (.ringEnable n) s) (Logs s 0x2021 Src.ring n.val 0 0 0)) ∧
      (∀ c, r.synced = some c → r.state = 0 → ∃ t, exec (.ringEnable n) s = .next t ∧ t.ring n.val = {
        synced := some c, ctx := c, state := 1, push := r.push, pushed := r.pushed } ∧ (∀ m, m ≠ n.val → t.ring m = s.ring m) ∧
        t.f (Reg.ringEn n.val) = 1 ∧ (∀ f : Field, f.key ≠ (Reg.ringEn n.val).key → t.f f = s.f f) ∧
        t.pcie = { s.pcie with ltr := if t.cycleRing then 10 else 1000 } ∧
        { t with csr := s.csr, rings := s.rings, pcie := s.pcie, out := s.out } = s) ∧
      (r.state = 0 ∨ r.state = 2 → exec (.ringDisable n) s = .next (s.setF (Reg.ringEn n.val) 0)) ∧
      (r.state = 1 ∨ r.state = 3 → ∀ u : State, u = (put { r with
          state := 2, fault := 0, snap := none, fetching := none, indexing := false, chain := none }).setF (Reg.ringEn n.val) 0 →
        (r.chain = none → exec (.ringDisable n) s =
          .next (((r.cmds.filter Cmd.unstarted).foldl (fun t c => t.complete c 0x0701 []) u).settleRing n.val).noteLtr) ∧
        (∀ c k, r.chain = some (c, k) → c.ring = n.val → exec (.ringDisable n) s = .next (((r.cmds.filter Cmd.unstarted).foldl
          (fun t c => t.complete c 0x0701 []) (u.postCpl n.val { c.cpl 0x0701 [] with releases := false })).settleRing n.val).noteLtr)))

/-- R196, R205, R217, R218, R220, R221: a completion is written as 32 bytes at the tail of its CQ, then the index block, then the message;
the tail moves on, the phase turns over at the wrap and the tag is free. With no free slot it waits and counts 0x24. Beside the rings, a
command's completion changes nothing but its outcome count, what was awaited for it, records and counts.
The choices of the model that it rests on: assumption 42. -/
def Obligations.CompletionEntries : Prop :=
  (∀ (s : State) (n : Nat) (c : Cpl), (s.ring n).waiting = [] → (s.ring n).state = 1 ∨ (s.ring n).state = 3 →
    let r := (s.ring n).atBoundary
    let tail := (r.cqTail + 1) % r.ctx.cqDepth
    let phase := if tail = 0 then !r.phase else r.phase
    let late := c.deadline = true ∧ c.status = 0 ∧ c.arrive + 1000 < s.time.uptime
    let entry := natLe 2 (if late then 1 else c.status) ++ [BitVec.ofNat 8 c.tag, BitVec.ofNat 8 (b2n r.phase + 2 * b2n c.async)] ++
      natLe 4 c.cookie ++ natLe 2 c.slot ++ natLe 2 r.sqHead ++ padTo 16 c.result ++ natLe 4 (s.time.uptime - c.arrive)
    let index := natLe 4 r.sqHead ++ natLe 4 (tail + 65536 * b2n phase) ++ natLe 8 ((r.written + 1) % 2 ^ 64)
    let x : Ring := { r with
      cqTail := tail, phase := phase, written := (r.written + 1) % 2 ^ 64
      cmds := if c.releases then r.cmds.filter fun m => m.tag ≠ c.tag else r.cmds }
    let out := (if r.ctx.idxwr then [Out.hostWrite (r.ctx.idxBase + 8) index] else []) ++ Out.hostWrite (r.ctx.cqBase + 32 * r.cqTail) entry :: s.out
    let wrote (y : Ring) : State := { s.setRing n y with out := out }
    let waits (k : Cpl) : State := s.setRing n { s.ring n with waiting := [k] }
    (s.mayPost = true → tail ≠ r.cqHead →
      (c.async = true → s.postCpl n c = (wrote x).signal 0) ∧
      (c.async = false → c.noint = true → s.postCpl n c = wrote x) ∧
      (c.async = false → c.noint = false → r.ctx.modTime = 0 ∨ r.ctx.modCount ≤ r.modN + 1 →
        s.postCpl n c = (wrote { x with modN := 0 }).signal r.ctx.vector) ∧
      (c.async = false → c.noint = false → r.ctx.modTime ≠ 0 → r.modN + 1 < r.ctx.modCount →
        s.postCpl n c = wrote { x with modN := r.modN + 1, modSince := if r.modN = 0 then s.time.uptime else r.modSince })) ∧
    (s.mayPost = true → tail = r.cqHead → c.counted = false → s.postCpl n c = (waits { c with counted := true }).bumpPlain 0x24) ∧
    (s.mayPost = false → s.postCpl n c = waits c)) ∧
  ∀ (s : State) (c : Cmd) (status : Nat) (result : Bytes), Steady (s.unqueued c) (s.complete c status result)

/-- R93, R192, R224 to R230, R587: the host's side of the mailbox. Bits newly set and not masked raise E1 and trigger hooks; a 1 clears a
device-to-host bit; a free slot takes data and is posted with E2; a full one refuses both and counts 0x22; a slot the host frees, or whose
time passes, is free with E3 and, timed out, its flag, event and count 0x25.
The choices of the model that it rests on: assumptions 6 and 57. -/
def Obligations.HostMailbox : Prop :=
  ∀ (s : State) (b : Word) (slot : Fin 8) (off : BitVec 6) (data : Bytes) (set : BitVec 8), s.dev ≠ .recovery → s.mbxUp = true →
    let m := s.mbx
    let at1 (n : Mbx) : State := { s with mbx := n }
    let one : BitVec 8 := BitVec.ofNat 8 (2 ^ slot.val)
    let new := b.toNat &&& (0xFFFFFFFF - m.h2dBits % 2 ^ 32)
    let freed (x : State) : State := if s.granted (fun e => grantD2hSlots e &&& 2 ^ slot.val ≠ 0) then (x.raise 0 3).raise 1 3 else x.raise 0 3
    let vector (x : State) : State := if s.f Reg.mbxIeTo = 1 then x.signal (s.f Reg.mbxVector) else x
    (Answers (exec (.mbxH2dSet b) s) fun t => ∃ u v : State,
      u = (if new &&& (0xFFFFFFFF - s.f Reg.h2dMask) ≠ 0 then (at1 { m with h2dBits := m.h2dBits ||| b.toNat }).raise 0 1
        else at1 { m with h2dBits := m.h2dBits ||| b.toNat }) ∧
      v = (if s.granted fun e => grantH2d e &&& new ≠ 0 then u.raise 1 1 else u) ∧
      t = (List.range 32).foldl (fun t i => if bit new i then t.hookTrigger (hookIs 1 i) else t) v ∧
      Steady (at1 { m with h2dBits := m.h2dBits ||| b.toNat }) t) ∧
    exec (.mbxD2hClear b) s = .next (at1 { m with d2hBits := m.d2hBits &&& (0xFFFFFFFF - b.toNat) }) ∧
    (data.length < 4 ∨ 64 < off.toNat + data.length ∨ off.toNat % 4 ≠ 0 ∨ data.length % 4 ≠ 0 →
      Answers (exec (.h2dSlotWrite slot off data) s) (Counts s 0x03)) ∧
    (4 ≤ data.length → off.toNat + data.length ≤ 64 → off.toNat % 4 = 0 → data.length % 4 = 0 →
      (bit m.h2dFull slot.val = true → Answers (exec (.h2dSlotWrite slot off data) s) (Counts s 0x22)) ∧
      (bit m.h2dFull slot.val = false → exec (.h2dSlotWrite slot off data) s =
        .next (at1 { m with h2d := m.h2d.setBytes (64 * slot.val + off.toNat) data }))) ∧
    (bit m.h2dFull slot.val = true → Answers (exec (.h2dPost one) s) (Counts s 0x22)) ∧
    (bit m.h2dFull slot.val = false → Answers (exec (.h2dPost one) s) fun t => ∃ u v : State,
      u = { s.mbxBoundary with mbx := { m with h2dFull := withBit m.h2dFull slot.val true } } ∧
      v = (if s.granted fun e => grantH2dSlots e &&& 2 ^ slot.val ≠ 0 then (u.raise 0 2).raise 1 2 else u.raise 0 2) ∧
      t = v.hookTrigger (hookIs 2 slot.val) ∧ Steady u t) ∧
    (Answers (exec (.h2dPost set) s) fun t => { t.mbx with h2dFull := m.h2dFull } = m ∧
      ∀ j : Fin 8, bit t.mbx.h2dFull j.val = (bit m.h2dFull j.val || bit set.toNat j.val)) ∧
    (bit m.d2hFull slot.val = true →
      exec (.d2hFree one) s = .next (freed (at1 { m with d2hFull := withBit m.d2hFull slot.val false }))) ∧
    (bit m.d2hFull slot.val = false → bit m.d2hTo slot.val = true → Answers (exec (.d2hFree one) s) (Counts s 0x21)) ∧
    (bit m.d2hFull slot.val = false → bit m.d2hTo slot.val = false → exec (.d2hFree one) s = .next s) ∧
    (Answers (exec (.d2hFree set) s) fun t => { t.mbx with d2hFull := m.d2hFull } = m ∧
      ∀ j : Fin 8, bit t.mbx.d2hFull j.val = (bit m.d2hFull j.val && !bit set.toNat j.val)) ∧
    (bit m.h2dFull slot.val = true → Answers (exec (.mailboxSlotTimeout false slot) s) fun t => ∃ u v : State,
      Logs (at1 { m with h2dFull := withBit m.h2dFull slot.val false, h2dTo := withBit m.h2dTo slot.val true }) 0x2030 Src.mailbox slot.val 0 0 0 u ∧
      Counts u 0x25 v ∧ t = vector v) ∧
    (bit m.d2hFull slot.val = true → Answers (exec (.mailboxSlotTimeout true slot) s) fun t => ∃ u v w : State,
      Logs (at1 { m with d2hFull := withBit m.d2hFull slot.val false, d2hTo := withBit m.d2hTo slot.val true }) 0x2031 Src.mailbox slot.val 0 0 0 u ∧
      Counts u 0x25 v ∧ w = v.raiseFreed slot.val ∧ t = vector w) ∧
    (bit m.h2dFull slot.val = false → exec (.mailboxSlotTimeout false slot) s = .next s) ∧
    (bit m.d2hFull slot.val = false → exec (.mailboxSlotTimeout true slot) s = .next s)

/-- R231 to R241, R253 to R258, R413, R414, R417 to R420, R576: a READ, WRITE or WRITE_ATOMIC that fails a check ends with that check's
status; a halted channel holds it back. A READ sends each block that reads and names the first that does not. A write is refused while its
class is shut, waits while its units or energy do not fit, and once granted its blocks hold its data, with no other block changed; or its
data is called for by descriptors; or a fault ends it.
The choices of the model that it rests on: assumptions 41, 42 and 44. -/
def Obligations.ReadsAndWrites : Prop :=
  ∀ (s : State) (n : Fin 8) (tag : BitVec 5) (c : Cmd) (segs data : Bytes) (media : List (Nat × Media)) (atomic : Bool) (off : BitVec 22) (code : BitVec 3),
    let write (x : Xfer) : Instr := if atomic then .writeAtomic n tag x else .write n tag x
    let op := if atomic then 3 else 2
    let read (x : Xfer) := exec (.read n tag x media) s
    let v := c.volume
    let size := (s.vol v).lbaBytes
    let total := c.length * size
    let span := c.blockSpan s
    let into := if (s.vol v).emul then 512 * (c.start % 8) else 0
    let runs := c.runs total segs
    (∀ x st, Starts s n.val tag.toNat 1 c → s.ioCheck c = some st → read x = .next (s.complete c st [])) ∧
    (∀ x st, Starts s n.val tag.toNat op c → s.ioCheck c = some st →
      exec (write x) s = .next (s.complete c st (if st = 0x0103 then natLe 4 s.shutdownHint else []))) ∧
    (∀ x, (s.chan c.ring).halted = true → s.ioCheck c = none →
      (Starts s n.val tag.toNat 1 c → read x = .next s) ∧ (Starts s n.val tag.toNat op c → exec (write x) s = .next s)) ∧
    (Clear s n.val tag.toNat 1 c → ∀ u fails, u = s.readBlocks v (((List.range c.length).map fun i => s.lbaPlace v (c.start + i)).eraseDups)
        (media.map fun m => (s.lbaPlace v (c.start + m.1), m.2)) → fails = u.failing v c.start c.length (failedOf media) →
      let status := match fails with
        | [] => 0
        | f :: _ => f.2
      let result := natLe 4 0 ++ natLe 4 (match fails with
        | [] => 0xFFFFFFFF
        | f :: _ => f.1) ++ natLe 4 fails.length
      let bytes := (List.range c.length).flatMap fun i => u.readBytes v c.start i
      let held := { c with holes := fails.map fun f => (f.1 * size, size) }
      (c.listOk total segs = true →
        read (.done segs data) = .next ((u.scatterBlocks v c.start size fails runs 0 c.length).complete c status result) ∧
        read (.issued segs) = .next (u.setCmd { held with
          stage := .moving, descs := cutRuns true true false 0 runs, got := [(0, bytes)], segs := runs, endStatus := status, endResult := result })) ∧
      (c.listOk total segs = false → read (.done segs data) = .next (u.complete c 0x0201 []) ∧ read (.issued segs) = .next (u.complete held 0x0201 [])) ∧
      read (.faulted off code) = .next (u.dmaFault held (descAt (cutRuns true true false 0 (c.runs total [])) off.toNat) code.toNat)) ∧
    (Clear s n.val tag.toNat op c → c.stage = .fetched → c.budgeted = false →
      (s.eligible c = false → ∀ d, d = { c with cls := 7 } →
        (s.openTo 7 = false → ∀ x, exec (write x) s = .next (s.complete d 0x0102 (natLe 4 (s.energyHint 7)))) ∧
        (s.openTo 7 = true → s.blocked d 7 = true ∨ s.unitsFit 7 span.2 = false ∨ s.energyFits span.2 = false →
          ∀ x, exec (write x) s = .next (s.hold d 7 span.2)) ∧
        (s.openTo 7 = true → s.blocked d 7 = false → s.unitsFit 7 span.2 = true → s.energyFits span.2 = true →
          ∀ e u, e = { d with units := span.2, fromReserve := false, granted := s.time.uptime } → u = ((s.takeGeneral span.2).setCmd e).unqueued e →
            (c.listOk total segs = true →
              (Answers (exec (write (.done segs data)) s) fun t => ∃ w,
                Wrote { u with str := { u.str with nextGroup := u.str.nextGroup + 1 } } v span.1 into span.2 data w ∧ t = w.complete e 0 []) ∧
              exec (write (.issued segs)) s = .next (u.setCmd { e with
                stage := .moving, descs := cutRuns false false false 0 runs, segs := runs })) ∧
            (c.listOk total segs = false → ∀ x, x = Xfer.done segs data ∨ x = .issued segs →
              exec (write x) s = .next ((u.giveBack span.2 0 false).complete e 0x0201 [])) ∧
            exec (write (.faulted off code)) s =
              .next (u.dmaFault e (descAt (cutRuns false false false 0 (c.runs total [])) off.toNat) code.toNat))) ∧
      (s.eligible c = true → s.inBudget span.2 = true → ∀ d r, d = { c with eligible := true, budgeted := true, cls := 3 } →
        r = ((s.countF Reg.cycCmds 1).countF Reg.cycUnits span.2).setCmd d → r.openTo 3 = true → span.2 ≤ r.resFree →
        ∀ e u, e = { d with units := span.2, fromReserve := true, granted := s.time.uptime } → u = ((r.takeReserve span.2).setCmd e).unqueued e →
          c.listOk total segs = true → Answers (exec (write (.done segs data)) s) fun t => ∃ w,
            Wrote { u with str := { u.str with nextGroup := u.str.nextGroup + 1 } } v span.1 into span.2 data w ∧ t = w.complete e 0 []))

/-- R231 to R235, R242 to R247, R250 to R252, R297 to R303, R413, R414, R420: the stream commands. An APPEND that is granted, with its payload in staging
and its turn come, adds one record at the end of its stream, releasing the oldest where it must, and answers its sequence number; a stream
with no room refuses it. SEAL_STREAM seals; READ_STREAM copies whole records; a pin keeps the records it names under a handle until its
release.
The choices of the model that it rests on: assumptions 41 and 44. -/
def Obligations.Streams : Prop :=
  ∀ (s : State) (n : Fin 8) (tag : BitVec 5) (c : Cmd) (segs data : Bytes) (media : List (Nat × Media)) (off : BitVec 22) (code : BitVec 3),
    let append (x : Xfer) := exec (.append n tag x) s
    let read (x : Xfer) := exec (.readStream n tag x media) s
    let v := c.volume
    let units := ceilDiv c.length 4096
    let runs := c.runs c.length segs
    let ready (x : State) : State := x.acceptReady c.ring v 32
    let pin (i : Instr) (form : Nat) (rs : List SRec) (gap : Bool) : Prop := Starts s n.val tag.toNat 9 c → s.ioCheck c = none → c.opflags = form →
      (s.pinRoom v = false → exec i s = .next (s.complete c 0x0101 [])) ∧
      (s.pinRoom v = true → let first := (rs.head?.map fun r => r.seq).getD 0
        exec i s = .next (({ s.commit with nv := { s.nv with pins := s.nv.pins ++
          [{ vol := v, handle := s.freeHandle, first := first, count := rs.length }] } } : State).complete c 0
          (natLe 2 s.freeHandle ++ natLe 2 (b2n gap) ++ natLe 8 first ++ natLe 4 rs.length)))
    (∀ st, s.ioCheck c = some st →
      (∀ x, Starts s n.val tag.toNat 4 c → append x = .next (s.complete c st (if st = 0x0103 then natLe 4 s.shutdownHint else []))) ∧
      (∀ x, Starts s n.val tag.toNat 8 c → read x = .next (s.complete c st [])) ∧
      (Starts s n.val tag.toNat 7 c → exec (.sealStream n tag) s = .next (s.complete c st [])) ∧
      (Starts s n.val tag.toNat 9 c → (c.opflags = 0 → exec (.pinBySequence n tag) s = .next (s.complete c st [])) ∧
        (c.opflags = 1 → exec (.pinRelease n tag) s = .next (s.complete c st [])) ∧ (c.opflags = 2 → exec (.pinByTime n tag) s = .next (s.complete c st [])))) ∧
    (∀ x, (s.chan c.ring).halted = true → s.ioCheck c = none →
      (Starts s n.val tag.toNat 4 c → append x = .next s) ∧ (Starts s n.val tag.toNat 8 c → read x = .next s)) ∧
    (Clear s n.val tag.toNat 4 c → c.stage = .fetched → c.budgeted = false → s.eligible c = false → ∀ d, d = { c with cls := 7 } →
      (s.openTo 7 = false → ∀ x, append x = .next (ready (s.complete d 0x0102 (natLe 4 (s.energyHint 7))))) ∧
      (s.openTo 7 = true → s.blocked d 7 = true ∨ s.unitsFit 7 units = false ∨ s.energyFits units = false → ∀ x, append x = .next (s.hold d 7 units)) ∧
      (s.openTo 7 = true → s.blocked d 7 = false → s.unitsFit 7 units = true → s.energyFits units = true →
        ∀ e u, e = { d with units := units, fromReserve := false, granted := s.time.uptime } → u = ((s.takeGeneral units).setCmd e).unqueued e →
          (c.listOk c.length segs = true →
            (u.earlierAppend e = true → append (.done segs data) = .next (u.setCmd { e with stage := .running, got := [(0, data)] })) ∧
            (u.earlierAppend e = false → (s.vol v).isSealed = false →
              (u.toRelease v (extent c.length) ((u.vol v).space - (u.vol v).used) (u.vol v).recs = none →
                append (.done segs data) = .next (ready ((u.giveBack units 0 false).complete e 0x0101 (natLe 4 0xFFFFFFFF)))) ∧
              ∀ k, u.toRelease v (extent c.length) ((u.vol v).space - (u.vol v).used) (u.vol v).recs = some k →
                Answers (append (.done segs data)) fun t => ∃ w, Appended u v k units {
                    seq := (u.vol v).nextSeq, ticks := u.time.uptime, cycles := u.time.cycles, optMs := u.time.optMs
                    payload := transformed (c.b 28 1) (2 ^ c.b 29 1) (c.b 30 1) (padTo c.length data)
                    src := c.ring, transform := c.b 28 1, off := (u.vol v).writeOff } false 0 e.granted w ∧
                  t = ready (w.complete e 0 (natLe 4 0 ++ natLe 8 (u.vol v).nextSeq))) ∧
            append (.issued segs) = .next (u.setCmd { e with
              stage := .moving, descs := cutRuns false false (c.b 28 1 ≠ 0) 0 runs, segs := runs })) ∧
          (c.listOk c.length segs = false → ∀ x, x = Xfer.done segs data ∨ x = .issued segs →
            append x = .next (ready ((u.giveBack units 0 false).complete e 0x0201 []))) ∧
          append (.faulted off code) = .next (ready (u.dmaFault e (descAt (cutRuns false false false 0 (c.runs c.length [])) off.toNat) code.toNat)))) ∧
    (Starts s n.val tag.toNat 7 c → s.ioCheck c = none → exec (.sealStream n tag) s = .next ((s.setVol v { s.vol v with isSealed := true }).commit.complete c 0
      (natLe 4 0 ++ natLe 8 (((s.vol v).recs.getLast?.map fun r => r.seq).getD 0xFFFFFFFFFFFFFFFF)))) ∧
    (Clear s n.val tag.toNat 8 c → ∀ u recs oldest q, u = s.readRecords v media → recs = (u.vol v).recs.filter (fun r => c.start ≤ r.seq) →
      oldest = ((u.vol v).recs.head?.map fun r => r.seq).getD c.start →
      q = streamCopy (failedOf media) c.length (c.b 28 4) recs (max c.start oldest) 0 →
      let result := natLe 4 q.1.length ++ natLe 8 (if recs = [] then c.start else q.2.2.1) ++ natLe 2 q.2.1 ++
        natLe 2 (b2n (c.start < oldest) + 2 * b2n q.2.2.2.1)
      (c.listOk c.length segs = true →
        read (.done segs data) = .next ((u.scatter q.1 runs).complete c q.2.2.2.2 result) ∧
        read (.issued segs) = .next (u.setCmd { c with
          stage := .moving, descs := cutRuns true true false 0 runs, got := [(0, q.1)], segs := runs, endStatus := q.2.2.2.2, endResult := result })) ∧
      (c.listOk c.length segs = false → ∀ x, x = Xfer.done segs data ∨ x = .issued segs → read x = .next (u.complete c 0x0201 [])) ∧
      read (.faulted off code) = .next (u.dmaFault c (descAt (cutRuns true true false 0 (c.runs c.length [])) off.toNat) code.toNat)) ∧
    pin (.pinBySequence n tag) 0 ((s.vol v).recs.filter fun r => c.start ≤ r.seq && r.seq < c.start + c.length)
      (c.start < ((s.vol v).recs.head?.map fun r => r.seq).getD (s.vol v).nextSeq) ∧
    pin (.pinByTime n tag) 2 (((s.vol v).recs.filter fun r => r.cycles = s.time.cycles && c.arrive - msTicks c.length ≤ r.ticks).filter fun r => r.ticks ≤ c.arrive) false ∧
    (Starts s n.val tag.toNat 9 c → s.ioCheck c = none → c.opflags = 1 →
      let mine (p : Pin) : Bool := p.vol == v && p.handle == c.b 28 2
      (s.nv.pins.any mine = false → exec (.pinRelease n tag) s = .next (s.complete c 0x0201 [])) ∧
      (s.nv.pins.any mine = true → exec (.pinRelease n tag) s =
        .next (({ s.commit with nv := { s.nv with pins := s.nv.pins.filter fun p => !mine p } } : State).complete c 0 [])))

/-- R112, R232 to R234, R248, R249, R254, R317: FLUSH completes once nothing it covers is left in staging, and till then runs on; TRIM leaves its
blocks unmapped, so that they read as zeros, and every other block as it was; at the end of a budget window the counts restart and the
staged budget takes effect.
The choices of the model that it rests on: assumption 43. -/
def Obligations.FlushTrimBudget : Prop :=
  ∀ (s : State) (n : Fin 8) (tag : BitVec 5) (c : Cmd),
    (∀ st, s.ioCheck c = some st →
      (Starts s n.val tag.toNat 5 c → exec (.flush n tag) s = .next (s.complete c st [])) ∧
      (Starts s n.val tag.toNat 6 c → exec (.trim n tag) s = .next (s.complete c st []))) ∧
    (Starts s n.val tag.toNat 5 c → s.ioCheck c = none →
      let covered (v granted : Nat) : Prop := (c.opflags = 1 ∨ v = c.volume) ∧ granted ≤ c.arrive
      let open_ : Prop := (∃ u, u ∈ s.str.units ∧ covered u.vol u.granted) ∨
        (∃ m r x, (m, r) ∈ s.rings ∧ x ∈ r.cmds ∧ (x.stage = .moving ∨ x.stage = .running) ∧ 2 ≤ x.opcode ∧ x.opcode ≤ 4 ∧ covered x.volume x.granted) ∨
        ∃ k y m, (k, y) ∈ s.fab.conns ∧ y.inMsg = some m ∧ covered m.vol m.granted
      (open_ → exec (.flush n tag) s = .next (s.setCmd { c with stage := .held })) ∧
      (¬ open_ → exec (.flush n tag) s = .next (s.complete c 0 []))) ∧
    (Starts s n.val tag.toNat 6 c → s.ioCheck c = none →
      let v := c.volume
      let lo := c.start
      let hi := c.start + c.length
      let whole := s.trimWhole v (ceilDiv lo 8) (hi / 8 - ceilDiv lo 8)
      ((s.vol v).emul = false → Answers (exec (.trim n tag) s) fun t => ∃ w : State, t = w.complete c 0 [] ∧
        (∀ b, b < (s.vol v).blocks → w.blk v (s.place v b) = if lo ≤ b ∧ b < hi then none else s.blk v (s.place v b)) ∧
        (∀ b, lo ≤ b → b < hi → w.blockBytes v (s.place v b) = List.replicate 4096 0) ∧
        { w.vol v with map := (s.vol v).map } = s.vol v ∧ (∀ x, x ≠ v → w.vol x = s.vol x) ∧
        { w with str := s.str, alloc := s.alloc, led := s.led, nv := { w.nv with vols := s.nv.vols, loss := s.nv.loss } } = s) ∧
      ((s.vol v).emul = true →
        (hi / 8 < ceilDiv lo 8 → exec (.trim n tag) s = .next ((s.trimPart v (hi / 8) (lo % 8) (hi % 8)).complete c 0 [])) ∧
        (ceilDiv lo 8 ≤ hi / 8 → exec (.trim n tag) s = .next
          (((if lo % 8 = 0 then whole else whole.trimPart v (lo / 8) (lo % 8) 8).trimPart v (hi / 8) 0 (hi % 8)).complete c 0 [])))) ∧
    (Answers (exec .budgetWindowEnd s) fun t => t.f Reg.cycCmds = 0 ∧ t.f Reg.cycUnits = 0 ∧
      (∀ f ∈ [Reg.cycWindow, Reg.cycMaxCmds, Reg.cycMaxUnits], t.staged.get? f.key = none ∧
        t.f f = match s.staged.get? f.key with
          | some x => x % 2 ^ f.width
          | none => s.f f) ∧
      (∀ f : Field, (∀ g ∈ [Reg.cycCmds, Reg.cycUnits, Reg.cycWindow, Reg.cycMaxCmds, Reg.cycMaxUnits], f.key ≠ g.key) → t.f f = s.f f) ∧
      { t with csr := s.csr, staged := s.staged } = s)

/-- R113, R233, R260, R261, R274 to R281, R318, R510: the queries. Each sends what its table says of the state at its turn and completes OK with its
counts; nothing else changes, but that LOG_READ with CLEAR zeroes the counters it copied, with event 0xF003, and counts each record that
decodes from neither copy. A list that does not suit the transfer is refused, and a transfer fault ends the command DMA_FAULT.
The choices of the model that it rests on: assumptions 47, 49 and 61. -/
def Obligations.Queries : Prop :=
  ∀ (s : State) (tag : BitVec 5) (c : Cmd) (segs data : Bytes) (off : BitVec 22) (code : BitVec 3) (gone : List (BitVec 16)), c.data = true →
    let fault (t : State) : State := t.dmaFault c (descAt (cutRuns true false false 0 (c.runs c.length [])) off.toNat) code.toNat
    let sends (i : AdmXfer → Instr) (b r : Bytes) : Prop :=
      (c.listOk c.length segs = true → exec (i (.done segs data)) s = .next (s.deliver c segs b r)) ∧
      (c.listOk c.length segs = false → exec (i (.done segs data)) s = .next (s.complete c 0x0201 [])) ∧
      exec (i (.faulted off code)) s = .next (fault s)
    (Turn s tag 0x40 c → c.volume = 0 → c.opflags = 0 → c.start = 0 → c.noOps = true → c.length = 4096 → sends (.identify 0 tag)
      (padTo 4096 (natLe 4 0x51420824 ++ natLe 2 0x1F5C ++ natLe 2 0x0824 ++ calBytes 8 24 ++ calBytes 0x20 16 ++
        natLe 4 s.img.version ++ natLe 4 Config.romVersion.toNat ++ s.health ++ natLe 100 0 ++ (List.range 32).flatMap s.volSummary)) (natLe 4 4096)) ∧
    (Turn s tag 0x43 c → c.volume ≤ 31 → c.opflags = 0 → c.start = 0 → c.noOps = true → c.length = 256 →
      let v := s.vol c.volume
      let b := s.nv.boot
      let stream (n : Nat) : Bytes := natLe 8 (if v.kind = 1 then n else 0)
      let first := v.recs.head?
      (v.kind = 255 → sends (.volumeQuery 0 tag) (padTo 256 [0, 0xFF]) (natLe 4 256)) ∧
      (v.kind ≠ 255 → sends (.volumeQuery 0 tag) (padTo 256 (natLe 1 c.volume ++ natLe 1 v.kind ++ natLe 1 (s.volBits c.volume + 16 * b2n v.sanitize) ++
        natLe 1 (s.nv.pins.filter fun p => p.vol == c.volume).length ++ natLe 4 v.retention ++ natLe 8 v.cap ++
        natLe 8 (if v.kind = 1 then ceilDiv v.used 4096 else v.map.length) ++
        natLe 8 ((s.nv.loss.runs.filter fun r => r.vol == c.volume).map fun r => r.len).sum ++ stream v.nextSeq ++
        stream ((first.map fun r => r.seq).getD v.nextSeq) ++ natLe 8 ((first.map SRec.timeField).getD 0) ++ stream v.used ++ natLe 8 v.released ++
        natLe 1 (if v.kind = 2 then b.bootSlot else 0) ++ natLe 1 (b2n (v.kind = 2 && (b.once.isSome || b.revert.isSome))) ++
        natLe 1 (if v.kind = 2 then b.nextSlot else 0) ++ natLe 5 0 ++
        natLe 4 (s.str.loaded.filter fun k => k / 2 ^ 32 == c.volume).length)) (natLe 4 256))) ∧
    (Turn s tag 0x57 c → c.volume ≤ 31 ∨ c.volume = 255 → c.opflags = 0 → c.b 28 1 ≤ 5 → c.zero 29 27 = true → 64 ≤ c.length → c.length % 16 = 0 →
      let all := s.nv.loss.runs.filter fun r => (c.volume == 255 || r.vol == c.volume) && (c.b 28 1 == 0 || r.cause == c.b 28 1)
      let sel := (all.drop c.start).take ((c.length - 64) / 16)
      let bytes := s.lossHeader ++ sel.flatMap fun r => natLe 1 r.vol ++ natLe 1 r.cause ++ natLe 2 r.len ++ natLe 8 r.first ++ natLe 4 r.cycle
      sends (.lossReport 0 tag) bytes (natLe 4 bytes.length ++ natLe 4 sel.length ++ natLe 4 all.length)) ∧
    (Turn s tag 0x56 c → c.opflags ≤ 1 → itemSize c.volume ≠ 0 → c.length = itemSize c.volume → c.start < itemCount c.volume → c.noOps = true →
      sends (.configRead 0 tag) (if c.opflags = 1 then s.itemInForce c.volume c.start
        else padTo c.length (s.nv.config.get (itemDefault c.volume) (c.volume * 65536 + c.start))) (natLe 4 c.length)) ∧
    (Turn s tag 0x44 c → c.logOk = true → c.opflags = 0 ∨ s.asOwner = true →
      let page := s.pageWith c.volume (gone.map fun i => i.toNat)
      let bytes := (page.drop c.start).take c.length
      let result := natLe 4 bytes.length ++ natLe 8 (s.pageSequence c.volume) ++ natLe 4 page.length
      (c.opflags = 0 → c.volume ≠ 2 → c.volume ≠ 3 → sends (fun x => .logRead 0 tag gone x) bytes result) ∧
      (c.listOk c.length segs = true → Answers (exec (.logRead 0 tag gone (.done segs data)) s) fun t => ∃ u, t = u.deliver c segs bytes result ∧
        (c.opflags = 0 → Steady s u) ∧
        (c.opflags = 1 → c.volume = 4 → Logs (({ s with evr := { s.evr with
            tc := s.evr.tc.filter fun e => !(decide (c.start ≤ 2 * e.1) && decide (2 * e.1 < c.start + c.length)) } } : State).touch 4) 0xF003 Src.recorder 4 0 0 0 u) ∧
        (c.opflags = 1 → c.volume = 6 → Logs (({ s with cls := s.cls.filter fun e => !(decide (c.start ≤ 4 * e.1) && decide (4 * e.1 < c.start + c.length)) } : State).touch 6)
          0xF003 Src.recorder 6 0 0 0 u)))

/-- R262, R268, R272, R273, R291 to R296, R532, R536, R542: volumes. A create makes the volume with whole granules and, with ENCRYPT, its key; a
delete ends it and all that it held; a slot switch names the boot slot; a SANITIZE locks its volumes until its end, when they hold nothing and,
if cryptographic, have new keys. The installer's role is asked for throughout.
The choices of the model that it rests on: assumptions 45, 46, 47 and 48. -/
def Obligations.Volumes : Prop :=
  ∀ (s : State) (tag : BitVec 5) (c : Cmd),
    let v := c.volume
    let denied (i : Instr) : Prop := s.asOwner = false → exec i s = .next (s.complete c 0x0400 [])
    (Turn s tag 0x41 c → v ≤ 31 → c.opflags ≤ 15 → bits c.opflags 1 0 ≠ 3 → c.zero 32 24 = true → c.noData = true →
      let i := Instr.volumeCreate 0 tag
      let kind := bits c.opflags 1 0
      let g := 1024 * ceilDiv c.start 1024
      let good : Bool := (s.vol v).kind = 255 && c.start ≠ 0 && (v = 0) == (kind = 2) && (kind ≠ 1 || !bit c.opflags 2) && (kind = 1 || c.b 28 4 = 0) &&
        (if kind = 2 then 2 * g else g) ≤ s.available
      let made := (s.setVol v { kind := kind, emul := bit c.opflags 2, encrypt := bit c.opflags 3, cap := g, retention := c.b 28 4 }).commit
      denied i ∧ (s.asOwner = true → good = false → exec i s = .next (s.complete c 0x0201 [])) ∧
      (s.asOwner = true → good = true →
        (bit c.opflags 3 = true → s.flintFailed = true → exec i s = .next (s.complete c 0x0500 [])) ∧
        (bit c.opflags 3 = true → s.flintFailed = false → s.roles.flint.drbg = false → exec i s = .next s) ∧
        (bit c.opflags 3 = false ∨ s.flintFailed = false ∧ s.roles.flint.drbg = true → Answers (exec i s) fun t => ∃ u w : State,
          (if bit c.opflags 3 then Keyed made v u else u = made) ∧ Logs u 0x1070 Src.strata v 0 0 0 w ∧ t = w.complete c 0 (natLe 4 0 ++ natLe 8 g)))) ∧
    (Turn s tag 0x42 c → 1 ≤ v → v ≤ 31 → c.opflags ≤ 1 → c.start = 0 → c.noOps = true → c.noData = true →
      let i := Instr.volumeDelete 0 tag
      let good : Bool := (s.vol v).kind ≠ 255 && (c.opflags = 1 || !s.nv.pins.any fun p => p.vol == v)
      denied i ∧ (s.asOwner = true → good = false → exec i s = .next (s.complete c 0x0201 [])) ∧
      (s.asOwner = true → good = true → s.writersOn v = true → exec i s = .next s) ∧
      (s.asOwner = true → good = true → s.writersOn v = false → Answers (exec i s) fun t => ∃ u w : State, Emptied s [v] (fun _ => {}) u ∧
        Logs ({ u with nv := { u.nv with keys := { u.nv.keys with vol := u.nv.keys.vol.erase v } }
                       roles := { u.roles with keys := withBit u.roles.keys v false } } : State).commit 0x1071 Src.strata v 0 0 0 w ∧ t = w.complete c 0 [])) ∧
    (Turn s tag 0x51 c → v = 0 → c.opflags ≤ 3 → c.start = 0 → c.noOps = true → c.noData = true →
      let i := Instr.bootSlotSwitch 0 tag
      let g := bits c.opflags 0 0
      denied i ∧ (s.asOwner = true → s.writersOn 0 = true → exec i s = .next s) ∧
      (s.asOwner = true → s.writersOn 0 = false → Answers (exec i s) fun t => ∃ u : State, t = u.commit.complete c 0 [] ∧
        if bit c.opflags 1 then u = s.writeBoot fun b => { b with once := some g }
        else if g = s.nv.boot.bootSlot then u = s.writeBoot fun b => { b with revert := none }
        else Logs (s.writeBoot fun b => { b with bootSlot := g, once := none, revert := none }) 0x1072 Src.strata g 0 0 0 u)) ∧
    (∀ crypto : Bool, let i (last : Bool) := if crypto then Instr.sanitizeCryptoErase 0 tag last else Instr.sanitizeBlockErase 0 tag last
      (Turn s tag 0x53 c → v ≤ 31 ∨ v = 255 → c.opflags ≤ 7 → bits c.opflags 1 0 = (if crypto then 1 else 2) → c.start = 0 → c.noOps = true → c.noData = true →
        let vs := (List.range 32).filter fun w => (v == 255 || w == v) && (s.vol w).kind ≠ 255 && (w ≠ 0 || bit c.opflags 2)
        let good : Bool := (v = 255 || !vs.isEmpty) && (!crypto || vs.all fun w => (s.vol w).encrypt)
        denied (i false) ∧ (s.asOwner = true → good = false → exec (i false) s = .next (s.complete c 0x0201 [])) ∧
        (s.asOwner = true → good = true → crypto = true → s.flintFailed = true → exec (i false) s = .next (s.complete c 0x0500 [])) ∧
        (s.asOwner = true → good = true → crypto = true → s.flintFailed = false → s.roles.flint.drbg = false → exec (i false) s = .next s) ∧
        (s.asOwner = true → good = true → crypto = false ∨ s.flintFailed = false ∧ s.roles.flint.drbg = true → Answers (exec (i false) s) fun t => ∃ u w : State,
          (∀ w ∈ vs, u.vol w = { s.vol w with sanitize := true }) ∧ (∀ w, w ∉ vs → u.vol w = s.vol w) ∧ { u with nv := { u.nv with vols := s.nv.vols } } = s ∧
          Logs { u.commit with nv := { u.nv with
            sanitize := some { vols := vs, crypto := crypto, began := s.time.uptime }, sanDone := 0, sanScope := (s.blocksOf vs).length } } 0x6030 Src.strata v 0 0 0 w ∧
          t = w.setCmd { c with stage := .running })) ∧
      (s.nv.sanitize = none → exec (i true) s = .next s) ∧
      (∀ y, s.nv.sanitize = some y → y.crypto = crypto → s.dieUp = true → s.dev.inService = true → s.bas.freeze = false →
        (crypto = true → s.roles.flint.drbg = false → exec (i true) s = .next s) ∧
        (crypto = false ∨ s.roles.flint.drbg = true → Answers (exec (i true) s) fun t => ∃ u w x : State, Emptied s y.vols (fun z => { z with sanitize := false, map := [], recs := [] }) u ∧
          (crypto = true → (∀ z ∈ y.vols, ∃ k, w.nv.keys.vol.get? z = some { drawn := k, secret := none } ∧ s.nv.keys.drawn ≤ k) ∧
            (∀ z, z ∉ y.vols → w.nv.keys.vol.get? z = s.nv.keys.vol.get? z) ∧ (∀ z, w.vol z = u.vol z)) ∧
          (crypto = false → w = (s.blocksOf y.vols).foldl State.sanBlock u ∧ MediaSide u w ∧ ∀ z ∈ y.vols, (w.vol z).map = [] ∧ (w.vol z).recs = []) ∧
          Logs { w.commit with nv := { w.nv with sanitize := none, sanDone := w.nv.sanScope } } 0x6031 Src.strata 0 0 0 0 x ∧
          ((s.cmd? 0 tag.toNat = some c ∧ c.opcode = 0x53 ∧ c.stage = .running →
            t = x.complete c 0 (natLe 4 0 ++ natLe 8 (if crypto then 0 else (s.blocksOf y.vols).length) ++ natLe 4 (ceilDiv (s.time.uptime - y.began) 25000))) ∧
          (s.cmd? 0 tag.toNat = none → t = x)))))

/-- R262 to R264, R267, R282 to R287, R581: self-tests. A test starts unless one runs, and goes through its steps; the end of the last is a pass. A unit
found faulty ends the test, and is taken out of use. A stop request ends it at the next piece boundary; a test that starves ends with
result 4.
The choices of the model that it rests on: assumption 51. -/
def Obligations.SelfTests : Prop :=
  ∀ (s : State) (tag : BitVec 5) (c : Cmd),
    let last (x : SelfTest) := if x.kind = 2 then 12 else 9
    let starts (i : Instr) (kind : Nat) : Prop :=
      (∀ x, s.selfTest = some x → exec i s = .next (s.complete c 0x0100 (natLe 4
        ((List.range 13).map fun k => if x.step ≤ k ∧ k ≤ last x then s.stepUs k else 0).sum))) ∧
      (s.selfTest = none → Answers (exec i s) (Logs { s.setCmd { c with stage := .running } with
        selfTest := some { kind := kind, step := 1, ring := c.ring, tag := c.tag, began := s.time.uptime } } 0x9001 Src.selfTest kind 0 0 0))
    let ends (u : State) (x : SelfTest) (t : State) : Prop := if x.stopping then TestEnded u x 2 0 0 t else t = u
    let piece (p : Piece) := exec (.selfTestPieceDone p) s
    (Turn s tag 0x48 c → c.volume = 0 → c.start = 0 → c.noOps = true → c.noData = true →
      (c.opflags = 1 → starts (.selfTestShort 0 tag) 1) ∧ (c.opflags = 2 → starts (.selfTestExtended 0 tag) 2) ∧
      (c.opflags = 3 → let i := Instr.selfTestStop 0 tag
        (s.selfTest = none → exec i s = .next (s.complete c 0 [])) ∧
        (∀ x, s.selfTest = some x → (x.stop ≠ none → exec i s = .next (s.complete c 0 [])) ∧
          (x.stop = none → exec i s = .next { s.setCmd { c with stage := .running } with selfTest := some { x with stopping := true, stop := some (c.ring, c.tag) } })))) ∧
    (s.selfTest = none → exec .selfTestStarved s = .next s ∧ ∀ p, piece p = .next s) ∧
    (∀ x, s.selfTest = some x →
      (s.dieUp = false ∨ s.dev.serves = false ∨ s.bas.freeze = true → exec .selfTestStarved s = .next s) ∧
      (s.dieUp = false ∨ s.dev.inService = false ∨ s.bas.freeze = true → ∀ p, piece p = .next s) ∧
      (s.dieUp = true → s.dev.serves = true → s.bas.freeze = false → Answers (exec .selfTestStarved s) (TestEnded s x 4 0 0)) ∧
      (s.dieUp = true → s.dev.inService = true → s.bas.freeze = false →
        let excess (p : Piece) : Prop :=
          ((x.step + 1 > last x ∨ x.step + 1 = 12 ∧ s.parityOn = false) → Answers (piece p) (TestEnded s x 0 0 0)) ∧
          (x.step + 1 ≤ last x → ¬ (x.step + 1 = 12 ∧ s.parityOn = false) →
            Answers (piece p) (ends { s with selfTest := some { x with step := x.step + 1 } } { x with step := x.step + 1 }))
        let measured : Bool := s.led.valid && decide (s.time.uptime ≤ s.led.doneAt + msTicks 3660000)
        Answers (piece .goes) (ends s x) ∧
        (∀ lun block soft, (x.step ≠ 11 → Answers (piece (.page lun block soft)) (ends s x)) ∧
          (x.step = 11 → Answers (piece (.page lun block soft)) fun t => ∃ u, MediaSide s u ∧ ends u x t ∧
            let loc := locOf lun.val block.toNat
            u = if soft then (s.countRead loc).noteMedia loc .soft else s.countRead loc)) ∧
        (x.step ≠ 9 ∨ measured = true → excess .last) ∧ (x.step = 9 → measured = true → ∀ k, excess (.faulty k)) ∧
        (x.step = 9 → measured = false → (∀ p, p = Piece.last ∨ (∃ k, p = .faulty k) →
          Answers (piece p) fun t => ∃ u, TestEnded s x 1 9 0 u ∧ t = u.askMeasure)) ∧
        (x.step ≠ 9 → ∀ k, Answers (piece (.faulty k)) fun t => ∃ u, TestEnded s x 1 x.step k.toNat u ∧ t = match x.step with
          | 1 => { u with alloc := { u.alloc with withdrawn := u.alloc.withdrawn + 1 } }
          | 2 => { u with alloc := { u.alloc with transitLost := u.alloc.transitLost + 256 } }
          | 3 => u.engineFault (k.toNat % 10) 6 (u.engine (k.toNat % 10)).pc 0
          | 4 => u.failChannel (k.toNat % 8)
          | 5 => u.failLun (k.toNat % 128) 2
          | 6 | 7 => u.latchFlint
          | 8 => if u.time.ringOsc then u else u.crystalLost
          | _ => u)))

/-- R269 to R271, R280, R281, R286, R415, R424, R450, R466 to R468, R477: ABORT ends what it names that has not started, and stops a self-test; CLOCK_SET
sets the calendar; a cairn is posted or cancelled; a configuration item is stored and, with APPLY, put in force. Data that does not suit the
transfer is refused, a transfer fault ends the command DMA_FAULT, and an item or cairn out of range stores nothing.
The choices of the model that it rests on: assumptions 45, 49 and 60. -/
def Obligations.AdministrativeSettings : Prop :=
  ∀ (s : State) (tag : BitVec 5) (c : Cmd) (segs data : Bytes) (off : BitVec 22) (code : BitVec 3),
    let bytes := padTo c.length data
    let denied (i : Instr) : Prop := s.asOwner = false → exec i s = .next (s.complete c 0x0400 [])
    let takes (i : AdmXfer → Instr) (p : State → Prop) : Prop := s.asOwner = true →
      (c.listOk c.length segs = true → Answers (exec (i (.done segs data)) s) p) ∧
      (c.listOk c.length segs = false → exec (i (.done segs data)) s = .next (s.complete c 0x0201 [])) ∧
      exec (i (.faulted off code)) s = .next (s.dmaFault c (descAt (cutRuns false false false 0 (c.runs c.length [])) off.toNat) code.toNat)
    (Turn s tag 0x54 c → c.volume ≤ 7 → c.opflags = 0 → c.start ≤ 255 → c.noOps = true → c.noData = true → Answers (exec (.abort 0 tag) s) fun t =>
      let all := (s.ring c.volume).cmds.filter fun x => (c.start == 255 || x.tag == c.start) && x.opcode ≠ 0x54 && x.stage ≠ .done
      let idle := all.filter fun x => x.stage = .fetched || x.stage = .held
      let u := idle.foldl (fun a x => a.complete x 0x0701 []) s
      t = State.complete (if c.volume = 0 ∧ all.any (fun x => x.opcode = 0x48 ∧ x.stage = .running) then
          { u with selfTest := s.selfTest.map fun x => { x with stopping := true } } else u) c 0
        (natLe 4 0 ++ natLe 4 idle.length ++ natLe 4 (all.length - idle.length))) ∧
    (Turn s tag 0x50 c → c.volume = 0 → c.opflags = 0 → c.noOps = true → c.noData = true → Answers (exec (.clockSet 0 tag) s) fun t => ∃ u,
      Logs { s with time := { s.time with calendar := c.start, calPhase := 0, calSet := true } } 0x8020 Src.lodestone (s.time.calendar % 2 ^ 32)
        (s.time.calendar / 2 ^ 32) (c.start % 2 ^ 32) (c.start / 2 ^ 32) u ∧ t = u.complete c 0 (natLe 4 0 ++ natLe 8 s.time.calendar)) ∧
    (Turn s tag 0x4E c → c.volume = 0 → c.opflags = 0 → c.length = 128 → c.start ≤ 511 → c.noOps = true → c.data = true →
      denied (.cairnPost 0 tag (.faulted off code)) ∧ takes (.cairnPost 0 tag) fun t => let x := s.cairn c.start
        (s.cairnOk c.start bytes = false → t = s.complete c 0x0201 []) ∧
        (s.cairnOk c.start bytes = true → x.state = 2 ∨ x.state = 4 → t = s.complete c 0x0100 (natLe 4 10000)) ∧
        (s.cairnOk c.start bytes = true → x.state ≠ 2 → x.state ≠ 4 →
          t = ((s.setCairn c.start { x with entry := bytes, state := 1, count := 0, cancelled := false }).touch 11).commit.complete c 0 [])) ∧
    (Turn s tag 0x4F c → c.volume = 0 → c.opflags = 0 → c.start ≤ 511 → c.noOps = true → c.noData = true →
      let i := Instr.cairnCancel 0 tag
      let x := s.cairn c.start
      let answer (u : State) (k : Nat) := exec i s = .next (u.commit.complete c 0 (natLe 4 0 ++ natLe 1 k))
      denied i ∧ (s.asOwner = true → (x.state = 0 → answer s 2) ∧ (x.state = 2 ∨ x.state = 4 → answer (s.setCairn c.start { x with cancelled := true }) 1) ∧
        (x.state ≠ 0 → x.state ≠ 2 → x.state ≠ 4 →
          answer ((s.setCairn c.start { x with entry := [], state := 0, count := 0 }).touch 11) (if x.state = 1 then 0 else 1)))) ∧
    (Turn s tag 0x55 c → c.opflags = 0 ∨ c.opflags = 1 ∧ 3 ≤ c.volume ∧ c.volume ≤ 5 → itemSize c.volume ≠ 0 → c.length = itemSize c.volume →
      c.start < itemCount c.volume → c.noOps = true → c.data = true →
      denied (.configWrite 0 tag (.faulted off code)) ∧ takes (.configWrite 0 tag) fun t =>
        (s.itemOk c.volume c.start bytes = false → t = s.complete c 0x0201 []) ∧
        (s.itemOk c.volume c.start bytes = true → ∃ a b u : State, a = { s.commit with nv := { s.nv with config := s.nv.config.put (c.volume * 65536 + c.start) bytes } } ∧
          b = { a with tab := { s.tab with
            connStored := if c.volume = 1 then s.tab.connStored.set [] c.start bytes else s.tab.connStored
            lunStored := if c.volume = 2 then s.tab.lunStored.set [] c.start bytes else s.tab.lunStored } } ∧
          Logs b 0x1060 Src.strata c.volume c.start 0 0 u ∧
          let w := leAt bytes 0 4
          let done (x : State) (dropped : Bool) := t = x.complete c 0 (natLe 4 0 ++ natLe 1 (b2n dropped))
          (c.opflags = 0 → done u false) ∧
          (c.opflags = 1 → c.volume = 3 → done (u.writePfw w) (!(bits w 1 0 ≠ 3 && 2 ≤ bits w 8 2 && bits w 8 2 ≤ 100 && bits w 16 9 ≤ 129 &&
            4200 + 200 * bits w 16 9 + 1000 ≤ u.bas.vinMv))) ∧
          (c.opflags = 1 → c.volume = 4 → done (u.writeChg w) (!decide (bits w 5 0 < 47))) ∧
          (c.opflags = 1 → c.volume = 5 → done (if cycBudgetOk w then u.writeFields 0x10C0 w else u.dropValue Src.ring 0x10C0) (!cycBudgetOk w))))

/-- R407, R411 to R414, R420: a descriptor that ends leaves its command; the last one completes a transfer to the host, or hands over the data of one
from it. A descriptor that times out ends its command DMA_FAULT with code 4. RESUME lets a halted channel go on. A class-7 request held
too long is DEFERRED with the hint of its units.
The choices of the model that it rests on: assumptions 6, 41 and 57. -/
def Obligations.TransferEnds : Prop :=
  ∀ (s : State) (n : Fin 8) (tag : BitVec 5) (off : BitVec 22) (c : Cmd) (d : Desc),
    let ends := exec (.descriptorEnd n tag off) s
    let late := exec (.descriptorTimeout n tag off) s
    let resume := exec (.channelResume n) s
    let expire := exec (.allocHoldExpiry n tag) s
    let after (t : State) : State := if c.opcode = 4 then t.acceptReady c.ring c.volume 32 else t
    (s.cmd? n.val tag.toNat = none ∨ s.bas.freeze = true → ends = .next s ∧ late = .next s ∧ expire = .next s) ∧
    (s.cmd? n.val tag.toNat = some c → c.stage = .moving → c.descs.find? (fun x => x.off == off.toNat) = some d → s.bas.freeze = false →
      let left := c.descs.filter fun x => x.off ≠ d.off
      let e := { c with descs := left }
      late = .next (after (s.dmaFault c d 4)) ∧
      (d.toHost = true → s.pcie.bme = true → s.pcie.d3 = false → s.pcie.perstHeld = false → (c.holes = [] → ends = .next
        (let u := (s.emit (.hostWrite d.addr (slice (c.got.get [] 0) d.off d.len))).setCmd e
         if left = [] then u.complete e c.endStatus c.endResult else u)) ∧
        Answers ends fun t => ∃ u, Steady s u ∧ t = if left = [] then (u.setCmd e).complete e c.endStatus c.endResult else u.setCmd e) ∧
      (d.toHost = true → s.pcie.bme = false ∨ s.pcie.d3 = true ∨ s.pcie.perstHeld = true → ends = .next s) ∧
      (d.toHost = false → (c.got.get [] d.off).length < d.len → ends = .next s) ∧
      (d.toHost = false → d.len ≤ (c.got.get [] d.off).length → ends = .next
        (let data := c.got.flatMap fun p => p.2
         if left ≠ [] then s.setCmd e else if c.opcode = 4 then (s.setCmd e).applyAppend e data else (s.setCmd e).applyWrite e data))) ∧
    (s.pcie.perstHeld = true ∨ s.dieUp = false → resume = .next s) ∧
    (s.pcie.perstHeld = false → s.dieUp = true → s.dev = .recovery → Answers resume (Counts s 3)) ∧
    (s.pcie.perstHeld = false → s.dieUp = true → s.dev ≠ .recovery → Answers resume fun t =>
      t.chan n.val = { s.chan n.val with halted := false } ∧ (∀ m, m ≠ n.val → t.chan m = s.chan m) ∧ { t with chans := s.chans } = s) ∧
    (∀ q, s.alloc.queue.find? (fun q => q.1 == n.val && q.2.1 == tag.toNat && q.2.2.1 == 7) = some q → s.cmd? n.val tag.toNat = some c →
      s.bas.freeze = false → Answers expire fun t => ∃ u : State, u.f Reg.raceDeferred = min 65535 (s.f Reg.raceDeferred + 1) ∧
        (∀ f : Field, f.key ≠ Reg.raceDeferred.key → u.f f = s.f f) ∧ { u with csr := s.csr } = s ∧
        t = after (u.complete c 0x0100 (natLe 4 (hintOf (q.2.2.2 + headroom 7 - s.genFree) (s.releasedIn false 0)))))

/-- R311 to R313, R319, R321, R332, R422, R480, R484, R518: a page is closed over the oldest waiting units of its kind and its program queued, on an open
block or one newly opened; the journal's page is closed by its timer, and once verified makes its records durable and frees their units;
a checkpoint shortens the journal and saves the read counts; the operating time is saved. Without their conditions nothing happens.
The choices of the model that it rests on: assumptions 6, 53 and 54. -/
def Obligations.JournalAndPages : Prop :=
  ∀ (s : State) (lun : Fin 128) (block page : BitVec 16) (landing : Bool),
    let n := lun.val
    let b := block.toNat
    let x := s.block n b
    let cell := if landing then 1 else s.cellOf n
    let us := (s.str.units.filter fun u => u.place == UnitAt.staged && u.fromReserve == landing).take (lunCodewords (s.lunEntry n))
    let idle : Prop := s.dieUp = false ∨ s.bas.freeze = true
    let may : Prop := s.dieUp = true ∧ s.bas.freeze = false
    let times (v : Nv) : Nv := { v with savedOpt := max v.savedOpt s.time.optMs, savedCycles := max v.savedCycles s.time.cycles }
    (may → s.dev.minimal = false → s.lunHealthy n = true → (s.lunRun n).heldBack = false → us ≠ [] → bootBlocks n ≤ b → b + 1 < lunBlocks (s.lunEntry n) →
      x.state = .open_ ∧ x.cell = cell ∧ x.landing = landing ∨ x.state = .free → Answers (exec (.openPageClose lun block page landing) s) fun t => ∃ u : State,
        (x.state = .open_ → u = s) ∧
        (x.state = .free → MediaSide s u ∧ u.block n b = { x with state := .open_, cell := cell, landing := landing } ∧ (∀ d, d ≠ b → u.block n d = s.block n d) ∧
          (∀ m, m ≠ n → u.lun m = s.lun m) ∧ u.fl = s.fl ∧ u.str = s.str) ∧
        t = ({ u with str := { s.str with units := s.str.units.map fun y => if (us.map fun z => z.id).contains y.id then { y with place := .programming } else y } } : State).queueOp
          { lun := n, kind := 2, block := b, page := page.toNat, cell := cell, cls := if landing then 3 else if us.any (fun y => y.part ≠ 0) then 5 else 7
            codewords := lunCodewords (s.lunEntry n), load := .units (us.map fun z => z.id) }) ∧
    (idle ∨ s.dev.minimal = true ∨ s.lunHealthy n = false ∨ (s.lunRun n).heldBack = true ∨ us = [] ∨ b < bootBlocks n ∨ lunBlocks (s.lunEntry n) ≤ b + 1 ∨
      ¬ (x.state = .open_ ∧ x.cell = cell ∧ x.landing = landing) ∧ x.state ≠ .free → exec (.openPageClose lun block page landing) s = .next s) ∧
    (idle → exec .journalPageTimer s = .next s ∧ exec .checkpointComplete s = .next s ∧ exec .optimeSave s = .next s ∧ exec .journalPageVerified s = .next s.runFirings) ∧
    (s.str.openPage = [] → exec .journalPageTimer s = .next s) ∧ (s.str.ckptAt = none → exec .checkpointComplete s = .next s) ∧
    (s.dev = .rom → exec .optimeSave s = .next s) ∧ (s.str.pages = [] → exec .journalPageVerified s = .next s.runFirings) ∧
    (may → s.str.openPage ≠ [] → exec .journalPageTimer s = .next { s with str := { s.str with openPage := [], pages := s.str.pages ++ [s.str.openPage] } }) ∧
    (may → ∀ k, s.str.ckptAt = some k → Answers (exec .checkpointComplete s) (Logs { s with
      str := { s.str with sinceCkpt := s.str.sinceCkpt - k, ckptAt := none }
      nv := { s.nv with
        savedTc := s.evr.tc
        luns := s.nv.luns.map fun l => (l.1, { l.2 with blocks := l.2.blocks.map fun y => (y.1, { y.2 with savedReads := y.2.reads }) }) } } 0x1074 Src.strata 0 0 0 0)) ∧
    (may → s.dev ≠ .rom → exec .optimeSave s = .next (State.commit { s with nv := { times s.nv with savedTc := s.evr.tc } })) ∧
    (may → ∀ p ps, s.str.pages = p :: ps → Answers (exec .journalPageVerified s) fun t => ∃ u w : State,
      u = { s with
        str := { s.str with pages := ps, units := s.str.units.map fun y => if p.contains y.id then { y with journalled := true } else y }, nv := times s.nv
        crn := { s.crn with running := s.crn.running.map fun f =>
          if f.pages = 1 then { f with pages := 0, durable := true, pinsDurable := true } else { f with pages := f.pages - 1 } } } ∧
      w.str = { u.str with units := u.str.units.filter fun y => !y.durable } ∧ { w with str := u.str, alloc := u.alloc, led := u.led } = u ∧
      t = w.serveFlush.settleRebuild.runFirings)

/-- R14, R322 to R325, R329, R333 to R335, R345: Quarry and Tumbler. A pacing window takes the staged controls, sets the LUN's reclaim mode and share,
holds it back at 2 free blocks until it has 3, and starts one reclaim and one rebuild operation; wear and retention move the blocks due. Where
Quarry does not run, nothing happens.
The choices of the model that it rests on: assumptions 6, 53 and 54. -/
def Obligations.FlashUpkeep : Prop :=
  ∀ (s : State) (lun : Fin 128) (busy : BitVec 16),
    let n := lun.val
    let up : Prop := s.dieUp = true ∧ s.dev.minimal = false ∧ s.bas.freeze = false ∧ s.dev ≠ .draining
    (¬ up → exec (.pacingWindow lun busy) s = .next s ∧ exec (.floorModeTimeout lun) s = .next s ∧ exec .wearCheck s = .next s ∧ exec .retentionStep s = .next s) ∧
    (s.lunHealthy n = false → exec (.pacingWindow lun busy) s = .next s ∧ exec (.floorModeTimeout lun) s = .next s) ∧
    ((s.lunRun n).mode ≠ 2 → exec (.floorModeTimeout lun) s = .next s) ∧ (s.fl.hot = true → exec .wearCheck s = .next s) ∧
    (up → s.lunHealthy n = true → (s.lunRun n).mode = 2 → Answers (exec (.floorModeTimeout lun) s) (Logs s 0x3060 Src.quarry n 0 0 0)) ∧
    (up → s.lunHealthy n = true → Answers (exec (.pacingWindow lun busy) s) fun t => ∃ u v w x : State, ∃ all : Bool,
      Takes s [Reg.qryFloor, Reg.qryTarget, Reg.qryShare, Reg.qryRebuildShare] u ∧
      let r := u.lunRun n
      let free := u.freeCount n
      let mode := if u.f Reg.qryTarget ≤ free then 0 else if u.f Reg.qryFloor ≤ free then 1 else 2
      let base := match u.fl.rebuild with
        | some src => if u.rebuildsOn src n then u.f Reg.qryRebuildShare else u.f Reg.qryShare
        | none => u.f Reg.qryShare
      let step := if u.f Reg.band = 2 then 10 else if u.f Reg.band = 3 then 20 else 0
      let excess := busy.toNat - r.share
      let cls := if mode = 2 then 4 else 9
      v.lunRun n = { r with
        mode := mode, overrun := excess, share := 250 * min 60 (base + step) - excess, heldBack := if free ≤ 2 then true else r.heldBack && free < 3 } ∧
      (∀ m, m ≠ n → v.lunRun m = u.lunRun m) ∧ { v with fl := { v.fl with luns := u.fl.luns } } = u ∧
      (all = true ↔ v.healthyLuns ≠ [] ∧ ∀ m ∈ v.healthyLuns, (v.lunRun m).heldBack = true) ∧
      (if all = true ∧ u.fl.allHeld = false then Logs v 0x3062 Src.quarry 0 0 0 0 w else w = v) ∧
      x = { w with fl := { w.fl with allHeld := all } } ∧
      (let none_ (y : State) := y = x
       let d := (x.lun n).blocks.find? fun b => b.2.state == BlockState.incomplete
       ∃ y : State, t = y.pumpRebuild n ∧
        if x.reclaiming n = true ∨ cls = 9 ∧ x.fl.hot = true then none_ y
        else match d with
          | some b => y = x.queueOp { lun := n, kind := 3, block := b.1, page := 0, cell := b.2.cell, cls := cls }
          | none => if mode = 0 then none_ y else match x.victim n with
            | some b => y = x.moveBlock n b cls
            | none => none_ y) ∧
      MediaSide x t) ∧
    (∀ (x : State) (l r : List (Nat × FBlock)) (e : Nat × FBlock), (x.lun n).blocks.filter (fun b => b.2.state == BlockState.closed) = l ++ e :: r →
      (∀ y ∈ l ++ e :: r, y.2.landing = false) → (∀ y ∈ l ++ r, x.validIn (locOf n e.1) < x.validIn (locOf n y.1)) → x.victim n = some e.1) ∧
    (up → s.fl.hot = false → ∃ f : State → Nat → State, exec .wearCheck s = .next (s.healthyLuns.foldl f s) ∧ MediaSide s (s.healthyLuns.foldl f s) ∧
      ∀ (a : State) (m : Nat), let closed := (a.lun m).blocks.filter fun b => b.2.state == BlockState.closed
        (closed = [] → f a m = a) ∧
        (∀ l r e, closed = l ++ e :: r → (∀ y ∈ l, e.2.wear < y.2.wear) → (∀ y ∈ r, e.2.wear ≤ y.2.wear) →
          let high := (a.lun m).blocks.foldl (fun k b => max k b.2.wear) 0
          f a m = if (∀ k, (a.lunRun m).lastMove = some k → k + msTicks 10000 ≤ a.time.uptime) ∧ e.2.wear + 10000 * a.f Reg.wlDelta < high then
            (a.setLunRun m { a.lunRun m with lastMove := some a.time.uptime }).moveBlock m e.1 9 else a)) ∧
    (up → Answers (exec .retentionStep s) fun t => ∃ u v : State, ∃ g : Nat → State → Cohort → State,
      Takes s [Reg.wlDelta, Reg.tOffset, Reg.offH, Reg.offRow] u ∧
      let off : Int := if u.f Reg.tOffset < 32 then (u.f Reg.tOffset : Int) else (u.f Reg.tOffset : Int) - 64
      let row := retentionRow (u.junction + off)
      v = { u with fl := { u.fl with row := row }, nv := { u.nv with luns := u.nv.luns.map fun l => (l.1, ageLun row 1 l.2) } } ∧
      t = v.healthyLuns.foldl (fun a m => (a.lun m).cohorts.foldl (g m) a) v ∧ MediaSide v t ∧
      ∀ m a c, let mine := ((a.lun m).blocks.filter fun b => inCohort c b.2).map fun b => b.1
        (c.acc < accOne → g m a c = a) ∧
        (accOne ≤ c.acc → 10 * c.acc < 11 * accOne → g m a c = mine.foldl (fun x b => x.moveBlock m b 9) a) ∧
        (11 * accOne ≤ 10 * c.acc → ∃ x : State, g m a c = mine.foldl (fun x b => x.moveBlock m b 4) x ∧ (c.overdue = true → x = a) ∧
          (c.overdue = false → ∃ y z : State, Logs a 0x3090 Src.tumbler m c.cell 0 0 y ∧ Counts y 0x17 z ∧
            x = z.setLun m { z.lun m with cohorts := (z.lun m).cohorts.map fun d => if d.period = c.period ∧ d.cell = c.cell then { d with overdue := true } else d })))

/-- R13, R14, R382, R384 to R388, R390, R392, R393, R395 to R401: the DRAM controller. Enabling it starts an initialisation, whose result leads to service, to a
retry or to Bedrock; each interval adds a debt that a refresh takes away, and changes wait for refresh boundaries; a parity alert stops it
until the replay, and three replays failed in a row ask for a reinitialisation; errors and activations are counted.
The choices of the model that it rests on: assumptions 6, 37 and 56. -/
def Obligations.DramController : Prop :=
  ∀ (s : State) (found : Option (Bool × Bool × BitVec 2)) (step : Fin 5) (rank : Fin 2) (idle : Bool) (facts : List DramFact) (replayed : BitVec 5),
    let enable (p : Path) := exec (.dramEnable p found) s
    let done := exec (.dramInitComplete step) s
    let interval := exec (.refreshInterval rank idle) s
    let high (again : Bool) := exec (.dAlertNHigh rank replayed again) s
    let counted (f : Field) (x : State) := (f, min (2 ^ f.width - 1) (x.f f + 1))
    let asks (x t : State) : Prop := if x.f Reg.drcReinit = 1 then t = x else ∃ u, Sets x [(Reg.drcReinit, 1)] u ∧ Logs u 0x4030 Src.dram 0 0 0 0 t
    let replayFails (x t : State) : Prop := let k := min 3 (x.f Reg.drcRfail + 1)
      if k = 3 then ∃ u, Sets x [(Reg.drcReplay, 0), (Reg.drcRfail, k)] u ∧ asks u t else Sets x [(Reg.drcRfail, k)] t
    let initFails (x t : State) : Prop := let k := min 3 (x.f Reg.drcIfail + 1)
      if k = 3 then ∃ u v : State, Sets { x with dram := { x.dram with initing := false } } [(Reg.drcIfail, k)] u ∧ Logs u 0x4031 Src.dram 0 0 0 0 v ∧
        Drains { v with bas := { v.bas with nextSrc := 3 } } .restart true t
      else Sets { x with dram := { x.dram with initing := false } } [(Reg.drcReinit, 1), (Reg.drcIfail, k)] t
    let boundary (x t : State) : Prop := ∃ u v w : State, Takes x [Reg.postpone] u ∧
      (if u.f Reg.drcSet = u.f Reg.band then v = u else ∃ a, Sets u [(Reg.drcSet, u.f Reg.band)] a ∧ Logs a 0x4050 Src.dram (u.f Reg.band) 0 0 0 v) ∧
      w = (if v.dram.lastZqcs + msTicks 128 ≤ v.time.uptime then { v with dram := { v.dram with lastZqcs := v.time.uptime } } else v) ∧
      if w.f Reg.drcReinit = 1 then
        (if w.dram.alert = true then initFails w t else if w.dram.railBad = true ∨ w.dram.initing = true then t = w else t = w.startReinit)
      else t = w
    (s.dieUp = false → ∀ p, enable p = .next s) ∧
    (s.dieUp = true → (s.dev = .recovery → ∀ p, Answers (enable p) (Counts s 3)) ∧ Answers (enable .pcie) (Counts s 3) ∧
      (s.dev ≠ .recovery → s.f Reg.drcEn = 1 ∨ s.dev ≠ .starting ∧ s.dev ≠ .rom → enable .keystone = .next s) ∧
      (s.f Reg.drcEn ≠ 1 → s.dev = .starting ∨ s.dev = .rom → Answers (enable .keystone) (Sets { s with dram := { s.dram with initing := true } }
        ([(Reg.drcIdle, 0), (Reg.drcEn, 1)] ++ match found with
          | some (two, x16, d) => [(Reg.ratThresh, 8192), (Reg.drcDensity, d.toNat), (Reg.drcX16, b2n x16), (Reg.drcRanks2, b2n two), (Reg.drcRdbi, 0),
              (Reg.drcMap, 3), (Reg.drcCwl, 9), (Reg.drcCl, 11), (Reg.drcRate, 1)]
          | none => [])))) ∧
    (s.dram.initing = false ∨ s.dieUp = false ∨ s.bas.freeze = true → done = .next s) ∧
    (s.dram.initing = true → s.dieUp = true → s.bas.freeze = false →
      (step.val = 0 → s.dramSupported = true → Answers done fun t => ∃ u, Sets { s with dram := { s.dram with
          up := true, initing := false, ranks := s.dramRanks, capMiB := s.dramCap, debt0 := 8, debt1 := 8, acts := [], written := []
          lastZqcs := s.time.uptime, railBad := false, uncorr := [] } }
        [(Reg.drcReplay, 0), (Reg.drcRfail, 0), (Reg.drcIfail, 0), (Reg.drcSet, s.f Reg.band), (Reg.drcReinit, 0)] u ∧
        Logs u 0x4001 Src.dram (s.f Reg.drcRate) s.dramRanks s.dramCap 0 t) ∧
      (step.val ≠ 0 ∨ s.dramSupported = false → (s.dram.up = true → Answers done (initFails s)) ∧
        (s.dram.up = false → Answers done fun t => ∃ u : State, Logs { s with dram := { s.dram with initing := false } } 0x4002 Src.dram step.val 0 0 0 u ∧ t = u.enterBedrock 3))) ∧
    (s.dram.up = false ∨ s.dram.initing = true ∨ s.bas.freeze = true ∨ s.dieUp = false ∨ s.dram.ranks ≤ rank.val → interval = .next s) ∧
    (s.dram.up = true → s.dram.initing = false → s.bas.freeze = false → s.dieUp = true → rank.val < s.dram.ranks → Answers interval fun t =>
      let d := min 16 ((if rank.val = 0 then s.dram.debt0 else s.dram.debt1) + 1)
      let refresh : Prop := idle = true ∨ 8 + s.f Reg.postpone ≤ d
      (refresh → rank.val = 0 → boundary { s with dram := { s.dram with debt0 := d - 1 } } t) ∧ (refresh → rank.val ≠ 0 → t = { s with dram := { s.dram with debt1 := d - 1 } }) ∧
      (¬ refresh → t = { s with dram := { s.dram with debt0 := if rank.val = 0 then d else s.dram.debt0, debt1 := if rank.val = 0 then s.dram.debt1 else d } })) ∧
    (if s.dram.up = true ∧ s.dieUp = true then Answers (exec .refreshWindowStart s) (Takes { s with dram := { s.dram with acts := [] } } [Reg.ratThresh])
      else exec .refreshWindowStart s = .next s) ∧
    (if s.dram.up = true ∧ s.dieUp = true ∧ s.dram.alert = false then
        Answers (exec .dramParityAlert s) (Sets { s with dram := { s.dram with alert := true } } [(Reg.drcReplay, 1), counted Reg.parAlerts s])
      else exec .dramParityAlert s = .next s) ∧
    (if s.dram.alert = true ∧ s.f Reg.drcReplay = 1 ∧ s.dieUp = true then Answers (exec .alertTimeout s) (replayFails s) else exec .alertTimeout s = .next s) ∧
    (s.dram.alert = false ∨ s.dieUp = false → ∀ again, high again = .next s) ∧
    (s.dram.alert = true → s.dieUp = true →
      (s.f Reg.drcReplay ≠ 1 → ∀ again, high again = .next { s with dram := { s.dram with alert := false } }) ∧
      (s.f Reg.drcReplay = 1 → Answers (high true) (fun t => ∃ u, Sets s [counted Reg.parAlerts s] u ∧ replayFails u t) ∧
        Answers (high false) fun t => ∃ u v, Sets { s with dram := { s.dram with alert := false } } [(Reg.drcRfail, 0), (Reg.drcReplay, 0)] u ∧
          Logs u 0x4020 Src.dram rank.val replayed.toNat 0 0 v ∧ Counts v 0x1C t)) ∧
    (s.dram.up = false ∨ s.dram.initing = true ∨ s.dieUp = false ∨ s.bas.freeze = true → exec (.scrubPass facts) s = .next s) ∧
    (s.dram.up = true → s.dram.initing = false → s.dieUp = true → s.bas.freeze = false → ∃ f : State → DramFact → State, exec (.scrubPass facts) s = .next (facts.foldl f s) ∧
      ∀ x a, let addr := BitVec.toNat a
        let latch (bad : Bool) := (Reg.eccAddr, addr / 32 % 2 ^ 28 + 2 ^ 28 * b2n bad + 2 ^ 29 * (addr / 4 % 8))
        (f x (.write a) = { x with dram := { x.dram with written := if x.dram.written.contains (addr / 2 ^ 20) then x.dram.written else addr / 2 ^ 20 :: x.dram.written } }) ∧
        (∃ u v, Sets x [counted Reg.eccCorr x, latch false] u ∧ Counts u 0x1A v ∧ Logs v 0x4010 Src.dram (addr % 2 ^ 32) 0 0 0 (f x (.corrected a))) ∧
        (∀ k : Fin 6, ∃ u v w y z : State, Sets x [counted Reg.eccUncorr x, latch true] u ∧ Counts u 0x1B v ∧ Logs v 0x4011 Src.dram (addr % 2 ^ 32) k.val 0 0 w ∧
          y = { w with dram := { w.dram with uncorr := x.time.uptime :: x.dram.uncorr.filter fun b => x.time.uptime < b + msTicks 1000 } } ∧
          (match k.val with
            | 1 => z = y.abandonMoves
            | 2 => Counts y 0x13 z
            | 4 => z = y.restoreReads
            | _ => z = y) ∧
          if 16 ≤ y.dram.uncorr.length then asks z (f x (.uncorrectable a k)) else f x (.uncorrectable a k) = z) ∧
        (let p := x.dramPlace addr
         let key := 16 * p.1 + p.2.1
         let r := actTable p.2.2 (x.dram.acts.get [] key)
         let y : State := { x with dram := { x.dram with acts := x.dram.acts.put key r.1 } }
         if x.f Reg.ratThresh ≠ 0 ∧ r.2 % x.f Reg.ratThresh = 0 then ∃ u v, Counts y 0x1D u ∧ Sets u [counted Reg.ratCnt u] v ∧ Logs v 0x4040 Src.dram key p.2.2 0 0 (f x (.activation a))
          else f x (.activation a) = y))

/-- R426, R431, R433, R435, R436, R438, R439, R446, R459, R461 to R464: frames. Each is checked in order, and the first check that fails drops and counts it; an
ACK frees what it acknowledges, a NAK sends again or ends a message, a HELLO brings its connection UP or DOWN; a packet out of order is
answered NAK SEQ once, an old one by its reply again; a packet of no known opcode is a violation.
The choices of the model that it rests on: assumptions 58 and 59. -/
def Obligations.FabricFrames : Prop :=
  ∀ (s : State) (p : Fin 2) (f : Bytes) (a : Arrival) (media : List (Nat × Media)),
    let rows : List (Nat × Instr) := [(1, .ilideAppend p f a), (3, .readReq p f a media), (5, .send p f a), (16, .ack p f a), (17, .nak p f a), (32, .hello p f a)]
    let other (fcs : Bool) := exec (.otherFrame p f fcs a) s
    let e := f.drop 18
    let prio := bits (beAt f 14 2) 15 13
    let fill := a.fill.toNat
    let q := p.val
    let counted (g : Field) (x : State) := (g, min (2 ^ g.width - 1) (x.f g + 1))
    let dropped (r : Host.Outcome State Fault Refusal) (fcs : Bool) : Prop :=
      (s.fabUp = false ∨ s.portUp q = false → r = .next s) ∧
      (s.fabUp = true → s.portUp q = true → ∀ u, u = s.noteFill q prio fill → u.noRoom q prio fill = true → r = .next u) ∧
      (∀ u, Arrives s q f fill u →
        (u.frameOk q f fcs = false → Answers r (Sets u [counted (Reg.portDrop q) u])) ∧
        (u.frameOk q f fcs = true → icrcOk e = false → Answers r fun t => ∃ v, Counts u 0x38 v ∧ t = v.tallyIcrc (hDcid e)) ∧
        (u.frameOk q f fcs = true → icrcOk e = true → u.bound q f (frameInner e) = false → Answers r fun t => ∃ v, Sets u [counted (Reg.portBind q) u] v ∧ Counts v 0x39 t) ∧
        (u.frameOk q f fcs = true → icrcOk e = true → u.bound q f (frameInner e) = true → u.tagged e = false → Answers r fun t => ∃ v,
          Counts u 0x3F v ∧ t = v.violation (hDcid (frameInner e))))
    (∀ r ∈ rows, (frameOp f ≠ r.1 → exec r.2 s = .next s) ∧ (frameOp f = r.1 → dropped (exec r.2 s) true)) ∧
    (frameOp f ∈ rows.map (fun r => r.1) → other true = .next s) ∧
    (∀ fcs, fcs = false ∨ frameOp f ∉ rows.map (fun r => r.1) → dropped (other fcs) fcs) ∧
    (∀ (u : State) (c : Nat) (h : Bytes), Arrives s q f fill u → Passes u q f c h → ∀ x, x = u.conn c →
      let late (v : State) : Prop := if a.late = true then Counts u 0x21 v else v = u
      let zero (i n : Nat) : Prop := beAt h i n = 0
      (frameOp f = 16 → let good : Prop := formOk h = true ∧ h.length = 48 ∧ zero 16 1 ∧ zero 26 2 ∧ zero 36 12
        let psn := beAt h 17 3
        let d := (psn + 2 ^ 24 - x.una % 2 ^ 24) % 2 ^ 24
        (¬ good → exec (.ack p f a) s = .next (u.violation c)) ∧ (good → x.st ≠ 3 → exec (.ack p f a) s = .next u) ∧
        (good → x.st = 3 → Answers (exec (.ack p f a) s) fun t => ∃ v, late v ∧
          (64 ≤ d ∨ x.top < x.una + d + 1 → t = v.rekey c) ∧
          (d < 64 → x.una + d + 1 ≤ x.top → t = State.rekey (State.pump ((x.outq.filter fun m => m.psn + m.packets ≤ x.una + d + 1).foldl State.cairnAcked
            (v.setConn c { x with una := x.una + d + 1, snd := max x.snd (x.una + d + 1), tries := 0, movedOnce := false
                                  outq := x.outq.filter fun m => x.una + d + 1 < m.psn + m.packets })) c 64) c))) ∧
      (frameOp f = 17 → let code := beAt h 16 1
        let hint := beAt h 24 4
        let good : Prop := formOk h = true ∧ h.length = 48 ∧ 1 ≤ code ∧ code ≤ 12 ∧ zero 30 18
        let d := (beAt h 17 3 + 2 ^ 24 - x.una % 2 ^ 24) % 2 ^ 24
        Answers (exec (.nak p f a) s) fun t => ∃ v, late v ∧ (¬ good → t = v.violation c) ∧ (good → x.st ≠ 3 → t = v) ∧
          (good → x.st = 3 → (code = 1 → t = State.rekey (State.pump (v.setConn c { x with snd := x.una, holdUntil := 0 }) c 64) c) ∧
            (2 ≤ code → code ≤ 5 → (64 ≤ d ∨ x.top ≤ x.una + d → t = v) ∧
              (d < 64 → x.una + d < x.top → t = v.setConn c { x with snd := x.una + d, holdHello := decide (hint = 0xFFFFFFFF)
                                                                     holdUntil := if hint = 0xFFFFFFFF then 0 else v.time.uptime + usTicks hint })) ∧
            (6 ≤ code → t = (v.acknowledge c (beAt h 17 3) fun y m => if m.cairn = 0 then y else y.cairnBroken (m.cairn - 1) 4).rekey c))) ∧
      (frameOp f = 32 → let kind := beAt h 16 1
        let good : Prop := formOk h = true ∧ h.length = 48 ∧ kind ≤ 3 ∧ bits (beAt h 17 1) 7 1 = 0 ∧ zero 18 2 ∧ zero 44 4
        Answers (exec (.hello p f a) s) fun t => ∃ v, late v ∧ (¬ good → t = v.violation c) ∧ (good → kind = 2 → t = v) ∧
          (good → x.quarantined = true → t = v) ∧
          (good → x.quarantined = false → (kind = 0 → t = v.answerHello c q h) ∧
            (kind = 1 → x.st ≠ 2 → t = v) ∧ (kind = 1 → x.st = 2 → t = v.connUp c q
              (if connSealed (v.connEntry c) then some (sessionKey (v.connKey c) x.nonce (slice h 24 16) c (hScid h)) else none)) ∧
            (kind = 3 → t = if x.st = 3 then v.connDown c else v))) ∧
      (∀ i, (frameOp f = 1 ∧ i = .ilideAppend p f a ∨ frameOp f = 3 ∧ i = .readReq p f a media ∨ frameOp f = 5 ∧ i = .send p f a ∨
          frameOp f ∉ rows.map (fun r => r.1) ∧ i = .otherFrame p f true a) →
        let d := (hPsn h + 2 ^ 24 - x.epsn) % 2 ^ 24
        Answers (exec i s) fun t => ∃ v, late v ∧
          (x.quarantined = true → t = v.quarantineNak c h) ∧ (x.quarantined = false → x.st ≠ 3 → t = v) ∧
          (x.quarantined = false → x.st = 3 → d ≠ 0 →
            (d ≤ 2 ^ 23 → x.nakSent = true → t = v) ∧
            (d ≤ 2 ^ 23 → x.nakSent = false →
              t = (v.setConn c { x with nakSent := true, seqNaks := min 0xFFFF (x.seqNaks + 1) }).sendSession c 0x11 0 0 (nakBody 1 x.epsn 0 0 0) []) ∧
            (2 ^ 23 < d → (hLast h = false ∨ x.replies.find? (fun r => r.1 == hPsn h) = none → t = v) ∧
              (hLast h = true → ∀ r, x.replies.find? (fun r => r.1 == hPsn h) = some r → t = v.sendSession c r.2.1 0 0 r.2.2 []))) ∧
          (x.quarantined = false → x.st = 3 → d = 0 → frameOp f ∉ rows.map (fun r => r.1) →
            t = (((v.setConn c { x with port := q, nakSent := false, acted := min 0xFFFFFFFF (x.acted + 1) }).nakTerminal c 9 (hPsn h) (hMsn h)).violation c).rekey c)))

/-- R243, R247, R431, R433, R434, R437, R438, R447, R448, R450 to R453, R460, R469, R575: requests. An APPEND in order is granted at its FIRST packet or
NAKed, its packets are collected, and its LAST adds one record and is acknowledged; a READ_REQ is acknowledged and answered; a SEND spends a
token and triggers its cairns. A form, window, length, trigger or rate refused is NAKed, and is a violation.
The choices of the model that it rests on: assumption 58. -/
def Obligations.FabricRequests : Prop :=
  ∀ (s : State) (p : Fin 2) (f : Bytes) (a : Arrival) (media : List (Nat × Media)) (u : State) (c : Nat) (h : Bytes) (x : Conn),
    Arrives s p.val f a.fill.toNat u → Passes u p.val f c h → x = u.conn c → x.quarantined = false → x.st = 3 → hPsn h = x.epsn →
    let effect (i : Instr) (q : State → State → Prop) : Prop := Answers (exec i s) fun t => ∃ v w y : State,
      (if a.late = true then Counts u 0x21 v else v = u) ∧ w = v.setConn c { x with port := p.val, nakSent := false, acted := min 0xFFFFFFFF (x.acted + 1) } ∧
      q w y ∧ t = y.rekey c ∧ (connSealed (y.connEntry c) = false → t = y)
    let len := hLen h
    let psn := hPsn h
    let msn := hMsn h
    let win := hWindow h
    let payload := h.drop 48
    let refused (g : State) (code last : Nat) (y : State) : Prop := y = (g.nakTerminal c code last msn).violation c
    let acked (g : State) : State := ((g.setConn c { g.conn c with epsn := (psn + 1) % 2 ^ 24 }).countClass 5 0).reply c psn 0x10 (ackBody psn msn 0)
    let ended (g : State) (m : IMsg) (y : State) : Prop :=
      let v := winVol (g.connPartDef c) m.window
      let z := g.vol v
      let cls := if m.excess then 8 else 5
      (z.kind ≠ 1 → y = g.nakTerminal c 8 psn m.msn) ∧ (z.kind = 1 → z.isSealed = true → y = g.nakTerminal c 6 psn m.msn) ∧
      (z.kind = 1 → z.isSealed = false →
        (g.toRelease v (extent m.mlen) (z.space - z.used) z.recs = none → y = (g.countClass cls 4).nakRetry c 3 m.firstPsn m.msn 0xFFFFFFFF) ∧
        ∀ k, g.toRelease v (extent m.mlen) (z.space - z.used) z.recs = some k → ∃ b : State, Appended g v k m.units {
            seq := z.nextSeq, ticks := g.time.uptime, cycles := g.time.cycles, optMs := g.time.optMs
            payload := transformed (beAt m.form 0 1) (2 ^ beAt m.form 1 1) (beAt m.form 2 1) m.data
            src := 4096 + partId (g.connPartDef c), transform := beAt m.form 0 1, off := z.writeOff } false (1 + g.connSlot c) m.granted b ∧
          let b1 := b.setVol v { b.vol v with recs := (b.vol v).recs.map fun r => if r.seq = z.nextSeq then { r with conn := c + 1, msn := m.msn } else r }
          let b2 : State := { b1 with nv := { b1.nv with lastMsn := b.nv.lastMsn.put c m.msn } }
          y = ((b2.setConn c { b2.conn c with inMsg := none, epsn := (psn + 1) % 2 ^ 24, appended := (b2.conn c).appended + m.mlen }).countClass cls 0).reply
            c psn 0x10 (ackBody psn m.msn z.nextSeq))
    let carried (g : State) (m : IMsg) (y : State) : Prop :=
      let data := m.data ++ payload
      let suits : Prop := msn = m.msn ∧ len = m.mlen ∧ win = m.window ∧ (hLast h = true ↔ data.length = m.mlen) ∧ (data.length = m.mlen ∨ payload.length = 4096) ∧
        data.length ≤ m.mlen
      (¬ suits → refused g 9 psn y) ∧
      (suits → data.length < m.mlen → y = g.setConn c { g.conn c with inMsg := some { m with data := data }, epsn := (psn + 1) % 2 ^ 24 }) ∧
      (suits → data.length = m.mlen → ended g { m with data := data } y)
    (frameOp f = 1 → effect (.ilideAppend p f a) fun w y =>
      let d := w.connPartDef c
      let v := winVol d win
      let slot := w.connSlot c
      let last := psn + max 1 (ceilDiv len 4096) - 1
      let k := ceilDiv len 4096
      let used := w.partUnits slot
      let cls := if used + k ≤ partQuota d then 5 else 8
      let form : Prop := formOk h = true ∧ 1 ≤ len ∧ len ≤ 262144 ∧ beAt h 29 19 = 0
      let window : Prop := win ≤ 3 ∧ winKind d win = 1
      let range : Prop := (w.vol v).kind = 1 ∧ len ≤ winMax d win ∧ transformOk (beAt h 26 1) (beAt h 27 1) (beAt h 28 1) len = true
      let free : Prop := w.volLocked v = false ∧ (w.vol v).isSealed = false
      (¬ form → refused w 9 psn y) ∧
      (form → hFirst h = false → (x.inMsg = none → refused w 9 psn y) ∧ ∀ m, x.inMsg = some m → carried w m y) ∧
      (form → hFirst h = true → x.inMsg ≠ none ∨ payload.length ≠ min 4096 len → refused w 9 psn y) ∧
      (form → hFirst h = true → x.inMsg = none → payload.length = min 4096 len →
        (¬ window → refused w 7 last y) ∧ (window → ¬ range → refused w 8 last y) ∧
        (window → range → w.volLocked v = true → y = w.nakTerminal c 10 last msn) ∧
        (window → range → w.volLocked v = false → (w.vol v).isSealed = true → y = w.nakTerminal c 6 last msn) ∧
        (window → range → free → w.dev.inService = false → y = (w.countClass cls 6).nakRetry c 5 psn msn w.shutdownHint) ∧
        (window → range → free → w.dev.inService = true → w.openTo cls = false → y = (w.countClass cls 5).nakRetry c 4 psn msn (w.energyHint cls)) ∧
        (window → range → free → w.dev.inService = true → w.openTo cls = true → w.unitsFit cls k = false ∨ w.energyFits k = false → y =
          if cls = 5 then (w.countClass 5 7).nakRetry c 2 psn msn (hintOf (k + headroom 5 - w.genFree) (w.releasedIn false 0))
          else (w.countClass 8 4).nakRetry c 3 psn msn (hintOf (used + k - partQuota d) (w.releasedIn false (1 + slot)))) ∧
        (window → range → free → w.dev.inService = true → w.openTo cls = true → w.unitsFit cls k = true → w.energyFits k = true → ∃ m g, m = {
            msn := msn, mlen := len, window := win, form := slice h 26 3, firstPsn := psn, data := [], units := k, vol := v, granted := w.time.uptime
            excess := cls = 8 } ∧
          g = (w.takeGeneral k).setConn c { w.conn c with inMsg := some m } ∧ carried g m y))) ∧
    (frameOp f = 3 → effect (.readReq p f a media) fun w y =>
      let d := w.connPartDef c
      let kind := if 3 < win then 0 else winKind d win
      let v := winVol d win
      let start := beAt h 28 8
      let form : Prop := formOk h = true ∧ hFirst h = true ∧ hLast h = true ∧ h.length = 48 ∧ beAt h 26 2 = 0 ∧ beAt h 40 8 = 0
      let window : Prop := kind = 2 ∨ kind = 3
      let range : Prop := len ≤ winMax d win ∧ (kind = 2 → start + len ≤ 512) ∧ (kind = 3 → (w.vol v).kind = 1 ∧ 32 ≤ len ∧ len % 8 = 0)
      let answer (g : State) (data : Bytes) (status : Nat) (tail : Bytes) : State := (acked g).enqueue c
        { op := 4, msn := msn, head := natBe 4 data.length ++ natBe 2 status ++ [0, 0], base := some 0, tail := tail, imm := false, payload := data }
      (¬ form → refused w 9 psn y) ∧ (form → ¬ window → refused w 7 psn y) ∧ (form → window → ¬ range → refused w 8 psn y) ∧
      (form → kind = 2 → range → y = answer w (slice (w.statusWindow c) start len) 0 []) ∧
      (form → kind = 3 → range → w.volLocked v = true → y = w.nakTerminal c 10 psn msn) ∧
      (form → kind = 3 → range → w.volLocked v = false → ∃ g recs t oldest, g = w.readRecords v media ∧ recs = (g.vol v).recs.filter (fun r => start ≤ r.seq) ∧
        oldest = ((g.vol v).recs.head?.map fun r => r.seq).getD start ∧ t = streamCopy (failedOf media) len (beAt h 36 4) recs (max start oldest) 0 ∧
        y = answer g t.1 t.2.2.2.2 (natBe 8 (if recs = [] then start else t.2.2.1) ++ natBe 2 t.2.1 ++ natBe 2 (b2n (start < oldest) + 2 * b2n t.2.2.2.1)))) ∧
    (frameOp f = 5 → effect (.send p f a) fun w y =>
      let d := w.connPartDef c
      let e := w.connEntry c
      let tag := beAt h 24 1
      let gained := (w.time.uptime - x.tokenAt) * connTrigRate e / 25000000
      let full : Prop := connTrigBurst e ≤ x.tokens + gained
      let form : Prop := formOk h = true ∧ hFirst h = true ∧ hLast h = true ∧ len ≤ 64 ∧ h.length = 48 + len ∧ beAt h 25 23 = 0
      let range : Prop := partFirstTag d ≤ tag ∧ tag ≤ partLastTag d
      let tokens := if full then connTrigBurst e else x.tokens + gained
      (¬ form → refused w 9 psn y) ∧ (form → ¬ range → refused w 7 psn y) ∧
      (form → range → connTrigRate e = 0 ∨ tokens = 0 → refused w 11 psn y) ∧
      (form → range → connTrigRate e ≠ 0 → tokens ≠ 0 → y = acked ((w.setConn c { w.conn c with
          tokens := tokens - 1, tokenAt := if full then w.time.uptime else x.tokenAt + gained * 25000000 / max 1 (connTrigRate e) }).triggerAll 1
        fun z => z.kind == 1 && z.detail == tag && (z.source == c || z.source == 0xFFFF) && z.state ≠ 0)))

/-- R275, R424, R425, R454, R456 to R458: the ports. A link that comes up takes the port's settings and is recorded; a link that goes down, or a
port taken down, loses what it holds, and its connections fail over one after another; a port whose link was declared down has failed until
its link comes up or it is taken down, and the device is regraded; a priority that the partner pauses holds its frames until
XON; the watchdog moves the connections of a priority, and the limit of the port's own pause ends it; the buffer asks for a pause at
48 KiB and ends it below 24 KiB.
The choices of the model that it rests on: assumptions 6 and 59. -/
def Obligations.FabricPorts : Prop :=
  ∀ (s : State) (p : Fin 2),
    let q := p.val
    let link := Reg.portLink q
    let moved (f : Nat → Bool) (u : State) : State := ((u.fab.conns.filter fun x => x.2.st == 3 && x.2.port == q && f x.1).map fun x => x.1).foldl State.failover u
    let down (n : Nat) (u t : State) : Prop := ∃ v, Sets u [(link, n), (Reg.portXoff q, 0), (Reg.portPaused q, 0)] v ∧
      t = moved (fun _ => true) { v with fab := { v.fab with
            held := v.fab.held.filter fun e => e.1 / 8 ≠ q, rx := v.fab.rx.filter fun e => e.1 / 8 ≠ q, limited := v.fab.limited.filter fun e => e.1 / 8 ≠ q } }
    let fails (on : Bool) (u t : State) : Prop := if bit u.portsFailed q = on then t = u else
      Steady { u with portsFailed := withBit u.portsFailed q on }.graded t
    let noMac : Bytes := List.replicate 6 0
    (∀ kx fec : Bool,
      let b := s.storedItem 8 q
      let takes : Prop := s.fabUp = true ∧ bit (s.f Reg.portEn) q = true ∧ s.f link < 2 ∧ portEnable b = true ∧ portMac b ≠ noMac ∧
        (kx = true → portFallback b = true ∨ portOnlyKx b = true) ∧ (kx = false → portOnlyKx b = false)
      (¬ takes → exec (.portLinkUp p kx fec) s = .next s) ∧
      (takes → Answers (exec (.portLinkUp p kx fec) s) fun t => ∃ u v w : State,
        Sets { s with fab := { s.fab with portCfg := s.fab.portCfg.set [] q b } } [(Reg.portFec q, if fec = true ∧ kx = false then 1 else 0), (link, if kx = true then 3 else 2)] u ∧
        Logs u 0x5001 (Src.fab q) (if kx = true then 1000 else 10000) 0 0 0 v ∧
        (if kx = true ∧ portOnlyKx b = false then Logs v 0x5003 (Src.fab q) 0 0 0 0 w else w = v) ∧ fails false w t)) ∧
    (s.dieUp = false ∨ s.dev.minimal = true ∨ s.f link < 2 → exec (.portLinkDown p) s = .next s) ∧
    (s.dieUp = true → s.dev.minimal = false → 2 ≤ s.f link → Answers (exec (.portLinkDown p) s) fun t => ∃ u v, Logs s 0x5002 (Src.fab q) 0 0 0 0 u ∧ down 1 u v ∧
      fails true v t) ∧
    (∀ (path : Path) (on : Bool),
      let was := bit (s.f Reg.portEn) q
      let b := s.storedItem 8 q
      let mine : Prop := s.fabUp = true ∧ s.dev ≠ .recovery ∧ s.installer path = true
      (s.dieUp = false → exec (.portEnable path p on) s = .next s) ∧
      (s.dieUp = true → ¬ mine → Answers (exec (.portEnable path p on) s) (Counts s 0x03)) ∧
      (mine → was = on → exec (.portEnable path p on) s = .next s) ∧
      (mine → was = false → on = true → Answers (exec (.portEnable path p on) s)
        (Sets s [(link, if portEnable b = true ∧ portMac b ≠ noMac then 1 else 0), (Reg.portEn, withBit (s.f Reg.portEn) q true)])) ∧
      (mine → was = true → on = false → Answers (exec (.portEnable path p on) s) fun t => ∃ u v, down 0 s u ∧
        Sets u [(Reg.portEn, withBit (s.f Reg.portEn) q false)] v ∧ fails false v t)) ∧
    (∀ set quanta : BitVec 8,
      (s.fabUp = false ∨ s.portUp q = false → exec (.pfcFrame p set quanta) s = .next s) ∧
      (s.fabUp = true → s.portUp q = true → ∃ one : State → Nat → State, exec (.pfcFrame p set quanta) s = .next ((List.range 8).foldl one s) ∧ ∀ u i,
        let hears : Prop := bit set.toNat i = true ∧ bit (portPfc (s.port q)) i = true
        let pausing := bit (u.f (Reg.portPaused q)) i
        let mask (b : Bool) := withBit (u.f (Reg.portPaused q)) i b
        (¬ hears → one u i = u) ∧ (hears → bit quanta.toNat i = true → Sets u [(Reg.portPaused q, mask true)] (one u i)) ∧
        (hears → bit quanta.toNat i = false → pausing = false → one u i = u) ∧
        (hears → bit quanta.toNat i = false → pausing = true → ∃ v, Sets { u with fab := { u.fab with
              held := u.fab.held.erase (8 * q + i), resumed := u.fab.resumed.put (8 * q + i) u.time.uptime } } [(Reg.portPaused q, mask false)] v ∧
          one u i = (u.fab.held.get [] (8 * q + i)).foldl (fun t f => t.putFrame q i f) v))) ∧
    (∀ (i : Nat) (f : Bytes), (s.portUp q = false ∨ s.bas.freeze = true → s.putFrame q i f = s) ∧
      (s.portUp q = true → s.bas.freeze = false → bit (s.f (Reg.portPaused q)) i = false → s.putFrame q i f = { s with out := .frame q f :: s.out }) ∧
      (s.portUp q = true → s.bas.freeze = false → bit (s.f (Reg.portPaused q)) i = true →
        s.putFrame q i f = { s with fab := { s.fab with held := s.fab.held.put (8 * q + i) (s.fab.held.get [] (8 * q + i) ++ [f]) } })) ∧
    (∀ i : Fin 8,
      let wd : Prop := s.fabUp = true ∧ bit (s.f (Reg.portPaused q)) i.val = true
      let own (u : State) := bit (u.f (Reg.portXoff q)) i.val
      let ownPause (u : State) (on : Bool) (t : State) : Prop := ∃ v, Sets u [(Reg.portXoff q, withBit (u.f (Reg.portXoff q)) i.val on)] v ∧
        t = if v.portUp q = true ∧ v.bas.freeze = false then { v with out := .frame q (padTo 60 ([0x01, 0x80, 0xC2, 0, 0, 0x01] ++ portMac (v.port q) ++ natBe 2 0x8808 ++
            natBe 2 0x0101 ++ natBe 2 (2 ^ i.val) ++ (List.range 8).flatMap fun j => natBe 2 (if j = i.val ∧ on = true then 0xFFFF else 0))) :: v.out } else v
      let key := 8 * q + i.val
      (¬ wd → exec (.pauseWatchdog p i) s = .next s) ∧
      (wd → Answers (exec (.pauseWatchdog p i) s) fun t => ∃ u v w, Logs s 0x5030 (Src.fab q) i.val 0 0 0 u ∧ Counts u 0x3C v ∧
        Sets v [(Reg.portWd q, withBit (s.f (Reg.portWd q)) i.val true)] w ∧ t = moved (fun c => w.connPcp c q == i.val) w) ∧
      (s.fabUp = false ∨ own s = false → exec (.pauseTxLimit p i) s = .next s) ∧
      (s.fabUp = true → own s = true → Answers (exec (.pauseTxLimit p i) s) fun t => ∃ u v, ownPause s false u ∧ Logs u 0x5031 (Src.fab q) i.val 0 0 0 v ∧
        t = if 49152 < v.fab.rx.get 0 key then { v with fab := { v.fab with limited := v.fab.limited.put key true } } else v) ∧
      (∀ fill, ∃ u : State, u = { s with fab := { s.fab with
            rx := s.fab.rx.set 0 key fill, limited := if fill ≤ 49152 then s.fab.limited.erase key else s.fab.limited } } ∧
        let asks : Prop := 49152 ≤ fill ∧ own s = false ∧ u.fab.limited.get? key = none
        let ends : Prop := fill < 24576 ∧ own s = true
        let pfc := bit (portPfc (s.port q)) i.val
        (pfc = true → asks → ownPause u true (s.noteFill q i.val fill)) ∧ (pfc = true → ends → ownPause u false (s.noteFill q i.val fill)) ∧
        (pfc = false ∨ ¬ asks ∧ ¬ ends → s.noteFill q i.val fill = u)))

/-- R435, R440, R441, R445, R446, R454, R461: the timers, entries and quarantine of a connection. An expiry goes back, discards, keeps alive, fails over or asks again;
a connection fails over to its other port if it can, else goes DOWN with a HELLO request on its preferred port; a synced entry takes
effect at its boundary; violations within a second quarantine a connection until QDUR, a sync or FAB_QUAR_CLR ends it.
The choices of the model that it rests on: assumptions 6, 58 and 59. -/
def Obligations.FabricConnections : Prop :=
  ∀ (s : State) (c : Fin 256),
    let n := c.val
    let x := s.conn n
    let back (u : State) : State := (u.setConn n { u.conn n with snd := (u.conn n).una, holdUntil := 0 }).pump n 64
    let nonced (u : State) : State := if connSealed (u.connEntry n) = true then (u.draw 16).1 else u
    let nonce (u : State) : Bytes := if connSealed (u.connEntry n) = true then (u.draw 16).2 else []
    let barred (u : State) : Prop := connSealed (u.connEntry n) = true ∧ u.roles.flint.drbg = false
    let hello (u : State) (p kind : Nat) (restart : Bool) (key : Bytes) : State :=
      (u.setConn n { u.conn n with packets := min 0xFFFF ((u.conn n).packets + 1) }).putFrame p (u.connPcp n p)
        (u.ilideFrame n p 0x20 0 0 (natBe 1 kind ++ natBe 1 (if restart = true then 1 else 0) ++ [0, 0] ++ natBe 4 0 ++ padTo 16 key ++ natBe 4 (u.time.cycles % 2 ^ 32)) []
          (if connSealed (u.connEntry n) = true then some (u.connKey n) else none))
    let request (u : State) (p : Nat) (t : State) : Prop :=
      (barred u → t = u.setConn n { u.conn n with port := p }) ∧
      (¬ barred u → t = hello ((nonced u).setConn n { u.conn n with st := 2, port := p, nonce := nonce u }) p 0 (u.conn n).restart (nonce u))
    let dropped (u t : State) : Prop := (∀ m, (u.conn n).inMsg = some m → t = (u.setConn n { u.conn n with inMsg := none }).giveBack m.units (1 + u.connSlot n) false) ∧
      ((u.conn n).inMsg = none → t = u)
    let down (u t : State) : Prop := ∃ v w : State, dropped u v ∧
      (let v' := v.setConn n { u.conn n with inMsg := none, st := 1, session := none, tries := 0, movedOnce := false }
       if (u.conn n).st = 3 then ∃ l, Logs v' 0x5011 (Src.fab (u.conn n).port) n 0 0 0 l ∧ Counts l 0x3A w else w = v') ∧
      request w (connPref (u.connEntry n)) t
    let moves (u t : State) : Prop :=
      let y := u.conn n
      let p := 1 - y.port
      let free : Prop := connAllows (u.connEntry n) p = true ∧ u.portUp p = true ∧ u.barred p (u.connPcp n p) = false
      (y.st ≠ 3 → t = u) ∧
      (y.st = 3 → free → ∃ v w, Logs (u.setConn n { y with port := p, failovers := min 0xFFFF (y.failovers + 1) }) 0x5012 (Src.fab p) n p 0 0 v ∧ Counts v 0x3B w ∧ t = back w) ∧
      (y.st = 3 → ¬ free → down u t)
    let due : Prop := s.fabUp = true ∧ x.st = 3 ∧ x.una < x.top ∧ x.holdHello = false ∧ x.holdUntil ≤ s.time.uptime
    let timed := s.setConn n { x with rtos := min 0xFFFF (x.rtos + 1), tries := x.tries + 1 }
    let retry := connRetry (s.connEntry n)
    let ends (u t : State) : Prop := Logs (u.setConn n { u.conn n with quarantined := false, vioNow := 0, lastQNak := none }) 0x5041 Src.ilide n 0 0 0 t
    (¬ due → exec (.retransmitTimeout c) s = .next s) ∧
    (due → x.holdUntil ≠ 0 → exec (.retransmitTimeout c) s = .next ((s.setConn n { x with holdUntil := 0 }).pump n 64)) ∧
    (due → x.holdUntil = 0 → x.tries + 1 < retry → exec (.retransmitTimeout c) s = .next (back timed)) ∧
    (due → x.holdUntil = 0 → retry ≤ x.tries + 1 → x.movedOnce = true → Answers (exec (.retransmitTimeout c) s)
      (down (timed.setConn n { timed.conn n with outq := x.outq.filter fun m => m.cairn ≠ 0 }))) ∧
    (due → x.holdUntil = 0 → retry ≤ x.tries + 1 → x.movedOnce = false → Answers (exec (.retransmitTimeout c) s) fun t => ∃ u,
      moves (timed.setConn n { timed.conn n with tries := 0 }) u ∧ t = if (u.conn n).st = 3 then u.setConn n { u.conn n with movedOnce := true } else u) ∧
    (s.fabUp = false ∨ x.inMsg = none → exec (.assemblyTimeout c) s = .next s) ∧
    (s.fabUp = true → ∀ m, x.inMsg = some m → Answers (exec (.assemblyTimeout c) s) fun t => ∃ u, dropped s u ∧
      t = u.setConn n { x with inMsg := none, epsn := m.firstPsn, nakSent := false }) ∧
    (s.fabUp = false ∨ x.st ≠ 3 ∨ barred s → exec (.keepaliveSend c) s = .next s) ∧
    (s.fabUp = true → x.st = 3 → ¬ barred s → exec (.keepaliveSend c) s = .next (hello (nonced s) x.port 2 false (nonce s))) ∧
    (s.fabUp = false → exec (.partnerSilence c) s = .next s) ∧ (s.fabUp = true → Answers (exec (.partnerSilence c) s) (moves s)) ∧
    (let asks : Prop := s.fabUp = true ∧ s.dev.serves = true ∧ (x.st = 1 ∨ x.st = 2)
     (¬ asks → exec (.helloRetry c) s = .next s) ∧
     (asks → Answers (exec (.helloRetry c) s) (request s (if x.st = 2 ∧ connAllows (s.connEntry n) (1 - x.port) = true then 1 - x.port else x.port)))) ∧
    (∀ forced : Bool,
      (s.tab.connNext.get? n = none → exec (.connectionBoundary c forced) s = .next s) ∧
      (∀ b, s.tab.connNext.get? n = some b →
        let now : Prop := s.fabUp = true ∧ (forced = true ∨ x.atBoundary = true)
        let u : State := { s with tab := { s.tab with conn := s.tab.conn.set [] n b, connNext := s.tab.connNext.erase n } }
        let same : Prop := connValid b = false ∨ connValid (s.connEntry n) = true ∧ connBinding (s.connEntry n) = connBinding b
        (¬ now → exec (.connectionBoundary c forced) s = .next s) ∧ (now → same → exec (.connectionBoundary c forced) s = .next u) ∧
        (now → ¬ same → s.dev.serves = true → Answers (exec (.connectionBoundary c forced) s) (down u)) ∧
        (now → ¬ same → s.dev.serves = false → exec (.connectionBoundary c forced) s = .next (u.setConn n { x with st := 1, port := connPref b })))) ∧
    (let excess : Prop := s.fabUp = true ∧ partDur (s.connPartDef n) ≠ 0 ∧ x.quarantined = true
     (¬ excess → exec (.quarantineEnd c) s = .next s) ∧ (excess → Answers (exec (.quarantineEnd c) s) (ends s))) ∧
    (∀ (path : Path) (value : Word), value.toNat % 256 = n →
      let mine : Prop := s.fabUp = true ∧ s.dev ≠ .recovery ∧ s.installer path = true
      let clears : Prop := bit value.toNat 31 = true ∧ x.quarantined = true
      (s.dieUp = false → exec (.quarantineClear path value) s = .next s) ∧
      (s.dieUp = true → ¬ mine → Answers (exec (.quarantineClear path value) s) (Counts s 0x03)) ∧
      (mine → ¬ clears → exec (.quarantineClear path value) s = .next s) ∧ (mine → clears → Answers (exec (.quarantineClear path value) s) (ends s))) ∧
    (let sec := s.time.uptime / 25000000
     let k := if x.vioSec = sec then x.vioNow + 1 else 1
     ∃ u, Counts (s.setConn n { x with violations := min 0xFFFF (x.violations + 1), vioSec := sec, vioNow := k }) 0x3D u ∧
       if partThresh (s.connPartDef n) ≤ k ∧ x.quarantined = false then ∃ v w, dropped u v ∧
         Logs (v.setConn n { v.conn n with quarantined := true, lastQNak := none }) 0x5040 Src.ilide n 0 0 0 w ∧ Counts w 0x3E (s.violation n)
       else s.violation n = u)

/-- R471 to R478, R480: firings. The oldest queued firing starts while fewer than 4 run; it runs its actions in slot order: PIN pins each stream of
its mask or ends that part with result 2 or 7, SHIP hands at most 4 messages ahead of acknowledgement to its connection, SEND sends one
message, NOTIFY sets doorbell bits; its end records the result, releases its pins where it should, and returns the cairn.
The choices of the model that it rests on: assumption 60. -/
def Obligations.CairnFirings : Prop :=
  ∀ s : State,
    let up : Prop := s.dieUp = true ∧ s.dev.serves = true ∧ s.bas.freeze = false
    let put (u : State) (f : Firing) : State := { u with crn := { u.crn with running := u.crn.running.map fun g => if g.cairn = f.cairn then f else g } }
    let saved (u : State) (f : Firing) : State := put u.commit { f with pages := u.commit.str.pages.length + if u.commit.str.openPage = [] then 0 else 1 }
    let excess (f : Firing) (r : Nat) : Firing := { f with action := f.action + 1, results := f.results ++ [r], begun := false, next := 0, acked := 0, part := 0 }
    (s.crn.queue = [] → exec .cairnFiringStart s = .next s) ∧
    (∀ f q, s.crn.queue = f :: q → (¬ (up ∧ s.crn.running.length < 4) → exec .cairnFiringStart s = .next s) ∧
      (up → s.crn.running.length < 4 → Answers (exec .cairnFiringStart s) fun t => ∃ u,
        Logs { s with crn := { s.crn with queue := q, running := s.crn.running ++ [f] } } 0xA020 Src.cairn f.cairn f.number f.kind (f.t0 % 2 ^ 32) u ∧
        t = (saved u f).runFiring f.cairn 8)) ∧
    (∀ (c k : Nat) (f : Firing), s.crn.running.find? (fun g => g.cairn == c) = some f →
      let e := s.cairn c
      let a := slice e.entry (32 + 16 * f.action) 16
      let kind := leAt a 0 1
      let n := bits (leAt a 1 1) 3 0
      let ship := s.plan f a
      (e.actions ≤ f.action → s.runFiring c (k + 1) = s) ∧
      (f.action < e.actions → kind = 1 → ∃ u pins r, (u, pins, r) = ((List.range 32).filter fun v => bit (leAt a 4 4) v).foldl
          (fun t v => let w := t.1.pinOne f a v
                      (w.1, t.2.1 ++ w.2.1, max t.2.2 w.2.2)) (s, ([] : List (Nat × Nat × Nat)), 0) ∧
        s.runFiring c (k + 1) = (saved u (excess { f with pins := f.pins ++ pins, pinsDurable := false } r)).runFiring c k) ∧
      (f.action < e.actions → kind = 2 → f.pinsDurable = false → f.begun = false → s.runFiring c (k + 1) = s) ∧
      (f.action < e.actions → kind = 2 → f.pinsDurable = true ∨ f.begun = true → ∃ u,
        (ship.1.length ≤ f.acked → u = saved s (excess { f with ships := max f.ships (max f.part ship.2) } (max f.part ship.2))) ∧
        (f.acked < ship.1.length → u = (put s { f with begun := true, part := max f.part ship.2 }).pumpShip c (leAt a 2 1) ship.1 4) ∧
        s.runFiring c (k + 1) = if (u.crn.running.find? fun g => g.cairn == c).any (fun g => decide (g.action ≠ f.action)) = true then u.runFiring c k else u) ∧
      (f.action < e.actions → kind = 3 → s.runFiring c (k + 1) = if f.begun = true then s else (put s { f with begun := true, next := 1 }).enqueue (leAt a 2 1)
        { op := 5, msn := 0, head := natBe 4 n ++ natBe 1 (leAt a 3 1) ++ [0, 0, 0], base := none, tail := [], imm := false, payload := slice a 4 n, cairn := c + 1 }) ∧
      (f.action < e.actions → kind = 4 → s.runFiring c (k + 1) = (saved (if s.mbxUp = true then s.setD2h (leAt a 4 4) else s) (excess f 0)).runFiring c k)) ∧
    (∀ (f : Firing) (a : Bytes) (v : Nat),
      let x := s.vol v
      let handle := 0x8000 + 32 * f.cairn + v
      let gone : Prop := x.kind ≠ 1 ∨ x.sanitize = true
      let held : Prop := ∃ p ∈ s.nv.pins, p.vol = v ∧ p.handle = handle
      let full : Prop := 16 ≤ (s.nv.pins.filter fun p => p.vol == v).length ∨ 128 ≤ s.nv.pins.length
      let span := if bit (leAt a 1 1) 0 = true then x.recs.drop (x.recs.length - leAt a 8 4)
        else x.recs.filter fun r => r.cycles = s.time.cycles && f.t0 - msTicks (leAt a 8 4) ≤ r.ticks
      (gone → s.pinOne f a v = (s, [], 7)) ∧ (¬ gone → held ∨ full → s.pinOne f a v = (s, [], 2)) ∧
      (¬ gone → ¬ held → ¬ full → s.pinOne f a v = ({ s.commit with nv := { s.commit.nv with
          pins := s.nv.pins ++ [{ vol := v, handle := handle, first := (span.head?.map fun r => r.seq).getD 0, count := span.length }] } }, [(handle, v, f.action)], 0))) ∧
    (∀ (c conn k : Nat) (ms : List OMsg) (f : Firing), s.crn.running.find? (fun g => g.cairn == c) = some f →
      (f.acked + 4 ≤ f.next ∨ ms.length ≤ f.next → s.pumpShip c conn ms k = s) ∧
      (f.next < f.acked + 4 → ∀ m, ms[f.next]? = some m → s.pumpShip c conn ms (k + 1) = ((put s { f with next := f.next + 1 }).enqueue conn m).pumpShip c conn ms k)) ∧
    (∀ c : Fin 512,
      (s.crn.running.find? (fun g => g.cairn == c.val) = none → exec (.cairnFiringEnd c) s = .next s ∧ exec (.shipConnectionTimeout c) s = .next s) ∧
      (∀ f, s.crn.running.find? (fun g => g.cairn == c.val) = some f →
        let e := s.cairn c.val
        let a := slice e.entry (32 + 16 * f.action) 16
        let kind := leAt a 0 1
        let conn := leAt a 2 1
        let stuck : Prop := up ∧ f.begun = true ∧ (s.conn conn).st ≠ 3 ∧ (kind = 2 ∨ kind = 3)
        let r := f.results.foldl max (if f.resumed = true then 6 else 0)
        let done : Prop := up ∧ e.actions ≤ f.action
        let linked : Prop := e.flag 3 = true ∧ (e.flag 4 = true → r = 0)
        (¬ stuck → exec (.shipConnectionTimeout c) s = .next s) ∧
        (stuck → ∃ u : State, u = s.setConn conn { s.conn conn with outq := (s.conn conn).outq.filter fun m => m.cairn ≠ c.val + 1 } ∧
          let x := max 3 f.part
          exec (.shipConnectionTimeout c) s = .next ((put (u.orphan c.val) (excess (if kind = 2 then { f with ships := max f.ships x } else f) x)).runFiring c.val 8)) ∧
        (¬ done → exec (.cairnFiringEnd c) s = .next s) ∧
        (done → Answers (exec (.cairnFiringEnd c) s) fun t => ∃ u v w y : State, Logs s 0xA021 Src.cairn c.val r f.shipped f.bytes u ∧
          (if r = 0 then v = u else Counts u 0x52 v) ∧
          w = (if e.flag 2 = true ∧ f.ships = 0 then { v.commit with nv := { v.commit.nv with
            pins := v.nv.pins.filter fun p => !(f.pins.any fun q => q.1 == p.handle && q.2.1 == p.vol) } } else v) ∧
          (let x := w.cairn c.val
           y = { (w.setCairn c.val { x with
               entry := if x.cancelled = true then [] else x.entry, state := if x.cancelled = true then 0 else if e.flag 1 = true then 1 else 3
               cancelled := false, count := 0, result := r, ended := f.results.length }).touch 0x0B with
             crn := { w.crn with running := w.crn.running.filter (fun g => g.cairn ≠ c.val), lastCairn := c.val, lastResult := r, lastNumber := f.number % 65536 } }) ∧
          (¬ linked → t = y) ∧ (linked → 8 ≤ f.depth → Logs y 0xA023 Src.cairn c.val 0 0 0 t) ∧
          (linked → f.depth < 8 → t = (y.fireCairn e.next 6 f.t0 f.t0Field (f.depth + 1)).1))))

/-- R500, R505 to R508, R513 to R515: the recorder. A record takes a token of its code's bucket or is suppressed and counted; it is staged, its first 4096
for Amber, or lost when 256 are staged; a flush moves staging to Amber and to Scree, which keeps the newest 32 768, and reports the
records lost; once a second each suppressed code is summed up.
The choices of the model that it rests on: assumption 61. -/
def Obligations.Recorder : Prop :=
  ∀ s : State,
    let st := s.evr.staging
    let up : Prop := s.dieUp = true ∧ s.bas.freeze = false ∧ st ≠ []
    let n := s.nv.scree.length + st.length
    (¬ up → exec .screeFlush s = .next s) ∧
    (up → Answers (exec .screeFlush s) fun t => ∃ u : State, u = { s with
        nv := { s.nv with amber := s.nv.amber ++ st.filter (fun r => r.area == 1), scree := (s.nv.scree ++ st).drop (n - 32768), screeSeq := s.nv.screeSeq + st.length }
        evr := { s.evr with staging := [], lost := 0 }, pageSeq := s.pageSeq.set 0 3 (s.pageSeq.get 0 3 + 1) } ∧
      (if s.evr.lost = 0 then t = u else Logs u 0xF010 Src.recorder s.evr.lost 0 0 0 t)) ∧
    (s.dieUp = false → exec .suppressionSummary s = .next s) ∧
    (s.dieUp = true → exec .suppressionSummary s = .next (s.evr.supp.foldl (fun t x => t.record 0xF001 Src.recorder x.1 x.2.count x.2.first)
      { s with evr := { s.evr with supp := [] } })) ∧
    (∀ code src p1 p2 p3 p4 : Nat,
      let cls := (sevRate code).2
      let size := if cls = 1 then 64 else if cls = 2 then 8 else 2
      let period := if cls = 1 then 390625 else if cls = 2 then 3125000 else 25000000
      let tokens := match s.evr.buckets.get? code with
        | none => size
        | some b => min size (b.tokens + (s.time.uptime / period - b.seen / period))
      let x := s.evr.supp.get ⟨0, s.time.uptime % 2 ^ 32⟩ code
      let held := s.nv.amber.length + (st.filter fun r => r.area == 1).length
      let rec_ (u : State) (code src p1 p2 p3 p4 area : Nat) : EvRec := {
          code := code, kind := if u.time.calSet = true then 1 else 0, area := area, sev := (sevRate code).1, src := src, time := u.timeField,
          p1 := p1 % 2 ^ 32, p2 := p2 % 2 ^ 32, p3 := p3 % 2 ^ 32, p4 := p4 % 2 ^ 32 }
      let taken : State := if cls = 0 then s else { s with evr := { s.evr with buckets := s.evr.buckets.put code ⟨tokens - 1, s.time.uptime⟩ } }
      let r := rec_ s code src p1 p2 p3 p4 (if held < 4096 then 1 else 0)
      let full := rec_ s 0xF002 Src.recorder 0 0 0 0 0
      let count (u : State) (i : Nat) : State := { u with evr := { u.evr with tc := u.evr.tc.set 0 i (min 0xFFFF (u.evr.tc.get 0 i + 1)) } }
      (cls ≠ 0 → tokens = 0 → ∃ u, Sets (count s 0) [(Reg.evrSupp, min (2 ^ Reg.evrSupp.width - 1) (s.f Reg.evrSupp + 1))] u ∧
        s.record code src p1 p2 p3 p4 = { u with evr := { u.evr with supp := s.evr.supp.put code ⟨x.count + 1, x.first⟩ } }) ∧
      (cls = 0 ∨ tokens ≠ 0 → s.evr.shut = true → s.record code src p1 p2 p3 p4 = taken) ∧
      (cls = 0 ∨ tokens ≠ 0 → s.evr.shut = false → 256 ≤ st.length → s.record code src p1 p2 p3 p4 =
        { count taken 1 with evr := { (count taken 1).evr with lost := s.evr.lost + 1 } }) ∧
      (cls = 0 ∨ tokens ≠ 0 → s.evr.shut = false → st.length < 256 → held ≠ 4095 → s.record code src p1 p2 p3 p4 =
        State.notice { taken with evr := { taken.evr with staging := st ++ [r], last := code } } code) ∧
      (cls = 0 ∨ tokens ≠ 0 → s.evr.shut = false → st.length < 255 → held = 4095 → s.record code src p1 p2 p3 p4 =
        State.notice { taken with evr := { taken.evr with staging := st ++ [r, full], last := 0xF002 } } code))

/-- R487 to R492, R494, R495, R498, R499: Lodestone's timers and its inputs. A period event returns the count to 0, sets EVT or counts in OVR, is delivered on the
timer's routes, stops a one-shot and starts or steps its slaves; a write of EN starts a timer from 0 or stops it; PERIOD and COUNT are live
and a PERIOD of 0 is dropped; an edge at an input counts, captures or retriggers the timers it gates, and is delivered by KEDGE.
The choices of the model that it rests on: assumption 64. -/
def Obligations.Timers : Prop :=
  ∀ (s : State) (n : Fin 8),
    let outputs (u : State) (m : Nat) (event : Bool) (t : State) : Prop := { t with time := u.time } = u ∧ { t.time with gpioOut := u.time.gpioOut } = u.time ∧
      ∀ g, bit t.time.gpioOut g = if g < 4 ∧ u.f (Reg.gpioFunc g) = 2 ∧ u.f (Reg.gpioTimer g) = m then
        (let o := u.f (Reg.tmrOut m)
         if o = 1 then bit u.time.gpioOut g != event else if o = 2 then event else o = 3 ∧ u.f (Reg.tmrRun m) = 1) else bit u.time.gpioOut g
    let flag (f ovr : Field) (u t : State) : Prop := if u.f f = 1 then Sets u [(ovr, min (2 ^ ovr.width - 1) (u.f ovr + 1))] t else Sets u [(f, 1)] t
    let starts (u : State) (m : Nat) (t : State) : Prop := ∃ v, Sets u [(Reg.tmrCount m, 0), (Reg.tmrRun m, 1)] v ∧ outputs v m false t
    let mine (path : Path) : Prop := s.dieUp = true ∧ s.dev ≠ .recovery ∧ s.installer path = true
    let writes (path : Path) (r : Host.Outcome State Fault Refusal) (done : State → Prop) : Prop :=
      (s.dieUp = false → r = .next s) ∧ (s.dieUp = true → ¬ mine path → Answers r (Counts s 0x03)) ∧ (mine path → Answers r done)
    (s.dieUp = false ∨ s.f (Reg.tmrRun n) ≠ 1 → exec (.timerPeriodEvent n) s = .next s) ∧
    (s.dieUp = true → s.f (Reg.tmrRun n) = 1 → exec (.timerPeriodEvent n) s = .next (s.periodEvent n 8)) ∧
    (∀ k : Nat, ∃ u v w x : State, ∃ one : State → Nat → State, Sets s [(Reg.tmrCount n, 0)] u ∧ flag (Reg.tmrEvt n) (Reg.tmrOvr n) u v ∧
      w = State.raiseVein (if v.f (Reg.tmrRKey n) = 1 then v.raise 0 0 else v) ((if v.f (Reg.tmrRKey n) = 1 then v.raise 0 0 else v).f (Reg.tmrRVein n)) 0 ∧
      (∃ a b y : State, a = (if w.f (Reg.tmrRHook n) = 1 then (if (w.granted fun e => bit (grantTimers e) n) = true then w.raise 1 0 else w).hookTrigger (hookIs 3 n) else w) ∧
       b = (if a.f (Reg.tmrRCairn n) = 1 then a.triggerAll 3 (fun c => c.kind == 3 && c.detail == n && c.state ≠ 0) else a) ∧
       outputs b n true y ∧ if y.f (Reg.tmrMode n) = 1 then ∃ z, Sets y [(Reg.tmrRun n, 0)] z ∧ outputs z n false x else x = y) ∧
      s.periodEvent n (k + 1) = (List.range 8).foldl one x ∧ ∀ u m,
        let slave : Prop := n.val < m ∧ u.f (Reg.tmrMaster m) = n.val
        let next := u.f (Reg.tmrCount m) + 1
        let runs : Prop := u.f (Reg.tmrRun m) = 1
        (slave → u.f (Reg.tmrLink m) = 1 → starts u m (one u m)) ∧
        (slave → u.f (Reg.tmrLink m) = 2 → runs → u.f (Reg.tmrPeriod m) ≤ next → one u m = u.periodEvent m k) ∧
        (slave → u.f (Reg.tmrLink m) = 2 → runs → next < u.f (Reg.tmrPeriod m) → Sets u [(Reg.tmrCount m, next)] (one u m)) ∧
        (¬ slave ∨ u.f (Reg.tmrLink m) = 0 ∨ u.f (Reg.tmrLink m) = 2 ∧ ¬ runs → one u m = u)) ∧
    (let next := s.f (Reg.tmrCount n) + 1
     (s.f (Reg.tmrPeriod n) ≤ next → s.countStep n = s.periodEvent n 8) ∧ (next < s.f (Reg.tmrPeriod n) → Sets s [(Reg.tmrCount n, next)] (s.countStep n))) ∧
    (let mode := s.f (Reg.tmrMode n)
     let counts : Prop := s.f (Reg.tmrRun n) = 1 ∧ s.f (Reg.tmrLink n) ≠ 2 ∧ (mode = 4 ∨ mode = 5 ∨ (mode = 1 ∨ mode = 2) ∧ s.gateOn n = true)
     (counts → s.timerTick n = s.countStep n) ∧ (¬ counts → s.timerTick n = s)) ∧
    (∀ path : Path,
      writes path (exec (.timerEnable path n) s) (fun t => ∃ u, Sets s [(Reg.tmrEn n, 1)] u ∧ starts u n t) ∧
      writes path (exec (.timerStop path n) s) (fun t => ∃ u, Sets s [(Reg.tmrRun n, 0), (Reg.tmrEn n, 0)] u ∧ outputs u n false t) ∧
      ∀ value : Word,
        writes path (exec (.timerPeriodWrite path n value) s) (fun t => if value.toNat = 0 then Logs s 0x1041 Src.lodestone (0x3104 + 0x20 * n.val) 0 0 0 t
          else Sets s [(Reg.tmrPeriod n, value.toNat)] t) ∧
        writes path (exec (.timerCountWrite path n value) s) (Sets s [(Reg.tmrCount n, value.toNat)])) ∧
    (∀ (g : Fin 4) (level : Bool),
      (s.dieUp = false ∨ bit s.time.gpioIn g.val = level → exec (.gpioEdge g level) s = .next s) ∧
      (s.dieUp = true → bit s.time.gpioIn g.val ≠ level → ∃ one : State → Nat → State, ∃ u,
        Sets { s with time := { s.time with gpioIn := withBit s.time.gpioIn g.val level } } [(Reg.gpioIn g.val, if level = true then 1 else 0)] u ∧
        let v := (List.range 8).foldl one u
        let sel (x : Nat) : Bool := bit x (if level = true then 0 else 1)
        let a := if sel (v.f (Reg.gpioKedge g.val)) = true then v.raise 0 4 else v
        exec (.gpioEdge g level) s = .next (if v.f (Reg.gpioFunc g.val) = 0 then
          (if (a.granted fun e => bit (grantGpioEdge e) g.val) = true then a.raise 1 4 else a).hookTrigger fun e => hookIs 4 g.val e && sel (bits (hookDetail e) 7 6) else v) ∧
        ∀ u m, let rising : Bool := level != (u.f (Reg.tmrGpol m) = 1)
          let takes : Prop := u.f (Reg.tmrGsrc m) = g.val + 1 ∧ u.f (Reg.tmrRun m) = 1 ∧ bit (u.f (Reg.tmrGedge m)) (if rising = true then 0 else 1) = true
          let mode := u.f (Reg.tmrMode m)
          (takes → mode = 3 → one u m = u.countStep m) ∧ (takes → mode = 4 → ∃ v, Sets u [(Reg.tmrCapture m, u.f (Reg.tmrCount m))] v ∧ flag (Reg.tmrCap m) (Reg.tmrOvr m) v (one u m)) ∧
          (takes → mode = 5 → Sets u [(Reg.tmrCount m, 0)] (one u m)) ∧ (¬ takes ∨ mode ≠ 3 ∧ mode ≠ 4 ∧ mode ≠ 5 → one u m = u)))

/-- R519, R560, R562, R563, R565, R567, R569, R570: the USB service port. It attaches in a state that it serves; a disconnect ends the path's role and challenge; a bus
reset ends what is under way, counted if a transfer was. It answers the standard requests, STALLs those it does not have, and ends a
stream at any vendor request; a vendor request with bad fields, without its role, or in another state is STALLed.
The choices of the model that it rests on: assumptions 62 and 63. -/
def Obligations.UsbPort : Prop :=
  ∀ s : State,
    let up : Prop := s.dieUp = true ∧ s.usb.attached = true
    let cut := s.unstreamed
    let stalled (u : State) : State := { u with out := .usbStall :: u.out }
    let sent (u : State) (b : Bytes) : State := { u with out := .usb b :: u.out }
    let serves : Prop := s.dev = .ready ∨ s.dev = .readyDegraded ∨ s.dev = .bedrock ∨ s.dev = .recovery
    (s.dieUp = false → exec .usbAttach s = .next s) ∧
    (s.dieUp = true → s.usb.attached = false → serves → s.bas.freeze = false → exec .usbAttach s = .next { s with usb := { vbus := true, attached := true } }) ∧
    (s.dieUp = true → s.usb.attached = true ∨ ¬ serves ∨ s.bas.freeze = true → exec .usbAttach s = .next { s with usb := { s.usb with vbus := true } }) ∧
    (s.dieUp = false → exec .usbDisconnect s = .next { s with usb := {} }) ∧
    (s.dieUp = true → Answers (exec .usbDisconnect s) fun t => ∃ u, RoleBecomes { s with usb := {} } 1 0 u ∧ t = u.unchallenged 1) ∧
    (∀ underWay high : Bool, let u : State := { s with usb := { vbus := s.usb.vbus, attached := true, high := high } }
      (¬ up → exec (.usbBusReset underWay high) s = .next s) ∧ (up → underWay = false → exec (.usbBusReset underWay high) s = .next u) ∧
      (up → underWay = true → Answers (exec (.usbBusReset underWay high) s) fun t => ∃ v, Logs u 0x7042 Src.usb 0 0 0 0 v ∧ Counts v 0x49 t)) ∧
    (∀ (type req : BitVec 8) (value index len : BitVec 16),
      let r := exec (.usbStandardRequest type req value index len) s
      let usb (u : Usb) : State := { s with usb := u }
      let is (t q : Nat) : Prop := type.toNat = t ∧ req.toNat = q
      let ans (b : Bytes) : Prop := r = .next (sent s (b.take len.toNat))
      let halt (b : Bool) : Bytes := [if b = true then 1 else 0, 0]
      (¬ up → r = .next s) ∧
      (up → (is 0x80 0 → ans [1, 0]) ∧ (is 0x81 0 → index = 0 → ans [0, 0]) ∧ (is 0x82 0 → index = 0x01 → ans (halt s.usb.halt1)) ∧ (is 0x82 0 → index = 0x82 → ans (halt s.usb.halt2)) ∧
        (is 0x82 0 → index = 0 ∨ index = 0x80 → ans [0, 0]) ∧
        (∀ on : Bool, is 0x02 (if on = true then 3 else 1) → value = 0 → (index = 0x01 → r = .next (usb { s.usb with halt1 := on })) ∧ (index = 0x82 → r = .next (usb { s.usb with halt2 := on }))) ∧
        (is 0 3 → value = 2 → s.usb.high = true → r = .next s) ∧ (is 0 5 → value.toNat ≤ 127 → r = .next (usb { s.usb with address := value.toNat })) ∧
        (is 0x80 6 → ∀ b, s.descriptor (value.toNat / 256) (value.toNat % 256) = some b → ans b) ∧
        (is 0x80 6 → s.descriptor (value.toNat / 256) (value.toNat % 256) = none → r = .next (stalled s)) ∧
        (is 0x80 8 → ans [if s.usb.configured = true then 1 else 0]) ∧
        (is 0 9 → value.toNat ≤ 1 → r = .next (usb { s.usb with configured := decide (value.toNat = 1), halt1 := false, halt2 := false })) ∧
        (is 0x81 10 → index = 0 → s.usb.configured = true → ans [0]) ∧
        (is 0x01 11 → index = 0 → value = 0 → s.usb.configured = true → r = .next (usb { s.usb with halt1 := false, halt2 := false })) ∧
        (req.toNat ∉ [0, 1, 3, 5, 6, 8, 9, 10, 11] → r = .next (stalled s)))) ∧
    (let size (high : Bool) : Bytes := if high = true then [0, 2] else [64, 0]
     let config (type : BitVec 8) (high : Bool) : Bytes := [9, type, 32, 0, 1, 1, 0, 0xC0, 0, 9, 4, 0, 0, 2, 0xFF, 0x51, 0x01, 0, 7, 5, 0x01, 2] ++ size high ++ [0, 7, 5, 0x82, 2] ++ size high ++ [0]
     s.descriptor 1 0 = some ([18, 1, 0, 2, 0, 0, 0, 64] ++ (List.range 6).map Config.usbIds ++ [1, 2, 3, 1]) ∧ s.descriptor 2 0 = some (config 2 s.usb.high) ∧
     s.descriptor 7 0 = some (config 7 (!s.usb.high)) ∧ s.descriptor 6 0 = some [10, 6, 0, 2, 0, 0, 0, 64, 1, 0] ∧ s.descriptor 3 0 = some [4, 3, 0x09, 0x04]) ∧
    (∀ value index len : BitVec 16,
      Vendor s (.getState value index len) (value = 0 ∧ index = 0 ∧ len = 16) (fun r => r = .next (sent cut (padTo 16 (natLe 1 s.glbState ++ natLe 1 s.glbCause ++ natLe 1 s.roles.usb ++
        natLe 1 s.start.fails ++ natLe 4 s.glbStart ++ [if s.img.session = none then 0 else 1])))) ∧
      Vendor s (.getIdentify value index len) (value = 0 ∧ index = 0 ∧ 1 ≤ len.toNat ∧ len.toNat ≤ 4096)
        (fun r => r = .next (sent cut ((if s.dev = .recovery then padTo 4096 (cut.identify.take 60) else cut.identify).take len.toNat))) ∧
      Vendor s (.imageStatus value index len) (value = 0 ∧ index = 0 ∧ len = 64) (fun r => r = .next (sent cut (cut.imagePage.take 64)))) ∧
    (∀ (value index : BitVec 16) (data : Bytes) (gone : List (BitVec 16)),
      let page := value.toNat
      let off := leAt data 0 8
      let len := leAt data 8 4
      Vendor s (.logOpen value index data gone) (pageKnown page = true ∧ (s.dev.minimal = true → page ≤ 5) ∧ index = 0 ∧ data.length = 16 ∧ leAt data 12 4 = 0 ∧ 4 ≤ len ∧ len ≤ 2 ^ 21 ∧
          len % 4 = 0 ∧ off % 4 = 0 ∧ (page = 2 ∨ page = 3 → off % 32 = 0 ∧ len % 32 = 0))
        (fun r => ∀ q, q = cut.logCopy page off len false (gone.map fun i => i.toNat) → r = .next (sent q.1 q.2.1))) ∧
    (∀ (value index : BitVec 16) (data raw : Bytes),
      let n := value.toNat
      let e := s.lunEntry n
      let row := leAt data 0 4
      let pages := max 1 (lunPages e)
      Vendor s (.rawRead value index data raw) (n ≤ 127 ∧ index = 0 ∧ data.length = 8 ∧ leAt data 4 4 = 0 ∧ s.lunHealthy n = true ∧ row / pages < lunBlocks e ∧ s.dev.inService = true ∧
          2 ≤ s.roles.usb)
        (fun r => r = .next (sent (cut.queueOp { lun := n, kind := 7, block := row / pages, page := row % pages, cell := lunCell e, cls := 6 })
          (padTo (lunMain e + lunSpare e) raw))))

/-- R519, R526 to R529, R552 to R559, R565 to R568: the requests of the USB port with an effect of their own. CHALLENGE issues a challenge, unless a hold runs; RESPONSE grants or
is rejected; IMAGE_BEGIN opens a session; a chunk goes to the session's pool once it is admitted, by itself or as a unit of a stream;
IMAGE_COMMIT and IMAGE_CONFIRM do as on the ring; REBOOT restarts with a drain, into Bedrock for 1.
The choices of the model that it rests on: assumptions 50 and 62. -/
def Obligations.UsbRequests : Prop :=
  ∀ (s : State) (value index : BitVec 16) (data : Bytes) (copies : Copies),
    let u := s.unstreamed
    let v := value.toNat
    let stalled : Host.Outcome State Fault Refusal := .next { u with out := .usbStall :: u.out }
    let installer : Prop := 1 ≤ s.roles.usb
    let open_ (x : State) : Prop := x.dev.minimal = true ∨ x.openTo 6 = true ∧ x.unitsFit 6 1 = true ∧ x.energyFits 1 = true
    let plain : Prop := value = 0 ∧ index = 0 ∧ data = []
    (∀ len : BitVec 16, Vendor s (.challenge value index len) ((v = 1 ∨ v = 2) ∧ index = 0 ∧ len = 64) fun r =>
      (u.holdLeft 1 ≠ none → r = stalled) ∧
      (u.holdLeft 1 = none → Answers r fun t => ∃ x, Issued u 1 v x ∧ t = { x with out := .usb ((u.nextChallenge 1 v).take 64) :: x.out })) ∧
    Vendor s (.response value index data) (value = 0 ∧ index = 0 ∧ data.length = 48) (fun r =>
      (s.roles.chal.get? 1 = none → Answers r (Rejected u 1 (leAt data 4 1))) ∧
      ∀ k, s.roles.chal.get? 1 = some k → (u.responseOk 1 data = true → Answers r (Granted u 1 k)) ∧
        (u.responseOk 1 data = false → Answers r (Rejected (u.unchallenged 1) 1 k.role))) ∧
    Vendor s (.imageBegin value index data) (plain ∧ installer) (fun r => Answers r (Begun u 1)) ∧
    Vendor s (.imageChunk value index data) (v ≤ 1023 ∧ index = 0 ∧ data.length = 4096 ∧ installer) (fun r =>
      (∀ g, u.sessionOn 1 = some g → open_ u → u.poolRoom g = true → r = .next (u.putChunk g v data)) ∧
      (¬ (∃ g, u.sessionOn 1 = some g ∧ open_ u ∧ u.poolRoom g = true) → r = stalled)) ∧
    Vendor s (.imageStream value index data) (v ≤ 1023 ∧ 1 ≤ index.toNat ∧ index.toNat ≤ 1024 ∧ v + index.toNat ≤ 1024 ∧ data = [] ∧ installer) (fun r =>
      r = if u.sessionOn 1 = none then stalled else .next { u with usb := { u.usb with stream := some (v, index.toNat) } }) ∧
    (∀ chunk : BitVec 32768, let bytes := natLe 4096 chunk.toNat
      let carries : Prop := s.dieUp = true ∧ s.usb.attached = true ∧ s.usb.configured = true ∧ s.usb.halt1 = false ∧ installer
      (s.usb.stream = none ∨ ¬ carries → exec (.streamUnit chunk) s = .next s) ∧
      (carries → ∀ unit left, s.usb.stream = some (unit, left) → Answers (exec (.streamUnit chunk) s) fun t => ∃ x : State,
        (∀ g, s.sessionOn 1 = some g → open_ s → s.poolRoom g = true → x = s.putChunk g unit (bytes.take 4096)) ∧
        (¬ (∃ g, s.sessionOn 1 = some g ∧ open_ s ∧ s.poolRoom g = true) → x = s) ∧
        t = { x with usb := { x.usb with stream := if left ≤ 1 then none else some (unit + 1, left - 1) } })) ∧
    Vendor s (.usbImageCommit value index data copies) (value = 0 ∧ index = 0 ∧ data.length = 4 ∧ installer) (fun r =>
      let len := leAt data 0 4
      let ready (g : Nat) : Prop := u.sessionOn 1 = some g ∧ len ≤ (u.pool g).held ∧ imgTotal ((u.pool g).bytes len) = len
      (∀ g, ready g → Answers r (Committed u g len (u.copiesCode ((u.pool g).bytes len) copies) copies)) ∧ ((∀ g, ¬ ready g) → r = stalled)) ∧
    Vendor s (.usbImageConfirm value index data) (plain ∧ s.dev.inService = true ∧ installer) (fun r =>
      (u.onTrial = true → Answers r (Confirmed u)) ∧ (u.onTrial = false → r = stalled)) ∧
    Vendor s (.reboot value index data) (v ≤ 1 ∧ index = 0 ∧ data = [] ∧ installer) (fun r =>
      let x : State := { u with bas := { u.bas with toBedrock := decide (value = 1) } }
      (s.bas.freeze = true → r = .next x) ∧
      (s.bas.freeze = false → Answers r (Drains { x with bas := { x.bas with nextSrc := 3 } } .restart true)))

/-- A step takes the command at the front of the queue and runs it on the device with the queue's rest; on an empty queue the crystal
ticks once (the model's choice, assumption 2). The answer of the machine that the host runs is this step's. -/
def Obligations.StepTakesTheFrontCommand : Prop :=
  (∀ (c : Instr) (rest : List Instr) (s : State), s.pending = c :: rest → step s = exec c { s with pending := rest }) ∧
  (∀ s : State, s.pending = [] → step s = .next s.tick) ∧ Sys2Proof.core.step = step ∧ Sys2Proof.core.reset = State.reset

/-- The logic die right after it leaves reset: it is in ROM, where every start begins (06_start_reset_and_bedrock.md), every field of
every register holds the reset value of its table (the model's choice where a table gives none, assumption 3), VCORE_CODE 15
(02_time_without_a_clock.md) and MAX_SPEED, TIMEOUT_MS and CYC_WINDOW among them, and no write is staged; uptime is 0 (R483); every
path holds the operator role, no challenge is outstanding and no key is loaded (R519, R524); no ring and no channel is at work
(10_kenino_rings_and_mailbox.md); and Keystone alone runs, from address 0 with k1 to k15 and every flag at 0. The records, counts and
fuses of a new part are the model's choice (assumption 4): none. -/
def Obligations.ResetState : Prop :=
  let s := State.reset
  (s.pending = [] ∧ s.out = [] ∧ s.dev = .rom ∧ s.dieUp = true) ∧
  ((∀ f : Field, s.f f = f.reset) ∧ s.staged = []) ∧
  (s.f Reg.vcoreCode = 15 ∧ s.f Reg.maxSpeed = 4 ∧ s.f Reg.mbxTimeout = 100 ∧ s.f Reg.cycWindow = 1000) ∧
  (s.time.uptime = 0 ∧ s.time.calSet = false) ∧
  (s.roles.pcie = 0 ∧ s.roles.usb = 0 ∧ s.roles.jtag = false ∧ s.roles.keys = 0 ∧ s.roles.chal = []) ∧
  (∀ n, s.ring n = {}) ∧ (∀ n, s.chan n = {}) ∧
  (∀ e, s.engine e = { run := decide (e = 0) }) ∧
  (s.nv.amber = [] ∧ s.nv.scree = [] ∧ s.nv.floor = 0 ∧ s.nv.vols = [] ∧ s.nv.cairns = [])

/-- No command stops the machine, in any state: a step answers a next state, in which the command at the front is gone and the rest of
the queue waits as it did; so that `n` steps take the first `n` commands, and as many steps as there are commands empty the queue.
The choices of the model that it rests on: assumption 1. -/
def Obligations.EveryStepTakesOneCommand : Prop :=
  (∀ s : State, Answers (step s) fun t => t.pending = s.pending.tail) ∧
  (∀ (n : Nat) (s : State), Answers (Sys2Proof.core.run n s) fun t => t.pending = s.pending.drop n) ∧
  (∀ s : State, Answers (Sys2Proof.core.run s.pending.length s) fun t => t.pending = [])

/-- R550: the rollback floor is the count of consecutive fuses set from bit 0 of the 64-bit thermometer at calibration row offset 0x620,
a value from 0 to 64, and the device never clears a fuse: over every step, whatever the command, the floor does not fall, and where it
is at most 64 it stays so; so over every run.
The choices of the model that it rests on: assumption 50. -/
def Obligations.RollbackFloorNeverFalls : Prop :=
  (∀ (s : State) (i : Nat), s.nv.floor ≤ 64 → i < 64 → (leNat (s.calRow 0x620 8)).testBit i = decide (i < s.nv.floor)) ∧
  (∀ s t : State, step s = .next t → s.nv.floor ≤ t.nv.floor ∧ (s.nv.floor ≤ 64 → t.nv.floor ≤ 64)) ∧
  (∀ (n : Nat) (s t : State), Sys2Proof.core.run n s = .next t → s.nv.floor ≤ t.nv.floor ∧ (s.nv.floor ≤ 64 → t.nv.floor ≤ 64))

/-- R519, R521, R527: a path gains a role only by an answer to its challenge: over a step whose command is no RESPONSE (on a ring, on
the USB port, or a write of QKRESP), no path's role rises, on PCIe, USB or JTAG; nor over a run of steps none of whose commands is one.
The choices of the model that it rests on: assumption 1. -/
def Obligations.OnlyResponsesRaiseARole : Prop :=
  let under (s t : State) : Prop := t.roles.pcie ≤ s.roles.pcie ∧ t.roles.usb ≤ s.roles.usb ∧ (t.roles.jtag = true → s.roles.jtag = true)
  (∀ s t : State, (∀ c rest, s.pending = c :: rest → c.answersChallenge = false) → step s = .next t → under s t) ∧
  (∀ (n : Nat) (s t : State), (∀ c ∈ s.pending.take n, c.answersChallenge = false) → Sys2Proof.core.run n s = .next t → under s t)

/-- R511: no role, command or request clears or rewrites Amber: over every step, whatever the command, the records that Amber holds
stay as they are, in their order, and new ones come only behind them; so over every run.
The choices of the model that it rests on: assumption 1. -/
def Obligations.AmberKeepsItsRecords : Prop :=
  (∀ s t : State, step s = .next t → s.nv.amber <+: t.nv.amber) ∧
  (∀ (n : Nat) (s t : State), Sys2Proof.core.run n s = .next t → s.nv.amber <+: t.nv.amber)

/-- R136 to R173: the encoding of every Belion instruction and its reading agree. The word of a well-formed instruction reads back as
that instruction, with every operand at every value that its fields admit (`chk` and `bus` stand for what the word does not hold: the
check of the data read, the bytes that the bus returns, and `e` for the engine that fetches it). And a word that reads as an
instruction is that instruction's one word: no bit of it is passed over (R144).
The choices of the model that it rests on: assumption 17. -/
def Obligations.BelionWordsReadBack : Prop :=
  (∀ (i : Instr) (w : Word), i.wellFormed = true → belEncode i = some w → ∃ e chk bus, belDecode e chk bus w = some i) ∧
  (∀ (e : Fin 10) (chk : MemCheck) (bus : Bytes) (w : Word) (i : Instr), belDecode e chk bus w = some i → belEncode i = some w)

/-- The faults of Belion instructions. R145: an instruction executed on an engine kind not named in its Engines column raises a fault with
cause 2. A WAIT with neither mask nor limit raises cause 1; a misaligned access or jump target cause 3; an access outside the engine's
data space cause 4; a jump out of program memory cause 5 (R141, R147, R149, R150). A fault stops the engine before the instruction has
any effect, leaves the cause and the instruction's address, and records the engine's event with both and the word (R154, R155).
The choices of the model that it rests on: assumptions 15 and 17. -/
def Obligations.BelionFaults : Prop :=
  ∀ (s : State) (e : Fin 10) (kd ka kb : BitVec 4) (f : Bool) (imm : BitVec 16) (op : BitVec 12) (n : BitVec 3) (data : Bytes) (r : BitVec 8)
    (cond : BitVec 4) (off : BitVec 22) (chk : MemCheck), s.engineRuns e.val = true →
    let x := s.engine e.val
    let faults (c : Nat) (i : Instr) : Prop := ∃ w, belEncode i = some w ∧ Answers (exec i s) fun t => ∃ v,
      Logs (s.setEngine e.val { x with run := false, stepping := false, waiting := none, fault := true, cause := c, fpc := x.pc / 4 })
        (if e.val = 0 then 0x1050 else if e.val = 1 then 0xA010 else 0x3050)
        (if e.val = 0 then Src.keystone else if e.val = 1 then Src.hook else Src.channel (e.val - 2)) c x.pc e.val w.toNat v ∧
      (e.val = 0 → ∃ y, Counts v 0x0A y ∧ t = y.supervisorStopped) ∧
      (e.val = 1 → if v.hooks.busy then ∃ y, Counts v 0x53 y ∧ t = y.abandonHook else t = v) ∧
      (2 ≤ e.val → t = v.failChannel (e.val - 2))
    let a := (x.reg ka + imm.signExtend 32).toNat
    let b := (BitVec.ofNat 32 x.pc + (off.signExtend 32 <<< 2)).toNat
    (e.val ≠ 0 → faults 2 (.twr e kd ka kb) ∧ faults 2 (.tsync e kd ka f) ∧ faults 2 (.halt e kd ka op) ∧ faults 2 (.wdkick e) ∧
      faults 2 (.vload e kd ka op) ∧ faults 2 (.hload e kd ka op) ∧ faults 2 (.imgchk e kd ka op) ∧ faults 2 (.setstate e kd ka op)) ∧
    (2 ≤ e.val → faults 2 (.mbdb e ka) ∧ faults 2 (.mback e kd ka f) ∧ faults 2 (.mbrd e kd ka kb) ∧ faults 2 (.mbwr e kd ka kb) ∧
      faults 2 (.mbsend e kd ka f) ∧ faults 2 (.mbfree e ka) ∧ faults 2 (.mbstat e kd) ∧ faults 2 (.cfire e kd ka op) ∧
      faults 2 (.gpout e kd ka op) ∧ faults 2 (.gpin e kd ka op) ∧ faults 2 (.hlog e kd ka op)) ∧
    (e.val ≠ 1 → faults 2 (.hend e op)) ∧ (e.val = 1 → faults 2 (.tld e kd ka kb)) ∧
    (e.val < 2 → faults 2 (.cesel e ka op) ∧ faults 2 (.cmd e ka op) ∧ faults 2 (.addr e ka n) ∧ faults 2 (.dout e ka) ∧
      faults 2 (.din e ka op) ∧ faults 2 (.bres e kd ka) ∧ faults 2 (.doutm e ka op) ∧ faults 2 (.dinm e ka op data) ∧
      faults 2 (.rdb e kd r) ∧ faults 2 (.bdly e kd ka op) ∧ faults 2 (.wpset e kd ka op) ∧ faults 2 (.bmode e kd ka op) ∧
      faults 2 (.opget e kd ka op) ∧ faults 2 (.opdone e ka op)) ∧
    (x.reg ka = 0 → faults 1 (.wait e kd ka f 0)) ∧
    (a % 4 ≠ 0 → faults 3 (.ldw e kd ka imm chk) ∧ faults 3 (.stw e kd ka imm chk) ∧ faults 3 (.swp e kd ka imm chk) ∧
      faults 3 (.jr e ka imm) ∧ faults 3 (.jalr e kd ka imm)) ∧
    (a % 2 ≠ 0 → faults 3 (.ldh e kd ka imm chk) ∧ faults 3 (.sth e kd ka imm chk)) ∧
    (a % 4 = 0 → progSize e.val ≤ a → faults 5 (.jr e ka imm) ∧ faults 5 (.jalr e kd ka imm)) ∧
    (a % 4 = 0 → spaceOf e.val a = .outside → faults 4 (.ldw e kd ka imm chk) ∧ faults 4 (.stw e kd ka imm chk) ∧
      faults 4 (.swp e kd ka imm chk)) ∧
    (spaceOf e.val a = .outside → (a % 2 = 0 → faults 4 (.ldh e kd ka imm chk) ∧ faults 4 (.sth e kd ka imm chk)) ∧
      faults 4 (.ldb e kd ka imm chk) ∧ faults 4 (.stb e kd ka imm chk)) ∧
    (cond ≠ 15 → x.cond cond.toNat = true → b % 4 = 0 → progSize e.val ≤ b →
      faults 5 (.bCond e cond off) ∧ faults 5 (.callCond e cond off))
end

