-- ==== Sys2Proof/Laws/Exec.lean ====
section
/-! SUPPORT. Each command's meaning by name: one rewriting lemma for each arm of `exec`. -/

namespace Sys2Proof.Machine

@[simp] theorem exec_registerWrite p offset value size (s : State) : exec (.registerWrite p offset value size) s = execRegisterWrite p offset value size s :=
  rfl
@[simp] theorem exec_l64LowRead p which (s : State) : exec (.l64LowRead p which) s = execL64LowRead p which s :=
  rfl
@[simp] theorem exec_readClear p offset size (s : State) : exec (.readClear p offset size) s = execReadClear p offset size s :=
  rfl
@[simp] theorem exec_tableSync p table index (s : State) : exec (.tableSync p table index) s = execTableSync p table index s :=
  rfl
@[simp] theorem exec_tableSyncDone (s : State) : exec (.tableSyncDone) s = execTableSyncDone s :=
  rfl
@[simp] theorem exec_syncHoldTimeout (s : State) : exec (.syncHoldTimeout) s = execSyncHoldTimeout s :=
  rfl
@[simp] theorem exec_paceWindowEnd pace (s : State) : exec (.paceWindowEnd pace) s = execPaceWindowEnd pace s :=
  rfl
@[simp] theorem exec_vcoreStepAck code (s : State) : exec (.vcoreStepAck code) s = execVcoreStepAck code s :=
  rfl
@[simp] theorem exec_crystalLost (s : State) : exec (.crystalLost) s = execCrystalLost s :=
  rfl
@[simp] theorem exec_noCrystalTimeout (s : State) : exec (.noCrystalTimeout) s = execNoCrystalTimeout s :=
  rfl
@[simp] theorem exec_powerOn vin vres riset vccq18 latch (s : State) : exec (.powerOn vin vres riset vccq18 latch) s = execPowerOn vin vres riset vccq18 latch s :=
  rfl
@[simp] theorem exec_railsGood (s : State) : exec (.railsGood) s = execRailsGood s :=
  rfl
@[simp] theorem exec_logicDieResetRelease st rom (s : State) : exec (.logicDieResetRelease st rom) s = execLogicDieResetRelease st rom s :=
  rfl
@[simp] theorem exec_railFault r (s : State) : exec (.railFault r) s = execRailFault r s :=
  rfl
@[simp] theorem exec_vinOvervoltage peakMv durationUs (s : State) : exec (.vinOvervoltage peakMv durationUs) s = execVinOvervoltage peakMv durationUs s :=
  rfl
@[simp] theorem exec_inputStageOff (s : State) : exec (.inputStageOff) s = execInputStageOff s :=
  rfl
@[simp] theorem exec_measurementDue (s : State) : exec (.measurementDue) s = execMeasurementDue s :=
  rfl
@[simp] theorem exec_pwrMeasNow (s : State) : exec (.pwrMeasNow) s = execPwrMeasNow s :=
  rfl
@[simp] theorem exec_vresSetStaged p value (s : State) : exec (.vresSetStaged p value) s = execVresSetStaged p value s :=
  rfl
@[simp] theorem exec_measurementBegin (s : State) : exec (.measurementBegin) s = execMeasurementBegin s :=
  rfl
@[simp] theorem exec_dipBasisReached (s : State) : exec (.dipBasisReached) s = execDipBasisReached s :=
  rfl
@[simp] theorem exec_measurementAbandoned (s : State) : exec (.measurementAbandoned) s = execMeasurementAbandoned s :=
  rfl
@[simp] theorem exec_reservoirFallTimed ticks esr (s : State) : exec (.reservoirFallTimed ticks esr) s = execReservoirFallTimed ticks esr s :=
  rfl
@[simp] theorem exec_reservoirChargeTimeout (s : State) : exec (.reservoirChargeTimeout) s = execReservoirChargeTimeout s :=
  rfl
@[simp] theorem exec_vresSample vres vin (s : State) : exec (.vresSample vres vin) s = execVresSample vres vin s :=
  rfl
@[simp] theorem exec_vresLow (s : State) : exec (.vresLow) s = execVresLow s :=
  rfl
@[simp] theorem exec_junctionSensorRead t (s : State) : exec (.junctionSensorRead t) s = execJunctionSensorRead t s :=
  rfl
@[simp] theorem exec_supplyCollapse vin (s : State) : exec (.supplyCollapse vin) s = execSupplyCollapse vin s :=
  rfl
@[simp] theorem exec_pfwChannelChange ch on (s : State) : exec (.pfwChannelChange ch on) s = execPfwChannelChange ch on s :=
  rfl
@[simp] theorem exec_pfwDiscrepancyExpiry (s : State) : exec (.pfwDiscrepancyExpiry) s = execPfwDiscrepancyExpiry s :=
  rfl
@[simp] theorem exec_pfwRearm (s : State) : exec (.pfwRearm) s = execPfwRearm s :=
  rfl
@[simp] theorem exec_drainStepDone work (s : State) : exec (.drainStepDone work) s = execDrainStepDone work s :=
  rfl
@[simp] theorem exec_drainCutShort reached (s : State) : exec (.drainCutShort reached) s = execDrainCutShort reached s :=
  rfl
@[simp] theorem exec_safeRestart (s : State) : exec (.safeRestart) s = execSafeRestart s :=
  rfl
@[simp] theorem exec_resetNAccepted (s : State) : exec (.resetNAccepted) s = execResetNAccepted s :=
  rfl
@[simp] theorem exec_resetNRelease (s : State) : exec (.resetNRelease) s = execResetNRelease s :=
  rfl
@[simp] theorem exec_restartRequest p (s : State) : exec (.restartRequest p) s = execRestartRequest p s :=
  rfl
@[simp] theorem exec_startTimeout (s : State) : exec (.startTimeout) s = execStartTimeout s :=
  rfl
@[simp] theorem exec_watchdogExpiry (s : State) : exec (.watchdogExpiry) s = execWatchdogExpiry s :=
  rfl
@[simp] theorem exec_watchdogHalf (s : State) : exec (.watchdogHalf) s = execWatchdogHalf s :=
  rfl
@[simp] theorem exec_failedCountClear (s : State) : exec (.failedCountClear) s = execFailedCountClear s :=
  rfl
@[simp] theorem exec_glbStartWrite p value (s : State) : exec (.glbStartWrite p value) s = execGlbStartWrite p value s :=
  rfl
@[simp] theorem exec_bootLunTimeout (s : State) : exec (.bootLunTimeout) s = execBootLunTimeout s :=
  rfl
@[simp] theorem exec_configRetryLimit (s : State) : exec (.configRetryLimit) s = execConfigRetryLimit s :=
  rfl
@[simp] theorem exec_jtagInstruction i (s : State) : exec (.jtagInstruction i) s = execJtagInstruction i s :=
  rfl
@[simp] theorem exec_add e kd ka kb f (s : State) : exec (.add e kd ka kb f) s = execAdd e kd ka kb f s :=
  rfl
@[simp] theorem exec_adc e kd ka kb f (s : State) : exec (.adc e kd ka kb f) s = execAdc e kd ka kb f s :=
  rfl
@[simp] theorem exec_sub e kd ka kb f (s : State) : exec (.sub e kd ka kb f) s = execSub e kd ka kb f s :=
  rfl
@[simp] theorem exec_sbc e kd ka kb f (s : State) : exec (.sbc e kd ka kb f) s = execSbc e kd ka kb f s :=
  rfl
@[simp] theorem exec_and e kd ka kb f (s : State) : exec (.and e kd ka kb f) s = execAnd e kd ka kb f s :=
  rfl
@[simp] theorem exec_or e kd ka kb f (s : State) : exec (.or e kd ka kb f) s = execOr e kd ka kb f s :=
  rfl
@[simp] theorem exec_xor e kd ka kb f (s : State) : exec (.xor e kd ka kb f) s = execXor e kd ka kb f s :=
  rfl
@[simp] theorem exec_andn e kd ka kb f (s : State) : exec (.andn e kd ka kb f) s = execAndn e kd ka kb f s :=
  rfl
@[simp] theorem exec_shl e kd ka kb f (s : State) : exec (.shl e kd ka kb f) s = execShl e kd ka kb f s :=
  rfl
@[simp] theorem exec_shr e kd ka kb f (s : State) : exec (.shr e kd ka kb f) s = execShr e kd ka kb f s :=
  rfl
@[simp] theorem exec_sar e kd ka kb f (s : State) : exec (.sar e kd ka kb f) s = execSar e kd ka kb f s :=
  rfl
@[simp] theorem exec_ror e kd ka kb f (s : State) : exec (.ror e kd ka kb f) s = execRor e kd ka kb f s :=
  rfl
@[simp] theorem exec_mul e kd ka kb f (s : State) : exec (.mul e kd ka kb f) s = execMul e kd ka kb f s :=
  rfl
@[simp] theorem exec_mulhu e kd ka kb f (s : State) : exec (.mulhu e kd ka kb f) s = execMulhu e kd ka kb f s :=
  rfl
@[simp] theorem exec_minu e kd ka kb f (s : State) : exec (.minu e kd ka kb f) s = execMinu e kd ka kb f s :=
  rfl
@[simp] theorem exec_maxu e kd ka kb f (s : State) : exec (.maxu e kd ka kb f) s = execMaxu e kd ka kb f s :=
  rfl
@[simp] theorem exec_cmp e ka kb f (s : State) : exec (.cmp e ka kb f) s = execCmp e ka kb f s :=
  rfl
@[simp] theorem exec_tst e ka kb f (s : State) : exec (.tst e ka kb f) s = execTst e ka kb f s :=
  rfl
@[simp] theorem exec_clz e kd ka f (s : State) : exec (.clz e kd ka f) s = execClz e kd ka f s :=
  rfl
@[simp] theorem exec_popc e kd ka f (s : State) : exec (.popc e kd ka f) s = execPopc e kd ka f s :=
  rfl
@[simp] theorem exec_bswap e kd ka f (s : State) : exec (.bswap e kd ka f) s = execBswap e kd ka f s :=
  rfl
@[simp] theorem exec_crcw e kd ka kb f (s : State) : exec (.crcw e kd ka kb f) s = execCrcw e kd ka kb f s :=
  rfl
@[simp] theorem exec_addi e kd ka f imm (s : State) : exec (.addi e kd ka f imm) s = execAddi e kd ka f imm s :=
  rfl
@[simp] theorem exec_andi e kd ka f imm (s : State) : exec (.andi e kd ka f imm) s = execAndi e kd ka f imm s :=
  rfl
@[simp] theorem exec_ori e kd ka f imm (s : State) : exec (.ori e kd ka f imm) s = execOri e kd ka f imm s :=
  rfl
@[simp] theorem exec_xori e kd ka f imm (s : State) : exec (.xori e kd ka f imm) s = execXori e kd ka f imm s :=
  rfl
@[simp] theorem exec_cmpi e ka f imm (s : State) : exec (.cmpi e ka f imm) s = execCmpi e ka f imm s :=
  rfl
@[simp] theorem exec_shli e kd ka f n (s : State) : exec (.shli e kd ka f n) s = execShli e kd ka f n s :=
  rfl
@[simp] theorem exec_shri e kd ka f n (s : State) : exec (.shri e kd ka f n) s = execShri e kd ka f n s :=
  rfl
@[simp] theorem exec_sari e kd ka f n (s : State) : exec (.sari e kd ka f n) s = execSari e kd ka f n s :=
  rfl
@[simp] theorem exec_lui e kd imm (s : State) : exec (.lui e kd imm) s = execLui e kd imm s :=
  rfl
@[simp] theorem exec_ldw e kd ka imm chk (s : State) : exec (.ldw e kd ka imm chk) s = execLdw e kd ka imm chk s :=
  rfl
@[simp] theorem exec_ldh e kd ka imm chk (s : State) : exec (.ldh e kd ka imm chk) s = execLdh e kd ka imm chk s :=
  rfl
@[simp] theorem exec_ldb e kd ka imm chk (s : State) : exec (.ldb e kd ka imm chk) s = execLdb e kd ka imm chk s :=
  rfl
@[simp] theorem exec_stw e kd ka imm chk (s : State) : exec (.stw e kd ka imm chk) s = execStw e kd ka imm chk s :=
  rfl
@[simp] theorem exec_sth e kd ka imm chk (s : State) : exec (.sth e kd ka imm chk) s = execSth e kd ka imm chk s :=
  rfl
@[simp] theorem exec_stb e kd ka imm chk (s : State) : exec (.stb e kd ka imm chk) s = execStb e kd ka imm chk s :=
  rfl
@[simp] theorem exec_swp e kd ka imm chk (s : State) : exec (.swp e kd ka imm chk) s = execSwp e kd ka imm chk s :=
  rfl
@[simp] theorem exec_bCond e cond off (s : State) : exec (.bCond e cond off) s = execBCond e cond off s :=
  rfl
@[simp] theorem exec_callCond e cond off (s : State) : exec (.callCond e cond off) s = execCallCond e cond off s :=
  rfl
@[simp] theorem exec_jr e ka imm (s : State) : exec (.jr e ka imm) s = execJr e ka imm s :=
  rfl
@[simp] theorem exec_jalr e kd ka imm (s : State) : exec (.jalr e kd ka imm) s = execJalr e kd ka imm s :=
  rfl
@[simp] theorem exec_wait e kd ka f mask (s : State) : exec (.wait e kd ka f mask) s = execWait e kd ka f mask s :=
  rfl
@[simp] theorem exec_waitEnd e expired (s : State) : exec (.waitEnd e expired) s = execWaitEnd e expired s :=
  rfl
@[simp] theorem exec_sev e hi (s : State) : exec (.sev e hi) s = execSev e hi s :=
  rfl
@[simp] theorem exec_eclr e kd imm (s : State) : exec (.eclr e kd imm) s = execEclr e kd imm s :=
  rfl
@[simp] theorem exec_eget e kd imm (s : State) : exec (.eget e kd imm) s = execEget e kd imm s :=
  rfl
@[simp] theorem exec_mbdb e ka (s : State) : exec (.mbdb e ka) s = execMbdb e ka s :=
  rfl
@[simp] theorem exec_mback e kd ka f (s : State) : exec (.mback e kd ka f) s = execMback e kd ka f s :=
  rfl
@[simp] theorem exec_mbrd e kd ka kb (s : State) : exec (.mbrd e kd ka kb) s = execMbrd e kd ka kb s :=
  rfl
@[simp] theorem exec_mbwr e kd ka kb (s : State) : exec (.mbwr e kd ka kb) s = execMbwr e kd ka kb s :=
  rfl
@[simp] theorem exec_mbsend e kd ka f (s : State) : exec (.mbsend e kd ka f) s = execMbsend e kd ka f s :=
  rfl
@[simp] theorem exec_mbfree e ka (s : State) : exec (.mbfree e ka) s = execMbfree e ka s :=
  rfl
@[simp] theorem exec_mbstat e kd (s : State) : exec (.mbstat e kd) s = execMbstat e kd s :=
  rfl
@[simp] theorem exec_tld e kd ka kb (s : State) : exec (.tld e kd ka kb) s = execTld e kd ka kb s :=
  rfl
@[simp] theorem exec_twr e kd ka kb (s : State) : exec (.twr e kd ka kb) s = execTwr e kd ka kb s :=
  rfl
@[simp] theorem exec_tsync e kd ka f (s : State) : exec (.tsync e kd ka f) s = execTsync e kd ka f s :=
  rfl
@[simp] theorem exec_timel e kd ka kb (s : State) : exec (.timel e kd ka kb) s = execTimel e kd ka kb s :=
  rfl
@[simp] theorem exec_timeh e kd ka kb (s : State) : exec (.timeh e kd ka kb) s = execTimeh e kd ka kb s :=
  rfl
@[simp] theorem exec_clkl e kd ka kb (s : State) : exec (.clkl e kd ka kb) s = execClkl e kd ka kb s :=
  rfl
@[simp] theorem exec_clkh e kd ka kb (s : State) : exec (.clkh e kd ka kb) s = execClkh e kd ka kb s :=
  rfl
@[simp] theorem exec_nop e (s : State) : exec (.nop e) s = execNop e s :=
  rfl
@[simp] theorem exec_fence e kd ka kb (s : State) : exec (.fence e kd ka kb) s = execFence e kd ka kb s :=
  rfl
@[simp] theorem exec_cesel e ka operand (s : State) : exec (.cesel e ka operand) s = execCesel e ka operand s :=
  rfl
@[simp] theorem exec_cmd e ka operand (s : State) : exec (.cmd e ka operand) s = execCmd e ka operand s :=
  rfl
@[simp] theorem exec_addr e ka n (s : State) : exec (.addr e ka n) s = execAddr e ka n s :=
  rfl
@[simp] theorem exec_dout e ka (s : State) : exec (.dout e ka) s = execDout e ka s :=
  rfl
@[simp] theorem exec_din e ka operand (s : State) : exec (.din e ka operand) s = execDin e ka operand s :=
  rfl
@[simp] theorem exec_busTransferEnd ch result iface (s : State) : exec (.busTransferEnd ch result iface) s = execBusTransferEnd ch result iface s :=
  rfl
@[simp] theorem exec_bres e kd ka (s : State) : exec (.bres e kd ka) s = execBres e kd ka s :=
  rfl
@[simp] theorem exec_doutm e ka operand (s : State) : exec (.doutm e ka operand) s = execDoutm e ka operand s :=
  rfl
@[simp] theorem exec_dinm e ka operand data (s : State) : exec (.dinm e ka operand data) s = execDinm e ka operand data s :=
  rfl
@[simp] theorem exec_rdb e kd byte (s : State) : exec (.rdb e kd byte) s = execRdb e kd byte s :=
  rfl
@[simp] theorem exec_bdly e kd ka operand (s : State) : exec (.bdly e kd ka operand) s = execBdly e kd ka operand s :=
  rfl
@[simp] theorem exec_wpset e kd ka operand (s : State) : exec (.wpset e kd ka operand) s = execWpset e kd ka operand s :=
  rfl
@[simp] theorem exec_bmode e kd ka operand (s : State) : exec (.bmode e kd ka operand) s = execBmode e kd ka operand s :=
  rfl
@[simp] theorem exec_opget e kd ka operand (s : State) : exec (.opget e kd ka operand) s = execOpget e kd ka operand s :=
  rfl
@[simp] theorem exec_opdone e ka operand (s : State) : exec (.opdone e ka operand) s = execOpdone e ka operand s :=
  rfl
@[simp] theorem exec_veinReportTimeout ch (s : State) : exec (.veinReportTimeout ch) s = execVeinReportTimeout ch s :=
  rfl
@[simp] theorem exec_halt e kd ka operand (s : State) : exec (.halt e kd ka operand) s = execHalt e kd ka operand s :=
  rfl
@[simp] theorem exec_wdkick e (s : State) : exec (.wdkick e) s = execWdkick e s :=
  rfl
@[simp] theorem exec_vload e kd ka operand (s : State) : exec (.vload e kd ka operand) s = execVload e kd ka operand s :=
  rfl
@[simp] theorem exec_hload e kd ka operand (s : State) : exec (.hload e kd ka operand) s = execHload e kd ka operand s :=
  rfl
@[simp] theorem exec_imgchk e kd ka operand (s : State) : exec (.imgchk e kd ka operand) s = execImgchk e kd ka operand s :=
  rfl
@[simp] theorem exec_setstate e kd ka operand (s : State) : exec (.setstate e kd ka operand) s = execSetstate e kd ka operand s :=
  rfl
@[simp] theorem exec_hend e operand (s : State) : exec (.hend e operand) s = execHend e operand s :=
  rfl
@[simp] theorem exec_cfire e kd ka operand (s : State) : exec (.cfire e kd ka operand) s = execCfire e kd ka operand s :=
  rfl
@[simp] theorem exec_gpout e kd ka operand (s : State) : exec (.gpout e kd ka operand) s = execGpout e kd ka operand s :=
  rfl
@[simp] theorem exec_gpin e kd ka operand (s : State) : exec (.gpin e kd ka operand) s = execGpin e kd ka operand s :=
  rfl
@[simp] theorem exec_hlog e kd ka operand (s : State) : exec (.hlog e kd ka operand) s = execHlog e kd ka operand s :=
  rfl
@[simp] theorem exec_hookTrigger entry (s : State) : exec (.hookTrigger entry) s = execHookTrigger entry s :=
  rfl
@[simp] theorem exec_hookStart (s : State) : exec (.hookStart) s = execHookStart s :=
  rfl
@[simp] theorem exec_hookBudgetWarning (s : State) : exec (.hookBudgetWarning) s = execHookBudgetWarning s :=
  rfl
@[simp] theorem exec_hookBudgetExpiry (s : State) : exec (.hookBudgetExpiry) s = execHookBudgetExpiry s :=
  rfl
@[simp] theorem exec_debugStop p eng (s : State) : exec (.debugStop p eng) s = execDebugStop p eng s :=
  rfl
@[simp] theorem exec_debugStep p eng stop chk bus (s : State) : exec (.debugStep p eng stop chk bus) s = execDebugStep p eng stop chk bus s :=
  rfl
@[simp] theorem exec_perstAssert (s : State) : exec (.perstAssert) s = execPerstAssert s :=
  rfl
@[simp] theorem exec_perstDeassert (s : State) : exec (.perstDeassert) s = execPerstDeassert s :=
  rfl
@[simp] theorem exec_hotReset (s : State) : exec (.hotReset) s = execHotReset s :=
  rfl
@[simp] theorem exec_functionLevelReset (s : State) : exec (.functionLevelReset) s = execFunctionLevelReset s :=
  rfl
@[simp] theorem exec_busMasterEnableClear (s : State) : exec (.busMasterEnableClear) s = execBusMasterEnableClear s :=
  rfl
@[simp] theorem exec_d3hotEntry (s : State) : exec (.d3hotEntry) s = execD3hotEntry s :=
  rfl
@[simp] theorem exec_d0Return (s : State) : exec (.d0Return) s = execD0Return s :=
  rfl
@[simp] theorem exec_msixUnmask v (s : State) : exec (.msixUnmask v) s = execMsixUnmask v s :=
  rfl
@[simp] theorem exec_pcieErrorReceived e (s : State) : exec (.pcieErrorReceived e) s = execPcieErrorReceived e s :=
  rfl
@[simp] theorem exec_hostReadCompletion k n tag off e (s : State) : exec (.hostReadCompletion k n tag off e) s = execHostReadCompletion k n tag off e s :=
  rfl
@[simp] theorem exec_completionTimeout k n tag off (s : State) : exec (.completionTimeout k n tag off) s = execCompletionTimeout k n tag off s :=
  rfl
@[simp] theorem exec_linkRetrain (s : State) : exec (.linkRetrain) s = execLinkRetrain s :=
  rfl
@[simp] theorem exec_aspmL1Request (s : State) : exec (.aspmL1Request) s = execAspmL1Request s :=
  rfl
@[simp] theorem exec_ringEnable n (s : State) : exec (.ringEnable n) s = execRingEnable n s :=
  rfl
@[simp] theorem exec_ringDisable n (s : State) : exec (.ringDisable n) s = execRingDisable n s :=
  rfl
@[simp] theorem exec_dbTail n v (s : State) : exec (.dbTail n v) s = execDbTail n v s :=
  rfl
@[simp] theorem exec_dbBare n (s : State) : exec (.dbBare n) s = execDbBare n s :=
  rfl
@[simp] theorem exec_dbCqh n v (s : State) : exec (.dbCqh n v) s = execDbCqh n v s :=
  rfl
@[simp] theorem exec_pushWindowWrite n off data (s : State) : exec (.pushWindowWrite n off data) s = execPushWindowWrite n off data s :=
  rfl
@[simp] theorem exec_chainTimeout n (s : State) : exec (.chainTimeout n) s = execChainTimeout n s :=
  rfl
@[simp] theorem exec_moderationTimeout n (s : State) : exec (.moderationTimeout n) s = execModerationTimeout n s :=
  rfl
@[simp] theorem exec_mbxH2dSet b (s : State) : exec (.mbxH2dSet b) s = execMbxH2dSet b s :=
  rfl
@[simp] theorem exec_mbxD2hClear b (s : State) : exec (.mbxD2hClear b) s = execMbxD2hClear b s :=
  rfl
@[simp] theorem exec_h2dSlotWrite slot off data (s : State) : exec (.h2dSlotWrite slot off data) s = execH2dSlotWrite slot off data s :=
  rfl
@[simp] theorem exec_h2dPost set (s : State) : exec (.h2dPost set) s = execH2dPost set s :=
  rfl
@[simp] theorem exec_d2hFree set (s : State) : exec (.d2hFree set) s = execD2hFree set s :=
  rfl
@[simp] theorem exec_mailboxSlotTimeout toHost slot (s : State) : exec (.mailboxSlotTimeout toHost slot) s = execMailboxSlotTimeout toHost slot s :=
  rfl
@[simp] theorem exec_read n tag x media (s : State) : exec (.read n tag x media) s = execRead n tag x media s :=
  rfl
@[simp] theorem exec_write n tag x (s : State) : exec (.write n tag x) s = execWrite n tag x s :=
  rfl
@[simp] theorem exec_writeAtomic n tag x (s : State) : exec (.writeAtomic n tag x) s = execWriteAtomic n tag x s :=
  rfl
@[simp] theorem exec_append n tag x (s : State) : exec (.append n tag x) s = execAppend n tag x s :=
  rfl
@[simp] theorem exec_flush n tag (s : State) : exec (.flush n tag) s = execFlush n tag s :=
  rfl
@[simp] theorem exec_trim n tag (s : State) : exec (.trim n tag) s = execTrim n tag s :=
  rfl
@[simp] theorem exec_sealStream n tag (s : State) : exec (.sealStream n tag) s = execSealStream n tag s :=
  rfl
@[simp] theorem exec_readStream n tag x media (s : State) : exec (.readStream n tag x media) s = execReadStream n tag x media s :=
  rfl
@[simp] theorem exec_pinBySequence n tag (s : State) : exec (.pinBySequence n tag) s = execPinBySequence n tag s :=
  rfl
@[simp] theorem exec_pinByTime n tag (s : State) : exec (.pinByTime n tag) s = execPinByTime n tag s :=
  rfl
@[simp] theorem exec_pinRelease n tag (s : State) : exec (.pinRelease n tag) s = execPinRelease n tag s :=
  rfl
@[simp] theorem exec_budgetWindowEnd (s : State) : exec (.budgetWindowEnd) s = execBudgetWindowEnd s :=
  rfl
@[simp] theorem exec_identify n tag x (s : State) : exec (.identify n tag x) s = execIdentify n tag x s :=
  rfl
@[simp] theorem exec_volumeCreate n tag (s : State) : exec (.volumeCreate n tag) s = execVolumeCreate n tag s :=
  rfl
@[simp] theorem exec_volumeDelete n tag (s : State) : exec (.volumeDelete n tag) s = execVolumeDelete n tag s :=
  rfl
@[simp] theorem exec_volumeQuery n tag x (s : State) : exec (.volumeQuery n tag x) s = execVolumeQuery n tag x s :=
  rfl
@[simp] theorem exec_logRead n tag gone x (s : State) : exec (.logRead n tag gone x) s = execLogRead n tag gone x s :=
  rfl
@[simp] theorem exec_imageWrite n tag x (s : State) : exec (.imageWrite n tag x) s = execImageWrite n tag x s :=
  rfl
@[simp] theorem exec_imageCommit n tag copies (s : State) : exec (.imageCommit n tag copies) s = execImageCommit n tag copies s :=
  rfl
@[simp] theorem exec_imageConfirm n tag (s : State) : exec (.imageConfirm n tag) s = execImageConfirm n tag s :=
  rfl
@[simp] theorem exec_selfTestShort n tag (s : State) : exec (.selfTestShort n tag) s = execSelfTestShort n tag s :=
  rfl
@[simp] theorem exec_selfTestExtended n tag (s : State) : exec (.selfTestExtended n tag) s = execSelfTestExtended n tag s :=
  rfl
@[simp] theorem exec_selfTestStop n tag (s : State) : exec (.selfTestStop n tag) s = execSelfTestStop n tag s :=
  rfl
@[simp] theorem exec_selfTestPieceDone p (s : State) : exec (.selfTestPieceDone p) s = execSelfTestPieceDone p s :=
  rfl
@[simp] theorem exec_selfTestStarved (s : State) : exec (.selfTestStarved) s = execSelfTestStarved s :=
  rfl
@[simp] theorem exec_roleChallenge n tag x (s : State) : exec (.roleChallenge n tag x) s = execRoleChallenge n tag x s :=
  rfl
@[simp] theorem exec_roleResponse n tag x (s : State) : exec (.roleResponse n tag x) s = execRoleResponse n tag x s :=
  rfl
@[simp] theorem exec_roleDrop n tag (s : State) : exec (.roleDrop n tag) s = execRoleDrop n tag s :=
  rfl
@[simp] theorem exec_protect n tag x (s : State) : exec (.protect n tag x) s = execProtect n tag x s :=
  rfl
@[simp] theorem exec_load n tag x (s : State) : exec (.load n tag x) s = execLoad n tag x s :=
  rfl
@[simp] theorem exec_unload n tag (s : State) : exec (.unload n tag) s = execUnload n tag s :=
  rfl
@[simp] theorem exec_setConnKey n tag x (s : State) : exec (.setConnKey n tag x) s = execSetConnKey n tag x s :=
  rfl
@[simp] theorem exec_clearConnKey n tag (s : State) : exec (.clearConnKey n tag) s = execClearConnKey n tag s :=
  rfl
@[simp] theorem exec_setInstaller n tag x (s : State) : exec (.setInstaller n tag x) s = execSetInstaller n tag x s :=
  rfl
@[simp] theorem exec_status n tag x (s : State) : exec (.status n tag x) s = execStatus n tag x s :=
  rfl
@[simp] theorem exec_entropyGet n tag x (s : State) : exec (.entropyGet n tag x) s = execEntropyGet n tag x s :=
  rfl
@[simp] theorem exec_cairnPost n tag x (s : State) : exec (.cairnPost n tag x) s = execCairnPost n tag x s :=
  rfl
@[simp] theorem exec_cairnCancel n tag (s : State) : exec (.cairnCancel n tag) s = execCairnCancel n tag s :=
  rfl
@[simp] theorem exec_clockSet n tag (s : State) : exec (.clockSet n tag) s = execClockSet n tag s :=
  rfl
@[simp] theorem exec_bootSlotSwitch n tag (s : State) : exec (.bootSlotSwitch n tag) s = execBootSlotSwitch n tag s :=
  rfl
@[simp] theorem exec_hookLoad n tag x (s : State) : exec (.hookLoad n tag x) s = execHookLoad n tag x s :=
  rfl
@[simp] theorem exec_sanitizeCryptoErase n tag ends (s : State) : exec (.sanitizeCryptoErase n tag ends) s = execSanitizeCryptoErase n tag ends s :=
  rfl
@[simp] theorem exec_sanitizeBlockErase n tag ends (s : State) : exec (.sanitizeBlockErase n tag ends) s = execSanitizeBlockErase n tag ends s :=
  rfl
@[simp] theorem exec_abort n tag (s : State) : exec (.abort n tag) s = execAbort n tag s :=
  rfl
@[simp] theorem exec_configWrite n tag x (s : State) : exec (.configWrite n tag x) s = execConfigWrite n tag x s :=
  rfl
@[simp] theorem exec_configRead n tag x (s : State) : exec (.configRead n tag x) s = execConfigRead n tag x s :=
  rfl
@[simp] theorem exec_lossReport n tag x (s : State) : exec (.lossReport n tag x) s = execLossReport n tag x s :=
  rfl
@[simp] theorem exec_descriptorTimeout n tag off (s : State) : exec (.descriptorTimeout n tag off) s = execDescriptorTimeout n tag off s :=
  rfl
@[simp] theorem exec_descriptorEnd n tag off (s : State) : exec (.descriptorEnd n tag off) s = execDescriptorEnd n tag off s :=
  rfl
@[simp] theorem exec_channelResume n (s : State) : exec (.channelResume n) s = execChannelResume n s :=
  rfl
@[simp] theorem exec_allocHoldExpiry n tag (s : State) : exec (.allocHoldExpiry n tag) s = execAllocHoldExpiry n tag s :=
  rfl
@[simp] theorem exec_journalPageTimer (s : State) : exec (.journalPageTimer) s = execJournalPageTimer s :=
  rfl
@[simp] theorem exec_journalPageVerified (s : State) : exec (.journalPageVerified) s = execJournalPageVerified s :=
  rfl
@[simp] theorem exec_checkpointComplete (s : State) : exec (.checkpointComplete) s = execCheckpointComplete s :=
  rfl
@[simp] theorem exec_openPageClose lun block page landing (s : State) : exec (.openPageClose lun block page landing) s = execOpenPageClose lun block page landing s :=
  rfl
@[simp] theorem exec_optimeSave (s : State) : exec (.optimeSave) s = execOptimeSave s :=
  rfl
@[simp] theorem exec_pacingWindow lun busy (s : State) : exec (.pacingWindow lun busy) s = execPacingWindow lun busy s :=
  rfl
@[simp] theorem exec_floorModeTimeout lun (s : State) : exec (.floorModeTimeout lun) s = execFloorModeTimeout lun s :=
  rfl
@[simp] theorem exec_wearCheck (s : State) : exec (.wearCheck) s = execWearCheck s :=
  rfl
@[simp] theorem exec_retentionStep (s : State) : exec (.retentionStep) s = execRetentionStep s :=
  rfl
@[simp] theorem exec_suspendRequest ch (s : State) : exec (.suspendRequest ch) s = execSuspendRequest ch s :=
  rfl
@[simp] theorem exec_resumeDeadline lun (s : State) : exec (.resumeDeadline lun) s = execResumeDeadline lun s :=
  rfl
@[simp] theorem exec_lunResetTimeout lun (s : State) : exec (.lunResetTimeout lun) s = execLunResetTimeout lun s :=
  rfl
@[simp] theorem exec_dramEnable p found (s : State) : exec (.dramEnable p found) s = execDramEnable p found s :=
  rfl
@[simp] theorem exec_refreshInterval rank idle (s : State) : exec (.refreshInterval rank idle) s = execRefreshInterval rank idle s :=
  rfl
@[simp] theorem exec_refreshWindowStart (s : State) : exec (.refreshWindowStart) s = execRefreshWindowStart s :=
  rfl
@[simp] theorem exec_dramParityAlert (s : State) : exec (.dramParityAlert) s = execDramParityAlert s :=
  rfl
@[simp] theorem exec_alertTimeout (s : State) : exec (.alertTimeout) s = execAlertTimeout s :=
  rfl
@[simp] theorem exec_scrubPass facts (s : State) : exec (.scrubPass facts) s = execScrubPass facts s :=
  rfl
@[simp] theorem exec_portLinkUp p kx fec (s : State) : exec (.portLinkUp p kx fec) s = execPortLinkUp p kx fec s :=
  rfl
@[simp] theorem exec_portLinkDown p (s : State) : exec (.portLinkDown p) s = execPortLinkDown p s :=
  rfl
@[simp] theorem exec_portEnable path p on (s : State) : exec (.portEnable path p on) s = execPortEnable path p on s :=
  rfl
@[simp] theorem exec_ilideAppend p frame a (s : State) : exec (.ilideAppend p frame a) s = execIlideAppend p frame a s :=
  rfl
@[simp] theorem exec_readReq p frame a media (s : State) : exec (.readReq p frame a media) s = execReadReq p frame a media s :=
  rfl
@[simp] theorem exec_send p frame a (s : State) : exec (.send p frame a) s = execSend p frame a s :=
  rfl
@[simp] theorem exec_ack p frame a (s : State) : exec (.ack p frame a) s = execAck p frame a s :=
  rfl
@[simp] theorem exec_nak p frame a (s : State) : exec (.nak p frame a) s = execNak p frame a s :=
  rfl
@[simp] theorem exec_hello p frame a (s : State) : exec (.hello p frame a) s = execHello p frame a s :=
  rfl
@[simp] theorem exec_pfcFrame p set quanta (s : State) : exec (.pfcFrame p set quanta) s = execPfcFrame p set quanta s :=
  rfl
@[simp] theorem exec_retransmitTimeout c (s : State) : exec (.retransmitTimeout c) s = execRetransmitTimeout c s :=
  rfl
@[simp] theorem exec_assemblyTimeout c (s : State) : exec (.assemblyTimeout c) s = execAssemblyTimeout c s :=
  rfl
@[simp] theorem exec_keepaliveSend c (s : State) : exec (.keepaliveSend c) s = execKeepaliveSend c s :=
  rfl
@[simp] theorem exec_partnerSilence c (s : State) : exec (.partnerSilence c) s = execPartnerSilence c s :=
  rfl
@[simp] theorem exec_helloRetry c (s : State) : exec (.helloRetry c) s = execHelloRetry c s :=
  rfl
@[simp] theorem exec_connectionBoundary c forced (s : State) : exec (.connectionBoundary c forced) s = execConnectionBoundary c forced s :=
  rfl
@[simp] theorem exec_pauseWatchdog p prio (s : State) : exec (.pauseWatchdog p prio) s = execPauseWatchdog p prio s :=
  rfl
@[simp] theorem exec_pauseTxLimit p prio (s : State) : exec (.pauseTxLimit p prio) s = execPauseTxLimit p prio s :=
  rfl
@[simp] theorem exec_quarantineEnd c (s : State) : exec (.quarantineEnd c) s = execQuarantineEnd c s :=
  rfl
@[simp] theorem exec_quarantineClear path value (s : State) : exec (.quarantineClear path value) s = execQuarantineClear path value s :=
  rfl
@[simp] theorem exec_cairnFiringStart (s : State) : exec (.cairnFiringStart) s = execCairnFiringStart s :=
  rfl
@[simp] theorem exec_cairnFiringEnd i (s : State) : exec (.cairnFiringEnd i) s = execCairnFiringEnd i s :=
  rfl
@[simp] theorem exec_shipConnectionTimeout c (s : State) : exec (.shipConnectionTimeout c) s = execShipConnectionTimeout c s :=
  rfl
@[simp] theorem exec_timerPeriodEvent n (s : State) : exec (.timerPeriodEvent n) s = execTimerPeriodEvent n s :=
  rfl
@[simp] theorem exec_timerEnable p n (s : State) : exec (.timerEnable p n) s = execTimerEnable p n s :=
  rfl
@[simp] theorem exec_timerStop p n (s : State) : exec (.timerStop p n) s = execTimerStop p n s :=
  rfl
@[simp] theorem exec_timerPeriodWrite p n value (s : State) : exec (.timerPeriodWrite p n value) s = execTimerPeriodWrite p n value s :=
  rfl
@[simp] theorem exec_timerCountWrite p n value (s : State) : exec (.timerCountWrite p n value) s = execTimerCountWrite p n value s :=
  rfl
@[simp] theorem exec_gpioEdge g level (s : State) : exec (.gpioEdge g level) s = execGpioEdge g level s :=
  rfl
@[simp] theorem exec_screeFlush (s : State) : exec (.screeFlush) s = execScreeFlush s :=
  rfl
@[simp] theorem exec_suppressionSummary (s : State) : exec (.suppressionSummary) s = execSuppressionSummary s :=
  rfl
@[simp] theorem exec_makerRoleExpiry path (s : State) : exec (.makerRoleExpiry path) s = execMakerRoleExpiry path s :=
  rfl
@[simp] theorem exec_challengeExpiry path (s : State) : exec (.challengeExpiry path) s = execChallengeExpiry path s :=
  rfl
@[simp] theorem exec_challengeHoldEnd path (s : State) : exec (.challengeHoldEnd path) s = execChallengeHoldEnd path s :=
  rfl
@[simp] theorem exec_flintWindow rct apt (s : State) : exec (.flintWindow rct apt) s = execFlintWindow rct apt s :=
  rfl
@[simp] theorem exec_flintRerun (s : State) : exec (.flintRerun) s = execFlintRerun s :=
  rfl
@[simp] theorem exec_drbgReseed (s : State) : exec (.drbgReseed) s = execDrbgReseed s :=
  rfl
@[simp] theorem exec_trialTimeSave (s : State) : exec (.trialTimeSave) s = execTrialTimeSave s :=
  rfl
@[simp] theorem exec_trialExpiry (s : State) : exec (.trialExpiry) s = execTrialExpiry s :=
  rfl
@[simp] theorem exec_usbAttach (s : State) : exec (.usbAttach) s = execUsbAttach s :=
  rfl
@[simp] theorem exec_usbDisconnect (s : State) : exec (.usbDisconnect) s = execUsbDisconnect s :=
  rfl
@[simp] theorem exec_usbBusReset underWay high (s : State) : exec (.usbBusReset underWay high) s = execUsbBusReset underWay high s :=
  rfl
@[simp] theorem exec_usbStandardRequest type req value index len (s : State) : exec (.usbStandardRequest type req value index len) s = execUsbStandardRequest type req value index len s :=
  rfl
@[simp] theorem exec_getState value index len (s : State) : exec (.getState value index len) s = execGetState value index len s :=
  rfl
@[simp] theorem exec_getIdentify value index len (s : State) : exec (.getIdentify value index len) s = execGetIdentify value index len s :=
  rfl
@[simp] theorem exec_challenge value index len (s : State) : exec (.challenge value index len) s = execChallenge value index len s :=
  rfl
@[simp] theorem exec_response value index data (s : State) : exec (.response value index data) s = execResponse value index data s :=
  rfl
@[simp] theorem exec_drop value index data (s : State) : exec (.drop value index data) s = execDrop value index data s :=
  rfl
@[simp] theorem exec_imageBegin value index data (s : State) : exec (.imageBegin value index data) s = execImageBegin value index data s :=
  rfl
@[simp] theorem exec_imageChunk value index data (s : State) : exec (.imageChunk value index data) s = execImageChunk value index data s :=
  rfl
@[simp] theorem exec_imageStream value index data (s : State) : exec (.imageStream value index data) s = execImageStream value index data s :=
  rfl
@[simp] theorem exec_streamUnit data (s : State) : exec (.streamUnit data) s = execStreamUnit data s :=
  rfl
@[simp] theorem exec_usbImageCommit value index data copies (s : State) : exec (.usbImageCommit value index data copies) s = execUsbImageCommit value index data copies s :=
  rfl
@[simp] theorem exec_usbImageConfirm value index data (s : State) : exec (.usbImageConfirm value index data) s = execUsbImageConfirm value index data s :=
  rfl
@[simp] theorem exec_imageStatus value index len (s : State) : exec (.imageStatus value index len) s = execImageStatus value index len s :=
  rfl
@[simp] theorem exec_logOpen value index data gone (s : State) : exec (.logOpen value index data gone) s = execLogOpen value index data gone s :=
  rfl
@[simp] theorem exec_rawRead value index data raw (s : State) : exec (.rawRead value index data raw) s = execRawRead value index data raw s :=
  rfl
@[simp] theorem exec_reboot value index data (s : State) : exec (.reboot value index data) s = execReboot value index data s :=
  rfl
@[simp] theorem exec_pcieLinkUp speed width reversed polarity (s : State) : exec (.pcieLinkUp speed width reversed polarity) s = execPcieLinkUp speed width reversed polarity s :=
  rfl
@[simp] theorem exec_busMasterEnableSet (s : State) : exec (.busMasterEnableSet) s = execBusMasterEnableSet s :=
  rfl
@[simp] theorem exec_dramInitComplete step (s : State) : exec (.dramInitComplete step) s = execDramInitComplete step s :=
  rfl
@[simp] theorem exec_dAlertNHigh rank replayed again (s : State) : exec (.dAlertNHigh rank replayed again) s = execDAlertNHigh rank replayed again s :=
  rfl
@[simp] theorem exec_railRecovery r (s : State) : exec (.railRecovery r) s = execRailRecovery r s :=
  rfl
@[simp] theorem exec_chargerModeChange vin (s : State) : exec (.chargerModeChange vin) s = execChargerModeChange vin s :=
  rfl
@[simp] theorem exec_otherFrame p frame fcs a (s : State) : exec (.otherFrame p frame fcs a) s = execOtherFrame p frame fcs a s :=
  rfl
@[simp] theorem exec_tapReset (s : State) : exec (.tapReset) s = execTapReset s :=
  rfl
@[simp] theorem exec_qkchalRead (s : State) : exec (.qkchalRead) s = execQkchalRead s :=
  rfl
@[simp] theorem exec_qkrespWrite data (s : State) : exec (.qkrespWrite data) s = execQkrespWrite data s :=
  rfl
@[simp] theorem exec_illegalInstruction e word parity (s : State) : exec (.illegalInstruction e word parity) s = execIllegalInstruction e word parity s :=
  rfl

end Sys2Proof.Machine
end

