-- ==== Sys2Proof/Laws/Data.lean ====
section
/-! SUPPORT. Laws of the sorted lists and the memories of Word.lean: what a read gives after a write, and that a write keeps the
canonical form. -/

namespace Sys2Proof

variable {α : Type}

theorem Map.get_erase_self (d : α) (m : Map α) (k : Nat) : (Map.erase m k).get d k = d := by
  induction m with
  | nil => rfl
  | cons p m ih =>
    obtain ⟨a, v⟩ := p
    by_cases h : a = k <;> simp [Map.erase, Map.get, h, ih]

theorem Map.get_erase_ne (d : α) (m : Map α) {k j : Nat} (h : j ≠ k) : (Map.erase m k).get d j = m.get d j := by
  induction m with
  | nil => rfl
  | cons p m ih =>
    obtain ⟨a, v⟩ := p
    by_cases hk : a = k
    · simp [Map.erase, Map.get, hk, ih, Ne.symm h]
    · simp only [Map.erase, hk, if_false, Map.get, ih]

theorem Map.get_put_self (d : α) (m : Map α) (k : Nat) (v : α) : (Map.put m k v).get d k = v := by
  induction m with
  | nil => simp [Map.put, Map.get]
  | cons p m ih =>
    obtain ⟨a, w⟩ := p
    by_cases h1 : k < a
    · simp [Map.put, Map.get, h1]
    · by_cases h2 : a = k <;> simp [Map.put, Map.get, h1, h2, ih]

theorem Map.get_put_ne (d : α) (m : Map α) {k j : Nat} (v : α) (h : j ≠ k) : (Map.put m k v).get d j = m.get d j := by
  induction m with
  | nil => simp [Map.put, Map.get, Ne.symm h]
  | cons p m ih =>
    obtain ⟨a, w⟩ := p
    by_cases h1 : k < a
    · simp [Map.put, Map.get, h1, Ne.symm h]
    · by_cases h2 : a = k
      · simp [Map.put, Map.get, h2, Ne.symm h]
      · simp only [Map.put, h1, h2, if_false, Map.get, ih]

variable [DecidableEq α]

/-- A key reads back what was written to it. -/
@[simp] theorem Map.get_set_self (d : α) (m : Map α) (k : Nat) (v : α) : (Map.set d m k v).get d k = v := by
  by_cases h : v = d
  · simp [Map.set, h, Map.get_erase_self]
  · simp [Map.set, h, Map.get_put_self]

/-- Another key reads what it read before. -/
theorem Map.get_set_ne (d : α) (m : Map α) {k j : Nat} (v : α) (h : j ≠ k) : (Map.set d m k v).get d j = m.get d j := by
  by_cases hv : v = d
  · simp [Map.set, hv, Map.get_erase_ne _ _ h]
  · simp [Map.set, hv, Map.get_put_ne _ _ _ h]

theorem Map.get_set (d : α) (m : Map α) (k j : Nat) (v : α) :
    (Map.set d m k v).get d j = if j = k then v else m.get d j := by
  by_cases h : j = k
  · simp [h]
  · simp [h, Map.get_set_ne]

/-! ### The canonical form -/

/-- Every key of a sorted list is above `lo`, where its first one is. -/
def Map.above (lo : Nat) : Map α → Prop
  | [] => True
  | (a, _) :: _ => lo < a

omit [DecidableEq α] in
theorem Map.sorted_cons (a : Nat) (v : α) (m : Map α) : Map.sorted ((a, v) :: m) = true ↔ Map.above a m ∧ m.sorted = true := by
  cases m with
  | nil => simp [Map.sorted, Map.above]
  | cons p m => obtain ⟨b, w⟩ := p; simp [Map.sorted, Map.above]

omit [DecidableEq α] in
theorem Map.above_mono {lo hi : Nat} {m : Map α} (h : lo < hi) (ha : Map.above hi m) : Map.above lo m := by
  cases m with
  | nil => trivial
  | cons p m => exact Nat.lt_trans h ha

omit [DecidableEq α] in
theorem Map.sorted_erase (m : Map α) (k : Nat) (h : m.sorted = true) :
    (Map.erase m k).sorted = true ∧ ∀ lo, Map.above lo m → Map.above lo (Map.erase m k) := by
  induction m with
  | nil => exact ⟨rfl, fun _ _ => trivial⟩
  | cons p m ih =>
    obtain ⟨a, v⟩ := p
    obtain ⟨ha, hs⟩ := (Map.sorted_cons a v m).1 h
    obtain ⟨i1, i2⟩ := ih hs
    by_cases hk : a = k
    · simp only [Map.erase, hk, if_true]
      rw [hk] at ha
      exact ⟨i1, fun lo (hl : lo < k) => i2 lo (Map.above_mono hl ha)⟩
    · simp only [Map.erase, hk, if_false]
      exact ⟨(Map.sorted_cons a v _).2 ⟨i2 a ha, i1⟩, fun lo hl => hl⟩

omit [DecidableEq α] in
theorem Map.sorted_put (m : Map α) (k : Nat) (v : α) (h : m.sorted = true) :
    (Map.put m k v).sorted = true ∧ ∀ lo, lo < k → Map.above lo m → Map.above lo (Map.put m k v) := by
  induction m with
  | nil => exact ⟨rfl, fun lo hl _ => hl⟩
  | cons p m ih =>
    obtain ⟨a, w⟩ := p
    obtain ⟨ha, hs⟩ := (Map.sorted_cons a w m).1 h
    by_cases h1 : k < a
    · simp only [Map.put, h1, if_true]
      exact ⟨(Map.sorted_cons k v _).2 ⟨h1, h⟩, fun lo hl _ => hl⟩
    · by_cases h2 : a = k
      · subst h2
        simp only [Map.put, Nat.lt_irrefl, if_false, if_true]
        exact ⟨(Map.sorted_cons a v m).2 ⟨ha, hs⟩, fun lo hl _ => hl⟩
      · simp only [Map.put, h1, h2, if_false]
        obtain ⟨i1, i2⟩ := ih hs
        have h3 : a < k := by omega
        exact ⟨(Map.sorted_cons a w _).2 ⟨i2 a h3 ha, i1⟩, fun lo _ hl => hl⟩

omit [DecidableEq α] in
theorem Map.mem_erase {m : Map α} {k : Nat} {p : Nat × α} (h : p ∈ Map.erase m k) : p ∈ m := by
  induction m with
  | nil => exact h
  | cons q m ih =>
    obtain ⟨a, v⟩ := q
    by_cases hk : a = k <;> simp only [Map.erase, hk, if_true, if_false, List.mem_cons] at h
    · exact List.mem_cons_of_mem _ (ih h)
    · rcases h with h | h
      · exact h ▸ List.mem_cons_self
      · exact List.mem_cons_of_mem _ (ih h)

omit [DecidableEq α] in
theorem Map.mem_put {m : Map α} {k : Nat} {v : α} {p : Nat × α} (h : p ∈ Map.put m k v) : p = (k, v) ∨ p ∈ m := by
  induction m with
  | nil => simpa [Map.put] using h
  | cons q m ih =>
    obtain ⟨a, w⟩ := q
    by_cases h1 : k < a
    · simpa [Map.put, h1] using h
    · by_cases h2 : a = k
      · subst h2
        simp only [Map.put, Nat.lt_irrefl, if_false, if_true, List.mem_cons] at h
        exact h.imp id (List.mem_cons_of_mem _)
      · simp only [Map.put, h1, h2, if_false, List.mem_cons] at h
        rcases h with h | h
        · exact .inr (h ▸ List.mem_cons_self)
        · exact (ih h).imp id (List.mem_cons_of_mem _)

/-- A write keeps the canonical form. -/
theorem Map.wf_set (d : α) (m : Map α) (k : Nat) (v : α) (h : Map.wf d m = true) : Map.wf d (Map.set d m k v) = true := by
  simp only [Map.wf, Bool.and_eq_true, List.all_eq_true, decide_eq_true_eq] at h ⊢
  by_cases hv : v = d
  · simp only [Map.set, hv, if_true]
    exact ⟨(Map.sorted_erase m k h.1).1, fun p hp => h.2 p (Map.mem_erase hp)⟩
  · simp only [Map.set, hv, if_false]
    refine ⟨(Map.sorted_put m k v h.1).1, fun p hp => ?_⟩
    rcases Map.mem_put hp with rfl | hp
    · exact hv
    · exact h.2 p hp

/-! ### Memories -/

/-- Storing one byte keeps the canonical form. -/
theorem Memory.wf_setByte (m : Memory) (a : Nat) (v : Byte) (h : m.wf = true) : (m.setByte a v).wf = true :=
  Map.wf_set 0 m a v h

/-- Storing a run of bytes keeps the canonical form. -/
theorem Memory.wf_setBytes (m : Memory) (a : Nat) (bs : Bytes) (h : m.wf = true) : (m.setBytes a bs).wf = true := by
  induction bs generalizing m a with
  | nil => exact h
  | cons b bs ih => exact ih _ _ (Memory.wf_setByte m a b h)

@[simp] theorem Memory.byte_setByte_self (m : Memory) (a : Nat) (v : Byte) : (m.setByte a v).byte a = v :=
  Map.get_set_self 0 m a v

theorem Memory.byte_setByte_ne (m : Memory) {a j : Nat} (v : Byte) (h : j ≠ a) : (m.setByte a v).byte j = m.byte j :=
  Map.get_set_ne 0 m v h

/-- A byte outside the stored run reads as before. -/
theorem Memory.byte_setBytes_outside (m : Memory) (a : Nat) (bs : Bytes) (j : Nat) (h : j < a ∨ a + bs.length ≤ j) :
    (m.setBytes a bs).byte j = m.byte j := by
  induction bs generalizing m a with
  | nil => rfl
  | cons b bs ih =>
    simp only [List.length_cons] at h
    rw [Memory.setBytes, ih _ _ (by omega), Memory.byte_setByte_ne _ _ (by omega)]

/-- A stored byte reads back. -/
theorem Memory.byte_setBytes_inside (m : Memory) (a : Nat) (bs : Bytes) (i : Nat) (h : i < bs.length) :
    (m.setBytes a bs).byte (a + i) = bs[i] := by
  induction bs generalizing m a i with
  | nil => simp at h
  | cons b bs ih =>
    cases i with
    | zero => simp [Memory.setBytes, Memory.byte_setBytes_outside]
    | succ i =>
      have := ih (m.setByte a b) (a + 1) i (by simpa using h)
      simpa [Memory.setBytes, Nat.add_assoc, Nat.add_comm 1 i] using this

/-- A run reads back as it was stored. -/
theorem Memory.bytes_setBytes (m : Memory) (a : Nat) (bs : Bytes) : (m.setBytes a bs).bytes a bs.length = bs := by
  induction bs generalizing m a with
  | nil => rfl
  | cons b bs ih =>
    have h0 : (Memory.setBytes m a (b :: bs)).byte a = b := Memory.byte_setBytes_inside m a (b :: bs) 0 (by simp)
    simp only [List.length_cons, Memory.bytes, h0]
    exact congrArg _ (ih (m.setByte a b) (a + 1))

/-! ### Little-endian numbers -/

@[simp] theorem natLe_length (n v : Nat) : (natLe n v).length = n := by
  induction n generalizing v with
  | zero => rfl
  | succ n ih => simp [natLe, ih]

theorem leNat_natLe (n v : Nat) : leNat (natLe n v) = v % 256 ^ n := by
  induction n generalizing v with
  | zero => simp [natLe, leNat, Nat.mod_one]
  | succ n ih =>
    have h : (BitVec.ofNat 8 v).toNat = v % 256 := by simp
    simp only [natLe, leNat, ih, h]
    rw [Nat.pow_succ, Nat.mul_comm (256 ^ n) 256, Nat.mod_mul]

end Sys2Proof
end

