-- ==== Sys2Proof/Laws/Ops.lean ====
section
/-! SUPPORT. What the recording of events, the counting of troubles and their notices leave as it was: one lemma for each shared
operation of Machine/Ops.lean, and from them what a record or a count keeps, field by field. -/

namespace Sys2Proof.Machine

/-! ### The relation -/

theorem Steady.refl (s : State) : Steady s s := by constructor <;> intros <;> rfl

theorem Steady.trans {s t u : State} (a : Steady s t) (b : Steady t u) : Steady s u where
  pending := b.pending.trans a.pending
  dev := b.dev.trans a.dev
  staged := b.staged.trans a.staged
  time := b.time.trans a.time
  bas := b.bas.trans a.bas
  vcore := b.vcore.trans a.vcore
  led := b.led.trans a.led
  pfw := b.pfw.trans a.pfw
  drain := b.drain.trans a.drain
  start := b.start.trans a.start
  mbx := b.mbx.trans a.mbx
  chans := b.chans.trans a.chans
  alloc := b.alloc.trans a.alloc
  str := b.str.trans a.str
  roles := b.roles.trans a.roles
  tab := b.tab.trans a.tab
  fl := b.fl.trans a.fl
  dram := b.dram.trans a.dram
  fab := b.fab.trans a.fab
  img := b.img.trans a.img
  usb := b.usb.trans a.usb
  selfTest := b.selfTest.trans a.selfTest
  jtag := b.jtag.trans a.jtag
  junction := b.junction.trans a.junction
  portsFailed := b.portsFailed.trans a.portsFailed
  rebuilding := b.rebuilding.trans a.rebuilding
  sparesOut := b.sparesOut.trans a.sparesOut
  flintLatched := b.flintLatched.trans a.flintLatched
  csr := fun f h => (b.csr f h).trans (a.csr f h)
  pcie := by rw [← a.pcie, ← b.pcie]
  eng := fun e => by rw [← a.eng e, ← b.eng e]
  hooks := by rw [← a.hooks, ← b.hooks]
  nv := by rw [← a.nv, ← b.nv]

theorem Steady.foldl {α : Type} (f : State → α → State) (h : ∀ s a, Steady s (f s a)) (l : List α) (s : State) :
    Steady s (l.foldl f s) := by
  induction l generalizing s with
  | nil => exact Steady.refl s
  | cons a l ih => exact (h s a).trans (ih _)

theorem Steady.ite {s t u : State} {p : Prop} [Decidable p] (a : Steady s t) (b : Steady s u) :
    Steady s (if p then t else u) := by split <;> assumption

/-- A change of parts that the relation leaves open. -/
theorem Steady.of_eq {s t : State}
    (h : t = { s with
      evr := t.evr, rings := t.rings, pageSeq := t.pageSeq, out := t.out, crn := t.crn, cls := t.cls }) :
    Steady s t := by rw [h]; constructor <;> intros <;> rfl

theorem State.f_setF (s : State) (f g : Field) (v : Nat) :
    (s.setF f v).f g = if g.key = f.key then (s.csr.set f.reset f.key (v % 2 ^ f.width)).get g.reset g.key else s.f g := by
  split
  · rfl
  · rename_i h
    simp only [State.setF, State.f]
    by_cases h' : v % 2 ^ f.width = f.reset
    · simp [Map.set, h', Map.get_erase_ne _ _ h]
    · simp [Map.set, h', Map.get_put_ne _ _ _ h]

theorem State.f_setF_ne (s : State) {f g : Field} (v : Nat) (h : g.key ≠ f.key) : (s.setF f v).f g = s.f g := by
  simp [State.f_setF, h]

/-- A field reads back what was written, cut to its width. -/
@[simp] theorem State.f_setF_self (s : State) (f : Field) (v : Nat) : (s.setF f v).f f = v % 2 ^ f.width := by
  simp [State.f_setF]

/-! ### The operations -/

theorem State.emit_steady (s : State) (o : Out) : Steady s (s.emit o) := Steady.of_eq rfl
theorem State.touch_steady (s : State) (p : Nat) : Steady s (s.touch p) := Steady.of_eq rfl
theorem State.setRing_steady (s : State) (n : Nat) (r : Ring) : Steady s (s.setRing n r) := Steady.of_eq rfl
theorem State.bumpPlain_steady (s : State) (i : Nat) : Steady s (s.bumpPlain i) := Steady.of_eq rfl

theorem State.setF_steady (s : State) (f : Field) (v : Nat) (h : f ∈ noticeFields) : Steady s (s.setF f v) := by
  constructor
  case csr => exact fun g hg => State.f_setF_ne s v (hg f h)
  all_goals (intros; rfl)

theorem State.countF_steady (s : State) (f : Field) (n : Nat) (h : f ∈ noticeFields) : Steady s (s.countF f n) :=
  State.setF_steady s f _ h

theorem State.setCairn_steady (s : State) (i : Nat) (c : Cairn) : Steady s (s.setCairn i c) := by
  constructor <;> intros <;> rfl

@[simp] theorem State.engine_setEngine_self (s : State) (e : Nat) (x : Engine) : (s.setEngine e x).engine e = x :=
  Map.get_set_self _ _ _ _

theorem State.engine_setEngine_ne (s : State) {e d : Nat} (x : Engine) (h : d ≠ e) : (s.setEngine e x).engine d = s.engine d :=
  Map.get_set_ne _ _ _ h

@[simp] theorem State.engine_raise_self (s : State) (e i : Nat) :
    (s.raise e i).engine e = { s.engine e with ev := (s.engine e).ev ||| (1#16 <<< i) } := State.engine_setEngine_self s e _

theorem State.engine_raise_ne (s : State) {e d : Nat} (i : Nat) (h : d ≠ e) : (s.raise e i).engine d = s.engine d :=
  State.engine_setEngine_ne s _ h

theorem State.raise_steady (s : State) (e i : Nat) : Steady s (s.raise e i) := by
  constructor
  case eng =>
    intro d
    by_cases h : d = e
    · subst h; simp [State.raise]
    · simp [State.raise, State.engine_setEngine_ne _ _ h]
  all_goals (intros; rfl)

theorem State.queueHook_steady (s : State) (i : Nat) : Steady s (s.queueHook i) := by
  unfold State.queueHook
  have h : Steady s ({ s with hooks.queue := s.hooks.queue ++ [HookReq.mk i s.upLo] } : State) := by
    constructor <;> intros <;> rfl
  split
  · exact State.countF_steady s _ _ (by simp [noticeFields])
  · dsimp only
    split
    · exact (h.trans (State.raise_steady _ _ _)).trans (State.raise_steady _ _ _)
    · exact h.trans (State.raise_steady _ _ _)

theorem State.hookTrigger_steady (s : State) (p : Bytes → Bool) : Steady s (s.hookTrigger p) := by
  unfold State.hookTrigger
  split
  · exact Steady.refl s
  · exact Steady.foldl _ (fun t i => Steady.ite (State.queueHook_steady t i) (Steady.refl t)) _ s

theorem State.signal_steady (s : State) (v : Nat) : Steady s (s.signal v) := by
  unfold State.signal
  split
  · exact State.emit_steady s _
  · constructor <;> intros <;> rfl

theorem State.countClass_steady (s : State) (c i : Nat) : Steady s (s.countClass c i) := Steady.of_eq rfl

theorem State.moderate_steady (s : State) (n : Nat) (c : Cpl) : Steady s (s.moderate n c) := by
  unfold State.moderate
  dsimp only
  repeat' split
  · exact State.signal_steady _ _
  · exact Steady.refl s
  · exact (State.setRing_steady _ _ _).trans (State.signal_steady _ _)
  all_goals exact State.setRing_steady _ _ _

theorem State.settleRing_steady (s : State) (n : Nat) : Steady s (s.settleRing n) := by
  unfold State.settleRing
  dsimp only
  split
  · exact State.setRing_steady _ _ _
  · exact Steady.refl s

theorem State.writeCpl_steady (s : State) (n : Nat) (c : Cpl) : Steady s (s.writeCpl n c) := by
  unfold State.writeCpl
  dsimp only
  refine Steady.trans ?_ (State.moderate_steady _ _ _)
  split
  · exact ((State.emit_steady _ _).trans (State.setRing_steady _ _ _)).trans (State.emit_steady _ _)
  · exact (State.emit_steady _ _).trans (State.setRing_steady _ _ _)

theorem State.flushCpls_steady (s : State) (n k : Nat) : Steady s (s.flushCpls n k) := by
  induction k generalizing s with
  | zero => exact Steady.refl s
  | succ k ih =>
    unfold State.flushCpls
    dsimp only
    repeat' split
    · exact Steady.refl s
    · exact Steady.refl s
    · exact ((State.setRing_steady _ _ _).trans (State.writeCpl_steady _ _ _)).trans (ih _)
    · exact Steady.refl s
    · exact (State.setRing_steady _ _ _).trans (State.bumpPlain_steady _ _)

theorem State.pumpRing_steady (s : State) (n : Nat) : Steady s (s.pumpRing n) :=
  (State.flushCpls_steady _ _ _).trans (State.settleRing_steady _ _)

theorem State.postCpl_steady (s : State) (n : Nat) (c : Cpl) : Steady s (s.postCpl n c) :=
  (State.setRing_steady _ _ _).trans (State.pumpRing_steady _ _)

theorem State.asyncEntry_steady (s : State) (code : Nat) : Steady s (s.asyncEntry code) := by
  unfold State.asyncEntry
  dsimp only
  repeat' split
  · exact State.postCpl_steady _ _ _
  · exact (State.countF_steady _ _ _ (by simp [noticeFields])).trans (State.bumpPlain_steady _ _)
  · exact Steady.refl s

theorem State.notice_steady (s : State) (code : Nat) : Steady s (s.notice code) := by
  unfold State.notice
  dsimp only
  refine Steady.trans ?_ (State.hookTrigger_steady _ _)
  split
  · exact (State.touch_steady _ _).trans (State.asyncEntry_steady _ _)
  · exact State.touch_steady _ _

theorem State.keep_steady (s : State) (a b c d e f : Nat) : Steady s (s.keep a b c d e f).1 := by
  unfold State.keep
  repeat' split
  · exact Steady.refl s
  · exact Steady.of_eq rfl
  · exact Steady.of_eq rfl

theorem State.keepBoth_steady (s : State) (p : Prop) [Decidable p] (a b c d e f : Nat) :
    Steady s (if (s.keep a b c d e f).2 ∧ p then (((s.keep a b c d e f).1.keep 0xF002 Src.recorder 0 0 0 0).1, true)
      else s.keep a b c d e f).1 := by
  split
  · exact (State.keep_steady _ _ _ _ _ _ _).trans (State.keep_steady _ _ _ _ _ _ _)
  · exact State.keep_steady _ _ _ _ _ _ _

theorem State.recordCore_steady (s : State) (a b c d e f : Nat) : Steady s (s.recordCore a b c d e f).1 := by
  unfold State.recordCore
  dsimp only
  split
  · exact ((State.bumpPlain_steady s 0).trans (State.countF_steady _ _ _ (by simp [noticeFields]))).trans (Steady.of_eq rfl)
  · refine Steady.trans ?_ (State.keepBoth_steady _ _ _ _ _ _ _ _)
    exact Steady.ite (Steady.refl s) (Steady.of_eq rfl)

/-- A record, with its notices, changes nothing else. -/
theorem State.record_steady (s : State) (code src p1 p2 p3 p4 : Nat) : Steady s (s.record code src p1 p2 p3 p4) := by
  unfold State.record
  dsimp only
  split
  · exact (State.recordCore_steady _ _ _ _ _ _ _).trans (State.notice_steady _ _)
  · exact State.recordCore_steady _ _ _ _ _ _ _

theorem State.dropTrigger_steady (s : State) (i : Nat) (gap : Bool) : Steady s (s.dropTrigger i gap) := by
  unfold State.dropTrigger
  dsimp only
  refine Steady.trans ?_ (State.record_steady _ _ _ _ _ _ _)
  refine Steady.trans ?_ (State.bumpPlain_steady _ _)
  refine Steady.trans ?_ (State.touch_steady _ _)
  refine Steady.trans (t := s.setCairn i { s.cairn i with drops := satAdd 0xFFFF (s.cairn i).drops 1 })
    (State.setCairn_steady _ _ _) ?_
  split <;> exact Steady.of_eq rfl

theorem State.queueFiring_steady (s : State) (i kind t0 t0Field depth : Nat) :
    Steady s (s.queueFiring i kind t0 t0Field depth) :=
  ((State.setCairn_steady s i _).trans (State.touch_steady _ _)).trans (Steady.of_eq rfl)

theorem State.fireCairn_steady (s : State) (i kind t0 t0Field depth : Nat) :
    Steady s (s.fireCairn i kind t0 t0Field depth).1 := by
  unfold State.fireCairn
  dsimp only
  repeat' split
  · exact Steady.refl s
  · exact State.dropTrigger_steady _ _ _
  · exact State.dropTrigger_steady _ _ _
  · exact State.queueFiring_steady _ _ _ _ _ _

theorem State.trigger_steady (s : State) (i kind : Nat) : Steady s (s.trigger i kind).1 := State.fireCairn_steady _ _ _ _ _ _

theorem State.triggerAll_steady (s : State) (kind : Nat) (p : Cairn → Bool) : Steady s (s.triggerAll kind p) :=
  Steady.foldl _ (fun t i => State.trigger_steady t i kind) _ s

theorem State.countCairns_steady (s : State) (i : Nat) : Steady s (s.countCairns i) := by
  refine Steady.foldl _ (fun t j => ?_) _ s
  dsimp only
  split
  · exact (State.setCairn_steady _ _ _).trans (State.trigger_steady _ _ _)
  · exact State.setCairn_steady _ _ _

/-- A count of a trouble, with the cairns that count it, changes nothing else. -/
theorem State.bump_steady (s : State) (i : Nat) : Steady s (s.bump i) :=
  ((State.bumpPlain_steady s i).trans (State.touch_steady _ _)).trans (State.countCairns_steady _ _)

theorem State.late_steady (s : State) : Steady s s.late := State.bump_steady s _
theorem State.ignoredWrite_steady (s : State) : Steady s s.ignoredWrite := State.bump_steady s _
theorem State.dropValue_steady (s : State) (a b : Nat) : Steady s (s.dropValue a b) := State.record_steady s _ _ _ _ _ _

end Sys2Proof.Machine
end

