-- ==== Sys2Proof/Laws/Belion.lean ====
section
/-! SUPPORT. One Belion instruction: what its run answers, from what its body answers (R135, R145, R149). -/

namespace Sys2Proof.Machine

theorem Answers.mono {r : Result} {p q : State → Prop} (h : Answers r p) (k : ∀ t, p t → q t) : Answers r q := by
  obtain ⟨t, ht, hp⟩ := h; exact ⟨t, ht, k t hp⟩

theorem Only.setEngine (s : State) (e : Nat) (x : Engine) : Only s e x (s.setEngine e x) :=
  ⟨State.engine_setEngine_self s e x, fun _ h => State.engine_setEngine_ne s x h, rfl⟩

theorem Only.after {s t u : State} {e : Nat} {x y : Engine} (h : Only s e x t) (k : Only t e y u) : Only s e y u where
  self := k.self
  others := fun d hd => (k.others d hd).trans (h.others d hd)
  rest := by rw [← h.rest, ← k.rest]

/-- An engine of an instruction permitted there goes through the body. -/
theorem run_body {s : State} {e : Fin 10} {kinds : Nat} (word : Word) (f : State → Engine → Ran)
    (h : s.engineRuns e.val = true) (hk : bit kinds (kindOf e.val) = true) :
    s.run e kinds word f = match f s (s.engine e.val) with
      | .done t => ok (t.advance e.val (s.engine e.val).pc word)
      | .jump t a => ok (s.jumpTo t e.val (s.engine e.val).pc a word)
      | .stay t => ok t
      | .fault c => ok (s.engineFault e.val c (s.engine e.val).pc word) := by
  simp only [State.run, h, hk, not_true_eq_false, if_false] <;> rfl

/-- Every kind of engine is one of the three. -/
theorem kinds_all (e : Nat) : bit 7 (kindOf e) = true := by
  unfold kindOf
  split
  · rfl
  · split <;> rfl

/-- An instruction that ends in sequence leaves the engine at the next word. -/
theorem run_seq {s t : State} {e : Fin 10} {kinds : Nat} {word : Word} {f : State → Engine → Ran} (h : Runs s e)
    (hk : bit kinds (kindOf e.val) = true) (hf : f s (s.engine e.val) = .done t) :
    Answers (s.run e kinds word f) (Only t e.val { t.engine e.val with pc := (s.engine e.val).pc + 4 }) := by
  refine ⟨_, ?_, Only.setEngine t e.val _⟩
  rw [run_body word f h.1 hk, hf]
  simp only [State.advance, h.2, true_or, if_true, State.setPc, ok]

/-- The same where the body leaves the PC alone. -/
theorem run_done {s t : State} {e : Fin 10} {kinds : Nat} {word : Word} {f : State → Engine → Ran} (h : Runs s e)
    (hk : bit kinds (kindOf e.val) = true) (hf : f s (s.engine e.val) = .done t)
    (hp : (t.engine e.val).pc = (s.engine e.val).pc) :
    Answers (s.run e kinds word f) (Only t e.val (t.engine e.val).next) := by
  have := run_seq (word := word) h hk hf
  rwa [← hp] at this

/-- The same where the body ends with a change of the engine. -/
theorem run_put {s u : State} {e : Fin 10} {kinds : Nat} {word : Word} {f : State → Engine → Ran} {y : Engine} (h : Runs s e)
    (hk : bit kinds (kindOf e.val) = true) (hf : f s (s.engine e.val) = .done (u.setEngine e.val y)) :
    Answers (s.run e kinds word f) (Only u e.val { y with pc := (s.engine e.val).pc + 4 }) := by
  obtain ⟨t, ht, ho⟩ := run_seq (word := word) h hk hf
  rw [State.engine_setEngine_self] at ho
  exact ⟨t, ht, (Only.setEngine u e.val y).after ho⟩

/-- The same for an instruction that changes its engine alone. -/
theorem run_engine {s : State} {e : Fin 10} {kinds : Nat} {word : Word} {f : State → Engine → Ran} {y : Engine} (h : Runs s e)
    (hk : bit kinds (kindOf e.val) = true) (hf : f s (s.engine e.val) = .done (s.setEngine e.val y))
    (hp : y.pc = (s.engine e.val).pc) :
    Answers (s.run e kinds word f) (Only s e.val y.next) := by
  obtain ⟨t, ht, ho⟩ := run_done h hk hf (by simpa using hp)
  exact ⟨t, ht, (Only.setEngine s e.val y).after (by simpa using ho)⟩

/-- An instruction that is not over leaves the engine where its body put it. -/
theorem run_stay {s t : State} {e : Fin 10} {kinds : Nat} {word : Word} {f : State → Engine → Ran}
    (h : s.engineRuns e.val = true) (hk : bit kinds (kindOf e.val) = true) (hf : f s (s.engine e.val) = .stay t) :
    s.run e kinds word f = .next t := by
  rw [run_body word f h hk, hf]; rfl

/-- A jump to a word of program memory. -/
theorem run_jump {s t : State} {e : Fin 10} {kinds : Nat} {word : Word} {f : State → Engine → Ran} {a : Nat}
    (h : s.engineRuns e.val = true) (hk : bit kinds (kindOf e.val) = true) (hf : f s (s.engine e.val) = .jump t a)
    (h4 : a % 4 = 0) (hm : a < progSize e.val) :
    s.run e kinds word f = .next (t.setEngine e.val { t.engine e.val with pc := a }) := by
  rw [run_body word f h hk, hf]
  simp [State.jumpTo, h4, Nat.not_le.2 hm, ok, State.setPc]

/-- A fault of the body. -/
theorem run_fault {s : State} {e : Fin 10} {kinds : Nat} {word : Word} {f : State → Engine → Ran} {c : Nat}
    (h : s.engineRuns e.val = true) (hk : bit kinds (kindOf e.val) = true) (hf : f s (s.engine e.val) = .fault c) :
    s.run e kinds word f = .next (s.engineFault e.val c (s.engine e.val).pc word) := by
  rw [run_body word f h hk, hf]; rfl

@[simp] theorem Engine.setReg_pc (x : Engine) (r : BitVec 4) (v : Word) : (x.setReg r v).pc = x.pc := by
  unfold Engine.setReg; split <;> rfl
@[simp] theorem Engine.setReg_ev (x : Engine) (r : BitVec 4) (v : Word) : (x.setReg r v).ev = x.ev := by
  unfold Engine.setReg; split <;> rfl

/-- A register reads what was written last; k0 reads 0. -/
theorem Engine.reg_setReg (x : Engine) (r q : BitVec 4) (v : Word) :
    (x.setReg r v).reg q = if q = 0 then 0 else if q = r then v else x.reg q := by
  by_cases hq : q = 0#4
  · simp [Engine.reg, hq]
  · by_cases h : r = 0#4
    · simp [Engine.setReg, Engine.reg, hq, h]
    · by_cases hr : q = r
      · subst hr; simp [Engine.setReg, Engine.reg, h]
      · have : q.toNat ≠ r.toNat := fun e => hr (BitVec.eq_of_toNat_eq e)
        simp [Engine.setReg, Engine.reg, hq, h, hr, Map.get_set_ne _ _ _ this]

/-- Carry and overflow of a sum, and of a difference, in exact arithmetic. -/
theorem carryOf_sub (a b : Word) : carryOf a (~~~b) true = decide (b.toNat ≤ a.toNat) := by
  have := a.isLt; have := b.isLt
  simp only [carryOf, b2n, BitVec.toNat_not]
  congr 1; apply propext; simp; omega

theorem overOf_add (a b r : Word) (k : Int) (hk : k = 0 ∨ k = 1) (hr : r.toInt = (a.toInt + b.toInt + k).bmod (2 ^ 32)) :
    overOf a b r = decide (r.toInt ≠ a.toInt + b.toInt + k) := by
  have ha := BitVec.toInt_lt (x := a); have ha' := BitVec.le_toInt a
  have hb := BitVec.toInt_lt (x := b); have hb' := BitVec.le_toInt b
  simp only [overOf, BitVec.msb_eq_toInt]
  rw [Int.bmod_def] at hr
  rw [Bool.eq_iff_iff]
  by_cases h1 : a.toInt < 0 <;> by_cases h2 : b.toInt < 0 <;> by_cases h3 : r.toInt < 0 <;> simp [h1, h2, h3] <;>
    (split at hr <;> omega)

/-! ### Arithmetic -/

/-- Comparing with zero, as a proposition. -/
theorem beqD (r : Word) : (r == 0#32) = decide (r = 0#32) := rfl

/-- Flags by S, then the register, then the next word: Z and N only. -/
theorem flagZN_result (x : Engine) (f : Bool) (kd : BitVec 4) (r : Word) :
    ((if f then x.flagZN r else x).setReg kd r).next = x.result f kd r x.c x.v := by
  cases f <;> simp [Engine.result, Engine.flagZN, BitVec.msb_eq_toInt, beqD]

/-- The same for a sum. -/
theorem flagAdd_result (x : Engine) (f : Bool) (kd : BitVec 4) (a b r : Word) (k : Bool) :
    ((if f then x.flagAdd a b r k else x).setReg kd r).next = x.result f kd r (carryOf a b k) (overOf a b r) := by
  cases f <;> simp [Engine.result, Engine.flagAdd, Engine.flagZN, BitVec.msb_eq_toInt, beqD]

/-- The same for a shift. -/
theorem flagShift_result (x : Engine) (f : Bool) (kd : BitVec 4) (r : Word) (o : Option Bool) :
    ((if f then x.flagShift r o else x).setReg kd r).next = x.result f kd r (o.getD x.c) x.v := by
  cases f <;> simp [Engine.result, Engine.flagShift, Engine.flagZN, BitVec.msb_eq_toInt, beqD]

/-- A register operation. -/
theorem opA_result {s : State} {e : Fin 10} {func kd ka kb f op fl} {y : Engine} (h : Runs s e)
    (hy : ((if f then fl (s.engine e.val) ((s.engine e.val).reg ka) ((s.engine e.val).reg kb)
        (op (s.engine e.val) ((s.engine e.val).reg ka) ((s.engine e.val).reg kb)) else s.engine e.val).setReg kd
        (op (s.engine e.val) ((s.engine e.val).reg ka) ((s.engine e.val).reg kb))).next = y)
    (hp : ∀ x a b r, (fl x a b r).pc = x.pc) :
    Answers (s.opA e func kd ka kb f op fl) (Only s e.val y) := by
  subst hy
  refine run_engine h (kinds_all _) rfl ?_
  cases f <;> simp [hp]
theorem toInt_complement (b : Word) : (~~~b).toInt = -b.toInt - 1 := by
  have := BitVec.toInt_not (x := b)
  have h1 := BitVec.toInt_lt (x := b); have h2 := BitVec.le_toInt b
  rw [this, Int.bmod_def]
  have h3 := BitVec.toInt_eq_toNat_cond b
  have := b.isLt
  split at h3 <;> split <;> omega

/-- How far a run of places goes. -/
theorem takeWhile_length {p : Nat → Bool} (n k m : Nat) (h : ∀ i, i < k → p (m + i) = true) (hk : k < n → p (m + k) = false)
    (hn : k ≤ n) : ((List.range' m n).takeWhile p).length = k := by
  induction n generalizing k m with
  | zero => simp; omega
  | succ n ih =>
    rw [List.range'_succ]
    cases k with
    | zero => have h0 : p m = false := hk (by omega); simp [List.takeWhile, h0]
    | succ k =>
      have h0 : p m = true := h 0 (by omega)
      simp only [List.takeWhile, h0, List.length_cons]
      rw [ih k (m + 1) (fun i hi => by have := h (i + 1) (by omega); rwa [Nat.add_assoc, Nat.add_comm 1])
        (fun hkn => by have := hk (by omega); rwa [Nat.add_assoc, Nat.add_comm 1]) (by omega)]

/-- Leading zeros by the place of the highest bit. -/
theorem clz_eq (a : Word) : leadingZeros a = if a = 0 then 32 else 31 - Nat.log2 a.toNat := by
  unfold leadingZeros
  rw [List.range_eq_range']
  split <;> rename_i h
  · subst h; exact takeWhile_length 32 32 0 (fun i _ => by simp) (fun h => absurd h (by omega)) (by omega)
  · have h0 : a.toNat ≠ 0 := fun e => h (BitVec.eq_of_toNat_eq e)
    have hl := (Nat.log2_lt h0 (k := 32)).2 a.isLt
    refine takeWhile_length 32 _ 0 (fun i hi => ?_) (fun hi => ?_) (by omega)
    · simp only [BitVec.getLsbD, Nat.zero_add]
      rw [Nat.testBit_lt_two_pow]; rfl
      exact (Nat.log2_lt h0).1 (by omega)
    · simp only [BitVec.getLsbD, Nat.zero_add]
      have : 31 - (31 - a.toNat.log2) = a.toNat.log2 := by omega
      rw [this, Nat.testBit_log2 h0]; rfl
theorem sum_toInt (a b : Word) (c : Bool) : (sumOf a b c).toInt = (a.toInt + b.toInt + (b2n c : Int)).bmod (2 ^ 32) := by
  have : (BitVec.ofNat 32 (b2n c)).toInt = (b2n c : Int) := by cases c <;> decide
  simp [sumOf, BitVec.toInt_add, this]
theorem over_sum (a b : Word) (c : Bool) :
    overOf a b (sumOf a b c) = decide ((sumOf a b c).toInt ≠ a.toInt + b.toInt + (b2n c : Int)) :=
  overOf_add _ _ _ _ (by cases c <;> simp [b2n]) (sum_toInt a b c)
theorem sum_complement (a b : Word) : sumOf a (~~~b) true = a - b := by
  simp only [sumOf, b2n, if_true]
  rw [BitVec.sub_eq_add_neg, BitVec.neg_eq_not_add, BitVec.add_assoc]
theorem borrow_complement (a b : Word) (c : Bool) : sumOf a (~~~b) c = a - b - BitVec.ofNat 32 (1 - b2n c) := by
  cases c
  · simp only [sumOf, b2n, Bool.false_eq_true, if_false, BitVec.sub_eq_add_neg, BitVec.neg_eq_not_add (x := b)]
    simp only [BitVec.add_assoc]; simp
  · rw [sum_complement]; simp [b2n]
theorem over_diff (a b : Word) (c : Bool) : overOf a (~~~b) (sumOf a (~~~b) c)
    = decide ((sumOf a (~~~b) c).toInt ≠ a.toInt - b.toInt - ((1 - b2n c : Nat) : Int)) := by
  rw [over_sum, toInt_complement]
  congr 1; cases c <;> simp [b2n] <;> constructor <;> intro h g <;> omega
theorem carry_diff (a b : Word) (c : Bool) : carryOf a (~~~b) c = decide (b.toNat + (1 - b2n c) ≤ a.toNat) := by
  have := a.isLt; have := b.isLt
  simp only [carryOf, BitVec.toNat_not]
  congr 1; apply propext; cases c <;> simp [b2n] <;> omega
theorem swap_eq (a : Word) : swapBytes a =
    a.extractLsb' 0 8 ++ a.extractLsb' 8 8 ++ a.extractLsb' 16 8 ++ a.extractLsb' 24 8 := by
  apply BitVec.eq_of_toNat_eq
  have h1 : ∀ x y : Nat, y < 256 → x <<< 8 ||| y = x * 256 + y := fun x y hy => by
    rw [← Nat.shiftLeft_add_eq_or_of_lt hy x, Nat.shiftLeft_eq]
  simp only [BitVec.toNat_append, BitVec.extractLsb'_toNat, swapBytes, beNat, natLe, List.reverse_cons, List.reverse_nil,
    List.nil_append, List.cons_append, leNat, BitVec.toNat_ofNat, Nat.shiftRight_eq_div_pow]
  rw [h1 _ _ (Nat.mod_lt _ (by omega)), h1 _ _ (Nat.mod_lt _ (by omega)), h1 _ _ (Nat.mod_lt _ (by omega))]
  simp only [Nat.div_div_eq_div_mul, Nat.reducePow, Nat.reduceMul, Nat.div_one, Nat.mul_zero, Nat.add_zero]
  have := a.isLt
  omega

/-- An immediate operation. -/
theorem opB_result {s : State} {e : Fin 10} {major kd ka f imm op fl} {y : Engine} (h : Runs s e)
    (hy : ((if f then fl (s.engine e.val) ((s.engine e.val).reg ka) (op ((s.engine e.val).reg ka)) else s.engine e.val).setReg kd
        (op ((s.engine e.val).reg ka))).next = y)
    (hp : ∀ x a r, (fl x a r).pc = x.pc) :
    Answers (s.opB e major kd ka f imm op fl) (Only s e.val y) := by
  subst hy
  refine run_engine h (kinds_all _) rfl ?_
  cases f <;> simp [hp]

/-! ### Data memory -/

theorem State.engine_setData (s : State) (e a d : Nat) (b : Bytes) :
    (s.setData e a b).engine d = if d = dataHome e then
      { s.engine d with data := (s.engine d).data.setBytes (dataPlace e a) b } else s.engine d := by
  by_cases h : d = dataHome e
  · subst h; simp [State.setData, State.engine]
  · simp only [State.setData, State.engine, h, if_false]
    rw [Map.get_set_ne _ _ _ h]

/-- A store, and then a further change of the engine. -/
theorem Stored.then {s t u : State} {e a : Nat} {b : Bytes} {x y : Engine} (h : Stored s e a b x t) (k : Only t e y u)
    (hy : y.data = (t.engine e).data) : Stored s e a b { y with data := (s.engine e).data } u where
  data := fun d j => by
    rw [← h.data d j]
    by_cases hd : d = e
    · subst hd; rw [k.self, hy]
    · rw [k.others d hd]
  engines := fun d => by
    by_cases hd : d = e
    · subst hd; rw [k.self, if_pos rfl]
    · rw [k.others d hd, h.engines d, if_neg hd, if_neg hd]
  rest := by rw [← h.rest, ← k.rest]

/-- A store of data and nothing else. -/
theorem Stored.setData (s : State) (e a : Nat) (b : Bytes) : Stored s e a b (s.engine e) (s.setData e a b) := by
  refine ⟨fun d j => ?_, fun d => ?_, rfl⟩
  · rw [State.engine_setData]
    by_cases h : d = dataHome e
    · simp only [h, true_and, if_true]
      split <;> rename_i g
      · obtain ⟨i, hi⟩ : ∃ i, j = dataPlace e a + i := ⟨j - dataPlace e a, by omega⟩
        subst hi
        rw [Memory.byte_setBytes_inside _ _ _ _ (by omega)]
        rw [Nat.add_sub_cancel_left, List.getD, List.getElem?_eq_getElem (by omega)]; rfl
      · exact Memory.byte_setBytes_outside _ _ _ _ (by omega)
    · simp only [h, false_and, if_false]
  · rw [State.engine_setData]
    by_cases h : d = e
    · subst h; rw [if_pos rfl]; split <;> rfl
    · rw [if_neg h]; split <;> rfl

theorem simm_int (i : BitVec 16) : simm i = BitVec.ofInt 32 i.toInt := by simp [simm, BitVec.signExtend]
theorem simm_toInt (i : BitVec 16) : (simm i).toInt = i.toInt := by rw [simm, BitVec.toInt_signExtend_of_le (by decide)]
theorem uimm_nat (i : BitVec 16) : uimm i = BitVec.ofNat 32 i.toNat := by apply BitVec.eq_of_toNat_eq; simp [uimm]

/-- The ranges of the data space. -/
theorem space_data {e a : Nat} (h : a < dataSize e) : spaceOf e a = .data a := by simp [spaceOf, h]
theorem space_window {off : Nat} (h : off < 0x10000) : spaceOf 0 (0x100000 + off) = .window off := by
  unfold spaceOf
  rw [if_neg (by simp only [dataSize, if_true]; omega), if_pos (by omega), Nat.add_sub_cancel_left]
theorem space_calibration {off : Nat} (h : off < 0x800) : spaceOf 0 (0x180000 + off) = .calibration off := by
  unfold spaceOf
  rw [if_neg (by simp only [dataSize, if_true]; omega), if_neg (by omega), if_pos (by omega), Nat.add_sub_cancel_left]

/-- The low bytes of a number are those of its remainder. -/
theorem natLe_mod (n v : Nat) : natLe n (v % 256 ^ n) = natLe n v := by
  induction n generalizing v with
  | zero => rfl
  | succ n ih =>
    have h1 : v % 256 ^ (n + 1) / 256 = v / 256 % 256 ^ n := by
      rw [Nat.pow_succ, Nat.mul_comm, Nat.mod_mul_right_div_self]
    have h2 : v % 256 ^ (n + 1) % 256 = v % 256 := by
      rw [Nat.pow_succ]; exact Nat.mod_mul_left_mod v _ 256
    simp only [natLe, h1, ih]
    congr 1
    apply BitVec.eq_of_toNat_eq; simp only [BitVec.toNat_ofNat, Nat.reducePow, h2]

@[simp] theorem State.engine_setData_pc (s : State) (e a d : Nat) (b : Bytes) : ((s.setData e a b).engine d).pc = (s.engine d).pc := by
  rw [State.engine_setData]; split <;> rfl

end Sys2Proof.Machine
end

