-- ==== Sys2Proof/Laws/State.lean ====
section
/-! SUPPORT. What each update of the state leaves as it was, field by field: the plain updates by rfl, and the operations that only
record and count from what `Steady` says. -/

namespace Sys2Proof.Machine

/-! ### The plain updates -/

@[simp] theorem State.setRing_keeps (s : State) (n : Nat) (r : Ring) :
    (s.setRing n r).pending = s.pending ∧ (s.setRing n r).dev = s.dev ∧ (s.setRing n r).csr = s.csr ∧
    (s.setRing n r).staged = s.staged ∧ (s.setRing n r).evr = s.evr ∧ (s.setRing n r).time = s.time ∧
    (s.setRing n r).bas = s.bas ∧ (s.setRing n r).vcore = s.vcore ∧ (s.setRing n r).led = s.led ∧ (s.setRing n r).pfw = s.pfw ∧
    (s.setRing n r).drain = s.drain ∧ (s.setRing n r).start = s.start ∧ (s.setRing n r).pcie = s.pcie ∧
    (s.setRing n r).mbx = s.mbx ∧ (s.setRing n r).chans = s.chans ∧ (s.setRing n r).alloc = s.alloc ∧
    (s.setRing n r).str = s.str ∧ (s.setRing n r).eng = s.eng ∧ (s.setRing n r).hooks = s.hooks ∧
    (s.setRing n r).roles = s.roles ∧ (s.setRing n r).tab = s.tab ∧ (s.setRing n r).fl = s.fl ∧ (s.setRing n r).dram = s.dram ∧
    (s.setRing n r).fab = s.fab ∧ (s.setRing n r).img = s.img ∧ (s.setRing n r).usb = s.usb ∧
    (s.setRing n r).selfTest = s.selfTest ∧ (s.setRing n r).jtag = s.jtag ∧ (s.setRing n r).junction = s.junction ∧
    (s.setRing n r).crn = s.crn ∧ (s.setRing n r).cls = s.cls ∧ (s.setRing n r).portsFailed = s.portsFailed ∧
    (s.setRing n r).rebuilding = s.rebuilding ∧ (s.setRing n r).sparesOut = s.sparesOut ∧
    (s.setRing n r).flintLatched = s.flintLatched ∧ (s.setRing n r).pageSeq = s.pageSeq ∧ (s.setRing n r).nv = s.nv ∧
    (s.setRing n r).out = s.out :=
  ⟨rfl, rfl, rfl, rfl, rfl, rfl, rfl, rfl, rfl, rfl, rfl, rfl, rfl, rfl, rfl, rfl, rfl, rfl, rfl, rfl, rfl, rfl, rfl, rfl, rfl,
    rfl, rfl, rfl, rfl, rfl, rfl, rfl, rfl, rfl, rfl, rfl, rfl, rfl⟩

@[simp] theorem State.setRing_finds (s : State) (n : Nat) (r : Ring) :
    (∀ e, (s.setRing n r).engine e = s.engine e) ∧ (∀ e, (s.setRing n r).chan e = s.chan e) ∧
    (∀ e, (s.setRing n r).vol e = s.vol e) ∧ (∀ e, (s.setRing n r).cairn e = s.cairn e) ∧
    (∀ e, (s.setRing n r).lun e = s.lun e) ∧ (∀ e, (s.setRing n r).fchan e = s.fchan e) ∧ (∀ e, (s.setRing n r).f e = s.f e) :=
  ⟨fun _ => rfl, fun _ => rfl, fun _ => rfl, fun _ => rfl, fun _ => rfl, fun _ => rfl, fun _ => rfl⟩

@[simp] theorem State.setChan_keeps (s : State) (n : Nat) (r : Chan) :
    (s.setChan n r).pending = s.pending ∧ (s.setChan n r).dev = s.dev ∧ (s.setChan n r).csr = s.csr ∧
    (s.setChan n r).staged = s.staged ∧ (s.setChan n r).evr = s.evr ∧ (s.setChan n r).time = s.time ∧
    (s.setChan n r).bas = s.bas ∧ (s.setChan n r).vcore = s.vcore ∧ (s.setChan n r).led = s.led ∧ (s.setChan n r).pfw = s.pfw ∧
    (s.setChan n r).drain = s.drain ∧ (s.setChan n r).start = s.start ∧ (s.setChan n r).pcie = s.pcie ∧
    (s.setChan n r).rings = s.rings ∧ (s.setChan n r).mbx = s.mbx ∧ (s.setChan n r).alloc = s.alloc ∧
    (s.setChan n r).str = s.str ∧ (s.setChan n r).eng = s.eng ∧ (s.setChan n r).hooks = s.hooks ∧
    (s.setChan n r).roles = s.roles ∧ (s.setChan n r).tab = s.tab ∧ (s.setChan n r).fl = s.fl ∧ (s.setChan n r).dram = s.dram ∧
    (s.setChan n r).fab = s.fab ∧ (s.setChan n r).img = s.img ∧ (s.setChan n r).usb = s.usb ∧
    (s.setChan n r).selfTest = s.selfTest ∧ (s.setChan n r).jtag = s.jtag ∧ (s.setChan n r).junction = s.junction ∧
    (s.setChan n r).crn = s.crn ∧ (s.setChan n r).cls = s.cls ∧ (s.setChan n r).portsFailed = s.portsFailed ∧
    (s.setChan n r).rebuilding = s.rebuilding ∧ (s.setChan n r).sparesOut = s.sparesOut ∧
    (s.setChan n r).flintLatched = s.flintLatched ∧ (s.setChan n r).pageSeq = s.pageSeq ∧ (s.setChan n r).nv = s.nv ∧
    (s.setChan n r).out = s.out :=
  ⟨rfl, rfl, rfl, rfl, rfl, rfl, rfl, rfl, rfl, rfl, rfl, rfl, rfl, rfl, rfl, rfl, rfl, rfl, rfl, rfl, rfl, rfl, rfl, rfl, rfl,
    rfl, rfl, rfl, rfl, rfl, rfl, rfl, rfl, rfl, rfl, rfl, rfl, rfl⟩

@[simp] theorem State.setChan_finds (s : State) (n : Nat) (r : Chan) :
    (∀ e, (s.setChan n r).engine e = s.engine e) ∧ (∀ e, (s.setChan n r).ring e = s.ring e) ∧
    (∀ e, (s.setChan n r).vol e = s.vol e) ∧ (∀ e, (s.setChan n r).cairn e = s.cairn e) ∧
    (∀ e, (s.setChan n r).lun e = s.lun e) ∧ (∀ e, (s.setChan n r).fchan e = s.fchan e) ∧ (∀ e, (s.setChan n r).f e = s.f e) :=
  ⟨fun _ => rfl, fun _ => rfl, fun _ => rfl, fun _ => rfl, fun _ => rfl, fun _ => rfl, fun _ => rfl⟩

@[simp] theorem State.setEngine_keeps (s : State) (n : Nat) (r : Engine) :
    (s.setEngine n r).pending = s.pending ∧ (s.setEngine n r).dev = s.dev ∧ (s.setEngine n r).csr = s.csr ∧
    (s.setEngine n r).staged = s.staged ∧ (s.setEngine n r).evr = s.evr ∧ (s.setEngine n r).time = s.time ∧
    (s.setEngine n r).bas = s.bas ∧ (s.setEngine n r).vcore = s.vcore ∧ (s.setEngine n r).led = s.led ∧
    (s.setEngine n r).pfw = s.pfw ∧ (s.setEngine n r).drain = s.drain ∧ (s.setEngine n r).start = s.start ∧
    (s.setEngine n r).pcie = s.pcie ∧ (s.setEngine n r).rings = s.rings ∧ (s.setEngine n r).mbx = s.mbx ∧
    (s.setEngine n r).chans = s.chans ∧ (s.setEngine n r).alloc = s.alloc ∧ (s.setEngine n r).str = s.str ∧
    (s.setEngine n r).hooks = s.hooks ∧ (s.setEngine n r).roles = s.roles ∧ (s.setEngine n r).tab = s.tab ∧
    (s.setEngine n r).fl = s.fl ∧ (s.setEngine n r).dram = s.dram ∧ (s.setEngine n r).fab = s.fab ∧
    (s.setEngine n r).img = s.img ∧ (s.setEngine n r).usb = s.usb ∧ (s.setEngine n r).selfTest = s.selfTest ∧
    (s.setEngine n r).jtag = s.jtag ∧ (s.setEngine n r).junction = s.junction ∧ (s.setEngine n r).crn = s.crn ∧
    (s.setEngine n r).cls = s.cls ∧ (s.setEngine n r).portsFailed = s.portsFailed ∧ (s.setEngine n r).rebuilding = s.rebuilding ∧
    (s.setEngine n r).sparesOut = s.sparesOut ∧ (s.setEngine n r).flintLatched = s.flintLatched ∧
    (s.setEngine n r).pageSeq = s.pageSeq ∧ (s.setEngine n r).nv = s.nv ∧ (s.setEngine n r).out = s.out :=
  ⟨rfl, rfl, rfl, rfl, rfl, rfl, rfl, rfl, rfl, rfl, rfl, rfl, rfl, rfl, rfl, rfl, rfl, rfl, rfl, rfl, rfl, rfl, rfl, rfl, rfl,
    rfl, rfl, rfl, rfl, rfl, rfl, rfl, rfl, rfl, rfl, rfl, rfl, rfl⟩

@[simp] theorem State.setEngine_finds (s : State) (n : Nat) (r : Engine) :
    (∀ e, (s.setEngine n r).ring e = s.ring e) ∧ (∀ e, (s.setEngine n r).chan e = s.chan e) ∧
    (∀ e, (s.setEngine n r).vol e = s.vol e) ∧ (∀ e, (s.setEngine n r).cairn e = s.cairn e) ∧
    (∀ e, (s.setEngine n r).lun e = s.lun e) ∧ (∀ e, (s.setEngine n r).fchan e = s.fchan e) ∧
    (∀ e, (s.setEngine n r).f e = s.f e) :=
  ⟨fun _ => rfl, fun _ => rfl, fun _ => rfl, fun _ => rfl, fun _ => rfl, fun _ => rfl, fun _ => rfl⟩

@[simp] theorem State.setVol_keeps (s : State) (n : Nat) (r : Vol) :
    (s.setVol n r).pending = s.pending ∧ (s.setVol n r).dev = s.dev ∧ (s.setVol n r).csr = s.csr ∧
    (s.setVol n r).staged = s.staged ∧ (s.setVol n r).evr = s.evr ∧ (s.setVol n r).time = s.time ∧ (s.setVol n r).bas = s.bas ∧
    (s.setVol n r).vcore = s.vcore ∧ (s.setVol n r).led = s.led ∧ (s.setVol n r).pfw = s.pfw ∧ (s.setVol n r).drain = s.drain ∧
    (s.setVol n r).start = s.start ∧ (s.setVol n r).pcie = s.pcie ∧ (s.setVol n r).rings = s.rings ∧ (s.setVol n r).mbx = s.mbx ∧
    (s.setVol n r).chans = s.chans ∧ (s.setVol n r).alloc = s.alloc ∧ (s.setVol n r).str = s.str ∧ (s.setVol n r).eng = s.eng ∧
    (s.setVol n r).hooks = s.hooks ∧ (s.setVol n r).roles = s.roles ∧ (s.setVol n r).tab = s.tab ∧ (s.setVol n r).fl = s.fl ∧
    (s.setVol n r).dram = s.dram ∧ (s.setVol n r).fab = s.fab ∧ (s.setVol n r).img = s.img ∧ (s.setVol n r).usb = s.usb ∧
    (s.setVol n r).selfTest = s.selfTest ∧ (s.setVol n r).jtag = s.jtag ∧ (s.setVol n r).junction = s.junction ∧
    (s.setVol n r).crn = s.crn ∧ (s.setVol n r).cls = s.cls ∧ (s.setVol n r).portsFailed = s.portsFailed ∧
    (s.setVol n r).rebuilding = s.rebuilding ∧ (s.setVol n r).sparesOut = s.sparesOut ∧
    (s.setVol n r).flintLatched = s.flintLatched ∧ (s.setVol n r).pageSeq = s.pageSeq ∧ (s.setVol n r).out = s.out :=
  ⟨rfl, rfl, rfl, rfl, rfl, rfl, rfl, rfl, rfl, rfl, rfl, rfl, rfl, rfl, rfl, rfl, rfl, rfl, rfl, rfl, rfl, rfl, rfl, rfl, rfl,
    rfl, rfl, rfl, rfl, rfl, rfl, rfl, rfl, rfl, rfl, rfl, rfl, rfl⟩

@[simp] theorem State.setVol_finds (s : State) (n : Nat) (r : Vol) :
    (∀ e, (s.setVol n r).engine e = s.engine e) ∧ (∀ e, (s.setVol n r).ring e = s.ring e) ∧
    (∀ e, (s.setVol n r).chan e = s.chan e) ∧ (∀ e, (s.setVol n r).fchan e = s.fchan e) ∧ (∀ e, (s.setVol n r).f e = s.f e) :=
  ⟨fun _ => rfl, fun _ => rfl, fun _ => rfl, fun _ => rfl, fun _ => rfl⟩

@[simp] theorem State.setCairn_keeps (s : State) (n : Nat) (r : Cairn) :
    (s.setCairn n r).pending = s.pending ∧ (s.setCairn n r).dev = s.dev ∧ (s.setCairn n r).csr = s.csr ∧
    (s.setCairn n r).staged = s.staged ∧ (s.setCairn n r).evr = s.evr ∧ (s.setCairn n r).time = s.time ∧
    (s.setCairn n r).bas = s.bas ∧ (s.setCairn n r).vcore = s.vcore ∧ (s.setCairn n r).led = s.led ∧
    (s.setCairn n r).pfw = s.pfw ∧ (s.setCairn n r).drain = s.drain ∧ (s.setCairn n r).start = s.start ∧
    (s.setCairn n r).pcie = s.pcie ∧ (s.setCairn n r).rings = s.rings ∧ (s.setCairn n r).mbx = s.mbx ∧
    (s.setCairn n r).chans = s.chans ∧ (s.setCairn n r).alloc = s.alloc ∧ (s.setCairn n r).str = s.str ∧
    (s.setCairn n r).eng = s.eng ∧ (s.setCairn n r).hooks = s.hooks ∧ (s.setCairn n r).roles = s.roles ∧
    (s.setCairn n r).tab = s.tab ∧ (s.setCairn n r).fl = s.fl ∧ (s.setCairn n r).dram = s.dram ∧ (s.setCairn n r).fab = s.fab ∧
    (s.setCairn n r).img = s.img ∧ (s.setCairn n r).usb = s.usb ∧ (s.setCairn n r).selfTest = s.selfTest ∧
    (s.setCairn n r).jtag = s.jtag ∧ (s.setCairn n r).junction = s.junction ∧ (s.setCairn n r).crn = s.crn ∧
    (s.setCairn n r).cls = s.cls ∧ (s.setCairn n r).portsFailed = s.portsFailed ∧ (s.setCairn n r).rebuilding = s.rebuilding ∧
    (s.setCairn n r).sparesOut = s.sparesOut ∧ (s.setCairn n r).flintLatched = s.flintLatched ∧
    (s.setCairn n r).pageSeq = s.pageSeq ∧ (s.setCairn n r).out = s.out :=
  ⟨rfl, rfl, rfl, rfl, rfl, rfl, rfl, rfl, rfl, rfl, rfl, rfl, rfl, rfl, rfl, rfl, rfl, rfl, rfl, rfl, rfl, rfl, rfl, rfl, rfl,
    rfl, rfl, rfl, rfl, rfl, rfl, rfl, rfl, rfl, rfl, rfl, rfl, rfl⟩

@[simp] theorem State.setCairn_finds (s : State) (n : Nat) (r : Cairn) :
    (∀ e, (s.setCairn n r).engine e = s.engine e) ∧ (∀ e, (s.setCairn n r).ring e = s.ring e) ∧
    (∀ e, (s.setCairn n r).chan e = s.chan e) ∧ (∀ e, (s.setCairn n r).fchan e = s.fchan e) ∧ (∀ e, (s.setCairn n r).f e = s.f e) :=
  ⟨fun _ => rfl, fun _ => rfl, fun _ => rfl, fun _ => rfl, fun _ => rfl⟩

@[simp] theorem State.setF_keeps (s : State) (n : Field) (r : Nat) :
    (s.setF n r).pending = s.pending ∧ (s.setF n r).dev = s.dev ∧ (s.setF n r).staged = s.staged ∧ (s.setF n r).evr = s.evr ∧
    (s.setF n r).time = s.time ∧ (s.setF n r).bas = s.bas ∧ (s.setF n r).vcore = s.vcore ∧ (s.setF n r).led = s.led ∧
    (s.setF n r).pfw = s.pfw ∧ (s.setF n r).drain = s.drain ∧ (s.setF n r).start = s.start ∧ (s.setF n r).pcie = s.pcie ∧
    (s.setF n r).rings = s.rings ∧ (s.setF n r).mbx = s.mbx ∧ (s.setF n r).chans = s.chans ∧ (s.setF n r).alloc = s.alloc ∧
    (s.setF n r).str = s.str ∧ (s.setF n r).eng = s.eng ∧ (s.setF n r).hooks = s.hooks ∧ (s.setF n r).roles = s.roles ∧
    (s.setF n r).tab = s.tab ∧ (s.setF n r).fl = s.fl ∧ (s.setF n r).dram = s.dram ∧ (s.setF n r).fab = s.fab ∧
    (s.setF n r).img = s.img ∧ (s.setF n r).usb = s.usb ∧ (s.setF n r).selfTest = s.selfTest ∧ (s.setF n r).jtag = s.jtag ∧
    (s.setF n r).junction = s.junction ∧ (s.setF n r).crn = s.crn ∧ (s.setF n r).cls = s.cls ∧
    (s.setF n r).portsFailed = s.portsFailed ∧ (s.setF n r).rebuilding = s.rebuilding ∧ (s.setF n r).sparesOut = s.sparesOut ∧
    (s.setF n r).flintLatched = s.flintLatched ∧ (s.setF n r).pageSeq = s.pageSeq ∧ (s.setF n r).nv = s.nv ∧
    (s.setF n r).out = s.out :=
  ⟨rfl, rfl, rfl, rfl, rfl, rfl, rfl, rfl, rfl, rfl, rfl, rfl, rfl, rfl, rfl, rfl, rfl, rfl, rfl, rfl, rfl, rfl, rfl, rfl, rfl,
    rfl, rfl, rfl, rfl, rfl, rfl, rfl, rfl, rfl, rfl, rfl, rfl, rfl⟩

@[simp] theorem State.setF_finds (s : State) (n : Field) (r : Nat) :
    (∀ e, (s.setF n r).engine e = s.engine e) ∧ (∀ e, (s.setF n r).ring e = s.ring e) ∧ (∀ e, (s.setF n r).chan e = s.chan e) ∧
    (∀ e, (s.setF n r).vol e = s.vol e) ∧ (∀ e, (s.setF n r).cairn e = s.cairn e) ∧ (∀ e, (s.setF n r).lun e = s.lun e) ∧
    (∀ e, (s.setF n r).fchan e = s.fchan e) :=
  ⟨fun _ => rfl, fun _ => rfl, fun _ => rfl, fun _ => rfl, fun _ => rfl, fun _ => rfl, fun _ => rfl⟩

@[simp] theorem State.emit_keeps (s : State) (n : Out) :
    (s.emit n).pending = s.pending ∧ (s.emit n).dev = s.dev ∧ (s.emit n).csr = s.csr ∧ (s.emit n).staged = s.staged ∧
    (s.emit n).evr = s.evr ∧ (s.emit n).time = s.time ∧ (s.emit n).bas = s.bas ∧ (s.emit n).vcore = s.vcore ∧
    (s.emit n).led = s.led ∧ (s.emit n).pfw = s.pfw ∧ (s.emit n).drain = s.drain ∧ (s.emit n).start = s.start ∧
    (s.emit n).pcie = s.pcie ∧ (s.emit n).rings = s.rings ∧ (s.emit n).mbx = s.mbx ∧ (s.emit n).chans = s.chans ∧
    (s.emit n).alloc = s.alloc ∧ (s.emit n).str = s.str ∧ (s.emit n).eng = s.eng ∧ (s.emit n).hooks = s.hooks ∧
    (s.emit n).roles = s.roles ∧ (s.emit n).tab = s.tab ∧ (s.emit n).fl = s.fl ∧ (s.emit n).dram = s.dram ∧
    (s.emit n).fab = s.fab ∧ (s.emit n).img = s.img ∧ (s.emit n).usb = s.usb ∧ (s.emit n).selfTest = s.selfTest ∧
    (s.emit n).jtag = s.jtag ∧ (s.emit n).junction = s.junction ∧ (s.emit n).crn = s.crn ∧ (s.emit n).cls = s.cls ∧
    (s.emit n).portsFailed = s.portsFailed ∧ (s.emit n).rebuilding = s.rebuilding ∧ (s.emit n).sparesOut = s.sparesOut ∧
    (s.emit n).flintLatched = s.flintLatched ∧ (s.emit n).pageSeq = s.pageSeq ∧ (s.emit n).nv = s.nv :=
  ⟨rfl, rfl, rfl, rfl, rfl, rfl, rfl, rfl, rfl, rfl, rfl, rfl, rfl, rfl, rfl, rfl, rfl, rfl, rfl, rfl, rfl, rfl, rfl, rfl, rfl,
    rfl, rfl, rfl, rfl, rfl, rfl, rfl, rfl, rfl, rfl, rfl, rfl, rfl⟩

@[simp] theorem State.emit_finds (s : State) (n : Out) :
    (∀ e, (s.emit n).engine e = s.engine e) ∧ (∀ e, (s.emit n).ring e = s.ring e) ∧ (∀ e, (s.emit n).chan e = s.chan e) ∧
    (∀ e, (s.emit n).vol e = s.vol e) ∧ (∀ e, (s.emit n).cairn e = s.cairn e) ∧ (∀ e, (s.emit n).lun e = s.lun e) ∧
    (∀ e, (s.emit n).fchan e = s.fchan e) ∧ (∀ e, (s.emit n).f e = s.f e) :=
  ⟨fun _ => rfl, fun _ => rfl, fun _ => rfl, fun _ => rfl, fun _ => rfl, fun _ => rfl, fun _ => rfl, fun _ => rfl⟩

@[simp] theorem State.touch_keeps (s : State) (n : Nat) :
    (s.touch n).pending = s.pending ∧ (s.touch n).dev = s.dev ∧ (s.touch n).csr = s.csr ∧ (s.touch n).staged = s.staged ∧
    (s.touch n).evr = s.evr ∧ (s.touch n).time = s.time ∧ (s.touch n).bas = s.bas ∧ (s.touch n).vcore = s.vcore ∧
    (s.touch n).led = s.led ∧ (s.touch n).pfw = s.pfw ∧ (s.touch n).drain = s.drain ∧ (s.touch n).start = s.start ∧
    (s.touch n).pcie = s.pcie ∧ (s.touch n).rings = s.rings ∧ (s.touch n).mbx = s.mbx ∧ (s.touch n).chans = s.chans ∧
    (s.touch n).alloc = s.alloc ∧ (s.touch n).str = s.str ∧ (s.touch n).eng = s.eng ∧ (s.touch n).hooks = s.hooks ∧
    (s.touch n).roles = s.roles ∧ (s.touch n).tab = s.tab ∧ (s.touch n).fl = s.fl ∧ (s.touch n).dram = s.dram ∧
    (s.touch n).fab = s.fab ∧ (s.touch n).img = s.img ∧ (s.touch n).usb = s.usb ∧ (s.touch n).selfTest = s.selfTest ∧
    (s.touch n).jtag = s.jtag ∧ (s.touch n).junction = s.junction ∧ (s.touch n).crn = s.crn ∧ (s.touch n).cls = s.cls ∧
    (s.touch n).portsFailed = s.portsFailed ∧ (s.touch n).rebuilding = s.rebuilding ∧ (s.touch n).sparesOut = s.sparesOut ∧
    (s.touch n).flintLatched = s.flintLatched ∧ (s.touch n).nv = s.nv ∧ (s.touch n).out = s.out :=
  ⟨rfl, rfl, rfl, rfl, rfl, rfl, rfl, rfl, rfl, rfl, rfl, rfl, rfl, rfl, rfl, rfl, rfl, rfl, rfl, rfl, rfl, rfl, rfl, rfl, rfl,
    rfl, rfl, rfl, rfl, rfl, rfl, rfl, rfl, rfl, rfl, rfl, rfl, rfl⟩

@[simp] theorem State.touch_finds (s : State) (n : Nat) :
    (∀ e, (s.touch n).engine e = s.engine e) ∧ (∀ e, (s.touch n).ring e = s.ring e) ∧ (∀ e, (s.touch n).chan e = s.chan e) ∧
    (∀ e, (s.touch n).vol e = s.vol e) ∧ (∀ e, (s.touch n).cairn e = s.cairn e) ∧ (∀ e, (s.touch n).lun e = s.lun e) ∧
    (∀ e, (s.touch n).fchan e = s.fchan e) ∧ (∀ e, (s.touch n).f e = s.f e) :=
  ⟨fun _ => rfl, fun _ => rfl, fun _ => rfl, fun _ => rfl, fun _ => rfl, fun _ => rfl, fun _ => rfl, fun _ => rfl⟩

@[simp] theorem State.bumpPlain_keeps (s : State) (n : Nat) :
    (s.bumpPlain n).pending = s.pending ∧ (s.bumpPlain n).dev = s.dev ∧ (s.bumpPlain n).csr = s.csr ∧
    (s.bumpPlain n).staged = s.staged ∧ (s.bumpPlain n).time = s.time ∧ (s.bumpPlain n).bas = s.bas ∧
    (s.bumpPlain n).vcore = s.vcore ∧ (s.bumpPlain n).led = s.led ∧ (s.bumpPlain n).pfw = s.pfw ∧
    (s.bumpPlain n).drain = s.drain ∧ (s.bumpPlain n).start = s.start ∧ (s.bumpPlain n).pcie = s.pcie ∧
    (s.bumpPlain n).rings = s.rings ∧ (s.bumpPlain n).mbx = s.mbx ∧ (s.bumpPlain n).chans = s.chans ∧
    (s.bumpPlain n).alloc = s.alloc ∧ (s.bumpPlain n).str = s.str ∧ (s.bumpPlain n).eng = s.eng ∧
    (s.bumpPlain n).hooks = s.hooks ∧ (s.bumpPlain n).roles = s.roles ∧ (s.bumpPlain n).tab = s.tab ∧ (s.bumpPlain n).fl = s.fl ∧
    (s.bumpPlain n).dram = s.dram ∧ (s.bumpPlain n).fab = s.fab ∧ (s.bumpPlain n).img = s.img ∧ (s.bumpPlain n).usb = s.usb ∧
    (s.bumpPlain n).selfTest = s.selfTest ∧ (s.bumpPlain n).jtag = s.jtag ∧ (s.bumpPlain n).junction = s.junction ∧
    (s.bumpPlain n).crn = s.crn ∧ (s.bumpPlain n).cls = s.cls ∧ (s.bumpPlain n).portsFailed = s.portsFailed ∧
    (s.bumpPlain n).rebuilding = s.rebuilding ∧ (s.bumpPlain n).sparesOut = s.sparesOut ∧
    (s.bumpPlain n).flintLatched = s.flintLatched ∧ (s.bumpPlain n).pageSeq = s.pageSeq ∧ (s.bumpPlain n).nv = s.nv ∧
    (s.bumpPlain n).out = s.out :=
  ⟨rfl, rfl, rfl, rfl, rfl, rfl, rfl, rfl, rfl, rfl, rfl, rfl, rfl, rfl, rfl, rfl, rfl, rfl, rfl, rfl, rfl, rfl, rfl, rfl, rfl,
    rfl, rfl, rfl, rfl, rfl, rfl, rfl, rfl, rfl, rfl, rfl, rfl, rfl⟩

@[simp] theorem State.bumpPlain_finds (s : State) (n : Nat) :
    (∀ e, (s.bumpPlain n).engine e = s.engine e) ∧ (∀ e, (s.bumpPlain n).ring e = s.ring e) ∧
    (∀ e, (s.bumpPlain n).chan e = s.chan e) ∧ (∀ e, (s.bumpPlain n).vol e = s.vol e) ∧
    (∀ e, (s.bumpPlain n).cairn e = s.cairn e) ∧ (∀ e, (s.bumpPlain n).lun e = s.lun e) ∧
    (∀ e, (s.bumpPlain n).fchan e = s.fchan e) ∧ (∀ e, (s.bumpPlain n).f e = s.f e) :=
  ⟨fun _ => rfl, fun _ => rfl, fun _ => rfl, fun _ => rfl, fun _ => rfl, fun _ => rfl, fun _ => rfl, fun _ => rfl⟩

@[simp] theorem State.countF_keeps (s : State) (n : Field) (r : Nat) :
    (s.countF n r).pending = s.pending ∧ (s.countF n r).dev = s.dev ∧ (s.countF n r).staged = s.staged ∧
    (s.countF n r).evr = s.evr ∧ (s.countF n r).time = s.time ∧ (s.countF n r).bas = s.bas ∧ (s.countF n r).vcore = s.vcore ∧
    (s.countF n r).led = s.led ∧ (s.countF n r).pfw = s.pfw ∧ (s.countF n r).drain = s.drain ∧ (s.countF n r).start = s.start ∧
    (s.countF n r).pcie = s.pcie ∧ (s.countF n r).rings = s.rings ∧ (s.countF n r).mbx = s.mbx ∧ (s.countF n r).chans = s.chans ∧
    (s.countF n r).alloc = s.alloc ∧ (s.countF n r).str = s.str ∧ (s.countF n r).eng = s.eng ∧ (s.countF n r).hooks = s.hooks ∧
    (s.countF n r).roles = s.roles ∧ (s.countF n r).tab = s.tab ∧ (s.countF n r).fl = s.fl ∧ (s.countF n r).dram = s.dram ∧
    (s.countF n r).fab = s.fab ∧ (s.countF n r).img = s.img ∧ (s.countF n r).usb = s.usb ∧ (s.countF n r).selfTest = s.selfTest ∧
    (s.countF n r).jtag = s.jtag ∧ (s.countF n r).junction = s.junction ∧ (s.countF n r).crn = s.crn ∧
    (s.countF n r).cls = s.cls ∧ (s.countF n r).portsFailed = s.portsFailed ∧ (s.countF n r).rebuilding = s.rebuilding ∧
    (s.countF n r).sparesOut = s.sparesOut ∧ (s.countF n r).flintLatched = s.flintLatched ∧ (s.countF n r).pageSeq = s.pageSeq ∧
    (s.countF n r).nv = s.nv ∧ (s.countF n r).out = s.out :=
  ⟨rfl, rfl, rfl, rfl, rfl, rfl, rfl, rfl, rfl, rfl, rfl, rfl, rfl, rfl, rfl, rfl, rfl, rfl, rfl, rfl, rfl, rfl, rfl, rfl, rfl,
    rfl, rfl, rfl, rfl, rfl, rfl, rfl, rfl, rfl, rfl, rfl, rfl, rfl⟩

@[simp] theorem State.countF_finds (s : State) (n : Field) (r : Nat) :
    (∀ e, (s.countF n r).engine e = s.engine e) ∧ (∀ e, (s.countF n r).ring e = s.ring e) ∧
    (∀ e, (s.countF n r).chan e = s.chan e) ∧ (∀ e, (s.countF n r).vol e = s.vol e) ∧ (∀ e, (s.countF n r).cairn e = s.cairn e) ∧
    (∀ e, (s.countF n r).lun e = s.lun e) ∧ (∀ e, (s.countF n r).fchan e = s.fchan e) :=
  ⟨fun _ => rfl, fun _ => rfl, fun _ => rfl, fun _ => rfl, fun _ => rfl, fun _ => rfl, fun _ => rfl⟩

/-! ### Lookups in an updated state -/

/-- An engine in the table of engines. -/
def engineAt (m : Map Engine) (e : Nat) : Engine := m.get {} e
@[simp] theorem State.engine_mk (x0 x1 x2 x3 x4 x5 x6 x7 x8 x9 x10 x11 x12 x13 x14 x15 x16 x17 x18 x19 x20 x21 x22 x23 x24 x25 x26 x27 x28 x29 x30 x31 x32 x33 x34 x35 x36 x37 x38 e) :
    (State.mk x0 x1 x2 x3 x4 x5 x6 x7 x8 x9 x10 x11 x12 x13 x14 x15 x16 x17 x18 x19 x20 x21 x22 x23 x24 x25 x26 x27 x28 x29 x30 x31 x32 x33 x34 x35 x36 x37 x38).engine e =
      engineAt x18 e := rfl
@[simp] theorem State.engine_get (s : State) (e : Nat) : engineAt s.eng e = s.engine e := rfl
@[simp] theorem State.ring_mk (x0 x1 x2 x3 x4 x5 x6 x7 x8 x9 x10 x11 x12 x13 x14 x15 x16 x17 x18 x19 x20 x21 x22 x23 x24 x25 x26 x27 x28 x29 x30 x31 x32 x33 x34 x35 x36 x37 x38 e) :
    (State.mk x0 x1 x2 x3 x4 x5 x6 x7 x8 x9 x10 x11 x12 x13 x14 x15 x16 x17 x18 x19 x20 x21 x22 x23 x24 x25 x26 x27 x28 x29 x30 x31 x32 x33 x34 x35 x36 x37 x38).ring e =
      Map.get {} x13 e := rfl
@[simp] theorem State.ring_get (s : State) (e : Nat) : Map.get {} s.rings e = s.ring e := rfl
@[simp] theorem State.chan_mk (x0 x1 x2 x3 x4 x5 x6 x7 x8 x9 x10 x11 x12 x13 x14 x15 x16 x17 x18 x19 x20 x21 x22 x23 x24 x25 x26 x27 x28 x29 x30 x31 x32 x33 x34 x35 x36 x37 x38 e) :
    (State.mk x0 x1 x2 x3 x4 x5 x6 x7 x8 x9 x10 x11 x12 x13 x14 x15 x16 x17 x18 x19 x20 x21 x22 x23 x24 x25 x26 x27 x28 x29 x30 x31 x32 x33 x34 x35 x36 x37 x38).chan e =
      Map.get {} x15 e := rfl
@[simp] theorem State.chan_get (s : State) (e : Nat) : Map.get {} s.chans e = s.chan e := rfl
@[simp] theorem State.vol_mk (x0 x1 x2 x3 x4 x5 x6 x7 x8 x9 x10 x11 x12 x13 x14 x15 x16 x17 x18 x19 x20 x21 x22 x23 x24 x25 x26 x27 x28 x29 x30 x31 x32 x33 x34 x35 x36 x37 x38 e) :
    (State.mk x0 x1 x2 x3 x4 x5 x6 x7 x8 x9 x10 x11 x12 x13 x14 x15 x16 x17 x18 x19 x20 x21 x22 x23 x24 x25 x26 x27 x28 x29 x30 x31 x32 x33 x34 x35 x36 x37 x38).vol e =
      Map.get {} (Nv.vols x37) e := rfl
@[simp] theorem State.vol_get (s : State) (e : Nat) : Map.get {} s.nv.vols e = s.vol e := rfl
@[simp] theorem State.cairn_mk (x0 x1 x2 x3 x4 x5 x6 x7 x8 x9 x10 x11 x12 x13 x14 x15 x16 x17 x18 x19 x20 x21 x22 x23 x24 x25 x26 x27 x28 x29 x30 x31 x32 x33 x34 x35 x36 x37 x38 e) :
    (State.mk x0 x1 x2 x3 x4 x5 x6 x7 x8 x9 x10 x11 x12 x13 x14 x15 x16 x17 x18 x19 x20 x21 x22 x23 x24 x25 x26 x27 x28 x29 x30 x31 x32 x33 x34 x35 x36 x37 x38).cairn e =
      Map.get {} (Nv.cairns x37) e := rfl
@[simp] theorem State.cairn_get (s : State) (e : Nat) : Map.get {} s.nv.cairns e = s.cairn e := rfl
@[simp] theorem State.lun_mk (x0 x1 x2 x3 x4 x5 x6 x7 x8 x9 x10 x11 x12 x13 x14 x15 x16 x17 x18 x19 x20 x21 x22 x23 x24 x25 x26 x27 x28 x29 x30 x31 x32 x33 x34 x35 x36 x37 x38 e) :
    (State.mk x0 x1 x2 x3 x4 x5 x6 x7 x8 x9 x10 x11 x12 x13 x14 x15 x16 x17 x18 x19 x20 x21 x22 x23 x24 x25 x26 x27 x28 x29 x30 x31 x32 x33 x34 x35 x36 x37 x38).lun e =
      Map.get {} (Nv.luns x37) e := rfl
@[simp] theorem State.lun_get (s : State) (e : Nat) : Map.get {} s.nv.luns e = s.lun e := rfl
@[simp] theorem State.fchan_mk (x0 x1 x2 x3 x4 x5 x6 x7 x8 x9 x10 x11 x12 x13 x14 x15 x16 x17 x18 x19 x20 x21 x22 x23 x24 x25 x26 x27 x28 x29 x30 x31 x32 x33 x34 x35 x36 x37 x38 e) :
    (State.mk x0 x1 x2 x3 x4 x5 x6 x7 x8 x9 x10 x11 x12 x13 x14 x15 x16 x17 x18 x19 x20 x21 x22 x23 x24 x25 x26 x27 x28 x29 x30 x31 x32 x33 x34 x35 x36 x37 x38).fchan e =
      Map.get {} (Flash.chans x22) e := rfl
@[simp] theorem State.fchan_get (s : State) (e : Nat) : Map.get {} s.fl.chans e = s.fchan e := rfl
@[simp] theorem State.lunRun_mk (x0 x1 x2 x3 x4 x5 x6 x7 x8 x9 x10 x11 x12 x13 x14 x15 x16 x17 x18 x19 x20 x21 x22 x23 x24 x25 x26 x27 x28 x29 x30 x31 x32 x33 x34 x35 x36 x37 x38 e) :
    (State.mk x0 x1 x2 x3 x4 x5 x6 x7 x8 x9 x10 x11 x12 x13 x14 x15 x16 x17 x18 x19 x20 x21 x22 x23 x24 x25 x26 x27 x28 x29 x30 x31 x32 x33 x34 x35 x36 x37 x38).lunRun e =
      Map.get {} (Flash.luns x22) e := rfl
@[simp] theorem State.lunRun_get (s : State) (e : Nat) : Map.get {} s.fl.luns e = s.lunRun e := rfl
@[simp] theorem State.conn_mk (x0 x1 x2 x3 x4 x5 x6 x7 x8 x9 x10 x11 x12 x13 x14 x15 x16 x17 x18 x19 x20 x21 x22 x23 x24 x25 x26 x27 x28 x29 x30 x31 x32 x33 x34 x35 x36 x37 x38 e) :
    (State.mk x0 x1 x2 x3 x4 x5 x6 x7 x8 x9 x10 x11 x12 x13 x14 x15 x16 x17 x18 x19 x20 x21 x22 x23 x24 x25 x26 x27 x28 x29 x30 x31 x32 x33 x34 x35 x36 x37 x38).conn e =
      Map.get {} (Fabric.conns x24) e := rfl
@[simp] theorem State.conn_get (s : State) (e : Nat) : Map.get {} s.fab.conns e = s.conn e := rfl
@[simp] theorem State.f_mk (x0 x1 x2 x3 x4 x5 x6 x7 x8 x9 x10 x11 x12 x13 x14 x15 x16 x17 x18 x19 x20 x21 x22 x23 x24 x25 x26 x27 x28 x29 x30 x31 x32 x33 x34 x35 x36 x37 x38 e) :
    (State.mk x0 x1 x2 x3 x4 x5 x6 x7 x8 x9 x10 x11 x12 x13 x14 x15 x16 x17 x18 x19 x20 x21 x22 x23 x24 x25 x26 x27 x28 x29 x30 x31 x32 x33 x34 x35 x36 x37 x38).f e =
      Map.get (Field.reset e) x2 (Field.key e) := rfl
@[simp] theorem State.f_get (s : State) (e : Field) : Map.get e.reset s.csr e.key = s.f e := rfl

/-! ### Parts of what `Steady` keeps -/

variable {s t : State}

theorem Steady.engine_k (k : Steady s t) (e : Nat) : (t.engine e).k = (s.engine e).k := by
  have q := congrArg Engine.k (k.eng e); exact q
theorem Steady.engine_z (k : Steady s t) (e : Nat) : (t.engine e).z = (s.engine e).z := by
  have q := congrArg Engine.z (k.eng e); exact q
theorem Steady.engine_n (k : Steady s t) (e : Nat) : (t.engine e).n = (s.engine e).n := by
  have q := congrArg Engine.n (k.eng e); exact q
theorem Steady.engine_c (k : Steady s t) (e : Nat) : (t.engine e).c = (s.engine e).c := by
  have q := congrArg Engine.c (k.eng e); exact q
theorem Steady.engine_v (k : Steady s t) (e : Nat) : (t.engine e).v = (s.engine e).v := by
  have q := congrArg Engine.v (k.eng e); exact q
theorem Steady.engine_pc (k : Steady s t) (e : Nat) : (t.engine e).pc = (s.engine e).pc := by
  have q := congrArg Engine.pc (k.eng e); exact q
theorem Steady.engine_run (k : Steady s t) (e : Nat) : (t.engine e).run = (s.engine e).run := by
  have q := congrArg Engine.run (k.eng e); exact q
theorem Steady.engine_waiting (k : Steady s t) (e : Nat) : (t.engine e).waiting = (s.engine e).waiting := by
  have q := congrArg Engine.waiting (k.eng e); exact q
theorem Steady.engine_fault (k : Steady s t) (e : Nat) : (t.engine e).fault = (s.engine e).fault := by
  have q := congrArg Engine.fault (k.eng e); exact q
theorem Steady.engine_cause (k : Steady s t) (e : Nat) : (t.engine e).cause = (s.engine e).cause := by
  have q := congrArg Engine.cause (k.eng e); exact q
theorem Steady.engine_fpc (k : Steady s t) (e : Nat) : (t.engine e).fpc = (s.engine e).fpc := by
  have q := congrArg Engine.fpc (k.eng e); exact q
theorem Steady.engine_dbg (k : Steady s t) (e : Nat) : (t.engine e).dbg = (s.engine e).dbg := by
  have q := congrArg Engine.dbg (k.eng e); exact q
theorem Steady.engine_stepping (k : Steady s t) (e : Nat) : (t.engine e).stepping = (s.engine e).stepping := by
  have q := congrArg Engine.stepping (k.eng e); exact q
theorem Steady.engine_prog (k : Steady s t) (e : Nat) : (t.engine e).prog = (s.engine e).prog := by
  have q := congrArg Engine.prog (k.eng e); exact q
theorem Steady.engine_data (k : Steady s t) (e : Nat) : (t.engine e).data = (s.engine e).data := by
  have q := congrArg Engine.data (k.eng e); exact q
theorem Steady.engine_upHold (k : Steady s t) (e : Nat) : (t.engine e).upHold = (s.engine e).upHold := by
  have q := congrArg Engine.upHold (k.eng e); exact q
theorem Steady.engine_calHold (k : Steady s t) (e : Nat) : (t.engine e).calHold = (s.engine e).calHold := by
  have q := congrArg Engine.calHold (k.eng e); exact q
theorem Steady.engine_loadRes (k : Steady s t) (e : Nat) : (t.engine e).loadRes = (s.engine e).loadRes := by
  have q := congrArg Engine.loadRes (k.eng e); exact q
theorem Steady.hooks_table (k : Steady s t) : t.hooks.table = s.hooks.table := by
  have q := congrArg Hooks.table k.hooks; exact q
theorem Steady.hooks_entry (k : Steady s t) : t.hooks.entry = s.hooks.entry := by
  have q := congrArg Hooks.entry k.hooks; exact q
theorem Steady.hooks_busy (k : Steady s t) : t.hooks.busy = s.hooks.busy := by
  have q := congrArg Hooks.busy k.hooks; exact q
theorem Steady.hooks_result (k : Steady s t) : t.hooks.result = s.hooks.result := by
  have q := congrArg Hooks.result k.hooks; exact q
theorem Steady.hooks_abandoned (k : Steady s t) : t.hooks.abandoned = s.hooks.abandoned := by
  have q := congrArg Hooks.abandoned k.hooks; exact q
theorem Steady.hooks_dbgRefused (k : Steady s t) : t.hooks.dbgRefused = s.hooks.dbgRefused := by
  have q := congrArg Hooks.dbgRefused k.hooks; exact q
theorem Steady.hooks_dbgAddr (k : Steady s t) : t.hooks.dbgAddr = s.hooks.dbgAddr := by
  have q := congrArg Hooks.dbgAddr k.hooks; exact q
theorem Steady.pcie_perstHeld (k : Steady s t) : t.pcie.perstHeld = s.pcie.perstHeld := by
  have q := congrArg Pcie.perstHeld k.pcie; exact q
theorem Steady.pcie_detect (k : Steady s t) : t.pcie.detect = s.pcie.detect := by
  have q := congrArg Pcie.detect k.pcie; exact q
theorem Steady.pcie_up (k : Steady s t) : t.pcie.up = s.pcie.up := by
  have q := congrArg Pcie.up k.pcie; exact q
theorem Steady.pcie_crs (k : Steady s t) : t.pcie.crs = s.pcie.crs := by
  have q := congrArg Pcie.crs k.pcie; exact q
theorem Steady.pcie_bme (k : Steady s t) : t.pcie.bme = s.pcie.bme := by
  have q := congrArg Pcie.bme k.pcie; exact q
theorem Steady.pcie_aer (k : Steady s t) : t.pcie.aer = s.pcie.aer := by
  have q := congrArg Pcie.aer k.pcie; exact q
theorem Steady.pcie_msixEn (k : Steady s t) : t.pcie.msixEn = s.pcie.msixEn := by
  have q := congrArg Pcie.msixEn k.pcie; exact q
theorem Steady.pcie_fnMask (k : Steady s t) : t.pcie.fnMask = s.pcie.fnMask := by
  have q := congrArg Pcie.fnMask k.pcie; exact q
theorem Steady.pcie_d3 (k : Steady s t) : t.pcie.d3 = s.pcie.d3 := by
  have q := congrArg Pcie.d3 k.pcie; exact q
theorem Steady.pcie_msix (k : Steady s t) : t.pcie.msix = s.pcie.msix := by
  have q := congrArg Pcie.msix k.pcie; exact q
theorem Steady.pcie_ltr (k : Steady s t) : t.pcie.ltr = s.pcie.ltr := by
  have q := congrArg Pcie.ltr k.pcie; exact q
theorem Steady.pcie_l1Asked (k : Steady s t) : t.pcie.l1Asked = s.pcie.l1Asked := by
  have q := congrArg Pcie.l1Asked k.pcie; exact q
theorem Steady.nv_amber (k : Steady s t) : t.nv.amber = s.nv.amber := by
  have q := congrArg Nv.amber k.nv; exact q
theorem Steady.nv_scree (k : Steady s t) : t.nv.scree = s.nv.scree := by
  have q := congrArg Nv.scree k.nv; exact q
theorem Steady.nv_screeSeq (k : Steady s t) : t.nv.screeSeq = s.nv.screeSeq := by
  have q := congrArg Nv.screeSeq k.nv; exact q
theorem Steady.nv_single (k : Steady s t) : t.nv.single = s.nv.single := by
  have q := congrArg Nv.single k.nv; exact q
theorem Steady.nv_savedTc (k : Steady s t) : t.nv.savedTc = s.nv.savedTc := by
  have q := congrArg Nv.savedTc k.nv; exact q
theorem Steady.nv_savedOpt (k : Steady s t) : t.nv.savedOpt = s.nv.savedOpt := by
  have q := congrArg Nv.savedOpt k.nv; exact q
theorem Steady.nv_savedCycles (k : Steady s t) : t.nv.savedCycles = s.nv.savedCycles := by
  have q := congrArg Nv.savedCycles k.nv; exact q
theorem Steady.nv_boot (k : Steady s t) : t.nv.boot = s.nv.boot := by
  have q := congrArg Nv.boot k.nv; exact q
theorem Steady.nv_vols (k : Steady s t) : t.nv.vols = s.nv.vols := by
  have q := congrArg Nv.vols k.nv; exact q
theorem Steady.nv_pins (k : Steady s t) : t.nv.pins = s.nv.pins := by
  have q := congrArg Nv.pins k.nv; exact q
theorem Steady.nv_loss (k : Steady s t) : t.nv.loss = s.nv.loss := by
  have q := congrArg Nv.loss k.nv; exact q
theorem Steady.nv_firings (k : Steady s t) : t.nv.firings = s.nv.firings := by
  have q := congrArg Nv.firings k.nv; exact q
theorem Steady.nv_config (k : Steady s t) : t.nv.config = s.nv.config := by
  have q := congrArg Nv.config k.nv; exact q
theorem Steady.nv_failed (k : Steady s t) : t.nv.failed = s.nv.failed := by
  have q := congrArg Nv.failed k.nv; exact q
theorem Steady.nv_measHist (k : Steady s t) : t.nv.measHist = s.nv.measHist := by
  have q := congrArg Nv.measHist k.nv; exact q
theorem Steady.nv_startHist (k : Steady s t) : t.nv.startHist = s.nv.startHist := by
  have q := congrArg Nv.startHist k.nv; exact q
theorem Steady.nv_paceFloor (k : Steady s t) : t.nv.paceFloor = s.nv.paceFloor := by
  have q := congrArg Nv.paceFloor k.nv; exact q
theorem Steady.nv_floor (k : Steady s t) : t.nv.floor = s.nv.floor := by
  have q := congrArg Nv.floor k.nv; exact q
theorem Steady.nv_luns (k : Steady s t) : t.nv.luns = s.nv.luns := by
  have q := congrArg Nv.luns k.nv; exact q
theorem Steady.nv_pools (k : Steady s t) : t.nv.pools = s.nv.pools := by
  have q := congrArg Nv.pools k.nv; exact q
theorem Steady.nv_keys (k : Steady s t) : t.nv.keys = s.nv.keys := by
  have q := congrArg Nv.keys k.nv; exact q
theorem Steady.nv_sanitize (k : Steady s t) : t.nv.sanitize = s.nv.sanitize := by
  have q := congrArg Nv.sanitize k.nv; exact q
theorem Steady.nv_sanDone (k : Steady s t) : t.nv.sanDone = s.nv.sanDone := by
  have q := congrArg Nv.sanDone k.nv; exact q
theorem Steady.nv_sanScope (k : Steady s t) : t.nv.sanScope = s.nv.sanScope := by
  have q := congrArg Nv.sanScope k.nv; exact q
theorem Steady.nv_lastMsn (k : Steady s t) : t.nv.lastMsn = s.nv.lastMsn := by
  have q := congrArg Nv.lastMsn k.nv; exact q
theorem Steady.nv_selfTests (k : Steady s t) : t.nv.selfTests = s.nv.selfTests := by
  have q := congrArg Nv.selfTests k.nv; exact q
theorem Steady.nv_lastSelf (k : Steady s t) : t.nv.lastSelf = s.nv.lastSelf := by
  have q := congrArg Nv.lastSelf k.nv; exact q
theorem Steady.nv_rebuilt (k : Steady s t) : t.nv.rebuilt = s.nv.rebuilt := by
  have q := congrArg Nv.rebuilt k.nv; exact q
theorem Steady.nv_stopCal (k : Steady s t) : t.nv.stopCal = s.nv.stopCal := by
  have q := congrArg Nv.stopCal k.nv; exact q
theorem Steady.nv_configOk (k : Steady s t) : t.nv.configOk = s.nv.configOk := by
  have q := congrArg Nv.configOk k.nv; exact q
theorem Steady.nv_journalOk (k : Steady s t) : t.nv.journalOk = s.nv.journalOk := by
  have q := congrArg Nv.journalOk k.nv; exact q
theorem Steady.nv_missing (k : Steady s t) : t.nv.missing = s.nv.missing := by
  have q := congrArg Nv.missing k.nv; exact q
theorem Steady.nv_drained (k : Steady s t) : t.nv.drained = s.nv.drained := by
  have q := congrArg Nv.drained k.nv; exact q
theorem Steady.nv_drainCut (k : Steady s t) : t.nv.drainCut = s.nv.drainCut := by
  have q := congrArg Nv.drainCut k.nv; exact q
theorem Steady.nv_drainFailed (k : Steady s t) : t.nv.drainFailed = s.nv.drainFailed := by
  have q := congrArg Nv.drainFailed k.nv; exact q
theorem Steady.nv_noManifest (k : Steady s t) : t.nv.noManifest = s.nv.noManifest := by
  have q := congrArg Nv.noManifest k.nv; exact q
theorem Steady.nv_lastStop (k : Steady s t) : t.nv.lastStop = s.nv.lastStop := by
  have q := congrArg Nv.lastStop k.nv; exact q
theorem Steady.at_vol (k : Steady s t) (e : Nat) : t.vol e = s.vol e := by simp only [State.vol, k.nv_vols]
theorem Steady.at_lun (k : Steady s t) (e : Nat) : t.lun e = s.lun e := by simp only [State.lun, k.nv_luns]
theorem Steady.at_fchan (k : Steady s t) (e : Nat) : t.fchan e = s.fchan e := by simp only [State.fchan, k.fl]
theorem Steady.at_lunRun (k : Steady s t) (e : Nat) : t.lunRun e = s.lunRun e := by simp only [State.lunRun, k.fl]
theorem Steady.at_conn (k : Steady s t) (e : Nat) : t.conn e = s.conn e := by simp only [State.conn, k.fab]
theorem Steady.at_chan (k : Steady s t) (e : Nat) : t.chan e = s.chan e := by simp only [State.chan, k.chans]

/-! ### The operations that only record and count -/

@[simp] theorem State.record_keeps (s : State) (code src p1 p2 p3 p4 : Nat) :
    (s.record code src p1 p2 p3 p4).pending = s.pending ∧ (s.record code src p1 p2 p3 p4).dev = s.dev ∧
    (s.record code src p1 p2 p3 p4).staged = s.staged ∧ (s.record code src p1 p2 p3 p4).time = s.time ∧
    (s.record code src p1 p2 p3 p4).bas = s.bas ∧ (s.record code src p1 p2 p3 p4).vcore = s.vcore ∧
    (s.record code src p1 p2 p3 p4).led = s.led ∧ (s.record code src p1 p2 p3 p4).pfw = s.pfw ∧
    (s.record code src p1 p2 p3 p4).drain = s.drain ∧ (s.record code src p1 p2 p3 p4).start = s.start ∧
    (s.record code src p1 p2 p3 p4).mbx = s.mbx ∧ (s.record code src p1 p2 p3 p4).chans = s.chans ∧
    (s.record code src p1 p2 p3 p4).alloc = s.alloc ∧ (s.record code src p1 p2 p3 p4).str = s.str ∧
    (s.record code src p1 p2 p3 p4).roles = s.roles ∧ (s.record code src p1 p2 p3 p4).tab = s.tab ∧
    (s.record code src p1 p2 p3 p4).fl = s.fl ∧ (s.record code src p1 p2 p3 p4).dram = s.dram ∧
    (s.record code src p1 p2 p3 p4).fab = s.fab ∧ (s.record code src p1 p2 p3 p4).img = s.img ∧
    (s.record code src p1 p2 p3 p4).usb = s.usb ∧ (s.record code src p1 p2 p3 p4).selfTest = s.selfTest ∧
    (s.record code src p1 p2 p3 p4).jtag = s.jtag ∧ (s.record code src p1 p2 p3 p4).junction = s.junction ∧
    (s.record code src p1 p2 p3 p4).portsFailed = s.portsFailed ∧ (s.record code src p1 p2 p3 p4).rebuilding = s.rebuilding ∧
    (s.record code src p1 p2 p3 p4).sparesOut = s.sparesOut ∧ (s.record code src p1 p2 p3 p4).flintLatched = s.flintLatched ∧
    (∀ e, ((s.record code src p1 p2 p3 p4).engine e).k = (s.engine e).k) ∧
    (∀ e, ((s.record code src p1 p2 p3 p4).engine e).z = (s.engine e).z) ∧
    (∀ e, ((s.record code src p1 p2 p3 p4).engine e).n = (s.engine e).n) ∧
    (∀ e, ((s.record code src p1 p2 p3 p4).engine e).c = (s.engine e).c) ∧
    (∀ e, ((s.record code src p1 p2 p3 p4).engine e).v = (s.engine e).v) ∧
    (∀ e, ((s.record code src p1 p2 p3 p4).engine e).pc = (s.engine e).pc) ∧
    (∀ e, ((s.record code src p1 p2 p3 p4).engine e).run = (s.engine e).run) ∧
    (∀ e, ((s.record code src p1 p2 p3 p4).engine e).waiting = (s.engine e).waiting) ∧
    (∀ e, ((s.record code src p1 p2 p3 p4).engine e).fault = (s.engine e).fault) ∧
    (∀ e, ((s.record code src p1 p2 p3 p4).engine e).cause = (s.engine e).cause) ∧
    (∀ e, ((s.record code src p1 p2 p3 p4).engine e).fpc = (s.engine e).fpc) ∧
    (∀ e, ((s.record code src p1 p2 p3 p4).engine e).dbg = (s.engine e).dbg) ∧
    (∀ e, ((s.record code src p1 p2 p3 p4).engine e).stepping = (s.engine e).stepping) ∧
    (∀ e, ((s.record code src p1 p2 p3 p4).engine e).prog = (s.engine e).prog) ∧
    (∀ e, ((s.record code src p1 p2 p3 p4).engine e).data = (s.engine e).data) ∧
    (∀ e, ((s.record code src p1 p2 p3 p4).engine e).upHold = (s.engine e).upHold) ∧
    (∀ e, ((s.record code src p1 p2 p3 p4).engine e).calHold = (s.engine e).calHold) ∧
    (∀ e, ((s.record code src p1 p2 p3 p4).engine e).loadRes = (s.engine e).loadRes) ∧
    (s.record code src p1 p2 p3 p4).hooks.table = s.hooks.table ∧ (s.record code src p1 p2 p3 p4).hooks.entry = s.hooks.entry ∧
    (s.record code src p1 p2 p3 p4).hooks.busy = s.hooks.busy ∧ (s.record code src p1 p2 p3 p4).hooks.result = s.hooks.result ∧
    (s.record code src p1 p2 p3 p4).hooks.abandoned = s.hooks.abandoned ∧
    (s.record code src p1 p2 p3 p4).hooks.dbgRefused = s.hooks.dbgRefused ∧
    (s.record code src p1 p2 p3 p4).hooks.dbgAddr = s.hooks.dbgAddr ∧
    (s.record code src p1 p2 p3 p4).pcie.perstHeld = s.pcie.perstHeld ∧
    (s.record code src p1 p2 p3 p4).pcie.detect = s.pcie.detect ∧ (s.record code src p1 p2 p3 p4).pcie.up = s.pcie.up ∧
    (s.record code src p1 p2 p3 p4).pcie.crs = s.pcie.crs ∧ (s.record code src p1 p2 p3 p4).pcie.bme = s.pcie.bme ∧
    (s.record code src p1 p2 p3 p4).pcie.aer = s.pcie.aer ∧ (s.record code src p1 p2 p3 p4).pcie.msixEn = s.pcie.msixEn ∧
    (s.record code src p1 p2 p3 p4).pcie.fnMask = s.pcie.fnMask ∧ (s.record code src p1 p2 p3 p4).pcie.d3 = s.pcie.d3 ∧
    (s.record code src p1 p2 p3 p4).pcie.msix = s.pcie.msix ∧ (s.record code src p1 p2 p3 p4).pcie.ltr = s.pcie.ltr ∧
    (s.record code src p1 p2 p3 p4).pcie.l1Asked = s.pcie.l1Asked ∧ (s.record code src p1 p2 p3 p4).nv.amber = s.nv.amber ∧
    (s.record code src p1 p2 p3 p4).nv.scree = s.nv.scree ∧ (s.record code src p1 p2 p3 p4).nv.screeSeq = s.nv.screeSeq ∧
    (s.record code src p1 p2 p3 p4).nv.single = s.nv.single ∧ (s.record code src p1 p2 p3 p4).nv.savedTc = s.nv.savedTc ∧
    (s.record code src p1 p2 p3 p4).nv.savedOpt = s.nv.savedOpt ∧
    (s.record code src p1 p2 p3 p4).nv.savedCycles = s.nv.savedCycles ∧ (s.record code src p1 p2 p3 p4).nv.boot = s.nv.boot ∧
    (s.record code src p1 p2 p3 p4).nv.vols = s.nv.vols ∧ (s.record code src p1 p2 p3 p4).nv.pins = s.nv.pins ∧
    (s.record code src p1 p2 p3 p4).nv.loss = s.nv.loss ∧ (s.record code src p1 p2 p3 p4).nv.firings = s.nv.firings ∧
    (s.record code src p1 p2 p3 p4).nv.config = s.nv.config ∧ (s.record code src p1 p2 p3 p4).nv.failed = s.nv.failed ∧
    (s.record code src p1 p2 p3 p4).nv.measHist = s.nv.measHist ∧ (s.record code src p1 p2 p3 p4).nv.startHist = s.nv.startHist ∧
    (s.record code src p1 p2 p3 p4).nv.paceFloor = s.nv.paceFloor ∧ (s.record code src p1 p2 p3 p4).nv.floor = s.nv.floor ∧
    (s.record code src p1 p2 p3 p4).nv.luns = s.nv.luns ∧ (s.record code src p1 p2 p3 p4).nv.pools = s.nv.pools ∧
    (s.record code src p1 p2 p3 p4).nv.keys = s.nv.keys ∧ (s.record code src p1 p2 p3 p4).nv.sanitize = s.nv.sanitize ∧
    (s.record code src p1 p2 p3 p4).nv.sanDone = s.nv.sanDone ∧ (s.record code src p1 p2 p3 p4).nv.sanScope = s.nv.sanScope ∧
    (s.record code src p1 p2 p3 p4).nv.lastMsn = s.nv.lastMsn ∧ (s.record code src p1 p2 p3 p4).nv.selfTests = s.nv.selfTests ∧
    (s.record code src p1 p2 p3 p4).nv.lastSelf = s.nv.lastSelf ∧ (s.record code src p1 p2 p3 p4).nv.rebuilt = s.nv.rebuilt ∧
    (s.record code src p1 p2 p3 p4).nv.stopCal = s.nv.stopCal ∧ (s.record code src p1 p2 p3 p4).nv.configOk = s.nv.configOk ∧
    (s.record code src p1 p2 p3 p4).nv.journalOk = s.nv.journalOk ∧ (s.record code src p1 p2 p3 p4).nv.missing = s.nv.missing ∧
    (s.record code src p1 p2 p3 p4).nv.drained = s.nv.drained ∧ (s.record code src p1 p2 p3 p4).nv.drainCut = s.nv.drainCut ∧
    (s.record code src p1 p2 p3 p4).nv.drainFailed = s.nv.drainFailed ∧
    (s.record code src p1 p2 p3 p4).nv.noManifest = s.nv.noManifest ∧ (s.record code src p1 p2 p3 p4).nv.lastStop = s.nv.lastStop := by
  have k := s.record_steady code src p1 p2 p3 p4
  exact ⟨k.pending, k.dev, k.staged, k.time, k.bas, k.vcore, k.led, k.pfw, k.drain, k.start, k.mbx, k.chans, k.alloc, k.str, k.roles,
    k.tab, k.fl, k.dram, k.fab, k.img, k.usb, k.selfTest, k.jtag, k.junction, k.portsFailed, k.rebuilding, k.sparesOut,
    k.flintLatched, k.engine_k, k.engine_z, k.engine_n, k.engine_c, k.engine_v, k.engine_pc, k.engine_run, k.engine_waiting,
    k.engine_fault, k.engine_cause, k.engine_fpc, k.engine_dbg, k.engine_stepping, k.engine_prog, k.engine_data, k.engine_upHold,
    k.engine_calHold, k.engine_loadRes, k.hooks_table, k.hooks_entry, k.hooks_busy, k.hooks_result, k.hooks_abandoned,
    k.hooks_dbgRefused, k.hooks_dbgAddr, k.pcie_perstHeld, k.pcie_detect, k.pcie_up, k.pcie_crs, k.pcie_bme, k.pcie_aer,
    k.pcie_msixEn, k.pcie_fnMask, k.pcie_d3, k.pcie_msix, k.pcie_ltr, k.pcie_l1Asked, k.nv_amber, k.nv_scree, k.nv_screeSeq,
    k.nv_single, k.nv_savedTc, k.nv_savedOpt, k.nv_savedCycles, k.nv_boot, k.nv_vols, k.nv_pins, k.nv_loss, k.nv_firings,
    k.nv_config, k.nv_failed, k.nv_measHist, k.nv_startHist, k.nv_paceFloor, k.nv_floor, k.nv_luns, k.nv_pools, k.nv_keys,
    k.nv_sanitize, k.nv_sanDone, k.nv_sanScope, k.nv_lastMsn, k.nv_selfTests, k.nv_lastSelf, k.nv_rebuilt, k.nv_stopCal,
    k.nv_configOk, k.nv_journalOk, k.nv_missing, k.nv_drained, k.nv_drainCut, k.nv_drainFailed, k.nv_noManifest, k.nv_lastStop⟩

@[simp] theorem State.record_finds (s : State) (code src p1 p2 p3 p4 : Nat) :
    (∀ e, (s.record code src p1 p2 p3 p4).vol e = s.vol e) ∧ (∀ e, (s.record code src p1 p2 p3 p4).lun e = s.lun e) ∧
    (∀ e, (s.record code src p1 p2 p3 p4).fchan e = s.fchan e) ∧ (∀ e, (s.record code src p1 p2 p3 p4).lunRun e = s.lunRun e) ∧
    (∀ e, (s.record code src p1 p2 p3 p4).conn e = s.conn e) ∧ (∀ e, (s.record code src p1 p2 p3 p4).chan e = s.chan e) := by
  have k := s.record_steady code src p1 p2 p3 p4
  exact ⟨k.at_vol, k.at_lun, k.at_fchan, k.at_lunRun, k.at_conn, k.at_chan⟩

@[simp] theorem State.bump_keeps (s : State) (i : Nat) :
    (s.bump i).pending = s.pending ∧ (s.bump i).dev = s.dev ∧ (s.bump i).staged = s.staged ∧ (s.bump i).time = s.time ∧
    (s.bump i).bas = s.bas ∧ (s.bump i).vcore = s.vcore ∧ (s.bump i).led = s.led ∧ (s.bump i).pfw = s.pfw ∧
    (s.bump i).drain = s.drain ∧ (s.bump i).start = s.start ∧ (s.bump i).mbx = s.mbx ∧ (s.bump i).chans = s.chans ∧
    (s.bump i).alloc = s.alloc ∧ (s.bump i).str = s.str ∧ (s.bump i).roles = s.roles ∧ (s.bump i).tab = s.tab ∧
    (s.bump i).fl = s.fl ∧ (s.bump i).dram = s.dram ∧ (s.bump i).fab = s.fab ∧ (s.bump i).img = s.img ∧ (s.bump i).usb = s.usb ∧
    (s.bump i).selfTest = s.selfTest ∧ (s.bump i).jtag = s.jtag ∧ (s.bump i).junction = s.junction ∧
    (s.bump i).portsFailed = s.portsFailed ∧ (s.bump i).rebuilding = s.rebuilding ∧ (s.bump i).sparesOut = s.sparesOut ∧
    (s.bump i).flintLatched = s.flintLatched ∧ (∀ e, ((s.bump i).engine e).k = (s.engine e).k) ∧
    (∀ e, ((s.bump i).engine e).z = (s.engine e).z) ∧ (∀ e, ((s.bump i).engine e).n = (s.engine e).n) ∧
    (∀ e, ((s.bump i).engine e).c = (s.engine e).c) ∧ (∀ e, ((s.bump i).engine e).v = (s.engine e).v) ∧
    (∀ e, ((s.bump i).engine e).pc = (s.engine e).pc) ∧ (∀ e, ((s.bump i).engine e).run = (s.engine e).run) ∧
    (∀ e, ((s.bump i).engine e).waiting = (s.engine e).waiting) ∧ (∀ e, ((s.bump i).engine e).fault = (s.engine e).fault) ∧
    (∀ e, ((s.bump i).engine e).cause = (s.engine e).cause) ∧ (∀ e, ((s.bump i).engine e).fpc = (s.engine e).fpc) ∧
    (∀ e, ((s.bump i).engine e).dbg = (s.engine e).dbg) ∧ (∀ e, ((s.bump i).engine e).stepping = (s.engine e).stepping) ∧
    (∀ e, ((s.bump i).engine e).prog = (s.engine e).prog) ∧ (∀ e, ((s.bump i).engine e).data = (s.engine e).data) ∧
    (∀ e, ((s.bump i).engine e).upHold = (s.engine e).upHold) ∧ (∀ e, ((s.bump i).engine e).calHold = (s.engine e).calHold) ∧
    (∀ e, ((s.bump i).engine e).loadRes = (s.engine e).loadRes) ∧ (s.bump i).hooks.table = s.hooks.table ∧
    (s.bump i).hooks.entry = s.hooks.entry ∧ (s.bump i).hooks.busy = s.hooks.busy ∧ (s.bump i).hooks.result = s.hooks.result ∧
    (s.bump i).hooks.abandoned = s.hooks.abandoned ∧ (s.bump i).hooks.dbgRefused = s.hooks.dbgRefused ∧
    (s.bump i).hooks.dbgAddr = s.hooks.dbgAddr ∧ (s.bump i).pcie.perstHeld = s.pcie.perstHeld ∧
    (s.bump i).pcie.detect = s.pcie.detect ∧ (s.bump i).pcie.up = s.pcie.up ∧ (s.bump i).pcie.crs = s.pcie.crs ∧
    (s.bump i).pcie.bme = s.pcie.bme ∧ (s.bump i).pcie.aer = s.pcie.aer ∧ (s.bump i).pcie.msixEn = s.pcie.msixEn ∧
    (s.bump i).pcie.fnMask = s.pcie.fnMask ∧ (s.bump i).pcie.d3 = s.pcie.d3 ∧ (s.bump i).pcie.msix = s.pcie.msix ∧
    (s.bump i).pcie.ltr = s.pcie.ltr ∧ (s.bump i).pcie.l1Asked = s.pcie.l1Asked ∧ (s.bump i).nv.amber = s.nv.amber ∧
    (s.bump i).nv.scree = s.nv.scree ∧ (s.bump i).nv.screeSeq = s.nv.screeSeq ∧ (s.bump i).nv.single = s.nv.single ∧
    (s.bump i).nv.savedTc = s.nv.savedTc ∧ (s.bump i).nv.savedOpt = s.nv.savedOpt ∧
    (s.bump i).nv.savedCycles = s.nv.savedCycles ∧ (s.bump i).nv.boot = s.nv.boot ∧ (s.bump i).nv.vols = s.nv.vols ∧
    (s.bump i).nv.pins = s.nv.pins ∧ (s.bump i).nv.loss = s.nv.loss ∧ (s.bump i).nv.firings = s.nv.firings ∧
    (s.bump i).nv.config = s.nv.config ∧ (s.bump i).nv.failed = s.nv.failed ∧ (s.bump i).nv.measHist = s.nv.measHist ∧
    (s.bump i).nv.startHist = s.nv.startHist ∧ (s.bump i).nv.paceFloor = s.nv.paceFloor ∧ (s.bump i).nv.floor = s.nv.floor ∧
    (s.bump i).nv.luns = s.nv.luns ∧ (s.bump i).nv.pools = s.nv.pools ∧ (s.bump i).nv.keys = s.nv.keys ∧
    (s.bump i).nv.sanitize = s.nv.sanitize ∧ (s.bump i).nv.sanDone = s.nv.sanDone ∧ (s.bump i).nv.sanScope = s.nv.sanScope ∧
    (s.bump i).nv.lastMsn = s.nv.lastMsn ∧ (s.bump i).nv.selfTests = s.nv.selfTests ∧ (s.bump i).nv.lastSelf = s.nv.lastSelf ∧
    (s.bump i).nv.rebuilt = s.nv.rebuilt ∧ (s.bump i).nv.stopCal = s.nv.stopCal ∧ (s.bump i).nv.configOk = s.nv.configOk ∧
    (s.bump i).nv.journalOk = s.nv.journalOk ∧ (s.bump i).nv.missing = s.nv.missing ∧ (s.bump i).nv.drained = s.nv.drained ∧
    (s.bump i).nv.drainCut = s.nv.drainCut ∧ (s.bump i).nv.drainFailed = s.nv.drainFailed ∧
    (s.bump i).nv.noManifest = s.nv.noManifest ∧ (s.bump i).nv.lastStop = s.nv.lastStop := by
  have k := s.bump_steady i
  exact ⟨k.pending, k.dev, k.staged, k.time, k.bas, k.vcore, k.led, k.pfw, k.drain, k.start, k.mbx, k.chans, k.alloc, k.str, k.roles,
    k.tab, k.fl, k.dram, k.fab, k.img, k.usb, k.selfTest, k.jtag, k.junction, k.portsFailed, k.rebuilding, k.sparesOut,
    k.flintLatched, k.engine_k, k.engine_z, k.engine_n, k.engine_c, k.engine_v, k.engine_pc, k.engine_run, k.engine_waiting,
    k.engine_fault, k.engine_cause, k.engine_fpc, k.engine_dbg, k.engine_stepping, k.engine_prog, k.engine_data, k.engine_upHold,
    k.engine_calHold, k.engine_loadRes, k.hooks_table, k.hooks_entry, k.hooks_busy, k.hooks_result, k.hooks_abandoned,
    k.hooks_dbgRefused, k.hooks_dbgAddr, k.pcie_perstHeld, k.pcie_detect, k.pcie_up, k.pcie_crs, k.pcie_bme, k.pcie_aer,
    k.pcie_msixEn, k.pcie_fnMask, k.pcie_d3, k.pcie_msix, k.pcie_ltr, k.pcie_l1Asked, k.nv_amber, k.nv_scree, k.nv_screeSeq,
    k.nv_single, k.nv_savedTc, k.nv_savedOpt, k.nv_savedCycles, k.nv_boot, k.nv_vols, k.nv_pins, k.nv_loss, k.nv_firings,
    k.nv_config, k.nv_failed, k.nv_measHist, k.nv_startHist, k.nv_paceFloor, k.nv_floor, k.nv_luns, k.nv_pools, k.nv_keys,
    k.nv_sanitize, k.nv_sanDone, k.nv_sanScope, k.nv_lastMsn, k.nv_selfTests, k.nv_lastSelf, k.nv_rebuilt, k.nv_stopCal,
    k.nv_configOk, k.nv_journalOk, k.nv_missing, k.nv_drained, k.nv_drainCut, k.nv_drainFailed, k.nv_noManifest, k.nv_lastStop⟩

@[simp] theorem State.bump_finds (s : State) (i : Nat) :
    (∀ e, (s.bump i).vol e = s.vol e) ∧ (∀ e, (s.bump i).lun e = s.lun e) ∧ (∀ e, (s.bump i).fchan e = s.fchan e) ∧
    (∀ e, (s.bump i).lunRun e = s.lunRun e) ∧ (∀ e, (s.bump i).conn e = s.conn e) ∧ (∀ e, (s.bump i).chan e = s.chan e) := by
  have k := s.bump_steady i
  exact ⟨k.at_vol, k.at_lun, k.at_fchan, k.at_lunRun, k.at_conn, k.at_chan⟩

@[simp] theorem State.late_keeps (s : State) :
    (s.late).pending = s.pending ∧ (s.late).dev = s.dev ∧ (s.late).staged = s.staged ∧ (s.late).time = s.time ∧
    (s.late).bas = s.bas ∧ (s.late).vcore = s.vcore ∧ (s.late).led = s.led ∧ (s.late).pfw = s.pfw ∧ (s.late).drain = s.drain ∧
    (s.late).start = s.start ∧ (s.late).mbx = s.mbx ∧ (s.late).chans = s.chans ∧ (s.late).alloc = s.alloc ∧
    (s.late).str = s.str ∧ (s.late).roles = s.roles ∧ (s.late).tab = s.tab ∧ (s.late).fl = s.fl ∧ (s.late).dram = s.dram ∧
    (s.late).fab = s.fab ∧ (s.late).img = s.img ∧ (s.late).usb = s.usb ∧ (s.late).selfTest = s.selfTest ∧
    (s.late).jtag = s.jtag ∧ (s.late).junction = s.junction ∧ (s.late).portsFailed = s.portsFailed ∧
    (s.late).rebuilding = s.rebuilding ∧ (s.late).sparesOut = s.sparesOut ∧ (s.late).flintLatched = s.flintLatched ∧
    (∀ e, ((s.late).engine e).k = (s.engine e).k) ∧ (∀ e, ((s.late).engine e).z = (s.engine e).z) ∧
    (∀ e, ((s.late).engine e).n = (s.engine e).n) ∧ (∀ e, ((s.late).engine e).c = (s.engine e).c) ∧
    (∀ e, ((s.late).engine e).v = (s.engine e).v) ∧ (∀ e, ((s.late).engine e).pc = (s.engine e).pc) ∧
    (∀ e, ((s.late).engine e).run = (s.engine e).run) ∧ (∀ e, ((s.late).engine e).waiting = (s.engine e).waiting) ∧
    (∀ e, ((s.late).engine e).fault = (s.engine e).fault) ∧ (∀ e, ((s.late).engine e).cause = (s.engine e).cause) ∧
    (∀ e, ((s.late).engine e).fpc = (s.engine e).fpc) ∧ (∀ e, ((s.late).engine e).dbg = (s.engine e).dbg) ∧
    (∀ e, ((s.late).engine e).stepping = (s.engine e).stepping) ∧ (∀ e, ((s.late).engine e).prog = (s.engine e).prog) ∧
    (∀ e, ((s.late).engine e).data = (s.engine e).data) ∧ (∀ e, ((s.late).engine e).upHold = (s.engine e).upHold) ∧
    (∀ e, ((s.late).engine e).calHold = (s.engine e).calHold) ∧ (∀ e, ((s.late).engine e).loadRes = (s.engine e).loadRes) ∧
    (s.late).hooks.table = s.hooks.table ∧ (s.late).hooks.entry = s.hooks.entry ∧ (s.late).hooks.busy = s.hooks.busy ∧
    (s.late).hooks.result = s.hooks.result ∧ (s.late).hooks.abandoned = s.hooks.abandoned ∧
    (s.late).hooks.dbgRefused = s.hooks.dbgRefused ∧ (s.late).hooks.dbgAddr = s.hooks.dbgAddr ∧
    (s.late).pcie.perstHeld = s.pcie.perstHeld ∧ (s.late).pcie.detect = s.pcie.detect ∧ (s.late).pcie.up = s.pcie.up ∧
    (s.late).pcie.crs = s.pcie.crs ∧ (s.late).pcie.bme = s.pcie.bme ∧ (s.late).pcie.aer = s.pcie.aer ∧
    (s.late).pcie.msixEn = s.pcie.msixEn ∧ (s.late).pcie.fnMask = s.pcie.fnMask ∧ (s.late).pcie.d3 = s.pcie.d3 ∧
    (s.late).pcie.msix = s.pcie.msix ∧ (s.late).pcie.ltr = s.pcie.ltr ∧ (s.late).pcie.l1Asked = s.pcie.l1Asked ∧
    (s.late).nv.amber = s.nv.amber ∧ (s.late).nv.scree = s.nv.scree ∧ (s.late).nv.screeSeq = s.nv.screeSeq ∧
    (s.late).nv.single = s.nv.single ∧ (s.late).nv.savedTc = s.nv.savedTc ∧ (s.late).nv.savedOpt = s.nv.savedOpt ∧
    (s.late).nv.savedCycles = s.nv.savedCycles ∧ (s.late).nv.boot = s.nv.boot ∧ (s.late).nv.vols = s.nv.vols ∧
    (s.late).nv.pins = s.nv.pins ∧ (s.late).nv.loss = s.nv.loss ∧ (s.late).nv.firings = s.nv.firings ∧
    (s.late).nv.config = s.nv.config ∧ (s.late).nv.failed = s.nv.failed ∧ (s.late).nv.measHist = s.nv.measHist ∧
    (s.late).nv.startHist = s.nv.startHist ∧ (s.late).nv.paceFloor = s.nv.paceFloor ∧ (s.late).nv.floor = s.nv.floor ∧
    (s.late).nv.luns = s.nv.luns ∧ (s.late).nv.pools = s.nv.pools ∧ (s.late).nv.keys = s.nv.keys ∧
    (s.late).nv.sanitize = s.nv.sanitize ∧ (s.late).nv.sanDone = s.nv.sanDone ∧ (s.late).nv.sanScope = s.nv.sanScope ∧
    (s.late).nv.lastMsn = s.nv.lastMsn ∧ (s.late).nv.selfTests = s.nv.selfTests ∧ (s.late).nv.lastSelf = s.nv.lastSelf ∧
    (s.late).nv.rebuilt = s.nv.rebuilt ∧ (s.late).nv.stopCal = s.nv.stopCal ∧ (s.late).nv.configOk = s.nv.configOk ∧
    (s.late).nv.journalOk = s.nv.journalOk ∧ (s.late).nv.missing = s.nv.missing ∧ (s.late).nv.drained = s.nv.drained ∧
    (s.late).nv.drainCut = s.nv.drainCut ∧ (s.late).nv.drainFailed = s.nv.drainFailed ∧
    (s.late).nv.noManifest = s.nv.noManifest ∧ (s.late).nv.lastStop = s.nv.lastStop := by
  have k := s.late_steady
  exact ⟨k.pending, k.dev, k.staged, k.time, k.bas, k.vcore, k.led, k.pfw, k.drain, k.start, k.mbx, k.chans, k.alloc, k.str, k.roles,
    k.tab, k.fl, k.dram, k.fab, k.img, k.usb, k.selfTest, k.jtag, k.junction, k.portsFailed, k.rebuilding, k.sparesOut,
    k.flintLatched, k.engine_k, k.engine_z, k.engine_n, k.engine_c, k.engine_v, k.engine_pc, k.engine_run, k.engine_waiting,
    k.engine_fault, k.engine_cause, k.engine_fpc, k.engine_dbg, k.engine_stepping, k.engine_prog, k.engine_data, k.engine_upHold,
    k.engine_calHold, k.engine_loadRes, k.hooks_table, k.hooks_entry, k.hooks_busy, k.hooks_result, k.hooks_abandoned,
    k.hooks_dbgRefused, k.hooks_dbgAddr, k.pcie_perstHeld, k.pcie_detect, k.pcie_up, k.pcie_crs, k.pcie_bme, k.pcie_aer,
    k.pcie_msixEn, k.pcie_fnMask, k.pcie_d3, k.pcie_msix, k.pcie_ltr, k.pcie_l1Asked, k.nv_amber, k.nv_scree, k.nv_screeSeq,
    k.nv_single, k.nv_savedTc, k.nv_savedOpt, k.nv_savedCycles, k.nv_boot, k.nv_vols, k.nv_pins, k.nv_loss, k.nv_firings,
    k.nv_config, k.nv_failed, k.nv_measHist, k.nv_startHist, k.nv_paceFloor, k.nv_floor, k.nv_luns, k.nv_pools, k.nv_keys,
    k.nv_sanitize, k.nv_sanDone, k.nv_sanScope, k.nv_lastMsn, k.nv_selfTests, k.nv_lastSelf, k.nv_rebuilt, k.nv_stopCal,
    k.nv_configOk, k.nv_journalOk, k.nv_missing, k.nv_drained, k.nv_drainCut, k.nv_drainFailed, k.nv_noManifest, k.nv_lastStop⟩

@[simp] theorem State.late_finds (s : State) :
    (∀ e, (s.late).vol e = s.vol e) ∧ (∀ e, (s.late).lun e = s.lun e) ∧ (∀ e, (s.late).fchan e = s.fchan e) ∧
    (∀ e, (s.late).lunRun e = s.lunRun e) ∧ (∀ e, (s.late).conn e = s.conn e) ∧ (∀ e, (s.late).chan e = s.chan e) := by
  have k := s.late_steady
  exact ⟨k.at_vol, k.at_lun, k.at_fchan, k.at_lunRun, k.at_conn, k.at_chan⟩

@[simp] theorem State.ignoredWrite_keeps (s : State) :
    (s.ignoredWrite).pending = s.pending ∧ (s.ignoredWrite).dev = s.dev ∧ (s.ignoredWrite).staged = s.staged ∧
    (s.ignoredWrite).time = s.time ∧ (s.ignoredWrite).bas = s.bas ∧ (s.ignoredWrite).vcore = s.vcore ∧
    (s.ignoredWrite).led = s.led ∧ (s.ignoredWrite).pfw = s.pfw ∧ (s.ignoredWrite).drain = s.drain ∧
    (s.ignoredWrite).start = s.start ∧ (s.ignoredWrite).mbx = s.mbx ∧ (s.ignoredWrite).chans = s.chans ∧
    (s.ignoredWrite).alloc = s.alloc ∧ (s.ignoredWrite).str = s.str ∧ (s.ignoredWrite).roles = s.roles ∧
    (s.ignoredWrite).tab = s.tab ∧ (s.ignoredWrite).fl = s.fl ∧ (s.ignoredWrite).dram = s.dram ∧ (s.ignoredWrite).fab = s.fab ∧
    (s.ignoredWrite).img = s.img ∧ (s.ignoredWrite).usb = s.usb ∧ (s.ignoredWrite).selfTest = s.selfTest ∧
    (s.ignoredWrite).jtag = s.jtag ∧ (s.ignoredWrite).junction = s.junction ∧ (s.ignoredWrite).portsFailed = s.portsFailed ∧
    (s.ignoredWrite).rebuilding = s.rebuilding ∧ (s.ignoredWrite).sparesOut = s.sparesOut ∧
    (s.ignoredWrite).flintLatched = s.flintLatched ∧ (∀ e, ((s.ignoredWrite).engine e).k = (s.engine e).k) ∧
    (∀ e, ((s.ignoredWrite).engine e).z = (s.engine e).z) ∧ (∀ e, ((s.ignoredWrite).engine e).n = (s.engine e).n) ∧
    (∀ e, ((s.ignoredWrite).engine e).c = (s.engine e).c) ∧ (∀ e, ((s.ignoredWrite).engine e).v = (s.engine e).v) ∧
    (∀ e, ((s.ignoredWrite).engine e).pc = (s.engine e).pc) ∧ (∀ e, ((s.ignoredWrite).engine e).run = (s.engine e).run) ∧
    (∀ e, ((s.ignoredWrite).engine e).waiting = (s.engine e).waiting) ∧
    (∀ e, ((s.ignoredWrite).engine e).fault = (s.engine e).fault) ∧
    (∀ e, ((s.ignoredWrite).engine e).cause = (s.engine e).cause) ∧ (∀ e, ((s.ignoredWrite).engine e).fpc = (s.engine e).fpc) ∧
    (∀ e, ((s.ignoredWrite).engine e).dbg = (s.engine e).dbg) ∧
    (∀ e, ((s.ignoredWrite).engine e).stepping = (s.engine e).stepping) ∧
    (∀ e, ((s.ignoredWrite).engine e).prog = (s.engine e).prog) ∧ (∀ e, ((s.ignoredWrite).engine e).data = (s.engine e).data) ∧
    (∀ e, ((s.ignoredWrite).engine e).upHold = (s.engine e).upHold) ∧
    (∀ e, ((s.ignoredWrite).engine e).calHold = (s.engine e).calHold) ∧
    (∀ e, ((s.ignoredWrite).engine e).loadRes = (s.engine e).loadRes) ∧ (s.ignoredWrite).hooks.table = s.hooks.table ∧
    (s.ignoredWrite).hooks.entry = s.hooks.entry ∧ (s.ignoredWrite).hooks.busy = s.hooks.busy ∧
    (s.ignoredWrite).hooks.result = s.hooks.result ∧ (s.ignoredWrite).hooks.abandoned = s.hooks.abandoned ∧
    (s.ignoredWrite).hooks.dbgRefused = s.hooks.dbgRefused ∧ (s.ignoredWrite).hooks.dbgAddr = s.hooks.dbgAddr ∧
    (s.ignoredWrite).pcie.perstHeld = s.pcie.perstHeld ∧ (s.ignoredWrite).pcie.detect = s.pcie.detect ∧
    (s.ignoredWrite).pcie.up = s.pcie.up ∧ (s.ignoredWrite).pcie.crs = s.pcie.crs ∧ (s.ignoredWrite).pcie.bme = s.pcie.bme ∧
    (s.ignoredWrite).pcie.aer = s.pcie.aer ∧ (s.ignoredWrite).pcie.msixEn = s.pcie.msixEn ∧
    (s.ignoredWrite).pcie.fnMask = s.pcie.fnMask ∧ (s.ignoredWrite).pcie.d3 = s.pcie.d3 ∧
    (s.ignoredWrite).pcie.msix = s.pcie.msix ∧ (s.ignoredWrite).pcie.ltr = s.pcie.ltr ∧
    (s.ignoredWrite).pcie.l1Asked = s.pcie.l1Asked ∧ (s.ignoredWrite).nv.amber = s.nv.amber ∧
    (s.ignoredWrite).nv.scree = s.nv.scree ∧ (s.ignoredWrite).nv.screeSeq = s.nv.screeSeq ∧
    (s.ignoredWrite).nv.single = s.nv.single ∧ (s.ignoredWrite).nv.savedTc = s.nv.savedTc ∧
    (s.ignoredWrite).nv.savedOpt = s.nv.savedOpt ∧ (s.ignoredWrite).nv.savedCycles = s.nv.savedCycles ∧
    (s.ignoredWrite).nv.boot = s.nv.boot ∧ (s.ignoredWrite).nv.vols = s.nv.vols ∧ (s.ignoredWrite).nv.pins = s.nv.pins ∧
    (s.ignoredWrite).nv.loss = s.nv.loss ∧ (s.ignoredWrite).nv.firings = s.nv.firings ∧
    (s.ignoredWrite).nv.config = s.nv.config ∧ (s.ignoredWrite).nv.failed = s.nv.failed ∧
    (s.ignoredWrite).nv.measHist = s.nv.measHist ∧ (s.ignoredWrite).nv.startHist = s.nv.startHist ∧
    (s.ignoredWrite).nv.paceFloor = s.nv.paceFloor ∧ (s.ignoredWrite).nv.floor = s.nv.floor ∧
    (s.ignoredWrite).nv.luns = s.nv.luns ∧ (s.ignoredWrite).nv.pools = s.nv.pools ∧ (s.ignoredWrite).nv.keys = s.nv.keys ∧
    (s.ignoredWrite).nv.sanitize = s.nv.sanitize ∧ (s.ignoredWrite).nv.sanDone = s.nv.sanDone ∧
    (s.ignoredWrite).nv.sanScope = s.nv.sanScope ∧ (s.ignoredWrite).nv.lastMsn = s.nv.lastMsn ∧
    (s.ignoredWrite).nv.selfTests = s.nv.selfTests ∧ (s.ignoredWrite).nv.lastSelf = s.nv.lastSelf ∧
    (s.ignoredWrite).nv.rebuilt = s.nv.rebuilt ∧ (s.ignoredWrite).nv.stopCal = s.nv.stopCal ∧
    (s.ignoredWrite).nv.configOk = s.nv.configOk ∧ (s.ignoredWrite).nv.journalOk = s.nv.journalOk ∧
    (s.ignoredWrite).nv.missing = s.nv.missing ∧ (s.ignoredWrite).nv.drained = s.nv.drained ∧
    (s.ignoredWrite).nv.drainCut = s.nv.drainCut ∧ (s.ignoredWrite).nv.drainFailed = s.nv.drainFailed ∧
    (s.ignoredWrite).nv.noManifest = s.nv.noManifest ∧ (s.ignoredWrite).nv.lastStop = s.nv.lastStop := by
  have k := s.ignoredWrite_steady
  exact ⟨k.pending, k.dev, k.staged, k.time, k.bas, k.vcore, k.led, k.pfw, k.drain, k.start, k.mbx, k.chans, k.alloc, k.str, k.roles,
    k.tab, k.fl, k.dram, k.fab, k.img, k.usb, k.selfTest, k.jtag, k.junction, k.portsFailed, k.rebuilding, k.sparesOut,
    k.flintLatched, k.engine_k, k.engine_z, k.engine_n, k.engine_c, k.engine_v, k.engine_pc, k.engine_run, k.engine_waiting,
    k.engine_fault, k.engine_cause, k.engine_fpc, k.engine_dbg, k.engine_stepping, k.engine_prog, k.engine_data, k.engine_upHold,
    k.engine_calHold, k.engine_loadRes, k.hooks_table, k.hooks_entry, k.hooks_busy, k.hooks_result, k.hooks_abandoned,
    k.hooks_dbgRefused, k.hooks_dbgAddr, k.pcie_perstHeld, k.pcie_detect, k.pcie_up, k.pcie_crs, k.pcie_bme, k.pcie_aer,
    k.pcie_msixEn, k.pcie_fnMask, k.pcie_d3, k.pcie_msix, k.pcie_ltr, k.pcie_l1Asked, k.nv_amber, k.nv_scree, k.nv_screeSeq,
    k.nv_single, k.nv_savedTc, k.nv_savedOpt, k.nv_savedCycles, k.nv_boot, k.nv_vols, k.nv_pins, k.nv_loss, k.nv_firings,
    k.nv_config, k.nv_failed, k.nv_measHist, k.nv_startHist, k.nv_paceFloor, k.nv_floor, k.nv_luns, k.nv_pools, k.nv_keys,
    k.nv_sanitize, k.nv_sanDone, k.nv_sanScope, k.nv_lastMsn, k.nv_selfTests, k.nv_lastSelf, k.nv_rebuilt, k.nv_stopCal,
    k.nv_configOk, k.nv_journalOk, k.nv_missing, k.nv_drained, k.nv_drainCut, k.nv_drainFailed, k.nv_noManifest, k.nv_lastStop⟩

@[simp] theorem State.ignoredWrite_finds (s : State) :
    (∀ e, (s.ignoredWrite).vol e = s.vol e) ∧ (∀ e, (s.ignoredWrite).lun e = s.lun e) ∧
    (∀ e, (s.ignoredWrite).fchan e = s.fchan e) ∧ (∀ e, (s.ignoredWrite).lunRun e = s.lunRun e) ∧
    (∀ e, (s.ignoredWrite).conn e = s.conn e) ∧ (∀ e, (s.ignoredWrite).chan e = s.chan e) := by
  have k := s.ignoredWrite_steady
  exact ⟨k.at_vol, k.at_lun, k.at_fchan, k.at_lunRun, k.at_conn, k.at_chan⟩

@[simp] theorem State.dropValue_keeps (s : State) (a b : Nat) :
    (s.dropValue a b).pending = s.pending ∧ (s.dropValue a b).dev = s.dev ∧ (s.dropValue a b).staged = s.staged ∧
    (s.dropValue a b).time = s.time ∧ (s.dropValue a b).bas = s.bas ∧ (s.dropValue a b).vcore = s.vcore ∧
    (s.dropValue a b).led = s.led ∧ (s.dropValue a b).pfw = s.pfw ∧ (s.dropValue a b).drain = s.drain ∧
    (s.dropValue a b).start = s.start ∧ (s.dropValue a b).mbx = s.mbx ∧ (s.dropValue a b).chans = s.chans ∧
    (s.dropValue a b).alloc = s.alloc ∧ (s.dropValue a b).str = s.str ∧ (s.dropValue a b).roles = s.roles ∧
    (s.dropValue a b).tab = s.tab ∧ (s.dropValue a b).fl = s.fl ∧ (s.dropValue a b).dram = s.dram ∧
    (s.dropValue a b).fab = s.fab ∧ (s.dropValue a b).img = s.img ∧ (s.dropValue a b).usb = s.usb ∧
    (s.dropValue a b).selfTest = s.selfTest ∧ (s.dropValue a b).jtag = s.jtag ∧ (s.dropValue a b).junction = s.junction ∧
    (s.dropValue a b).portsFailed = s.portsFailed ∧ (s.dropValue a b).rebuilding = s.rebuilding ∧
    (s.dropValue a b).sparesOut = s.sparesOut ∧ (s.dropValue a b).flintLatched = s.flintLatched ∧
    (∀ e, ((s.dropValue a b).engine e).k = (s.engine e).k) ∧ (∀ e, ((s.dropValue a b).engine e).z = (s.engine e).z) ∧
    (∀ e, ((s.dropValue a b).engine e).n = (s.engine e).n) ∧ (∀ e, ((s.dropValue a b).engine e).c = (s.engine e).c) ∧
    (∀ e, ((s.dropValue a b).engine e).v = (s.engine e).v) ∧ (∀ e, ((s.dropValue a b).engine e).pc = (s.engine e).pc) ∧
    (∀ e, ((s.dropValue a b).engine e).run = (s.engine e).run) ∧
    (∀ e, ((s.dropValue a b).engine e).waiting = (s.engine e).waiting) ∧
    (∀ e, ((s.dropValue a b).engine e).fault = (s.engine e).fault) ∧
    (∀ e, ((s.dropValue a b).engine e).cause = (s.engine e).cause) ∧ (∀ e, ((s.dropValue a b).engine e).fpc = (s.engine e).fpc) ∧
    (∀ e, ((s.dropValue a b).engine e).dbg = (s.engine e).dbg) ∧
    (∀ e, ((s.dropValue a b).engine e).stepping = (s.engine e).stepping) ∧
    (∀ e, ((s.dropValue a b).engine e).prog = (s.engine e).prog) ∧ (∀ e, ((s.dropValue a b).engine e).data = (s.engine e).data) ∧
    (∀ e, ((s.dropValue a b).engine e).upHold = (s.engine e).upHold) ∧
    (∀ e, ((s.dropValue a b).engine e).calHold = (s.engine e).calHold) ∧
    (∀ e, ((s.dropValue a b).engine e).loadRes = (s.engine e).loadRes) ∧ (s.dropValue a b).hooks.table = s.hooks.table ∧
    (s.dropValue a b).hooks.entry = s.hooks.entry ∧ (s.dropValue a b).hooks.busy = s.hooks.busy ∧
    (s.dropValue a b).hooks.result = s.hooks.result ∧ (s.dropValue a b).hooks.abandoned = s.hooks.abandoned ∧
    (s.dropValue a b).hooks.dbgRefused = s.hooks.dbgRefused ∧ (s.dropValue a b).hooks.dbgAddr = s.hooks.dbgAddr ∧
    (s.dropValue a b).pcie.perstHeld = s.pcie.perstHeld ∧ (s.dropValue a b).pcie.detect = s.pcie.detect ∧
    (s.dropValue a b).pcie.up = s.pcie.up ∧ (s.dropValue a b).pcie.crs = s.pcie.crs ∧ (s.dropValue a b).pcie.bme = s.pcie.bme ∧
    (s.dropValue a b).pcie.aer = s.pcie.aer ∧ (s.dropValue a b).pcie.msixEn = s.pcie.msixEn ∧
    (s.dropValue a b).pcie.fnMask = s.pcie.fnMask ∧ (s.dropValue a b).pcie.d3 = s.pcie.d3 ∧
    (s.dropValue a b).pcie.msix = s.pcie.msix ∧ (s.dropValue a b).pcie.ltr = s.pcie.ltr ∧
    (s.dropValue a b).pcie.l1Asked = s.pcie.l1Asked ∧ (s.dropValue a b).nv.amber = s.nv.amber ∧
    (s.dropValue a b).nv.scree = s.nv.scree ∧ (s.dropValue a b).nv.screeSeq = s.nv.screeSeq ∧
    (s.dropValue a b).nv.single = s.nv.single ∧ (s.dropValue a b).nv.savedTc = s.nv.savedTc ∧
    (s.dropValue a b).nv.savedOpt = s.nv.savedOpt ∧ (s.dropValue a b).nv.savedCycles = s.nv.savedCycles ∧
    (s.dropValue a b).nv.boot = s.nv.boot ∧ (s.dropValue a b).nv.vols = s.nv.vols ∧ (s.dropValue a b).nv.pins = s.nv.pins ∧
    (s.dropValue a b).nv.loss = s.nv.loss ∧ (s.dropValue a b).nv.firings = s.nv.firings ∧
    (s.dropValue a b).nv.config = s.nv.config ∧ (s.dropValue a b).nv.failed = s.nv.failed ∧
    (s.dropValue a b).nv.measHist = s.nv.measHist ∧ (s.dropValue a b).nv.startHist = s.nv.startHist ∧
    (s.dropValue a b).nv.paceFloor = s.nv.paceFloor ∧ (s.dropValue a b).nv.floor = s.nv.floor ∧
    (s.dropValue a b).nv.luns = s.nv.luns ∧ (s.dropValue a b).nv.pools = s.nv.pools ∧ (s.dropValue a b).nv.keys = s.nv.keys ∧
    (s.dropValue a b).nv.sanitize = s.nv.sanitize ∧ (s.dropValue a b).nv.sanDone = s.nv.sanDone ∧
    (s.dropValue a b).nv.sanScope = s.nv.sanScope ∧ (s.dropValue a b).nv.lastMsn = s.nv.lastMsn ∧
    (s.dropValue a b).nv.selfTests = s.nv.selfTests ∧ (s.dropValue a b).nv.lastSelf = s.nv.lastSelf ∧
    (s.dropValue a b).nv.rebuilt = s.nv.rebuilt ∧ (s.dropValue a b).nv.stopCal = s.nv.stopCal ∧
    (s.dropValue a b).nv.configOk = s.nv.configOk ∧ (s.dropValue a b).nv.journalOk = s.nv.journalOk ∧
    (s.dropValue a b).nv.missing = s.nv.missing ∧ (s.dropValue a b).nv.drained = s.nv.drained ∧
    (s.dropValue a b).nv.drainCut = s.nv.drainCut ∧ (s.dropValue a b).nv.drainFailed = s.nv.drainFailed ∧
    (s.dropValue a b).nv.noManifest = s.nv.noManifest ∧ (s.dropValue a b).nv.lastStop = s.nv.lastStop := by
  have k := s.dropValue_steady a b
  exact ⟨k.pending, k.dev, k.staged, k.time, k.bas, k.vcore, k.led, k.pfw, k.drain, k.start, k.mbx, k.chans, k.alloc, k.str, k.roles,
    k.tab, k.fl, k.dram, k.fab, k.img, k.usb, k.selfTest, k.jtag, k.junction, k.portsFailed, k.rebuilding, k.sparesOut,
    k.flintLatched, k.engine_k, k.engine_z, k.engine_n, k.engine_c, k.engine_v, k.engine_pc, k.engine_run, k.engine_waiting,
    k.engine_fault, k.engine_cause, k.engine_fpc, k.engine_dbg, k.engine_stepping, k.engine_prog, k.engine_data, k.engine_upHold,
    k.engine_calHold, k.engine_loadRes, k.hooks_table, k.hooks_entry, k.hooks_busy, k.hooks_result, k.hooks_abandoned,
    k.hooks_dbgRefused, k.hooks_dbgAddr, k.pcie_perstHeld, k.pcie_detect, k.pcie_up, k.pcie_crs, k.pcie_bme, k.pcie_aer,
    k.pcie_msixEn, k.pcie_fnMask, k.pcie_d3, k.pcie_msix, k.pcie_ltr, k.pcie_l1Asked, k.nv_amber, k.nv_scree, k.nv_screeSeq,
    k.nv_single, k.nv_savedTc, k.nv_savedOpt, k.nv_savedCycles, k.nv_boot, k.nv_vols, k.nv_pins, k.nv_loss, k.nv_firings,
    k.nv_config, k.nv_failed, k.nv_measHist, k.nv_startHist, k.nv_paceFloor, k.nv_floor, k.nv_luns, k.nv_pools, k.nv_keys,
    k.nv_sanitize, k.nv_sanDone, k.nv_sanScope, k.nv_lastMsn, k.nv_selfTests, k.nv_lastSelf, k.nv_rebuilt, k.nv_stopCal,
    k.nv_configOk, k.nv_journalOk, k.nv_missing, k.nv_drained, k.nv_drainCut, k.nv_drainFailed, k.nv_noManifest, k.nv_lastStop⟩

@[simp] theorem State.dropValue_finds (s : State) (a b : Nat) :
    (∀ e, (s.dropValue a b).vol e = s.vol e) ∧ (∀ e, (s.dropValue a b).lun e = s.lun e) ∧
    (∀ e, (s.dropValue a b).fchan e = s.fchan e) ∧ (∀ e, (s.dropValue a b).lunRun e = s.lunRun e) ∧
    (∀ e, (s.dropValue a b).conn e = s.conn e) ∧ (∀ e, (s.dropValue a b).chan e = s.chan e) := by
  have k := s.dropValue_steady a b
  exact ⟨k.at_vol, k.at_lun, k.at_fchan, k.at_lunRun, k.at_conn, k.at_chan⟩

@[simp] theorem State.signal_keeps (s : State) (v : Nat) :
    (s.signal v).pending = s.pending ∧ (s.signal v).dev = s.dev ∧ (s.signal v).staged = s.staged ∧ (s.signal v).time = s.time ∧
    (s.signal v).bas = s.bas ∧ (s.signal v).vcore = s.vcore ∧ (s.signal v).led = s.led ∧ (s.signal v).pfw = s.pfw ∧
    (s.signal v).drain = s.drain ∧ (s.signal v).start = s.start ∧ (s.signal v).mbx = s.mbx ∧ (s.signal v).chans = s.chans ∧
    (s.signal v).alloc = s.alloc ∧ (s.signal v).str = s.str ∧ (s.signal v).roles = s.roles ∧ (s.signal v).tab = s.tab ∧
    (s.signal v).fl = s.fl ∧ (s.signal v).dram = s.dram ∧ (s.signal v).fab = s.fab ∧ (s.signal v).img = s.img ∧
    (s.signal v).usb = s.usb ∧ (s.signal v).selfTest = s.selfTest ∧ (s.signal v).jtag = s.jtag ∧
    (s.signal v).junction = s.junction ∧ (s.signal v).portsFailed = s.portsFailed ∧ (s.signal v).rebuilding = s.rebuilding ∧
    (s.signal v).sparesOut = s.sparesOut ∧ (s.signal v).flintLatched = s.flintLatched ∧
    (∀ e, ((s.signal v).engine e).k = (s.engine e).k) ∧ (∀ e, ((s.signal v).engine e).z = (s.engine e).z) ∧
    (∀ e, ((s.signal v).engine e).n = (s.engine e).n) ∧ (∀ e, ((s.signal v).engine e).c = (s.engine e).c) ∧
    (∀ e, ((s.signal v).engine e).v = (s.engine e).v) ∧ (∀ e, ((s.signal v).engine e).pc = (s.engine e).pc) ∧
    (∀ e, ((s.signal v).engine e).run = (s.engine e).run) ∧ (∀ e, ((s.signal v).engine e).waiting = (s.engine e).waiting) ∧
    (∀ e, ((s.signal v).engine e).fault = (s.engine e).fault) ∧ (∀ e, ((s.signal v).engine e).cause = (s.engine e).cause) ∧
    (∀ e, ((s.signal v).engine e).fpc = (s.engine e).fpc) ∧ (∀ e, ((s.signal v).engine e).dbg = (s.engine e).dbg) ∧
    (∀ e, ((s.signal v).engine e).stepping = (s.engine e).stepping) ∧ (∀ e, ((s.signal v).engine e).prog = (s.engine e).prog) ∧
    (∀ e, ((s.signal v).engine e).data = (s.engine e).data) ∧ (∀ e, ((s.signal v).engine e).upHold = (s.engine e).upHold) ∧
    (∀ e, ((s.signal v).engine e).calHold = (s.engine e).calHold) ∧
    (∀ e, ((s.signal v).engine e).loadRes = (s.engine e).loadRes) ∧ (s.signal v).hooks.table = s.hooks.table ∧
    (s.signal v).hooks.entry = s.hooks.entry ∧ (s.signal v).hooks.busy = s.hooks.busy ∧
    (s.signal v).hooks.result = s.hooks.result ∧ (s.signal v).hooks.abandoned = s.hooks.abandoned ∧
    (s.signal v).hooks.dbgRefused = s.hooks.dbgRefused ∧ (s.signal v).hooks.dbgAddr = s.hooks.dbgAddr ∧
    (s.signal v).pcie.perstHeld = s.pcie.perstHeld ∧ (s.signal v).pcie.detect = s.pcie.detect ∧
    (s.signal v).pcie.up = s.pcie.up ∧ (s.signal v).pcie.crs = s.pcie.crs ∧ (s.signal v).pcie.bme = s.pcie.bme ∧
    (s.signal v).pcie.aer = s.pcie.aer ∧ (s.signal v).pcie.msixEn = s.pcie.msixEn ∧ (s.signal v).pcie.fnMask = s.pcie.fnMask ∧
    (s.signal v).pcie.d3 = s.pcie.d3 ∧ (s.signal v).pcie.msix = s.pcie.msix ∧ (s.signal v).pcie.ltr = s.pcie.ltr ∧
    (s.signal v).pcie.l1Asked = s.pcie.l1Asked ∧ (s.signal v).nv.amber = s.nv.amber ∧ (s.signal v).nv.scree = s.nv.scree ∧
    (s.signal v).nv.screeSeq = s.nv.screeSeq ∧ (s.signal v).nv.single = s.nv.single ∧ (s.signal v).nv.savedTc = s.nv.savedTc ∧
    (s.signal v).nv.savedOpt = s.nv.savedOpt ∧ (s.signal v).nv.savedCycles = s.nv.savedCycles ∧
    (s.signal v).nv.boot = s.nv.boot ∧ (s.signal v).nv.vols = s.nv.vols ∧ (s.signal v).nv.pins = s.nv.pins ∧
    (s.signal v).nv.loss = s.nv.loss ∧ (s.signal v).nv.firings = s.nv.firings ∧ (s.signal v).nv.config = s.nv.config ∧
    (s.signal v).nv.failed = s.nv.failed ∧ (s.signal v).nv.measHist = s.nv.measHist ∧
    (s.signal v).nv.startHist = s.nv.startHist ∧ (s.signal v).nv.paceFloor = s.nv.paceFloor ∧
    (s.signal v).nv.floor = s.nv.floor ∧ (s.signal v).nv.luns = s.nv.luns ∧ (s.signal v).nv.pools = s.nv.pools ∧
    (s.signal v).nv.keys = s.nv.keys ∧ (s.signal v).nv.sanitize = s.nv.sanitize ∧ (s.signal v).nv.sanDone = s.nv.sanDone ∧
    (s.signal v).nv.sanScope = s.nv.sanScope ∧ (s.signal v).nv.lastMsn = s.nv.lastMsn ∧
    (s.signal v).nv.selfTests = s.nv.selfTests ∧ (s.signal v).nv.lastSelf = s.nv.lastSelf ∧
    (s.signal v).nv.rebuilt = s.nv.rebuilt ∧ (s.signal v).nv.stopCal = s.nv.stopCal ∧ (s.signal v).nv.configOk = s.nv.configOk ∧
    (s.signal v).nv.journalOk = s.nv.journalOk ∧ (s.signal v).nv.missing = s.nv.missing ∧
    (s.signal v).nv.drained = s.nv.drained ∧ (s.signal v).nv.drainCut = s.nv.drainCut ∧
    (s.signal v).nv.drainFailed = s.nv.drainFailed ∧ (s.signal v).nv.noManifest = s.nv.noManifest ∧
    (s.signal v).nv.lastStop = s.nv.lastStop := by
  have k := s.signal_steady v
  exact ⟨k.pending, k.dev, k.staged, k.time, k.bas, k.vcore, k.led, k.pfw, k.drain, k.start, k.mbx, k.chans, k.alloc, k.str, k.roles,
    k.tab, k.fl, k.dram, k.fab, k.img, k.usb, k.selfTest, k.jtag, k.junction, k.portsFailed, k.rebuilding, k.sparesOut,
    k.flintLatched, k.engine_k, k.engine_z, k.engine_n, k.engine_c, k.engine_v, k.engine_pc, k.engine_run, k.engine_waiting,
    k.engine_fault, k.engine_cause, k.engine_fpc, k.engine_dbg, k.engine_stepping, k.engine_prog, k.engine_data, k.engine_upHold,
    k.engine_calHold, k.engine_loadRes, k.hooks_table, k.hooks_entry, k.hooks_busy, k.hooks_result, k.hooks_abandoned,
    k.hooks_dbgRefused, k.hooks_dbgAddr, k.pcie_perstHeld, k.pcie_detect, k.pcie_up, k.pcie_crs, k.pcie_bme, k.pcie_aer,
    k.pcie_msixEn, k.pcie_fnMask, k.pcie_d3, k.pcie_msix, k.pcie_ltr, k.pcie_l1Asked, k.nv_amber, k.nv_scree, k.nv_screeSeq,
    k.nv_single, k.nv_savedTc, k.nv_savedOpt, k.nv_savedCycles, k.nv_boot, k.nv_vols, k.nv_pins, k.nv_loss, k.nv_firings,
    k.nv_config, k.nv_failed, k.nv_measHist, k.nv_startHist, k.nv_paceFloor, k.nv_floor, k.nv_luns, k.nv_pools, k.nv_keys,
    k.nv_sanitize, k.nv_sanDone, k.nv_sanScope, k.nv_lastMsn, k.nv_selfTests, k.nv_lastSelf, k.nv_rebuilt, k.nv_stopCal,
    k.nv_configOk, k.nv_journalOk, k.nv_missing, k.nv_drained, k.nv_drainCut, k.nv_drainFailed, k.nv_noManifest, k.nv_lastStop⟩

@[simp] theorem State.signal_finds (s : State) (v : Nat) :
    (∀ e, (s.signal v).vol e = s.vol e) ∧ (∀ e, (s.signal v).lun e = s.lun e) ∧ (∀ e, (s.signal v).fchan e = s.fchan e) ∧
    (∀ e, (s.signal v).lunRun e = s.lunRun e) ∧ (∀ e, (s.signal v).conn e = s.conn e) ∧ (∀ e, (s.signal v).chan e = s.chan e) := by
  have k := s.signal_steady v
  exact ⟨k.at_vol, k.at_lun, k.at_fchan, k.at_lunRun, k.at_conn, k.at_chan⟩

@[simp] theorem State.queueHook_keeps (s : State) (i : Nat) :
    (s.queueHook i).pending = s.pending ∧ (s.queueHook i).dev = s.dev ∧ (s.queueHook i).staged = s.staged ∧
    (s.queueHook i).time = s.time ∧ (s.queueHook i).bas = s.bas ∧ (s.queueHook i).vcore = s.vcore ∧ (s.queueHook i).led = s.led ∧
    (s.queueHook i).pfw = s.pfw ∧ (s.queueHook i).drain = s.drain ∧ (s.queueHook i).start = s.start ∧
    (s.queueHook i).mbx = s.mbx ∧ (s.queueHook i).chans = s.chans ∧ (s.queueHook i).alloc = s.alloc ∧
    (s.queueHook i).str = s.str ∧ (s.queueHook i).roles = s.roles ∧ (s.queueHook i).tab = s.tab ∧ (s.queueHook i).fl = s.fl ∧
    (s.queueHook i).dram = s.dram ∧ (s.queueHook i).fab = s.fab ∧ (s.queueHook i).img = s.img ∧ (s.queueHook i).usb = s.usb ∧
    (s.queueHook i).selfTest = s.selfTest ∧ (s.queueHook i).jtag = s.jtag ∧ (s.queueHook i).junction = s.junction ∧
    (s.queueHook i).portsFailed = s.portsFailed ∧ (s.queueHook i).rebuilding = s.rebuilding ∧
    (s.queueHook i).sparesOut = s.sparesOut ∧ (s.queueHook i).flintLatched = s.flintLatched ∧
    (∀ e, ((s.queueHook i).engine e).k = (s.engine e).k) ∧ (∀ e, ((s.queueHook i).engine e).z = (s.engine e).z) ∧
    (∀ e, ((s.queueHook i).engine e).n = (s.engine e).n) ∧ (∀ e, ((s.queueHook i).engine e).c = (s.engine e).c) ∧
    (∀ e, ((s.queueHook i).engine e).v = (s.engine e).v) ∧ (∀ e, ((s.queueHook i).engine e).pc = (s.engine e).pc) ∧
    (∀ e, ((s.queueHook i).engine e).run = (s.engine e).run) ∧ (∀ e, ((s.queueHook i).engine e).waiting = (s.engine e).waiting) ∧
    (∀ e, ((s.queueHook i).engine e).fault = (s.engine e).fault) ∧ (∀ e, ((s.queueHook i).engine e).cause = (s.engine e).cause) ∧
    (∀ e, ((s.queueHook i).engine e).fpc = (s.engine e).fpc) ∧ (∀ e, ((s.queueHook i).engine e).dbg = (s.engine e).dbg) ∧
    (∀ e, ((s.queueHook i).engine e).stepping = (s.engine e).stepping) ∧
    (∀ e, ((s.queueHook i).engine e).prog = (s.engine e).prog) ∧ (∀ e, ((s.queueHook i).engine e).data = (s.engine e).data) ∧
    (∀ e, ((s.queueHook i).engine e).upHold = (s.engine e).upHold) ∧
    (∀ e, ((s.queueHook i).engine e).calHold = (s.engine e).calHold) ∧
    (∀ e, ((s.queueHook i).engine e).loadRes = (s.engine e).loadRes) ∧ (s.queueHook i).hooks.table = s.hooks.table ∧
    (s.queueHook i).hooks.entry = s.hooks.entry ∧ (s.queueHook i).hooks.busy = s.hooks.busy ∧
    (s.queueHook i).hooks.result = s.hooks.result ∧ (s.queueHook i).hooks.abandoned = s.hooks.abandoned ∧
    (s.queueHook i).hooks.dbgRefused = s.hooks.dbgRefused ∧ (s.queueHook i).hooks.dbgAddr = s.hooks.dbgAddr ∧
    (s.queueHook i).pcie.perstHeld = s.pcie.perstHeld ∧ (s.queueHook i).pcie.detect = s.pcie.detect ∧
    (s.queueHook i).pcie.up = s.pcie.up ∧ (s.queueHook i).pcie.crs = s.pcie.crs ∧ (s.queueHook i).pcie.bme = s.pcie.bme ∧
    (s.queueHook i).pcie.aer = s.pcie.aer ∧ (s.queueHook i).pcie.msixEn = s.pcie.msixEn ∧
    (s.queueHook i).pcie.fnMask = s.pcie.fnMask ∧ (s.queueHook i).pcie.d3 = s.pcie.d3 ∧ (s.queueHook i).pcie.msix = s.pcie.msix ∧
    (s.queueHook i).pcie.ltr = s.pcie.ltr ∧ (s.queueHook i).pcie.l1Asked = s.pcie.l1Asked ∧
    (s.queueHook i).nv.amber = s.nv.amber ∧ (s.queueHook i).nv.scree = s.nv.scree ∧ (s.queueHook i).nv.screeSeq = s.nv.screeSeq ∧
    (s.queueHook i).nv.single = s.nv.single ∧ (s.queueHook i).nv.savedTc = s.nv.savedTc ∧
    (s.queueHook i).nv.savedOpt = s.nv.savedOpt ∧ (s.queueHook i).nv.savedCycles = s.nv.savedCycles ∧
    (s.queueHook i).nv.boot = s.nv.boot ∧ (s.queueHook i).nv.vols = s.nv.vols ∧ (s.queueHook i).nv.pins = s.nv.pins ∧
    (s.queueHook i).nv.loss = s.nv.loss ∧ (s.queueHook i).nv.firings = s.nv.firings ∧ (s.queueHook i).nv.config = s.nv.config ∧
    (s.queueHook i).nv.failed = s.nv.failed ∧ (s.queueHook i).nv.measHist = s.nv.measHist ∧
    (s.queueHook i).nv.startHist = s.nv.startHist ∧ (s.queueHook i).nv.paceFloor = s.nv.paceFloor ∧
    (s.queueHook i).nv.floor = s.nv.floor ∧ (s.queueHook i).nv.luns = s.nv.luns ∧ (s.queueHook i).nv.pools = s.nv.pools ∧
    (s.queueHook i).nv.keys = s.nv.keys ∧ (s.queueHook i).nv.sanitize = s.nv.sanitize ∧
    (s.queueHook i).nv.sanDone = s.nv.sanDone ∧ (s.queueHook i).nv.sanScope = s.nv.sanScope ∧
    (s.queueHook i).nv.lastMsn = s.nv.lastMsn ∧ (s.queueHook i).nv.selfTests = s.nv.selfTests ∧
    (s.queueHook i).nv.lastSelf = s.nv.lastSelf ∧ (s.queueHook i).nv.rebuilt = s.nv.rebuilt ∧
    (s.queueHook i).nv.stopCal = s.nv.stopCal ∧ (s.queueHook i).nv.configOk = s.nv.configOk ∧
    (s.queueHook i).nv.journalOk = s.nv.journalOk ∧ (s.queueHook i).nv.missing = s.nv.missing ∧
    (s.queueHook i).nv.drained = s.nv.drained ∧ (s.queueHook i).nv.drainCut = s.nv.drainCut ∧
    (s.queueHook i).nv.drainFailed = s.nv.drainFailed ∧ (s.queueHook i).nv.noManifest = s.nv.noManifest ∧
    (s.queueHook i).nv.lastStop = s.nv.lastStop := by
  have k := s.queueHook_steady i
  exact ⟨k.pending, k.dev, k.staged, k.time, k.bas, k.vcore, k.led, k.pfw, k.drain, k.start, k.mbx, k.chans, k.alloc, k.str, k.roles,
    k.tab, k.fl, k.dram, k.fab, k.img, k.usb, k.selfTest, k.jtag, k.junction, k.portsFailed, k.rebuilding, k.sparesOut,
    k.flintLatched, k.engine_k, k.engine_z, k.engine_n, k.engine_c, k.engine_v, k.engine_pc, k.engine_run, k.engine_waiting,
    k.engine_fault, k.engine_cause, k.engine_fpc, k.engine_dbg, k.engine_stepping, k.engine_prog, k.engine_data, k.engine_upHold,
    k.engine_calHold, k.engine_loadRes, k.hooks_table, k.hooks_entry, k.hooks_busy, k.hooks_result, k.hooks_abandoned,
    k.hooks_dbgRefused, k.hooks_dbgAddr, k.pcie_perstHeld, k.pcie_detect, k.pcie_up, k.pcie_crs, k.pcie_bme, k.pcie_aer,
    k.pcie_msixEn, k.pcie_fnMask, k.pcie_d3, k.pcie_msix, k.pcie_ltr, k.pcie_l1Asked, k.nv_amber, k.nv_scree, k.nv_screeSeq,
    k.nv_single, k.nv_savedTc, k.nv_savedOpt, k.nv_savedCycles, k.nv_boot, k.nv_vols, k.nv_pins, k.nv_loss, k.nv_firings,
    k.nv_config, k.nv_failed, k.nv_measHist, k.nv_startHist, k.nv_paceFloor, k.nv_floor, k.nv_luns, k.nv_pools, k.nv_keys,
    k.nv_sanitize, k.nv_sanDone, k.nv_sanScope, k.nv_lastMsn, k.nv_selfTests, k.nv_lastSelf, k.nv_rebuilt, k.nv_stopCal,
    k.nv_configOk, k.nv_journalOk, k.nv_missing, k.nv_drained, k.nv_drainCut, k.nv_drainFailed, k.nv_noManifest, k.nv_lastStop⟩

@[simp] theorem State.queueHook_finds (s : State) (i : Nat) :
    (∀ e, (s.queueHook i).vol e = s.vol e) ∧ (∀ e, (s.queueHook i).lun e = s.lun e) ∧
    (∀ e, (s.queueHook i).fchan e = s.fchan e) ∧ (∀ e, (s.queueHook i).lunRun e = s.lunRun e) ∧
    (∀ e, (s.queueHook i).conn e = s.conn e) ∧ (∀ e, (s.queueHook i).chan e = s.chan e) := by
  have k := s.queueHook_steady i
  exact ⟨k.at_vol, k.at_lun, k.at_fchan, k.at_lunRun, k.at_conn, k.at_chan⟩

@[simp] theorem State.hookTrigger_keeps (s : State) (p : Bytes → Bool) :
    (s.hookTrigger p).pending = s.pending ∧ (s.hookTrigger p).dev = s.dev ∧ (s.hookTrigger p).staged = s.staged ∧
    (s.hookTrigger p).time = s.time ∧ (s.hookTrigger p).bas = s.bas ∧ (s.hookTrigger p).vcore = s.vcore ∧
    (s.hookTrigger p).led = s.led ∧ (s.hookTrigger p).pfw = s.pfw ∧ (s.hookTrigger p).drain = s.drain ∧
    (s.hookTrigger p).start = s.start ∧ (s.hookTrigger p).mbx = s.mbx ∧ (s.hookTrigger p).chans = s.chans ∧
    (s.hookTrigger p).alloc = s.alloc ∧ (s.hookTrigger p).str = s.str ∧ (s.hookTrigger p).roles = s.roles ∧
    (s.hookTrigger p).tab = s.tab ∧ (s.hookTrigger p).fl = s.fl ∧ (s.hookTrigger p).dram = s.dram ∧
    (s.hookTrigger p).fab = s.fab ∧ (s.hookTrigger p).img = s.img ∧ (s.hookTrigger p).usb = s.usb ∧
    (s.hookTrigger p).selfTest = s.selfTest ∧ (s.hookTrigger p).jtag = s.jtag ∧ (s.hookTrigger p).junction = s.junction ∧
    (s.hookTrigger p).portsFailed = s.portsFailed ∧ (s.hookTrigger p).rebuilding = s.rebuilding ∧
    (s.hookTrigger p).sparesOut = s.sparesOut ∧ (s.hookTrigger p).flintLatched = s.flintLatched ∧
    (∀ e, ((s.hookTrigger p).engine e).k = (s.engine e).k) ∧ (∀ e, ((s.hookTrigger p).engine e).z = (s.engine e).z) ∧
    (∀ e, ((s.hookTrigger p).engine e).n = (s.engine e).n) ∧ (∀ e, ((s.hookTrigger p).engine e).c = (s.engine e).c) ∧
    (∀ e, ((s.hookTrigger p).engine e).v = (s.engine e).v) ∧ (∀ e, ((s.hookTrigger p).engine e).pc = (s.engine e).pc) ∧
    (∀ e, ((s.hookTrigger p).engine e).run = (s.engine e).run) ∧
    (∀ e, ((s.hookTrigger p).engine e).waiting = (s.engine e).waiting) ∧
    (∀ e, ((s.hookTrigger p).engine e).fault = (s.engine e).fault) ∧
    (∀ e, ((s.hookTrigger p).engine e).cause = (s.engine e).cause) ∧ (∀ e, ((s.hookTrigger p).engine e).fpc = (s.engine e).fpc) ∧
    (∀ e, ((s.hookTrigger p).engine e).dbg = (s.engine e).dbg) ∧
    (∀ e, ((s.hookTrigger p).engine e).stepping = (s.engine e).stepping) ∧
    (∀ e, ((s.hookTrigger p).engine e).prog = (s.engine e).prog) ∧ (∀ e, ((s.hookTrigger p).engine e).data = (s.engine e).data) ∧
    (∀ e, ((s.hookTrigger p).engine e).upHold = (s.engine e).upHold) ∧
    (∀ e, ((s.hookTrigger p).engine e).calHold = (s.engine e).calHold) ∧
    (∀ e, ((s.hookTrigger p).engine e).loadRes = (s.engine e).loadRes) ∧ (s.hookTrigger p).hooks.table = s.hooks.table ∧
    (s.hookTrigger p).hooks.entry = s.hooks.entry ∧ (s.hookTrigger p).hooks.busy = s.hooks.busy ∧
    (s.hookTrigger p).hooks.result = s.hooks.result ∧ (s.hookTrigger p).hooks.abandoned = s.hooks.abandoned ∧
    (s.hookTrigger p).hooks.dbgRefused = s.hooks.dbgRefused ∧ (s.hookTrigger p).hooks.dbgAddr = s.hooks.dbgAddr ∧
    (s.hookTrigger p).pcie.perstHeld = s.pcie.perstHeld ∧ (s.hookTrigger p).pcie.detect = s.pcie.detect ∧
    (s.hookTrigger p).pcie.up = s.pcie.up ∧ (s.hookTrigger p).pcie.crs = s.pcie.crs ∧ (s.hookTrigger p).pcie.bme = s.pcie.bme ∧
    (s.hookTrigger p).pcie.aer = s.pcie.aer ∧ (s.hookTrigger p).pcie.msixEn = s.pcie.msixEn ∧
    (s.hookTrigger p).pcie.fnMask = s.pcie.fnMask ∧ (s.hookTrigger p).pcie.d3 = s.pcie.d3 ∧
    (s.hookTrigger p).pcie.msix = s.pcie.msix ∧ (s.hookTrigger p).pcie.ltr = s.pcie.ltr ∧
    (s.hookTrigger p).pcie.l1Asked = s.pcie.l1Asked ∧ (s.hookTrigger p).nv.amber = s.nv.amber ∧
    (s.hookTrigger p).nv.scree = s.nv.scree ∧ (s.hookTrigger p).nv.screeSeq = s.nv.screeSeq ∧
    (s.hookTrigger p).nv.single = s.nv.single ∧ (s.hookTrigger p).nv.savedTc = s.nv.savedTc ∧
    (s.hookTrigger p).nv.savedOpt = s.nv.savedOpt ∧ (s.hookTrigger p).nv.savedCycles = s.nv.savedCycles ∧
    (s.hookTrigger p).nv.boot = s.nv.boot ∧ (s.hookTrigger p).nv.vols = s.nv.vols ∧ (s.hookTrigger p).nv.pins = s.nv.pins ∧
    (s.hookTrigger p).nv.loss = s.nv.loss ∧ (s.hookTrigger p).nv.firings = s.nv.firings ∧
    (s.hookTrigger p).nv.config = s.nv.config ∧ (s.hookTrigger p).nv.failed = s.nv.failed ∧
    (s.hookTrigger p).nv.measHist = s.nv.measHist ∧ (s.hookTrigger p).nv.startHist = s.nv.startHist ∧
    (s.hookTrigger p).nv.paceFloor = s.nv.paceFloor ∧ (s.hookTrigger p).nv.floor = s.nv.floor ∧
    (s.hookTrigger p).nv.luns = s.nv.luns ∧ (s.hookTrigger p).nv.pools = s.nv.pools ∧ (s.hookTrigger p).nv.keys = s.nv.keys ∧
    (s.hookTrigger p).nv.sanitize = s.nv.sanitize ∧ (s.hookTrigger p).nv.sanDone = s.nv.sanDone ∧
    (s.hookTrigger p).nv.sanScope = s.nv.sanScope ∧ (s.hookTrigger p).nv.lastMsn = s.nv.lastMsn ∧
    (s.hookTrigger p).nv.selfTests = s.nv.selfTests ∧ (s.hookTrigger p).nv.lastSelf = s.nv.lastSelf ∧
    (s.hookTrigger p).nv.rebuilt = s.nv.rebuilt ∧ (s.hookTrigger p).nv.stopCal = s.nv.stopCal ∧
    (s.hookTrigger p).nv.configOk = s.nv.configOk ∧ (s.hookTrigger p).nv.journalOk = s.nv.journalOk ∧
    (s.hookTrigger p).nv.missing = s.nv.missing ∧ (s.hookTrigger p).nv.drained = s.nv.drained ∧
    (s.hookTrigger p).nv.drainCut = s.nv.drainCut ∧ (s.hookTrigger p).nv.drainFailed = s.nv.drainFailed ∧
    (s.hookTrigger p).nv.noManifest = s.nv.noManifest ∧ (s.hookTrigger p).nv.lastStop = s.nv.lastStop := by
  have k := s.hookTrigger_steady p
  exact ⟨k.pending, k.dev, k.staged, k.time, k.bas, k.vcore, k.led, k.pfw, k.drain, k.start, k.mbx, k.chans, k.alloc, k.str, k.roles,
    k.tab, k.fl, k.dram, k.fab, k.img, k.usb, k.selfTest, k.jtag, k.junction, k.portsFailed, k.rebuilding, k.sparesOut,
    k.flintLatched, k.engine_k, k.engine_z, k.engine_n, k.engine_c, k.engine_v, k.engine_pc, k.engine_run, k.engine_waiting,
    k.engine_fault, k.engine_cause, k.engine_fpc, k.engine_dbg, k.engine_stepping, k.engine_prog, k.engine_data, k.engine_upHold,
    k.engine_calHold, k.engine_loadRes, k.hooks_table, k.hooks_entry, k.hooks_busy, k.hooks_result, k.hooks_abandoned,
    k.hooks_dbgRefused, k.hooks_dbgAddr, k.pcie_perstHeld, k.pcie_detect, k.pcie_up, k.pcie_crs, k.pcie_bme, k.pcie_aer,
    k.pcie_msixEn, k.pcie_fnMask, k.pcie_d3, k.pcie_msix, k.pcie_ltr, k.pcie_l1Asked, k.nv_amber, k.nv_scree, k.nv_screeSeq,
    k.nv_single, k.nv_savedTc, k.nv_savedOpt, k.nv_savedCycles, k.nv_boot, k.nv_vols, k.nv_pins, k.nv_loss, k.nv_firings,
    k.nv_config, k.nv_failed, k.nv_measHist, k.nv_startHist, k.nv_paceFloor, k.nv_floor, k.nv_luns, k.nv_pools, k.nv_keys,
    k.nv_sanitize, k.nv_sanDone, k.nv_sanScope, k.nv_lastMsn, k.nv_selfTests, k.nv_lastSelf, k.nv_rebuilt, k.nv_stopCal,
    k.nv_configOk, k.nv_journalOk, k.nv_missing, k.nv_drained, k.nv_drainCut, k.nv_drainFailed, k.nv_noManifest, k.nv_lastStop⟩

@[simp] theorem State.hookTrigger_finds (s : State) (p : Bytes → Bool) :
    (∀ e, (s.hookTrigger p).vol e = s.vol e) ∧ (∀ e, (s.hookTrigger p).lun e = s.lun e) ∧
    (∀ e, (s.hookTrigger p).fchan e = s.fchan e) ∧ (∀ e, (s.hookTrigger p).lunRun e = s.lunRun e) ∧
    (∀ e, (s.hookTrigger p).conn e = s.conn e) ∧ (∀ e, (s.hookTrigger p).chan e = s.chan e) := by
  have k := s.hookTrigger_steady p
  exact ⟨k.at_vol, k.at_lun, k.at_fchan, k.at_lunRun, k.at_conn, k.at_chan⟩

@[simp] theorem State.postCpl_keeps (s : State) (n : Nat) (c : Cpl) :
    (s.postCpl n c).pending = s.pending ∧ (s.postCpl n c).dev = s.dev ∧ (s.postCpl n c).staged = s.staged ∧
    (s.postCpl n c).time = s.time ∧ (s.postCpl n c).bas = s.bas ∧ (s.postCpl n c).vcore = s.vcore ∧ (s.postCpl n c).led = s.led ∧
    (s.postCpl n c).pfw = s.pfw ∧ (s.postCpl n c).drain = s.drain ∧ (s.postCpl n c).start = s.start ∧
    (s.postCpl n c).mbx = s.mbx ∧ (s.postCpl n c).chans = s.chans ∧ (s.postCpl n c).alloc = s.alloc ∧
    (s.postCpl n c).str = s.str ∧ (s.postCpl n c).roles = s.roles ∧ (s.postCpl n c).tab = s.tab ∧ (s.postCpl n c).fl = s.fl ∧
    (s.postCpl n c).dram = s.dram ∧ (s.postCpl n c).fab = s.fab ∧ (s.postCpl n c).img = s.img ∧ (s.postCpl n c).usb = s.usb ∧
    (s.postCpl n c).selfTest = s.selfTest ∧ (s.postCpl n c).jtag = s.jtag ∧ (s.postCpl n c).junction = s.junction ∧
    (s.postCpl n c).portsFailed = s.portsFailed ∧ (s.postCpl n c).rebuilding = s.rebuilding ∧
    (s.postCpl n c).sparesOut = s.sparesOut ∧ (s.postCpl n c).flintLatched = s.flintLatched ∧
    (∀ e, ((s.postCpl n c).engine e).k = (s.engine e).k) ∧ (∀ e, ((s.postCpl n c).engine e).z = (s.engine e).z) ∧
    (∀ e, ((s.postCpl n c).engine e).n = (s.engine e).n) ∧ (∀ e, ((s.postCpl n c).engine e).c = (s.engine e).c) ∧
    (∀ e, ((s.postCpl n c).engine e).v = (s.engine e).v) ∧ (∀ e, ((s.postCpl n c).engine e).pc = (s.engine e).pc) ∧
    (∀ e, ((s.postCpl n c).engine e).run = (s.engine e).run) ∧ (∀ e, ((s.postCpl n c).engine e).waiting = (s.engine e).waiting) ∧
    (∀ e, ((s.postCpl n c).engine e).fault = (s.engine e).fault) ∧ (∀ e, ((s.postCpl n c).engine e).cause = (s.engine e).cause) ∧
    (∀ e, ((s.postCpl n c).engine e).fpc = (s.engine e).fpc) ∧ (∀ e, ((s.postCpl n c).engine e).dbg = (s.engine e).dbg) ∧
    (∀ e, ((s.postCpl n c).engine e).stepping = (s.engine e).stepping) ∧
    (∀ e, ((s.postCpl n c).engine e).prog = (s.engine e).prog) ∧ (∀ e, ((s.postCpl n c).engine e).data = (s.engine e).data) ∧
    (∀ e, ((s.postCpl n c).engine e).upHold = (s.engine e).upHold) ∧
    (∀ e, ((s.postCpl n c).engine e).calHold = (s.engine e).calHold) ∧
    (∀ e, ((s.postCpl n c).engine e).loadRes = (s.engine e).loadRes) ∧ (s.postCpl n c).hooks.table = s.hooks.table ∧
    (s.postCpl n c).hooks.entry = s.hooks.entry ∧ (s.postCpl n c).hooks.busy = s.hooks.busy ∧
    (s.postCpl n c).hooks.result = s.hooks.result ∧ (s.postCpl n c).hooks.abandoned = s.hooks.abandoned ∧
    (s.postCpl n c).hooks.dbgRefused = s.hooks.dbgRefused ∧ (s.postCpl n c).hooks.dbgAddr = s.hooks.dbgAddr ∧
    (s.postCpl n c).pcie.perstHeld = s.pcie.perstHeld ∧ (s.postCpl n c).pcie.detect = s.pcie.detect ∧
    (s.postCpl n c).pcie.up = s.pcie.up ∧ (s.postCpl n c).pcie.crs = s.pcie.crs ∧ (s.postCpl n c).pcie.bme = s.pcie.bme ∧
    (s.postCpl n c).pcie.aer = s.pcie.aer ∧ (s.postCpl n c).pcie.msixEn = s.pcie.msixEn ∧
    (s.postCpl n c).pcie.fnMask = s.pcie.fnMask ∧ (s.postCpl n c).pcie.d3 = s.pcie.d3 ∧ (s.postCpl n c).pcie.msix = s.pcie.msix ∧
    (s.postCpl n c).pcie.ltr = s.pcie.ltr ∧ (s.postCpl n c).pcie.l1Asked = s.pcie.l1Asked ∧
    (s.postCpl n c).nv.amber = s.nv.amber ∧ (s.postCpl n c).nv.scree = s.nv.scree ∧ (s.postCpl n c).nv.screeSeq = s.nv.screeSeq ∧
    (s.postCpl n c).nv.single = s.nv.single ∧ (s.postCpl n c).nv.savedTc = s.nv.savedTc ∧
    (s.postCpl n c).nv.savedOpt = s.nv.savedOpt ∧ (s.postCpl n c).nv.savedCycles = s.nv.savedCycles ∧
    (s.postCpl n c).nv.boot = s.nv.boot ∧ (s.postCpl n c).nv.vols = s.nv.vols ∧ (s.postCpl n c).nv.pins = s.nv.pins ∧
    (s.postCpl n c).nv.loss = s.nv.loss ∧ (s.postCpl n c).nv.firings = s.nv.firings ∧ (s.postCpl n c).nv.config = s.nv.config ∧
    (s.postCpl n c).nv.failed = s.nv.failed ∧ (s.postCpl n c).nv.measHist = s.nv.measHist ∧
    (s.postCpl n c).nv.startHist = s.nv.startHist ∧ (s.postCpl n c).nv.paceFloor = s.nv.paceFloor ∧
    (s.postCpl n c).nv.floor = s.nv.floor ∧ (s.postCpl n c).nv.luns = s.nv.luns ∧ (s.postCpl n c).nv.pools = s.nv.pools ∧
    (s.postCpl n c).nv.keys = s.nv.keys ∧ (s.postCpl n c).nv.sanitize = s.nv.sanitize ∧
    (s.postCpl n c).nv.sanDone = s.nv.sanDone ∧ (s.postCpl n c).nv.sanScope = s.nv.sanScope ∧
    (s.postCpl n c).nv.lastMsn = s.nv.lastMsn ∧ (s.postCpl n c).nv.selfTests = s.nv.selfTests ∧
    (s.postCpl n c).nv.lastSelf = s.nv.lastSelf ∧ (s.postCpl n c).nv.rebuilt = s.nv.rebuilt ∧
    (s.postCpl n c).nv.stopCal = s.nv.stopCal ∧ (s.postCpl n c).nv.configOk = s.nv.configOk ∧
    (s.postCpl n c).nv.journalOk = s.nv.journalOk ∧ (s.postCpl n c).nv.missing = s.nv.missing ∧
    (s.postCpl n c).nv.drained = s.nv.drained ∧ (s.postCpl n c).nv.drainCut = s.nv.drainCut ∧
    (s.postCpl n c).nv.drainFailed = s.nv.drainFailed ∧ (s.postCpl n c).nv.noManifest = s.nv.noManifest ∧
    (s.postCpl n c).nv.lastStop = s.nv.lastStop := by
  have k := s.postCpl_steady n c
  exact ⟨k.pending, k.dev, k.staged, k.time, k.bas, k.vcore, k.led, k.pfw, k.drain, k.start, k.mbx, k.chans, k.alloc, k.str, k.roles,
    k.tab, k.fl, k.dram, k.fab, k.img, k.usb, k.selfTest, k.jtag, k.junction, k.portsFailed, k.rebuilding, k.sparesOut,
    k.flintLatched, k.engine_k, k.engine_z, k.engine_n, k.engine_c, k.engine_v, k.engine_pc, k.engine_run, k.engine_waiting,
    k.engine_fault, k.engine_cause, k.engine_fpc, k.engine_dbg, k.engine_stepping, k.engine_prog, k.engine_data, k.engine_upHold,
    k.engine_calHold, k.engine_loadRes, k.hooks_table, k.hooks_entry, k.hooks_busy, k.hooks_result, k.hooks_abandoned,
    k.hooks_dbgRefused, k.hooks_dbgAddr, k.pcie_perstHeld, k.pcie_detect, k.pcie_up, k.pcie_crs, k.pcie_bme, k.pcie_aer,
    k.pcie_msixEn, k.pcie_fnMask, k.pcie_d3, k.pcie_msix, k.pcie_ltr, k.pcie_l1Asked, k.nv_amber, k.nv_scree, k.nv_screeSeq,
    k.nv_single, k.nv_savedTc, k.nv_savedOpt, k.nv_savedCycles, k.nv_boot, k.nv_vols, k.nv_pins, k.nv_loss, k.nv_firings,
    k.nv_config, k.nv_failed, k.nv_measHist, k.nv_startHist, k.nv_paceFloor, k.nv_floor, k.nv_luns, k.nv_pools, k.nv_keys,
    k.nv_sanitize, k.nv_sanDone, k.nv_sanScope, k.nv_lastMsn, k.nv_selfTests, k.nv_lastSelf, k.nv_rebuilt, k.nv_stopCal,
    k.nv_configOk, k.nv_journalOk, k.nv_missing, k.nv_drained, k.nv_drainCut, k.nv_drainFailed, k.nv_noManifest, k.nv_lastStop⟩

@[simp] theorem State.postCpl_finds (s : State) (n : Nat) (c : Cpl) :
    (∀ e, (s.postCpl n c).vol e = s.vol e) ∧ (∀ e, (s.postCpl n c).lun e = s.lun e) ∧
    (∀ e, (s.postCpl n c).fchan e = s.fchan e) ∧ (∀ e, (s.postCpl n c).lunRun e = s.lunRun e) ∧
    (∀ e, (s.postCpl n c).conn e = s.conn e) ∧ (∀ e, (s.postCpl n c).chan e = s.chan e) := by
  have k := s.postCpl_steady n c
  exact ⟨k.at_vol, k.at_lun, k.at_fchan, k.at_lunRun, k.at_conn, k.at_chan⟩

@[simp] theorem State.pumpRing_keeps (s : State) (n : Nat) :
    (s.pumpRing n).pending = s.pending ∧ (s.pumpRing n).dev = s.dev ∧ (s.pumpRing n).staged = s.staged ∧
    (s.pumpRing n).time = s.time ∧ (s.pumpRing n).bas = s.bas ∧ (s.pumpRing n).vcore = s.vcore ∧ (s.pumpRing n).led = s.led ∧
    (s.pumpRing n).pfw = s.pfw ∧ (s.pumpRing n).drain = s.drain ∧ (s.pumpRing n).start = s.start ∧ (s.pumpRing n).mbx = s.mbx ∧
    (s.pumpRing n).chans = s.chans ∧ (s.pumpRing n).alloc = s.alloc ∧ (s.pumpRing n).str = s.str ∧
    (s.pumpRing n).roles = s.roles ∧ (s.pumpRing n).tab = s.tab ∧ (s.pumpRing n).fl = s.fl ∧ (s.pumpRing n).dram = s.dram ∧
    (s.pumpRing n).fab = s.fab ∧ (s.pumpRing n).img = s.img ∧ (s.pumpRing n).usb = s.usb ∧ (s.pumpRing n).selfTest = s.selfTest ∧
    (s.pumpRing n).jtag = s.jtag ∧ (s.pumpRing n).junction = s.junction ∧ (s.pumpRing n).portsFailed = s.portsFailed ∧
    (s.pumpRing n).rebuilding = s.rebuilding ∧ (s.pumpRing n).sparesOut = s.sparesOut ∧
    (s.pumpRing n).flintLatched = s.flintLatched ∧ (∀ e, ((s.pumpRing n).engine e).k = (s.engine e).k) ∧
    (∀ e, ((s.pumpRing n).engine e).z = (s.engine e).z) ∧ (∀ e, ((s.pumpRing n).engine e).n = (s.engine e).n) ∧
    (∀ e, ((s.pumpRing n).engine e).c = (s.engine e).c) ∧ (∀ e, ((s.pumpRing n).engine e).v = (s.engine e).v) ∧
    (∀ e, ((s.pumpRing n).engine e).pc = (s.engine e).pc) ∧ (∀ e, ((s.pumpRing n).engine e).run = (s.engine e).run) ∧
    (∀ e, ((s.pumpRing n).engine e).waiting = (s.engine e).waiting) ∧
    (∀ e, ((s.pumpRing n).engine e).fault = (s.engine e).fault) ∧ (∀ e, ((s.pumpRing n).engine e).cause = (s.engine e).cause) ∧
    (∀ e, ((s.pumpRing n).engine e).fpc = (s.engine e).fpc) ∧ (∀ e, ((s.pumpRing n).engine e).dbg = (s.engine e).dbg) ∧
    (∀ e, ((s.pumpRing n).engine e).stepping = (s.engine e).stepping) ∧
    (∀ e, ((s.pumpRing n).engine e).prog = (s.engine e).prog) ∧ (∀ e, ((s.pumpRing n).engine e).data = (s.engine e).data) ∧
    (∀ e, ((s.pumpRing n).engine e).upHold = (s.engine e).upHold) ∧
    (∀ e, ((s.pumpRing n).engine e).calHold = (s.engine e).calHold) ∧
    (∀ e, ((s.pumpRing n).engine e).loadRes = (s.engine e).loadRes) ∧ (s.pumpRing n).hooks.table = s.hooks.table ∧
    (s.pumpRing n).hooks.entry = s.hooks.entry ∧ (s.pumpRing n).hooks.busy = s.hooks.busy ∧
    (s.pumpRing n).hooks.result = s.hooks.result ∧ (s.pumpRing n).hooks.abandoned = s.hooks.abandoned ∧
    (s.pumpRing n).hooks.dbgRefused = s.hooks.dbgRefused ∧ (s.pumpRing n).hooks.dbgAddr = s.hooks.dbgAddr ∧
    (s.pumpRing n).pcie.perstHeld = s.pcie.perstHeld ∧ (s.pumpRing n).pcie.detect = s.pcie.detect ∧
    (s.pumpRing n).pcie.up = s.pcie.up ∧ (s.pumpRing n).pcie.crs = s.pcie.crs ∧ (s.pumpRing n).pcie.bme = s.pcie.bme ∧
    (s.pumpRing n).pcie.aer = s.pcie.aer ∧ (s.pumpRing n).pcie.msixEn = s.pcie.msixEn ∧
    (s.pumpRing n).pcie.fnMask = s.pcie.fnMask ∧ (s.pumpRing n).pcie.d3 = s.pcie.d3 ∧ (s.pumpRing n).pcie.msix = s.pcie.msix ∧
    (s.pumpRing n).pcie.ltr = s.pcie.ltr ∧ (s.pumpRing n).pcie.l1Asked = s.pcie.l1Asked ∧ (s.pumpRing n).nv.amber = s.nv.amber ∧
    (s.pumpRing n).nv.scree = s.nv.scree ∧ (s.pumpRing n).nv.screeSeq = s.nv.screeSeq ∧ (s.pumpRing n).nv.single = s.nv.single ∧
    (s.pumpRing n).nv.savedTc = s.nv.savedTc ∧ (s.pumpRing n).nv.savedOpt = s.nv.savedOpt ∧
    (s.pumpRing n).nv.savedCycles = s.nv.savedCycles ∧ (s.pumpRing n).nv.boot = s.nv.boot ∧ (s.pumpRing n).nv.vols = s.nv.vols ∧
    (s.pumpRing n).nv.pins = s.nv.pins ∧ (s.pumpRing n).nv.loss = s.nv.loss ∧ (s.pumpRing n).nv.firings = s.nv.firings ∧
    (s.pumpRing n).nv.config = s.nv.config ∧ (s.pumpRing n).nv.failed = s.nv.failed ∧
    (s.pumpRing n).nv.measHist = s.nv.measHist ∧ (s.pumpRing n).nv.startHist = s.nv.startHist ∧
    (s.pumpRing n).nv.paceFloor = s.nv.paceFloor ∧ (s.pumpRing n).nv.floor = s.nv.floor ∧ (s.pumpRing n).nv.luns = s.nv.luns ∧
    (s.pumpRing n).nv.pools = s.nv.pools ∧ (s.pumpRing n).nv.keys = s.nv.keys ∧ (s.pumpRing n).nv.sanitize = s.nv.sanitize ∧
    (s.pumpRing n).nv.sanDone = s.nv.sanDone ∧ (s.pumpRing n).nv.sanScope = s.nv.sanScope ∧
    (s.pumpRing n).nv.lastMsn = s.nv.lastMsn ∧ (s.pumpRing n).nv.selfTests = s.nv.selfTests ∧
    (s.pumpRing n).nv.lastSelf = s.nv.lastSelf ∧ (s.pumpRing n).nv.rebuilt = s.nv.rebuilt ∧
    (s.pumpRing n).nv.stopCal = s.nv.stopCal ∧ (s.pumpRing n).nv.configOk = s.nv.configOk ∧
    (s.pumpRing n).nv.journalOk = s.nv.journalOk ∧ (s.pumpRing n).nv.missing = s.nv.missing ∧
    (s.pumpRing n).nv.drained = s.nv.drained ∧ (s.pumpRing n).nv.drainCut = s.nv.drainCut ∧
    (s.pumpRing n).nv.drainFailed = s.nv.drainFailed ∧ (s.pumpRing n).nv.noManifest = s.nv.noManifest ∧
    (s.pumpRing n).nv.lastStop = s.nv.lastStop := by
  have k := s.pumpRing_steady n
  exact ⟨k.pending, k.dev, k.staged, k.time, k.bas, k.vcore, k.led, k.pfw, k.drain, k.start, k.mbx, k.chans, k.alloc, k.str, k.roles,
    k.tab, k.fl, k.dram, k.fab, k.img, k.usb, k.selfTest, k.jtag, k.junction, k.portsFailed, k.rebuilding, k.sparesOut,
    k.flintLatched, k.engine_k, k.engine_z, k.engine_n, k.engine_c, k.engine_v, k.engine_pc, k.engine_run, k.engine_waiting,
    k.engine_fault, k.engine_cause, k.engine_fpc, k.engine_dbg, k.engine_stepping, k.engine_prog, k.engine_data, k.engine_upHold,
    k.engine_calHold, k.engine_loadRes, k.hooks_table, k.hooks_entry, k.hooks_busy, k.hooks_result, k.hooks_abandoned,
    k.hooks_dbgRefused, k.hooks_dbgAddr, k.pcie_perstHeld, k.pcie_detect, k.pcie_up, k.pcie_crs, k.pcie_bme, k.pcie_aer,
    k.pcie_msixEn, k.pcie_fnMask, k.pcie_d3, k.pcie_msix, k.pcie_ltr, k.pcie_l1Asked, k.nv_amber, k.nv_scree, k.nv_screeSeq,
    k.nv_single, k.nv_savedTc, k.nv_savedOpt, k.nv_savedCycles, k.nv_boot, k.nv_vols, k.nv_pins, k.nv_loss, k.nv_firings,
    k.nv_config, k.nv_failed, k.nv_measHist, k.nv_startHist, k.nv_paceFloor, k.nv_floor, k.nv_luns, k.nv_pools, k.nv_keys,
    k.nv_sanitize, k.nv_sanDone, k.nv_sanScope, k.nv_lastMsn, k.nv_selfTests, k.nv_lastSelf, k.nv_rebuilt, k.nv_stopCal,
    k.nv_configOk, k.nv_journalOk, k.nv_missing, k.nv_drained, k.nv_drainCut, k.nv_drainFailed, k.nv_noManifest, k.nv_lastStop⟩

@[simp] theorem State.pumpRing_finds (s : State) (n : Nat) :
    (∀ e, (s.pumpRing n).vol e = s.vol e) ∧ (∀ e, (s.pumpRing n).lun e = s.lun e) ∧ (∀ e, (s.pumpRing n).fchan e = s.fchan e) ∧
    (∀ e, (s.pumpRing n).lunRun e = s.lunRun e) ∧ (∀ e, (s.pumpRing n).conn e = s.conn e) ∧
    (∀ e, (s.pumpRing n).chan e = s.chan e) := by
  have k := s.pumpRing_steady n
  exact ⟨k.at_vol, k.at_lun, k.at_fchan, k.at_lunRun, k.at_conn, k.at_chan⟩

@[simp] theorem State.triggerAll_keeps (s : State) (a : Nat) (p : Cairn → Bool) :
    (s.triggerAll a p).pending = s.pending ∧ (s.triggerAll a p).dev = s.dev ∧ (s.triggerAll a p).staged = s.staged ∧
    (s.triggerAll a p).time = s.time ∧ (s.triggerAll a p).bas = s.bas ∧ (s.triggerAll a p).vcore = s.vcore ∧
    (s.triggerAll a p).led = s.led ∧ (s.triggerAll a p).pfw = s.pfw ∧ (s.triggerAll a p).drain = s.drain ∧
    (s.triggerAll a p).start = s.start ∧ (s.triggerAll a p).mbx = s.mbx ∧ (s.triggerAll a p).chans = s.chans ∧
    (s.triggerAll a p).alloc = s.alloc ∧ (s.triggerAll a p).str = s.str ∧ (s.triggerAll a p).roles = s.roles ∧
    (s.triggerAll a p).tab = s.tab ∧ (s.triggerAll a p).fl = s.fl ∧ (s.triggerAll a p).dram = s.dram ∧
    (s.triggerAll a p).fab = s.fab ∧ (s.triggerAll a p).img = s.img ∧ (s.triggerAll a p).usb = s.usb ∧
    (s.triggerAll a p).selfTest = s.selfTest ∧ (s.triggerAll a p).jtag = s.jtag ∧ (s.triggerAll a p).junction = s.junction ∧
    (s.triggerAll a p).portsFailed = s.portsFailed ∧ (s.triggerAll a p).rebuilding = s.rebuilding ∧
    (s.triggerAll a p).sparesOut = s.sparesOut ∧ (s.triggerAll a p).flintLatched = s.flintLatched ∧
    (∀ e, ((s.triggerAll a p).engine e).k = (s.engine e).k) ∧ (∀ e, ((s.triggerAll a p).engine e).z = (s.engine e).z) ∧
    (∀ e, ((s.triggerAll a p).engine e).n = (s.engine e).n) ∧ (∀ e, ((s.triggerAll a p).engine e).c = (s.engine e).c) ∧
    (∀ e, ((s.triggerAll a p).engine e).v = (s.engine e).v) ∧ (∀ e, ((s.triggerAll a p).engine e).pc = (s.engine e).pc) ∧
    (∀ e, ((s.triggerAll a p).engine e).run = (s.engine e).run) ∧
    (∀ e, ((s.triggerAll a p).engine e).waiting = (s.engine e).waiting) ∧
    (∀ e, ((s.triggerAll a p).engine e).fault = (s.engine e).fault) ∧
    (∀ e, ((s.triggerAll a p).engine e).cause = (s.engine e).cause) ∧
    (∀ e, ((s.triggerAll a p).engine e).fpc = (s.engine e).fpc) ∧ (∀ e, ((s.triggerAll a p).engine e).dbg = (s.engine e).dbg) ∧
    (∀ e, ((s.triggerAll a p).engine e).stepping = (s.engine e).stepping) ∧
    (∀ e, ((s.triggerAll a p).engine e).prog = (s.engine e).prog) ∧
    (∀ e, ((s.triggerAll a p).engine e).data = (s.engine e).data) ∧
    (∀ e, ((s.triggerAll a p).engine e).upHold = (s.engine e).upHold) ∧
    (∀ e, ((s.triggerAll a p).engine e).calHold = (s.engine e).calHold) ∧
    (∀ e, ((s.triggerAll a p).engine e).loadRes = (s.engine e).loadRes) ∧ (s.triggerAll a p).hooks.table = s.hooks.table ∧
    (s.triggerAll a p).hooks.entry = s.hooks.entry ∧ (s.triggerAll a p).hooks.busy = s.hooks.busy ∧
    (s.triggerAll a p).hooks.result = s.hooks.result ∧ (s.triggerAll a p).hooks.abandoned = s.hooks.abandoned ∧
    (s.triggerAll a p).hooks.dbgRefused = s.hooks.dbgRefused ∧ (s.triggerAll a p).hooks.dbgAddr = s.hooks.dbgAddr ∧
    (s.triggerAll a p).pcie.perstHeld = s.pcie.perstHeld ∧ (s.triggerAll a p).pcie.detect = s.pcie.detect ∧
    (s.triggerAll a p).pcie.up = s.pcie.up ∧ (s.triggerAll a p).pcie.crs = s.pcie.crs ∧
    (s.triggerAll a p).pcie.bme = s.pcie.bme ∧ (s.triggerAll a p).pcie.aer = s.pcie.aer ∧
    (s.triggerAll a p).pcie.msixEn = s.pcie.msixEn ∧ (s.triggerAll a p).pcie.fnMask = s.pcie.fnMask ∧
    (s.triggerAll a p).pcie.d3 = s.pcie.d3 ∧ (s.triggerAll a p).pcie.msix = s.pcie.msix ∧
    (s.triggerAll a p).pcie.ltr = s.pcie.ltr ∧ (s.triggerAll a p).pcie.l1Asked = s.pcie.l1Asked ∧
    (s.triggerAll a p).nv.amber = s.nv.amber ∧ (s.triggerAll a p).nv.scree = s.nv.scree ∧
    (s.triggerAll a p).nv.screeSeq = s.nv.screeSeq ∧ (s.triggerAll a p).nv.single = s.nv.single ∧
    (s.triggerAll a p).nv.savedTc = s.nv.savedTc ∧ (s.triggerAll a p).nv.savedOpt = s.nv.savedOpt ∧
    (s.triggerAll a p).nv.savedCycles = s.nv.savedCycles ∧ (s.triggerAll a p).nv.boot = s.nv.boot ∧
    (s.triggerAll a p).nv.vols = s.nv.vols ∧ (s.triggerAll a p).nv.pins = s.nv.pins ∧ (s.triggerAll a p).nv.loss = s.nv.loss ∧
    (s.triggerAll a p).nv.firings = s.nv.firings ∧ (s.triggerAll a p).nv.config = s.nv.config ∧
    (s.triggerAll a p).nv.failed = s.nv.failed ∧ (s.triggerAll a p).nv.measHist = s.nv.measHist ∧
    (s.triggerAll a p).nv.startHist = s.nv.startHist ∧ (s.triggerAll a p).nv.paceFloor = s.nv.paceFloor ∧
    (s.triggerAll a p).nv.floor = s.nv.floor ∧ (s.triggerAll a p).nv.luns = s.nv.luns ∧
    (s.triggerAll a p).nv.pools = s.nv.pools ∧ (s.triggerAll a p).nv.keys = s.nv.keys ∧
    (s.triggerAll a p).nv.sanitize = s.nv.sanitize ∧ (s.triggerAll a p).nv.sanDone = s.nv.sanDone ∧
    (s.triggerAll a p).nv.sanScope = s.nv.sanScope ∧ (s.triggerAll a p).nv.lastMsn = s.nv.lastMsn ∧
    (s.triggerAll a p).nv.selfTests = s.nv.selfTests ∧ (s.triggerAll a p).nv.lastSelf = s.nv.lastSelf ∧
    (s.triggerAll a p).nv.rebuilt = s.nv.rebuilt ∧ (s.triggerAll a p).nv.stopCal = s.nv.stopCal ∧
    (s.triggerAll a p).nv.configOk = s.nv.configOk ∧ (s.triggerAll a p).nv.journalOk = s.nv.journalOk ∧
    (s.triggerAll a p).nv.missing = s.nv.missing ∧ (s.triggerAll a p).nv.drained = s.nv.drained ∧
    (s.triggerAll a p).nv.drainCut = s.nv.drainCut ∧ (s.triggerAll a p).nv.drainFailed = s.nv.drainFailed ∧
    (s.triggerAll a p).nv.noManifest = s.nv.noManifest ∧ (s.triggerAll a p).nv.lastStop = s.nv.lastStop := by
  have k := s.triggerAll_steady a p
  exact ⟨k.pending, k.dev, k.staged, k.time, k.bas, k.vcore, k.led, k.pfw, k.drain, k.start, k.mbx, k.chans, k.alloc, k.str, k.roles,
    k.tab, k.fl, k.dram, k.fab, k.img, k.usb, k.selfTest, k.jtag, k.junction, k.portsFailed, k.rebuilding, k.sparesOut,
    k.flintLatched, k.engine_k, k.engine_z, k.engine_n, k.engine_c, k.engine_v, k.engine_pc, k.engine_run, k.engine_waiting,
    k.engine_fault, k.engine_cause, k.engine_fpc, k.engine_dbg, k.engine_stepping, k.engine_prog, k.engine_data, k.engine_upHold,
    k.engine_calHold, k.engine_loadRes, k.hooks_table, k.hooks_entry, k.hooks_busy, k.hooks_result, k.hooks_abandoned,
    k.hooks_dbgRefused, k.hooks_dbgAddr, k.pcie_perstHeld, k.pcie_detect, k.pcie_up, k.pcie_crs, k.pcie_bme, k.pcie_aer,
    k.pcie_msixEn, k.pcie_fnMask, k.pcie_d3, k.pcie_msix, k.pcie_ltr, k.pcie_l1Asked, k.nv_amber, k.nv_scree, k.nv_screeSeq,
    k.nv_single, k.nv_savedTc, k.nv_savedOpt, k.nv_savedCycles, k.nv_boot, k.nv_vols, k.nv_pins, k.nv_loss, k.nv_firings,
    k.nv_config, k.nv_failed, k.nv_measHist, k.nv_startHist, k.nv_paceFloor, k.nv_floor, k.nv_luns, k.nv_pools, k.nv_keys,
    k.nv_sanitize, k.nv_sanDone, k.nv_sanScope, k.nv_lastMsn, k.nv_selfTests, k.nv_lastSelf, k.nv_rebuilt, k.nv_stopCal,
    k.nv_configOk, k.nv_journalOk, k.nv_missing, k.nv_drained, k.nv_drainCut, k.nv_drainFailed, k.nv_noManifest, k.nv_lastStop⟩

@[simp] theorem State.triggerAll_finds (s : State) (a : Nat) (p : Cairn → Bool) :
    (∀ e, (s.triggerAll a p).vol e = s.vol e) ∧ (∀ e, (s.triggerAll a p).lun e = s.lun e) ∧
    (∀ e, (s.triggerAll a p).fchan e = s.fchan e) ∧ (∀ e, (s.triggerAll a p).lunRun e = s.lunRun e) ∧
    (∀ e, (s.triggerAll a p).conn e = s.conn e) ∧ (∀ e, (s.triggerAll a p).chan e = s.chan e) := by
  have k := s.triggerAll_steady a p
  exact ⟨k.at_vol, k.at_lun, k.at_fchan, k.at_lunRun, k.at_conn, k.at_chan⟩

@[simp] theorem State.countCairns_keeps (s : State) (i : Nat) :
    (s.countCairns i).pending = s.pending ∧ (s.countCairns i).dev = s.dev ∧ (s.countCairns i).staged = s.staged ∧
    (s.countCairns i).time = s.time ∧ (s.countCairns i).bas = s.bas ∧ (s.countCairns i).vcore = s.vcore ∧
    (s.countCairns i).led = s.led ∧ (s.countCairns i).pfw = s.pfw ∧ (s.countCairns i).drain = s.drain ∧
    (s.countCairns i).start = s.start ∧ (s.countCairns i).mbx = s.mbx ∧ (s.countCairns i).chans = s.chans ∧
    (s.countCairns i).alloc = s.alloc ∧ (s.countCairns i).str = s.str ∧ (s.countCairns i).roles = s.roles ∧
    (s.countCairns i).tab = s.tab ∧ (s.countCairns i).fl = s.fl ∧ (s.countCairns i).dram = s.dram ∧
    (s.countCairns i).fab = s.fab ∧ (s.countCairns i).img = s.img ∧ (s.countCairns i).usb = s.usb ∧
    (s.countCairns i).selfTest = s.selfTest ∧ (s.countCairns i).jtag = s.jtag ∧ (s.countCairns i).junction = s.junction ∧
    (s.countCairns i).portsFailed = s.portsFailed ∧ (s.countCairns i).rebuilding = s.rebuilding ∧
    (s.countCairns i).sparesOut = s.sparesOut ∧ (s.countCairns i).flintLatched = s.flintLatched ∧
    (∀ e, ((s.countCairns i).engine e).k = (s.engine e).k) ∧ (∀ e, ((s.countCairns i).engine e).z = (s.engine e).z) ∧
    (∀ e, ((s.countCairns i).engine e).n = (s.engine e).n) ∧ (∀ e, ((s.countCairns i).engine e).c = (s.engine e).c) ∧
    (∀ e, ((s.countCairns i).engine e).v = (s.engine e).v) ∧ (∀ e, ((s.countCairns i).engine e).pc = (s.engine e).pc) ∧
    (∀ e, ((s.countCairns i).engine e).run = (s.engine e).run) ∧
    (∀ e, ((s.countCairns i).engine e).waiting = (s.engine e).waiting) ∧
    (∀ e, ((s.countCairns i).engine e).fault = (s.engine e).fault) ∧
    (∀ e, ((s.countCairns i).engine e).cause = (s.engine e).cause) ∧ (∀ e, ((s.countCairns i).engine e).fpc = (s.engine e).fpc) ∧
    (∀ e, ((s.countCairns i).engine e).dbg = (s.engine e).dbg) ∧
    (∀ e, ((s.countCairns i).engine e).stepping = (s.engine e).stepping) ∧
    (∀ e, ((s.countCairns i).engine e).prog = (s.engine e).prog) ∧ (∀ e, ((s.countCairns i).engine e).data = (s.engine e).data) ∧
    (∀ e, ((s.countCairns i).engine e).upHold = (s.engine e).upHold) ∧
    (∀ e, ((s.countCairns i).engine e).calHold = (s.engine e).calHold) ∧
    (∀ e, ((s.countCairns i).engine e).loadRes = (s.engine e).loadRes) ∧ (s.countCairns i).hooks.table = s.hooks.table ∧
    (s.countCairns i).hooks.entry = s.hooks.entry ∧ (s.countCairns i).hooks.busy = s.hooks.busy ∧
    (s.countCairns i).hooks.result = s.hooks.result ∧ (s.countCairns i).hooks.abandoned = s.hooks.abandoned ∧
    (s.countCairns i).hooks.dbgRefused = s.hooks.dbgRefused ∧ (s.countCairns i).hooks.dbgAddr = s.hooks.dbgAddr ∧
    (s.countCairns i).pcie.perstHeld = s.pcie.perstHeld ∧ (s.countCairns i).pcie.detect = s.pcie.detect ∧
    (s.countCairns i).pcie.up = s.pcie.up ∧ (s.countCairns i).pcie.crs = s.pcie.crs ∧ (s.countCairns i).pcie.bme = s.pcie.bme ∧
    (s.countCairns i).pcie.aer = s.pcie.aer ∧ (s.countCairns i).pcie.msixEn = s.pcie.msixEn ∧
    (s.countCairns i).pcie.fnMask = s.pcie.fnMask ∧ (s.countCairns i).pcie.d3 = s.pcie.d3 ∧
    (s.countCairns i).pcie.msix = s.pcie.msix ∧ (s.countCairns i).pcie.ltr = s.pcie.ltr ∧
    (s.countCairns i).pcie.l1Asked = s.pcie.l1Asked ∧ (s.countCairns i).nv.amber = s.nv.amber ∧
    (s.countCairns i).nv.scree = s.nv.scree ∧ (s.countCairns i).nv.screeSeq = s.nv.screeSeq ∧
    (s.countCairns i).nv.single = s.nv.single ∧ (s.countCairns i).nv.savedTc = s.nv.savedTc ∧
    (s.countCairns i).nv.savedOpt = s.nv.savedOpt ∧ (s.countCairns i).nv.savedCycles = s.nv.savedCycles ∧
    (s.countCairns i).nv.boot = s.nv.boot ∧ (s.countCairns i).nv.vols = s.nv.vols ∧ (s.countCairns i).nv.pins = s.nv.pins ∧
    (s.countCairns i).nv.loss = s.nv.loss ∧ (s.countCairns i).nv.firings = s.nv.firings ∧
    (s.countCairns i).nv.config = s.nv.config ∧ (s.countCairns i).nv.failed = s.nv.failed ∧
    (s.countCairns i).nv.measHist = s.nv.measHist ∧ (s.countCairns i).nv.startHist = s.nv.startHist ∧
    (s.countCairns i).nv.paceFloor = s.nv.paceFloor ∧ (s.countCairns i).nv.floor = s.nv.floor ∧
    (s.countCairns i).nv.luns = s.nv.luns ∧ (s.countCairns i).nv.pools = s.nv.pools ∧ (s.countCairns i).nv.keys = s.nv.keys ∧
    (s.countCairns i).nv.sanitize = s.nv.sanitize ∧ (s.countCairns i).nv.sanDone = s.nv.sanDone ∧
    (s.countCairns i).nv.sanScope = s.nv.sanScope ∧ (s.countCairns i).nv.lastMsn = s.nv.lastMsn ∧
    (s.countCairns i).nv.selfTests = s.nv.selfTests ∧ (s.countCairns i).nv.lastSelf = s.nv.lastSelf ∧
    (s.countCairns i).nv.rebuilt = s.nv.rebuilt ∧ (s.countCairns i).nv.stopCal = s.nv.stopCal ∧
    (s.countCairns i).nv.configOk = s.nv.configOk ∧ (s.countCairns i).nv.journalOk = s.nv.journalOk ∧
    (s.countCairns i).nv.missing = s.nv.missing ∧ (s.countCairns i).nv.drained = s.nv.drained ∧
    (s.countCairns i).nv.drainCut = s.nv.drainCut ∧ (s.countCairns i).nv.drainFailed = s.nv.drainFailed ∧
    (s.countCairns i).nv.noManifest = s.nv.noManifest ∧ (s.countCairns i).nv.lastStop = s.nv.lastStop := by
  have k := s.countCairns_steady i
  exact ⟨k.pending, k.dev, k.staged, k.time, k.bas, k.vcore, k.led, k.pfw, k.drain, k.start, k.mbx, k.chans, k.alloc, k.str, k.roles,
    k.tab, k.fl, k.dram, k.fab, k.img, k.usb, k.selfTest, k.jtag, k.junction, k.portsFailed, k.rebuilding, k.sparesOut,
    k.flintLatched, k.engine_k, k.engine_z, k.engine_n, k.engine_c, k.engine_v, k.engine_pc, k.engine_run, k.engine_waiting,
    k.engine_fault, k.engine_cause, k.engine_fpc, k.engine_dbg, k.engine_stepping, k.engine_prog, k.engine_data, k.engine_upHold,
    k.engine_calHold, k.engine_loadRes, k.hooks_table, k.hooks_entry, k.hooks_busy, k.hooks_result, k.hooks_abandoned,
    k.hooks_dbgRefused, k.hooks_dbgAddr, k.pcie_perstHeld, k.pcie_detect, k.pcie_up, k.pcie_crs, k.pcie_bme, k.pcie_aer,
    k.pcie_msixEn, k.pcie_fnMask, k.pcie_d3, k.pcie_msix, k.pcie_ltr, k.pcie_l1Asked, k.nv_amber, k.nv_scree, k.nv_screeSeq,
    k.nv_single, k.nv_savedTc, k.nv_savedOpt, k.nv_savedCycles, k.nv_boot, k.nv_vols, k.nv_pins, k.nv_loss, k.nv_firings,
    k.nv_config, k.nv_failed, k.nv_measHist, k.nv_startHist, k.nv_paceFloor, k.nv_floor, k.nv_luns, k.nv_pools, k.nv_keys,
    k.nv_sanitize, k.nv_sanDone, k.nv_sanScope, k.nv_lastMsn, k.nv_selfTests, k.nv_lastSelf, k.nv_rebuilt, k.nv_stopCal,
    k.nv_configOk, k.nv_journalOk, k.nv_missing, k.nv_drained, k.nv_drainCut, k.nv_drainFailed, k.nv_noManifest, k.nv_lastStop⟩

@[simp] theorem State.countCairns_finds (s : State) (i : Nat) :
    (∀ e, (s.countCairns i).vol e = s.vol e) ∧ (∀ e, (s.countCairns i).lun e = s.lun e) ∧
    (∀ e, (s.countCairns i).fchan e = s.fchan e) ∧ (∀ e, (s.countCairns i).lunRun e = s.lunRun e) ∧
    (∀ e, (s.countCairns i).conn e = s.conn e) ∧ (∀ e, (s.countCairns i).chan e = s.chan e) := by
  have k := s.countCairns_steady i
  exact ⟨k.at_vol, k.at_lun, k.at_fchan, k.at_lunRun, k.at_conn, k.at_chan⟩

@[simp] theorem State.raise_keeps (s : State) (e i : Nat) :
    (s.raise e i).pending = s.pending ∧ (s.raise e i).dev = s.dev ∧ (s.raise e i).staged = s.staged ∧
    (s.raise e i).time = s.time ∧ (s.raise e i).bas = s.bas ∧ (s.raise e i).vcore = s.vcore ∧ (s.raise e i).led = s.led ∧
    (s.raise e i).pfw = s.pfw ∧ (s.raise e i).drain = s.drain ∧ (s.raise e i).start = s.start ∧ (s.raise e i).mbx = s.mbx ∧
    (s.raise e i).chans = s.chans ∧ (s.raise e i).alloc = s.alloc ∧ (s.raise e i).str = s.str ∧ (s.raise e i).roles = s.roles ∧
    (s.raise e i).tab = s.tab ∧ (s.raise e i).fl = s.fl ∧ (s.raise e i).dram = s.dram ∧ (s.raise e i).fab = s.fab ∧
    (s.raise e i).img = s.img ∧ (s.raise e i).usb = s.usb ∧ (s.raise e i).selfTest = s.selfTest ∧ (s.raise e i).jtag = s.jtag ∧
    (s.raise e i).junction = s.junction ∧ (s.raise e i).portsFailed = s.portsFailed ∧ (s.raise e i).rebuilding = s.rebuilding ∧
    (s.raise e i).sparesOut = s.sparesOut ∧ (s.raise e i).flintLatched = s.flintLatched ∧
    (∀ d, ((s.raise e i).engine d).k = (s.engine d).k) ∧ (∀ d, ((s.raise e i).engine d).z = (s.engine d).z) ∧
    (∀ d, ((s.raise e i).engine d).n = (s.engine d).n) ∧ (∀ d, ((s.raise e i).engine d).c = (s.engine d).c) ∧
    (∀ d, ((s.raise e i).engine d).v = (s.engine d).v) ∧ (∀ d, ((s.raise e i).engine d).pc = (s.engine d).pc) ∧
    (∀ d, ((s.raise e i).engine d).run = (s.engine d).run) ∧ (∀ d, ((s.raise e i).engine d).waiting = (s.engine d).waiting) ∧
    (∀ d, ((s.raise e i).engine d).fault = (s.engine d).fault) ∧ (∀ d, ((s.raise e i).engine d).cause = (s.engine d).cause) ∧
    (∀ d, ((s.raise e i).engine d).fpc = (s.engine d).fpc) ∧ (∀ d, ((s.raise e i).engine d).dbg = (s.engine d).dbg) ∧
    (∀ d, ((s.raise e i).engine d).stepping = (s.engine d).stepping) ∧ (∀ d, ((s.raise e i).engine d).prog = (s.engine d).prog) ∧
    (∀ d, ((s.raise e i).engine d).data = (s.engine d).data) ∧ (∀ d, ((s.raise e i).engine d).upHold = (s.engine d).upHold) ∧
    (∀ d, ((s.raise e i).engine d).calHold = (s.engine d).calHold) ∧
    (∀ d, ((s.raise e i).engine d).loadRes = (s.engine d).loadRes) ∧ (s.raise e i).hooks.table = s.hooks.table ∧
    (s.raise e i).hooks.entry = s.hooks.entry ∧ (s.raise e i).hooks.busy = s.hooks.busy ∧
    (s.raise e i).hooks.result = s.hooks.result ∧ (s.raise e i).hooks.abandoned = s.hooks.abandoned ∧
    (s.raise e i).hooks.dbgRefused = s.hooks.dbgRefused ∧ (s.raise e i).hooks.dbgAddr = s.hooks.dbgAddr ∧
    (s.raise e i).pcie.perstHeld = s.pcie.perstHeld ∧ (s.raise e i).pcie.detect = s.pcie.detect ∧
    (s.raise e i).pcie.up = s.pcie.up ∧ (s.raise e i).pcie.crs = s.pcie.crs ∧ (s.raise e i).pcie.bme = s.pcie.bme ∧
    (s.raise e i).pcie.aer = s.pcie.aer ∧ (s.raise e i).pcie.msixEn = s.pcie.msixEn ∧ (s.raise e i).pcie.fnMask = s.pcie.fnMask ∧
    (s.raise e i).pcie.d3 = s.pcie.d3 ∧ (s.raise e i).pcie.msix = s.pcie.msix ∧ (s.raise e i).pcie.ltr = s.pcie.ltr ∧
    (s.raise e i).pcie.l1Asked = s.pcie.l1Asked ∧ (s.raise e i).nv.amber = s.nv.amber ∧ (s.raise e i).nv.scree = s.nv.scree ∧
    (s.raise e i).nv.screeSeq = s.nv.screeSeq ∧ (s.raise e i).nv.single = s.nv.single ∧ (s.raise e i).nv.savedTc = s.nv.savedTc ∧
    (s.raise e i).nv.savedOpt = s.nv.savedOpt ∧ (s.raise e i).nv.savedCycles = s.nv.savedCycles ∧
    (s.raise e i).nv.boot = s.nv.boot ∧ (s.raise e i).nv.vols = s.nv.vols ∧ (s.raise e i).nv.pins = s.nv.pins ∧
    (s.raise e i).nv.loss = s.nv.loss ∧ (s.raise e i).nv.firings = s.nv.firings ∧ (s.raise e i).nv.config = s.nv.config ∧
    (s.raise e i).nv.failed = s.nv.failed ∧ (s.raise e i).nv.measHist = s.nv.measHist ∧
    (s.raise e i).nv.startHist = s.nv.startHist ∧ (s.raise e i).nv.paceFloor = s.nv.paceFloor ∧
    (s.raise e i).nv.floor = s.nv.floor ∧ (s.raise e i).nv.luns = s.nv.luns ∧ (s.raise e i).nv.pools = s.nv.pools ∧
    (s.raise e i).nv.keys = s.nv.keys ∧ (s.raise e i).nv.sanitize = s.nv.sanitize ∧ (s.raise e i).nv.sanDone = s.nv.sanDone ∧
    (s.raise e i).nv.sanScope = s.nv.sanScope ∧ (s.raise e i).nv.lastMsn = s.nv.lastMsn ∧
    (s.raise e i).nv.selfTests = s.nv.selfTests ∧ (s.raise e i).nv.lastSelf = s.nv.lastSelf ∧
    (s.raise e i).nv.rebuilt = s.nv.rebuilt ∧ (s.raise e i).nv.stopCal = s.nv.stopCal ∧
    (s.raise e i).nv.configOk = s.nv.configOk ∧ (s.raise e i).nv.journalOk = s.nv.journalOk ∧
    (s.raise e i).nv.missing = s.nv.missing ∧ (s.raise e i).nv.drained = s.nv.drained ∧
    (s.raise e i).nv.drainCut = s.nv.drainCut ∧ (s.raise e i).nv.drainFailed = s.nv.drainFailed ∧
    (s.raise e i).nv.noManifest = s.nv.noManifest ∧ (s.raise e i).nv.lastStop = s.nv.lastStop := by
  have k := s.raise_steady e i
  exact ⟨k.pending, k.dev, k.staged, k.time, k.bas, k.vcore, k.led, k.pfw, k.drain, k.start, k.mbx, k.chans, k.alloc, k.str, k.roles,
    k.tab, k.fl, k.dram, k.fab, k.img, k.usb, k.selfTest, k.jtag, k.junction, k.portsFailed, k.rebuilding, k.sparesOut,
    k.flintLatched, k.engine_k, k.engine_z, k.engine_n, k.engine_c, k.engine_v, k.engine_pc, k.engine_run, k.engine_waiting,
    k.engine_fault, k.engine_cause, k.engine_fpc, k.engine_dbg, k.engine_stepping, k.engine_prog, k.engine_data, k.engine_upHold,
    k.engine_calHold, k.engine_loadRes, k.hooks_table, k.hooks_entry, k.hooks_busy, k.hooks_result, k.hooks_abandoned,
    k.hooks_dbgRefused, k.hooks_dbgAddr, k.pcie_perstHeld, k.pcie_detect, k.pcie_up, k.pcie_crs, k.pcie_bme, k.pcie_aer,
    k.pcie_msixEn, k.pcie_fnMask, k.pcie_d3, k.pcie_msix, k.pcie_ltr, k.pcie_l1Asked, k.nv_amber, k.nv_scree, k.nv_screeSeq,
    k.nv_single, k.nv_savedTc, k.nv_savedOpt, k.nv_savedCycles, k.nv_boot, k.nv_vols, k.nv_pins, k.nv_loss, k.nv_firings,
    k.nv_config, k.nv_failed, k.nv_measHist, k.nv_startHist, k.nv_paceFloor, k.nv_floor, k.nv_luns, k.nv_pools, k.nv_keys,
    k.nv_sanitize, k.nv_sanDone, k.nv_sanScope, k.nv_lastMsn, k.nv_selfTests, k.nv_lastSelf, k.nv_rebuilt, k.nv_stopCal,
    k.nv_configOk, k.nv_journalOk, k.nv_missing, k.nv_drained, k.nv_drainCut, k.nv_drainFailed, k.nv_noManifest, k.nv_lastStop⟩

@[simp] theorem State.raise_finds (s : State) (e i : Nat) :
    (∀ d, (s.raise e i).vol d = s.vol d) ∧ (∀ d, (s.raise e i).lun d = s.lun d) ∧ (∀ d, (s.raise e i).fchan d = s.fchan d) ∧
    (∀ d, (s.raise e i).lunRun d = s.lunRun d) ∧ (∀ d, (s.raise e i).conn d = s.conn d) ∧ (∀ d, (s.raise e i).chan d = s.chan d) := by
  have k := s.raise_steady e i
  exact ⟨k.at_vol, k.at_lun, k.at_fchan, k.at_lunRun, k.at_conn, k.at_chan⟩

end Sys2Proof.Machine
end

