-- ==== Sys2Proof/Laws/Device.lean ====
section
/-! SUPPORT. A change of the device state, and what follows it. -/

namespace Sys2Proof.Machine

/-- A change of the device state changes no more than the USB port and the count of trial time, and records the change. -/
theorem State.setDev_shape (s : State) (d : Dev) : ∃ u i, Steady { s with dev := d, usb := u, img := i } (s.setDev d) := by
  unfold State.setDev
  split
  · rename_i h
    subst h
    exact ⟨s.usb, s.img, .refl s⟩
  · have hc : ∀ (x : State) (w : Bool), ∃ i, x.countTrial w = { x with img := i } := by
      intro x w
      unfold State.countTrial
      split
      · exact ⟨_, rfl⟩
      · split
        · exact ⟨_, rfl⟩
        · exact ⟨x.img, rfl⟩
    have hu : ∃ u, (if d.inService ∨ d = .bedrock ∨ d = .recovery then s else { s with usb := { vbus := s.usb.vbus } }) = { s with usb := u } := by
      split
      · exact ⟨s.usb, rfl⟩
      · exact ⟨_, rfl⟩
    obtain ⟨u, hu⟩ := hu
    obtain ⟨i, hi⟩ := hc { ({ s with usb := u } : State) with dev := d } s.dev.inService
    refine ⟨u, i, ?_⟩
    dsimp only
    rw [hu, hi]
    split
    · exact State.record_steady _ _ _ _ _ _ _
    · exact .refl _

/-- A change of the device state, in the terms of Safety. -/
theorem State.setDev_becomes (s : State) (d : Dev) : Becomes s d (s.setDev d) := by
  unfold State.setDev
  split
  · rename_i h
    subst h
    exact ⟨s.usb, s.img.trialHeld, s.img.trialAt, .inl rfl, .refl s⟩
  · have hc : ∀ (x : State) (w : Bool), ∃ a b, x.countTrial w = { x with img := { x.img with trialHeld := a, trialAt := b } } := by
      intro x w
      unfold State.countTrial
      split
      · exact ⟨_, _, rfl⟩
      · split
        · exact ⟨_, _, rfl⟩
        · exact ⟨x.img.trialHeld, x.img.trialAt, rfl⟩
    have hu : ∃ u, (u = s.usb ∨ u = { vbus := s.usb.vbus }) ∧
        (if d.inService ∨ d = .bedrock ∨ d = .recovery then s else { s with usb := { vbus := s.usb.vbus } }) = { s with usb := u } := by
      split
      · exact ⟨s.usb, .inl rfl, rfl⟩
      · exact ⟨_, .inr rfl, rfl⟩
    obtain ⟨u, ho, hu⟩ := hu
    obtain ⟨a, b, hi⟩ := hc { ({ s with usb := u } : State) with dev := d } s.dev.inService
    refine ⟨u, a, b, ho, ?_⟩
    dsimp only
    rw [hu, hi]
    split
    · exact State.record_steady _ _ _ _ _ _ _
    · exact .refl _

/-- Moving between READY and READY_DEGRADED changes the device state alone, and records the change (R275). -/
theorem State.regrade_shape (s : State) :
    Steady (if s.dev.inService then { s with dev := s.serviceState } else s) s.regrade := by
  unfold State.regrade
  split <;> rename_i h
  · have hs : s.serviceState.inService = true := by
      unfold State.serviceState; split <;> decide
    unfold State.setDev
    split
    · rename_i e
      rw [e]; exact .refl s
    · dsimp only
      simp only [hs, true_or, if_true, State.countTrial, h, not_true_eq_false, and_false, if_false, false_and]
      split
      · exact State.record_steady _ _ _ _ _ _ _
      · exact .refl _
  · exact .refl s

/-- What a change of grade leaves as it was. -/
theorem State.regrade_keeps (s : State) :
    s.regrade.nv.failed = s.nv.failed ∧ s.regrade.nv.luns = s.nv.luns ∧ s.regrade.fl = s.fl ∧ s.regrade.pending = s.pending ∧
      s.regrade.time = s.time ∧ s.regrade.str = s.str ∧ s.regrade.bas = s.bas ∧ s.regrade.nv.vols = s.nv.vols ∧
      (∀ e, (s.regrade.engine e).run = (s.engine e).run) := by
  have h := s.regrade_shape
  split at h
  · exact ⟨h.nv_failed, h.nv_luns, h.fl, h.pending, h.time, h.str, h.bas, h.nv_vols, h.engine_run⟩
  · exact ⟨h.nv_failed, h.nv_luns, h.fl, h.pending, h.time, h.str, h.bas, h.nv_vols, h.engine_run⟩

/-! ### LUNs and channels out of service -/

/-- What every step of a fold keeps, the fold keeps. -/
theorem foldl_keeps {α β : Type} (f : State → α → State) (g : State → β) (h : ∀ s a, g (f s a) = g s) (l : List α) (s : State) :
    g (l.foldl f s) = g s := by
  induction l generalizing s with
  | nil => rfl
  | cons a l ih => exact (ih _).trans (h s a)
/-- A rebuild, or the loss it stands for, keeps what is out of service. -/
theorem lose_keeps (s : State) (n : Nat) : (s.rebuildOrLose n).nv.failed = s.nv.failed ∧ (s.rebuildOrLose n).nv.luns = s.nv.luns ∧
   (s.rebuildOrLose n).fl.chans = s.fl.chans ∧ (s.rebuildOrLose n).pending = s.pending := by
  have hl : ∀ (l : List LossRun) (u : State), (l.foldl State.lose u).nv.failed = u.nv.failed ∧ (l.foldl State.lose u).nv.luns = u.nv.luns ∧
      (l.foldl State.lose u).fl = u.fl ∧ (l.foldl State.lose u).pending = u.pending := fun l u =>
    ⟨foldl_keeps State.lose (fun u => u.nv.failed) (fun _ _ => rfl) l u, foldl_keeps State.lose (fun u => u.nv.luns) (fun _ _ => rfl) l u,
     foldl_keeps State.lose (fun u => u.fl) (fun _ _ => rfl) l u, foldl_keeps State.lose (fun u => u.pending) (fun _ _ => rfl) l u⟩
  unfold State.rebuildOrLose State.loseLun State.mapData
  dsimp only
  split
  · exact ⟨rfl, rfl, rfl, rfl⟩
  · split
    · split
      · exact ⟨rfl, rfl, rfl, rfl⟩
      · simp [hl]
    · split
      · exact ⟨rfl, rfl, rfl, rfl⟩
      · simp
theorem journal_keeps (s : State) (i : Nat) : (s.journal i).nv = s.nv ∧ (s.journal i).fl = s.fl ∧ (s.journal i).pending = s.pending := by
  unfold State.journal; dsimp only; split <;> exact ⟨rfl, rfl, rfl⟩
/-- A LUN taken out of service is marked with its cause. -/
theorem markLun_facts (s : State) (n c : Nat) : (s.markLun n c).nv.failed.channels = s.nv.failed.channels ∧
    ((s.markLun n c).lun n).failed = c ∧ (s.markLun n c).pending = s.pending := by
  have A : ∀ u : State, (u.commit.rebuildOrLose n).nv.failed.channels = u.nv.failed.channels ∧ (u.commit.rebuildOrLose n).lun n = u.lun n ∧
      (u.commit.rebuildOrLose n).pending = u.pending := fun u => by
    have h := lose_keeps u.commit n
    have hj := journal_keeps u 0
    refine ⟨?_, ?_, h.2.2.2.trans hj.2.2⟩
    · rw [h.1]; exact congrArg (fun x : Nv => x.failed.channels) hj.1
    · simp only [State.lun, h.2.1]; exact congrArg (fun x : Nv => Map.get {} x.luns n) hj.1
  unfold State.markLun
  dsimp only
  refine ⟨(A _).1.trans ?_, (congrArg Lun.failed (A _).2.1).trans ?_, (A _).2.2.trans ?_⟩
  all_goals unfold State.restage
  all_goals split
  all_goals simp [State.setLun, State.setFchan]

/-- A channel taken out of service is marked, and its waiting operations are gone (R155, R369). -/
theorem failChannel_facts (s : State) (ch : Nat) (h : bit s.nv.failed.channels ch = false) :
    (s.failChannel ch).nv.failed.channels = withBit s.nv.failed.channels ch true ∧
      ((s.failChannel ch).fchan ch).queue = [] ∧ ((s.failChannel ch).fchan ch).susp = [] ∧ (s.failChannel ch).pending = s.pending := by
  unfold State.failChannel
  rw [if_neg (by simp [h])]
  dsimp only
  have hr := State.regrade_keeps
  have hf : ∀ (l : List Nat) (u : State), (l.foldl (fun t n => t.markLun n 4) u).nv.failed.channels = u.nv.failed.channels :=
    fun l u => foldl_keeps _ (fun u => u.nv.failed.channels) (fun u n => (markLun_facts u n 4).1) l u
  have hp : ∀ (l : List Nat) (u : State), (l.foldl (fun t n => t.markLun n 4) u).pending = u.pending :=
    fun l u => foldl_keeps _ (fun u => u.pending) (fun u n => (markLun_facts u n 4).2.2) l u
  have hq : ∀ u : State, u.regrade.fchan ch = u.fchan ch := fun u => by simp only [State.fchan, (hr u).2.2.1]
  have hs : ∀ (u : State) (c : FChan), (u.setFchan ch c).fchan ch = c := fun u c => Map.get_set_self _ _ _ _
  refine ⟨?_, ?_, ?_, ?_⟩
  · rw [(hr _).1]
    refine (hf _ _).trans ?_
    simp
  · rw [hq, hs]
  · rw [hq, hs]
  · rw [(hr _).2.2.2.1]
    refine (hp _ _).trans ?_
    simp

end Sys2Proof.Machine
end

