-- ==== Sys2Proof/Laws/Service.lean ====
section
/-! SUPPORT. The grade of a device in service, the ledger and the drain: what regrading, settling and freezing leave. -/

namespace Sys2Proof.Machine

/-! ### The grade of a device in service -/

theorem Steady.causes {s t : State} (h : Steady s t) : t.causes = s.causes := by
  have hn : ∀ f ∈ [Reg.resvCut, Reg.vcoreLoop, Reg.band], ∀ g ∈ noticeFields, f.key ≠ g.key := by decide
  have e : ∀ e, { t.engine e with ev := (s.engine e).ev } = s.engine e := h.eng
  have e0 : t.supervisor = s.supervisor := by
    unfold State.supervisor; rw [← e 0]
  have n : t.nv.failed = s.nv.failed := by rw [← h.nv]
  unfold State.causes State.closedAll State.base State.unitCost
  rw [h.csr _ (hn _ (by simp)), h.csr _ (hn _ (by simp)), h.csr _ (hn _ (by simp)), h.led, h.portsFailed, h.rebuilding, h.sparesOut,
    h.flintLatched, h.time, e0, n]

theorem Steady.serviceState {s t : State} (h : Steady s t) : t.serviceState = s.serviceState := by
  unfold State.serviceState State.degraded
  rw [h.causes]

theorem Steady.with_dev {s t : State} (h : Steady s t) (d : Dev) : Steady { s with dev := d } { t with dev := d } :=
  { h with dev := rfl }

theorem Steady.graded {s t : State} (h : Steady s t) : Steady s.graded t.graded := by
  unfold State.graded
  rw [h.dev, h.serviceState]
  split
  · exact h.with_dev _
  · exact h

/-- Records, then the grade (R275). -/
theorem Steady.regrade {s t : State} (h : Steady s t) : Steady s.graded t.regrade := by
  have g := t.regrade_shape
  exact h.graded.trans g

/-! ### The ledger -/

/-- The state with what a settling of the ledger may change put back as it was in `s`. -/
def State.unsettled (s t : State) : State :=
  { t with
    csr := s.fieldOf t Reg.resvCut, dev := s.dev
    led := { t.led with peak := s.led.peak, overUsable := s.led.overUsable }, alloc := { t.alloc with resSize := s.alloc.resSize } }

theorem Map.get_get? {α : Type} (d : α) (m : Map α) (k : Nat) : m.get d k = (m.get? k).getD d := by
  induction m with
  | nil => rfl
  | cons p m ih =>
    obtain ⟨a, v⟩ := p
    unfold Map.get Map.get?
    split <;> simp [ih]

theorem State.fieldOf_f (s t : State) (g f : Field) :
    ({ t with csr := s.fieldOf t g } : State).f f = if f.key = g.key then s.f f else t.f f := by
  show (s.fieldOf t g).get f.reset f.key = if f.key = g.key then s.csr.get f.reset f.key else t.csr.get f.reset f.key
  unfold State.fieldOf
  by_cases h : f.key = g.key
  · rw [if_pos h, h, Map.get_get? f.reset s.csr]
    cases s.csr.get? g.key with
    | none => exact Map.get_erase_self _ _ _
    | some v => exact Map.get_put_self _ _ _ _
  · rw [if_neg h]
    cases s.csr.get? g.key with
    | none => exact Map.get_erase_ne _ _ h
    | some v => exact Map.get_put_ne _ _ _ h

theorem State.unsettled_f (s t : State) (f : Field) : (s.unsettled t).f f = if f.key = Reg.resvCut.key then s.f f else t.f f :=
  s.fieldOf_f t _ f

theorem Steady.unsettle {a b : State} (s : State) (h : Steady a b) : Steady (s.unsettled a) (s.unsettled b) where
  pending := h.pending
  dev := rfl
  csr := fun f hf => by rw [State.unsettled_f, State.unsettled_f, h.csr f hf]
  staged := h.staged
  time := h.time
  bas := h.bas
  vcore := h.vcore
  led := by unfold State.unsettled; rw [h.led]
  pfw := h.pfw
  drain := h.drain
  start := h.start
  pcie := h.pcie
  mbx := h.mbx
  chans := h.chans
  alloc := by unfold State.unsettled; rw [h.alloc]
  str := h.str
  eng := h.eng
  hooks := h.hooks
  roles := h.roles
  tab := h.tab
  fl := h.fl
  dram := h.dram
  fab := h.fab
  img := h.img
  usb := h.usb
  selfTest := h.selfTest
  jtag := h.jtag
  junction := h.junction
  portsFailed := h.portsFailed
  rebuilding := h.rebuilding
  sparesOut := h.sparesOut
  flintLatched := h.flintLatched
  nv := h.nv

theorem State.unsettled_self (s : State) : Steady s (s.unsettled s) := by
  refine { Steady.refl s with csr := fun f _ => ?_ }
  rw [State.unsettled_f]; split <;> rfl

/-- A change of what the settling may change. -/
theorem State.unsettled_led (s a : State) (l : Ledger) (hl : { l with peak := s.led.peak, overUsable := s.led.overUsable }
    = { a.led with peak := s.led.peak, overUsable := s.led.overUsable }) :
    Steady (s.unsettled a) (s.unsettled { a with led := l }) :=
  { Steady.refl (s.unsettled a) with led := hl }

theorem State.unsettled_cut (s a : State) (k r : Nat) :
    Steady (s.unsettled a) (s.unsettled ({ a with alloc := { a.alloc with resSize := k } }.setF Reg.resvCut r)) := by
  have hc : ∀ f : Field, (s.unsettled ({ a with alloc := { a.alloc with resSize := k } }.setF Reg.resvCut r)).f f = (s.unsettled a).f f := by
    intro f
    rw [State.unsettled_f, State.unsettled_f]
    split
    · rfl
    · rename_i h; rw [State.f_setF_ne _ _ h]; rfl
  exact { Steady.refl (s.unsettled a) with csr := fun f _ => hc f }

theorem State.serviceState_inService (s : State) : s.serviceState.inService = true := by
  unfold State.serviceState; split <;> rfl

theorem State.unsettled_regrade (s a : State) : Steady (s.unsettled a) (s.unsettled a.regrade) := by
  refine Steady.trans ?_ (Steady.unsettle s a.regrade_shape)
  split
  · exact { Steady.refl (s.unsettled a) with }
  · exact .refl _

theorem State.regrade_dev (a : State) : a.regrade.dev = a.dev ∨ a.dev.inService = true ∧ a.regrade.dev.inService = true := by
  have h := a.regrade_shape.dev
  split at h
  · rename_i hd; exact .inr ⟨hd, by rw [h]; exact a.serviceState_inService⟩
  · exact .inl h

/-- The ledger settles (R83, R84, R275). -/
theorem State.settleLedger_settled (s : State) (w : Bool) : Settled s (s.settleLedger w) := by
  have r : ∀ (a b : State) (p : Prop) [Decidable p], Steady a b → Steady (s.unsettled a) (s.unsettled (if p then b else a)) := by
    intro a b p _ h
    split
    · exact h.unsettle s
    · exact .refl _
  have c : Steady (s.unsettled s) (s.unsettled s.cutReserve) ∧ s.cutReserve.dev = s.dev := by
    unfold State.cutReserve
    split
    · exact ⟨.refl _, rfl⟩
    · refine ⟨(s.unsettled_cut s s.reserveKept _).trans (r _ _ _ (State.record_steady _ _ _ _ _ _ _)), ?_⟩
      dsimp only
      split
      · rw [(State.record_steady _ _ _ _ _ _ _).dev]; rfl
      · rfl
  unfold State.settleLedger
  dsimp only
  generalize h1 : s.cutReserve.notePeak = s1
  have c1 : Steady s (s.unsettled s1) ∧ s1.dev = s.dev := by
    subst h1
    exact ⟨s.unsettled_self.trans (c.1.trans (s.unsettled_led _ _ rfl)), c.2⟩
  clear h1 c
  generalize h2 : (if ¬ s1.ledgerShut ∧ s1.closedAll ∧ ¬ w then s1.record 0x0013 Src.ledger else s1) = s2
  have c2 : Steady s (s.unsettled s2) ∧ s2.dev = s.dev := by
    subst h2
    refine ⟨c1.1.trans (r _ _ _ (State.record_steady _ _ _ _ _ _ _)), ?_⟩
    split
    · rw [(State.record_steady _ _ _ _ _ _ _).dev, c1.2]
    · exact c1.2
  clear h2 c1
  generalize (decide (s2.led.eUsable < s2.risk) && !s2.ledgerShut) = o
  generalize h3 : (if o ∧ ¬ s2.led.overUsable then s2.record 0x0017 Src.ledger else s2) = s3
  have c3 : Steady s (s.unsettled s3) ∧ s3.dev = s.dev := by
    subst h3
    refine ⟨c2.1.trans (r _ _ _ (State.record_steady _ _ _ _ _ _ _)), ?_⟩
    split
    · rw [(State.record_steady _ _ _ _ _ _ _).dev, c2.2]
    · exact c2.2
  refine ⟨c3.1.trans ((s.unsettled_led s3 { s3.led with overUsable := o } rfl).trans (s.unsettled_regrade _)), ?_⟩
  have d := State.regrade_dev { s3 with led := { s3.led with overUsable := o } }
  have e : State.dev { s3 with led := { s3.led with overUsable := o } } = s.dev := c3.2
  rcases d with d | d
  · exact .inl (d.trans e)
  · exact .inr ⟨by rw [← e]; exact d.1, d.2⟩

theorem Settled.then {s t u : State} (h : Settled s t) (k : Steady t u) : Settled s u :=
  ⟨h.1.trans (k.unsettle s), by rw [k.dev]; exact h.2⟩

theorem Steady.settled {s t u : State} (h : Steady s t) (k : Settled t u) : Settled s u := by
  refine ⟨?_, ?_⟩
  · have g : Steady (t.unsettled u) (s.unsettled u) := by
      refine { Steady.refl (t.unsettled u) with csr := fun f hf => ?_, dev := h.dev.symm, led := ?_, alloc := ?_ }
      · rw [State.unsettled_f, State.unsettled_f, h.csr f hf]
      · show { u.led with peak := s.led.peak, overUsable := s.led.overUsable } = { u.led with peak := t.led.peak, overUsable := t.led.overUsable }
        rw [h.led]
      · show { u.alloc with resSize := s.alloc.resSize } = { u.alloc with resSize := t.alloc.resSize }
        rw [h.alloc]
    exact h.trans (k.1.trans g)
  · rw [← h.dev]; exact k.2

/-! ### FREEZE -/

theorem freezeNow_drains (u : State) (c : FreezeCause) (w : Bool) (h : u.dieUp = true) (hz : u.bas.freeze = false) :
    Drains u c w (u.freezeNow c w) := by
  unfold State.dieUp at h
  simp only [decide_eq_true_eq] at h
  unfold State.freezeNow
  rw [if_neg (by simp [h.1, h.2.1]), if_neg (by simp [h.2.2, hz])]
  exact State.setDev_becomes _ _

theorem restart_drains (u : State) (src : Nat) (c : FreezeCause) (h : u.dieUp = true) (hz : u.bas.freeze = false) :
    Drains { u with bas := { u.bas with nextSrc := src } } c true (u.restart src c) := by
  unfold State.restart
  rw [if_neg (by simp [h, hz])]
  exact freezeNow_drains { u with bas := { u.bas with nextSrc := src } } c true h hz

end Sys2Proof.Machine
end

