-- ==== Sys2Proof/Laws/Commands.lean ====
section
/-! SUPPORT. What the operations that several commands share answer: the ring commands, roles, images, the host link, volumes, the flash,
streams, frames and the USB port. -/

namespace Sys2Proof.Machine

/-! ### Ring commands -/

theorem State.countF_ne_steady (s : State) (f : Field) (n : Nat) (h : f ∈ noticeFields) : Steady s (s.countF f n) :=
  State.countF_steady s f n h

theorem State.endEntry_steady (s : State) (c : Cmd) (st : Nat) : Steady s (s.endEntry c st) := State.postCpl_steady _ _ _

theorem State.addCmd_steady (s : State) (c : Cmd) : Steady s (s.addCmd c) := by
  unfold State.addCmd
  dsimp only
  repeat' split
  · exact State.endEntry_steady _ _ _
  · exact (State.setRing_steady _ _ _).trans (State.postCpl_steady _ _ _)
  · exact (State.setRing_steady _ _ _).trans (State.postCpl_steady _ _ _)
  · exact State.setRing_steady _ _ _

theorem State.setChain_steady (s : State) (n : Nat) (c : Option (Cmd × Nat)) : Steady s (s.setChain n c) := State.setRing_steady _ _ _

theorem State.breakChain_steady (s : State) (c : Cmd) : Steady s (s.breakChain c) :=
  ((State.setChain_steady _ _ _).trans (State.bump_steady _ _)).trans (State.endEntry_steady _ _ _)

theorem State.chainStart_steady (s : State) (c : Cmd) (e : Bytes) : Steady s (s.chainStart c e) := by
  unfold State.chainStart
  repeat' split
  · exact State.endEntry_steady _ _ _
  · exact State.addCmd_steady _ _
  · exact State.setChain_steady _ _ _

theorem State.chainEntry_steady (s : State) (n slot : Nat) (e : Bytes) : Steady s (s.chainEntry n slot e) := by
  unfold State.chainEntry
  dsimp only
  repeat' split
  · exact State.chainStart_steady _ _ _
  · exact State.breakChain_steady _ _
  · exact (State.breakChain_steady _ _).trans (State.chainStart_steady _ _ _)
  · exact State.breakChain_steady _ _
  · exact (State.setChain_steady _ _ _).trans (State.endEntry_steady _ _ _)
  · exact (State.setChain_steady _ _ _).trans (State.addCmd_steady _ _)
  · exact State.setChain_steady _ _ _

theorem State.variableEntry_steady (s : State) (n slot : Nat) (e : Bytes) : Steady s (s.variableEntry n slot e) := by
  unfold State.variableEntry
  dsimp only
  repeat' split
  · exact (State.setChain_steady _ _ _).trans (State.addCmd_steady _ _)
  · exact State.setChain_steady _ _ _
  · exact State.endEntry_steady _ _ _
  · exact (State.setRing_steady _ _ _).trans (State.endEntry_steady _ _ _)
  · exact State.addCmd_steady _ _
  · exact State.setChain_steady _ _ _

theorem State.takeSlot_steady (s : State) (n slot : Nat) (e : Bytes) : Steady s (s.takeSlot n slot e) := by
  unfold State.takeSlot
  dsimp only
  repeat' split
  · exact .refl _
  · exact (State.setRing_steady _ _ _).trans (State.variableEntry_steady _ _ _ _)
  · exact (State.setRing_steady _ _ _).trans (State.chainEntry_steady _ _ _ _)

theorem State.fetchStep_steady (s : State) (n : Nat) : Steady s (s.fetchStep n) := by
  unfold State.fetchStep
  dsimp only
  repeat' split
  all_goals first
    | exact (State.setRing_steady _ _ _).trans (State.takeSlot_steady _ _ _ _)
    | exact (State.setRing_steady _ _ _).trans (State.emit_steady _ _)

theorem State.trimBells_steady (s : State) (n : Nat) : Steady s (s.trimBells n) := by
  unfold State.trimBells
  dsimp only
  split
  · exact State.setRing_steady _ _ _
  · exact .refl _

theorem State.pumpFetch_steady (s : State) (n k : Nat) : Steady s (s.pumpFetch n k) := by
  induction k generalizing s with
  | zero => exact State.trimBells_steady _ _
  | succ k ih =>
    unfold State.pumpFetch
    split
    · exact (State.fetchStep_steady _ _).trans (ih _)
    · exact State.trimBells_steady _ _

theorem State.fetchAll_steady (s : State) (n : Nat) : Steady s (s.fetchAll n) := State.pumpFetch_steady _ _ _

theorem State.takeSlots_steady (s : State) (n slot k : Nat) (b : Bytes) : Steady s (s.takeSlots n slot k b) := by
  induction k generalizing s slot b with
  | zero => exact .refl _
  | succ k ih => exact (State.takeSlot_steady _ _ _ _).trans (ih _ _ _)

theorem State.markDone_steady (s : State) (c : Cmd) : Steady s (s.markDone c) := State.setRing_steady _ _ _
theorem State.setCmd_steady (s : State) (c : Cmd) : Steady s (s.setCmd c) := State.setRing_steady _ _ _

/-- A completion changes nothing but the rings, the outcome counts, and what was awaited for the command. -/
theorem State.complete_steady (s : State) (c : Cmd) (st : Nat) (r : Bytes) : Steady (s.unqueued c) (s.complete c st r) := by
  unfold State.complete
  dsimp only
  refine Steady.trans ?_ ((State.markDone_steady _ _).trans ((State.postCpl_steady _ _ _).trans (State.fetchAll_steady _ _)))
  split <;> exact Steady.of_eq rfl

theorem State.scatter_steady (s : State) (b : Bytes) (l : List (Nat × Nat)) : Steady s (s.scatter b l) := by
  induction l generalizing s b with
  | nil => exact .refl _
  | cons a l ih =>
    obtain ⟨x, y⟩ := a
    unfold State.scatter
    split
    · exact .refl _
    · exact (State.emit_steady _ _).trans (ih _ _)

/-! ### Starting commands -/

variable {s : State} {n tag op : Nat} {c : Cmd}

theorem Starts.run (h : Starts s n tag op c) (f : State → Cmd → State) : s.startCmd n tag op f = ok (f s c) := by
  unfold State.startCmd
  rw [h.here]
  exact if_pos ⟨h.opcode, h.fresh, h.up, by simp [h.live]⟩

theorem Dev.inService_cases {d : Dev} (h : d.inService = true) : d = .ready ∨ d = .readyDegraded := by
  revert h; cases d <;> decide

variable {t : BitVec 5} {mine : Cmd → Bool} {rule : State → Cmd → AdmRule} {f : State → Cmd → State}

theorem Turn.opcode (h : Turn s t op c) : c.opcode = op := by
  obtain ⟨c0, k, rfl⟩ := h.start
  exact k.opcode
theorem Turn.ring (h : Turn s t op c) : c.ring = 0 := by
  obtain ⟨c0, k, rfl⟩ := h.start
  exact k.ring
theorem Turn.live (h : Turn s t op c) : s.bas.freeze = false := by
  obtain ⟨c0, k, rfl⟩ := h.start
  exact k.live
theorem Turn.up (h : Turn s t op c) : s.dieUp = true := by
  obtain ⟨c0, k, rfl⟩ := h.start
  exact k.up

theorem Turn.check (h : Turn s t op c) (hm : mine c = true) : s.startAdm (0 : Fin 8).val t.toNat op mine rule f =
    ok (match s.admCheck c (rule s c) with
      | some st => s.complete c st []
      | none => f s c) := by
  obtain ⟨c0, k, rfl⟩ := h.start
  have g := h.program
  show s.startAdm 0 t.toNat op mine rule f = _
  unfold State.startAdm
  rw [k.run]
  dsimp only
  rw [if_neg (by simp [hm, h.turn])]
  congr 1
  generalize s.admCheck _ (rule s _) = o
  cases o with
  | some st => rfl
  | none => exact if_neg fun ⟨a, _, b⟩ => b (g a)

theorem Turn.passes (h : Turn s t op c) {r : AdmRule} (hf : r.fields = true) (hr : r.right = true) (hg : r.range = true) : s.admCheck c r = none := by
  have d := Dev.inService_cases h.service
  have e : s.dev ≠ .bedrock ∧ s.dev ≠ .preFreeze := by rcases d with d | d <;> simp [d]
  unfold State.admCheck
  rw [if_neg (by simp [e.1]), if_neg (by simp [h.ring]), if_neg (by simp [hf]), if_neg (by simp [hr]), if_neg (by simp [hg]), if_neg (by simp [e.2])]

/-- An administrative command that passes its checks. -/
theorem Turn.run (h : Turn s t op c) (hm : mine c = true) (hf : (rule s c).fields = true) (hr : (rule s c).right = true)
    (hg : (rule s c).range = true) : s.startAdm (0 : Fin 8).val t.toNat op mine rule f = ok (f s c) := by
  rw [h.check hm, h.passes hf hr hg]

theorem Turn.barred (h : Turn s t op c) {r : AdmRule} (hf : r.fields = true) (hr : r.right = false) : s.admCheck c r = some 0x0400 := by
  have d := Dev.inService_cases h.service
  have e : s.dev ≠ .bedrock := by rcases d with d | d <;> simp [d]
  unfold State.admCheck
  rw [if_neg (by simp [e]), if_neg (by simp [h.ring]), if_neg (by simp [hf]), if_pos (by simp [hr])]

theorem Turn.out (h : Turn s t op c) {r : AdmRule} (hf : r.fields = true) (hr : r.right = true) (hg : r.range = false) : s.admCheck c r = some 0x0201 := by
  have d := Dev.inService_cases h.service
  have e : s.dev ≠ .bedrock := by rcases d with d | d <;> simp [d]
  unfold State.admCheck
  rw [if_neg (by simp [e]), if_neg (by simp [h.ring]), if_neg (by simp [hf]), if_neg (by simp [hr]), if_pos (by simp [hg])]

/-- One that its path's role does not allow. -/
theorem Turn.deny (h : Turn s t op c) (hm : mine c = true) (hf : (rule s c).fields = true) (hr : (rule s c).right = false) :
    s.startAdm (0 : Fin 8).val t.toNat op mine rule f = ok (s.complete c 0x0400 []) := by
  rw [h.check hm, h.barred hf hr]

theorem admIn_done {segs data : Bytes} {s : State} {c : Cmd} {f : State → Bytes → State} (h : c.listOk c.length segs = true) :
    s.admIn c (.done segs data) f = f s (padTo c.length data) := if_pos h
theorem admOut_done {segs data : Bytes} {s : State} {c : Cmd} {f : State → State × Bytes × Bytes} (h : c.listOk c.length segs = true) :
    s.admOut c (.done segs data) f = (f s).1.deliver c segs (f s).2.1 (f s).2.2 := if_pos h

/-! ### Roles -/

theorem setRole_becomes (s : State) (p r : Nat) : RoleBecomes s p r (s.setRole p r) := by
  unfold RoleBecomes State.setRole
  dsimp only
  split
  · rfl
  · refine ⟨if s.roleOf p = 0 then s.voidChal p else (s.voidChal p).record 0x6022 Src.sec p (s.roleOf p) (s.voidChal p).lastChal, ?_, ?_⟩
    · match p with
      | 0 => rfl
      | 1 => rfl
      | q + 2 =>
        unfold State.holding
        cases h : decide (r = 2) <;> simp_all
    · split
      · rfl
      · exact ⟨_, .refl _, .refl _⟩

theorem commit_shape (x : State) : ∃ z, x.commit = { x with str := z } := by
  unfold State.commit State.journal
  dsimp only
  split <;> exact ⟨_, rfl⟩

theorem takeChal_eq (s : State) : ∃ z, s.takeChal = ({ s with
      str := z
      nv := { s.nv with keys := { s.nv.keys with
        nextChal := s.nv.keys.nextChal + 1
        reserved := if s.nv.keys.reserved ≤ s.nv.keys.nextChal then s.nv.keys.reserved + 65536 else s.nv.keys.reserved } } }, s.nv.keys.nextChal) := by
  obtain ⟨z, hz⟩ := commit_shape s
  unfold State.takeChal
  by_cases h : s.nv.keys.reserved ≤ s.nv.keys.nextChal
  · refine ⟨z, ?_⟩
    simp only [if_pos h, hz]
  · refine ⟨s.str, ?_⟩
    simp only [if_neg h]

theorem issueChal_issued (s : State) (p role : Nat) : Issued s p role (s.issueChal p role).1 ∧ (s.issueChal p role).2 = s.nextChallenge p role := by
  obtain ⟨z, hz⟩ := takeChal_eq s
  unfold State.issueChal
  rw [hz]
  dsimp only
  by_cases h : s.roles.flint.drbg = true
  · have hd : (if s.roles.flint.drbg = true then s.nv.keys.drawn + 16 else s.nv.keys.drawn) = s.nv.keys.drawn + 16 := if_pos h
    rw [if_pos h]
    refine ⟨⟨?_, rfl, rfl, hd.symm, rfl, rfl, rfl, rfl⟩, ?_⟩
    all_goals
      unfold State.nextChallenge
      rw [if_pos h]
      rfl
  · have hd : (if s.roles.flint.drbg = true then s.nv.keys.drawn + 16 else s.nv.keys.drawn) = s.nv.keys.drawn := if_neg h
    rw [if_neg h]
    refine ⟨⟨?_, rfl, rfl, hd.symm, rfl, rfl, rfl, rfl⟩, ?_⟩
    all_goals
      unfold State.nextChallenge
      rw [if_neg h]
      rfl

theorem grant_facts (s u : State) (p role n : Nat) (h : { s.commit with nv.keys.rejects := s.nv.keys.rejects.erase p } = u) : ∃ v w : State,
    RoleBecomes u p role v ∧ Logs v (if role = 2 then 0x6012 else 0x6020) Src.sec p role (n % 2 ^ 32) 0 w ∧
    if p = 1 then Logs w 0x7040 Src.usb 1 role 0 0 (s.grant p role n) else s.grant p role n = w := by
  unfold State.grant
  dsimp only at h ⊢
  rw [h]
  have h := setRole_becomes u p role
  generalize u.setRole p role = v at *
  refine ⟨v, v.record (if role = 2 then 0x6012 else 0x6020) Src.sec p role (n % 2 ^ 32), h, ⟨_, .refl _, .refl _⟩, ?_⟩
  split
  · rename_i e
    subst e
    exact ⟨_, .refl _, .refl _⟩
  · rfl

theorem respond_right (s : State) (p : Nat) (b : Bytes) (k : Challenge) (h : s.roles.chal.get? p = some k) (hr : s.responseOk p b = true) :
    Granted s p k (s.respond p b).1 ∧ (s.respond p b).2 = true := by
  unfold State.respond
  simp only [h, hr, if_true, and_true]
  have e : (s.voidChal p).commit.nv = (s.voidChal p).nv := by
    obtain ⟨z, hz⟩ := commit_shape (s.voidChal p)
    rw [hz]
  obtain ⟨v, w, h1, h2, h3⟩ := grant_facts (s.voidChal p) _ p k.role k.ctr rfl
  refine ⟨_, v, w, rfl, ?_, h2, h3⟩
  have c : s.unchallenged p = s.voidChal p := rfl
  rw [c, e]
  dsimp only at h1
  rw [e] at h1
  exact h1

theorem Steady.rejects {s t : State} (h : Steady s t) : t.nv.keys.rejects = s.nv.keys.rejects :=
  congrArg Keys.rejects h.nv_keys

theorem reject_rejected (s : State) (p role : Nat) : Rejected s p role (s.reject p role) := by
  unfold State.reject
  dsimp only
  have a := State.record_steady s 0x6021 Src.sec p role s.lastChal 0
  have l : Logs s 0x6021 Src.sec p role s.lastChal 0 (s.record 0x6021 Src.sec p role s.lastChal) := ⟨_, .refl _, .refl _⟩
  generalize s.record 0x6021 Src.sec p role s.lastChal = u at *
  have b := State.bump_steady u 0x41
  have m : Counts u 0x41 (u.bump 0x41) := ⟨_, .refl _, .refl _⟩
  generalize u.bump 0x41 = v at *
  have c : ∃ w, (if p = 2 then v.bump 0x43 else v) = w ∧ (if p = 2 then Counts v 0x43 w else w = v) ∧ w.nv.keys.rejects = s.nv.keys.rejects := by
    split
    · exact ⟨_, rfl, ⟨_, .refl _, .refl _⟩, ((a.trans b).trans (State.bump_steady _ _)).rejects⟩
    · exact ⟨_, rfl, rfl, (a.trans b).rejects⟩
  obtain ⟨w, e, c1, c2⟩ := c
  rw [e]
  have n : w.commit.nv = w.nv := by
    obtain ⟨z, hz⟩ := commit_shape w
    rw [hz]
  have key : ∀ x : State, x = { w.commit with nv.keys.rejects := w.nv.keys.rejects.put p (w.nv.keys.rejects.get 0 p + 1) } →
      Rejected s p role (match holdSeconds (w.nv.keys.rejects.get 0 p + 1) with
        | some h => State.record { x with nv.keys.holds := x.nv.keys.holds.put p (s.time.uptime + msTicks (1000 * h)) } 0x6023 Src.sec p h
        | none => x) := by
    intro x hx
    refine ⟨u, v, w, x, l, m, c1, ?_, ?_⟩
    · rw [hx, ← c2]
      dsimp only
      rw [n]
    · rw [c2]
      generalize holdSeconds (s.nv.keys.rejects.get 0 p + 1) = o
      cases o with
      | none => rfl
      | some h => exact ⟨_, .refl _, .refl _⟩
  exact key _ rfl

theorem respond_wrong (s : State) (p : Nat) (b : Bytes) (k : Challenge) (h : s.roles.chal.get? p = some k) (hr : s.responseOk p b = false) :
    Rejected (s.unchallenged p) p k.role (s.respond p b).1 ∧ (s.respond p b).2 = false := by
  unfold State.respond
  simp only [h, hr, Bool.false_eq_true, if_false, and_true]
  exact reject_rejected _ _ _

theorem commit_nv (s : State) : s.commit.nv = s.nv := by
  obtain ⟨z, hz⟩ := commit_shape s
  rw [hz]

/-! ### Images -/

theorem confirmImage_confirmed (s : State) (h : s.nv.boot.trial ≠ 255) : Confirmed s s.confirmImage := by
  unfold State.confirmImage Confirmed
  dsimp only
  refine ⟨_, _, rfl, ?_, ⟨_, .refl _, State.touch_steady _ _⟩⟩
  unfold State.raiseFloor
  dsimp only
  have e : State.slotImage { s.writeBoot (fun b => { b with confirmed := s.nv.boot.trial, trial := 255, trialStarts := 0, trialMs := 0 }) with
      start := { s.start with trial := false } } s.nv.boot.trial = s.slotImage s.nv.boot.trial := rfl
  by_cases c : bit (imgFlags (s.slotImage s.nv.boot.trial)) 1 = true ∧ s.nv.floor < min 64 (imgSvn (s.slotImage s.nv.boot.trial))
  · rw [if_pos c, if_pos ⟨h, c⟩]
    exact ⟨_, .refl _, .refl _⟩
  · rw [if_neg c, if_neg fun k => c k.2]
    rfl

theorem beginSession_begun (s : State) (p : Nat) : Begun s p (s.beginSession p) := by
  unfold State.beginSession Begun
  dsimp only
  have e : s.spareSlot = if s.nv.boot.confirmed = 0 then 1 else 0 := rfl
  rw [← e]
  refine ⟨if s.nv.boot.trial = s.spareSlot then s.endTrial else s, ?_, ?_⟩
  · split
    · exact ⟨_, .refl _, .refl _⟩
    · rfl
  · generalize (if s.nv.boot.trial = s.spareSlot then s.endTrial else s) = u
    exact ⟨_, .refl _, State.touch_steady _ _⟩

/-- A commit that finds its session and its image. -/
theorem commitImage_committed (s : State) (p g len : Nat) (c : Copies) (h1 : s.sessionOn p = some g) (h2 : len ≤ (s.pool g).held)
    (h3 : imgTotal ((s.pool g).bytes len) = len) : Committed s g len (s.copiesCode ((s.pool g).bytes len) c) c (s.commitImage p len c).1 ∧
    (s.commitImage p len c).2 = some (s.copiesCode ((s.pool g).bytes len) c, g) := by
  have hn : ¬ ((s.pool g).held < len ∨ imgTotal ((s.pool g).bytes len) ≠ len) := by
    intro k
    rcases k with k | k
    · omega
    · exact k h3
  unfold State.commitImage
  rw [h1]
  dsimp only
  rw [if_neg hn]
  generalize hc : s.copiesCode ((s.pool g).bytes len) c = code
  generalize hv : ({ s.touch 9 with
        img := { s.img with lastStatus := code, checked := s.img.checked.put g (if code = 0 then 1 else 2), sram := (s.pool g).bytes len }
        nv.pools := s.nv.pools.set {} g { s.pool g with
          readable := b2n (s.bootCopy 0 && c.primary) + 2 * b2n (s.bootCopy 1 && c.mirror) } } : State) = v
  have k : Steady { s with
      img := { s.img with lastStatus := code, checked := s.img.checked.put g (if code = 0 then 1 else 2), sram := (s.pool g).bytes len }
      nv := { s.nv with pools := s.nv.pools.set {} g { s.pool g with
        readable := b2n (s.bootCopy 0 && c.primary) + 2 * b2n (s.bootCopy 1 && c.mirror) } } } v := by
    rw [← hv]
    exact Steady.of_eq rfl
  clear hv
  by_cases h : code = 0
  · rw [if_pos h]
    refine ⟨⟨_, v, k, rfl, ?_⟩, by rw [h]⟩
    rw [if_pos h]
    exact ⟨_, rfl, _, .refl _, .refl _⟩
  · have hf : ∀ (α : Type) (x y : α), (if code = 0 then x else y) = y := fun _ _ _ => if_neg h
    rw [if_neg h]
    refine ⟨⟨_, v, k, rfl, ?_⟩, rfl⟩
    rw [if_neg h]
    exact ⟨⟨_, State.bump_steady _ _, .refl _⟩, ⟨_, .refl _, State.record_steady _ _ _ _ _ _ _⟩⟩

theorem Turn.notMinimal {s : State} {t : BitVec 5} {op : Nat} {c : Cmd} (h : Turn s t op c) : s.dev.minimal = false := by
  have := Dev.inService_cases h.service
  rcases this with e | e <;> rw [e] <;> rfl

/-! ### The host link -/

theorem HostSide.refl (s : State) : HostSide s s := by constructor <;> intros <;> rfl

theorem HostSide.of_eq {s t : State} (h : { t with
    rings := s.rings, chans := s.chans, mbx := s.mbx, alloc := s.alloc, str := s.str, csr := s.csr, staged := s.staged, pcie := s.pcie
    selfTest := s.selfTest, cls := s.cls, evr := s.evr, pageSeq := s.pageSeq, out := s.out, crn := s.crn, led := { t.led with charged := s.led.charged }
    nv := { t.nv with vols := s.nv.vols, loss := s.nv.loss, cairns := s.nv.cairns }
    roles := { t.roles with pcie := s.roles.pcie, chal := s.roles.chal }, tab := { t.tab with sync := s.tab.sync } } = s) : HostSide s t where
  pending := by have k := congrArg State.pending h; exact k
  dev := by have k := congrArg State.dev h; exact k
  time := by have k := congrArg State.time h; exact k
  bas := by have k := congrArg State.bas h; exact k
  vcore := by have k := congrArg State.vcore h; exact k
  led := by have k := congrArg State.led h; exact k
  pfw := by have k := congrArg State.pfw h; exact k
  drain := by have k := congrArg State.drain h; exact k
  start := by have k := congrArg State.start h; exact k
  eng := fun e => by
    have := by have k := congrArg State.eng h; exact k
    show ({ State.engine t e with ev := (s.engine e).ev } : Engine) = s.engine e
    unfold State.engine
    rw [← this]
  hooks := by rw [← congrArg State.hooks h]
  roles := by have k := congrArg State.roles h; exact k
  tab := by have k := congrArg State.tab h; exact k
  fl := by have k := congrArg State.fl h; exact k
  dram := by have k := congrArg State.dram h; exact k
  fab := by have k := congrArg State.fab h; exact k
  img := by have k := congrArg State.img h; exact k
  usb := by have k := congrArg State.usb h; exact k
  jtag := by have k := congrArg State.jtag h; exact k
  junction := by have k := congrArg State.junction h; exact k
  nv := by have k := congrArg State.nv h; exact k

theorem HostSide.trans {s t u : State} (a : HostSide s t) (b : HostSide t u) : HostSide s u where
  pending := b.pending.trans a.pending
  dev := b.dev.trans a.dev
  time := b.time.trans a.time
  bas := b.bas.trans a.bas
  vcore := b.vcore.trans a.vcore
  led := by rw [← a.led, ← b.led]
  pfw := b.pfw.trans a.pfw
  drain := b.drain.trans a.drain
  start := b.start.trans a.start
  eng := fun e => by rw [← a.eng e, ← b.eng e]
  hooks := by rw [← a.hooks, ← b.hooks]
  roles := by rw [← a.roles, ← b.roles]
  tab := by rw [← a.tab, ← b.tab]
  fl := b.fl.trans a.fl
  dram := b.dram.trans a.dram
  fab := b.fab.trans a.fab
  img := b.img.trans a.img
  usb := b.usb.trans a.usb
  jtag := b.jtag.trans a.jtag
  junction := b.junction.trans a.junction
  nv := by rw [← a.nv, ← b.nv]

theorem Steady.hostSide {s t : State} (h : Steady s t) : HostSide s t where
  pending := h.pending
  dev := h.dev
  time := h.time
  bas := h.bas
  vcore := h.vcore
  led := by rw [h.led]
  pfw := h.pfw
  drain := h.drain
  start := h.start
  eng := h.eng
  hooks := h.hooks
  roles := by rw [h.roles]
  tab := by rw [h.tab]
  fl := h.fl
  dram := h.dram
  fab := h.fab
  img := h.img
  usb := h.usb
  jtag := h.jtag
  junction := h.junction
  nv := by rw [← h.nv]

theorem HostSide.foldl {α : Type} (f : State → α → State) (h : ∀ s a, HostSide s (f s a)) (l : List α) (s : State) : HostSide s (l.foldl f s) := by
  induction l generalizing s with
  | nil => exact .refl s
  | cons a l ih => exact (h s a).trans (ih _)

theorem giveBack_hostSide (s : State) (k p : Nat) (r : Bool) : HostSide s (s.giveBack k p r) := by
  unfold State.giveBack
  dsimp only
  split <;> exact HostSide.of_eq rfl

theorem unlose_hostSide (s : State) (v p : Nat) : HostSide s (s.unlose v p) := HostSide.of_eq rfl

theorem releaseOldest_hostSide (s : State) (v k : Nat) : HostSide s (s.releaseOldest v k) := by
  unfold State.releaseOldest
  dsimp only
  refine HostSide.trans (t := s.setVol v { s.vol v with recs := (s.vol v).recs.drop k, released := (s.vol v).released + k }) (HostSide.of_eq rfl) ?_
  refine HostSide.foldl _ (fun t r => ?_) _ _
  split
  · exact unlose_hostSide _ _ _
  · exact .refl _

theorem acceptInto_hostSide (s : State) (c : Cmd) (b : Bytes) : HostSide s (s.acceptInto c b).1 := by
  unfold State.acceptInto
  dsimp only
  split
  · exact giveBack_hostSide _ _ _ _
  · split
    · exact giveBack_hostSide _ _ _ _
    · rename_i k _
      exact (releaseOldest_hostSide s c.volume k).trans (HostSide.of_eq rfl)

theorem dropSync_hostSide (s : State) : HostSide s s.dropSync := by
  unfold State.dropSync
  split
  · split
    · unfold State.rejectSync
      refine HostSide.trans (HostSide.of_eq (t := (State.setF { s with tab.sync := none } Reg.syncReject 1).setF Reg.syncBusy 0) rfl) ?_
      exact ((State.record_steady _ _ _ _ _ _ _).trans (State.bump_steady _ _)).hostSide
    · exact .refl _
  · exact .refl _

theorem f_resetRegs (s : State) (lo hi : Nat) (f : Field) : (s.resetRegs lo hi).f f = if 32 * lo ≤ f.key ∧ f.key < 32 * hi then f.reset else s.f f := by
  unfold State.resetRegs State.f
  dsimp only
  generalize s.csr = m
  induction m with
  | nil => simp [Map.get]
  | cons p m ih =>
    obtain ⟨a, v⟩ := p
    by_cases h : a < 32 * lo ∨ 32 * hi ≤ a
    · rw [List.filter_cons_of_pos (by simpa using h)]
      by_cases e : a = f.key
      · subst e
        rw [if_neg (by omega)]
        simp [Map.get]
      · simp only [Map.get, e, if_false]
        exact ih
    · rw [List.filter_cons_of_neg (by simpa using h), ih]
      by_cases e : a = f.key
      · subst e
        rw [if_pos (by omega), if_pos (by omega)]
      · simp only [Map.get, e, if_false]

theorem resetHostSide_facts (s : State) : HostSide s s.resetHostSide ∧ s.resetHostSide.rings = [] ∧ s.resetHostSide.chans = [] ∧
    s.resetHostSide.alloc.queue = [] ∧ s.resetHostSide.mbx = {} ∧ s.resetHostSide.pcie.ltr = 1000 ∧
    ({ s.resetHostSide.pcie with ltr := s.pcie.ltr, pba := s.pcie.pba } = s.pcie) ∧
    s.resetHostSide.roles = s.roles ∧
    (∀ f : Field, 32 * 0x1000 ≤ f.key ∧ f.key < 32 * 0x1080 ∨ 32 * 0x4000 ≤ f.key ∧ f.key < 32 * 0x4020 ∨
      32 * 0x2000 ≤ f.key ∧ f.key < 32 * 0x2A00 → s.resetHostSide.f f = f.reset) := by
  unfold State.resetHostSide
  dsimp only
  generalize (s.rings.flatMap fun r => r.2.cmds) = cs
  have h1 : HostSide s ((s.dropTransfers cs).acceptSilently cs).dropSync := by
    refine HostSide.trans (t := s.dropTransfers cs) ?_ (HostSide.trans (t := (s.dropTransfers cs).acceptSilently cs) ?_ (dropSync_hostSide _))
    · unfold State.dropTransfers
      refine HostSide.foldl _ (fun t c => ?_) _ _
      split
      · exact giveBack_hostSide _ _ _ _
      · exact .refl _
    · unfold State.acceptSilently
      refine HostSide.foldl _ (fun t c => ?_) _ _
      split
      · exact acceptInto_hostSide _ _ _
      · exact .refl _
  have h2 : { ((s.dropTransfers cs).acceptSilently cs).dropSync.pcie with pba := s.pcie.pba } = s.pcie ∧
      ((s.dropTransfers cs).acceptSilently cs).dropSync.roles = s.roles := by
    have g : ∀ (t : State) (k p : Nat) (r : Bool), (t.giveBack k p r).pcie = t.pcie ∧ (t.giveBack k p r).roles = t.roles := by
      intro t k p r
      unfold State.giveBack
      dsimp only
      split <;> exact ⟨rfl, rfl⟩
    have a1 : (s.dropTransfers cs).pcie = s.pcie ∧ (s.dropTransfers cs).roles = s.roles := by
      unfold State.dropTransfers
      constructor
      · refine foldl_keeps _ (fun u => u.pcie) (fun t c => ?_) _ _
        split
        · exact (g _ _ _ _).1
        · rfl
      · refine foldl_keeps _ (fun u => u.roles) (fun t c => ?_) _ _
        split
        · exact (g _ _ _ _).2
        · rfl
    have r : ∀ (t : State) (v k : Nat), (t.releaseOldest v k).pcie = t.pcie ∧ (t.releaseOldest v k).roles = t.roles := by
      intro t v k
      unfold State.releaseOldest
      dsimp only
      constructor
      · refine (foldl_keeps _ (fun u => u.pcie) (fun t c => ?_) _ _).trans rfl
        split <;> rfl
      · refine (foldl_keeps _ (fun u => u.roles) (fun t c => ?_) _ _).trans rfl
        split <;> rfl
    have i : ∀ (t : State) (c : Cmd) (b : Bytes), (t.acceptInto c b).1.pcie = t.pcie ∧ (t.acceptInto c b).1.roles = t.roles := by
      intro t c b
      unfold State.acceptInto
      dsimp only
      split
      · exact g _ _ _ _
      · split
        · exact g _ _ _ _
        · exact r _ _ _
    have a2 : ((s.dropTransfers cs).acceptSilently cs).pcie = s.pcie ∧ ((s.dropTransfers cs).acceptSilently cs).roles = s.roles := by
      rw [← a1.1, ← a1.2]
      unfold State.acceptSilently
      constructor
      · refine foldl_keeps _ (fun u => u.pcie) (fun t c => ?_) _ _
        split
        · exact (i _ _ _).1
        · rfl
      · refine foldl_keeps _ (fun u => u.roles) (fun t c => ?_) _ _
        split
        · exact (i _ _ _).2
        · rfl
    rw [← a2.1, ← a2.2]
    generalize (s.dropTransfers cs).acceptSilently cs = u
    unfold State.dropSync
    split
    · split
      · rename_i y _ _
        have k := (State.record_steady ((State.setF { u with tab.sync := none } Reg.syncReject 1).setF Reg.syncBusy 0) 0x1041 Src.keystone y.table y.index
          0 0).trans (State.bump_steady _ 0x0F)
        exact ⟨k.pcie, k.roles⟩
      · exact ⟨rfl, rfl⟩
    · exact ⟨rfl, rfl⟩
  generalize ((s.dropTransfers cs).acceptSilently cs).dropSync = u at *
  unfold State.resetMailbox
  refine ⟨h1.trans ?_, rfl, rfl, rfl, rfl, rfl, ?_, h2.2, fun f hf => ?_⟩
  · exact (HostSide.of_eq rfl).trans (State.raise_steady _ 0 3).hostSide
  · have k := congrArg (fun p : Pcie => { p with ltr := s.pcie.ltr }) h2.1
    exact k
  · show State.f (((State.resetRegs _ 0x1000 0x1080).resetRegs 0x4000 0x4020).resetRegs 0x2000 0x2A00) f = f.reset
    rw [f_resetRegs, f_resetRegs, f_resetRegs]
    split
    · rfl
    · split
      · rfl
      · rw [if_pos (by omega)]

theorem hookTrigger_rings (s : State) (p : Bytes → Bool) : (s.hookTrigger p).rings = s.rings := by
  have q : ∀ (t : State) (i : Nat), (t.queueHook i).rings = t.rings := by
    intro t i
    unfold State.queueHook
    dsimp only
    split
    · rfl
    · split <;> rfl
  unfold State.hookTrigger
  split
  · rfl
  · refine foldl_keeps _ (fun u => u.rings) (fun t i => ?_) _ _
    split
    · exact q _ _
    · rfl

theorem recordCore_rings (s : State) (a b c d e f : Nat) : (s.recordCore a b c d e f).1.rings = s.rings := by
  have k : ∀ (t : State) (a b c d e f : Nat), (t.keep a b c d e f).1.rings = t.rings := by
    intro t a b c d e f
    unfold State.keep
    split
    · rfl
    · split <;> rfl
  unfold State.recordCore
  dsimp only
  split
  · rfl
  · generalize hx : (if (sevRate a).2 = 0 then s else
      { s with evr.buckets := s.evr.buckets.put a ⟨s.tokens a (sevRate a).2 - 1, s.time.uptime⟩ }) = x
    have e : x.rings = s.rings := by rw [← hx]; split <;> rfl
    rw [← e]
    split
    · rw [k, k]
    · rw [k]

/-- An event that posts no asynchronous entry leaves the rings alone. -/
theorem record_rings (s : State) (code src p1 p2 p3 p4 : Nat) (h : asyncCodes.contains code = false) :
    (s.record code src p1 p2 p3 p4).rings = s.rings := by
  unfold State.record
  dsimp only
  split
  · unfold State.notice
    dsimp only
    rw [hookTrigger_rings, if_neg (by rw [h]; decide)]
    exact recordCore_rings _ _ _ _ _ _ _
  · exact recordCore_rings _ _ _ _ _ _ _

theorem Map.get?_erase {α : Type} (m : Map α) (k : Nat) : (Map.erase m k).get? k = none := by
  induction m with
  | nil => rfl
  | cons p m ih =>
    obtain ⟨a, v⟩ := p
    by_cases h : a = k
    · simpa [Map.erase, h] using ih
    · simp [Map.erase, Map.get?, h, ih]

theorem pcieReset_hostReset (s : State) (code : Nat) (count : Field) (keep : Bool) : HostReset s code count keep (s.pcieReset code count keep) := by
  unfold State.pcieReset
  dsimp only
  have hu : Logs s code Src.pcie 0 0 0 0 (s.record code Src.pcie) := ⟨_, .refl _, .refl _⟩
  have ru := State.record_steady s code Src.pcie 0 0 0 0
  generalize s.record code Src.pcie = u at *
  have hv : Counts (u.countF count 1) 0x20 ((u.countF count 1).bump 0x20) := ⟨_, .refl _, .refl _⟩
  have rv := State.bump_steady (u.countF count 1) 0x20
  generalize (u.countF count 1).bump 0x20 = v at *
  obtain ⟨h1, h2, h3, h4, h5, h6, h7, h8, h9⟩ := resetHostSide_facts v
  have aer : v.resetHostSide.pcie.aer = s.pcie.aer := by
    have e1 := congrArg Pcie.aer h7
    have e2 := congrArg Pcie.aer rv.pcie
    have e3 := congrArg Pcie.aer ru.pcie
    exact e1.trans (e2.trans e3)
  generalize v.resetHostSide = w at *
  have hw : HostSide w (w.resetFunction keep) := HostSide.of_eq rfl
  have fw : ∀ f, (w.resetFunction keep).f f = w.f f := fun _ => rfl
  have pw : (w.resetFunction keep).pcie = { w.pcie with
      bme := false, aer := if keep then w.pcie.aer else 0, msixEn := false, fnMask := false, d3 := false
      msix := (List.range 16).map fun v => (16 * v + 12, 1), pba := 0, l1Asked := false } := rfl
  have c1 : (w.resetFunction keep).rings = [] := h2
  have c2 : (w.resetFunction keep).chans = [] := h3
  have c3 : (w.resetFunction keep).alloc.queue = [] := h4
  have c4 : (w.resetFunction keep).mbx = {} := h5
  generalize w.resetFunction keep = x at *
  have p0 := setRole_becomes x 0 0
  have r0 : (x.setRole 0 0).rings = [] := by
    unfold State.setRole
    dsimp only
    split
    · exact c1
    · exact (record_rings (x.voidChal 0) _ _ _ _ _ _ (by decide)).trans c1
  unfold State.endPath
  have hz : ∃ z : State, Steady (x.unchallenged 0) z ∧ z.rings = [] ∧ (x.setRole 0 0).voidChal 0 = (z.holding 0 0).unchallenged 0 := by
    unfold RoleBecomes at p0
    split at p0
    · rename_i e
      refine ⟨x.unchallenged 0, .refl _, c1, ?_⟩
      rw [p0]
      have e' : x.roles.pcie = 0 := e
      have hold : (x.unchallenged 0).holding 0 0 = x.unchallenged 0 := by
        have er0 : ({ x.roles with pcie := 0 } : Roles) = x.roles := by rw [← e']
        have er1 : ({ (x.unchallenged 0).roles with pcie := 0 } : Roles) = (x.unchallenged 0).roles :=
          congrArg (fun r : Roles => { r with chal := x.roles.chal.erase 0 }) er0
        show ({ x.unchallenged 0 with roles := { (x.unchallenged 0).roles with pcie := 0 } } : State) = x.unchallenged 0
        rw [er1]
      rw [hold]
      unfold State.voidChal State.unchallenged
      simp only
      congr 2
      have er : ∀ m : Map Challenge, (Map.erase m 0).erase 0 = Map.erase m 0 := by
        intro m
        induction m with
        | nil => rfl
        | cons p m ih =>
          obtain ⟨a, v⟩ := p
          by_cases h : a = 0
          · simpa [Map.erase, h] using ih
          · simp [Map.erase, h, ih]
      exact (er _).symm
    · obtain ⟨z, hz1, hz2⟩ := p0
      have zs : Steady (x.unchallenged 0) z := by
        obtain ⟨y, y1, y2⟩ := hz2
        exact (y1.trans (State.record_steady _ _ _ _ _ _ _)).trans y2
      refine ⟨z, zs, ?_, ?_⟩
      · rw [hz1] at r0; exact r0
      · rw [hz1]; rfl
  obtain ⟨z, zs, zr, ze⟩ := hz
  rw [ze]
  refine ⟨u, v, hu, hv, ?_, zr, ?_, ?_, ?_, rfl, Map.get?_erase _ _, fun f hf hn => ?_, ?_⟩
  · refine h1.trans (hw.trans (HostSide.trans (t := x.unchallenged 0) (HostSide.of_eq rfl) (zs.hostSide.trans (HostSide.of_eq rfl))))
  · exact zs.chans.trans c2
  · exact (congrArg Alloc.queue zs.alloc).trans c3
  · exact zs.mbx.trans c4
  · exact ((zs.csr f hn).trans (fw f)).trans (h9 f hf)
  · have e := zs.pcie
    have g : ∀ {α : Type} (q : Pcie → α), q { z.pcie with pba := x.pcie.pba } = q x.pcie := fun q => congrArg q e
    have g1 := g Pcie.bme
    have g2 := g Pcie.msixEn
    have g3 := g Pcie.fnMask
    have g4 := g Pcie.d3
    have g5 := g Pcie.l1Asked
    have g6 := g Pcie.aer
    have g7 := g Pcie.ltr
    have g8 := g Pcie.msix
    dsimp only at g1 g2 g3 g4 g5 g6 g7 g8
    show (z.pcie.bme, z.pcie.msixEn, z.pcie.fnMask, z.pcie.d3, z.pcie.l1Asked, z.pcie.aer, z.pcie.ltr, z.pcie.msix) = _
    rw [g1, g2, g3, g4, g5, g6, g7, g8, pw]
    dsimp only
    rw [aer, h6]

theorem Map.put_put {α : Type} (m : Map α) (k : Nat) (v w : α) : (m.put k v).put k w = m.put k w := by
  induction m with
  | nil => simp [Map.put]
  | cons p m ih =>
    obtain ⟨a, x⟩ := p
    by_cases h : k < a
    · simp [Map.put, h]
    · by_cases e : a = k
      · simp [Map.put, e]
      · simp [Map.put, h, e, ih]

theorem State.setRing_setRing (s : State) (n : Nat) (x y : Ring) (hx : x ≠ {}) (hy : y ≠ {}) : (s.setRing n x).setRing n y = s.setRing n y := by
  unfold State.setRing Map.set
  dsimp only
  simp only [hx, hy, if_false, Map.put_put]

@[simp] theorem State.ring_setRing (s : State) (n : Nat) (x : Ring) : (s.setRing n x).ring n = x := Map.get_set_self _ _ _ _

/-! ### Volumes -/

theorem Map.get?_put {α : Type} (m : Map α) (k : Nat) (v : α) : (m.put k v).get? k = some v := by
  induction m with
  | nil => simp [Map.put, Map.get?]
  | cons p m ih =>
    obtain ⟨a, x⟩ := p
    by_cases h : k < a
    · simp [Map.put, Map.get?, h]
    · by_cases e : a = k
      · simp [Map.put, Map.get?, e]
      · simp [Map.put, Map.get?, h, e, ih]
theorem Map.get?_put_ne {α : Type} (m : Map α) {k j : Nat} (v : α) (h : j ≠ k) : (m.put k v).get? j = m.get? j := by
  induction m with
  | nil => simp [Map.put, Map.get?, Ne.symm h]
  | cons p m ih =>
    obtain ⟨a, x⟩ := p
    by_cases l : k < a
    · simp [Map.put, Map.get?, l, Ne.symm h]
    · by_cases e : a = k
      · subst e; simp [Map.put, Map.get?, Ne.symm h]
      · simp [Map.put, Map.get?, l, e, ih]

@[simp] theorem State.vol_setVol (s : State) (v : Nat) (x : Vol) : (s.setVol v x).vol v = x := Map.get_set_self _ _ _ _
theorem State.vol_setVol_ne (s : State) {v w : Nat} (x : Vol) (h : w ≠ v) : (s.setVol v x).vol w = s.vol w := Map.get_set_ne _ _ _ h

theorem giveBack_rest (s : State) (k p : Nat) (r : Bool) :
    { s.giveBack k p r with alloc := s.alloc, led := s.led } = s := by
  unfold State.giveBack
  dsimp only
  split <;> rfl

theorem giveBacks_rest (l : List SUnit) (s : State) :
    { l.foldl (fun t u => t.giveBack 1 u.part u.fromReserve) s with alloc := s.alloc, led := s.led } = s := by
  induction l generalizing s with
  | nil => rfl
  | cons u l ih =>
    have e := giveBack_rest s 1 u.part u.fromReserve
    have k := ih (s.giveBack 1 u.part u.fromReserve)
    simp only [List.foldl]
    generalize s.giveBack 1 u.part u.fromReserve = s1 at *
    generalize List.foldl (fun t u => State.giveBack t 1 u.part u.fromReserve) s1 l = s2 at *
    rw [← e, ← k]

theorem dropStaged_rest (s : State) (v p : Nat) :
    { s.dropStaged v p with alloc := s.alloc, led := s.led, str := s.str } = s ∧ (s.dropStaged v p).str.nextUnit = s.str.nextUnit := by
  unfold State.dropStaged
  dsimp only
  generalize (s.str.units.filter fun u => u.vol == v && u.lba == p && !u.stream && u.place == UnitAt.staged) = l
  have k := giveBacks_rest l s
  generalize List.foldl (fun t u => State.giveBack t 1 u.part u.fromReserve) s l = s2 at *
  constructor
  · exact congrArg (fun x : State => { x with str := s.str }) k
  · have e : s2.str = s.str := by have e := congrArg State.str k; exact e
    show s2.str.nextUnit = _
    rw [e]

/-- Staging one block. -/
theorem stageBlock_wrote (s : State) (v p : Nat) (data : Bytes) (g : Nat) (r : Bool) (a b : Nat) (t : State)
    (ht : t = (s.dropStaged v p).stageBlock v p data g r a b) :
    t.blk v p = some { data := padTo 4096 data } ∧ (∀ q, q ≠ p → t.blk v q = s.blk v q) ∧ ({ t.vol v with map := (s.vol v).map } = s.vol v) ∧
    (∀ w, w ≠ v → t.vol w = s.vol w) ∧ t.str.nextUnit = s.str.nextUnit + 1 ∧
    { t with str := s.str, alloc := s.alloc, led := s.led, nv := { t.nv with vols := s.nv.vols, loss := s.nv.loss } } = s := by
  obtain ⟨k, n⟩ := dropStaged_rest s v p
  generalize s.dropStaged v p = u at *
  have uv : u.nv = s.nv := by rw [← k]
  have vol : ∀ w, u.vol w = s.vol w := fun w => by unfold State.vol; rw [uv]
  have tv : t.vol v = { s.vol v with map := (s.vol v).map.put p { data := padTo 4096 data } } := by
    rw [ht, ← vol v]
    exact State.vol_setVol _ _ _
  refine ⟨?_, fun q hq => ?_, by rw [tv], fun w hw => ?_, ?_, ?_⟩
  · unfold State.blk; rw [tv]; exact Map.get?_put _ _ _
  · unfold State.blk; rw [tv]; exact Map.get?_put_ne _ _ hq
  · rw [← vol w, ht]
    exact State.vol_setVol_ne _ _ hw
  · rw [ht, ← n]; rfl
  · rw [ht]
    have e := by have e := congrArg (fun x : State => { x with nv := { u.nv with vols := s.nv.vols, loss := s.nv.loss } }) k; exact e
    refine Eq.trans ?_ (e.trans ?_)
    · rfl
    · show ({ s with nv := { u.nv with vols := s.nv.vols, loss := s.nv.loss } } : State) = s
      rw [uv]

theorem padTo_length (n : Nat) (b : Bytes) : (padTo n b).length = n := by
  unfold padTo
  rw [List.length_take, List.length_append, List.length_replicate]
  omega
theorem padTo_self {n : Nat} {b : Bytes} (h : b.length = n) : padTo n b = b := by
  unfold padTo
  rw [h, Nat.sub_self, List.replicate_zero, List.append_nil, ← h, List.take_length]
@[simp] theorem padTo_padTo (n : Nat) (b : Bytes) : padTo n (padTo n b) = padTo n b := padTo_self (padTo_length n b)

/-- The place of a block depends on what no write changes. -/
theorem place_same {s t : State} {v : Nat} (hv : { t.vol v with map := (s.vol v).map } = s.vol v) (hn : t.nv.boot = s.nv.boot) (b : Nat) :
    t.place v b = s.place v b := by
  have k1 : (t.vol v).kind = (s.vol v).kind := by have e := congrArg Vol.kind hv; exact e
  have k2 : (t.vol v).cap = (s.vol v).cap := by have e := congrArg Vol.cap hv; exact e
  unfold State.place
  dsimp only
  rw [k1, k2, hn]

theorem place_inj {s : State} {v a b : Nat} (ha : a < (s.vol v).blocks) (hb : b < (s.vol v).blocks) (h : s.place v a = s.place v b) : a = b := by
  unfold State.place at h
  dsimp only at h
  unfold Vol.blocks at ha hb
  repeat' split at h
  all_goals first
    | exact h
    | (rename_i k _ _; rw [if_pos k.1] at ha hb; omega)

theorem blockBytes_of {s t : State} {v w p q : Nat} (h : t.blk v p = s.blk w q) : t.blockBytes v p = s.blockBytes w q := by
  unfold State.blockBytes
  rw [h]

theorem applyBlocks_wrote (c : Cmd) (g : Nat) (n : Nat) : ∀ (s : State) (first into : Nat) (data : Bytes), into < 4096 →
    first + n ≤ (s.vol c.volume).blocks → Wrote s c.volume first into n data (s.applyBlocks c g first into data n) := by
  induction n with
  | zero =>
    intro s first into data _ _
    exact ⟨fun i h => absurd h (by omega), fun _ _ => rfl, rfl, fun _ _ => rfl, rfl, rfl⟩
  | succ n ih =>
    intro s first into data hi hn
    unfold State.applyBlocks
    dsimp only
    generalize hd : padTo 4096 (overlay (s.blockBytes c.volume (s.place c.volume first)) into (data.take (4096 - into))) = new
    obtain ⟨k1, k2, k3, k4, k5, k6⟩ := stageBlock_wrote s c.volume (s.place c.volume first) new g c.fromReserve 0 c.granted _ rfl
    generalize (s.dropStaged c.volume (s.place c.volume first)).stageBlock c.volume (s.place c.volume first) new g c.fromReserve 0 c.granted = u at *
    have ub : u.nv.boot = s.nv.boot := by have e := congrArg (fun x : State => x.nv.boot) k6; exact e
    have pl : ∀ b, u.place c.volume b = s.place c.volume b := place_same k3 ub
    have bl : (u.vol c.volume).blocks = (s.vol c.volume).blocks := by
      have e1 : (u.vol c.volume).kind = (s.vol c.volume).kind := by have e := congrArg Vol.kind k3; exact e
      have e2 : (u.vol c.volume).cap = (s.vol c.volume).cap := by have e := congrArg Vol.cap k3; exact e
      unfold Vol.blocks; rw [e1, e2]
    have w := ih u (first + 1) 0 (data.drop (4096 - into)) (by omega) (by rw [bl]; omega)
    generalize u.applyBlocks c g (first + 1) 0 (data.drop (4096 - into)) n = t at *
    obtain ⟨w1, w2, w3, w4, w5, w6⟩ := w
    have inj : ∀ i j, i < n + 1 → j < n + 1 → i ≠ j → s.place c.volume (first + i) ≠ s.place c.volume (first + j) := by
      intro i j h1 h2 h3 h
      have := place_inj (s := s) (v := c.volume) (by omega) (by omega) h
      omega
    refine ⟨fun i h => ?_, fun p h => ?_, ?_, fun x hx => ?_, by rw [w5, k5]; omega, ?_⟩
    · cases i with
      | zero =>
        rw [Nat.add_zero]
        have e : t.blk c.volume (s.place c.volume first) = some { data := padTo 4096 new } := by
          rw [w2 _ (fun i hi' => by
            rw [pl, Nat.add_assoc]
            exact inj 0 (1 + i) (by omega) (by omega) (by omega)), k1]
        unfold State.blockBytes
        rw [e]
        unfold State.newBlock
        simp only [Nat.add_zero, if_true, List.drop_zero, ← hd, padTo_padTo]
      | succ i =>
        have e := w1 i (by omega)
        rw [pl] at e
        rw [show first + (i + 1) = first + 1 + i by omega, e]
        unfold State.newBlock
        rw [pl, show first + (i + 1) = first + 1 + i by omega]
        rw [blockBytes_of (k2 _ (by
          rw [Nat.add_assoc]
          exact inj (1 + i) 0 (by omega) (by omega) (by omega)))]
        have a1 : ∀ x y : Nat, (if i + 1 = 0 then x else y) = y := fun x y => if_neg (by omega)
        have a2 : (if i = 0 then 0 else 0) = 0 := by split <;> rfl
        have a3 : (if i = 0 then 0 else 4096 * i - 0) = 4096 * i := by split <;> omega
        rw [a1, a1, a2, a3, List.drop_drop, show 4096 - into + 4096 * i = 4096 * (i + 1) - into by omega]
    · rw [w2 p (fun i hi' => by rw [pl, Nat.add_assoc, Nat.add_comm 1 i]; exact h (i + 1) (by omega)), k2 p (by simpa using h 0 (by omega))]
    · have e := congrArg (fun x : Vol => { x with map := (s.vol c.volume).map }) w3
      exact e.trans k3
    · rw [w4 x hx, k4 x hx]
    · have e := congrArg (fun x : State => { x with str := s.str, alloc := s.alloc, led := s.led, nv := { x.nv with vols := s.nv.vols, loss := s.nv.loss } }) w6
      exact e.trans k6

theorem Map.get?_erase_ne {α : Type} (m : Map α) {k j : Nat} (h : j ≠ k) : (Map.erase m k).get? j = m.get? j := by
  induction m with
  | nil => rfl
  | cons p m ih =>
    obtain ⟨a, x⟩ := p
    by_cases e : a = k
    · subst e
      simp only [Map.erase, if_true, ih, Map.get?, Ne.symm h, if_false]
    · simp only [Map.erase, e, if_false, Map.get?, ih]
theorem Map.mem_of_get? {α : Type} (m : Map α) (k : Nat) (v : α) (h : m.get? k = some v) : k ∈ m.map fun e => e.1 := by
  induction m with
  | nil => exact absurd h (by simp [Map.get?])
  | cons p m ih =>
    obtain ⟨a, x⟩ := p
    by_cases e : a = k
    · simp [e]
    · simp only [Map.get?, e, if_false] at h
      simp only [List.map_cons, List.mem_cons]
      exact .inr (ih h)

/-! ### The flash -/

theorem MediaSide.refl (s : State) : MediaSide s s := by
  constructor
  case dev => exact .inl rfl
  all_goals (intros; first | rfl | exact ⟨rfl, rfl, rfl⟩)

theorem MediaSide.trans {s t u : State} (a : MediaSide s t) (b : MediaSide t u) : MediaSide s u where
  pending := b.pending.trans a.pending
  dev := by
    rcases b.dev with d | d
    · rw [d]; exact a.dev
    · rcases a.dev with e | e
      · rw [e] at d; exact .inr d
      · exact .inr ⟨e.1, d.2⟩
  csr := fun f h => (b.csr f h).trans (a.csr f h)
  staged := b.staged.trans a.staged
  time := b.time.trans a.time
  bas := b.bas.trans a.bas
  vcore := b.vcore.trans a.vcore
  led := b.led.trans a.led
  pfw := b.pfw.trans a.pfw
  drain := b.drain.trans a.drain
  start := b.start.trans a.start
  pcie := by rw [← a.pcie, ← b.pcie]
  mbx := b.mbx.trans a.mbx
  chans := b.chans.trans a.chans
  alloc := b.alloc.trans a.alloc
  str := by rw [← a.str, ← b.str]
  eng := fun e => by rw [← a.eng e, ← b.eng e]
  hooks := by rw [← a.hooks, ← b.hooks]
  roles := by rw [← a.roles, ← b.roles]
  tab := b.tab.trans a.tab
  dram := b.dram.trans a.dram
  fab := b.fab.trans a.fab
  img := b.img.trans a.img
  usb := b.usb.trans a.usb
  selfTest := b.selfTest.trans a.selfTest
  jtag := b.jtag.trans a.jtag
  junction := b.junction.trans a.junction
  portsFailed := b.portsFailed.trans a.portsFailed
  flintLatched := b.flintLatched.trans a.flintLatched
  vols := fun v => by
    obtain ⟨a1, a2, a3⟩ := a.vols v
    obtain ⟨b1, b2, b3⟩ := b.vols v
    refine ⟨?_, b2.trans a2, b3.trans a3⟩
    rw [← a1, ← b1]
  nv := by rw [← a.nv, ← b.nv]

theorem Steady.mediaSide {s t : State} (h : Steady s t) : MediaSide s t where
  pending := h.pending
  dev := .inl h.dev
  csr := fun f k => h.csr f fun g m => k g (List.mem_append_left _ m)
  staged := h.staged
  time := h.time
  bas := h.bas
  vcore := h.vcore
  led := h.led
  pfw := h.pfw
  drain := h.drain
  start := h.start
  pcie := h.pcie
  mbx := h.mbx
  chans := h.chans
  alloc := h.alloc
  str := by rw [h.str]
  eng := h.eng
  hooks := h.hooks
  roles := by rw [h.roles]
  tab := h.tab
  dram := h.dram
  fab := h.fab
  img := h.img
  usb := h.usb
  selfTest := h.selfTest
  jtag := h.jtag
  junction := h.junction
  portsFailed := h.portsFailed
  flintLatched := h.flintLatched
  vols := fun v => by
    have e : t.vol v = s.vol v := by unfold State.vol; rw [h.nv_vols]
    rw [e]; exact ⟨rfl, rfl, rfl⟩
  nv := by rw [← h.nv]

/-- A change of parts that the relation leaves open. -/
theorem MediaSide.of_eq {s t : State} (h : { t with
    str := { t.str with units := s.str.units, openPage := s.str.openPage, pages := s.str.pages, sinceCkpt := s.str.sinceCkpt, ckptAt := s.str.ckptAt }
    fl := s.fl, rebuilding := s.rebuilding, sparesOut := s.sparesOut
    roles := { t.roles with flint := { t.roles.flint with requests := s.roles.flint.requests, seeds := s.roles.flint.seeds } }
    nv := { t.nv with
      loss := s.nv.loss, luns := s.nv.luns, failed := s.nv.failed, single := s.nv.single, keys := { t.nv.keys with drawn := s.nv.keys.drawn } } } = s) :
    MediaSide s t where
  pending := by have k := congrArg State.pending h; exact k
  dev := .inl (by have k := congrArg State.dev h; exact k)
  csr := fun f _ => by
    have k : t.csr = s.csr := by have k := congrArg State.csr h; exact k
    unfold State.f; rw [k]
  staged := by have k := congrArg State.staged h; exact k
  time := by have k := congrArg State.time h; exact k
  bas := by have k := congrArg State.bas h; exact k
  vcore := by have k := congrArg State.vcore h; exact k
  led := by have k := congrArg State.led h; exact k
  pfw := by have k := congrArg State.pfw h; exact k
  drain := by have k := congrArg State.drain h; exact k
  start := by have k := congrArg State.start h; exact k
  pcie := by
    have k : t.pcie = s.pcie := by have k := congrArg State.pcie h; exact k
    rw [k]
  mbx := by have k := congrArg State.mbx h; exact k
  chans := by have k := congrArg State.chans h; exact k
  alloc := by have k := congrArg State.alloc h; exact k
  str := by have k := congrArg State.str h; exact k
  eng := fun e => by
    have k : t.eng = s.eng := by have k := congrArg State.eng h; exact k
    unfold State.engine; rw [k]
  hooks := by
    have k : t.hooks = s.hooks := by have k := congrArg State.hooks h; exact k
    rw [k]
  roles := by have k := congrArg State.roles h; exact k
  tab := by have k := congrArg State.tab h; exact k
  dram := by have k := congrArg State.dram h; exact k
  fab := by have k := congrArg State.fab h; exact k
  img := by have k := congrArg State.img h; exact k
  usb := by have k := congrArg State.usb h; exact k
  selfTest := by have k := congrArg State.selfTest h; exact k
  jtag := by have k := congrArg State.jtag h; exact k
  junction := by have k := congrArg State.junction h; exact k
  portsFailed := by have k := congrArg State.portsFailed h; exact k
  flintLatched := by have k := congrArg State.flintLatched h; exact k
  vols := fun v => by
    have k : t.nv.vols = s.nv.vols := by have k := congrArg (fun x : State => x.nv.vols) h; exact k
    unfold State.vol; rw [k]; exact ⟨rfl, rfl, rfl⟩
  nv := by have k := congrArg (fun x : State => { x.nv with vols := s.nv.vols, cairns := s.nv.cairns }) h; exact k

theorem MediaSide.ite {s a b : State} {p : Prop} [Decidable p] (h : MediaSide s a) (k : MediaSide s b) : MediaSide s (if p then a else b) := by
  split <;> assumption
theorem MediaSide.foldl {α : Type} (f : State → α → State) (h : ∀ s a, MediaSide s (f s a)) (l : List α) (s : State) : MediaSide s (l.foldl f s) := by
  induction l generalizing s with
  | nil => exact .refl _
  | cons a l ih => exact (h _ _).trans (ih _)

theorem State.record_media (s : State) (a b c d e f : Nat) : MediaSide s (s.record a b c d e f) := (State.record_steady _ _ _ _ _ _ _).mediaSide
theorem State.bump_media (s : State) (i : Nat) : MediaSide s (s.bump i) := (State.bump_steady _ _).mediaSide
theorem State.commit_media (s : State) : MediaSide s s.commit := by
  unfold State.commit State.journal
  dsimp only
  split <;> exact .of_eq rfl
theorem State.setLun_media (s : State) (n : Nat) (l : Lun) : MediaSide s (s.setLun n l) := .of_eq rfl
theorem State.setBlock_media (s : State) (n b : Nat) (x : FBlock) : MediaSide s (s.setBlock n b x) := State.setLun_media _ _ _
theorem State.setLunRun_media (s : State) (n : Nat) (r : LunRun) : MediaSide s (s.setLunRun n r) := .of_eq rfl
theorem State.setFchan_media (s : State) (n : Nat) (c : FChan) : MediaSide s (s.setFchan n c) := .of_eq rfl
theorem State.regrade_media (s : State) : MediaSide s s.regrade := by
  refine MediaSide.trans ?_ s.regrade_shape.mediaSide
  split
  · rename_i h
    have g : s.serviceState.inService = true := by unfold State.serviceState; split <;> decide
    exact { MediaSide.refl s with dev := .inr ⟨h, g⟩ }
  · exact .refl _

theorem Map.get_map {α : Type} (d : α) (f : α → α) (hf : f d = d) (m : Map α) (k : Nat) : Map.get d (m.map fun v => (v.1, f v.2)) k = f (m.get d k) := by
  induction m with
  | nil => exact hf.symm
  | cons p m ih =>
    obtain ⟨a, x⟩ := p
    simp only [List.map_cons, Map.get]
    split
    · rfl
    · exact ih
theorem State.vol_mapData (s : State) (f : Blk → Blk) (g : SRec → SRec) (v : Nat) :
    (s.mapData f g).vol v = { s.vol v with map := (s.vol v).map.map (fun m => (m.1, f m.2)), recs := (s.vol v).recs.map g } :=
  Map.get_map ({} : Vol) (fun x : Vol => { x with map := x.map.map (fun m => (m.1, f m.2)), recs := x.recs.map g }) rfl s.nv.vols v
theorem State.mapData_media (s : State) (f : Blk → Blk) (g : SRec → SRec) (hg : ∀ r, (g r).seq = r.seq) : MediaSide s (s.mapData f g) := by
  refine { MediaSide.refl s with vols := fun v => ?_, eng := fun _ => rfl, csr := fun _ _ => rfl, dev := .inl rfl }
  rw [State.vol_mapData]
  refine ⟨rfl, by simp [List.map_map, Function.comp_def], ?_⟩
  simp [List.map_map, Function.comp_def, hg]
theorem State.moveLoc_media (s : State) (a b : Nat) : MediaSide s (s.moveLoc a b) :=
  State.mapData_media _ _ _ fun r => by split <;> rfl
theorem State.lose_media (s : State) (r : LossRun) : MediaSide s (s.lose r) := .of_eq rfl
theorem State.loseLun_media (s : State) (n : Nat) : MediaSide s (s.loseLun n) := by
  unfold State.loseLun
  dsimp only
  refine .ite (.refl _) (MediaSide.trans ?_ (State.record_media _ _ _ _ _ _ _))
  refine MediaSide.trans ?_ (State.mapData_media _ _ _ fun r => by split <;> rfl)
  exact (State.record_media _ _ _ _ _ _ _).trans (MediaSide.foldl _ State.lose_media _ _)
theorem State.rebuildOrLose_media (s : State) (n : Nat) : MediaSide s (s.rebuildOrLose n) := by
  unfold State.rebuildOrLose
  refine .ite (.refl _) (.ite (State.loseLun_media _ _) (.ite (.refl _) (MediaSide.trans ?_ (State.record_media _ _ _ _ _ _ _))))
  exact .of_eq rfl
theorem State.restage_media (s : State) (l : List Nat) : MediaSide s (s.restage l) := .of_eq rfl
theorem State.markLun_media (s : State) (n c : Nat) : MediaSide s (s.markLun n c) := by
  unfold State.markLun
  dsimp only
  refine MediaSide.trans ?_ (State.rebuildOrLose_media _ _)
  refine MediaSide.trans ?_ (State.commit_media _)
  generalize hs : State.restage _ _ = u
  have hu : MediaSide s u := by
    rw [← hs]
    exact (State.setFchan_media s _ _).trans (State.restage_media _ _)
  clear hs
  refine hu.trans ?_
  generalize hw : u.setLun _ _ = w
  have h1 : MediaSide u w := by rw [← hw]; exact State.setLun_media _ _ _
  clear hw
  refine h1.trans ?_
  split
  · refine MediaSide.trans (t := { w with nv := { w.nv with single := true } }) (.of_eq rfl) ?_
    refine MediaSide.trans (State.record_media _ 0xF011 Src.recorder 0 0 0 0) ?_
    exact .of_eq rfl
  · exact .of_eq rfl
theorem State.failChannel_media (s : State) (ch : Nat) : MediaSide s (s.failChannel ch) := by
  unfold State.failChannel
  dsimp only
  refine .ite (.refl _) (MediaSide.trans ?_ (State.regrade_media _))
  refine MediaSide.trans ?_ (State.setFchan_media _ _ _)
  refine MediaSide.trans ?_ (MediaSide.foldl _ (fun t n => State.markLun_media t n 4) _ _)
  refine MediaSide.trans ?_ (State.record_media _ _ _ _ _ _ _)
  exact .of_eq rfl
theorem State.failLun_media (s : State) (n c : Nat) : MediaSide s (s.failLun n c) := by
  unfold State.failLun
  dsimp only
  have h : MediaSide s ((s.record 0x3020 (Src.channel (lunChannel n)) n c).markLun n c).regrade :=
    ((State.record_media _ _ _ _ _ _ _).trans (State.markLun_media _ _ _)).trans (State.regrade_media _)
  exact .ite (.refl _) (.ite (h.trans (State.failChannel_media _ _)) h)
theorem State.retire_media (s : State) (n b c : Nat) : MediaSide s (s.retire n b c) := by
  unfold State.retire
  dsimp only
  generalize hs : State.commit _ = u
  have hu : MediaSide s u := by
    rw [← hs]
    refine MediaSide.trans ?_ (State.commit_media _)
    refine MediaSide.trans ?_ (State.bump_media _ _)
    refine MediaSide.trans ?_ (State.record_media _ _ _ _ _ _ _)
    exact State.setBlock_media _ _ _ _
  clear hs
  have h3 : MediaSide s (if 8 * lunBlocks (u.lunEntry n) < 100 * u.retiredCount n then u.failLun n 1 else u) := .ite (hu.trans (State.failLun_media _ _ _)) hu
  generalize (if 8 * lunBlocks (u.lunEntry n) < 100 * u.retiredCount n then u.failLun n 1 else u) = w at *
  refine .ite (MediaSide.trans ?_ (State.record_media _ _ _ _ _ _ _)) h3
  exact h3.trans (by exact .of_eq rfl)
theorem State.erased_media (s : State) (n b : Nat) : MediaSide s (s.erased n b) := by
  unfold State.erased
  dsimp only
  generalize hs : State.commit _ = u
  have hu : MediaSide s u := by rw [← hs]; exact (State.setBlock_media s _ _ _).trans (State.commit_media _)
  clear hs
  have h2 : MediaSide s (if ¬ s.anyWorn ∧ u.anyWorn then u.record 0x3082 Src.tumbler n b else u) := .ite (hu.trans (State.record_media _ _ _ _ _ _ _)) hu
  generalize (if ¬ s.anyWorn ∧ u.anyWorn then u.record 0x3082 Src.tumbler n b else u) = v at *
  have h3 : MediaSide s (if 800000 < v.meanWear n ∧ ¬ (v.lunRun n).wornNoted then (v.setLunRun n { v.lunRun n with wornNoted := true }).record 0x3081 Src.tumbler n else v) :=
    .ite ((h2.trans (State.setLunRun_media _ _ _)).trans (State.record_media _ _ _ _ _ _ _)) h2
  generalize (if 800000 < v.meanWear n ∧ ¬ (v.lunRun n).wornNoted then (v.setLunRun n { v.lunRun n with wornNoted := true }).record 0x3081 Src.tumbler n else v) = w at *
  have h4 : MediaSide s (if (s.block n b).retireAfter then w.retire n b 4 else w) := .ite (h3.trans (State.retire_media _ _ _ _)) h3
  generalize (if (s.block n b).retireAfter then w.retire n b 4 else w) = x at *
  exact .ite (h4.trans (State.setLunRun_media _ _ _)) h4
theorem State.scramblerSeed_media (s : State) : MediaSide s s.scramblerSeed.1 := by
  unfold State.scramblerSeed
  split <;> exact .of_eq rfl
theorem State.openBlock_media (s : State) (n b c : Nat) (l : Bool) : MediaSide s (s.openBlock n b c l) :=
  (State.scramblerSeed_media s).trans (State.setBlock_media _ _ _ _)
theorem State.closeBlock_media (s : State) (n b : Nat) : MediaSide s (s.closeBlock n b) := by
  unfold State.closeBlock
  dsimp only
  exact .of_eq rfl
theorem State.sanBlock_media (s : State) (loc : Nat) : MediaSide s (s.sanBlock loc) := by
  unfold State.sanBlock
  dsimp only
  refine .ite (State.erased_media _ _ _) ?_
  split
  · refine MediaSide.trans ?_ (State.erased_media _ _ _)
    refine MediaSide.trans ?_ (State.closeBlock_media _ _ _)
    exact (State.openBlock_media _ _ _ _ _).trans (State.moveLoc_media _ _ _)
  · exact .refl _
theorem State.queueOp_media (s : State) (o : FOp) : MediaSide s (s.queueOp o) := by
  unfold State.queueOp
  dsimp only
  refine MediaSide.trans ?_ (State.raise_steady _ _ _).mediaSide
  exact .of_eq rfl
theorem State.moveBlock_media (s : State) (n b k : Nat) : MediaSide s (s.moveBlock n b k) := by
  unfold State.moveBlock
  dsimp only
  refine .ite (.refl _) (.ite ?_ (.ite ?_ (.refl _)))
  · exact (State.setBlock_media _ _ _ _).trans (State.queueOp_media _ _)
  · exact (State.setBlock_media _ _ _ _).trans (State.setFchan_media _ _ _)
theorem State.countErr_media (s : State) (ch n : Nat) (h : ch < 8) : MediaSide s (s.countF (Reg.errHard ch) n) := by
  refine { MediaSide.refl s with csr := fun f hf => ?_, eng := fun _ => rfl, dev := .inl rfl, vols := fun _ => ⟨rfl, rfl, rfl⟩ }
  exact State.f_setF_ne _ _ (hf _ (List.mem_append_right _ (List.mem_map.2 ⟨ch, List.mem_range.2 h, rfl⟩)))
theorem State.countRead_media (s : State) (loc : Nat) : MediaSide s (s.countRead loc) := by
  unfold State.countRead
  dsimp only
  have h := fun x => State.setBlock_media s (loc / 2 ^ 32) (loc % 2 ^ 32 - 1) x
  refine .ite (.refl _) (.ite (h _) (.ite ?_ (.ite ?_ (h _))))
  all_goals exact ((h _).trans (State.bump_media _ _)).trans (State.moveBlock_media _ _ _ _)

@[simp] theorem State.lun_setLun (s : State) (n : Nat) (l : Lun) : (s.setLun n l).lun n = l := Map.get_set_self _ _ _ _
theorem State.lun_setLun_ne (s : State) {n m : Nat} (l : Lun) (h : m ≠ n) : (s.setLun n l).lun m = s.lun m := Map.get_set_ne _ _ _ h
@[simp] theorem State.block_setBlock (s : State) (n b : Nat) (x : FBlock) : (s.setBlock n b x).block n b = x := by
  unfold State.setBlock State.block
  dsimp only
  rw [State.lun_setLun]
  exact Map.get_set_self _ _ _ _
theorem State.block_setBlock_ne (s : State) {n b d : Nat} (x : FBlock) (h : d ≠ b) : (s.setBlock n b x).block n d = s.block n d := by
  unfold State.setBlock State.block
  dsimp only
  rw [State.lun_setLun]
  exact Map.get_set_ne _ _ _ h
theorem State.lun_setBlock_ne (s : State) {n m : Nat} (b : Nat) (x : FBlock) (h : m ≠ n) : (s.setBlock n b x).lun m = s.lun m := State.lun_setLun_ne _ _ h

theorem takeStaged_takes (fs : List Field) : ∀ s : State, (fs.map fun f => f.key).Nodup → Takes s fs (s.takeStaged fs) := by
  induction fs with
  | nil => intro s _; exact ⟨fun f h => absurd h (by simp), fun f h => absurd h (by simp), fun _ _ => rfl, fun _ _ => rfl, rfl⟩
  | cons f fs ih =>
    intro s h
    have hn : (∀ g ∈ fs, g.key ≠ f.key) ∧ (fs.map fun f => f.key).Nodup := by simpa using h
    have one : ∀ t : State, t = (match s.staged.get? f.key with
        | some v => ({ s with staged := s.staged.erase f.key }).setF f v
        | none => s) → t.f f = (match s.staged.get? f.key with
          | some x => x % 2 ^ f.width
          | none => s.f f) ∧ (∀ g : Field, g.key ≠ f.key → t.f g = s.f g) ∧ t.staged.get? f.key = none ∧
        (∀ k, k ≠ f.key → t.staged.get? k = s.staged.get? k) ∧ { t with csr := s.csr, staged := s.staged } = s := by
      intro t ht
      cases e : s.staged.get? f.key with
      | some v =>
        rw [e] at ht
        subst ht
        refine ⟨State.f_setF_self _ _ _, fun g hg => ?_, Map.get?_erase _ _, fun k hk => Map.get?_erase_ne _ hk, rfl⟩
        rw [State.f_setF_ne _ _ hg]; rfl
      | none =>
        rw [e] at ht
        subst ht
        exact ⟨rfl, fun _ _ => rfl, e, fun _ _ => rfl, rfl⟩
    obtain ⟨a1, a2, a3, a4, a5⟩ := one _ rfl
    have k := ih (match s.staged.get? f.key with
        | some v => ({ s with staged := s.staged.erase f.key }).setF f v
        | none => s) hn.2
    have hs : s.takeStaged (f :: fs) = State.takeStaged (match s.staged.get? f.key with
        | some v => ({ s with staged := s.staged.erase f.key }).setF f v
        | none => s) fs := rfl
    rw [hs]
    generalize (match s.staged.get? f.key with
        | some v => ({ s with staged := s.staged.erase f.key }).setF f v
        | none => s) = u at *
    generalize u.takeStaged fs = t at *
    refine ⟨fun g hg => ?_, fun g hg => ?_, fun g hg => ?_, fun j hj => ?_, ?_⟩
    · rcases List.mem_cons.1 hg with rfl | hg
      · rw [k.others g (fun x hx => (hn.1 x hx).symm)]; exact a1
      · rw [k.taken g hg, a4 _ (hn.1 g hg), a2 _ (hn.1 g hg)]
    · rcases List.mem_cons.1 hg with rfl | hg
      · rw [k.staged _ (fun x hx => (hn.1 x hx).symm), a3]
      · exact k.cleared g hg
    · rw [k.others g (fun x hx => hg x (by simp [hx])), a2 _ (hg f (by simp))]
    · rw [k.staged j (fun x hx => hj x (by simp [hx])), a4 _ (hj f (by simp))]
    · have e := congrArg (fun y : State => { y with csr := s.csr, staged := s.staged }) k.rest
      exact e.trans a5
/-- A search for the least: `e` is below all before it, and none after it is below `e`. -/
theorem fold_first {α : Type} (lt : α → α → Bool) (l r : List α) (e : α) (h1 : ∀ y ∈ l, lt e y = true) (h2 : ∀ y ∈ r, lt y e = false)
    (a : α) (as : List α) (h : l ++ e :: r = a :: as) : as.foldl (fun m b => if lt b m then b else m) a = e := by
  have stay : ∀ r : List α, (∀ y ∈ r, lt y e = false) → r.foldl (fun m b => if lt b m then b else m) e = e := by
    intro r
    induction r with
    | nil => intro _; rfl
    | cons y r ih =>
      intro h
      simp only [List.foldl_cons, h y (by simp), Bool.false_eq_true, if_false]
      exact ih fun z hz => h z (by simp [hz])
  have inside : ∀ (l : List α) (a : α), l.foldl (fun m b => if lt b m then b else m) a ∈ a :: l := by
    intro l
    induction l with
    | nil => intro a; simp
    | cons y l ih =>
      intro a
      simp only [List.foldl_cons]
      split
      · exact List.mem_cons_of_mem _ (ih y)
      · have := ih a
        rcases List.mem_cons.1 this with k | k
        · rw [k]; simp
        · simp [k]
  cases l with
  | nil =>
    obtain ⟨rfl, rfl⟩ := List.cons.inj h
    exact stay _ h2
  | cons b l =>
    have h' : b :: (l ++ e :: r) = a :: as := h
    obtain ⟨rfl, rfl⟩ := List.cons.inj h'
    simp only [List.foldl_append, List.foldl_cons]
    rw [h1 _ (inside l b)]
    exact stay _ h2

/-! ### Register fields -/

theorem Sets.none (s : State) : Sets s [] s := ⟨fun p h => absurd h (by simp), fun _ _ => rfl, rfl⟩
theorem Sets.more {s t : State} {l : List (Field × Nat)} (h : Sets s l t) (f : Field) (v : Nat) (hf : ∀ p ∈ l, p.1.key ≠ f.key) :
    Sets s ((f, v) :: l) (t.setF f v) := by
  refine ⟨fun p hp => ?_, fun g hg => ?_, ?_⟩
  · rcases List.mem_cons.1 hp with rfl | hp
    · exact State.f_setF_self _ _ _
    · rw [State.f_setF_ne _ _ (hf p hp), h.written p hp]
  · rw [State.f_setF_ne _ _ (show g.key ≠ f.key from hg (f, v) (by simp)), h.others g (fun p hp => hg p (by simp [hp]))]
  · have e := h.rest
    exact e
theorem Sets.one (s : State) (f : Field) (v : Nat) : Sets s [(f, v)] (s.setF f v) := (Sets.none s).more f v (fun p h => absurd h (by simp))
theorem Sets.count (s : State) (f : Field) (n : Nat) : Sets s [(f, min (2 ^ f.width - 1) (s.f f + n))] (s.countF f n) := Sets.one s f _
/-- A field written with another part of the state. -/
theorem Sets.of_eq {s t : State} {l : List (Field × Nat)} (h : Sets s l t) {u v : State} (h1 : u.csr = s.csr) (h2 : v.csr = t.csr) (h3 : { v with csr := u.csr } = u) :
    Sets u l v := by
  have a : ∀ f, v.f f = t.f f := fun f => by unfold State.f; rw [h2]
  have b : ∀ f, u.f f = s.f f := fun f => by unfold State.f; rw [h1]
  exact ⟨fun p hp => by rw [a, h.written p hp], fun f hf => by rw [a, b, h.others f hf], h3⟩

/-! ### Bits -/

theorem bit_eq_testBit (v i : Nat) : bit v i = v.testBit i := by
  unfold bit
  rw [Nat.testBit_eq_decide_div_mod_eq]
theorem testBit_parts (a b i j : Nat) (hb : b < 2 ^ i) : (2 ^ i * a + b).testBit j = if j < i then b.testBit j else a.testBit (j - i) :=
  Nat.testBit_two_pow_mul_add a hb j
theorem testBit_even (a k : Nat) (h : a % 2 = 0) : (a + 1).testBit k = if k = 0 then true else a.testBit k := by
  cases k with
  | zero => simp [Nat.testBit_zero]; omega
  | succ k => rw [if_neg (by omega), Nat.testBit_succ, Nat.testBit_succ, show (a + 1) / 2 = a / 2 by omega]
theorem bit_withBit (v i j : Nat) (b : Bool) : bit (withBit v i b) j = if j = i then b else bit v j := by
  have hb : v % 2 ^ i < 2 ^ i := Nat.mod_lt _ (Nat.two_pow_pos i)
  have hv : v = 2 ^ i * (v / 2 ^ i) + v % 2 ^ i := (Nat.div_add_mod v (2 ^ i)).symm
  generalize hq : v / 2 ^ i = a at *
  generalize v % 2 ^ i = r at *
  have hbit : bit v i = decide (a % 2 = 1) := by unfold bit; rw [hq]
  have key : ∀ c, (c = a ∨ c = a + 1 ∧ a % 2 = 0 ∨ a = c + 1 ∧ c % 2 = 0) → ∀ j, j ≠ i → (2 ^ i * c + r).testBit j = (2 ^ i * a + r).testBit j := by
    intro c hc j hj
    rw [testBit_parts _ _ _ _ hb, testBit_parts _ _ _ _ hb]
    by_cases h : j < i
    · rw [if_pos h, if_pos h]
    · rw [if_neg h, if_neg h]
      rcases hc with rfl | ⟨rfl, h1⟩ | ⟨rfl, h1⟩
      · rfl
      · rw [testBit_even _ _ h1, if_neg (by omega)]
      · rw [testBit_even _ _ h1, if_neg (by omega)]
  have self : ∀ c, (2 ^ i * c + r).testBit i = decide (c % 2 = 1) := by
    intro c
    rw [testBit_parts _ _ _ _ hb, if_neg (by omega), Nat.sub_self, Nat.testBit_zero]
  have res : ∃ c, withBit v i b = 2 ^ i * c + r ∧ (c = a ∨ c = a + 1 ∧ a % 2 = 0 ∨ a = c + 1 ∧ c % 2 = 0) ∧ decide (c % 2 = 1) = b := by
    unfold withBit
    rw [hbit]
    cases b
    · by_cases h : a % 2 = 1
      · refine ⟨a - 1, ?_, .inr (.inr (by omega)), by simp; omega⟩
        simp only [h, decide_true, if_true]
        rw [if_neg (by decide), hv]
        obtain ⟨c, rfl⟩ : ∃ c, a = c + 1 := ⟨a - 1, by omega⟩
        rw [Nat.add_sub_cancel, Nat.mul_add]
        omega
      · refine ⟨a, ?_, .inl rfl, by simp [h]⟩
        simp [h]
        exact hv
    · by_cases h : a % 2 = 1
      · refine ⟨a, ?_, .inl rfl, by simp [h]⟩
        simp [h]
        exact hv
      · refine ⟨a + 1, ?_, .inr (.inl ⟨rfl, by omega⟩), by simp; omega⟩
        simp [h]
        rw [Nat.mul_add]
        omega
  obtain ⟨c, h1, h2, h3⟩ := res
  rw [bit_eq_testBit, bit_eq_testBit, h1]
  by_cases h : j = i
  · subst h; rw [if_pos rfl, self, h3]
  · rw [if_neg h, key c h2 j h, ← hv]

/-! ### Streams -/

theorem unloses_shape {α : Type} (f : State → α → State) (h : ∀ s a, ∃ l, f s a = { s with nv := { s.nv with loss := l } }) (l : List α) (s : State) :
    ∃ x, l.foldl f s = { s with nv := { s.nv with loss := x } } := by
  induction l generalizing s with
  | nil => exact ⟨s.nv.loss, rfl⟩
  | cons a l ih =>
    obtain ⟨x, hx⟩ := h s a
    obtain ⟨y, hy⟩ := ih (f s a)
    refine ⟨y, ?_⟩
    simp only [List.foldl]
    rw [hy, hx]
theorem releaseOldest_shape (s : State) (v k : Nat) : ∃ x, s.releaseOldest v k =
    { s.setVol v { s.vol v with recs := (s.vol v).recs.drop k, released := (s.vol v).released + k } with
      nv := { (s.setVol v { s.vol v with recs := (s.vol v).recs.drop k, released := (s.vol v).released + k }).nv with loss := x } } := by
  unfold State.releaseOldest
  dsimp only
  refine unloses_shape _ (fun u r => ?_) _ _
  split
  · exact ⟨_, rfl⟩
  · exact ⟨u.nv.loss, rfl⟩
theorem accept_appended (s : State) (v k n : Nat) (payload : Bytes) (src tr : Nat) (r : Bool) (q g : Nat) : Appended s v k n {
      seq := (s.vol v).nextSeq, ticks := s.time.uptime, cycles := s.time.cycles, optMs := s.time.optMs, payload := payload
      src := src, transform := tr, off := (s.vol v).writeOff } r q g ((s.releaseOldest v k).accept v payload src tr n r q g) := by
  obtain ⟨x, hx⟩ := releaseOldest_shape s v k
  have uv : (s.releaseOldest v k).vol v = { s.vol v with recs := (s.vol v).recs.drop k, released := (s.vol v).released + k } := by
    rw [hx]; exact State.vol_setVol _ _ _
  have un : ∀ w, w ≠ v → (s.releaseOldest v k).vol w = s.vol w := fun w h => by
    rw [hx]; exact State.vol_setVol_ne _ _ h
  have ur : { s.releaseOldest v k with nv := { (s.releaseOldest v k).nv with vols := s.nv.vols, loss := s.nv.loss } } = s := by rw [hx]; rfl
  have us : (s.releaseOldest v k).str = s.str := by rw [hx]; rfl
  have ut : (s.releaseOldest v k).time = s.time := by rw [hx]; rfl
  generalize s.releaseOldest v k = u at *
  have e : (u.accept v payload src tr n r q g).vol v = { u.vol v with
      recs := (u.vol v).recs ++ [{ seq := (u.vol v).nextSeq, ticks := u.time.uptime, cycles := u.time.cycles, optMs := u.time.optMs, payload := payload
                                   src := src, transform := tr, off := (u.vol v).writeOff }]
      nextSeq := (u.vol v).nextSeq + 1
      writeOff := ((u.vol v).writeOff + extent payload.length) % max 1 (u.vol v).space } := State.vol_setVol _ _ _
  refine ⟨?_, fun w h => ?_, ?_, ?_⟩
  · rw [e, uv, ut]
    rfl
  · rw [← un w h]
    exact State.vol_setVol_ne _ _ h
  · unfold State.accept
    dsimp only
    rw [show ∀ z, (u.setVol v z).str = u.str from fun _ => rfl, us, uv]
  · have e := congrArg (fun x : State => { x with str := s.str }) ur
    exact e

/-! ### Frames -/

theorem frame_op {f e h : Bytes} (he : e = f.drop 18) (hh : h = frameInner e) (k : icrcOk e = true) : hOp h = frameOp f := by
  have n : 48 + frameTail e ≤ e.length := by
    unfold icrcOk at k
    simp only [Bool.and_eq_true, decide_eq_true_eq] at k
    exact k.1
  unfold hOp frameOp beAt slice
  rw [hh]
  unfold frameInner
  rw [List.drop_take, List.take_take, he, List.drop_drop]
  rw [he] at n
  rw [Nat.min_eq_left (by omega)]
theorem late_facts (u : State) (l : Bool) (op : Nat) (h : op ≠ 0x10) (v : State) (e : (if l = true ∧ op ≠ 0x10 then u.late else u) = v) :
    (if l = true then Counts u 0x21 v else v = u) ∧ ∀ c, v.conn c = u.conn c := by
  cases l with
  | true =>
    rw [if_pos ⟨rfl, h⟩] at e
    subst e
    refine ⟨⟨_, .refl _, .refl _⟩, fun c => ?_⟩
    unfold State.conn
    rw [show u.late.fab = u.fab from (State.bump_steady _ _).fab]
  | false =>
    rw [if_neg (by simp)] at e
    subst e
    exact ⟨rfl, fun _ => rfl⟩
theorem arrive_passes {s u : State} {p c : Nat} {f h : Bytes} {a : Arrival} (x : Arrives s p f a.fill.toNat u) (y : Passes u p f c h) (media : List (Nat × Media)) :
    s.arrive p f true a media = (if a.late = true ∧ hOp h ≠ 0x10 then u.late else u).actFrame c p h a media := by
  unfold State.arrive
  dsimp only
  rw [if_neg (by simp [x.running, x.linked]), ← x.held, ← y.head, ← y.conn, if_neg (by simp [x.room]), if_neg (by simp [y.frame]),
    if_neg (by simp [y.code]), if_neg (by simp [y.bound]), if_neg (by simp [y.tagged])]

/-! ### The USB port -/

theorem vendor_facts {s : State} {i : Instr} {role : Nat} {fields states : Bool} {f : State → State} {good : Prop} {done : Host.Outcome State Fault Refusal → Prop}
    (hr : exec i s = s.vendor role fields states f) (hg : good ↔ fields = true ∧ states = true ∧ role ≤ s.roles.usb) (hd : s.dieUp = true → s.usb.attached = true → good → done (.next (f s.unstreamed))) :
    Vendor s i good done := by
  unfold Vendor
  rw [hr]
  unfold State.vendor
  dsimp only
  refine ⟨fun k => if_pos ?_, fun k k1 k2 => ?_, fun k k1 k2 => ?_⟩
  · refine Classical.byContradiction fun n => k ?_
    simpa [not_or] using n
  · rw [if_neg (by simp [k, k1]), if_pos]
    · rfl
    · refine Classical.byContradiction fun n => k2 (hg.2 ?_)
      simpa [not_or] using n
  · rw [if_neg (by simp [k, k1]), if_neg]
    · exact hd k k1 k2
    · have := hg.1 k2
      simp [this.1, this.2.1]
      exact this.2.2

end Sys2Proof.Machine
end

