-- ==== Sys2Proof/Laws/Access.lean ====
section
/-! SUPPORT. The JTAG path, the windows of the entropy source, images and the requests of the USB port (R513 to R568). -/

namespace Sys2Proof.Machine

/-! ### Path roles -/

theorem tapServes_true {s : State} {i : JtagInstr} (h1 : s.dieUp = true) (h2 : s.bas.freeze = false) (h3 : s.jtag = i) : s.tapServes i = true := by
  unfold State.tapServes
  simp [h1, h2, h3]

/-! ### Flint windows -/

theorem healthFail_facts (s : State) (test count : Nat) :
    let f := s.roles.flint
    let down : Flint := { f with drbg := false, passed := 0, halted := true, stat := 2, failAt := s.time.uptime }
    ∃ u v : State,
        Logs (((s.ring 0).cmds.filter fun c => c.opcode == 0x4D && c.stage == .held).foldl (fun t c => t.complete c 0x0500 [])
          (s.setFlint down)) 0x6051 Src.flint test f.reruns count 0 u ∧ Counts u 0x42 v ∧ v.roles.flint = down ∧
        (¬ (f.stat = 2 ∧ 3 ≤ f.reruns) → s.healthFail test count = v) ∧
        (f.stat = 2 ∧ 3 ≤ f.reruns → ∃ w, Logs { v with flintLatched := true, roles := { v.roles with flint := { down with stat := 3 } } }
          0x6050 Src.flint test f.reruns count 0 w ∧ Counts w 0x40 (s.healthFail test count)) := by
  unfold State.healthFail State.failEntropy
  dsimp only
  generalize hx : s.setFlint { s.roles.flint with drbg := false, passed := 0, halted := true, stat := 2, failAt := s.time.uptime } = x
  have e1 : x.ring 0 = s.ring 0 := by rw [← hx]; rfl
  have e2 : x.roles.flint = { s.roles.flint with drbg := false, passed := 0, halted := true, stat := 2, failAt := s.time.uptime } := by rw [← hx]; rfl
  rw [e1]
  generalize hl : (s.ring 0).cmds.filter (fun c => c.opcode == 0x4D && c.stage == .held) = l
  have hf : (l.foldl (fun t c => State.complete t c 0x0500 []) x).roles = x.roles :=
    foldl_keeps _ (fun u => u.roles) (fun t c => (State.complete_steady t c 0x0500 []).roles) l x
  generalize l.foldl (fun t c => State.complete t c 0x0500 []) x = y at *
  have ru := State.record_steady y 0x6051 Src.flint test s.roles.flint.reruns count 0
  have lu : Logs y 0x6051 Src.flint test s.roles.flint.reruns count 0 (y.record 0x6051 Src.flint test s.roles.flint.reruns count) := ⟨_, .refl _, .refl _⟩
  generalize y.record 0x6051 Src.flint test s.roles.flint.reruns count = u at *
  have rv := State.bump_steady u 0x42
  have cv : Counts u 0x42 (u.bump 0x42) := ⟨_, .refl _, .refl _⟩
  generalize u.bump 0x42 = v at *
  have ev : v.roles.flint = { s.roles.flint with drbg := false, passed := 0, halted := true, stat := 2, failAt := s.time.uptime } := by
    rw [rv.roles, ru.roles, hf, e2]
  refine ⟨u, v, lu, cv, ev, fun h => if_neg h, fun h => ?_⟩
  rw [if_pos h, ev]
  exact ⟨_, ⟨_, .refl _, .refl _⟩, ⟨_, .refl _, .refl _⟩⟩
theorem windowPass_steady (s : State) (h1 : s.roles.flint.stat = 1) (h2 : s.roles.flint.drbg = true) : s.windowPass =
    (s.countF Reg.fltWin 1).setFlint { s.roles.flint with reseed := false, requests := if s.roles.flint.reseed then 0 else s.roles.flint.requests } := by
  unfold State.windowPass
  dsimp only
  rw [if_pos ⟨h1, h2⟩]
  cases hr : s.roles.flint.reseed with
  | true => rfl
  | false =>
    simp only [Bool.false_eq_true, if_false]
    rw [← hr]
    rfl
theorem windowPass_count (s : State) (h1 : s.roles.flint.stat ≠ 1 ∨ s.roles.flint.drbg = false) (h2 : s.roles.flint.passed + 1 < 6) : s.windowPass =
    (s.countF Reg.fltWin 1).setFlint { s.roles.flint with
      passed := s.roles.flint.passed + 1, stat := if s.roles.flint.passed + 1 = 4 ∧ s.roles.flint.stat = 0 then 1 else s.roles.flint.stat } := by
  unfold State.windowPass
  dsimp only
  rw [if_neg (by rcases h1 with h1 | h1 <;> simp [h1]), if_pos h2]
theorem windowPass_up (s : State) (h1 : s.roles.flint.stat ≠ 1 ∨ s.roles.flint.drbg = false) (h2 : 6 ≤ s.roles.flint.passed + 1) : s.windowPass =
    (let u := (s.countF Reg.fltWin 1).setFlint { s.roles.flint with
      passed := 0, drbg := true, requests := 0, reseed := false, stat := 1, reruns := 0 }
     if s.roles.flint.stat = 2 then u.record 0x6052 Src.flint 3 s.roles.flint.reruns else u) := by
  unfold State.windowPass
  dsimp only
  rw [if_neg (by rcases h1 with h1 | h1 <;> simp [h1]), if_neg (by omega)]

/-! ### Image commands -/

theorem onTrial_trial {s : State} (h : s.onTrial = true) : s.nv.boot.trial ≠ 255 := by
  unfold State.onTrial at h
  simp only [Bool.and_eq_true, decide_eq_true_eq, beq_iff_eq] at h
  rw [h.2]
  simpa using h.1.2

/-! ### Usb requests -/

theorem chunkGate_open (x : State) : x.chunkGate = .open_ ↔ (x.dev.minimal = true ∨ x.openTo 6 = true ∧ x.unitsFit 6 1 = true ∧ x.energyFits 1 = true) := by
  unfold State.chunkGate
  cases x.dev.minimal <;> cases x.openTo 6 <;> cases x.unitsFit 6 1 <;> cases x.energyFits 1 <;> simp
theorem usbChunk_eq (x : State) (unit : Nat) (b : Bytes) :
    (∀ g, x.sessionOn 1 = some g → (x.dev.minimal = true ∨ x.openTo 6 = true ∧ x.unitsFit 6 1 = true ∧ x.energyFits 1 = true) → x.poolRoom g = true →
      x.usbChunk unit b = some (x.putChunk g unit (b.take 4096))) ∧
    (¬ (∃ g, x.sessionOn 1 = some g ∧ (x.dev.minimal = true ∨ x.openTo 6 = true ∧ x.unitsFit 6 1 = true ∧ x.energyFits 1 = true) ∧ x.poolRoom g = true) → x.usbChunk unit b = none) := by
  rw [← chunkGate_open]
  unfold State.usbChunk
  cases h : x.sessionOn 1 with
  | none => exact ⟨fun g e => absurd e (by simp), fun _ => rfl⟩
  | some g =>
    dsimp only
    unfold State.putChunks
    refine ⟨fun g' e k1 k2 => ?_, fun k => ?_⟩
    · obtain rfl := Option.some.inj e
      rw [if_pos k2]
      exact if_pos ⟨k1, rfl⟩
    · by_cases k2 : x.poolRoom g = true
      · rw [if_pos k2]
        exact if_neg (fun q => k ⟨g, rfl, q.1, k2⟩)
      · rw [if_neg k2]
        exact if_neg (fun q => absurd q.2 (by simp))
theorem onTrial_named {s : State} (h : s.onTrial = true) : s.nv.boot.trial ≠ 255 := by
  unfold State.onTrial at h
  simp only [Bool.and_eq_true, decide_eq_true_eq, beq_iff_eq] at h
  rw [h.2]
  simpa using h.1.2
theorem reboot_facts (u : State) (b : Bool) :
    (u.bas.freeze = true → Host.Outcome.next (State.restart { u with bas := { u.bas with toBedrock := b } } 3 .restart) =
      (.next { u with bas := { u.bas with toBedrock := b } } : Host.Outcome State Fault Refusal)) ∧
    (u.dieUp = true → u.bas.freeze = false → Answers (.next (State.restart { u with bas := { u.bas with toBedrock := b } } 3 .restart))
      (Drains { u with bas := { u.bas with toBedrock := b, nextSrc := 3 } } .restart true)) := by
  refine ⟨fun k => ?_, fun hup k => ⟨_, rfl, ?_⟩⟩
  · refine congrArg Host.Outcome.next ?_
    unfold State.restart
    exact if_pos (.inl k)
  · generalize hx : ({ u with bas := { u.bas with toBedrock := b } } : State) = x
    have h1 : x.dieUp = true := by rw [← hx]; exact hup
    have h2 : x.bas.freeze = false := by rw [← hx]; exact k
    have q := restart_drains x 3 .restart h1 h2
    rw [← hx] at q ⊢
    exact q
theorem vendor_reboot (s : State) (value index : BitVec 16) (data : Bytes) :
    Vendor s (.reboot value index data) (value.toNat ≤ 1 ∧ index = 0 ∧ data = [] ∧ 1 ≤ s.roles.usb) (fun r =>
      (s.bas.freeze = true → r = .next { s.unstreamed with bas := { s.unstreamed.bas with toBedrock := decide (value = 1) } }) ∧
      (s.bas.freeze = false → Answers r (Drains { s.unstreamed with bas := { s.unstreamed.bas with toBedrock := decide (value = 1), nextSrc := 3 } } .restart true))) := by
  refine vendor_facts (exec_reboot ..) ?_ fun hup hat g => ?_
  · simp [and_assoc]
  · have q := reboot_facts s.unstreamed (decide (value = 1))
    exact ⟨q.1, q.2 hup⟩

/-! ### Rollback floor never falls -/

theorem fuses_eq (s : State) : s.calRow 0x620 8 = natLe 8 (2 ^ s.nv.floor - 1) := by
  unfold State.calRow State.calByte
  have h : (natLe 8 (2 ^ s.nv.floor - 1)).length = 8 := by simp
  generalize natLe 8 (2 ^ s.nv.floor - 1) = b at h ⊢
  match b, h with
  | [_, _, _, _, _, _, _, _], _ => rfl

end Sys2Proof.Machine
end

