-- ==== Sys2Proof/Laws/Calm.lean ====
section
/-! SUPPORT. The relation that every operation keeps (`Calm`), and how it passes through the shapes of the definitions. -/

namespace Sys2Proof.Machine

/-- What the relation looks at: the queue, the rollback floor, the records of Amber and the roles held on the
three paths. -/
inductive View
  | none
  | some (queue : List Instr) (floor : Nat) (amber : List EvRec) (pcie usb : Nat) (jtag : Bool)

/-- The view of a state. -/
def State.view (s : State) : View := .some s.pending s.nv.floor s.nv.amber s.roles.pcie s.roles.usb s.roles.jtag

theorem viewMk (q x1 x2 x3 x4 x5 x6 x7 x8 x9 x10 x11 x12 x13 x14 x15 x16 x17 x18 x19 r x21 x22 x23 x24 x25 x26 x27 x28 x29 x30 x31 x32 x33 x34 x35 x36 n x38) :
    (State.mk q x1 x2 x3 x4 x5 x6 x7 x8 x9 x10 x11 x12 x13 x14 x15 x16 x17 x18 x19 r x21 x22 x23 x24 x25 x26 x27 x28 x29 x30 x31 x32 x33 x34 x35 x36 n x38).view
      = .some q n.floor n.amber r.pcie r.usb r.jtag := rfl

/-- The queue stands, the rollback floor does not fall and stays within its 64 fuses, and Amber keeps its records; for `b` true, no path's role rises either. -/
inductive Calm (b : Bool) : View → View → Prop
  | refl (v : View) : Calm b v v
  | some {q : List Instr} {f g p1 p2 u1 u2 : Nat} {x y : List EvRec} {j1 j2 : Bool} (floor : f ≤ g ∧ (f ≤ 64 → g ≤ 64)) (amber : x <+: y)
      (roles : b = true → p2 ≤ p1 ∧ u2 ≤ u1 ∧ (j2 = true → j1 = true)) :
      Calm b (.some q f x p1 u1 j1) (.some q g y p2 u2 j2)

variable {b : Bool} {v w x : View} {α β : Type} {c : Prop} [Decidable c]

theorem Calm.to (h : Calm b w x) (k : Calm b v w) : Calm b v x := by
  cases h with
  | refl => exact k
  | some f m r =>
    cases k with
    | refl => exact .some f m r
    | some f' m' r' => exact .some ⟨Nat.le_trans f'.1 f.1, fun k => f.2 (f'.2 k)⟩ (m'.trans m) fun e =>
        ⟨Nat.le_trans (r e).1 (r' e).1, Nat.le_trans (r e).2.1 (r' e).2.1, fun j => (r' e).2.2 ((r e).2.2 j)⟩

theorem Calm.parts (h : Calm b v w) {q1 q2 : List Instr} {f1 f2 p1 p2 u1 u2 : Nat} {x1 x2 : List EvRec} {j1 j2 : Bool}
    (e1 : v = .some q1 f1 x1 p1 u1 j1) (e2 : w = .some q2 f2 x2 p2 u2 j2) :
    q2 = q1 ∧ (f1 ≤ f2 ∧ (f1 ≤ 64 → f2 ≤ 64)) ∧ x1 <+: x2 ∧ (b = true → p2 ≤ p1 ∧ u2 ≤ u1 ∧ (j2 = true → j1 = true)) := by
  cases h with
  | refl =>
    rw [e1] at e2
    obtain ⟨rfl, rfl, rfl, rfl, rfl, rfl⟩ := View.some.inj e2
    exact ⟨rfl, ⟨Nat.le_refl _, id⟩, List.prefix_refl _, fun _ => ⟨Nat.le_refl _, Nat.le_refl _, id⟩⟩
  | some f m r =>
    obtain ⟨rfl, rfl, rfl, rfl, rfl, rfl⟩ := View.some.inj e1
    obtain ⟨rfl, rfl, rfl, rfl, rfl, rfl⟩ := View.some.inj e2
    exact ⟨rfl, f, m, r⟩

theorem Calm.queue {s t : State} (h : Calm b s.view t.view) : t.pending = s.pending := (h.parts rfl rfl).1
theorem Calm.floor {s t : State} (h : Calm b s.view t.view) : s.nv.floor ≤ t.nv.floor ∧ (s.nv.floor ≤ 64 → t.nv.floor ≤ 64) := (h.parts rfl rfl).2.1
theorem Calm.amber {s t : State} (h : Calm b s.view t.view) : s.nv.amber <+: t.nv.amber := (h.parts rfl rfl).2.2.1
theorem Calm.roles {s t : State} (h : Calm true s.view t.view) :
    t.roles.pcie ≤ s.roles.pcie ∧ t.roles.usb ≤ s.roles.usb ∧ (t.roles.jtag = true → s.roles.jtag = true) := (h.parts rfl rfl).2.2.2 rfl

/-- The relation on the parts of two states. -/
theorem Calm.of {s t : State} (q : t.pending = s.pending)
    (f : s.nv.floor ≤ t.nv.floor ∧ (s.nv.floor ≤ 64 → t.nv.floor ≤ 64)) (m : s.nv.amber <+: t.nv.amber)
    (r : b = true → t.roles.pcie ≤ s.roles.pcie ∧ t.roles.usb ≤ s.roles.usb ∧ (t.roles.jtag = true → s.roles.jtag = true)) :
    Calm b s.view t.view := by
  simp only [State.view, q]; exact .some f m r

theorem Calm.steady {s t : State} (k : Steady s t) : Calm b s.view t.view := by
  refine .of k.pending ?_ ?_ fun _ => by rw [k.roles]; exact ⟨Nat.le_refl _, Nat.le_refl _, id⟩
  · have e : t.nv.floor = s.nv.floor := by have q := congrArg Nv.floor k.nv; exact q
    rw [e]; exact ⟨Nat.le_refl _, id⟩
  · have e : t.nv.amber = s.nv.amber := by have q := congrArg Nv.amber k.nv; exact q
    exact e ▸ List.prefix_refl _

theorem calmBack {s : State} (h : Calm b v s.view) :
    Calm b v (.some s.pending s.nv.floor s.nv.amber s.roles.pcie s.roles.usb s.roles.jtag) := h

theorem calmIte {a d : State} (ha : Calm b v a.view) (hd : Calm b v d.view) : Calm b v (if c then a else d).view := by
  split <;> assumption
theorem calmIte1 {a d : State × α} (ha : Calm b v a.1.view) (hd : Calm b v d.1.view) : Calm b v (if c then a else d).1.view := by
  split <;> assumption
theorem calmIte2 {a d : α × State} (ha : Calm b v a.2.view) (hd : Calm b v d.2.view) : Calm b v (if c then a else d).2.view := by
  split <;> assumption
theorem calmFold {s : State} {f : State → α → State} {l : List α} (h : Calm b v s.view)
    (hf : ∀ t a, Calm b (State.view t) (f t a).view) : Calm b v (l.foldl f s).view := by
  induction l generalizing s with
  | nil => exact h
  | cons a l ih => exact ih ((hf s a).to h)
theorem calmFold1 {s : State × β} {f : State × β → α → State × β} {l : List α} (h : Calm b v s.1.view)
    (hf : ∀ t a, Calm b (State.view t.1) (f t a).1.view) : Calm b v (l.foldl f s).1.view := by
  induction l generalizing s with
  | nil => exact h
  | cons a l ih => exact ih ((hf s a).to h)

/-- A result that is a next state is calm. -/
inductive Ends (b : Bool) (v : View) : Result → Prop
  | next {t : State} (h : Calm b v t.view) : Ends b v (.next t)
/-- So is every state an instruction's body answers. -/
inductive RanCalm (b : Bool) (v : View) : Ran → Prop
  | done {t : State} (h : Calm b v t.view) : RanCalm b v (.done t)
  | jump {t : State} {a : Nat} (h : Calm b v t.view) : RanCalm b v (.jump t a)
  | stay {t : State} (h : Calm b v t.view) : RanCalm b v (.stay t)
  | fault {n : Nat} : RanCalm b v (.fault n)
inductive OptCalm (b : Bool) (v : View) : Option State → Prop
  | none : OptCalm b v none
  | some {t : State} (h : Calm b v t.view) : OptCalm b v (some t)
inductive OptCalm1 (b : Bool) (v : View) : Option (State × α) → Prop
  | none : OptCalm1 b v none
  | some {t : State × α} (h : Calm b v t.1.view) : OptCalm1 b v (some t)
inductive AdmitCalm (b : Bool) (v : View) : Admit → Prop
  | granted {t : State} {r : Bool} (h : Calm b v t.view) : AdmitCalm b v (.granted t r)
  | refused : AdmitCalm b v .refused
  | held : AdmitCalm b v .held

theorem Ends.ok {t : State} (h : Calm b v t.view) : Ends b v (ok t) := .next h
theorem Ends.ite {p q : Result} (hp : Ends b v p) (hq : Ends b v q) : Ends b v (if c then p else q) := by split <;> assumption
theorem Ends.to {r : Result} (h : Ends b w r) (k : Calm b v w) : Ends b v r := by cases h with | next h => exact .next (h.to k)
theorem Ends.get {r : Result} {t : State} (h : Ends b v r) (e : r = .next t) : Calm b v t.view := by subst e; cases h; assumption
theorem RanCalm.ite {p q : Ran} (hp : RanCalm b v p) (hq : RanCalm b v q) : RanCalm b v (if c then p else q) := by split <;> assumption
theorem RanCalm.to {r : Ran} (h : RanCalm b w r) (k : Calm b v w) : RanCalm b v r := by
  cases h with
  | done h => exact .done (h.to k)
  | jump h => exact .jump (h.to k)
  | stay h => exact .stay (h.to k)
  | fault => exact .fault
theorem RanCalm.gd {r : Ran} {t : State} (h : RanCalm b v r) (e : r = .done t) : Calm b v t.view := by subst e; cases h; assumption
theorem RanCalm.gs {r : Ran} {t : State} (h : RanCalm b v r) (e : r = .stay t) : Calm b v t.view := by subst e; cases h; assumption
theorem RanCalm.gj {r : Ran} {t : State} {a : Nat} (h : RanCalm b v r) (e : r = .jump t a) : Calm b v t.view := by
  subst e; cases h; assumption
theorem OptCalm.ite {p q : Option State} (hp : OptCalm b v p) (hq : OptCalm b v q) : OptCalm b v (if c then p else q) := by
  split <;> assumption
theorem OptCalm.to {r : Option State} (h : OptCalm b w r) (k : Calm b v w) : OptCalm b v r := by
  cases h with
  | none => exact .none
  | some h => exact .some (h.to k)
theorem OptCalm.get {r : Option State} {t : State} (h : OptCalm b v r) (e : r = Option.some t) : Calm b v t.view := by
  subst e; cases h; assumption
theorem OptCalm.getD {r : Option State} {d : State} (h : OptCalm b v r) (e : Calm b v d.view) : Calm b v (r.getD d).view := by
  cases h <;> assumption
theorem OptCalm1.ite {p q : Option (State × α)} (hp : OptCalm1 b v p) (hq : OptCalm1 b v q) : OptCalm1 b v (if c then p else q) := by
  split <;> assumption
theorem OptCalm1.to {r : Option (State × α)} (h : OptCalm1 b w r) (k : Calm b v w) : OptCalm1 b v r := by
  cases h with
  | none => exact .none
  | some h => exact .some (h.to k)
theorem OptCalm1.get {r : Option (State × α)} {t : State × α} (h : OptCalm1 b v r) (e : r = Option.some t) : Calm b v t.1.view := by
  subst e; cases h; assumption
theorem AdmitCalm.ite {p q : Admit} (hp : AdmitCalm b v p) (hq : AdmitCalm b v q) : AdmitCalm b v (if c then p else q) := by
  split <;> assumption
theorem AdmitCalm.to {r : Admit} (h : AdmitCalm b w r) (k : Calm b v w) : AdmitCalm b v r := by
  cases h with
  | granted h => exact .granted (h.to k)
  | refused => exact .refused
  | held => exact .held
theorem AdmitCalm.get {r : Admit} {t : State} {d : Bool} (h : AdmitCalm b v r) (e : r = .granted t d) : Calm b v t.view := by
  subst e; cases h; assumption

end Sys2Proof.Machine
end

