-- ==== Sys2Proof/Laws/CalmCore.lean ====
section
/-! SUPPORT. `Calm` through every operation and meaning: events, power, the collapse, timers and the mailbox. -/

set_option linter.unusedVariables false

namespace Sys2Proof.Machine

variable {rl : Bool}

theorem State.emit_calm (s : State) (o : Out) : Calm rl s.view (s.emit o).view :=
  .steady (State.emit_steady _ _)

theorem State.touch_calm (s : State) (page : Nat) : Calm rl s.view (s.touch page).view :=
  .steady (State.touch_steady _ _)

theorem State.setRing_calm (s : State) (n : Nat) (r : Ring) : Calm rl s.view (s.setRing n r).view :=
  .steady (State.setRing_steady _ _ _)

theorem State.bumpPlain_calm (s : State) (i : Nat) : Calm rl s.view (s.bumpPlain i).view :=
  .steady (State.bumpPlain_steady _ _)

theorem State.raise_calm (s : State) (e : Nat) (i : Nat) : Calm rl s.view (s.raise e i).view :=
  .steady (State.raise_steady _ _ _)

theorem State.queueHook_calm (s : State) (i : Nat) : Calm rl s.view (s.queueHook i).view :=
  .steady (State.queueHook_steady _ _)

theorem State.hookTrigger_calm (s : State) (p : Bytes → Bool) : Calm rl s.view (s.hookTrigger p).view :=
  .steady (State.hookTrigger_steady _ _)

theorem State.signal_calm (s : State) (v : Nat) : Calm rl s.view (s.signal v).view :=
  .steady (State.signal_steady _ _)

theorem State.countClass_calm (s : State) (c : Nat) (i : Nat) : Calm rl s.view (s.countClass c i).view :=
  .steady (State.countClass_steady _ _ _)

theorem State.moderate_calm (s : State) (n : Nat) (c : Cpl) : Calm rl s.view (s.moderate n c).view :=
  .steady (State.moderate_steady _ _ _)

theorem State.settleRing_calm (s : State) (n : Nat) : Calm rl s.view (s.settleRing n).view :=
  .steady (State.settleRing_steady _ _)

theorem State.writeCpl_calm (s : State) (n : Nat) (c : Cpl) : Calm rl s.view (s.writeCpl n c).view :=
  .steady (State.writeCpl_steady _ _ _)

theorem State.pumpRing_calm (s : State) (n : Nat) : Calm rl s.view (s.pumpRing n).view :=
  .steady (State.pumpRing_steady _ _)

theorem State.postCpl_calm (s : State) (n : Nat) (c : Cpl) : Calm rl s.view (s.postCpl n c).view :=
  .steady (State.postCpl_steady _ _ _)

theorem State.asyncEntry_calm (s : State) (code : Nat) : Calm rl s.view (s.asyncEntry code).view :=
  .steady (State.asyncEntry_steady _ _)

theorem State.notice_calm (s : State) (code : Nat) : Calm rl s.view (s.notice code).view :=
  .steady (State.notice_steady _ _)

theorem State.record_calm (s : State) (code : Nat) (src : Nat) (p1 : Nat) (p2 : Nat) (p3 : Nat) (p4 : Nat) : Calm rl s.view (s.record code src p1 p2 p3 p4).view :=
  .steady (State.record_steady _ _ _ _ _ _ _)

theorem State.dropTrigger_calm (s : State) (i : Nat) (gap : Bool) : Calm rl s.view (s.dropTrigger i gap).view :=
  .steady (State.dropTrigger_steady _ _ _)

theorem State.queueFiring_calm (s : State) (i : Nat) (kind : Nat) (t0 : Nat) (t0Field : Nat) (depth : Nat) : Calm rl s.view (s.queueFiring i kind t0 t0Field depth).view :=
  .steady (State.queueFiring_steady _ _ _ _ _ _)

theorem State.triggerAll_calm (s : State) (kind : Nat) (p : Cairn → Bool) : Calm rl s.view (s.triggerAll kind p).view :=
  .steady (State.triggerAll_steady _ _ _)

theorem State.countCairns_calm (s : State) (i : Nat) : Calm rl s.view (s.countCairns i).view :=
  .steady (State.countCairns_steady _ _)

theorem State.bump_calm (s : State) (i : Nat) : Calm rl s.view (s.bump i).view :=
  .steady (State.bump_steady _ _)

theorem State.late_calm (s : State) : Calm rl s.view (s.late).view :=
  .steady (State.late_steady _)

theorem State.ignoredWrite_calm (s : State) : Calm rl s.view (s.ignoredWrite).view :=
  .steady (State.ignoredWrite_steady _)

theorem State.dropValue_calm (s : State) (src : Nat) (p1 : Nat) : Calm rl s.view (s.dropValue src p1).view :=
  .steady (State.dropValue_steady _ _ _)

theorem State.setCairn_calm (s : State) (c : Nat) (x : Cairn) : Calm rl s.view (s.setCairn c x).view :=
  .steady (State.setCairn_steady _ _ _)

theorem State.setF_calm (s : State) (f : Field) (v : Nat) :
    Calm rl s.view (State.setF s f v).view := by
  unfold State.setF
  (try dsimp only) <;> intros <;> with_reducible
      (repeat' first
          | exact .refl _ | assumption | apply calmBack | dsimp only [viewMk] | apply calmIte | rfl | intro _ | split)

theorem State.countF_calm (s : State) (f : Field) (n : Nat) :
    Calm rl s.view (State.countF s f n).view := by
  unfold State.countF
  (try dsimp only) <;> intros <;> with_reducible
      (repeat' first
          | exact .refl _ | assumption | apply calmBack | dsimp only [viewMk] | refine (State.setF_calm _ _ _).to ?_ | apply calmIte
          | rfl | intro _ | split)

theorem State.stage_calm (s : State) (code : Nat) (src : Nat) (p1 : Nat) (p2 : Nat) (p3 : Nat) (p4 : Nat) :
    Calm rl s.view (State.stage s code src p1 p2 p3 p4).view := by
  unfold State.stage
  (try dsimp only) <;> intros <;> with_reducible
      (repeat' first
          | exact .refl _ | assumption | apply calmBack | dsimp only [viewMk] | apply calmIte | apply calmIte1 | rfl | intro _
          | split)

theorem State.keep_calm (s : State) (code : Nat) (src : Nat) (p1 : Nat) (p2 : Nat) (p3 : Nat) (p4 : Nat) :
    Calm rl s.view (State.keep s code src p1 p2 p3 p4).1.view := by
  unfold State.keep
  (try dsimp only) <;> intros <;> with_reducible
      (repeat' first
          | exact .refl _ | assumption | apply calmBack | dsimp only [viewMk] | refine (State.bumpPlain_calm _ _).to ?_
          | refine (State.stage_calm _ _ _ _ _ _ _).to ?_ | apply calmIte | apply calmIte1 | rfl | intro _ | split)

theorem State.recordCore_calm (s : State) (code : Nat) (src : Nat) (p1 : Nat) (p2 : Nat) (p3 : Nat) (p4 : Nat) :
    Calm rl s.view (State.recordCore s code src p1 p2 p3 p4).1.view := by
  unfold State.recordCore
  (try dsimp only) <;> intros <;> with_reducible
      (repeat' first
          | exact .refl _ | assumption | apply calmBack | dsimp only [viewMk] | refine (State.bumpPlain_calm _ _).to ?_
          | refine (State.countF_calm _ _ _).to ?_ | refine (State.keep_calm _ _ _ _ _ _ _).to ?_ | apply calmIte | apply calmIte1
          | rfl | intro _ | split)

theorem State.setChan_calm (s : State) (n : Nat) (c : Chan) :
    Calm rl s.view (State.setChan s n c).view := by
  unfold State.setChan
  (try dsimp only) <;> intros <;> with_reducible
      (repeat' first
          | exact .refl _ | assumption | apply calmBack | dsimp only [viewMk] | apply calmIte | rfl | intro _ | split)

theorem State.setEngine_calm (s : State) (e : Nat) (x : Engine) :
    Calm rl s.view (State.setEngine s e x).view := by
  unfold State.setEngine
  (try dsimp only) <;> intros <;> with_reducible
      (repeat' first
          | exact .refl _ | assumption | apply calmBack | dsimp only [viewMk] | apply calmIte | rfl | intro _ | split)

theorem State.setVol_calm (s : State) (v : Nat) (x : Vol) :
    Calm rl s.view (State.setVol s v x).view := by
  unfold State.setVol
  (try dsimp only) <;> intros <;> with_reducible
      (repeat' first
          | exact .refl _ | assumption | apply calmBack | dsimp only [viewMk] | apply calmIte | rfl | intro _ | split)

theorem State.raiseVein_calm (s : State) (set : Nat) (i : Nat) :
    Calm rl s.view (State.raiseVein s set i).view := by
  unfold State.raiseVein
  (try dsimp only) <;> intros <;> with_reducible
      (repeat' first
          | exact .refl _ | assumption | apply calmBack | dsimp only [viewMk] | refine (State.raise_calm _ _ _).to ?_
          | apply calmIte | apply calmFold | apply calmFold1 | rfl | intro _ | split)

theorem State.flushCpls_calm (s : State) (n : Nat) :
    ∀ k0, Calm rl s.view (State.flushCpls s n k0).view := by
  intro k0
  induction k0 generalizing s n with
  | zero => unfold State.flushCpls; (try dsimp only) <;> intros <;> with_reducible
      (repeat' first
          | exact .refl _ | assumption | apply calmBack | dsimp only [viewMk] | refine (State.bumpPlain_calm _ _).to ?_
          | refine (State.setRing_calm _ _ _).to ?_ | refine (State.writeCpl_calm _ _ _).to ?_ | apply calmIte | rfl | intro _
          | split)
  | succ k0 ih => unfold State.flushCpls; (try dsimp only) <;> intros <;> with_reducible
      (repeat' first
          | exact .refl _ | assumption | apply calmBack | dsimp only [viewMk] | refine (State.bumpPlain_calm _ _).to ?_
          | refine (State.setRing_calm _ _ _).to ?_ | refine (State.writeCpl_calm _ _ _).to ?_ | refine (ih _ _).to ?_
          | apply calmIte | rfl | intro _ | split)

theorem State.fireCairn_calm (s : State) (i : Nat) (kind : Nat) (t0 : Nat) (t0Field : Nat) (depth : Nat) :
    Calm rl s.view (State.fireCairn s i kind t0 t0Field depth).1.view := by
  unfold State.fireCairn
  (try dsimp only) <;> intros <;> with_reducible
      (repeat' first
          | exact .refl _ | assumption | apply calmBack | dsimp only [viewMk] | refine (State.dropTrigger_calm _ _ _).to ?_
          | refine (State.queueFiring_calm _ _ _ _ _ _).to ?_ | apply calmIte | apply calmIte1 | rfl | intro _ | split)

theorem State.trigger_calm (s : State) (i : Nat) (kind : Nat) :
    Calm rl s.view (State.trigger s i kind).1.view := by
  unfold State.trigger
  (try dsimp only) <;> intros <;> with_reducible
      (repeat' first
          | exact .refl _ | assumption | apply calmBack | dsimp only [viewMk] | refine (State.fireCairn_calm _ _ _ _ _ _).to ?_
          | apply calmIte | apply calmIte1 | rfl | intro _ | split)

theorem State.countTrial_calm (s : State) (was : Bool) :
    Calm rl s.view (State.countTrial s was).view := by
  unfold State.countTrial
  (try dsimp only) <;> intros <;> with_reducible
      (repeat' first
          | exact .refl _ | assumption | apply calmBack | dsimp only [viewMk] | apply calmIte | rfl | intro _ | split)

theorem State.setDev_calm (s : State) (d : Dev) :
    Calm rl s.view (State.setDev s d).view := by
  unfold State.setDev
  (try dsimp only) <;> intros <;> with_reducible
      (repeat' first
          | exact .refl _ | assumption | apply calmBack | dsimp only [viewMk] | refine (State.countTrial_calm _ _).to ?_
          | refine (State.record_calm _ _ _ _ _ _ _).to ?_ | apply calmIte | rfl | intro _ | split)

theorem State.asWrite_calm (s : State) (f : State → State) (hf : ∀ s, Calm rl (State.view s) (f s).view) :
    Ends rl s.view (State.asWrite s f) := by
  unfold State.asWrite
  (try dsimp only) <;> intros <;> with_reducible
      (repeat' first
          | exact .refl _ | assumption | apply calmBack | dsimp only [viewMk] | refine (State.ignoredWrite_calm _).to ?_
          | refine (hf _).to ?_ | apply calmIte | apply Ends.ok | apply Ends.next | apply Ends.ite | rfl | intro _ | split)

theorem State.notePeak_calm (s : State) :
    Calm rl s.view (State.notePeak s).view := by
  unfold State.notePeak
  (try dsimp only) <;> intros <;> with_reducible
      (repeat' first
          | exact .refl _ | assumption | apply calmBack | dsimp only [viewMk] | apply calmIte | rfl | intro _ | split)

theorem State.regrade_calm (s : State) :
    Calm rl s.view (State.regrade s).view := by
  unfold State.regrade
  (try dsimp only) <;> intros <;> with_reducible
      (repeat' first
          | exact .refl _ | assumption | apply calmBack | dsimp only [viewMk] | refine (State.setDev_calm _ _).to ?_ | apply calmIte
          | rfl | intro _ | split)

theorem State.cutReserve_calm (s : State) :
    Calm rl s.view (State.cutReserve s).view := by
  unfold State.cutReserve
  (try dsimp only) <;> intros <;> with_reducible
      (repeat' first
          | exact .refl _ | assumption | apply calmBack | dsimp only [viewMk] | refine (State.record_calm _ _ _ _ _ _ _).to ?_
          | refine (State.setF_calm _ _ _).to ?_ | apply calmIte | rfl | intro _ | split)

theorem State.settleLedger_calm (s : State) (wasClosed : Bool) :
    Calm rl s.view (State.settleLedger s wasClosed).view := by
  unfold State.settleLedger
  (try dsimp only) <;> intros <;> with_reducible
      (repeat' first
          | exact .refl _ | assumption | apply calmBack | dsimp only [viewMk] | refine (State.cutReserve_calm _).to ?_
          | refine (State.notePeak_calm _).to ?_ | refine (State.record_calm _ _ _ _ _ _ _).to ?_
          | refine (State.regrade_calm _).to ?_ | apply calmIte | rfl | intro _ | split)

theorem State.relimit_calm (s : State) :
    Calm rl s.view (State.relimit s).view := by
  unfold State.relimit
  (try dsimp only) <;> intros <;> with_reducible
      (repeat' first
          | exact .refl _ | assumption | apply calmBack | dsimp only [viewMk] | refine (State.settleLedger_calm _ _).to ?_
          | apply calmIte | rfl | intro _ | split)

theorem State.takeGeneral_calm (s : State) (k : Nat) :
    Calm rl s.view (State.takeGeneral s k).view := by
  unfold State.takeGeneral
  (try dsimp only) <;> intros <;> with_reducible
      (repeat' first
          | exact .refl _ | assumption | apply calmBack | dsimp only [viewMk] | refine (State.notePeak_calm _).to ?_ | apply calmIte
          | rfl | intro _ | split)

theorem State.takeReserve_calm (s : State) (k : Nat) :
    Calm rl s.view (State.takeReserve s k).view := by
  unfold State.takeReserve
  (try dsimp only) <;> intros <;> with_reducible
      (repeat' first
          | exact .refl _ | assumption | apply calmBack | dsimp only [viewMk] | apply calmIte | rfl | intro _ | split)

theorem State.giveBack_calm (s : State) (k : Nat) (pool : Nat) (fromReserve : Bool) :
    Calm rl s.view (State.giveBack s k pool fromReserve).view := by
  unfold State.giveBack
  (try dsimp only) <;> intros <;> with_reducible
      (repeat' first
          | exact .refl _ | assumption | apply calmBack | dsimp only [viewMk] | apply calmIte | apply calmIte1 | rfl | intro _
          | split)

theorem State.noteStart_calm (s : State) :
    Calm rl s.view (State.noteStart s).view := by
  unfold State.noteStart
  (try dsimp only) <;> intros <;> with_reducible
      (repeat' first
          | exact .refl _ | assumption | apply calmBack | dsimp only [viewMk] | refine (State.touch_calm _ _).to ?_ | apply calmIte
          | rfl | intro _ | split)

theorem State.countWindow_calm (s : State) (pace : Nat) :
    Calm rl s.view (State.countWindow s pace).view := by
  unfold State.countWindow
  (try dsimp only) <;> intros <;> with_reducible
      (repeat' first
          | exact .refl _ | assumption | apply calmBack | dsimp only [viewMk] | refine (State.setF_calm _ _ _).to ?_ | apply calmIte
          | rfl | intro _ | split)

theorem State.paceAct_calm (s : State) (row : Nat) :
    Calm rl s.view (State.paceAct s row).view := by
  unfold State.paceAct
  (try dsimp only) <;> intros <;> with_reducible
      (repeat' first
          | exact .refl _ | assumption | apply calmBack | dsimp only [viewMk] | refine (State.bump_calm _ _).to ?_
          | refine (State.emit_calm _ _).to ?_ | refine (State.record_calm _ _ _ _ _ _ _).to ?_
          | refine (State.regrade_calm _).to ?_ | refine (State.setF_calm _ _ _).to ?_ | apply calmIte | rfl | intro _ | split)

theorem execPaceWindowEnd_calm (s : State) (pace : BitVec 16) :
    Ends rl s.view (execPaceWindowEnd pace s) := by
  unfold execPaceWindowEnd
  (try dsimp only) <;> intros <;> with_reducible
      (repeat' first
          | exact .refl _ | assumption | apply calmBack | dsimp only [viewMk] | refine (State.countWindow_calm _ _).to ?_
          | refine (State.paceAct_calm _ _).to ?_ | apply calmIte | apply Ends.ok | apply Ends.next | apply Ends.ite | rfl | intro _
          | split)

theorem execVcoreStepAck_calm (s : State) (code : Fin 31) :
    Ends rl s.view (execVcoreStepAck code s) := by
  unfold execVcoreStepAck
  (try dsimp only) <;> intros <;> with_reducible
      (repeat' first
          | exact .refl _ | assumption | apply calmBack | dsimp only [viewMk] | refine (State.setF_calm _ _ _).to ?_ | apply calmIte
          | apply Ends.ok | apply Ends.next | apply Ends.ite | rfl | intro _ | split)

theorem State.crystalLost_calm (s : State) :
    Calm rl s.view (State.crystalLost s).view := by
  unfold State.crystalLost
  (try dsimp only) <;> intros <;> with_reducible
      (repeat' first
          | exact .refl _ | assumption | apply calmBack | dsimp only [viewMk] | refine (State.bump_calm _ _).to ?_
          | refine (State.record_calm _ _ _ _ _ _ _).to ?_ | refine (State.regrade_calm _).to ?_ | apply calmIte | rfl | intro _
          | split)

theorem execCrystalLost_calm (s : State) :
    Ends rl s.view (execCrystalLost s) := by
  unfold execCrystalLost
  (try dsimp only) <;> intros <;> with_reducible
      (repeat' first
          | exact .refl _ | assumption | apply calmBack | dsimp only [viewMk] | refine (State.crystalLost_calm _).to ?_
          | apply calmIte | apply Ends.ok | apply Ends.next | apply Ends.ite | rfl | intro _ | split)

theorem execNoCrystalTimeout_calm (s : State) :
    Ends rl s.view (execNoCrystalTimeout s) := by
  unfold execNoCrystalTimeout
  (try dsimp only) <;> intros <;> with_reducible
      (repeat' first
          | exact .refl _ | assumption | apply calmBack | dsimp only [viewMk] | refine (State.record_calm _ _ _ _ _ _ _).to ?_
          | apply calmIte | apply Ends.ok | apply Ends.next | apply Ends.ite | rfl | intro _ | split)

theorem State.noteVin_calm (s : State) (vin : Nat) (vres : Nat) :
    Calm rl s.view (State.noteVin s vin vres).view := by
  unfold State.noteVin
  (try dsimp only) <;> intros <;> with_reducible
      (repeat' first
          | exact .refl _ | assumption | apply calmBack | dsimp only [viewMk] | refine (State.setF_calm _ _ _).to ?_ | apply calmIte
          | rfl | intro _ | split)

theorem execChargerModeChange_calm (s : State) (vin : BitVec 16) :
    Ends rl s.view (execChargerModeChange vin s) := by
  unfold execChargerModeChange
  (try dsimp only) <;> intros <;> with_reducible
      (repeat' first
          | exact .refl _ | assumption | apply calmBack | dsimp only [viewMk] | refine (State.noteVin_calm _ _ _).to ?_
          | apply calmIte | apply Ends.ok | apply Ends.next | apply Ends.ite | rfl | intro _ | split)

theorem execVinOvervoltage_calm (s : State) (peakMv : BitVec 32) (durationUs : BitVec 32) :
    Ends rl s.view (execVinOvervoltage peakMv durationUs s) := by
  unfold execVinOvervoltage
  (try dsimp only) <;> intros <;> with_reducible
      (repeat' first
          | exact .refl _ | assumption | apply calmBack | dsimp only [viewMk] | refine (State.record_calm _ _ _ _ _ _ _).to ?_
          | apply calmIte | apply Ends.ok | apply Ends.next | apply Ends.ite | rfl | intro _ | split)

theorem State.addMeas_calm (s : State) (r : Bytes) :
    Calm rl s.view (State.addMeas s r).view := by
  unfold State.addMeas
  (try dsimp only) <;> intros <;> with_reducible
      (repeat' first
          | exact .refl _ | assumption | apply calmBack | dsimp only [viewMk] | refine (State.touch_calm _ _).to ?_ | apply calmIte
          | rfl | intro _ | split)

theorem State.askMeasure_calm (s : State) :
    Calm rl s.view (State.askMeasure s).view := by
  unfold State.askMeasure
  (try dsimp only) <;> intros <;> with_reducible
      (repeat' first
          | exact .refl _ | assumption | apply calmBack | dsimp only [viewMk] | apply calmIte | rfl | intro _ | split)

theorem execMeasurementDue_calm (s : State) :
    Ends rl s.view (execMeasurementDue s) := by
  unfold execMeasurementDue
  (try dsimp only) <;> intros <;> with_reducible
      (repeat' first
          | exact .refl _ | assumption | apply calmBack | dsimp only [viewMk] | refine (State.askMeasure_calm _).to ?_
          | apply calmIte | apply Ends.ok | apply Ends.next | apply Ends.ite | rfl | intro _ | split)

theorem State.measureNow_calm (s : State) :
    Calm rl s.view (State.measureNow s).view := by
  unfold State.measureNow
  (try dsimp only) <;> intros <;> with_reducible
      (repeat' first
          | exact .refl _ | assumption | apply calmBack | dsimp only [viewMk] | refine (State.askMeasure_calm _).to ?_
          | apply calmIte | rfl | intro _ | split)

theorem execPwrMeasNow_calm (s : State) :
    Ends rl s.view (execPwrMeasNow s) := by
  unfold execPwrMeasNow
  (try dsimp only) <;> intros <;> with_reducible
      (repeat' first
          | exact .refl _ | assumption | apply calmBack | dsimp only [viewMk] | refine (State.asWrite_calm _ _ ?_).to ?_
          | refine ((State.asWrite_calm _ _ ?_).get (by assumption)).to ?_ | refine (State.measureNow_calm _).to ?_ | apply calmIte
          | apply Ends.ok | apply Ends.next | apply Ends.ite | rfl | intro _ | split)

theorem State.stageVres_calm (s : State) (value : Nat) :
    Calm rl s.view (State.stageVres s value).view := by
  unfold State.stageVres
  (try dsimp only) <;> intros <;> with_reducible
      (repeat' first
          | exact .refl _ | assumption | apply calmBack | dsimp only [viewMk] | refine (State.askMeasure_calm _).to ?_
          | refine (State.dropValue_calm _ _ _).to ?_ | refine (State.relimit_calm _).to ?_ | apply calmIte | rfl | intro _ | split)

theorem execMeasurementBegin_calm (s : State) :
    Ends rl s.view (execMeasurementBegin s) := by
  unfold execMeasurementBegin
  (try dsimp only) <;> intros <;> with_reducible
      (repeat' first
          | exact .refl _ | assumption | apply calmBack | dsimp only [viewMk] | refine (State.setF_calm _ _ _).to ?_
          | refine (State.settleLedger_calm _ _).to ?_ | apply calmIte | apply Ends.ok | apply Ends.next | apply Ends.ite | rfl
          | intro _ | split)

theorem execDipBasisReached_calm (s : State) :
    Ends rl s.view (execDipBasisReached s) := by
  unfold execDipBasisReached
  (try dsimp only) <;> intros <;> with_reducible
      (repeat' first
          | exact .refl _ | assumption | apply calmBack | dsimp only [viewMk] | apply calmIte | apply Ends.ok | apply Ends.next
          | apply Ends.ite | apply RanCalm.done | apply RanCalm.jump | apply RanCalm.stay | apply RanCalm.fault | apply RanCalm.ite
          | rfl | intro _ | split)

theorem execMeasurementAbandoned_calm (s : State) :
    Ends rl s.view (execMeasurementAbandoned s) := by
  unfold execMeasurementAbandoned
  (try dsimp only) <;> intros <;> with_reducible
      (repeat' first
          | exact .refl _ | assumption | apply calmBack | dsimp only [viewMk] | refine (State.addMeas_calm _ _).to ?_
          | refine (State.bump_calm _ _).to ?_ | refine (State.record_calm _ _ _ _ _ _ _).to ?_
          | refine (State.settleLedger_calm _ _).to ?_ | apply calmIte | apply Ends.ok | apply Ends.next | apply Ends.ite | rfl
          | intro _ | split)

theorem State.measureFails_calm (s : State) :
    Calm rl s.view (State.measureFails s).view := by
  unfold State.measureFails
  (try dsimp only) <;> intros <;> with_reducible
      (repeat' first
          | exact .refl _ | assumption | apply calmBack | dsimp only [viewMk] | refine (State.addMeas_calm _ _).to ?_
          | refine (State.bump_calm _ _).to ?_ | refine (State.record_calm _ _ _ _ _ _ _).to ?_
          | refine (State.regrade_calm _).to ?_ | apply calmIte | rfl | intro _ | split)

theorem State.measured_calm (s : State) (c : Nat) (esr : Nat) :
    Calm rl s.view (State.measured s c esr).view := by
  unfold State.measured
  (try dsimp only) <;> intros <;> with_reducible
      (repeat' first
          | exact .refl _ | assumption | apply calmBack | dsimp only [viewMk] | refine (State.addMeas_calm _ _).to ?_
          | refine (State.record_calm _ _ _ _ _ _ _).to ?_ | refine (State.settleLedger_calm _ _).to ?_ | apply calmIte
          | apply RanCalm.done | apply RanCalm.jump | apply RanCalm.stay | apply RanCalm.fault | apply RanCalm.ite | rfl | intro _
          | split)

theorem execReservoirFallTimed_calm (s : State) (ticks : BitVec 32) (esr : BitVec 16) :
    Ends rl s.view (execReservoirFallTimed ticks esr s) := by
  unfold execReservoirFallTimed
  (try dsimp only) <;> intros <;> with_reducible
      (repeat' first
          | exact .refl _ | assumption | apply calmBack | dsimp only [viewMk] | refine (State.measureFails_calm _).to ?_
          | refine (State.measured_calm _ _ _).to ?_ | apply calmIte | apply Ends.ok | apply Ends.next | apply Ends.ite | rfl
          | intro _ | split)

theorem execReservoirChargeTimeout_calm (s : State) :
    Ends rl s.view (execReservoirChargeTimeout s) := by
  unfold execReservoirChargeTimeout
  (try dsimp only) <;> intros <;> with_reducible
      (repeat' first
          | exact .refl _ | assumption | apply calmBack | dsimp only [viewMk] | refine (State.measureFails_calm _).to ?_
          | apply calmIte | apply Ends.ok | apply Ends.next | apply Ends.ite | rfl | intro _ | split)

theorem execVresSample_calm (s : State) (vres : BitVec 16) (vin : BitVec 16) :
    Ends rl s.view (execVresSample vres vin s) := by
  unfold execVresSample
  (try dsimp only) <;> intros <;> with_reducible
      (repeat' first
          | exact .refl _ | assumption | apply calmBack | dsimp only [viewMk] | refine (State.noteVin_calm _ _ _).to ?_
          | refine (State.relimit_calm _).to ?_ | apply calmIte | apply Ends.ok | apply Ends.next | apply Ends.ite | rfl | intro _
          | split)

theorem execVresLow_calm (s : State) :
    Ends rl s.view (execVresLow s) := by
  unfold execVresLow
  (try dsimp only) <;> intros <;> with_reducible
      (repeat' first
          | exact .refl _ | assumption | apply calmBack | dsimp only [viewMk] | refine (State.record_calm _ _ _ _ _ _ _).to ?_
          | apply calmIte | apply Ends.ok | apply Ends.next | apply Ends.ite | rfl | intro _ | split)

theorem State.abandonHook_calm (s : State) :
    Calm rl s.view (State.abandonHook s).view := by
  unfold State.abandonHook
  (try dsimp only) <;> intros <;> with_reducible
      (repeat' first
          | exact .refl _ | assumption | apply calmBack | dsimp only [viewMk] | refine (State.bump_calm _ _).to ?_
          | refine (State.record_calm _ _ _ _ _ _ _).to ?_ | refine (State.setEngine_calm _ _ _).to ?_
          | refine (State.setF_calm _ _ _).to ?_ | apply calmIte | rfl | intro _ | split)

theorem State.dropMoving_calm (s : State) (c : Cmd) :
    Calm rl s.view (State.dropMoving s c).view := by
  unfold State.dropMoving
  (try dsimp only) <;> intros <;> with_reducible
      (repeat' first
          | exact .refl _ | assumption | apply calmBack | dsimp only [viewMk] | refine (State.giveBack_calm _ _ _ _).to ?_
          | refine (State.stage_calm _ _ _ _ _ _ _).to ?_ | apply calmIte | rfl | intro _ | split)

theorem State.setConn_calm (s : State) (c : Nat) (x : Conn) :
    Calm rl s.view (State.setConn s c x).view := by
  unfold State.setConn
  (try dsimp only) <;> intros <;> with_reducible
      (repeat' first
          | exact .refl _ | assumption | apply calmBack | dsimp only [viewMk] | apply calmIte | rfl | intro _ | split)

theorem State.dropIn_calm (s : State) (c : Nat) :
    Calm rl s.view (State.dropIn s c).view := by
  unfold State.dropIn
  (try dsimp only) <;> intros <;> with_reducible
      (repeat' first
          | exact .refl _ | assumption | apply calmBack | dsimp only [viewMk] | refine (State.giveBack_calm _ _ _ _).to ?_
          | refine (State.setConn_calm _ _ _).to ?_ | apply calmIte | rfl | intro _ | split)

theorem State.endSelfRecord_calm (s : State) (t : SelfTest) (result : Nat) (failing : Nat) (detail : Nat) :
    Calm rl s.view (State.endSelfRecord s t result failing detail).view := by
  unfold State.endSelfRecord
  (try dsimp only) <;> intros <;> with_reducible
      (repeat' first
          | exact .refl _ | assumption | apply calmBack | dsimp only [viewMk] | refine (State.touch_calm _ _).to ?_ | apply calmIte
          | rfl | intro _ | split)

theorem State.freezeCairns_calm (s : State) :
    Calm rl s.view (State.freezeCairns s).view := by
  unfold State.freezeCairns
  (try dsimp only) <;> intros <;> with_reducible
      (repeat' first
          | exact .refl _ | assumption | apply calmBack | dsimp only [viewMk] | refine (State.setCairn_calm _ _ _).to ?_
          | apply calmIte | apply calmIte1 | apply calmFold | apply calmFold1 | rfl | intro _ | split)

theorem State.setLun_calm (s : State) (n : Nat) (l : Lun) :
    Calm rl s.view (State.setLun s n l).view := by
  unfold State.setLun
  (try dsimp only) <;> intros <;> with_reducible
      (repeat' first
          | exact .refl _ | assumption | apply calmBack | dsimp only [viewMk] | apply calmIte | rfl | intro _ | split)

theorem State.setBlock_calm (s : State) (n : Nat) (b : Nat) (x : FBlock) :
    Calm rl s.view (State.setBlock s n b x).view := by
  unfold State.setBlock
  (try dsimp only) <;> intros <;> with_reducible
      (repeat' first
          | exact .refl _ | assumption | apply calmBack | dsimp only [viewMk] | refine (State.setLun_calm _ _ _).to ?_
          | apply calmIte | rfl | intro _ | split)

theorem State.setFchan_calm (s : State) (n : Nat) (c : FChan) :
    Calm rl s.view (State.setFchan s n c).view := by
  unfold State.setFchan
  (try dsimp only) <;> intros <;> with_reducible
      (repeat' first
          | exact .refl _ | assumption | apply calmBack | dsimp only [viewMk] | apply calmIte | rfl | intro _ | split)

theorem State.freezeFlash_calm (s : State) :
    Calm rl s.view (State.freezeFlash s).view := by
  unfold State.freezeFlash
  (try dsimp only) <;> intros <;> with_reducible
      (repeat' first
          | exact .refl _ | assumption | apply calmBack | dsimp only [viewMk] | refine (State.setBlock_calm _ _ _ _).to ?_
          | refine (State.setFchan_calm _ _ _).to ?_ | apply calmIte | apply calmFold | apply calmFold1 | rfl | intro _ | split)

theorem State.freezeBlocks_calm (s : State) :
    Calm rl s.view (State.freezeBlocks s).view := by
  unfold State.freezeBlocks
  (try dsimp only) <;> intros <;> with_reducible
      (repeat' first
          | exact .refl _ | assumption | apply calmBack | dsimp only [viewMk] | refine (State.abandonHook_calm _).to ?_
          | refine (State.dropIn_calm _ _).to ?_ | refine (State.dropMoving_calm _ _).to ?_
          | refine (State.endSelfRecord_calm _ _ _ _ _).to ?_ | refine (State.freezeCairns_calm _).to ?_
          | refine (State.freezeFlash_calm _).to ?_ | refine (State.raiseVein_calm _ _ _).to ?_
          | refine (State.record_calm _ _ _ _ _ _ _).to ?_ | apply calmIte | apply calmIte1 | apply calmFold | apply calmFold1 | rfl
          | intro _ | split)

theorem State.turnToSafe_calm (s : State) (cause : FreezeCause) :
    Calm rl s.view (State.turnToSafe s cause).view := by
  unfold State.turnToSafe
  (try dsimp only) <;> intros <;> with_reducible
      (repeat' first
          | exact .refl _ | assumption | apply calmBack | dsimp only [viewMk] | apply calmIte | rfl | intro _ | split)

theorem State.freezeNow_calm (s : State) (cause : FreezeCause) (warm : Bool) :
    Calm rl s.view (State.freezeNow s cause warm).view := by
  unfold State.freezeNow
  (try dsimp only) <;> intros <;> with_reducible
      (repeat' first
          | exact .refl _ | assumption | apply calmBack | dsimp only [viewMk] | refine (State.freezeBlocks_calm _).to ?_
          | refine (State.setDev_calm _ _).to ?_ | refine (State.turnToSafe_calm _ _).to ?_ | apply calmIte | rfl | intro _ | split)

theorem execSupplyCollapse_calm (s : State) (vin : BitVec 16) :
    Ends rl s.view (execSupplyCollapse vin s) := by
  unfold execSupplyCollapse
  (try dsimp only) <;> intros <;> with_reducible
      (repeat' first
          | exact .refl _ | assumption | apply calmBack | dsimp only [viewMk] | refine (State.freezeNow_calm _ _ _).to ?_
          | refine (State.noteVin_calm _ _ _).to ?_ | apply calmIte | apply Ends.ok | apply Ends.next | apply Ends.ite | rfl
          | intro _ | split)

theorem State.enterPreFreeze_calm (s : State) (ch : PfwCh) :
    Calm rl s.view (State.enterPreFreeze s ch).view := by
  unfold State.enterPreFreeze
  (try dsimp only) <;> intros <;> with_reducible
      (repeat' first
          | exact .refl _ | assumption | apply calmBack | dsimp only [viewMk] | refine (State.setDev_calm _ _).to ?_
          | refine (State.triggerAll_calm _ _ _).to ?_ | apply calmIte | rfl | intro _ | split)

theorem State.leavePreFreeze_calm (s : State) (p : PfwState) :
    Calm rl s.view (State.leavePreFreeze s p).view := by
  unfold State.leavePreFreeze
  (try dsimp only) <;> intros <;> with_reducible
      (repeat' first
          | exact .refl _ | assumption | apply calmBack | dsimp only [viewMk] | refine (State.setDev_calm _ _).to ?_ | apply calmIte
          | rfl | intro _ | split)

theorem State.confirmPfw_calm (s : State) :
    Calm rl s.view (State.confirmPfw s).view := by
  unfold State.confirmPfw
  (try dsimp only) <;> intros <;> with_reducible
      (repeat' first
          | exact .refl _ | assumption | apply calmBack | dsimp only [viewMk] | refine (State.freezeNow_calm _ _ _).to ?_
          | refine (State.record_calm _ _ _ _ _ _ _).to ?_ | apply calmIte | rfl | intro _ | split)

theorem State.settlePfw_calm (s : State) (ch : PfwCh) :
    Calm rl s.view (State.settlePfw s ch).view := by
  unfold State.settlePfw
  (try dsimp only) <;> intros <;> with_reducible
      (repeat' first
          | exact .refl _ | assumption | apply calmBack | dsimp only [viewMk] | refine (State.bump_calm _ _).to ?_
          | refine (State.confirmPfw_calm _).to ?_ | refine (State.enterPreFreeze_calm _ _).to ?_
          | refine (State.leavePreFreeze_calm _ _).to ?_ | refine (State.record_calm _ _ _ _ _ _ _).to ?_ | apply calmIte | rfl
          | intro _ | split)

theorem State.pfwBoundary_calm (s : State) :
    Calm rl s.view (State.pfwBoundary s).view := by
  unfold State.pfwBoundary
  (try dsimp only) <;> intros <;> with_reducible
      (repeat' first
          | exact .refl _ | assumption | apply calmBack | dsimp only [viewMk] | refine (State.setF_calm _ _ _).to ?_ | apply calmIte
          | rfl | intro _ | split)

theorem State.pfwMoved_calm (s : State) (ch : PfwCh) :
    Calm rl s.view (State.pfwMoved s ch).view := by
  unfold State.pfwMoved
  (try dsimp only) <;> intros <;> with_reducible
      (repeat' first
          | exact .refl _ | assumption | apply calmBack | dsimp only [viewMk] | refine (State.pfwBoundary_calm _).to ?_
          | refine (State.settlePfw_calm _ _).to ?_ | apply calmIte | rfl | intro _ | split)

theorem execPfwChannelChange_calm (s : State) (ch : PfwCh) (on : Bool) :
    Ends rl s.view (execPfwChannelChange ch on s) := by
  unfold execPfwChannelChange
  (try dsimp only) <;> intros <;> with_reducible
      (repeat' first
          | exact .refl _ | assumption | apply calmBack | dsimp only [viewMk] | refine (State.pfwMoved_calm _ _).to ?_
          | apply calmIte | apply Ends.ok | apply Ends.next | apply Ends.ite | rfl | intro _ | split)

theorem execPfwDiscrepancyExpiry_calm (s : State) :
    Ends rl s.view (execPfwDiscrepancyExpiry s) := by
  unfold execPfwDiscrepancyExpiry
  (try dsimp only) <;> intros <;> with_reducible
      (repeat' first
          | exact .refl _ | assumption | apply calmBack | dsimp only [viewMk] | refine (State.bump_calm _ _).to ?_
          | refine (State.leavePreFreeze_calm _ _).to ?_ | refine (State.record_calm _ _ _ _ _ _ _).to ?_
          | refine (State.setF_calm _ _ _).to ?_ | apply calmIte | apply Ends.ok | apply Ends.next | apply Ends.ite | rfl | intro _
          | split)

theorem execPfwRearm_calm (s : State) :
    Ends rl s.view (execPfwRearm s) := by
  unfold execPfwRearm
  (try dsimp only) <;> intros <;> with_reducible
      (repeat' first
          | exact .refl _ | assumption | apply calmBack | dsimp only [viewMk] | refine (State.pfwMoved_calm _ _).to ?_
          | refine (State.record_calm _ _ _ _ _ _ _).to ?_ | apply calmIte | apply Ends.ok | apply Ends.next | apply Ends.ite | rfl
          | intro _ | split)

theorem State.releaseDurable_calm (s : State) :
    Calm rl s.view (State.releaseDurable s).view := by
  unfold State.releaseDurable
  (try dsimp only) <;> intros <;> with_reducible
      (repeat' first
          | exact .refl _ | assumption | apply calmBack | dsimp only [viewMk] | refine (State.giveBack_calm _ _ _ _).to ?_
          | apply calmIte | apply calmFold | apply calmFold1 | rfl | intro _ | split)

theorem State.journalVerified_calm (s : State) :
    Calm rl s.view (State.journalVerified s).view := by
  unfold State.journalVerified
  (try dsimp only) <;> intros <;> with_reducible
      (repeat' first
          | exact .refl _ | assumption | apply calmBack | dsimp only [viewMk] | refine (State.releaseDurable_calm _).to ?_
          | apply calmIte | rfl | intro _ | split)

theorem State.drainPrograms_calm (s : State) (failed : List Nat) :
    Calm rl s.view (State.drainPrograms s failed).view := by
  unfold State.drainPrograms
  (try dsimp only) <;> intros <;> with_reducible
      (repeat' first
          | exact .refl _ | assumption | apply calmBack | dsimp only [viewMk] | apply calmIte | rfl | intro _ | split)

theorem State.drainUnits_calm (s : State) (failed : List Nat) :
    Calm rl s.view (State.drainUnits s failed).view := by
  unfold State.drainUnits
  (try dsimp only) <;> intros <;> with_reducible
      (repeat' first
          | exact .refl _ | assumption | apply calmBack | dsimp only [viewMk] | apply calmIte | rfl | intro _ | split)

theorem State.saveTimes_calm (s : State) :
    Calm rl s.view (State.saveTimes s).view := by
  unfold State.saveTimes
  (try dsimp only) <;> intros <;> with_reducible
      (repeat' first
          | exact .refl _ | assumption | apply calmBack | dsimp only [viewMk] | apply calmIte | rfl | intro _ | split)

theorem State.flushScree_calm (s : State) :
    Calm rl s.view (State.flushScree s).view := by
  unfold State.flushScree
  exact .of rfl ⟨Nat.le_refl _, id⟩ (List.prefix_append _ _) fun _ => ⟨Nat.le_refl _, Nat.le_refl _, id⟩

theorem State.noteStop_calm (s : State) (sealDone : Bool) :
    Calm rl s.view (State.noteStop s sealDone).view := by
  unfold State.noteStop
  (try dsimp only) <;> intros <;> with_reducible
      (repeat' first
          | exact .refl _ | assumption | apply calmBack | dsimp only [viewMk] | apply calmIte | rfl | intro _ | split)

theorem State.endDrain_calm (s : State) :
    Calm rl s.view (State.endDrain s).view := by
  unfold State.endDrain
  (try dsimp only) <;> intros <;> with_reducible
      (repeat' first
          | exact .refl _ | assumption | apply calmBack | dsimp only [viewMk] | apply calmIte | rfl | intro _ | split)

theorem State.cutDrain_calm (s : State) (reached : List Nat) :
    Calm rl s.view (State.cutDrain s reached).view := by
  unfold State.cutDrain
  (try dsimp only) <;> intros <;> with_reducible
      (repeat' first
          | exact .refl _ | assumption | apply calmBack | dsimp only [viewMk] | refine (State.bump_calm _ _).to ?_ | apply calmIte
          | rfl | intro _ | split)

theorem execDrainCutShort_calm (s : State) (reached : List Nat) :
    Ends rl s.view (execDrainCutShort reached s) := by
  unfold execDrainCutShort
  (try dsimp only) <;> intros <;> with_reducible
      (repeat' first
          | exact .refl _ | assumption | apply calmBack | dsimp only [viewMk] | refine (State.cutDrain_calm _ _).to ?_
          | refine (State.endDrain_calm _).to ?_ | refine (State.noteStop_calm _ _).to ?_ | apply calmIte | apply Ends.ok
          | apply Ends.next | apply Ends.ite | rfl | intro _ | split)

theorem execInputStageOff_calm (s : State) :
    Ends rl s.view (execInputStageOff s) := by
  unfold execInputStageOff
  (try dsimp only) <;> intros <;> with_reducible
      (repeat' first
          | exact .refl _ | assumption | apply calmBack | dsimp only [viewMk] | refine (State.cutDrain_calm _ _).to ?_
          | refine (State.noteStop_calm _ _).to ?_ | apply calmIte | apply Ends.ok | apply Ends.next | apply Ends.ite | rfl
          | intro _ | split)

theorem execSafeRestart_calm (s : State) :
    Ends rl s.view (execSafeRestart s) := by
  unfold execSafeRestart
  (try dsimp only) <;> intros <;> with_reducible
      (repeat' first
          | exact .refl _ | assumption | apply calmBack | dsimp only [viewMk] | apply calmIte | apply Ends.ok | apply Ends.next
          | apply Ends.ite | apply RanCalm.done | apply RanCalm.jump | apply RanCalm.stay | apply RanCalm.fault | apply RanCalm.ite
          | rfl | intro _ | split)

theorem State.asInstaller_calm (s : State) (p : Path) (f : State → State) (hf : ∀ s, Calm rl (State.view s) (f s).view) :
    Calm rl s.view (State.asInstaller s p f).view := by
  unfold State.asInstaller
  (try dsimp only) <;> intros <;> with_reducible
      (repeat' first
          | exact .refl _ | assumption | apply calmBack | dsimp only [viewMk] | refine (State.ignoredWrite_calm _).to ?_
          | refine (hf _).to ?_ | apply calmIte | rfl | intro _ | split)

theorem State.drive_calm (s : State) (g : Nat) (v : Bool) :
    Calm rl s.view (State.drive s g v).view := by
  unfold State.drive
  (try dsimp only) <;> intros <;> with_reducible
      (repeat' first
          | exact .refl _ | assumption | apply calmBack | dsimp only [viewMk] | apply calmIte | rfl | intro _ | split)

theorem State.timerOutputs_calm (s : State) (n : Nat) (event : Bool) :
    Calm rl s.view (State.timerOutputs s n event).view := by
  unfold State.timerOutputs
  (try dsimp only) <;> intros <;> with_reducible
      (repeat' first
          | exact .refl _ | assumption | apply calmBack | dsimp only [viewMk] | refine (State.drive_calm _ _ _).to ?_
          | apply calmIte | apply calmFold | apply calmFold1 | rfl | intro _ | split)

theorem State.timerFlag_calm (s : State) (flag : Field) (ovr : Field) :
    Calm rl s.view (State.timerFlag s flag ovr).view := by
  unfold State.timerFlag
  (try dsimp only) <;> intros <;> with_reducible
      (repeat' first
          | exact .refl _ | assumption | apply calmBack | dsimp only [viewMk] | refine (State.countF_calm _ _ _).to ?_
          | refine (State.setF_calm _ _ _).to ?_ | apply calmIte | rfl | intro _ | split)

theorem State.startTimer_calm (s : State) (n : Nat) :
    Calm rl s.view (State.startTimer s n).view := by
  unfold State.startTimer
  (try dsimp only) <;> intros <;> with_reducible
      (repeat' first
          | exact .refl _ | assumption | apply calmBack | dsimp only [viewMk] | refine (State.setF_calm _ _ _).to ?_
          | refine (State.timerOutputs_calm _ _ _).to ?_ | apply calmIte | rfl | intro _ | split)

theorem State.timerRoutes_calm (s : State) (n : Nat) :
    Calm rl s.view (State.timerRoutes s n).view := by
  unfold State.timerRoutes
  (try dsimp only) <;> intros <;> with_reducible
      (repeat' first
          | exact .refl _ | assumption | apply calmBack | dsimp only [viewMk] | refine (State.hookTrigger_calm _ _).to ?_
          | refine (State.raiseVein_calm _ _ _).to ?_ | refine (State.raise_calm _ _ _).to ?_
          | refine (State.timerFlag_calm _ _ _).to ?_ | refine (State.timerOutputs_calm _ _ _).to ?_
          | refine (State.triggerAll_calm _ _ _).to ?_ | apply calmIte | rfl | intro _ | split)

theorem State.periodEvent_calm (s : State) (n : Nat) :
    ∀ k0, Calm rl s.view (State.periodEvent s n k0).view := by
  intro k0
  induction k0 generalizing s n with
  | zero => unfold State.periodEvent; (try dsimp only) <;> intros <;> with_reducible
      (repeat' first
          | exact .refl _ | assumption | apply calmBack | dsimp only [viewMk] | refine (State.setF_calm _ _ _).to ?_
          | refine (State.startTimer_calm _ _).to ?_ | refine (State.timerOutputs_calm _ _ _).to ?_
          | refine (State.timerRoutes_calm _ _).to ?_ | apply calmIte | apply calmFold | apply calmFold1 | rfl | intro _ | split)
  | succ k0 ih => unfold State.periodEvent; (try dsimp only) <;> intros <;> with_reducible
      (repeat' first
          | exact .refl _ | assumption | apply calmBack | dsimp only [viewMk] | refine (State.setF_calm _ _ _).to ?_
          | refine (State.startTimer_calm _ _).to ?_ | refine (State.timerOutputs_calm _ _ _).to ?_
          | refine (State.timerRoutes_calm _ _).to ?_ | refine (ih _ _).to ?_ | apply calmIte | apply calmFold | apply calmFold1
          | rfl | intro _ | split)

theorem State.countStep_calm (s : State) (n : Nat) :
    Calm rl s.view (State.countStep s n).view := by
  unfold State.countStep
  (try dsimp only) <;> intros <;> with_reducible
      (repeat' first
          | exact .refl _ | assumption | apply calmBack | dsimp only [viewMk] | refine (State.periodEvent_calm _ _ _).to ?_
          | refine (State.setF_calm _ _ _).to ?_ | apply calmIte | rfl | intro _ | split)

theorem State.timerTick_calm (s : State) (n : Nat) :
    Calm rl s.view (State.timerTick s n).view := by
  unfold State.timerTick
  (try dsimp only) <;> intros <;> with_reducible
      (repeat' first
          | exact .refl _ | assumption | apply calmBack | dsimp only [viewMk] | refine (State.countStep_calm _ _).to ?_
          | apply calmIte | rfl | intro _ | split)

theorem State.tick_calm (s : State) :
    Calm rl s.view (State.tick s).view := by
  unfold State.tick
  (try dsimp only) <;> intros <;> with_reducible
      (repeat' first
          | exact .refl _ | assumption | apply calmBack | dsimp only [viewMk] | refine (State.timerTick_calm _ _).to ?_
          | apply calmIte | apply calmFold | apply calmFold1 | rfl | intro _ | split)

theorem execTimerPeriodEvent_calm (s : State) (n : Fin 8) :
    Ends rl s.view (execTimerPeriodEvent n s) := by
  unfold execTimerPeriodEvent
  (try dsimp only) <;> intros <;> with_reducible
      (repeat' first
          | exact .refl _ | assumption | apply calmBack | dsimp only [viewMk] | refine (State.periodEvent_calm _ _ _).to ?_
          | apply calmIte | apply Ends.ok | apply Ends.next | apply Ends.ite | rfl | intro _ | split)

theorem State.writeTimerEn_calm (s : State) (n : Nat) (en : Bool) :
    Calm rl s.view (State.writeTimerEn s n en).view := by
  unfold State.writeTimerEn
  (try dsimp only) <;> intros <;> with_reducible
      (repeat' first
          | exact .refl _ | assumption | apply calmBack | dsimp only [viewMk] | refine (State.setF_calm _ _ _).to ?_
          | refine (State.startTimer_calm _ _).to ?_ | refine (State.timerOutputs_calm _ _ _).to ?_ | apply calmIte | rfl | intro _
          | split)

theorem execTimerEnable_calm (s : State) (p : Path) (n : Fin 8) :
    Ends rl s.view (execTimerEnable p n s) := by
  unfold execTimerEnable
  (try dsimp only) <;> intros <;> with_reducible
      (repeat' first
          | exact .refl _ | assumption | apply calmBack | dsimp only [viewMk] | refine (State.asInstaller_calm _ _ _ ?_).to ?_
          | refine (State.asWrite_calm _ _ ?_).to ?_ | refine ((State.asWrite_calm _ _ ?_).get (by assumption)).to ?_
          | refine (State.writeTimerEn_calm _ _ _).to ?_ | apply calmIte | apply Ends.ok | apply Ends.next | apply Ends.ite | rfl
          | intro _ | split)

theorem execTimerStop_calm (s : State) (p : Path) (n : Fin 8) :
    Ends rl s.view (execTimerStop p n s) := by
  unfold execTimerStop
  (try dsimp only) <;> intros <;> with_reducible
      (repeat' first
          | exact .refl _ | assumption | apply calmBack | dsimp only [viewMk] | refine (State.asInstaller_calm _ _ _ ?_).to ?_
          | refine (State.asWrite_calm _ _ ?_).to ?_ | refine ((State.asWrite_calm _ _ ?_).get (by assumption)).to ?_
          | refine (State.writeTimerEn_calm _ _ _).to ?_ | apply calmIte | apply Ends.ok | apply Ends.next | apply Ends.ite | rfl
          | intro _ | split)

theorem State.writePeriod_calm (s : State) (n : Nat) (value : Nat) :
    Calm rl s.view (State.writePeriod s n value).view := by
  unfold State.writePeriod
  (try dsimp only) <;> intros <;> with_reducible
      (repeat' first
          | exact .refl _ | assumption | apply calmBack | dsimp only [viewMk] | refine (State.dropValue_calm _ _ _).to ?_
          | refine (State.setF_calm _ _ _).to ?_ | apply calmIte | rfl | intro _ | split)

theorem execTimerPeriodWrite_calm (s : State) (p : Path) (n : Fin 8) (value : Word) :
    Ends rl s.view (execTimerPeriodWrite p n value s) := by
  unfold execTimerPeriodWrite
  (try dsimp only) <;> intros <;> with_reducible
      (repeat' first
          | exact .refl _ | assumption | apply calmBack | dsimp only [viewMk] | refine (State.asInstaller_calm _ _ _ ?_).to ?_
          | refine (State.asWrite_calm _ _ ?_).to ?_ | refine ((State.asWrite_calm _ _ ?_).get (by assumption)).to ?_
          | refine (State.writePeriod_calm _ _ _).to ?_ | apply calmIte | apply Ends.ok | apply Ends.next | apply Ends.ite | rfl
          | intro _ | split)

theorem execTimerCountWrite_calm (s : State) (p : Path) (n : Fin 8) (value : Word) :
    Ends rl s.view (execTimerCountWrite p n value s) := by
  unfold execTimerCountWrite
  (try dsimp only) <;> intros <;> with_reducible
      (repeat' first
          | exact .refl _ | assumption | apply calmBack | dsimp only [viewMk] | refine (State.asInstaller_calm _ _ _ ?_).to ?_
          | refine (State.asWrite_calm _ _ ?_).to ?_ | refine ((State.asWrite_calm _ _ ?_).get (by assumption)).to ?_
          | refine (State.setF_calm _ _ _).to ?_ | apply calmIte | apply Ends.ok | apply Ends.next | apply Ends.ite | rfl | intro _
          | split)

theorem State.gateEdge_calm (s : State) (n : Nat) (rising : Bool) :
    Calm rl s.view (State.gateEdge s n rising).view := by
  unfold State.gateEdge
  (try dsimp only) <;> intros <;> with_reducible
      (repeat' first
          | exact .refl _ | assumption | apply calmBack | dsimp only [viewMk] | refine (State.countStep_calm _ _).to ?_
          | refine (State.setF_calm _ _ _).to ?_ | refine (State.timerFlag_calm _ _ _).to ?_ | apply calmIte | rfl | intro _
          | split)

theorem State.gateEdges_calm (s : State) (g : Nat) (level : Bool) :
    Calm rl s.view (State.gateEdges s g level).view := by
  unfold State.gateEdges
  (try dsimp only) <;> intros <;> with_reducible
      (repeat' first
          | exact .refl _ | assumption | apply calmBack | dsimp only [viewMk] | refine (State.gateEdge_calm _ _ _).to ?_
          | apply calmIte | apply calmFold | apply calmFold1 | rfl | intro _ | split)

theorem State.inputEdge_calm (s : State) (g : Nat) (level : Bool) :
    Calm rl s.view (State.inputEdge s g level).view := by
  unfold State.inputEdge
  (try dsimp only) <;> intros <;> with_reducible
      (repeat' first
          | exact .refl _ | assumption | apply calmBack | dsimp only [viewMk] | refine (State.hookTrigger_calm _ _).to ?_
          | refine (State.raise_calm _ _ _).to ?_ | apply calmIte | rfl | intro _ | split)

theorem execGpioEdge_calm (s : State) (g : Fin 4) (level : Bool) :
    Ends rl s.view (execGpioEdge g level s) := by
  unfold execGpioEdge
  (try dsimp only) <;> intros <;> with_reducible
      (repeat' first
          | exact .refl _ | assumption | apply calmBack | dsimp only [viewMk] | refine (State.gateEdges_calm _ _ _).to ?_
          | refine (State.inputEdge_calm _ _ _).to ?_ | refine (State.setF_calm _ _ _).to ?_ | apply calmIte | apply Ends.ok
          | apply Ends.next | apply Ends.ite | rfl | intro _ | split)

theorem State.setLevel_calm (s : State) (g : Nat) (v : Bool) :
    Calm rl s.view (State.setLevel s g v).view := by
  unfold State.setLevel
  (try dsimp only) <;> intros <;> with_reducible
      (repeat' first
          | exact .refl _ | assumption | apply calmBack | dsimp only [viewMk] | refine (State.drive_calm _ _ _).to ?_
          | refine (State.setF_calm _ _ _).to ?_ | apply calmIte | rfl | intro _ | split)

theorem State.writeGpio_calm (s : State) (g : Nat) (v : Nat) :
    Calm rl s.view (State.writeGpio s g v).view := by
  unfold State.writeGpio
  (try dsimp only) <;> intros <;> with_reducible
      (repeat' first
          | exact .refl _ | assumption | apply calmBack | dsimp only [viewMk] | refine (State.dropValue_calm _ _ _).to ?_
          | refine (State.setF_calm _ _ _).to ?_ | refine (State.setLevel_calm _ _ _).to ?_
          | refine (State.timerOutputs_calm _ _ _).to ?_ | apply calmIte | rfl | intro _ | split)

theorem State.raiseGranted_calm (s : State) (i : Nat) (grant : Bytes → Nat) (set : Nat) :
    Calm rl s.view (State.raiseGranted s i grant set).view := by
  unfold State.raiseGranted
  (try dsimp only) <;> intros <;> with_reducible
      (repeat' first
          | exact .refl _ | assumption | apply calmBack | dsimp only [viewMk] | refine (State.raise_calm _ _ _).to ?_
          | apply calmIte | rfl | intro _ | split)

theorem State.setH2d_calm (s : State) (b : Nat) :
    Calm rl s.view (State.setH2d s b).view := by
  unfold State.setH2d
  (try dsimp only) <;> intros <;> with_reducible
      (repeat' first
          | exact .refl _ | assumption | apply calmBack | dsimp only [viewMk] | refine (State.hookTrigger_calm _ _).to ?_
          | refine (State.raiseGranted_calm _ _ _ _).to ?_ | refine (State.raise_calm _ _ _).to ?_ | apply calmIte | apply calmFold
          | apply calmFold1 | rfl | intro _ | split)

theorem execMbxH2dSet_calm (s : State) (b : Word) :
    Ends rl s.view (execMbxH2dSet b s) := by
  unfold execMbxH2dSet
  (try dsimp only) <;> intros <;> with_reducible
      (repeat' first
          | exact .refl _ | assumption | apply calmBack | dsimp only [viewMk] | refine (State.asWrite_calm _ _ ?_).to ?_
          | refine ((State.asWrite_calm _ _ ?_).get (by assumption)).to ?_ | refine (State.setH2d_calm _ _).to ?_ | apply calmIte
          | apply Ends.ok | apply Ends.next | apply Ends.ite | rfl | intro _ | split)

theorem State.clearD2h_calm (s : State) (b : Nat) :
    Calm rl s.view (State.clearD2h s b).view := by
  unfold State.clearD2h
  (try dsimp only) <;> intros <;> with_reducible
      (repeat' first
          | exact .refl _ | assumption | apply calmBack | dsimp only [viewMk] | apply calmIte | rfl | intro _ | split)

theorem execMbxD2hClear_calm (s : State) (b : Word) :
    Ends rl s.view (execMbxD2hClear b s) := by
  unfold execMbxD2hClear
  (try dsimp only) <;> intros <;> with_reducible
      (repeat' first
          | exact .refl _ | assumption | apply calmBack | dsimp only [viewMk] | refine (State.asWrite_calm _ _ ?_).to ?_
          | refine ((State.asWrite_calm _ _ ?_).get (by assumption)).to ?_ | refine (State.clearD2h_calm _ _).to ?_ | apply calmIte
          | apply Ends.ok | apply Ends.next | apply Ends.ite | rfl | intro _ | split)

theorem State.setD2h_calm (s : State) (b : Nat) :
    Calm rl s.view (State.setD2h s b).view := by
  unfold State.setD2h
  (try dsimp only) <;> intros <;> with_reducible
      (repeat' first
          | exact .refl _ | assumption | apply calmBack | dsimp only [viewMk] | refine (State.signal_calm _ _).to ?_ | apply calmIte
          | rfl | intro _ | split)

theorem State.mbxBoundary_calm (s : State) :
    Calm rl s.view (State.mbxBoundary s).view := by
  unfold State.mbxBoundary
  (try dsimp only) <;> intros <;> with_reducible
      (repeat' first
          | exact .refl _ | assumption | apply calmBack | dsimp only [viewMk] | refine (State.setF_calm _ _ _).to ?_ | apply calmIte
          | rfl | intro _ | split)

theorem State.writeH2dSlot_calm (s : State) (slot : Nat) (off : Nat) (data : Bytes) :
    Calm rl s.view (State.writeH2dSlot s slot off data).view := by
  unfold State.writeH2dSlot
  (try dsimp only) <;> intros <;> with_reducible
      (repeat' first
          | exact .refl _ | assumption | apply calmBack | dsimp only [viewMk] | refine (State.bump_calm _ _).to ?_
          | refine (State.ignoredWrite_calm _).to ?_ | apply calmIte | rfl | intro _ | split)

theorem execH2dSlotWrite_calm (s : State) (slot : Fin 8) (off : BitVec 6) (data : Bytes) :
    Ends rl s.view (execH2dSlotWrite slot off data s) := by
  unfold execH2dSlotWrite
  (try dsimp only) <;> intros <;> with_reducible
      (repeat' first
          | exact .refl _ | assumption | apply calmBack | dsimp only [viewMk] | refine (State.asWrite_calm _ _ ?_).to ?_
          | refine ((State.asWrite_calm _ _ ?_).get (by assumption)).to ?_ | refine (State.writeH2dSlot_calm _ _ _ _).to ?_
          | apply calmIte | apply Ends.ok | apply Ends.next | apply Ends.ite | rfl | intro _ | split)

theorem State.postH2d_calm (s : State) (slot : Nat) :
    Calm rl s.view (State.postH2d s slot).view := by
  unfold State.postH2d
  (try dsimp only) <;> intros <;> with_reducible
      (repeat' first
          | exact .refl _ | assumption | apply calmBack | dsimp only [viewMk] | refine (State.bump_calm _ _).to ?_
          | refine (State.hookTrigger_calm _ _).to ?_ | refine (State.mbxBoundary_calm _).to ?_
          | refine (State.raiseGranted_calm _ _ _ _).to ?_ | refine (State.raise_calm _ _ _).to ?_ | apply calmIte | rfl | intro _
          | split)

theorem State.postH2ds_calm (s : State) (set : Nat) :
    Calm rl s.view (State.postH2ds s set).view := by
  unfold State.postH2ds
  (try dsimp only) <;> intros <;> with_reducible
      (repeat' first
          | exact .refl _ | assumption | apply calmBack | dsimp only [viewMk] | refine (State.postH2d_calm _ _).to ?_
          | apply calmIte | apply calmFold | apply calmFold1 | rfl | intro _ | split)

theorem execH2dPost_calm (s : State) (set : BitVec 8) :
    Ends rl s.view (execH2dPost set s) := by
  unfold execH2dPost
  (try dsimp only) <;> intros <;> with_reducible
      (repeat' first
          | exact .refl _ | assumption | apply calmBack | dsimp only [viewMk] | refine (State.asWrite_calm _ _ ?_).to ?_
          | refine ((State.asWrite_calm _ _ ?_).get (by assumption)).to ?_ | refine (State.postH2ds_calm _ _).to ?_ | apply calmIte
          | apply Ends.ok | apply Ends.next | apply Ends.ite | rfl | intro _ | split)

theorem State.raiseFreed_calm (s : State) (slot : Nat) :
    Calm rl s.view (State.raiseFreed s slot).view := by
  unfold State.raiseFreed
  (try dsimp only) <;> intros <;> with_reducible
      (repeat' first
          | exact .refl _ | assumption | apply calmBack | dsimp only [viewMk] | refine (State.raiseGranted_calm _ _ _ _).to ?_
          | refine (State.raise_calm _ _ _).to ?_ | apply calmIte | rfl | intro _ | split)

theorem State.freeD2h_calm (s : State) (slot : Nat) :
    Calm rl s.view (State.freeD2h s slot).view := by
  unfold State.freeD2h
  (try dsimp only) <;> intros <;> with_reducible
      (repeat' first
          | exact .refl _ | assumption | apply calmBack | dsimp only [viewMk] | refine (State.late_calm _).to ?_
          | refine (State.raiseFreed_calm _ _).to ?_ | apply calmIte | rfl | intro _ | split)

theorem State.freeD2hs_calm (s : State) (set : Nat) :
    Calm rl s.view (State.freeD2hs s set).view := by
  unfold State.freeD2hs
  (try dsimp only) <;> intros <;> with_reducible
      (repeat' first
          | exact .refl _ | assumption | apply calmBack | dsimp only [viewMk] | refine (State.freeD2h_calm _ _).to ?_
          | apply calmIte | apply calmFold | apply calmFold1 | rfl | intro _ | split)

theorem execD2hFree_calm (s : State) (set : BitVec 8) :
    Ends rl s.view (execD2hFree set s) := by
  unfold execD2hFree
  (try dsimp only) <;> intros <;> with_reducible
      (repeat' first
          | exact .refl _ | assumption | apply calmBack | dsimp only [viewMk] | refine (State.asWrite_calm _ _ ?_).to ?_
          | refine ((State.asWrite_calm _ _ ?_).get (by assumption)).to ?_ | refine (State.freeD2hs_calm _ _).to ?_ | apply calmIte
          | apply Ends.ok | apply Ends.next | apply Ends.ite | rfl | intro _ | split)

theorem State.timeoutH2d_calm (s : State) (slot : Nat) :
    Calm rl s.view (State.timeoutH2d s slot).view := by
  unfold State.timeoutH2d
  (try dsimp only) <;> intros <;> with_reducible
      (repeat' first
          | exact .refl _ | assumption | apply calmBack | dsimp only [viewMk] | refine (State.bump_calm _ _).to ?_
          | refine (State.record_calm _ _ _ _ _ _ _).to ?_ | refine (State.signal_calm _ _).to ?_ | apply calmIte | rfl | intro _
          | split)

theorem State.timeoutD2h_calm (s : State) (slot : Nat) :
    Calm rl s.view (State.timeoutD2h s slot).view := by
  unfold State.timeoutD2h
  (try dsimp only) <;> intros <;> with_reducible
      (repeat' first
          | exact .refl _ | assumption | apply calmBack | dsimp only [viewMk] | refine (State.bump_calm _ _).to ?_
          | refine (State.raiseFreed_calm _ _).to ?_ | refine (State.record_calm _ _ _ _ _ _ _).to ?_
          | refine (State.signal_calm _ _).to ?_ | apply calmIte | rfl | intro _ | split)

theorem execMailboxSlotTimeout_calm (s : State) (toHost : Bool) (slot : Fin 8) :
    Ends rl s.view (execMailboxSlotTimeout toHost slot s) := by
  unfold execMailboxSlotTimeout
  (try dsimp only) <;> intros <;> with_reducible
      (repeat' first
          | exact .refl _ | assumption | apply calmBack | dsimp only [viewMk] | refine (State.timeoutD2h_calm _ _).to ?_
          | refine (State.timeoutH2d_calm _ _).to ?_ | apply calmIte | apply Ends.ok | apply Ends.next | apply Ends.ite | rfl
          | intro _ | split)

theorem State.sendD2h_calm (s : State) (slot : Nat) :
    Calm rl s.view (State.sendD2h s slot).view := by
  unfold State.sendD2h
  (try dsimp only) <;> intros <;> with_reducible
      (repeat' first
          | exact .refl _ | assumption | apply calmBack | dsimp only [viewMk] | refine (State.mbxBoundary_calm _).to ?_
          | refine (State.signal_calm _ _).to ?_ | apply calmIte | rfl | intro _ | split)

theorem State.freeH2d_calm (s : State) (slot : Nat) :
    Calm rl s.view (State.freeH2d s slot).view := by
  unfold State.freeH2d
  (try dsimp only) <;> intros <;> with_reducible
      (repeat' first
          | exact .refl _ | assumption | apply calmBack | dsimp only [viewMk] | refine (State.late_calm _).to ?_
          | refine (State.signal_calm _ _).to ?_ | apply calmIte | rfl | intro _ | split)

theorem State.resetRegs_calm (s : State) (lo : Nat) (hi : Nat) :
    Calm rl s.view (State.resetRegs s lo hi).view := by
  unfold State.resetRegs
  (try dsimp only) <;> intros <;> with_reducible
      (repeat' first
          | exact .refl _ | assumption | apply calmBack | dsimp only [viewMk] | apply calmIte | apply calmIte1 | rfl | intro _
          | split)

theorem State.resetMailbox_calm (s : State) :
    Calm rl s.view (State.resetMailbox s).view := by
  unfold State.resetMailbox
  (try dsimp only) <;> intros <;> with_reducible
      (repeat' first
          | exact .refl _ | assumption | apply calmBack | dsimp only [viewMk] | refine (State.raise_calm _ _ _).to ?_
          | refine (State.resetRegs_calm _ _ _).to ?_ | apply calmIte | rfl | intro _ | split)

end Sys2Proof.Machine
end

