-- ==== Sys2Proof/Laws/CalmHost.lean ====
section
/-! SUPPORT. `Calm` through every operation and meaning: rings, volumes, I/O commands, security, tables, transfers and the PCIe function. -/

set_option linter.unusedVariables false

namespace Sys2Proof.Machine

variable {rl : Bool}

theorem State.takeRingEntry_calm (s : State) (n : Nat) (b : Bytes) :
    Calm rl s.view (State.takeRingEntry s n b).view := by
  unfold State.takeRingEntry
  (try dsimp only) <;> intros <;> with_reducible
      (repeat' first
          | exact .refl _ | assumption | apply calmBack | dsimp only [viewMk] | refine (State.setRing_calm _ _ _).to ?_
          | apply calmIte | rfl | intro _ | split)

theorem State.noteLtr_calm (s : State) :
    Calm rl s.view (State.noteLtr s).view := by
  unfold State.noteLtr
  (try dsimp only) <;> intros <;> with_reducible
      (repeat' first
          | exact .refl _ | assumption | apply calmBack | dsimp only [viewMk] | refine (State.emit_calm _ _).to ?_ | apply calmIte
          | rfl | intro _ | split)

theorem State.endEntry_calm (s : State) (c : Cmd) (status : Nat) :
    Calm rl s.view (State.endEntry s c status).view := by
  unfold State.endEntry
  (try dsimp only) <;> intros <;> with_reducible
      (repeat' first
          | exact .refl _ | assumption | apply calmBack | dsimp only [viewMk] | refine (State.postCpl_calm _ _ _).to ?_
          | apply calmIte | rfl | intro _ | split)

theorem State.addCmd_calm (s : State) (c : Cmd) :
    Calm rl s.view (State.addCmd s c).view := by
  unfold State.addCmd
  (try dsimp only) <;> intros <;> with_reducible
      (repeat' first
          | exact .refl _ | assumption | apply calmBack | dsimp only [viewMk] | refine (State.endEntry_calm _ _ _).to ?_
          | refine (State.postCpl_calm _ _ _).to ?_ | refine (State.setRing_calm _ _ _).to ?_
          | refine (State.stage_calm _ _ _ _ _ _ _).to ?_ | apply calmIte | apply RanCalm.done | apply RanCalm.jump
          | apply RanCalm.stay | apply RanCalm.fault | apply RanCalm.ite | rfl | intro _ | split)

theorem State.setChain_calm (s : State) (n : Nat) (c : Option (Cmd × Nat)) :
    Calm rl s.view (State.setChain s n c).view := by
  unfold State.setChain
  (try dsimp only) <;> intros <;> with_reducible
      (repeat' first
          | exact .refl _ | assumption | apply calmBack | dsimp only [viewMk] | refine (State.setRing_calm _ _ _).to ?_
          | apply calmIte | apply calmIte1 | rfl | intro _ | split)

theorem State.breakChain_calm (s : State) (c : Cmd) :
    Calm rl s.view (State.breakChain s c).view := by
  unfold State.breakChain
  (try dsimp only) <;> intros <;> with_reducible
      (repeat' first
          | exact .refl _ | assumption | apply calmBack | dsimp only [viewMk] | refine (State.bump_calm _ _).to ?_
          | refine (State.endEntry_calm _ _ _).to ?_ | refine (State.setChain_calm _ _ _).to ?_ | apply calmIte | rfl | intro _
          | split)

theorem State.chainStart_calm (s : State) (c : Cmd) (e : Bytes) :
    Calm rl s.view (State.chainStart s c e).view := by
  unfold State.chainStart
  (try dsimp only) <;> intros <;> with_reducible
      (repeat' first
          | exact .refl _ | assumption | apply calmBack | dsimp only [viewMk] | refine (State.addCmd_calm _ _).to ?_
          | refine (State.endEntry_calm _ _ _).to ?_ | refine (State.setChain_calm _ _ _).to ?_ | apply calmIte | rfl | intro _
          | split)

theorem State.chainEntry_calm (s : State) (n : Nat) (slot : Nat) (e : Bytes) :
    Calm rl s.view (State.chainEntry s n slot e).view := by
  unfold State.chainEntry
  (try dsimp only) <;> intros <;> with_reducible
      (repeat' first
          | exact .refl _ | assumption | apply calmBack | dsimp only [viewMk] | refine (State.addCmd_calm _ _).to ?_
          | refine (State.breakChain_calm _ _).to ?_ | refine (State.chainStart_calm _ _ _).to ?_
          | refine (State.endEntry_calm _ _ _).to ?_ | refine (State.setChain_calm _ _ _).to ?_ | apply calmIte | rfl | intro _
          | split)

theorem State.variableEntry_calm (s : State) (n : Nat) (slot : Nat) (e : Bytes) :
    Calm rl s.view (State.variableEntry s n slot e).view := by
  unfold State.variableEntry
  (try dsimp only) <;> intros <;> with_reducible
      (repeat' first
          | exact .refl _ | assumption | apply calmBack | dsimp only [viewMk] | refine (State.addCmd_calm _ _).to ?_
          | refine (State.endEntry_calm _ _ _).to ?_ | refine (State.setChain_calm _ _ _).to ?_
          | refine (State.setRing_calm _ _ _).to ?_ | apply calmIte | rfl | intro _ | split)

theorem State.takeSlot_calm (s : State) (n : Nat) (slot : Nat) (e : Bytes) :
    Calm rl s.view (State.takeSlot s n slot e).view := by
  unfold State.takeSlot
  (try dsimp only) <;> intros <;> with_reducible
      (repeat' first
          | exact .refl _ | assumption | apply calmBack | dsimp only [viewMk] | refine (State.chainEntry_calm _ _ _ _).to ?_
          | refine (State.setRing_calm _ _ _).to ?_ | refine (State.variableEntry_calm _ _ _ _).to ?_ | apply calmIte | rfl
          | intro _ | split)

theorem State.trimBells_calm (s : State) (n : Nat) :
    Calm rl s.view (State.trimBells s n).view := by
  unfold State.trimBells
  (try dsimp only) <;> intros <;> with_reducible
      (repeat' first
          | exact .refl _ | assumption | apply calmBack | dsimp only [viewMk] | refine (State.setRing_calm _ _ _).to ?_
          | apply calmIte | rfl | intro _ | split)

theorem State.fetchStep_calm (s : State) (n : Nat) :
    Calm rl s.view (State.fetchStep s n).view := by
  unfold State.fetchStep
  (try dsimp only) <;> intros <;> with_reducible
      (repeat' first
          | exact .refl _ | assumption | apply calmBack | dsimp only [viewMk] | refine (State.emit_calm _ _).to ?_
          | refine (State.setRing_calm _ _ _).to ?_ | refine (State.takeSlot_calm _ _ _ _).to ?_ | apply calmIte | rfl | intro _
          | split)

theorem State.pumpFetch_calm (s : State) (n : Nat) :
    ∀ k0, Calm rl s.view (State.pumpFetch s n k0).view := by
  intro k0
  induction k0 generalizing s n with
  | zero => unfold State.pumpFetch; (try dsimp only) <;> intros <;> with_reducible
      (repeat' first
          | exact .refl _ | assumption | apply calmBack | dsimp only [viewMk] | refine (State.fetchStep_calm _ _).to ?_
          | refine (State.trimBells_calm _ _).to ?_ | apply calmIte | rfl | intro _ | split)
  | succ k0 ih => unfold State.pumpFetch; (try dsimp only) <;> intros <;> with_reducible
      (repeat' first
          | exact .refl _ | assumption | apply calmBack | dsimp only [viewMk] | refine (State.fetchStep_calm _ _).to ?_
          | refine (State.trimBells_calm _ _).to ?_ | refine (ih _ _).to ?_ | apply calmIte | rfl | intro _ | split)

theorem State.fetchAll_calm (s : State) (n : Nat) :
    Calm rl s.view (State.fetchAll s n).view := by
  unfold State.fetchAll
  (try dsimp only) <;> intros <;> with_reducible
      (repeat' first
          | exact .refl _ | assumption | apply calmBack | dsimp only [viewMk] | refine (State.pumpFetch_calm _ _ _).to ?_
          | apply calmIte | rfl | intro _ | split)

theorem State.takeSlots_calm (s : State) (n : Nat) (slot : Nat) :
    ∀ k0 k1, Calm rl s.view (State.takeSlots s n slot k0 k1).view := by
  intro k0 k1
  induction k0 generalizing s n slot k1 with
  | zero => unfold State.takeSlots; (try dsimp only) <;> intros <;> with_reducible
      (repeat' first
          | exact .refl _ | assumption | apply calmBack | dsimp only [viewMk] | refine (State.takeSlot_calm _ _ _ _).to ?_
          | apply calmIte | rfl | intro _ | split)
  | succ k0 ih => unfold State.takeSlots; (try dsimp only) <;> intros <;> with_reducible
      (repeat' first
          | exact .refl _ | assumption | apply calmBack | dsimp only [viewMk] | refine (State.takeSlot_calm _ _ _ _).to ?_
          | refine (ih _ _ _ _).to ?_ | apply calmIte | rfl | intro _ | split)

theorem State.ringFault_calm (s : State) (n : Nat) (cause : Nat) :
    Calm rl s.view (State.ringFault s n cause).view := by
  unfold State.ringFault
  (try dsimp only) <;> intros <;> with_reducible
      (repeat' first
          | exact .refl _ | assumption | apply calmBack | dsimp only [viewMk] | refine (State.record_calm _ _ _ _ _ _ _).to ?_
          | refine (State.setRing_calm _ _ _).to ?_ | apply calmIte | rfl | intro _ | split)

theorem State.unexpectedCpl_calm (s : State) :
    Calm rl s.view (State.unexpectedCpl s).view := by
  unfold State.unexpectedCpl
  (try dsimp only) <;> intros <;> with_reducible
      (repeat' first
          | exact .refl _ | assumption | apply calmBack | dsimp only [viewMk] | refine (State.late_calm _).to ?_
          | refine (State.setF_calm _ _ _).to ?_ | apply calmIte | rfl | intro _ | split)

theorem State.fetchEnd_calm (s : State) (n : Nat) (e : ReadEnd) :
    Calm rl s.view (State.fetchEnd s n e).view := by
  unfold State.fetchEnd
  (try dsimp only) <;> intros <;> with_reducible
      (repeat' first
          | exact .refl _ | assumption | apply calmBack | dsimp only [viewMk] | refine (State.fetchAll_calm _ _).to ?_
          | refine (State.ringFault_calm _ _ _).to ?_ | refine (State.setF_calm _ _ _).to ?_
          | refine (State.setRing_calm _ _ _).to ?_ | refine (State.takeSlots_calm _ _ _ _ _).to ?_
          | refine (State.unexpectedCpl_calm _).to ?_ | apply calmIte | rfl | intro _ | split)

theorem State.badBell_calm (s : State) (n : Nat) :
    Calm rl s.view (State.badBell s n).view := by
  unfold State.badBell
  (try dsimp only) <;> intros <;> with_reducible
      (repeat' first
          | exact .refl _ | assumption | apply calmBack | dsimp only [viewMk] | refine (State.bump_calm _ _).to ?_
          | refine (State.record_calm _ _ _ _ _ _ _).to ?_ | apply calmIte | rfl | intro _ | split)

theorem State.newTail_calm (s : State) (n : Nat) (tail : Nat) :
    Calm rl s.view (State.newTail s n tail).view := by
  unfold State.newTail
  (try dsimp only) <;> intros <;> with_reducible
      (repeat' first
          | exact .refl _ | assumption | apply calmBack | dsimp only [viewMk] | refine (State.setRing_calm _ _ _).to ?_
          | apply calmIte | rfl | intro _ | split)

theorem State.takePush_calm (s : State) (n : Nat) (old : Nat) (new : Nat) :
    Calm rl s.view (State.takePush s n old new).view := by
  unfold State.takePush
  (try dsimp only) <;> intros <;> with_reducible
      (repeat' first
          | exact .refl _ | assumption | apply calmBack | dsimp only [viewMk] | refine (State.bump_calm _ _).to ?_
          | refine (State.countF_calm _ _ _).to ?_ | refine (State.setRing_calm _ _ _).to ?_ | apply calmIte | rfl | intro _
          | split)

theorem State.asBell_calm (s : State) (f : State → State) (hf : ∀ s, Calm rl (State.view s) (f s).view) :
    Ends rl s.view (State.asBell s f) := by
  unfold State.asBell
  (try dsimp only) <;> intros <;> with_reducible
      (repeat' first
          | exact .refl _ | assumption | apply calmBack | dsimp only [viewMk] | refine (State.asWrite_calm _ _ ?_).to ?_
          | refine ((State.asWrite_calm _ _ ?_).get (by assumption)).to ?_ | refine (State.ignoredWrite_calm _).to ?_
          | refine (hf _).to ?_ | apply calmIte | apply Ends.ok | apply Ends.next | apply Ends.ite | rfl | intro _ | split)

theorem State.dbTail_calm (s : State) (n : Nat) (v : Nat) :
    Calm rl s.view (State.dbTail s n v).view := by
  unfold State.dbTail
  (try dsimp only) <;> intros <;> with_reducible
      (repeat' first
          | exact .refl _ | assumption | apply calmBack | dsimp only [viewMk] | refine (State.badBell_calm _ _).to ?_
          | refine (State.fetchAll_calm _ _).to ?_ | refine (State.newTail_calm _ _ _).to ?_
          | refine (State.takePush_calm _ _ _ _).to ?_ | apply calmIte | rfl | intro _ | split)

theorem execDbTail_calm (s : State) (n : Fin 8) (v : Word) :
    Ends rl s.view (execDbTail n v s) := by
  unfold execDbTail
  (try dsimp only) <;> intros <;> with_reducible
      (repeat' first
          | exact .refl _ | assumption | apply calmBack | dsimp only [viewMk] | refine (State.asBell_calm _ _ ?_).to ?_
          | refine ((State.asBell_calm _ _ ?_).get (by assumption)).to ?_ | refine (State.dbTail_calm _ _ _).to ?_ | apply calmIte
          | apply Ends.ok | apply Ends.next | apply Ends.ite | rfl | intro _ | split)

theorem State.startIndex_calm (s : State) (n : Nat) :
    Calm rl s.view (State.startIndex s n).view := by
  unfold State.startIndex
  (try dsimp only) <;> intros <;> with_reducible
      (repeat' first
          | exact .refl _ | assumption | apply calmBack | dsimp only [viewMk] | refine (State.emit_calm _ _).to ?_
          | refine (State.setRing_calm _ _ _).to ?_ | apply calmIte | rfl | intro _ | split)

theorem State.dbBare_calm (s : State) (n : Nat) :
    Calm rl s.view (State.dbBare s n).view := by
  unfold State.dbBare
  (try dsimp only) <;> intros <;> with_reducible
      (repeat' first
          | exact .refl _ | assumption | apply calmBack | dsimp only [viewMk] | refine (State.badBell_calm _ _).to ?_
          | refine (State.setRing_calm _ _ _).to ?_ | refine (State.startIndex_calm _ _).to ?_ | apply calmIte | rfl | intro _
          | split)

theorem execDbBare_calm (s : State) (n : Fin 8) :
    Ends rl s.view (execDbBare n s) := by
  unfold execDbBare
  (try dsimp only) <;> intros <;> with_reducible
      (repeat' first
          | exact .refl _ | assumption | apply calmBack | dsimp only [viewMk] | refine (State.asBell_calm _ _ ?_).to ?_
          | refine ((State.asBell_calm _ _ ?_).get (by assumption)).to ?_ | refine (State.dbBare_calm _ _).to ?_ | apply calmIte
          | apply Ends.ok | apply Ends.next | apply Ends.ite | rfl | intro _ | split)

theorem State.indexEnd_calm (s : State) (n : Nat) (e : ReadEnd) :
    Calm rl s.view (State.indexEnd s n e).view := by
  unfold State.indexEnd
  (try dsimp only) <;> intros <;> with_reducible
      (repeat' first
          | exact .refl _ | assumption | apply calmBack | dsimp only [viewMk] | refine (State.badBell_calm _ _).to ?_
          | refine (State.fetchAll_calm _ _).to ?_ | refine (State.newTail_calm _ _ _).to ?_
          | refine (State.ringFault_calm _ _ _).to ?_ | refine (State.setF_calm _ _ _).to ?_
          | refine (State.setRing_calm _ _ _).to ?_ | refine (State.startIndex_calm _ _).to ?_
          | refine (State.unexpectedCpl_calm _).to ?_ | apply calmIte | rfl | intro _ | split)

theorem State.dbCqh_calm (s : State) (n : Nat) (v : Nat) :
    Calm rl s.view (State.dbCqh s n v).view := by
  unfold State.dbCqh
  (try dsimp only) <;> intros <;> with_reducible
      (repeat' first
          | exact .refl _ | assumption | apply calmBack | dsimp only [viewMk] | refine (State.badBell_calm _ _).to ?_
          | refine (State.fetchAll_calm _ _).to ?_ | refine (State.pumpRing_calm _ _).to ?_
          | refine (State.setRing_calm _ _ _).to ?_ | apply calmIte | rfl | intro _ | split)

theorem execDbCqh_calm (s : State) (n : Fin 8) (v : Word) :
    Ends rl s.view (execDbCqh n v s) := by
  unfold execDbCqh
  (try dsimp only) <;> intros <;> with_reducible
      (repeat' first
          | exact .refl _ | assumption | apply calmBack | dsimp only [viewMk] | refine (State.asBell_calm _ _ ?_).to ?_
          | refine ((State.asBell_calm _ _ ?_).get (by assumption)).to ?_ | refine (State.dbCqh_calm _ _ _).to ?_ | apply calmIte
          | apply Ends.ok | apply Ends.next | apply Ends.ite | rfl | intro _ | split)

theorem State.pushWrite_calm (s : State) (n : Nat) (off : Nat) (data : Bytes) :
    Calm rl s.view (State.pushWrite s n off data).view := by
  unfold State.pushWrite
  (try dsimp only) <;> intros <;> with_reducible
      (repeat' first
          | exact .refl _ | assumption | apply calmBack | dsimp only [viewMk] | refine (State.ignoredWrite_calm _).to ?_
          | refine (State.setRing_calm _ _ _).to ?_ | apply calmIte | rfl | intro _ | split)

theorem execPushWindowWrite_calm (s : State) (n : Fin 8) (off : BitVec 12) (data : Bytes) :
    Ends rl s.view (execPushWindowWrite n off data s) := by
  unfold execPushWindowWrite
  (try dsimp only) <;> intros <;> with_reducible
      (repeat' first
          | exact .refl _ | assumption | apply calmBack | dsimp only [viewMk] | refine (State.asBell_calm _ _ ?_).to ?_
          | refine ((State.asBell_calm _ _ ?_).get (by assumption)).to ?_ | refine (State.pushWrite_calm _ _ _ _).to ?_
          | apply calmIte | apply Ends.ok | apply Ends.next | apply Ends.ite | rfl | intro _ | split)

theorem execChainTimeout_calm (s : State) (n : Fin 8) :
    Ends rl s.view (execChainTimeout n s) := by
  unfold execChainTimeout
  (try dsimp only) <;> intros <;> with_reducible
      (repeat' first
          | exact .refl _ | assumption | apply calmBack | dsimp only [viewMk] | refine (State.breakChain_calm _ _).to ?_
          | apply calmIte | apply Ends.ok | apply Ends.next | apply Ends.ite | rfl | intro _ | split)

theorem execModerationTimeout_calm (s : State) (n : Fin 8) :
    Ends rl s.view (execModerationTimeout n s) := by
  unfold execModerationTimeout
  (try dsimp only) <;> intros <;> with_reducible
      (repeat' first
          | exact .refl _ | assumption | apply calmBack | dsimp only [viewMk] | refine (State.setRing_calm _ _ _).to ?_
          | refine (State.signal_calm _ _).to ?_ | apply calmIte | apply Ends.ok | apply Ends.next | apply Ends.ite | rfl | intro _
          | split)

theorem State.enableRing_calm (s : State) (n : Nat) :
    Calm rl s.view (State.enableRing s n).view := by
  unfold State.enableRing
  (try dsimp only) <;> intros <;> with_reducible
      (repeat' first
          | exact .refl _ | assumption | apply calmBack | dsimp only [viewMk] | refine (State.noteLtr_calm _).to ?_
          | refine (State.record_calm _ _ _ _ _ _ _).to ?_ | refine (State.setF_calm _ _ _).to ?_
          | refine (State.setRing_calm _ _ _).to ?_ | apply calmIte | rfl | intro _ | split)

theorem execRingEnable_calm (s : State) (n : Fin 8) :
    Ends rl s.view (execRingEnable n s) := by
  unfold execRingEnable
  (try dsimp only) <;> intros <;> with_reducible
      (repeat' first
          | exact .refl _ | assumption | apply calmBack | dsimp only [viewMk] | refine (State.asWrite_calm _ _ ?_).to ?_
          | refine ((State.asWrite_calm _ _ ?_).get (by assumption)).to ?_ | refine (State.enableRing_calm _ _).to ?_
          | apply calmIte | apply Ends.ok | apply Ends.next | apply Ends.ite | rfl | intro _ | split)

theorem State.markDone_calm (s : State) (c : Cmd) :
    Calm rl s.view (State.markDone s c).view := by
  unfold State.markDone
  (try dsimp only) <;> intros <;> with_reducible
      (repeat' first
          | exact .refl _ | assumption | apply calmBack | dsimp only [viewMk] | refine (State.setRing_calm _ _ _).to ?_
          | refine (State.stage_calm _ _ _ _ _ _ _).to ?_ | apply calmIte | apply RanCalm.done | apply RanCalm.jump
          | apply RanCalm.stay | apply RanCalm.fault | apply RanCalm.ite | rfl | intro _ | split)

theorem State.complete_calm (s : State) (c : Cmd) (status : Nat) (result : Bytes) :
    Calm rl s.view (State.complete s c status result).view := by
  unfold State.complete
  (try dsimp only) <;> intros <;> with_reducible
      (repeat' first
          | exact .refl _ | assumption | apply calmBack | dsimp only [viewMk] | refine (State.countClass_calm _ _ _).to ?_
          | refine (State.fetchAll_calm _ _).to ?_ | refine (State.late_calm _).to ?_ | refine (State.markDone_calm _ _).to ?_
          | refine (State.postCpl_calm _ _ _).to ?_ | apply calmIte | apply calmIte1 | rfl | intro _ | split)

theorem State.disableRing_calm (s : State) (n : Nat) :
    Calm rl s.view (State.disableRing s n).view := by
  unfold State.disableRing
  (try dsimp only) <;> intros <;> with_reducible
      (repeat' first
          | exact .refl _ | assumption | apply calmBack | dsimp only [viewMk] | refine (State.complete_calm _ _ _ _).to ?_
          | refine (State.endEntry_calm _ _ _).to ?_ | refine (State.noteLtr_calm _).to ?_
          | refine (State.setChain_calm _ _ _).to ?_ | refine (State.setF_calm _ _ _).to ?_
          | refine (State.setRing_calm _ _ _).to ?_ | refine (State.settleRing_calm _ _).to ?_ | apply calmIte | apply calmFold
          | apply calmFold1 | rfl | intro _ | split)

theorem execRingDisable_calm (s : State) (n : Fin 8) :
    Ends rl s.view (execRingDisable n s) := by
  unfold execRingDisable
  (try dsimp only) <;> intros <;> with_reducible
      (repeat' first
          | exact .refl _ | assumption | apply calmBack | dsimp only [viewMk] | refine (State.asWrite_calm _ _ ?_).to ?_
          | refine ((State.asWrite_calm _ _ ?_).get (by assumption)).to ?_ | refine (State.disableRing_calm _ _).to ?_
          | apply calmIte | apply Ends.ok | apply Ends.next | apply Ends.ite | rfl | intro _ | split)

theorem State.setBlk_calm (s : State) (v : Nat) (p : Nat) (b : Option Blk) :
    Calm rl s.view (State.setBlk s v p b).view := by
  unfold State.setBlk
  (try dsimp only) <;> intros <;> with_reducible
      (repeat' first
          | exact .refl _ | assumption | apply calmBack | dsimp only [viewMk] | refine (State.setVol_calm _ _ _).to ?_
          | apply calmIte | rfl | intro _ | split)

theorem State.unlose_calm (s : State) (v : Nat) (p : Nat) :
    Calm rl s.view (State.unlose s v p).view := by
  unfold State.unlose
  (try dsimp only) <;> intros <;> with_reducible
      (repeat' first
          | exact .refl _ | assumption | apply calmBack | dsimp only [viewMk] | apply calmIte | rfl | intro _ | split)

theorem State.lose_calm (s : State) (r : LossRun) :
    Calm rl s.view (State.lose s r).view := by
  unfold State.lose
  (try dsimp only) <;> intros <;> with_reducible
      (repeat' first
          | exact .refl _ | assumption | apply calmBack | dsimp only [viewMk] | apply calmIte | apply calmIte1 | rfl | intro _
          | split)

theorem State.journal_calm (s : State) (unit : Nat) :
    Calm rl s.view (State.journal s unit).view := by
  unfold State.journal
  (try dsimp only) <;> intros <;> with_reducible
      (repeat' first
          | exact .refl _ | assumption | apply calmBack | dsimp only [viewMk] | apply calmIte | rfl | intro _ | split)

theorem State.commit_calm (s : State) :
    Calm rl s.view (State.commit s).view := by
  unfold State.commit
  (try dsimp only) <;> intros <;> with_reducible
      (repeat' first
          | exact .refl _ | assumption | apply calmBack | dsimp only [viewMk] | refine (State.journal_calm _ _).to ?_
          | apply calmIte | rfl | intro _ | split)

theorem State.stageBlock_calm (s : State) (v : Nat) (p : Nat) (data : Bytes) (group : Nat) (fromReserve : Bool) (part granted : Nat) :
    Calm rl s.view (State.stageBlock s v p data group fromReserve part granted).view := by
  unfold State.stageBlock
  (try dsimp only) <;> intros <;> with_reducible
      (repeat' first
          | exact .refl _ | assumption | apply calmBack | dsimp only [viewMk] | refine (State.setBlk_calm _ _ _ _).to ?_
          | refine (State.unlose_calm _ _ _).to ?_ | apply calmIte | rfl | intro _ | split)

theorem State.dropStaged_calm (s : State) (v : Nat) (p : Nat) :
    Calm rl s.view (State.dropStaged s v p).view := by
  unfold State.dropStaged
  (try dsimp only) <;> intros <;> with_reducible
      (repeat' first
          | exact .refl _ | assumption | apply calmBack | dsimp only [viewMk] | refine (State.giveBack_calm _ _ _ _).to ?_
          | apply calmIte | apply calmFold | apply calmFold1 | rfl | intro _ | split)

theorem State.releaseOldest_calm (s : State) (v : Nat) (k : Nat) :
    Calm rl s.view (State.releaseOldest s v k).view := by
  unfold State.releaseOldest
  (try dsimp only) <;> intros <;> with_reducible
      (repeat' first
          | exact .refl _ | assumption | apply calmBack | dsimp only [viewMk] | refine (State.setVol_calm _ _ _).to ?_
          | refine (State.unlose_calm _ _ _).to ?_ | apply calmIte | apply calmFold | apply calmFold1 | rfl | intro _ | split)

theorem State.accept_calm (s : State) (v : Nat) (payload : Bytes) (src : Nat) (transform : Nat) (units : Nat) (fromReserve : Bool) (part granted : Nat) :
    Calm rl s.view (State.accept s v payload src transform units fromReserve part granted).view := by
  unfold State.accept
  (try dsimp only) <;> intros <;> with_reducible
      (repeat' first
          | exact .refl _ | assumption | apply calmBack | dsimp only [viewMk] | refine (State.setVol_calm _ _ _).to ?_
          | apply calmIte | rfl | intro _ | split)

theorem State.scatter_calm (s : State) (bs : Bytes) :
    ∀ k0, Calm rl s.view (State.scatter s bs k0).view := by
  intro k0
  induction k0 generalizing s bs with
  | nil => unfold State.scatter; (try dsimp only) <;> intros <;> with_reducible
      (repeat' first
          | exact .refl _ | assumption | apply calmBack | dsimp only [viewMk] | refine (State.emit_calm _ _).to ?_ | apply calmIte
          | apply calmIte1 | rfl | intro _ | split)
  | cons x k0 ih => unfold State.scatter; (try dsimp only) <;> intros <;> with_reducible
      (repeat' first
          | exact .refl _ | assumption | apply calmBack | dsimp only [viewMk] | refine (State.emit_calm _ _).to ?_
          | refine (ih _ _).to ?_ | apply calmIte | apply calmIte1 | rfl | intro _ | split)

theorem State.setCmd_calm (s : State) (c : Cmd) :
    Calm rl s.view (State.setCmd s c).view := by
  unfold State.setCmd
  (try dsimp only) <;> intros <;> with_reducible
      (repeat' first
          | exact .refl _ | assumption | apply calmBack | dsimp only [viewMk] | refine (State.setRing_calm _ _ _).to ?_
          | apply calmIte | rfl | intro _ | split)

theorem State.startCmd_calm (s : State) (n : Nat) (tag : Nat) (opcode : Nat) (f : State → Cmd → State) (hf : ∀ s a0, Calm rl (State.view s) (f s a0).view) :
    Ends rl s.view (State.startCmd s n tag opcode f) := by
  unfold State.startCmd
  (try dsimp only) <;> intros <;> with_reducible
      (repeat' first
          | exact .refl _ | assumption | apply calmBack | dsimp only [viewMk] | refine (hf _ _).to ?_ | apply calmIte
          | apply Ends.ok | apply Ends.next | apply Ends.ite | rfl | intro _ | split)

theorem State.checked_calm (s : State) (c : Cmd) (f : State → Cmd → State) (hf : ∀ s a0, Calm rl (State.view s) (f s a0).view) :
    Calm rl s.view (State.checked s c f).view := by
  unfold State.checked
  (try dsimp only) <;> intros <;> with_reducible
      (repeat' first
          | exact .refl _ | assumption | apply calmBack | dsimp only [viewMk] | refine (State.complete_calm _ _ _ _).to ?_
          | refine (hf _ _).to ?_ | apply calmIte | rfl | intro _ | split)

theorem State.countCycle_calm (s : State) (k : Nat) :
    Calm rl s.view (State.countCycle s k).view := by
  unfold State.countCycle
  (try dsimp only) <;> intros <;> with_reducible
      (repeat' first
          | exact .refl _ | assumption | apply calmBack | dsimp only [viewMk] | refine (State.countF_calm _ _ _).to ?_
          | refine (State.record_calm _ _ _ _ _ _ _).to ?_ | apply calmIte | rfl | intro _ | split)

theorem State.askGeneral_calm (s : State) (c : Cmd) (cls : Nat) (k : Nat) :
    AdmitCalm rl s.view (State.askGeneral s c cls k) := by
  unfold State.askGeneral
  (try dsimp only) <;> intros <;> with_reducible
      (repeat' first
          | exact .refl _ | assumption | apply calmBack | dsimp only [viewMk] | refine (State.takeGeneral_calm _ _).to ?_
          | apply calmIte | apply AdmitCalm.granted | apply AdmitCalm.refused | apply AdmitCalm.held | apply AdmitCalm.ite | rfl
          | intro _ | split)

theorem State.askUnits_calm (s : State) (c : Cmd) (k : Nat) :
    AdmitCalm rl s.view (State.askUnits s c k) := by
  unfold State.askUnits
  (try dsimp only) <;> intros <;> with_reducible
      (repeat' first
          | exact .refl _ | assumption | apply calmBack | dsimp only [viewMk] | refine (State.askGeneral_calm _ _ _ _).to ?_
          | refine ((State.askGeneral_calm _ _ _ _).get (by assumption)).to ?_ | refine (State.takeReserve_calm _ _).to ?_
          | apply calmIte | apply AdmitCalm.granted | apply AdmitCalm.refused | apply AdmitCalm.held | apply AdmitCalm.ite | rfl
          | intro _ | split)

theorem State.hold_calm (s : State) (c : Cmd) (cls : Nat) (k : Nat) :
    Calm rl s.view (State.hold s c cls k).view := by
  unfold State.hold
  (try dsimp only) <;> intros <;> with_reducible
      (repeat' first
          | exact .refl _ | assumption | apply calmBack | dsimp only [viewMk] | refine (State.countClass_calm _ _ _).to ?_
          | refine (State.setCmd_calm _ _).to ?_ | refine (State.stage_calm _ _ _ _ _ _ _).to ?_ | apply calmIte | rfl | intro _
          | split)

theorem State.classify_calm (s : State) (c : Cmd) :
    Calm rl s.view (State.classify s c).1.view := by
  unfold State.classify
  (try dsimp only) <;> intros <;> with_reducible
      (repeat' first
          | exact .refl _ | assumption | apply calmBack | dsimp only [viewMk] | refine (State.countCycle_calm _ _).to ?_
          | refine (State.setCmd_calm _ _).to ?_ | refine (State.stage_calm _ _ _ _ _ _ _).to ?_ | apply calmIte | apply calmIte1
          | rfl | intro _ | split)

theorem State.noteShort_calm (s : State) (c : Cmd) (k : Nat) :
    Calm rl s.view (State.noteShort s c k).view := by
  unfold State.noteShort
  (try dsimp only) <;> intros <;> with_reducible
      (repeat' first
          | exact .refl _ | assumption | apply calmBack | dsimp only [viewMk] | refine (State.bump_calm _ _).to ?_
          | refine (State.record_calm _ _ _ _ _ _ _).to ?_ | refine (State.stage_calm _ _ _ _ _ _ _).to ?_ | apply calmIte | rfl
          | intro _ | split)

theorem State.latchFault_calm (s : State) (c : Cmd) (d : Desc) (code : Nat) :
    Calm rl s.view (State.latchFault s c d code).view := by
  unfold State.latchFault
  (try dsimp only) <;> intros <;> with_reducible
      (repeat' first
          | exact .refl _ | assumption | apply calmBack | dsimp only [viewMk] | refine (State.bump_calm _ _).to ?_
          | refine (State.record_calm _ _ _ _ _ _ _).to ?_ | refine (State.setChan_calm _ _ _).to ?_ | apply calmIte
          | apply RanCalm.done | apply RanCalm.jump | apply RanCalm.stay | apply RanCalm.fault | apply RanCalm.ite | rfl | intro _
          | split)

theorem State.dmaFault_calm (s : State) (c : Cmd) (d : Desc) (code : Nat) :
    Calm rl s.view (State.dmaFault s c d code).view := by
  unfold State.dmaFault
  (try dsimp only) <;> intros <;> with_reducible
      (repeat' first
          | exact .refl _ | assumption | apply calmBack | dsimp only [viewMk] | refine (State.complete_calm _ _ _ _).to ?_
          | refine (State.giveBack_calm _ _ _ _).to ?_ | refine (State.latchFault_calm _ _ _ _).to ?_ | apply calmIte | rfl
          | intro _ | split)

theorem State.applyBlocks_calm (s : State) (c : Cmd) (group : Nat) (first : Nat) (bytesIn : Nat) (data : Bytes) :
    ∀ k0, Calm rl s.view (State.applyBlocks s c group first bytesIn data k0).view := by
  intro k0
  induction k0 generalizing s c group first bytesIn data with
  | zero => unfold State.applyBlocks; (try dsimp only) <;> intros <;> with_reducible
      (repeat' first
          | exact .refl _ | assumption | apply calmBack | dsimp only [viewMk] | refine (State.dropStaged_calm _ _ _).to ?_
          | refine (State.stageBlock_calm _ _ _ _ _ _ _ _).to ?_ | apply calmIte | rfl | intro _ | split)
  | succ k0 ih => unfold State.applyBlocks; (try dsimp only) <;> intros <;> with_reducible
      (repeat' first
          | exact .refl _ | assumption | apply calmBack | dsimp only [viewMk] | refine (State.dropStaged_calm _ _ _).to ?_
          | refine (State.stageBlock_calm _ _ _ _ _ _ _ _).to ?_ | refine (ih _ _ _ _ _ _).to ?_ | apply calmIte | rfl | intro _
          | split)

theorem State.applyWrite_calm (s : State) (c : Cmd) (data : Bytes) :
    Calm rl s.view (State.applyWrite s c data).view := by
  unfold State.applyWrite
  (try dsimp only) <;> intros <;> with_reducible
      (repeat' first
          | exact .refl _ | assumption | apply calmBack | dsimp only [viewMk] | refine (State.applyBlocks_calm _ _ _ _ _ _ _).to ?_
          | refine (State.complete_calm _ _ _ _).to ?_ | apply calmIte | apply calmIte1 | rfl | intro _ | split)

theorem State.acceptInto_calm (s : State) (c : Cmd) (data : Bytes) :
    Calm rl s.view (State.acceptInto s c data).1.view := by
  unfold State.acceptInto
  (try dsimp only) <;> intros <;> with_reducible
      (repeat' first
          | exact .refl _ | assumption | apply calmBack | dsimp only [viewMk] | refine (State.accept_calm _ _ _ _ _ _ _ _ _).to ?_
          | refine (State.giveBack_calm _ _ _ _).to ?_ | refine (State.releaseOldest_calm _ _ _).to ?_ | apply calmIte
          | apply calmIte1 | rfl | intro _ | split)

theorem State.acceptNow_calm (s : State) (c : Cmd) (data : Bytes) :
    Calm rl s.view (State.acceptNow s c data).view := by
  unfold State.acceptNow
  (try dsimp only) <;> intros <;> with_reducible
      (repeat' first
          | exact .refl _ | assumption | apply calmBack | dsimp only [viewMk] | refine (State.acceptInto_calm _ _ _).to ?_
          | refine (State.complete_calm _ _ _ _).to ?_ | apply calmIte | apply calmIte1 | rfl | intro _ | split)

theorem State.acceptReady_calm (s : State) (n : Nat) (v : Nat) :
    ∀ k0, Calm rl s.view (State.acceptReady s n v k0).view := by
  intro k0
  induction k0 generalizing s n v with
  | zero => unfold State.acceptReady; (try dsimp only) <;> intros <;> with_reducible
      (repeat' first
          | exact .refl _ | assumption | apply calmBack | dsimp only [viewMk] | refine (State.acceptNow_calm _ _ _).to ?_
          | refine (State.stage_calm _ _ _ _ _ _ _).to ?_ | apply calmIte | rfl | intro _ | split)
  | succ k0 ih => unfold State.acceptReady; (try dsimp only) <;> intros <;> with_reducible
      (repeat' first
          | exact .refl _ | assumption | apply calmBack | dsimp only [viewMk] | refine (State.acceptNow_calm _ _ _).to ?_
          | refine (State.stage_calm _ _ _ _ _ _ _).to ?_ | refine (ih _ _ _).to ?_ | apply calmIte | rfl | intro _ | split)

theorem State.applyAppend_calm (s : State) (c : Cmd) (data : Bytes) :
    Calm rl s.view (State.applyAppend s c data).view := by
  unfold State.applyAppend
  (try dsimp only) <;> intros <;> with_reducible
      (repeat' first
          | exact .refl _ | assumption | apply calmBack | dsimp only [viewMk] | refine (State.acceptNow_calm _ _ _).to ?_
          | refine (State.acceptReady_calm _ _ _ _).to ?_ | refine (State.setCmd_calm _ _).to ?_
          | refine (State.stage_calm _ _ _ _ _ _ _).to ?_ | apply calmIte | rfl | intro _ | split)

theorem State.afterAppend_calm (s : State) (c : Cmd) :
    Calm rl s.view (State.afterAppend s c).view := by
  unfold State.afterAppend
  (try dsimp only) <;> intros <;> with_reducible
      (repeat' first
          | exact .refl _ | assumption | apply calmBack | dsimp only [viewMk] | refine (State.acceptReady_calm _ _ _ _).to ?_
          | apply calmIte | rfl | intro _ | split)

theorem State.applyIn_calm (s : State) (c : Cmd) (data : Bytes) :
    Calm rl s.view (State.applyIn s c data).view := by
  unfold State.applyIn
  (try dsimp only) <;> intros <;> with_reducible
      (repeat' first
          | exact .refl _ | assumption | apply calmBack | dsimp only [viewMk] | refine (State.applyAppend_calm _ _ _).to ?_
          | refine (State.applyWrite_calm _ _ _).to ?_ | apply calmIte | rfl | intro _ | split)

theorem State.moveIn_calm (s : State) (c : Cmd) (n : Nat) (x : Xfer) :
    Calm rl s.view (State.moveIn s c n x).view := by
  unfold State.moveIn
  (try dsimp only) <;> intros <;> with_reducible
      (repeat' first
          | exact .refl _ | assumption | apply calmBack | dsimp only [viewMk] | refine (State.afterAppend_calm _ _).to ?_
          | refine (State.applyIn_calm _ _ _).to ?_ | refine (State.complete_calm _ _ _ _).to ?_
          | refine (State.dmaFault_calm _ _ _ _).to ?_ | refine (State.giveBack_calm _ _ _ _).to ?_
          | refine (State.setCmd_calm _ _).to ?_ | refine (State.stage_calm _ _ _ _ _ _ _).to ?_ | apply calmIte
          | apply RanCalm.done | apply RanCalm.jump | apply RanCalm.stay | apply RanCalm.fault | apply RanCalm.ite | rfl | intro _
          | split)

theorem State.startWrite_calm (s : State) (c0 : Cmd) (x : Xfer) :
    Calm rl s.view (State.startWrite s c0 x).view := by
  unfold State.startWrite
  (try dsimp only) <;> intros <;> with_reducible
      (repeat' first
          | exact .refl _ | assumption | apply calmBack | dsimp only [viewMk] | refine (State.afterAppend_calm _ _).to ?_
          | refine (State.askUnits_calm _ _ _).to ?_ | refine ((State.askUnits_calm _ _ _).get (by assumption)).to ?_
          | refine (State.checked_calm _ _ _ ?_).to ?_ | refine (State.classify_calm _ _).to ?_
          | refine (State.complete_calm _ _ _ _).to ?_ | refine (State.hold_calm _ _ _ _).to ?_
          | refine (State.moveIn_calm _ _ _ _).to ?_ | refine (State.noteShort_calm _ _ _).to ?_
          | refine (State.setCmd_calm _ _).to ?_ | apply calmIte | apply calmIte1 | rfl | intro _ | split)

theorem State.moveOut_calm (s : State) (c : Cmd) (n : Nat) (data : Bytes) (status : Nat) (result : Bytes) (x : Xfer) :
    Calm rl s.view (State.moveOut s c n data status result x).view := by
  unfold State.moveOut
  (try dsimp only) <;> intros <;> with_reducible
      (repeat' first
          | exact .refl _ | assumption | apply calmBack | dsimp only [viewMk] | refine (State.complete_calm _ _ _ _).to ?_
          | refine (State.dmaFault_calm _ _ _ _).to ?_ | refine (State.scatter_calm _ _ _).to ?_
          | refine (State.setCmd_calm _ _).to ?_ | refine (State.stage_calm _ _ _ _ _ _ _).to ?_ | apply calmIte
          | apply RanCalm.done | apply RanCalm.jump | apply RanCalm.stay | apply RanCalm.fault | apply RanCalm.ite | rfl | intro _
          | split)

theorem State.startFlush_calm (s : State) (c0 : Cmd) :
    Calm rl s.view (State.startFlush s c0).view := by
  unfold State.startFlush
  (try dsimp only) <;> intros <;> with_reducible
      (repeat' first
          | exact .refl _ | assumption | apply calmBack | dsimp only [viewMk] | refine (State.checked_calm _ _ _ ?_).to ?_
          | refine (State.complete_calm _ _ _ _).to ?_ | refine (State.setCmd_calm _ _).to ?_
          | refine (State.stage_calm _ _ _ _ _ _ _).to ?_ | apply calmIte | rfl | intro _ | split)

theorem State.trimBlocks_calm (s : State) (v : Nat) (first : Nat) :
    ∀ k0, Calm rl s.view (State.trimBlocks s v first k0).view := by
  intro k0
  induction k0 generalizing s v first with
  | zero => unfold State.trimBlocks; (try dsimp only) <;> intros <;> with_reducible
      (repeat' first
          | exact .refl _ | assumption | apply calmBack | dsimp only [viewMk] | refine (State.dropStaged_calm _ _ _).to ?_
          | refine (State.journal_calm _ _).to ?_ | refine (State.setBlk_calm _ _ _ _).to ?_
          | refine (State.unlose_calm _ _ _).to ?_ | apply calmIte | rfl | intro _ | split)
  | succ k0 ih => unfold State.trimBlocks; (try dsimp only) <;> intros <;> with_reducible
      (repeat' first
          | exact .refl _ | assumption | apply calmBack | dsimp only [viewMk] | refine (State.dropStaged_calm _ _ _).to ?_
          | refine (State.journal_calm _ _).to ?_ | refine (State.setBlk_calm _ _ _ _).to ?_
          | refine (State.unlose_calm _ _ _).to ?_ | refine (ih _ _ _).to ?_ | apply calmIte | rfl | intro _ | split)

theorem State.trimPart_calm (s : State) (v : Nat) (b : Nat) (lo : Nat) (hi : Nat) :
    Calm rl s.view (State.trimPart s v b lo hi).view := by
  unfold State.trimPart
  (try dsimp only) <;> intros <;> with_reducible
      (repeat' first
          | exact .refl _ | assumption | apply calmBack | dsimp only [viewMk] | refine (State.journal_calm _ _).to ?_
          | refine (State.setBlk_calm _ _ _ _).to ?_ | apply calmIte | rfl | intro _ | split)

theorem State.trimWhole_calm (s : State) (v : Nat) (first : Nat) (n : Nat) :
    Calm rl s.view (State.trimWhole s v first n).view := by
  unfold State.trimWhole
  (try dsimp only) <;> intros <;> with_reducible
      (repeat' first
          | exact .refl _ | assumption | apply calmBack | dsimp only [viewMk] | refine (State.dropStaged_calm _ _ _).to ?_
          | refine (State.journal_calm _ _).to ?_ | refine (State.setBlk_calm _ _ _ _).to ?_
          | refine (State.unlose_calm _ _ _).to ?_ | apply calmIte | apply calmFold | apply calmFold1 | rfl | intro _ | split)

theorem State.startTrim_calm (s : State) (c0 : Cmd) :
    Calm rl s.view (State.startTrim s c0).view := by
  unfold State.startTrim
  (try dsimp only) <;> intros <;> with_reducible
      (repeat' first
          | exact .refl _ | assumption | apply calmBack | dsimp only [viewMk] | refine (State.checked_calm _ _ _ ?_).to ?_
          | refine (State.complete_calm _ _ _ _).to ?_ | refine (State.trimPart_calm _ _ _ _ _).to ?_
          | refine (State.trimWhole_calm _ _ _ _).to ?_ | apply calmIte | rfl | intro _ | split)

theorem State.startSeal_calm (s : State) (c0 : Cmd) :
    Calm rl s.view (State.startSeal s c0).view := by
  unfold State.startSeal
  (try dsimp only) <;> intros <;> with_reducible
      (repeat' first
          | exact .refl _ | assumption | apply calmBack | dsimp only [viewMk] | refine (State.checked_calm _ _ _ ?_).to ?_
          | refine (State.commit_calm _).to ?_ | refine (State.complete_calm _ _ _ _).to ?_ | refine (State.setVol_calm _ _ _).to ?_
          | apply calmIte | rfl | intro _ | split)

theorem State.addPin_calm (s : State) (v : Nat) (handle : Nat) (rs : List SRec) :
    Calm rl s.view (State.addPin s v handle rs).view := by
  unfold State.addPin
  (try dsimp only) <;> intros <;> with_reducible
      (repeat' first
          | exact .refl _ | assumption | apply calmBack | dsimp only [viewMk] | refine (State.commit_calm _).to ?_ | apply calmIte
          | rfl | intro _ | split)

theorem State.pinRecords_calm (s : State) (c : Cmd) (rs : List SRec) (gap : Bool) :
    Calm rl s.view (State.pinRecords s c rs gap).view := by
  unfold State.pinRecords
  (try dsimp only) <;> intros <;> with_reducible
      (repeat' first
          | exact .refl _ | assumption | apply calmBack | dsimp only [viewMk] | refine (State.addPin_calm _ _ _ _).to ?_
          | refine (State.complete_calm _ _ _ _).to ?_ | apply calmIte | rfl | intro _ | split)

theorem State.startPinSeq_calm (s : State) (c0 : Cmd) :
    Calm rl s.view (State.startPinSeq s c0).view := by
  unfold State.startPinSeq
  (try dsimp only) <;> intros <;> with_reducible
      (repeat' first
          | exact .refl _ | assumption | apply calmBack | dsimp only [viewMk] | refine (State.checked_calm _ _ _ ?_).to ?_
          | refine (State.pinRecords_calm _ _ _ _).to ?_ | apply calmIte | rfl | intro _ | split)

theorem State.startPinTime_calm (s : State) (c0 : Cmd) :
    Calm rl s.view (State.startPinTime s c0).view := by
  unfold State.startPinTime
  (try dsimp only) <;> intros <;> with_reducible
      (repeat' first
          | exact .refl _ | assumption | apply calmBack | dsimp only [viewMk] | refine (State.checked_calm _ _ _ ?_).to ?_
          | refine (State.pinRecords_calm _ _ _ _).to ?_ | apply calmIte | rfl | intro _ | split)

theorem State.startPinRelease_calm (s : State) (c0 : Cmd) :
    Calm rl s.view (State.startPinRelease s c0).view := by
  unfold State.startPinRelease
  (try dsimp only) <;> intros <;> with_reducible
      (repeat' first
          | exact .refl _ | assumption | apply calmBack | dsimp only [viewMk] | refine (State.checked_calm _ _ _ ?_).to ?_
          | refine (State.commit_calm _).to ?_ | refine (State.complete_calm _ _ _ _).to ?_ | apply calmIte | rfl | intro _ | split)

theorem State.startPin_calm (s : State) (n : Nat) (tag : Nat) (form : Nat) (f : State → Cmd → State) (hf : ∀ s a0, Calm rl (State.view s) (f s a0).view) :
    Ends rl s.view (State.startPin s n tag form f) := by
  unfold State.startPin
  (try dsimp only) <;> intros <;> with_reducible
      (repeat' first
          | exact .refl _ | assumption | apply calmBack | dsimp only [viewMk] | refine (State.startCmd_calm _ _ _ _ _ ?_).to ?_
          | refine ((State.startCmd_calm _ _ _ _ _ ?_).get (by assumption)).to ?_ | refine (hf _ _).to ?_ | apply calmIte
          | apply Ends.ok | apply Ends.next | apply Ends.ite | rfl | intro _ | split)

theorem execWrite_calm (s : State) (n : Fin 8) (tag : BitVec 5) (x : Xfer) :
    Ends rl s.view (execWrite n tag x s) := by
  unfold execWrite
  (try dsimp only) <;> intros <;> with_reducible
      (repeat' first
          | exact .refl _ | assumption | apply calmBack | dsimp only [viewMk] | refine (State.startCmd_calm _ _ _ _ _ ?_).to ?_
          | refine ((State.startCmd_calm _ _ _ _ _ ?_).get (by assumption)).to ?_ | refine (State.startWrite_calm _ _ _).to ?_
          | apply calmIte | apply Ends.ok | apply Ends.next | apply Ends.ite | rfl | intro _ | split)

theorem execWriteAtomic_calm (s : State) (n : Fin 8) (tag : BitVec 5) (x : Xfer) :
    Ends rl s.view (execWriteAtomic n tag x s) := by
  unfold execWriteAtomic
  (try dsimp only) <;> intros <;> with_reducible
      (repeat' first
          | exact .refl _ | assumption | apply calmBack | dsimp only [viewMk] | refine (State.startCmd_calm _ _ _ _ _ ?_).to ?_
          | refine ((State.startCmd_calm _ _ _ _ _ ?_).get (by assumption)).to ?_ | refine (State.startWrite_calm _ _ _).to ?_
          | apply calmIte | apply Ends.ok | apply Ends.next | apply Ends.ite | rfl | intro _ | split)

theorem execAppend_calm (s : State) (n : Fin 8) (tag : BitVec 5) (x : Xfer) :
    Ends rl s.view (execAppend n tag x s) := by
  unfold execAppend
  (try dsimp only) <;> intros <;> with_reducible
      (repeat' first
          | exact .refl _ | assumption | apply calmBack | dsimp only [viewMk] | refine (State.startCmd_calm _ _ _ _ _ ?_).to ?_
          | refine ((State.startCmd_calm _ _ _ _ _ ?_).get (by assumption)).to ?_ | refine (State.startWrite_calm _ _ _).to ?_
          | apply calmIte | apply Ends.ok | apply Ends.next | apply Ends.ite | rfl | intro _ | split)

theorem execFlush_calm (s : State) (n : Fin 8) (tag : BitVec 5) :
    Ends rl s.view (execFlush n tag s) := by
  unfold execFlush
  (try dsimp only) <;> intros <;> with_reducible
      (repeat' first
          | exact .refl _ | assumption | apply calmBack | dsimp only [viewMk] | refine (State.startCmd_calm _ _ _ _ _ ?_).to ?_
          | refine ((State.startCmd_calm _ _ _ _ _ ?_).get (by assumption)).to ?_ | refine (State.startFlush_calm _ _).to ?_
          | apply calmIte | apply Ends.ok | apply Ends.next | apply Ends.ite | rfl | intro _ | split)

theorem execTrim_calm (s : State) (n : Fin 8) (tag : BitVec 5) :
    Ends rl s.view (execTrim n tag s) := by
  unfold execTrim
  (try dsimp only) <;> intros <;> with_reducible
      (repeat' first
          | exact .refl _ | assumption | apply calmBack | dsimp only [viewMk] | refine (State.startCmd_calm _ _ _ _ _ ?_).to ?_
          | refine ((State.startCmd_calm _ _ _ _ _ ?_).get (by assumption)).to ?_ | refine (State.startTrim_calm _ _).to ?_
          | apply calmIte | apply Ends.ok | apply Ends.next | apply Ends.ite | rfl | intro _ | split)

theorem execSealStream_calm (s : State) (n : Fin 8) (tag : BitVec 5) :
    Ends rl s.view (execSealStream n tag s) := by
  unfold execSealStream
  (try dsimp only) <;> intros <;> with_reducible
      (repeat' first
          | exact .refl _ | assumption | apply calmBack | dsimp only [viewMk] | refine (State.startCmd_calm _ _ _ _ _ ?_).to ?_
          | refine ((State.startCmd_calm _ _ _ _ _ ?_).get (by assumption)).to ?_ | refine (State.startSeal_calm _ _).to ?_
          | apply calmIte | apply Ends.ok | apply Ends.next | apply Ends.ite | rfl | intro _ | split)

theorem execPinBySequence_calm (s : State) (n : Fin 8) (tag : BitVec 5) :
    Ends rl s.view (execPinBySequence n tag s) := by
  unfold execPinBySequence
  (try dsimp only) <;> intros <;> with_reducible
      (repeat' first
          | exact .refl _ | assumption | apply calmBack | dsimp only [viewMk] | refine (State.startPinSeq_calm _ _).to ?_
          | refine (State.startPin_calm _ _ _ _ _ ?_).to ?_ | refine ((State.startPin_calm _ _ _ _ _ ?_).get (by assumption)).to ?_
          | apply calmIte | apply Ends.ok | apply Ends.next | apply Ends.ite | rfl | intro _ | split)

theorem execPinByTime_calm (s : State) (n : Fin 8) (tag : BitVec 5) :
    Ends rl s.view (execPinByTime n tag s) := by
  unfold execPinByTime
  (try dsimp only) <;> intros <;> with_reducible
      (repeat' first
          | exact .refl _ | assumption | apply calmBack | dsimp only [viewMk] | refine (State.startPinTime_calm _ _).to ?_
          | refine (State.startPin_calm _ _ _ _ _ ?_).to ?_ | refine ((State.startPin_calm _ _ _ _ _ ?_).get (by assumption)).to ?_
          | apply calmIte | apply Ends.ok | apply Ends.next | apply Ends.ite | rfl | intro _ | split)

theorem execPinRelease_calm (s : State) (n : Fin 8) (tag : BitVec 5) :
    Ends rl s.view (execPinRelease n tag s) := by
  unfold execPinRelease
  (try dsimp only) <;> intros <;> with_reducible
      (repeat' first
          | exact .refl _ | assumption | apply calmBack | dsimp only [viewMk] | refine (State.startPinRelease_calm _ _).to ?_
          | refine (State.startPin_calm _ _ _ _ _ ?_).to ?_ | refine ((State.startPin_calm _ _ _ _ _ ?_).get (by assumption)).to ?_
          | apply calmIte | apply Ends.ok | apply Ends.next | apply Ends.ite | rfl | intro _ | split)

theorem execBudgetWindowEnd_calm (s : State) :
    Ends rl s.view (execBudgetWindowEnd s) := by
  unfold execBudgetWindowEnd
  (try dsimp only) <;> intros <;> with_reducible
      (repeat' first
          | exact .refl _ | assumption | apply calmBack | dsimp only [viewMk] | refine (State.setF_calm _ _ _).to ?_ | apply calmIte
          | apply Ends.ok | apply Ends.next | apply Ends.ite | rfl | intro _ | split)

theorem State.draw_calm (s : State) (k : Nat) :
    Calm rl s.view (State.draw s k).1.view := by
  unfold State.draw
  (try dsimp only) <;> intros <;> with_reducible
      (repeat' first
          | exact .refl _ | assumption | apply calmBack | dsimp only [viewMk] | apply calmIte | apply calmIte1 | rfl | intro _
          | split)

theorem State.voidChal_calm (s : State) (path : Nat) :
    Calm rl s.view (State.voidChal s path).view := by
  unfold State.voidChal
  (try dsimp only) <;> intros <;> with_reducible
      (repeat' first
          | exact .refl _ | assumption | apply calmBack | dsimp only [viewMk] | apply calmIte | rfl | intro _ | split)

theorem State.setRole_calm (s : State) (path : Nat) (role : Nat) (h : rl = true → role = 0) :
    Calm rl s.view (State.setRole s path role).view := by
  unfold State.setRole
  have h1 : Calm rl s.view (s.voidChal path).view := State.voidChal_calm _ _
  have h2 : Calm rl s.view (if s.roleOf path = 0 then s.voidChal path
      else (s.voidChal path).record 0x6022 Src.sec path (s.roleOf path) (s.voidChal path).lastChal).view :=
    calmIte h1 ((State.record_calm _ _ _ _ _ _ _).to h1)
  dsimp only
  generalize (if s.roleOf path = 0 then s.voidChal path
      else (s.voidChal path).record 0x6022 Src.sec path (s.roleOf path) (s.voidChal path).lastChal) = u at h2 ⊢
  split
  · exact .refl _
  · split
    · exact .of h2.queue h2.floor h2.amber fun e => by subst e; exact ⟨by simp [h rfl], h2.roles.2⟩
    · exact .of h2.queue h2.floor h2.amber fun e => by subst e; exact ⟨h2.roles.1, by simp [h rfl], h2.roles.2.2⟩
    · exact .of h2.queue h2.floor h2.amber fun e => by subst e; exact ⟨h2.roles.1, h2.roles.2.1, by simp [h rfl]⟩

theorem State.endPath_calm (s : State) (path : Nat) :
    Calm rl s.view (State.endPath s path).view := by
  unfold State.endPath
  (try dsimp only) <;> intros <;> with_reducible
      (repeat' first
          | exact .refl _ | assumption | apply calmBack | dsimp only [viewMk] | refine (State.setRole_calm _ _ _ ?_).to ?_
          | refine (State.voidChal_calm _ _).to ?_ | apply calmIte | contradiction | rfl | intro _ | split)

theorem execMakerRoleExpiry_calm (s : State) (path : Fin 3) :
    Ends rl s.view (execMakerRoleExpiry path s) := by
  unfold execMakerRoleExpiry
  (try dsimp only) <;> intros <;> with_reducible
      (repeat' first
          | exact .refl _ | assumption | apply calmBack | dsimp only [viewMk] | refine (State.setRole_calm _ _ _ ?_).to ?_
          | apply calmIte | contradiction | apply Ends.ok | apply Ends.next | apply Ends.ite | rfl | intro _ | split)

theorem State.takeChal_calm (s : State) :
    Calm rl s.view (State.takeChal s).1.view := by
  unfold State.takeChal
  (try dsimp only) <;> intros <;> with_reducible
      (repeat' first
          | exact .refl _ | assumption | apply calmBack | dsimp only [viewMk] | refine (State.commit_calm _).to ?_ | apply calmIte
          | apply calmIte1 | rfl | intro _ | split)

theorem State.issueChal_calm (s : State) (path : Nat) (role : Nat) :
    Calm rl s.view (State.issueChal s path role).1.view := by
  unfold State.issueChal
  (try dsimp only) <;> intros <;> with_reducible
      (repeat' first
          | exact .refl _ | assumption | apply calmBack | dsimp only [viewMk] | refine (State.draw_calm _ _).to ?_
          | refine (State.takeChal_calm _).to ?_ | apply calmIte | apply calmIte1 | rfl | intro _ | split)

theorem execChallengeExpiry_calm (s : State) (path : Fin 3) :
    Ends rl s.view (execChallengeExpiry path s) := by
  unfold execChallengeExpiry
  (try dsimp only) <;> intros <;> with_reducible
      (repeat' first
          | exact .refl _ | assumption | apply calmBack | dsimp only [viewMk] | refine (State.voidChal_calm _ _).to ?_
          | apply calmIte | apply Ends.ok | apply Ends.next | apply Ends.ite | rfl | intro _ | split)

theorem State.reject_calm (s : State) (path : Nat) (role : Nat) :
    Calm rl s.view (State.reject s path role).view := by
  unfold State.reject
  (try dsimp only) <;> intros <;> with_reducible
      (repeat' first
          | exact .refl _ | assumption | apply calmBack | dsimp only [viewMk] | refine (State.bump_calm _ _).to ?_
          | refine (State.commit_calm _).to ?_ | refine (State.record_calm _ _ _ _ _ _ _).to ?_ | apply calmIte | rfl | intro _
          | split)

theorem State.grant_calm (s : State) (path : Nat) (role : Nat) (n : Nat) :
    Calm false s.view (State.grant s path role n).view := by
  unfold State.grant
  (try dsimp only) <;> intros <;> with_reducible
      (repeat' first
          | exact .refl _ | assumption | apply calmBack | dsimp only [viewMk] | refine (State.commit_calm _).to ?_
          | refine (State.record_calm _ _ _ _ _ _ _).to ?_ | refine (State.setRole_calm _ _ _ ?_).to ?_ | apply calmIte
          | contradiction | rfl | intro _ | split)

theorem State.respond_calm (s : State) (path : Nat) (data : Bytes) :
    Calm false s.view (State.respond s path data).1.view := by
  unfold State.respond
  (try dsimp only) <;> intros <;> with_reducible
      (repeat' first
          | exact .refl _ | assumption | apply calmBack | dsimp only [viewMk] | refine (State.grant_calm _ _ _ _).to ?_
          | refine (State.reject_calm _ _ _).to ?_ | refine (State.voidChal_calm _ _).to ?_ | apply calmIte | apply calmIte1 | rfl
          | intro _ | split)

theorem execChallengeHoldEnd_calm (s : State) (path : Fin 3) :
    Ends rl s.view (execChallengeHoldEnd path s) := by
  unfold execChallengeHoldEnd
  (try dsimp only) <;> intros <;> with_reducible
      (repeat' first
          | exact .refl _ | assumption | apply calmBack | dsimp only [viewMk] | apply calmIte | apply Ends.ok | apply Ends.next
          | apply Ends.ite | rfl | intro _ | split)

theorem State.setFlint_calm (s : State) (f : Flint) :
    Calm rl s.view (State.setFlint s f).view := by
  unfold State.setFlint
  (try dsimp only) <;> intros <;> with_reducible
      (repeat' first
          | exact .refl _ | assumption | apply calmBack | dsimp only [viewMk] | apply calmIte | rfl | intro _ | split)

theorem State.failEntropy_calm (s : State) :
    Calm rl s.view (State.failEntropy s).view := by
  unfold State.failEntropy
  (try dsimp only) <;> intros <;> with_reducible
      (repeat' first
          | exact .refl _ | assumption | apply calmBack | dsimp only [viewMk] | refine (State.complete_calm _ _ _ _).to ?_
          | refine (State.stage_calm _ _ _ _ _ _ _).to ?_ | apply calmIte | apply calmFold | apply calmFold1 | rfl | intro _
          | split)

theorem State.healthFail_calm (s : State) (test : Nat) (count : Nat) :
    Calm rl s.view (State.healthFail s test count).view := by
  unfold State.healthFail
  (try dsimp only) <;> intros <;> with_reducible
      (repeat' first
          | exact .refl _ | assumption | apply calmBack | dsimp only [viewMk] | refine (State.bump_calm _ _).to ?_
          | refine (State.failEntropy_calm _).to ?_ | refine (State.record_calm _ _ _ _ _ _ _).to ?_
          | refine (State.setFlint_calm _ _).to ?_ | apply calmIte | rfl | intro _ | split)

theorem State.windowPass_calm (s : State) :
    Calm rl s.view (State.windowPass s).view := by
  unfold State.windowPass
  (try dsimp only) <;> intros <;> with_reducible
      (repeat' first
          | exact .refl _ | assumption | apply calmBack | dsimp only [viewMk] | refine (State.countF_calm _ _ _).to ?_
          | refine (State.record_calm _ _ _ _ _ _ _).to ?_ | refine (State.setFlint_calm _ _).to ?_ | apply calmIte | rfl | intro _
          | split)

theorem execFlintWindow_calm (s : State) (rct : BitVec 11) (apt : BitVec 11) :
    Ends rl s.view (execFlintWindow rct apt s) := by
  unfold execFlintWindow
  (try dsimp only) <;> intros <;> with_reducible
      (repeat' first
          | exact .refl _ | assumption | apply calmBack | dsimp only [viewMk] | refine (State.healthFail_calm _ _ _).to ?_
          | refine (State.setF_calm _ _ _).to ?_ | refine (State.windowPass_calm _).to ?_ | apply calmIte | apply Ends.ok
          | apply Ends.next | apply Ends.ite | rfl | intro _ | split)

theorem execFlintRerun_calm (s : State) :
    Ends rl s.view (execFlintRerun s) := by
  unfold execFlintRerun
  (try dsimp only) <;> intros <;> with_reducible
      (repeat' first
          | exact .refl _ | assumption | apply calmBack | dsimp only [viewMk] | refine (State.setFlint_calm _ _).to ?_
          | apply calmIte | apply Ends.ok | apply Ends.next | apply Ends.ite | rfl | intro _ | split)

theorem execDrbgReseed_calm (s : State) :
    Ends rl s.view (execDrbgReseed s) := by
  unfold execDrbgReseed
  (try dsimp only) <;> intros <;> with_reducible
      (repeat' first
          | exact .refl _ | assumption | apply calmBack | dsimp only [viewMk] | refine (State.setFlint_calm _ _).to ?_
          | apply calmIte | apply Ends.ok | apply Ends.next | apply Ends.ite | rfl | intro _ | split)

theorem State.scramblerSeed_calm (s : State) :
    Calm rl s.view (State.scramblerSeed s).1.view := by
  unfold State.scramblerSeed
  (try dsimp only) <;> intros <;> with_reducible
      (repeat' first
          | exact .refl _ | assumption | apply calmBack | dsimp only [viewMk] | refine (State.draw_calm _ _).to ?_
          | refine (State.setFlint_calm _ _).to ?_ | apply calmIte | apply calmIte1 | rfl | intro _ | split)

theorem execJtagInstruction_calm (s : State) (i : JtagInstr) :
    Ends rl s.view (execJtagInstruction i s) := by
  unfold execJtagInstruction
  (try dsimp only) <;> intros <;> with_reducible
      (repeat' first
          | exact .refl _ | assumption | apply calmBack | dsimp only [viewMk] | apply calmIte | apply Ends.ok | apply Ends.next
          | apply Ends.ite | rfl | intro _ | split)

theorem execTapReset_calm (s : State) :
    Ends rl s.view (execTapReset s) := by
  unfold execTapReset
  (try dsimp only) <;> intros <;> with_reducible
      (repeat' first
          | exact .refl _ | assumption | apply calmBack | dsimp only [viewMk] | refine (State.endPath_calm _ _).to ?_
          | apply calmIte | apply Ends.ok | apply Ends.next | apply Ends.ite | rfl | intro _ | split)

theorem execQkchalRead_calm (s : State) :
    Ends rl s.view (execQkchalRead s) := by
  unfold execQkchalRead
  (try dsimp only) <;> intros <;> with_reducible
      (repeat' first
          | exact .refl _ | assumption | apply calmBack | dsimp only [viewMk] | refine (State.emit_calm _ _).to ?_
          | refine (State.issueChal_calm _ _ _).to ?_ | apply calmIte | apply calmIte1 | apply Ends.ok | apply Ends.next
          | apply Ends.ite | rfl | intro _ | split)

theorem execQkrespWrite_calm (s : State) (data : BitVec 384) :
    Ends false s.view (execQkrespWrite data s) := by
  unfold execQkrespWrite
  (try dsimp only) <;> intros <;> with_reducible
      (repeat' first
          | exact .refl _ | assumption | apply calmBack | dsimp only [viewMk] | refine (State.respond_calm _ _ _).to ?_
          | apply calmIte | apply calmIte1 | apply Ends.ok | apply Ends.next | apply Ends.ite | rfl | intro _ | split)

theorem State.issueSync_calm (s : State) :
    Calm rl s.view (State.issueSync s).view := by
  unfold State.issueSync
  (try dsimp only) <;> intros <;> with_reducible
      (repeat' first
          | exact .refl _ | assumption | apply calmBack | dsimp only [viewMk] | refine (State.emit_calm _ _).to ?_ | apply calmIte
          | rfl | intro _ | split)

theorem State.startSync_calm (s : State) (t : Nat) (i : Nat) :
    Calm rl s.view (State.startSync s t i).view := by
  unfold State.startSync
  (try dsimp only) <;> intros <;> with_reducible
      (repeat' first
          | exact .refl _ | assumption | apply calmBack | dsimp only [viewMk] | refine (State.bump_calm _ _).to ?_
          | refine (State.issueSync_calm _).to ?_ | refine (State.record_calm _ _ _ _ _ _ _).to ?_
          | refine (State.setF_calm _ _ _).to ?_ | apply calmIte | rfl | intro _ | split)

theorem execTableSync_calm (s : State) (p : Path) (table : BitVec 3) (index : BitVec 8) :
    Ends rl s.view (execTableSync p table index s) := by
  unfold execTableSync
  (try dsimp only) <;> intros <;> with_reducible
      (repeat' first
          | exact .refl _ | assumption | apply calmBack | dsimp only [viewMk] | refine (State.asWrite_calm _ _ ?_).to ?_
          | refine ((State.asWrite_calm _ _ ?_).get (by assumption)).to ?_ | refine (State.ignoredWrite_calm _).to ?_
          | refine (State.startSync_calm _ _ _).to ?_ | apply calmIte | apply Ends.ok | apply Ends.next | apply Ends.ite | rfl
          | intro _ | split)

theorem State.rejectSync_calm (s : State) (y : Sync) :
    Calm rl s.view (State.rejectSync s y).view := by
  unfold State.rejectSync
  (try dsimp only) <;> intros <;> with_reducible
      (repeat' first
          | exact .refl _ | assumption | apply calmBack | dsimp only [viewMk] | refine (State.bump_calm _ _).to ?_
          | refine (State.record_calm _ _ _ _ _ _ _).to ?_ | refine (State.setF_calm _ _ _).to ?_ | apply calmIte | rfl | intro _
          | split)

theorem State.takeConnEntry_calm (s : State) (i : Nat) (b : Bytes) :
    Calm rl s.view (State.takeConnEntry s i b).view := by
  unfold State.takeConnEntry
  (try dsimp only) <;> intros <;> with_reducible
      (repeat' first
          | exact .refl _ | assumption | apply calmBack | dsimp only [viewMk] | apply calmIte | rfl | intro _ | split)

theorem State.readmitLun_calm (s : State) (n : Nat) (old : Bytes) (new : Bytes) :
    Calm rl s.view (State.readmitLun s n old new).view := by
  unfold State.readmitLun
  (try dsimp only) <;> intros <;> with_reducible
      (repeat' first
          | exact .refl _ | assumption | apply calmBack | dsimp only [viewMk] | refine (State.regrade_calm _).to ?_
          | refine (State.setLun_calm _ _ _).to ?_ | apply calmIte | apply calmIte1 | rfl | intro _ | split)

theorem State.lunBoundary_calm (s : State) (n : Nat) :
    Calm rl s.view (State.lunBoundary s n).view := by
  unfold State.lunBoundary
  (try dsimp only) <;> intros <;> with_reducible
      (repeat' first
          | exact .refl _ | assumption | apply calmBack | dsimp only [viewMk] | refine (State.readmitLun_calm _ _ _ _).to ?_
          | apply calmIte | rfl | intro _ | split)

theorem State.acceptEntry_calm (s : State) (y : Sync) (b : Bytes) :
    Calm rl s.view (State.acceptEntry s y b).view := by
  unfold State.acceptEntry
  (try dsimp only) <;> intros <;> with_reducible
      (repeat' first
          | exact .refl _ | assumption | apply calmBack | dsimp only [viewMk] | refine (State.lunBoundary_calm _ _).to ?_
          | refine (State.setChan_calm _ _ _).to ?_ | refine (State.takeConnEntry_calm _ _ _).to ?_
          | refine (State.takeRingEntry_calm _ _ _).to ?_ | apply calmIte | rfl | intro _ | split)

theorem State.syncRead_calm (s : State) (e : ReadEnd) :
    Calm rl s.view (State.syncRead s e).view := by
  unfold State.syncRead
  (try dsimp only) <;> intros <;> with_reducible
      (repeat' first
          | exact .refl _ | assumption | apply calmBack | dsimp only [viewMk] | refine (State.rejectSync_calm _ _).to ?_
          | refine (State.setF_calm _ _ _).to ?_ | refine (State.unexpectedCpl_calm _).to ?_ | apply calmIte | rfl | intro _
          | split)

theorem execSyncHoldTimeout_calm (s : State) :
    Ends rl s.view (execSyncHoldTimeout s) := by
  unfold execSyncHoldTimeout
  (try dsimp only) <;> intros <;> with_reducible
      (repeat' first
          | exact .refl _ | assumption | apply calmBack | dsimp only [viewMk] | refine (State.rejectSync_calm _ _).to ?_
          | apply calmIte | apply Ends.ok | apply Ends.next | apply Ends.ite | rfl | intro _ | split)

theorem State.dropSync_calm (s : State) :
    Calm rl s.view (State.dropSync s).view := by
  unfold State.dropSync
  (try dsimp only) <;> intros <;> with_reducible
      (repeat' first
          | exact .refl _ | assumption | apply calmBack | dsimp only [viewMk] | refine (State.rejectSync_calm _ _).to ?_
          | apply calmIte | rfl | intro _ | split)

theorem State.storeWord_calm (s : State) (t : Nat) (i : Nat) (w : Nat) (v : Nat) :
    Calm rl s.view (State.storeWord s t i w v).view := by
  unfold State.storeWord
  (try dsimp only) <;> intros <;> with_reducible
      (repeat' first
          | exact .refl _ | assumption | apply calmBack | dsimp only [viewMk] | apply calmIte | rfl | intro _ | split)

theorem State.descFault_calm (s : State) (c : Cmd) (d : Desc) (code : Nat) :
    Calm rl s.view (State.descFault s c d code).view := by
  unfold State.descFault
  (try dsimp only) <;> intros <;> with_reducible
      (repeat' first
          | exact .refl _ | assumption | apply calmBack | dsimp only [viewMk] | refine (State.afterAppend_calm _ _).to ?_
          | refine (State.dmaFault_calm _ _ _ _).to ?_ | apply calmIte | rfl | intro _ | split)

theorem State.writeDesc_calm (s : State) (c : Cmd) (d : Desc) :
    Calm rl s.view (State.writeDesc s c d).view := by
  unfold State.writeDesc
  (try dsimp only) <;> intros <;> with_reducible
      (repeat' first
          | exact .refl _ | assumption | apply calmBack | dsimp only [viewMk] | refine (State.emit_calm _ _).to ?_ | apply calmIte
          | apply calmIte1 | apply calmFold | apply calmFold1 | rfl | intro _ | split)

theorem State.descData_calm (s : State) (c : Cmd) (d : Desc) (b : Bytes) :
    Calm rl s.view (State.descData s c d b).view := by
  unfold State.descData
  (try dsimp only) <;> intros <;> with_reducible
      (repeat' first
          | exact .refl _ | assumption | apply calmBack | dsimp only [viewMk] | refine (State.setCmd_calm _ _).to ?_ | apply calmIte
          | rfl | intro _ | split)

theorem State.descEnd_calm (s : State) (c : Cmd) (d : Desc) :
    Calm rl s.view (State.descEnd s c d).view := by
  unfold State.descEnd
  (try dsimp only) <;> intros <;> with_reducible
      (repeat' first
          | exact .refl _ | assumption | apply calmBack | dsimp only [viewMk] | refine (State.applyIn_calm _ _ _).to ?_
          | refine (State.complete_calm _ _ _ _).to ?_ | refine (State.setCmd_calm _ _).to ?_
          | refine (State.writeDesc_calm _ _ _).to ?_ | apply calmIte | rfl | intro _ | split)

theorem execDescriptorEnd_calm (s : State) (n : Fin 8) (tag : BitVec 5) (off : BitVec 22) :
    Ends rl s.view (execDescriptorEnd n tag off s) := by
  unfold execDescriptorEnd
  (try dsimp only) <;> intros <;> with_reducible
      (repeat' first
          | exact .refl _ | assumption | apply calmBack | dsimp only [viewMk] | refine (State.descEnd_calm _ _ _).to ?_
          | apply calmIte | apply Ends.ok | apply Ends.next | apply Ends.ite | rfl | intro _ | split)

theorem execDescriptorTimeout_calm (s : State) (n : Fin 8) (tag : BitVec 5) (off : BitVec 22) :
    Ends rl s.view (execDescriptorTimeout n tag off s) := by
  unfold execDescriptorTimeout
  (try dsimp only) <;> intros <;> with_reducible
      (repeat' first
          | exact .refl _ | assumption | apply calmBack | dsimp only [viewMk] | refine (State.descFault_calm _ _ _ _).to ?_
          | apply calmIte | apply Ends.ok | apply Ends.next | apply Ends.ite | rfl | intro _ | split)

theorem State.transferRead_calm (s : State) (n : Nat) (tag : Nat) (off : Nat) (e : ReadEnd) :
    Calm rl s.view (State.transferRead s n tag off e).view := by
  unfold State.transferRead
  (try dsimp only) <;> intros <;> with_reducible
      (repeat' first
          | exact .refl _ | assumption | apply calmBack | dsimp only [viewMk] | refine (State.descData_calm _ _ _ _).to ?_
          | refine (State.descFault_calm _ _ _ _).to ?_ | refine (State.setF_calm _ _ _).to ?_
          | refine (State.unexpectedCpl_calm _).to ?_ | apply calmIte | rfl | intro _ | split)

theorem State.resumeChannel_calm (s : State) (n : Nat) :
    Calm rl s.view (State.resumeChannel s n).view := by
  unfold State.resumeChannel
  (try dsimp only) <;> intros <;> with_reducible
      (repeat' first
          | exact .refl _ | assumption | apply calmBack | dsimp only [viewMk] | refine (State.setChan_calm _ _ _).to ?_
          | apply calmIte | rfl | intro _ | split)

theorem execChannelResume_calm (s : State) (n : Fin 8) :
    Ends rl s.view (execChannelResume n s) := by
  unfold execChannelResume
  (try dsimp only) <;> intros <;> with_reducible
      (repeat' first
          | exact .refl _ | assumption | apply calmBack | dsimp only [viewMk] | refine (State.asWrite_calm _ _ ?_).to ?_
          | refine ((State.asWrite_calm _ _ ?_).get (by assumption)).to ?_ | refine (State.resumeChannel_calm _ _).to ?_
          | apply calmIte | apply Ends.ok | apply Ends.next | apply Ends.ite | rfl | intro _ | split)

theorem execAllocHoldExpiry_calm (s : State) (n : Fin 8) (tag : BitVec 5) :
    Ends rl s.view (execAllocHoldExpiry n tag s) := by
  unfold execAllocHoldExpiry
  (try dsimp only) <;> intros <;> with_reducible
      (repeat' first
          | exact .refl _ | assumption | apply calmBack | dsimp only [viewMk] | refine (State.afterAppend_calm _ _).to ?_
          | refine (State.complete_calm _ _ _ _).to ?_ | refine (State.countF_calm _ _ _).to ?_ | apply calmIte | apply calmIte1
          | apply Ends.ok | apply Ends.next | apply Ends.ite | rfl | intro _ | split)

theorem State.noteAer_calm (s : State) (e : PcieError) :
    Calm rl s.view (State.noteAer s e).view := by
  unfold State.noteAer
  (try dsimp only) <;> intros <;> with_reducible
      (repeat' first
          | exact .refl _ | assumption | apply calmBack | dsimp only [viewMk] | apply calmIte | rfl | intro _ | split)

theorem execPcieErrorReceived_calm (s : State) (e : PcieError) :
    Ends rl s.view (execPcieErrorReceived e s) := by
  unfold execPcieErrorReceived
  (try dsimp only) <;> intros <;> with_reducible
      (repeat' first
          | exact .refl _ | assumption | apply calmBack | dsimp only [viewMk] | refine (State.bump_calm _ _).to ?_
          | refine (State.noteAer_calm _ _).to ?_ | refine (State.record_calm _ _ _ _ _ _ _).to ?_
          | refine (State.setF_calm _ _ _).to ?_ | apply calmIte | apply Ends.ok | apply Ends.next | apply Ends.ite | rfl | intro _
          | split)

theorem State.acceptSilently_calm (s : State) (cs : List Cmd) :
    Calm rl s.view (State.acceptSilently s cs).view := by
  unfold State.acceptSilently
  (try dsimp only) <;> intros <;> with_reducible
      (repeat' first
          | exact .refl _ | assumption | apply calmBack | dsimp only [viewMk] | refine (State.acceptInto_calm _ _ _).to ?_
          | refine (State.stage_calm _ _ _ _ _ _ _).to ?_ | apply calmIte | apply calmIte1 | apply calmFold | apply calmFold1 | rfl
          | intro _ | split)

theorem State.dropTransfers_calm (s : State) (cs : List Cmd) :
    Calm rl s.view (State.dropTransfers s cs).view := by
  unfold State.dropTransfers
  (try dsimp only) <;> intros <;> with_reducible
      (repeat' first
          | exact .refl _ | assumption | apply calmBack | dsimp only [viewMk] | refine (State.giveBack_calm _ _ _ _).to ?_
          | refine (State.stage_calm _ _ _ _ _ _ _).to ?_ | apply calmIte | apply calmFold | apply calmFold1 | rfl | intro _
          | split)

theorem State.resetHostSide_calm (s : State) :
    Calm rl s.view (State.resetHostSide s).view := by
  unfold State.resetHostSide
  (try dsimp only) <;> intros <;> with_reducible
      (repeat' first
          | exact .refl _ | assumption | apply calmBack | dsimp only [viewMk] | refine (State.acceptSilently_calm _ _).to ?_
          | refine (State.dropSync_calm _).to ?_ | refine (State.dropTransfers_calm _ _).to ?_
          | refine (State.resetMailbox_calm _).to ?_ | refine (State.resetRegs_calm _ _ _).to ?_ | apply calmIte | rfl | intro _
          | split)

theorem State.resetFunction_calm (s : State) (keepAer : Bool) :
    Calm rl s.view (State.resetFunction s keepAer).view := by
  unfold State.resetFunction
  (try dsimp only) <;> intros <;> with_reducible
      (repeat' first
          | exact .refl _ | assumption | apply calmBack | dsimp only [viewMk] | apply calmIte | rfl | intro _ | split)

theorem State.linkDown_calm (s : State) :
    Calm rl s.view (State.linkDown s).view := by
  unfold State.linkDown
  (try dsimp only) <;> intros <;> with_reducible
      (repeat' first
          | exact .refl _ | assumption | apply calmBack | dsimp only [viewMk] | refine (State.resetRegs_calm _ _ _).to ?_
          | apply calmIte | rfl | intro _ | split)

theorem State.pcieReset_calm (s : State) (code : Nat) (count : Field) (keepAer : Bool) :
    Calm rl s.view (State.pcieReset s code count keepAer).view := by
  unfold State.pcieReset
  (try dsimp only) <;> intros <;> with_reducible
      (repeat' first
          | exact .refl _ | assumption | apply calmBack | dsimp only [viewMk] | refine (State.bump_calm _ _).to ?_
          | refine (State.countF_calm _ _ _).to ?_ | refine (State.endPath_calm _ _).to ?_
          | refine (State.record_calm _ _ _ _ _ _ _).to ?_ | refine (State.resetFunction_calm _ _).to ?_
          | refine (State.resetHostSide_calm _).to ?_ | apply calmIte | rfl | intro _ | split)

theorem execPerstAssert_calm (s : State) :
    Ends rl s.view (execPerstAssert s) := by
  unfold execPerstAssert
  (try dsimp only) <;> intros <;> with_reducible
      (repeat' first
          | exact .refl _ | assumption | apply calmBack | dsimp only [viewMk] | refine (State.linkDown_calm _).to ?_
          | refine (State.pcieReset_calm _ _ _ _).to ?_ | apply calmIte | apply Ends.ok | apply Ends.next | apply Ends.ite | rfl
          | intro _ | split)

theorem execPerstDeassert_calm (s : State) :
    Ends rl s.view (execPerstDeassert s) := by
  unfold execPerstDeassert
  (try dsimp only) <;> intros <;> with_reducible
      (repeat' first
          | exact .refl _ | assumption | apply calmBack | dsimp only [viewMk] | apply calmIte | apply Ends.ok | apply Ends.next
          | apply Ends.ite | rfl | intro _ | split)

theorem execHotReset_calm (s : State) :
    Ends rl s.view (execHotReset s) := by
  unfold execHotReset
  (try dsimp only) <;> intros <;> with_reducible
      (repeat' first
          | exact .refl _ | assumption | apply calmBack | dsimp only [viewMk] | refine (State.linkDown_calm _).to ?_
          | refine (State.pcieReset_calm _ _ _ _).to ?_ | apply calmIte | apply Ends.ok | apply Ends.next | apply Ends.ite | rfl
          | intro _ | split)

theorem execFunctionLevelReset_calm (s : State) :
    Ends rl s.view (execFunctionLevelReset s) := by
  unfold execFunctionLevelReset
  (try dsimp only) <;> intros <;> with_reducible
      (repeat' first
          | exact .refl _ | assumption | apply calmBack | dsimp only [viewMk] | refine (State.pcieReset_calm _ _ _ _).to ?_
          | apply calmIte | apply Ends.ok | apply Ends.next | apply Ends.ite | rfl | intro _ | split)

theorem State.sendPending_calm (s : State) :
    Calm rl s.view (State.sendPending s).view := by
  unfold State.sendPending
  (try dsimp only) <;> intros <;> with_reducible
      (repeat' first
          | exact .refl _ | assumption | apply calmBack | dsimp only [viewMk] | refine (State.emit_calm _ _).to ?_ | apply calmIte
          | apply calmFold | apply calmFold1 | rfl | intro _ | split)

theorem State.resumeHost_calm (s : State) :
    Calm rl s.view (State.resumeHost s).view := by
  unfold State.resumeHost
  (try dsimp only) <;> intros <;> with_reducible
      (repeat' first
          | exact .refl _ | assumption | apply calmBack | dsimp only [viewMk] | refine (State.fetchAll_calm _ _).to ?_
          | refine (State.issueSync_calm _).to ?_ | refine (State.pumpRing_calm _ _).to ?_ | refine (State.sendPending_calm _).to ?_
          | apply calmIte | apply calmFold | apply calmFold1 | rfl | intro _ | split)

theorem execBusMasterEnableClear_calm (s : State) :
    Ends rl s.view (execBusMasterEnableClear s) := by
  unfold execBusMasterEnableClear
  (try dsimp only) <;> intros <;> with_reducible
      (repeat' first
          | exact .refl _ | assumption | apply calmBack | dsimp only [viewMk] | apply calmIte | apply Ends.ok | apply Ends.next
          | apply Ends.ite | rfl | intro _ | split)

theorem execBusMasterEnableSet_calm (s : State) :
    Ends rl s.view (execBusMasterEnableSet s) := by
  unfold execBusMasterEnableSet
  (try dsimp only) <;> intros <;> with_reducible
      (repeat' first
          | exact .refl _ | assumption | apply calmBack | dsimp only [viewMk] | refine (State.resumeHost_calm _).to ?_
          | apply calmIte | apply Ends.ok | apply Ends.next | apply Ends.ite | rfl | intro _ | split)

theorem execD3hotEntry_calm (s : State) :
    Ends rl s.view (execD3hotEntry s) := by
  unfold execD3hotEntry
  (try dsimp only) <;> intros <;> with_reducible
      (repeat' first
          | exact .refl _ | assumption | apply calmBack | dsimp only [viewMk] | apply calmIte | apply Ends.ok | apply Ends.next
          | apply Ends.ite | rfl | intro _ | split)

theorem execD0Return_calm (s : State) :
    Ends rl s.view (execD0Return s) := by
  unfold execD0Return
  (try dsimp only) <;> intros <;> with_reducible
      (repeat' first
          | exact .refl _ | assumption | apply calmBack | dsimp only [viewMk] | refine (State.resumeHost_calm _).to ?_
          | apply calmIte | apply Ends.ok | apply Ends.next | apply Ends.ite | rfl | intro _ | split)

theorem State.unmaskVector_calm (s : State) (v : Nat) :
    Calm rl s.view (State.unmaskVector s v).view := by
  unfold State.unmaskVector
  (try dsimp only) <;> intros <;> with_reducible
      (repeat' first
          | exact .refl _ | assumption | apply calmBack | dsimp only [viewMk] | refine (State.sendPending_calm _).to ?_
          | apply calmIte | rfl | intro _ | split)

theorem execMsixUnmask_calm (s : State) (v : Option (Fin 16)) :
    Ends rl s.view (execMsixUnmask v s) := by
  unfold execMsixUnmask
  (try dsimp only) <;> intros <;> with_reducible
      (repeat' first
          | exact .refl _ | assumption | apply calmBack | dsimp only [viewMk] | refine (State.sendPending_calm _).to ?_
          | refine (State.unmaskVector_calm _ _).to ?_ | apply calmIte | apply Ends.ok | apply Ends.next | apply Ends.ite | rfl
          | intro _ | split)

theorem State.noteEnd_calm (s : State) (e : ReadEnd) :
    Calm rl s.view (State.noteEnd s e).view := by
  unfold State.noteEnd
  (try dsimp only) <;> intros <;> with_reducible
      (repeat' first
          | exact .refl _ | assumption | apply calmBack | dsimp only [viewMk] | refine (State.noteAer_calm _ _).to ?_
          | apply calmIte | rfl | intro _ | split)

theorem State.readEnd_calm (s : State) (k : ReadFor) (n : Nat) (tag : Nat) (off : Nat) (e : ReadEnd) :
    Calm rl s.view (State.readEnd s k n tag off e).view := by
  unfold State.readEnd
  (try dsimp only) <;> intros <;> with_reducible
      (repeat' first
          | exact .refl _ | assumption | apply calmBack | dsimp only [viewMk] | refine (State.fetchEnd_calm _ _ _).to ?_
          | refine (State.indexEnd_calm _ _ _).to ?_ | refine (State.noteEnd_calm _ _).to ?_
          | refine (State.syncRead_calm _ _).to ?_ | refine (State.transferRead_calm _ _ _ _ _).to ?_ | apply calmIte | rfl
          | intro _ | split)

theorem execHostReadCompletion_calm (s : State) (k : ReadFor) (n : Fin 8) (tag : BitVec 5) (off : BitVec 22) (e : ReadEnd) :
    Ends rl s.view (execHostReadCompletion k n tag off e s) := by
  unfold execHostReadCompletion
  (try dsimp only) <;> intros <;> with_reducible
      (repeat' first
          | exact .refl _ | assumption | apply calmBack | dsimp only [viewMk] | refine (State.readEnd_calm _ _ _ _ _ _).to ?_
          | apply calmIte | apply Ends.ok | apply Ends.next | apply Ends.ite | rfl | intro _ | split)

theorem execCompletionTimeout_calm (s : State) (k : ReadFor) (n : Fin 8) (tag : BitVec 5) (off : BitVec 22) :
    Ends rl s.view (execCompletionTimeout k n tag off s) := by
  unfold execCompletionTimeout
  (try dsimp only) <;> intros <;> with_reducible
      (repeat' first
          | exact .refl _ | assumption | apply calmBack | dsimp only [viewMk] | refine (State.readEnd_calm _ _ _ _ _ _).to ?_
          | apply calmIte | apply Ends.ok | apply Ends.next | apply Ends.ite | rfl | intro _ | split)

theorem execLinkRetrain_calm (s : State) :
    Ends rl s.view (execLinkRetrain s) := by
  unfold execLinkRetrain
  (try dsimp only) <;> intros <;> with_reducible
      (repeat' first
          | exact .refl _ | assumption | apply calmBack | dsimp only [viewMk] | refine (State.asWrite_calm _ _ ?_).to ?_
          | refine ((State.asWrite_calm _ _ ?_).get (by assumption)).to ?_ | refine (State.setF_calm _ _ _).to ?_ | apply calmIte
          | apply Ends.ok | apply Ends.next | apply Ends.ite | rfl | intro _ | split)

theorem State.takeMaxSpeed_calm (s : State) :
    Calm rl s.view (State.takeMaxSpeed s).view := by
  unfold State.takeMaxSpeed
  (try dsimp only) <;> intros <;> with_reducible
      (repeat' first
          | exact .refl _ | assumption | apply calmBack | dsimp only [viewMk] | refine (State.setF_calm _ _ _).to ?_ | apply calmIte
          | rfl | intro _ | split)

theorem execPcieLinkUp_calm (s : State) (speed : BitVec 3) (width : BitVec 3) (reversed : Bool) (polarity : BitVec 4) :
    Ends rl s.view (execPcieLinkUp speed width reversed polarity s) := by
  unfold execPcieLinkUp
  (try dsimp only) <;> intros <;> with_reducible
      (repeat' first
          | exact .refl _ | assumption | apply calmBack | dsimp only [viewMk] | refine (State.countF_calm _ _ _).to ?_
          | refine (State.record_calm _ _ _ _ _ _ _).to ?_ | refine (State.setF_calm _ _ _).to ?_
          | refine (State.takeMaxSpeed_calm _).to ?_ | apply calmIte | apply Ends.ok | apply Ends.next | apply Ends.ite | rfl
          | intro _ | split)

theorem execAspmL1Request_calm (s : State) :
    Ends rl s.view (execAspmL1Request s) := by
  unfold execAspmL1Request
  (try dsimp only) <;> intros <;> with_reducible
      (repeat' first
          | exact .refl _ | assumption | apply calmBack | dsimp only [viewMk] | apply calmIte | apply Ends.ok | apply Ends.next
          | apply Ends.ite | rfl | intro _ | split)

end Sys2Proof.Machine
end

