-- ==== Sys2Proof/Laws/CalmMedia.lean ====
section
/-! SUPPORT. `Calm` through every operation and meaning: flash, reads and DRAM. -/

set_option linter.unusedVariables false

namespace Sys2Proof.Machine

variable {rl : Bool}

theorem State.setLunRun_calm (s : State) (n : Nat) (r : LunRun) :
    Calm rl s.view (State.setLunRun s n r).view := by
  unfold State.setLunRun
  (try dsimp only) <;> intros <;> with_reducible
      (repeat' first
          | exact .refl _ | assumption | apply calmBack | dsimp only [viewMk] | apply calmIte | rfl | intro _ | split)

theorem State.mapData_calm (s : State) (f : Blk → Blk) (g : SRec → SRec) :
    Calm rl s.view (State.mapData s f g).view := by
  unfold State.mapData
  (try dsimp only) <;> intros <;> with_reducible
      (repeat' first
          | exact .refl _ | assumption | apply calmBack | dsimp only [viewMk] | apply calmIte | apply calmIte1 | rfl | intro _
          | split)

theorem State.moveLoc_calm (s : State) (old : Nat) (new : Nat) :
    Calm rl s.view (State.moveLoc s old new).view := by
  unfold State.moveLoc
  (try dsimp only) <;> intros <;> with_reducible
      (repeat' first
          | exact .refl _ | assumption | apply calmBack | dsimp only [viewMk] | refine (State.mapData_calm _ _ _).to ?_
          | apply calmIte | rfl | intro _ | split)

theorem State.queueOp_calm (s : State) (o : FOp) :
    Calm rl s.view (State.queueOp s o).view := by
  unfold State.queueOp
  (try dsimp only) <;> intros <;> with_reducible
      (repeat' first
          | exact .refl _ | assumption | apply calmBack | dsimp only [viewMk] | refine (State.raise_calm _ _ _).to ?_
          | refine (State.setFchan_calm _ _ _).to ?_ | apply calmIte | rfl | intro _ | split)

theorem State.restage_calm (s : State) (ids : List Nat) :
    Calm rl s.view (State.restage s ids).view := by
  unfold State.restage
  (try dsimp only) <;> intros <;> with_reducible
      (repeat' first
          | exact .refl _ | assumption | apply calmBack | dsimp only [viewMk] | apply calmIte | rfl | intro _ | split)

theorem State.loseLun_calm (s : State) (n : Nat) :
    Calm rl s.view (State.loseLun s n).view := by
  unfold State.loseLun
  (try dsimp only) <;> intros <;> with_reducible
      (repeat' first
          | exact .refl _ | assumption | apply calmBack | dsimp only [viewMk] | refine (State.lose_calm _ _).to ?_
          | refine (State.mapData_calm _ _ _).to ?_ | refine (State.record_calm _ _ _ _ _ _ _).to ?_ | apply calmIte
          | apply calmIte1 | apply calmFold | apply calmFold1 | rfl | intro _ | split)

theorem State.rebuildOrLose_calm (s : State) (n : Nat) :
    Calm rl s.view (State.rebuildOrLose s n).view := by
  unfold State.rebuildOrLose
  (try dsimp only) <;> intros <;> with_reducible
      (repeat' first
          | exact .refl _ | assumption | apply calmBack | dsimp only [viewMk] | refine (State.loseLun_calm _ _).to ?_
          | refine (State.record_calm _ _ _ _ _ _ _).to ?_ | apply calmIte | apply RanCalm.done | apply RanCalm.jump
          | apply RanCalm.stay | apply RanCalm.fault | apply RanCalm.ite | rfl | intro _ | split)

theorem State.markLun_calm (s : State) (n : Nat) (cause : Nat) :
    Calm rl s.view (State.markLun s n cause).view := by
  unfold State.markLun
  (try dsimp only) <;> intros <;> with_reducible
      (repeat' first
          | exact .refl _ | assumption | apply calmBack | dsimp only [viewMk] | refine (State.commit_calm _).to ?_
          | refine (State.rebuildOrLose_calm _ _).to ?_ | refine (State.record_calm _ _ _ _ _ _ _).to ?_
          | refine (State.restage_calm _ _).to ?_ | refine (State.setFchan_calm _ _ _).to ?_
          | refine (State.setLun_calm _ _ _).to ?_ | apply calmIte | rfl | intro _ | split)

theorem State.failChannel_calm (s : State) (ch : Nat) :
    Calm rl s.view (State.failChannel s ch).view := by
  unfold State.failChannel
  (try dsimp only) <;> intros <;> with_reducible
      (repeat' first
          | exact .refl _ | assumption | apply calmBack | dsimp only [viewMk] | refine (State.markLun_calm _ _ _).to ?_
          | refine (State.record_calm _ _ _ _ _ _ _).to ?_ | refine (State.regrade_calm _).to ?_
          | refine (State.setFchan_calm _ _ _).to ?_ | apply calmIte | apply calmFold | apply calmFold1 | rfl | intro _ | split)

theorem State.failLun_calm (s : State) (n : Nat) (cause : Nat) :
    Calm rl s.view (State.failLun s n cause).view := by
  unfold State.failLun
  (try dsimp only) <;> intros <;> with_reducible
      (repeat' first
          | exact .refl _ | assumption | apply calmBack | dsimp only [viewMk] | refine (State.failChannel_calm _ _).to ?_
          | refine (State.markLun_calm _ _ _).to ?_ | refine (State.record_calm _ _ _ _ _ _ _).to ?_
          | refine (State.regrade_calm _).to ?_ | apply calmIte | rfl | intro _ | split)

theorem State.retire_calm (s : State) (n : Nat) (b : Nat) (cause : Nat) :
    Calm rl s.view (State.retire s n b cause).view := by
  unfold State.retire
  (try dsimp only) <;> intros <;> with_reducible
      (repeat' first
          | exact .refl _ | assumption | apply calmBack | dsimp only [viewMk] | refine (State.bump_calm _ _).to ?_
          | refine (State.commit_calm _).to ?_ | refine (State.failLun_calm _ _ _).to ?_
          | refine (State.record_calm _ _ _ _ _ _ _).to ?_ | refine (State.setBlock_calm _ _ _ _).to ?_ | apply calmIte | rfl
          | intro _ | split)

theorem State.moveBlock_calm (s : State) (n : Nat) (b : Nat) (cls : Nat) :
    Calm rl s.view (State.moveBlock s n b cls).view := by
  unfold State.moveBlock
  (try dsimp only) <;> intros <;> with_reducible
      (repeat' first
          | exact .refl _ | assumption | apply calmBack | dsimp only [viewMk] | refine (State.queueOp_calm _ _).to ?_
          | refine (State.setBlock_calm _ _ _ _).to ?_ | refine (State.setFchan_calm _ _ _).to ?_ | apply calmIte | rfl | intro _
          | split)

theorem State.retireSoon_calm (s : State) (n : Nat) (b : Nat) (cause : Nat) (cls : Nat) :
    Calm rl s.view (State.retireSoon s n b cause cls).view := by
  unfold State.retireSoon
  (try dsimp only) <;> intros <;> with_reducible
      (repeat' first
          | exact .refl _ | assumption | apply calmBack | dsimp only [viewMk] | refine (State.moveBlock_calm _ _ _ _).to ?_
          | refine (State.retire_calm _ _ _ _).to ?_ | refine (State.setBlock_calm _ _ _ _).to ?_ | apply calmIte | rfl | intro _
          | split)

theorem State.openBlock_calm (s : State) (n : Nat) (b : Nat) (cell : Nat) (landing : Bool) :
    Calm rl s.view (State.openBlock s n b cell landing).view := by
  unfold State.openBlock
  (try dsimp only) <;> intros <;> with_reducible
      (repeat' first
          | exact .refl _ | assumption | apply calmBack | dsimp only [viewMk] | refine (State.scramblerSeed_calm _).to ?_
          | refine (State.setBlock_calm _ _ _ _).to ?_ | apply calmIte | apply calmIte1 | rfl | intro _ | split)

theorem State.closeBlock_calm (s : State) (n : Nat) (b : Nat) :
    Calm rl s.view (State.closeBlock s n b).view := by
  unfold State.closeBlock
  (try dsimp only) <;> intros <;> with_reducible
      (repeat' first
          | exact .refl _ | assumption | apply calmBack | dsimp only [viewMk] | refine (State.setBlock_calm _ _ _ _).to ?_
          | refine (State.setLun_calm _ _ _).to ?_ | apply calmIte | rfl | intro _ | split)

theorem State.moveRead_calm (s : State) (n : Nat) (b : Nat) (cls : Nat) :
    Calm rl s.view (State.moveRead s n b cls).view := by
  unfold State.moveRead
  (try dsimp only) <;> intros <;> with_reducible
      (repeat' first
          | exact .refl _ | assumption | apply calmBack | dsimp only [viewMk] | refine (State.openBlock_calm _ _ _ _ _).to ?_
          | refine (State.queueOp_calm _ _).to ?_ | refine (State.setBlock_calm _ _ _ _).to ?_ | apply calmIte | rfl | intro _
          | split)

theorem State.moveWritten_calm (s : State) (n : Nat) (b : Nat) (d : Nat) (cls : Nat) :
    Calm rl s.view (State.moveWritten s n b d cls).view := by
  unfold State.moveWritten
  (try dsimp only) <;> intros <;> with_reducible
      (repeat' first
          | exact .refl _ | assumption | apply calmBack | dsimp only [viewMk] | refine (State.closeBlock_calm _ _ _).to ?_
          | refine (State.commit_calm _).to ?_ | refine (State.moveLoc_calm _ _ _).to ?_ | refine (State.queueOp_calm _ _).to ?_
          | apply calmIte | rfl | intro _ | split)

theorem State.moveAbandoned_calm (s : State) (n : Nat) (b : Nat) (d : Nat) :
    Calm rl s.view (State.moveAbandoned s n b d).view := by
  unfold State.moveAbandoned
  (try dsimp only) <;> intros <;> with_reducible
      (repeat' first
          | exact .refl _ | assumption | apply calmBack | dsimp only [viewMk] | refine (State.setBlock_calm _ _ _ _).to ?_
          | apply calmIte | rfl | intro _ | split)

theorem State.settleRebuild_calm (s : State) :
    Calm rl s.view (State.settleRebuild s).view := by
  unfold State.settleRebuild
  (try dsimp only) <;> intros <;> with_reducible
      (repeat' first
          | exact .refl _ | assumption | apply calmBack | dsimp only [viewMk] | refine (State.record_calm _ _ _ _ _ _ _).to ?_
          | apply calmIte | apply RanCalm.done | apply RanCalm.jump | apply RanCalm.stay | apply RanCalm.fault | apply RanCalm.ite
          | rfl | intro _ | split)

theorem State.rebuilt_calm (s : State) (src : Nat) (victim : Nat) (n : Nat) (d : Nat) :
    Calm rl s.view (State.rebuilt s src victim n d).view := by
  unfold State.rebuilt
  (try dsimp only) <;> intros <;> with_reducible
      (repeat' first
          | exact .refl _ | assumption | apply calmBack | dsimp only [viewMk] | refine (State.closeBlock_calm _ _ _).to ?_
          | refine (State.commit_calm _).to ?_ | refine (State.moveLoc_calm _ _ _).to ?_ | refine (State.settleRebuild_calm _).to ?_
          | apply calmIte | apply RanCalm.done | apply RanCalm.jump | apply RanCalm.stay | apply RanCalm.fault | apply RanCalm.ite
          | rfl | intro _ | split)

theorem State.pumpRebuild_calm (s : State) (n : Nat) :
    Calm rl s.view (State.pumpRebuild s n).view := by
  unfold State.pumpRebuild
  (try dsimp only) <;> intros <;> with_reducible
      (repeat' first
          | exact .refl _ | assumption | apply calmBack | dsimp only [viewMk] | refine (State.openBlock_calm _ _ _ _ _).to ?_
          | refine (State.queueOp_calm _ _).to ?_ | apply calmIte | rfl | intro _ | split)

theorem State.erased_calm (s : State) (n : Nat) (b : Nat) :
    Calm rl s.view (State.erased s n b).view := by
  unfold State.erased
  (try dsimp only) <;> intros <;> with_reducible
      (repeat' first
          | exact .refl _ | assumption | apply calmBack | dsimp only [viewMk] | refine (State.commit_calm _).to ?_
          | refine (State.record_calm _ _ _ _ _ _ _).to ?_ | refine (State.retire_calm _ _ _ _).to ?_
          | refine (State.setBlock_calm _ _ _ _).to ?_ | refine (State.setLunRun_calm _ _ _).to ?_ | apply calmIte | rfl | intro _
          | split)

theorem State.wearCheck_calm (s : State) (n : Nat) :
    Calm rl s.view (State.wearCheck s n).view := by
  unfold State.wearCheck
  (try dsimp only) <;> intros <;> with_reducible
      (repeat' first
          | exact .refl _ | assumption | apply calmBack | dsimp only [viewMk] | refine (State.moveBlock_calm _ _ _ _).to ?_
          | refine (State.setLunRun_calm _ _ _).to ?_ | apply calmIte | apply calmIte1 | apply calmFold | apply calmFold1 | rfl
          | intro _ | split)

theorem execWearCheck_calm (s : State) :
    Ends rl s.view (execWearCheck s) := by
  unfold execWearCheck
  (try dsimp only) <;> intros <;> with_reducible
      (repeat' first
          | exact .refl _ | assumption | apply calmBack | dsimp only [viewMk] | refine (State.wearCheck_calm _ _).to ?_
          | apply calmIte | apply calmFold | apply calmFold1 | apply Ends.ok | apply Ends.next | apply Ends.ite | rfl | intro _
          | split)

theorem State.reErase_calm (s : State) (n : Nat) (cls : Nat) :
    OptCalm rl s.view (State.reErase s n cls) := by
  unfold State.reErase
  (try dsimp only) <;> intros <;> with_reducible
      (repeat' first
          | exact .refl _ | assumption | apply calmBack | dsimp only [viewMk] | refine (State.queueOp_calm _ _).to ?_
          | apply calmIte | apply calmIte1 | apply OptCalm.none | apply OptCalm.some | apply OptCalm.ite | rfl | intro _ | split)

theorem State.reclaim_calm (s : State) (n : Nat) (mode : Nat) :
    Calm rl s.view (State.reclaim s n mode).view := by
  unfold State.reclaim
  (try dsimp only) <;> intros <;> with_reducible
      (repeat' first
          | exact .refl _ | assumption | apply calmBack | dsimp only [viewMk] | refine (State.moveBlock_calm _ _ _ _).to ?_
          | refine (State.reErase_calm _ _ _).to ?_ | refine ((State.reErase_calm _ _ _).get (by assumption)).to ?_
          | refine ((State.reErase_calm _ _ _).to ?_).getD ?_ | apply calmIte | rfl | intro _ | split)

theorem State.holdBack_calm (s : State) (n : Nat) :
    Calm rl s.view (State.holdBack s n).view := by
  unfold State.holdBack
  (try dsimp only) <;> intros <;> with_reducible
      (repeat' first
          | exact .refl _ | assumption | apply calmBack | dsimp only [viewMk] | refine (State.record_calm _ _ _ _ _ _ _).to ?_
          | refine (State.setLunRun_calm _ _ _).to ?_ | apply calmIte | rfl | intro _ | split)

theorem State.takeStaged_calm (s : State) (fs : List Field) :
    Calm rl s.view (State.takeStaged s fs).view := by
  unfold State.takeStaged
  (try dsimp only) <;> intros <;> with_reducible
      (repeat' first
          | exact .refl _ | assumption | apply calmBack | dsimp only [viewMk] | refine (State.setF_calm _ _ _).to ?_ | apply calmIte
          | apply calmFold | apply calmFold1 | rfl | intro _ | split)

theorem execPacingWindow_calm (s : State) (lun : Fin 128) (busy : BitVec 16) :
    Ends rl s.view (execPacingWindow lun busy s) := by
  unfold execPacingWindow
  (try dsimp only) <;> intros <;> with_reducible
      (repeat' first
          | exact .refl _ | assumption | apply calmBack | dsimp only [viewMk] | refine (State.holdBack_calm _ _).to ?_
          | refine (State.pumpRebuild_calm _ _).to ?_ | refine (State.reclaim_calm _ _ _).to ?_
          | refine (State.setLunRun_calm _ _ _).to ?_ | refine (State.takeStaged_calm _ _).to ?_ | apply calmIte | apply Ends.ok
          | apply Ends.next | apply Ends.ite | rfl | intro _ | split)

theorem execFloorModeTimeout_calm (s : State) (lun : Fin 128) :
    Ends rl s.view (execFloorModeTimeout lun s) := by
  unfold execFloorModeTimeout
  (try dsimp only) <;> intros <;> with_reducible
      (repeat' first
          | exact .refl _ | assumption | apply calmBack | dsimp only [viewMk] | refine (State.record_calm _ _ _ _ _ _ _).to ?_
          | apply calmIte | apply Ends.ok | apply Ends.next | apply Ends.ite | rfl | intro _ | split)

theorem State.refreshCohort_calm (s : State) (n : Nat) (c : Cohort) :
    Calm rl s.view (State.refreshCohort s n c).view := by
  unfold State.refreshCohort
  (try dsimp only) <;> intros <;> with_reducible
      (repeat' first
          | exact .refl _ | assumption | apply calmBack | dsimp only [viewMk] | refine (State.bump_calm _ _).to ?_
          | refine (State.late_calm _).to ?_ | refine (State.moveBlock_calm _ _ _ _).to ?_
          | refine (State.record_calm _ _ _ _ _ _ _).to ?_ | refine (State.setLun_calm _ _ _).to ?_ | apply calmIte | apply calmIte1
          | apply calmFold | apply calmFold1 | rfl | intro _ | split)

theorem State.refreshLun_calm (s : State) (n : Nat) :
    Calm rl s.view (State.refreshLun s n).view := by
  unfold State.refreshLun
  (try dsimp only) <;> intros <;> with_reducible
      (repeat' first
          | exact .refl _ | assumption | apply calmBack | dsimp only [viewMk] | refine (State.refreshCohort_calm _ _ _).to ?_
          | apply calmIte | apply calmFold | apply calmFold1 | rfl | intro _ | split)

theorem execRetentionStep_calm (s : State) :
    Ends rl s.view (execRetentionStep s) := by
  unfold execRetentionStep
  (try dsimp only) <;> intros <;> with_reducible
      (repeat' first
          | exact .refl _ | assumption | apply calmBack | dsimp only [viewMk] | refine (State.refreshLun_calm _ _).to ?_
          | refine (State.takeStaged_calm _ _).to ?_ | apply calmIte | apply calmIte1 | apply calmFold | apply calmFold1
          | apply Ends.ok | apply Ends.next | apply Ends.ite | rfl | intro _ | split)

theorem State.ageOff_calm (s : State) :
    Calm rl s.view (State.ageOff s).view := by
  unfold State.ageOff
  (try dsimp only) <;> intros <;> with_reducible
      (repeat' first
          | exact .refl _ | assumption | apply calmBack | dsimp only [viewMk] | refine (State.record_calm _ _ _ _ _ _ _).to ?_
          | apply calmIte | apply calmIte1 | rfl | intro _ | split)

theorem State.countRead_calm (s : State) (loc : Nat) :
    Calm rl s.view (State.countRead s loc).view := by
  unfold State.countRead
  (try dsimp only) <;> intros <;> with_reducible
      (repeat' first
          | exact .refl _ | assumption | apply calmBack | dsimp only [viewMk] | refine (State.bump_calm _ _).to ?_
          | refine (State.moveBlock_calm _ _ _ _).to ?_ | refine (State.setBlock_calm _ _ _ _).to ?_ | apply calmIte | rfl | intro _
          | split)

theorem State.noteMedia_calm (s : State) (loc : Nat) (m : Media) :
    Calm rl s.view (State.noteMedia s loc m).view := by
  unfold State.noteMedia
  (try dsimp only) <;> intros <;> with_reducible
      (repeat' first
          | exact .refl _ | assumption | apply calmBack | dsimp only [viewMk] | refine (State.bump_calm _ _).to ?_
          | refine (State.countF_calm _ _ _).to ?_ | refine (State.moveBlock_calm _ _ _ _).to ?_
          | refine (State.rebuilt_calm _ _ _ _ _).to ?_ | refine (State.setBlock_calm _ _ _ _).to ?_
          | refine (State.setLun_calm _ _ _).to ?_ | apply calmIte | rfl | intro _ | split)

theorem State.issues_calm (s : State) (o : FOp) :
    Calm rl s.view (State.issues s o).view := by
  unfold State.issues
  (try dsimp only) <;> intros <;> with_reducible
      (repeat' first
          | exact .refl _ | assumption | apply calmBack | dsimp only [viewMk] | apply calmIte | rfl | intro _ | split)

theorem State.eraseStarts_calm (s : State) (o : FOp) :
    Calm rl s.view (State.eraseStarts s o).view := by
  unfold State.eraseStarts
  (try dsimp only) <;> intros <;> with_reducible
      (repeat' first
          | exact .refl _ | assumption | apply calmBack | dsimp only [viewMk] | refine (State.journal_calm _ _).to ?_
          | refine (State.setBlock_calm _ _ _ _).to ?_ | apply calmIte | rfl | intro _ | split)

theorem State.takeOp_calm (s : State) (ch : Nat) :
    OptCalm1 rl s.view (State.takeOp s ch) := by
  unfold State.takeOp
  (try dsimp only) <;> intros <;> with_reducible
      (repeat' first
          | exact .refl _ | assumption | apply calmBack | dsimp only [viewMk] | refine (State.eraseStarts_calm _ _).to ?_
          | refine (State.issues_calm _ _).to ?_
          | refine (State.late_calm _).to ?_ | refine (State.setEngine_calm _ _ _).to ?_ | refine (State.setFchan_calm _ _ _).to ?_
          | apply calmIte | apply calmIte1 | apply OptCalm1.none | apply OptCalm1.some | apply OptCalm1.ite | rfl | intro _ | split)

theorem State.placeUnits_calm (s : State) (n : Nat) (b : Nat) (ids : List Nat) :
    Calm rl s.view (State.placeUnits s n b ids).view := by
  unfold State.placeUnits
  (try dsimp only) <;> intros <;> with_reducible
      (repeat' first
          | exact .refl _ | assumption | apply calmBack | dsimp only [viewMk] | refine (State.setBlk_calm _ _ _ _).to ?_
          | refine (State.setVol_calm _ _ _).to ?_ | apply calmIte | apply calmFold | apply calmFold1 | rfl | intro _ | split)

theorem State.verifyUnits_calm (s : State) (n : Nat) (b : Nat) (ids : List Nat) :
    Calm rl s.view (State.verifyUnits s n b ids).view := by
  unfold State.verifyUnits
  (try dsimp only) <;> intros <;> with_reducible
      (repeat' first
          | exact .refl _ | assumption | apply calmBack | dsimp only [viewMk] | refine (State.journal_calm _ _).to ?_
          | refine (State.placeUnits_calm _ _ _ _).to ?_ | apply calmIte | apply calmFold | apply calmFold1 | rfl | intro _ | split)

theorem State.opDone_calm (s : State) (o : FOp) :
    Calm rl s.view (State.opDone s o).view := by
  unfold State.opDone
  (try dsimp only) <;> intros <;> with_reducible
      (repeat' first
          | exact .refl _ | assumption | apply calmBack | dsimp only [viewMk] | refine (State.closeBlock_calm _ _ _).to ?_
          | refine (State.erased_calm _ _ _).to ?_ | refine (State.moveRead_calm _ _ _ _).to ?_
          | refine (State.moveWritten_calm _ _ _ _ _).to ?_ | refine (State.rebuilt_calm _ _ _ _ _).to ?_
          | refine (State.verifyUnits_calm _ _ _ _).to ?_ | apply calmIte | rfl | intro _ | split)

theorem State.opUndone_calm (s : State) (o : FOp) :
    Calm rl s.view (State.opUndone s o).view := by
  unfold State.opUndone
  (try dsimp only) <;> intros <;> with_reducible
      (repeat' first
          | exact .refl _ | assumption | apply calmBack | dsimp only [viewMk] | refine (State.moveAbandoned_calm _ _ _ _).to ?_
          | refine (State.restage_calm _ _).to ?_ | refine (State.setBlock_calm _ _ _ _).to ?_ | apply calmIte | rfl | intro _
          | split)

theorem State.opFailed_calm (s : State) (o : FOp) :
    Calm rl s.view (State.opFailed s o).view := by
  unfold State.opFailed
  (try dsimp only) <;> intros <;> with_reducible
      (repeat' first
          | exact .refl _ | assumption | apply calmBack | dsimp only [viewMk] | refine (State.opUndone_calm _ _).to ?_
          | refine (State.retireSoon_calm _ _ _ _ _).to ?_ | refine (State.retire_calm _ _ _ _).to ?_ | apply calmIte | rfl
          | intro _ | split)

theorem State.opUnreadable_calm (s : State) (o : FOp) :
    Calm rl s.view (State.opUnreadable s o).view := by
  unfold State.opUnreadable
  (try dsimp only) <;> intros <;> with_reducible
      (repeat' first
          | exact .refl _ | assumption | apply calmBack | dsimp only [viewMk] | refine (State.bump_calm _ _).to ?_
          | refine (State.mapData_calm _ _ _).to ?_ | refine (State.opDone_calm _ _).to ?_ | apply calmIte | rfl | intro _ | split)

theorem State.countBad_calm (s : State) (n : Nat) :
    Calm rl s.view (State.countBad s n).view := by
  unfold State.countBad
  (try dsimp only) <;> intros <;> with_reducible
      (repeat' first
          | exact .refl _ | assumption | apply calmBack | dsimp only [viewMk] | refine (State.failLun_calm _ _ _).to ?_
          | refine (State.setLunRun_calm _ _ _).to ?_ | apply calmIte | rfl | intro _ | split)

theorem State.opBusy_calm (s : State) (o : FOp) :
    Calm rl s.view (State.opBusy s o).view := by
  unfold State.opBusy
  (try dsimp only) <;> intros <;> with_reducible
      (repeat' first
          | exact .refl _ | assumption | apply calmBack | dsimp only [viewMk] | refine (State.countBad_calm _ _).to ?_
          | refine (State.opUndone_calm _ _).to ?_ | refine (State.retireSoon_calm _ _ _ _ _).to ?_
          | refine (State.setBlock_calm _ _ _ _).to ?_ | apply calmIte | rfl | intro _ | split)

theorem State.opSuspended_calm (s : State) (ch : Nat) (o : FOp) :
    Calm rl s.view (State.opSuspended s ch o).view := by
  unfold State.opSuspended
  (try dsimp only) <;> intros <;> with_reducible
      (repeat' first
          | exact .refl _ | assumption | apply calmBack | dsimp only [viewMk] | refine (State.bump_calm _ _).to ?_
          | refine (State.countF_calm _ _ _).to ?_ | refine (State.setFchan_calm _ _ _).to ?_
          | refine (State.setLun_calm _ _ _).to ?_ | apply calmIte | rfl | intro _ | split)

theorem State.ifaceError_calm (s : State) (ch : Nat) :
    Calm rl s.view (State.ifaceError s ch).view := by
  unfold State.ifaceError
  (try dsimp only) <;> intros <;> with_reducible
      (repeat' first
          | exact .refl _ | assumption | apply calmBack | dsimp only [viewMk] | refine (State.bump_calm _ _).to ?_
          | refine (State.countF_calm _ _ _).to ?_ | refine (State.failChannel_calm _ _).to ?_
          | refine (State.setFchan_calm _ _ _).to ?_ | apply calmIte | rfl | intro _ | split)

theorem State.opIface_calm (s : State) (o : FOp) :
    Calm rl s.view (State.opIface s o).view := by
  unfold State.opIface
  (try dsimp only) <;> intros <;> with_reducible
      (repeat' first
          | exact .refl _ | assumption | apply calmBack | dsimp only [viewMk] | refine (State.countBad_calm _ _).to ?_
          | refine (State.opUndone_calm _ _).to ?_ | refine (State.queueOp_calm _ _).to ?_ | refine (State.setLun_calm _ _ _).to ?_
          | apply calmIte | rfl | intro _ | split)

theorem State.queueResume_calm (s : State) (ch : Nat) (o : FOp) :
    Calm rl s.view (State.queueResume s ch o).view := by
  unfold State.queueResume
  (try dsimp only) <;> intros <;> with_reducible
      (repeat' first
          | exact .refl _ | assumption | apply calmBack | dsimp only [viewMk] | refine (State.raise_calm _ _ _).to ?_
          | refine (State.setFchan_calm _ _ _).to ?_ | apply calmIte | rfl | intro _ | split)

theorem State.settleChannel_calm (s : State) (ch : Nat) :
    Calm rl s.view (State.settleChannel s ch).view := by
  unfold State.settleChannel
  (try dsimp only) <;> intros <;> with_reducible
      (repeat' first
          | exact .refl _ | assumption | apply calmBack | dsimp only [viewMk] | refine (State.lunBoundary_calm _ _).to ?_
          | refine (State.queueResume_calm _ _ _).to ?_ | apply calmIte | apply calmIte1 | apply calmFold | apply calmFold1 | rfl
          | intro _ | split)

theorem State.endOp_calm (s : State) (ch : Nat) (o : FOp) (outcome : Nat) :
    Calm rl s.view (State.endOp s ch o outcome).view := by
  unfold State.endOp
  (try dsimp only) <;> intros <;> with_reducible
      (repeat' first
          | exact .refl _ | assumption | apply calmBack | dsimp only [viewMk] | refine (State.opBusy_calm _ _).to ?_
          | refine (State.opDone_calm _ _).to ?_ | refine (State.opFailed_calm _ _).to ?_ | refine (State.opIface_calm _ _).to ?_
          | refine (State.opSuspended_calm _ _ _).to ?_ | refine (State.opUndone_calm _ _).to ?_
          | refine (State.opUnreadable_calm _ _).to ?_ | refine (State.setFchan_calm _ _ _).to ?_
          | refine (State.setLunRun_calm _ _ _).to ?_ | refine (State.settleChannel_calm _ _).to ?_ | apply calmIte | rfl | intro _
          | split)

theorem State.reportOp_calm (s : State) (ch : Nat) (handle : Nat) (outcome : Nat) :
    OptCalm rl s.view (State.reportOp s ch handle outcome) := by
  unfold State.reportOp
  (try dsimp only) <;> intros <;> with_reducible
      (repeat' first
          | exact .refl _ | assumption | apply calmBack | dsimp only [viewMk] | refine (State.endOp_calm _ _ _ _).to ?_
          | refine (State.late_calm _).to ?_ | refine (State.setFchan_calm _ _ _).to ?_ | apply calmIte | apply OptCalm.none
          | apply OptCalm.some | apply OptCalm.ite | rfl | intro _ | split)

theorem execVeinReportTimeout_calm (s : State) (ch : Fin 8) :
    Ends rl s.view (execVeinReportTimeout ch s) := by
  unfold execVeinReportTimeout
  (try dsimp only) <;> intros <;> with_reducible
      (repeat' first
          | exact .refl _ | assumption | apply calmBack | dsimp only [viewMk] | refine (State.failChannel_calm _ _).to ?_
          | refine (State.late_calm _).to ?_ | refine (State.opUndone_calm _ _).to ?_
          | refine (State.record_calm _ _ _ _ _ _ _).to ?_ | refine (State.setFchan_calm _ _ _).to ?_ | apply calmIte
          | apply Ends.ok | apply Ends.next | apply Ends.ite | rfl | intro _ | split)

theorem execSuspendRequest_calm (s : State) (ch : Fin 8) :
    Ends rl s.view (execSuspendRequest ch s) := by
  unfold execSuspendRequest
  (try dsimp only) <;> intros <;> with_reducible
      (repeat' first
          | exact .refl _ | assumption | apply calmBack | dsimp only [viewMk] | refine (State.raise_calm _ _ _).to ?_
          | apply calmIte | apply Ends.ok | apply Ends.next | apply Ends.ite | rfl | intro _ | split)

theorem execResumeDeadline_calm (s : State) (lun : Fin 128) :
    Ends rl s.view (execResumeDeadline lun s) := by
  unfold execResumeDeadline
  (try dsimp only) <;> intros <;> with_reducible
      (repeat' first
          | exact .refl _ | assumption | apply calmBack | dsimp only [viewMk] | refine (State.queueResume_calm _ _ _).to ?_
          | apply calmIte | apply Ends.ok | apply Ends.next | apply Ends.ite | rfl | intro _ | split)

theorem execLunResetTimeout_calm (s : State) (lun : Fin 128) :
    Ends rl s.view (execLunResetTimeout lun s) := by
  unfold execLunResetTimeout
  (try dsimp only) <;> intros <;> with_reducible
      (repeat' first
          | exact .refl _ | assumption | apply calmBack | dsimp only [viewMk] | refine (State.failLun_calm _ _ _).to ?_
          | apply calmIte | apply Ends.ok | apply Ends.next | apply Ends.ite | rfl | intro _ | split)

theorem execOpenPageClose_calm (s : State) (lun : Fin 128) (block : BitVec 16) (page : BitVec 16) (landing : Bool) :
    Ends rl s.view (execOpenPageClose lun block page landing s) := by
  unfold execOpenPageClose
  (try dsimp only) <;> intros <;> with_reducible
      (repeat' first
          | exact .refl _ | assumption | apply calmBack | dsimp only [viewMk] | refine (State.openBlock_calm _ _ _ _ _).to ?_
          | refine (State.queueOp_calm _ _).to ?_ | apply calmIte | apply Ends.ok | apply Ends.next | apply Ends.ite | rfl | intro _
          | split)

theorem execJournalPageTimer_calm (s : State) :
    Ends rl s.view (execJournalPageTimer s) := by
  unfold execJournalPageTimer
  (try dsimp only) <;> intros <;> with_reducible
      (repeat' first
          | exact .refl _ | assumption | apply calmBack | dsimp only [viewMk] | apply calmIte | apply Ends.ok | apply Ends.next
          | apply Ends.ite | rfl | intro _ | split)

theorem State.serveFlush_calm (s : State) :
    Calm rl s.view (State.serveFlush s).view := by
  unfold State.serveFlush
  (try dsimp only) <;> intros <;> with_reducible
      (repeat' first
          | exact .refl _ | assumption | apply calmBack | dsimp only [viewMk] | refine (State.complete_calm _ _ _ _).to ?_
          | refine (State.stage_calm _ _ _ _ _ _ _).to ?_ | apply calmIte | apply calmFold | apply calmFold1 | rfl | intro _
          | split)

theorem State.pageVerified_calm (s : State) :
    Calm rl s.view (State.pageVerified s).view := by
  unfold State.pageVerified
  (try dsimp only) <;> intros <;> with_reducible
      (repeat' first
          | exact .refl _ | assumption | apply calmBack | dsimp only [viewMk] | refine (State.releaseDurable_calm _).to ?_
          | refine (State.serveFlush_calm _).to ?_ | refine (State.settleRebuild_calm _).to ?_ | apply calmIte | rfl | intro _
          | split)

theorem execCheckpointComplete_calm (s : State) :
    Ends rl s.view (execCheckpointComplete s) := by
  unfold execCheckpointComplete
  (try dsimp only) <;> intros <;> with_reducible
      (repeat' first
          | exact .refl _ | assumption | apply calmBack | dsimp only [viewMk] | refine (State.record_calm _ _ _ _ _ _ _).to ?_
          | apply calmIte | apply calmIte1 | apply Ends.ok | apply Ends.next | apply Ends.ite | rfl | intro _ | split)

theorem execOptimeSave_calm (s : State) :
    Ends rl s.view (execOptimeSave s) := by
  unfold execOptimeSave
  (try dsimp only) <;> intros <;> with_reducible
      (repeat' first
          | exact .refl _ | assumption | apply calmBack | dsimp only [viewMk] | refine (State.journal_calm _ _).to ?_
          | refine (State.saveTimes_calm _).to ?_ | apply calmIte | apply Ends.ok | apply Ends.next | apply Ends.ite | rfl | intro _
          | split)

theorem execScreeFlush_calm (s : State) :
    Ends rl s.view (execScreeFlush s) := by
  unfold execScreeFlush
  (try dsimp only) <;> intros <;> with_reducible
      (repeat' first
          | exact .refl _ | assumption | apply calmBack | dsimp only [viewMk] | refine (State.flushScree_calm _).to ?_
          | refine (State.record_calm _ _ _ _ _ _ _).to ?_ | refine (State.touch_calm _ _).to ?_ | apply calmIte | apply Ends.ok
          | apply Ends.next | apply Ends.ite | rfl | intro _ | split)

theorem execSuppressionSummary_calm (s : State) :
    Ends rl s.view (execSuppressionSummary s) := by
  unfold execSuppressionSummary
  (try dsimp only) <;> intros <;> with_reducible
      (repeat' first
          | exact .refl _ | assumption | apply calmBack | dsimp only [viewMk] | refine (State.record_calm _ _ _ _ _ _ _).to ?_
          | apply calmIte | apply calmIte1 | apply calmFold | apply calmFold1 | apply Ends.ok | apply Ends.next | apply Ends.ite
          | rfl | intro _ | split)

theorem State.lookup_calm (s : State) (v : Nat) (p : Nat) :
    Calm rl s.view (State.lookup s v p).view := by
  unfold State.lookup
  (try dsimp only) <;> intros <;> with_reducible
      (repeat' first
          | exact .refl _ | assumption | apply calmBack | dsimp only [viewMk] | refine (State.countF_calm _ _ _).to ?_
          | apply calmIte | rfl | intro _ | split)

theorem State.readBlocks_calm (s : State) (v : Nat) (ps : List Nat) (media : List (Nat × Media)) :
    Calm rl s.view (State.readBlocks s v ps media).view := by
  unfold State.readBlocks
  (try dsimp only) <;> intros <;> with_reducible
      (repeat' first
          | exact .refl _ | assumption | apply calmBack | dsimp only [viewMk] | refine (State.countRead_calm _ _).to ?_
          | refine (State.lookup_calm _ _ _).to ?_ | refine (State.noteMedia_calm _ _ _).to ?_ | apply calmIte | apply calmIte1
          | apply calmFold | apply calmFold1 | rfl | intro _ | split)

theorem State.readRecords_calm (s : State) (v : Nat) (media : List (Nat × Media)) :
    Calm rl s.view (State.readRecords s v media).view := by
  unfold State.readRecords
  (try dsimp only) <;> intros <;> with_reducible
      (repeat' first
          | exact .refl _ | assumption | apply calmBack | dsimp only [viewMk] | refine (State.countRead_calm _ _).to ?_
          | refine (State.noteMedia_calm _ _ _).to ?_ | apply calmIte | apply calmIte1 | apply calmFold | apply calmFold1 | rfl
          | intro _ | split)

theorem State.scatterBlocks_calm (s : State) (v : Nat) (start : Nat) (size : Nat) (fails : List (Nat × Nat)) (runs : List (Nat × Nat)) :
    ∀ k0 k1, Calm rl s.view (State.scatterBlocks s v start size fails runs k0 k1).view := by
  intro k0 k1
  induction k1 generalizing s v start size fails runs k0 with
  | zero => unfold State.scatterBlocks; (try dsimp only) <;> intros <;> with_reducible
      (repeat' first
          | exact .refl _ | assumption | apply calmBack | dsimp only [viewMk] | refine (State.emit_calm _ _).to ?_ | apply calmIte
          | apply calmIte1 | apply calmFold | apply calmFold1 | rfl | intro _ | split)
  | succ k1 ih => unfold State.scatterBlocks; (try dsimp only) <;> intros <;> with_reducible
      (repeat' first
          | exact .refl _ | assumption | apply calmBack | dsimp only [viewMk] | refine (State.emit_calm _ _).to ?_
          | refine (ih _ _ _ _ _ _ _).to ?_ | apply calmIte | apply calmIte1 | apply calmFold | apply calmFold1 | rfl | intro _
          | split)

theorem State.startRead_calm (s0 : State) (c0 : Cmd) (media : List (Nat × Media)) (x : Xfer) :
    Calm rl s0.view (State.startRead s0 c0 media x).view := by
  unfold State.startRead
  (try dsimp only) <;> intros <;> with_reducible
      (repeat' first
          | exact .refl _ | assumption | apply calmBack | dsimp only [viewMk] | refine (State.checked_calm _ _ _ ?_).to ?_
          | refine (State.complete_calm _ _ _ _).to ?_ | refine (State.moveOut_calm _ _ _ _ _ _ _).to ?_
          | refine (State.readBlocks_calm _ _ _ _).to ?_ | refine (State.scatterBlocks_calm _ _ _ _ _ _ _ _).to ?_ | apply calmIte
          | apply calmIte1 | apply RanCalm.done | apply RanCalm.jump | apply RanCalm.stay | apply RanCalm.fault | apply RanCalm.ite
          | rfl | intro _ | split)

theorem State.startReadStream_calm (s0 : State) (c0 : Cmd) (media : List (Nat × Media)) (x : Xfer) :
    Calm rl s0.view (State.startReadStream s0 c0 media x).view := by
  unfold State.startReadStream
  (try dsimp only) <;> intros <;> with_reducible
      (repeat' first
          | exact .refl _ | assumption | apply calmBack | dsimp only [viewMk] | refine (State.checked_calm _ _ _ ?_).to ?_
          | refine (State.moveOut_calm _ _ _ _ _ _ _).to ?_ | refine (State.readRecords_calm _ _ _).to ?_ | apply calmIte
          | apply calmIte1 | rfl | intro _ | split)

theorem execRead_calm (s : State) (n : Fin 8) (tag : BitVec 5) (x : Xfer) (media : List (Nat × Media)) :
    Ends rl s.view (execRead n tag x media s) := by
  unfold execRead
  (try dsimp only) <;> intros <;> with_reducible
      (repeat' first
          | exact .refl _ | assumption | apply calmBack | dsimp only [viewMk] | refine (State.startCmd_calm _ _ _ _ _ ?_).to ?_
          | refine ((State.startCmd_calm _ _ _ _ _ ?_).get (by assumption)).to ?_ | refine (State.startRead_calm _ _ _ _).to ?_
          | apply calmIte | apply calmIte1 | apply Ends.ok | apply Ends.next | apply Ends.ite | rfl | intro _ | split)

theorem execReadStream_calm (s : State) (n : Fin 8) (tag : BitVec 5) (x : Xfer) (media : List (Nat × Media)) :
    Ends rl s.view (execReadStream n tag x media s) := by
  unfold execReadStream
  (try dsimp only) <;> intros <;> with_reducible
      (repeat' first
          | exact .refl _ | assumption | apply calmBack | dsimp only [viewMk] | refine (State.startCmd_calm _ _ _ _ _ ?_).to ?_
          | refine ((State.startCmd_calm _ _ _ _ _ ?_).get (by assumption)).to ?_
          | refine (State.startReadStream_calm _ _ _ _).to ?_ | apply calmIte | apply calmIte1 | apply Ends.ok | apply Ends.next
          | apply Ends.ite | rfl | intro _ | split)

theorem State.enterBedrock_calm (s : State) (cause : Nat) :
    Calm rl s.view (State.enterBedrock s cause).view := by
  unfold State.enterBedrock
  (try dsimp only) <;> intros <;> with_reducible
      (repeat' first
          | exact .refl _ | assumption | apply calmBack | dsimp only [viewMk] | refine (State.bump_calm _ _).to ?_
          | refine (State.noteStart_calm _).to ?_ | refine (State.record_calm _ _ _ _ _ _ _).to ?_
          | refine (State.setDev_calm _ _).to ?_ | apply calmIte | apply calmIte1 | rfl | intro _ | split)

theorem State.askReinit_calm (s : State) :
    Calm rl s.view (State.askReinit s).view := by
  unfold State.askReinit
  (try dsimp only) <;> intros <;> with_reducible
      (repeat' first
          | exact .refl _ | assumption | apply calmBack | dsimp only [viewMk] | refine (State.record_calm _ _ _ _ _ _ _).to ?_
          | refine (State.setF_calm _ _ _).to ?_ | apply calmIte | rfl | intro _ | split)

theorem State.abandonMoves_calm (s : State) :
    Calm rl s.view (State.abandonMoves s).view := by
  unfold State.abandonMoves
  (try dsimp only) <;> intros <;> with_reducible
      (repeat' first
          | exact .refl _ | assumption | apply calmBack | dsimp only [viewMk] | refine (State.opUndone_calm _ _).to ?_
          | refine (State.setFchan_calm _ _ _).to ?_ | apply calmIte | apply calmFold | apply calmFold1 | rfl | intro _ | split)

theorem State.restoreReads_calm (s : State) :
    Calm rl s.view (State.restoreReads s).view := by
  unfold State.restoreReads
  (try dsimp only) <;> intros <;> with_reducible
      (repeat' first
          | exact .refl _ | assumption | apply calmBack | dsimp only [viewMk] | apply calmIte | apply calmIte1 | rfl | intro _
          | split)

theorem State.abortTransit_calm (s : State) :
    Calm rl s.view (State.abortTransit s).view := by
  unfold State.abortTransit
  (try dsimp only) <;> intros <;> with_reducible
      (repeat' first
          | exact .refl _ | assumption | apply calmBack | dsimp only [viewMk] | refine (State.complete_calm _ _ _ _).to ?_
          | refine (State.stage_calm _ _ _ _ _ _ _).to ?_ | apply calmIte | apply calmFold | apply calmFold1 | rfl | intro _
          | split)

theorem State.startReinit_calm (s : State) :
    Calm rl s.view (State.startReinit s).view := by
  unfold State.startReinit
  (try dsimp only) <;> intros <;> with_reducible
      (repeat' first
          | exact .refl _ | assumption | apply calmBack | dsimp only [viewMk] | refine (State.abandonMoves_calm _).to ?_
          | refine (State.abortTransit_calm _).to ?_ | refine (State.countF_calm _ _ _).to ?_
          | refine (State.restoreReads_calm _).to ?_ | apply calmIte | rfl | intro _ | split)

theorem State.enableDram_calm (s : State) (found : Option (Bool × Bool × BitVec 2)) :
    Calm rl s.view (State.enableDram s found).view := by
  unfold State.enableDram
  (try dsimp only) <;> intros <;> with_reducible
      (repeat' first
          | exact .refl _ | assumption | apply calmBack | dsimp only [viewMk] | refine (State.setF_calm _ _ _).to ?_ | apply calmIte
          | apply calmIte1 | apply RanCalm.done | apply RanCalm.jump | apply RanCalm.stay | apply RanCalm.fault | apply RanCalm.ite
          | rfl | intro _ | split)

theorem execDramEnable_calm (s : State) (p : Path) (found : Option (Bool × Bool × BitVec 2)) :
    Ends rl s.view (execDramEnable p found s) := by
  unfold execDramEnable
  (try dsimp only) <;> intros <;> with_reducible
      (repeat' first
          | exact .refl _ | assumption | apply calmBack | dsimp only [viewMk] | refine (State.asWrite_calm _ _ ?_).to ?_
          | refine ((State.asWrite_calm _ _ ?_).get (by assumption)).to ?_ | refine (State.enableDram_calm _ _).to ?_
          | refine (State.ignoredWrite_calm _).to ?_ | apply calmIte | apply calmIte1 | apply Ends.ok | apply Ends.next
          | apply Ends.ite | rfl | intro _ | split)

theorem State.dramPassed_calm (s : State) :
    Calm rl s.view (State.dramPassed s).view := by
  unfold State.dramPassed
  (try dsimp only) <;> intros <;> with_reducible
      (repeat' first
          | exact .refl _ | assumption | apply calmBack | dsimp only [viewMk] | refine (State.record_calm _ _ _ _ _ _ _).to ?_
          | refine (State.setF_calm _ _ _).to ?_ | apply calmIte | apply RanCalm.done | apply RanCalm.jump | apply RanCalm.stay
          | apply RanCalm.fault | apply RanCalm.ite | rfl | intro _ | split)

theorem State.reinitFailed_calm (s : State) :
    Calm rl s.view (State.reinitFailed s).view := by
  unfold State.reinitFailed
  (try dsimp only) <;> intros <;> with_reducible
      (repeat' first
          | exact .refl _ | assumption | apply calmBack | dsimp only [viewMk] | refine (State.freezeNow_calm _ _ _).to ?_
          | refine (State.record_calm _ _ _ _ _ _ _).to ?_ | refine (State.setF_calm _ _ _).to ?_ | apply calmIte | rfl | intro _
          | split)

theorem execDramInitComplete_calm (s : State) (step : Fin 5) :
    Ends rl s.view (execDramInitComplete step s) := by
  unfold execDramInitComplete
  (try dsimp only) <;> intros <;> with_reducible
      (repeat' first
          | exact .refl _ | assumption | apply calmBack | dsimp only [viewMk] | refine (State.dramPassed_calm _).to ?_
          | refine (State.enterBedrock_calm _ _).to ?_ | refine (State.record_calm _ _ _ _ _ _ _).to ?_
          | refine (State.reinitFailed_calm _).to ?_ | apply calmIte | apply Ends.ok | apply Ends.next | apply Ends.ite | rfl
          | intro _ | split)

theorem State.refreshBoundary_calm (s : State) :
    Calm rl s.view (State.refreshBoundary s).view := by
  unfold State.refreshBoundary
  extract_lets s1 s2 d s3
  have h1 : Calm rl s.view s1.view := State.takeStaged_calm _ _
  clear_value s1
  have h2 : Calm rl s.view s2.view := by
    unfold s2
    split
    · exact h1
    · exact (State.record_calm _ _ _ _ _ _ _).to ((State.setF_calm _ _ _).to h1)
  clear_value s2
  have h3 : Calm rl s.view s3.view := by
    unfold s3
    split <;> exact h2
  clear_value s3
  with_reducible
      (repeat' first
          | exact .refl _ | assumption | apply calmBack | dsimp only [viewMk] | refine (State.record_calm _ _ _ _ _ _ _).to ?_
          | refine (State.reinitFailed_calm _).to ?_ | refine (State.setF_calm _ _ _).to ?_
          | refine (State.startReinit_calm _).to ?_ | refine (State.takeStaged_calm _ _).to ?_ | apply calmIte | rfl | intro _
          | split)

theorem execRefreshInterval_calm (s : State) (rank : Fin 2) (idle : Bool) :
    Ends rl s.view (execRefreshInterval rank idle s) := by
  unfold execRefreshInterval
  (try dsimp only) <;> intros <;> with_reducible
      (repeat' first
          | exact .refl _ | assumption | apply calmBack | dsimp only [viewMk] | refine (State.refreshBoundary_calm _).to ?_
          | apply calmIte | apply Ends.ok | apply Ends.next | apply Ends.ite | rfl | intro _ | split)

theorem execRefreshWindowStart_calm (s : State) :
    Ends rl s.view (execRefreshWindowStart s) := by
  unfold execRefreshWindowStart
  (try dsimp only) <;> intros <;> with_reducible
      (repeat' first
          | exact .refl _ | assumption | apply calmBack | dsimp only [viewMk] | refine (State.takeStaged_calm _ _).to ?_
          | apply calmIte | apply Ends.ok | apply Ends.next | apply Ends.ite | rfl | intro _ | split)

theorem State.activate_calm (s : State) (addr : Nat) :
    Calm rl s.view (State.activate s addr).view := by
  unfold State.activate
  (try dsimp only) <;> intros <;> with_reducible
      (repeat' first
          | exact .refl _ | assumption | apply calmBack | dsimp only [viewMk] | refine (State.bump_calm _ _).to ?_
          | refine (State.countF_calm _ _ _).to ?_ | refine (State.record_calm _ _ _ _ _ _ _).to ?_ | apply calmIte | apply calmIte1
          | rfl | intro _ | split)

theorem State.latchEcc_calm (s : State) (addr : Nat) (bad : Bool) :
    Calm rl s.view (State.latchEcc s addr bad).view := by
  unfold State.latchEcc
  (try dsimp only) <;> intros <;> with_reducible
      (repeat' first
          | exact .refl _ | assumption | apply calmBack | dsimp only [viewMk] | refine (State.setF_calm _ _ _).to ?_ | apply calmIte
          | rfl | intro _ | split)

theorem State.eccCorrected_calm (s : State) (addr : Nat) :
    Calm rl s.view (State.eccCorrected s addr).view := by
  unfold State.eccCorrected
  (try dsimp only) <;> intros <;> with_reducible
      (repeat' first
          | exact .refl _ | assumption | apply calmBack | dsimp only [viewMk] | refine (State.bump_calm _ _).to ?_
          | refine (State.countF_calm _ _ _).to ?_ | refine (State.latchEcc_calm _ _ _).to ?_
          | refine (State.record_calm _ _ _ _ _ _ _).to ?_ | apply calmIte | rfl | intro _ | split)

theorem State.eccUncorrectable_calm (s : State) (addr : Nat) (consumer : Nat) :
    Calm rl s.view (State.eccUncorrectable s addr consumer).view := by
  unfold State.eccUncorrectable
  (try dsimp only) <;> intros <;> with_reducible
      (repeat' first
          | exact .refl _ | assumption | apply calmBack | dsimp only [viewMk] | refine (State.abandonMoves_calm _).to ?_
          | refine (State.askReinit_calm _).to ?_ | refine (State.bump_calm _ _).to ?_ | refine (State.countF_calm _ _ _).to ?_
          | refine (State.latchEcc_calm _ _ _).to ?_ | refine (State.record_calm _ _ _ _ _ _ _).to ?_
          | refine (State.restoreReads_calm _).to ?_ | apply calmIte | rfl | intro _ | split)

theorem State.dramFact_calm (s : State) (f : DramFact) :
    Calm rl s.view (State.dramFact s f).view := by
  unfold State.dramFact
  (try dsimp only) <;> intros <;> with_reducible
      (repeat' first
          | exact .refl _ | assumption | apply calmBack | dsimp only [viewMk] | refine (State.activate_calm _ _).to ?_
          | refine (State.eccCorrected_calm _ _).to ?_ | refine (State.eccUncorrectable_calm _ _ _).to ?_ | apply calmIte | rfl
          | intro _ | split)

theorem execScrubPass_calm (s : State) (facts : List DramFact) :
    Ends rl s.view (execScrubPass facts s) := by
  unfold execScrubPass
  (try dsimp only) <;> intros <;> with_reducible
      (repeat' first
          | exact .refl _ | assumption | apply calmBack | dsimp only [viewMk] | refine (State.dramFact_calm _ _).to ?_
          | apply calmIte | apply calmFold | apply calmFold1 | apply Ends.ok | apply Ends.next | apply Ends.ite | rfl | intro _
          | split)

theorem State.replayFailed_calm (s : State) :
    Calm rl s.view (State.replayFailed s).view := by
  unfold State.replayFailed
  (try dsimp only) <;> intros <;> with_reducible
      (repeat' first
          | exact .refl _ | assumption | apply calmBack | dsimp only [viewMk] | refine (State.askReinit_calm _).to ?_
          | refine (State.setF_calm _ _ _).to ?_ | apply calmIte | rfl | intro _ | split)

theorem execDramParityAlert_calm (s : State) :
    Ends rl s.view (execDramParityAlert s) := by
  unfold execDramParityAlert
  (try dsimp only) <;> intros <;> with_reducible
      (repeat' first
          | exact .refl _ | assumption | apply calmBack | dsimp only [viewMk] | refine (State.countF_calm _ _ _).to ?_
          | refine (State.setF_calm _ _ _).to ?_ | apply calmIte | apply Ends.ok | apply Ends.next | apply Ends.ite | rfl | intro _
          | split)

theorem execDAlertNHigh_calm (s : State) (rank : Fin 2) (replayed : BitVec 5) (again : Bool) :
    Ends rl s.view (execDAlertNHigh rank replayed again s) := by
  unfold execDAlertNHigh
  (try dsimp only) <;> intros <;> with_reducible
      (repeat' first
          | exact .refl _ | assumption | apply calmBack | dsimp only [viewMk] | refine (State.bump_calm _ _).to ?_
          | refine (State.countF_calm _ _ _).to ?_ | refine (State.record_calm _ _ _ _ _ _ _).to ?_
          | refine (State.replayFailed_calm _).to ?_ | refine (State.setF_calm _ _ _).to ?_ | apply calmIte | apply Ends.ok
          | apply Ends.next | apply Ends.ite | rfl | intro _ | split)

theorem execAlertTimeout_calm (s : State) :
    Ends rl s.view (execAlertTimeout s) := by
  unfold execAlertTimeout
  (try dsimp only) <;> intros <;> with_reducible
      (repeat' first
          | exact .refl _ | assumption | apply calmBack | dsimp only [viewMk] | refine (State.replayFailed_calm _).to ?_
          | apply calmIte | apply Ends.ok | apply Ends.next | apply Ends.ite | rfl | intro _ | split)

theorem State.railFault_calm (s : State) (code : Nat) (dram : Bool) :
    Calm rl s.view (State.railFault s code dram).view := by
  unfold State.railFault
  (try dsimp only) <;> intros <;> with_reducible
      (repeat' first
          | exact .refl _ | assumption | apply calmBack | dsimp only [viewMk] | refine (State.bump_calm _ _).to ?_
          | refine (State.freezeNow_calm _ _ _).to ?_ | refine (State.raise_calm _ _ _).to ?_
          | refine (State.record_calm _ _ _ _ _ _ _).to ?_ | apply calmIte | rfl | intro _ | split)

theorem execRailFault_calm (s : State) (r : Rail) :
    Ends rl s.view (execRailFault r s) := by
  unfold execRailFault
  (try dsimp only) <;> intros <;> with_reducible
      (repeat' first
          | exact .refl _ | assumption | apply calmBack | dsimp only [viewMk] | refine (State.railFault_calm _ _ _).to ?_
          | apply calmIte | apply Ends.ok | apply Ends.next | apply Ends.ite | rfl | intro _ | split)

theorem execRailRecovery_calm (s : State) (r : Rail) :
    Ends rl s.view (execRailRecovery r s) := by
  unfold execRailRecovery
  (try dsimp only) <;> intros <;> with_reducible
      (repeat' first
          | exact .refl _ | assumption | apply calmBack | dsimp only [viewMk] | refine (State.askReinit_calm _).to ?_
          | apply calmIte | apply Ends.ok | apply Ends.next | apply Ends.ite | rfl | intro _ | split)

theorem State.setBand_calm (s : State) (b : Nat) :
    Calm rl s.view (State.setBand s b).view := by
  unfold State.setBand
  (try dsimp only) <;> intros <;> with_reducible
      (repeat' first
          | exact .refl _ | assumption | apply calmBack | dsimp only [viewMk] | refine (State.setF_calm _ _ _).to ?_
          | refine (State.settleLedger_calm _ _).to ?_ | apply calmIte | rfl | intro _ | split)

theorem execJunctionSensorRead_calm (s : State) (t : Int) :
    Ends rl s.view (execJunctionSensorRead t s) := by
  unfold execJunctionSensorRead
  (try dsimp only) <;> intros <;> with_reducible
      (repeat' first
          | exact .refl _ | assumption | apply calmBack | dsimp only [viewMk] | refine (State.railFault_calm _ _ _).to ?_
          | refine (State.setBand_calm _ _).to ?_ | apply calmIte | apply Ends.ok | apply Ends.next | apply Ends.ite | rfl | intro _
          | split)

end Sys2Proof.Machine
end

