-- ==== Sys2Proof/Laws/CalmBelion.lean ====
section
/-! SUPPORT. `Calm` through every operation and meaning: the Belion instructions that reach no window. -/

set_option linter.unusedVariables false

namespace Sys2Proof.Machine

variable {rl : Bool}

theorem State.setData_calm (s : State) (e : Nat) (a : Nat) (b : Bytes) :
    Calm rl s.view (State.setData s e a b).view := by
  unfold State.setData
  (try dsimp only) <;> intros <;> with_reducible
      (repeat' first
          | exact .refl _ | assumption | apply calmBack | dsimp only [viewMk] | apply calmIte | rfl | intro _ | split)

theorem State.stopHooks_calm (s : State) :
    Calm rl s.view (State.stopHooks s).view := by
  unfold State.stopHooks
  (try dsimp only) <;> intros <;> with_reducible
      (repeat' first
          | exact .refl _ | assumption | apply calmBack | dsimp only [viewMk] | refine (State.setEngine_calm _ _ _).to ?_
          | apply calmIte | rfl | intro _ | split)

theorem State.abortK_calm (s : State) :
    Calm rl s.view (State.abortK s).view := by
  unfold State.abortK
  (try dsimp only) <;> intros <;> with_reducible
      (repeat' first
          | exact .refl _ | assumption | apply calmBack | dsimp only [viewMk] | refine (State.complete_calm _ _ _ _).to ?_
          | refine (State.endSelfRecord_calm _ _ _ _ _).to ?_ | refine (State.record_calm _ _ _ _ _ _ _).to ?_
          | refine (State.stage_calm _ _ _ _ _ _ _).to ?_ | apply calmIte | apply calmFold | apply calmFold1 | rfl | intro _
          | split)

theorem State.supervisorStopped_calm (s : State) :
    Calm rl s.view (State.supervisorStopped s).view := by
  unfold State.supervisorStopped
  (try dsimp only) <;> intros <;> with_reducible
      (repeat' first
          | exact .refl _ | assumption | apply calmBack | dsimp only [viewMk] | refine (State.abortK_calm _).to ?_
          | refine (State.regrade_calm _).to ?_ | refine (State.stopHooks_calm _).to ?_ | apply calmIte | rfl | intro _ | split)

theorem State.engineFault_calm (s : State) (e : Nat) (cause : Nat) (at_ : Nat) (word : Word) :
    Calm rl s.view (State.engineFault s e cause at_ word).view := by
  unfold State.engineFault
  (try dsimp only) <;> intros <;> with_reducible
      (repeat' first
          | exact .refl _ | assumption | apply calmBack | dsimp only [viewMk] | refine (State.abandonHook_calm _).to ?_
          | refine (State.bump_calm _ _).to ?_ | refine (State.failChannel_calm _ _).to ?_
          | refine (State.record_calm _ _ _ _ _ _ _).to ?_ | refine (State.setEngine_calm _ _ _).to ?_
          | refine (State.supervisorStopped_calm _).to ?_ | apply calmIte | apply calmIte1 | rfl | intro _ | split)

theorem State.setPc_calm (s : State) (e : Nat) (pc : Nat) :
    Calm rl s.view (State.setPc s e pc).view := by
  unfold State.setPc
  (try dsimp only) <;> intros <;> with_reducible
      (repeat' first
          | exact .refl _ | assumption | apply calmBack | dsimp only [viewMk] | refine (State.setEngine_calm _ _ _).to ?_
          | apply calmIte | rfl | intro _ | split)

theorem State.advance_calm (s : State) (e : Nat) (pc : Nat) (word : Word) :
    Calm rl s.view (State.advance s e pc word).view := by
  unfold State.advance
  (try dsimp only) <;> intros <;> with_reducible
      (repeat' first
          | exact .refl _ | assumption | apply calmBack | dsimp only [viewMk] | refine (State.engineFault_calm _ _ _ _ _).to ?_
          | refine (State.setPc_calm _ _ _).to ?_ | apply calmIte | rfl | intro _ | split)

theorem State.jumpTo_calm (s : State) (t : State) (e : Nat) (pc : Nat) (target : Nat) (word : Word) (h : Calm rl s.view t.view) :
    Calm rl s.view (State.jumpTo s t e pc target word).view := by
  unfold State.jumpTo
  (try dsimp only) <;> intros <;> with_reducible
      (repeat' first
          | exact .refl _ | assumption | apply calmBack | dsimp only [viewMk] | refine (State.engineFault_calm _ _ _ _ _).to ?_
          | refine (State.setPc_calm _ _ _).to ?_ | refine h.to ?_ | apply calmIte | apply RanCalm.done | apply RanCalm.jump
          | apply RanCalm.stay | apply RanCalm.fault | apply RanCalm.ite | rfl | intro _ | split)

theorem State.run_calm (s : State) (e : Fin 10) (kinds : Nat) (word : Word) (f : State → Engine → Ran) (hf : ∀ s a0, RanCalm rl (State.view s) (f s a0)) :
    Ends rl s.view (State.run s e kinds word f) := by
  unfold State.run
  (try dsimp only) <;> intros <;> with_reducible
      (repeat' first
          | exact .refl _ | assumption | apply calmBack | dsimp only [viewMk] | refine (State.advance_calm _ _ _ _).to ?_
          | refine (State.engineFault_calm _ _ _ _ _).to ?_ | refine (State.jumpTo_calm _ _ _ _ _ _ ?_).to ?_
          | refine (hf _ _).to ?_ | refine ((hf _ _).gd (by assumption)).to ?_ | refine ((hf _ _).gj (by assumption)).to ?_
          | refine ((hf _ _).gs (by assumption)).to ?_ | apply calmIte | apply Ends.ok | apply Ends.next | apply Ends.ite
          | apply RanCalm.done | apply RanCalm.jump | apply RanCalm.stay | apply RanCalm.fault | apply RanCalm.ite | rfl | intro _
          | split)

theorem execIllegalInstruction_calm (s : State) (e : Fin 10) (word : Word) (parity : Bool) :
    Ends rl s.view (execIllegalInstruction e word parity s) := by
  unfold execIllegalInstruction
  (try dsimp only) <;> intros <;> with_reducible
      (repeat' first
          | exact .refl _ | assumption | apply calmBack | dsimp only [viewMk] | refine (State.run_calm _ _ _ _ _ ?_).to ?_
          | refine ((State.run_calm _ _ _ _ _ ?_).get (by assumption)).to ?_ | apply calmIte | apply Ends.ok | apply Ends.next
          | apply Ends.ite | apply RanCalm.done | apply RanCalm.jump | apply RanCalm.stay | apply RanCalm.fault | apply RanCalm.ite
          | rfl | intro _ | split)

theorem State.opA_calm (s : State) (e : Fin 10) (func : Nat) (kd : BitVec 4) (ka : BitVec 4) (kb : BitVec 4) (f : Bool) (op : Engine → Word → Word → Word) (fl : Engine → Word → Word → Word → Engine) :
    Ends rl s.view (State.opA s e func kd ka kb f op fl) := by
  unfold State.opA
  (try dsimp only) <;> intros <;> with_reducible
      (repeat' first
          | exact .refl _ | assumption | apply calmBack | dsimp only [viewMk] | refine (State.run_calm _ _ _ _ _ ?_).to ?_
          | refine ((State.run_calm _ _ _ _ _ ?_).get (by assumption)).to ?_ | refine (State.setEngine_calm _ _ _).to ?_
          | apply calmIte | apply Ends.ok | apply Ends.next | apply Ends.ite | apply RanCalm.done | apply RanCalm.jump
          | apply RanCalm.stay | apply RanCalm.fault | apply RanCalm.ite | rfl | intro _ | split)

theorem execAdd_calm (s : State) (e : Fin 10) (kd : BitVec 4) (ka : BitVec 4) (kb : BitVec 4) (f : Bool) :
    Ends rl s.view (execAdd e kd ka kb f s) := by
  unfold execAdd
  (try dsimp only) <;> intros <;> with_reducible
      (repeat' first
          | exact .refl _ | assumption | apply calmBack | dsimp only [viewMk] | refine (State.opA_calm _ _ _ _ _ _ _ _ _).to ?_
          | refine ((State.opA_calm _ _ _ _ _ _ _ _ _).get (by assumption)).to ?_ | apply calmIte | apply Ends.ok | apply Ends.next
          | apply Ends.ite | rfl | intro _ | split)

theorem execAdc_calm (s : State) (e : Fin 10) (kd : BitVec 4) (ka : BitVec 4) (kb : BitVec 4) (f : Bool) :
    Ends rl s.view (execAdc e kd ka kb f s) := by
  unfold execAdc
  (try dsimp only) <;> intros <;> with_reducible
      (repeat' first
          | exact .refl _ | assumption | apply calmBack | dsimp only [viewMk] | refine (State.opA_calm _ _ _ _ _ _ _ _ _).to ?_
          | refine ((State.opA_calm _ _ _ _ _ _ _ _ _).get (by assumption)).to ?_ | apply calmIte | apply Ends.ok | apply Ends.next
          | apply Ends.ite | rfl | intro _ | split)

theorem execSub_calm (s : State) (e : Fin 10) (kd : BitVec 4) (ka : BitVec 4) (kb : BitVec 4) (f : Bool) :
    Ends rl s.view (execSub e kd ka kb f s) := by
  unfold execSub
  (try dsimp only) <;> intros <;> with_reducible
      (repeat' first
          | exact .refl _ | assumption | apply calmBack | dsimp only [viewMk] | refine (State.opA_calm _ _ _ _ _ _ _ _ _).to ?_
          | refine ((State.opA_calm _ _ _ _ _ _ _ _ _).get (by assumption)).to ?_ | apply calmIte | apply Ends.ok | apply Ends.next
          | apply Ends.ite | rfl | intro _ | split)

theorem execSbc_calm (s : State) (e : Fin 10) (kd : BitVec 4) (ka : BitVec 4) (kb : BitVec 4) (f : Bool) :
    Ends rl s.view (execSbc e kd ka kb f s) := by
  unfold execSbc
  (try dsimp only) <;> intros <;> with_reducible
      (repeat' first
          | exact .refl _ | assumption | apply calmBack | dsimp only [viewMk] | refine (State.opA_calm _ _ _ _ _ _ _ _ _).to ?_
          | refine ((State.opA_calm _ _ _ _ _ _ _ _ _).get (by assumption)).to ?_ | apply calmIte | apply Ends.ok | apply Ends.next
          | apply Ends.ite | rfl | intro _ | split)

theorem execAnd_calm (s : State) (e : Fin 10) (kd : BitVec 4) (ka : BitVec 4) (kb : BitVec 4) (f : Bool) :
    Ends rl s.view (execAnd e kd ka kb f s) := by
  unfold execAnd
  (try dsimp only) <;> intros <;> with_reducible
      (repeat' first
          | exact .refl _ | assumption | apply calmBack | dsimp only [viewMk] | refine (State.opA_calm _ _ _ _ _ _ _ _ _).to ?_
          | refine ((State.opA_calm _ _ _ _ _ _ _ _ _).get (by assumption)).to ?_ | apply calmIte | apply Ends.ok | apply Ends.next
          | apply Ends.ite | rfl | intro _ | split)

theorem execOr_calm (s : State) (e : Fin 10) (kd : BitVec 4) (ka : BitVec 4) (kb : BitVec 4) (f : Bool) :
    Ends rl s.view (execOr e kd ka kb f s) := by
  unfold execOr
  (try dsimp only) <;> intros <;> with_reducible
      (repeat' first
          | exact .refl _ | assumption | apply calmBack | dsimp only [viewMk] | refine (State.opA_calm _ _ _ _ _ _ _ _ _).to ?_
          | refine ((State.opA_calm _ _ _ _ _ _ _ _ _).get (by assumption)).to ?_ | apply calmIte | apply Ends.ok | apply Ends.next
          | apply Ends.ite | rfl | intro _ | split)

theorem execXor_calm (s : State) (e : Fin 10) (kd : BitVec 4) (ka : BitVec 4) (kb : BitVec 4) (f : Bool) :
    Ends rl s.view (execXor e kd ka kb f s) := by
  unfold execXor
  (try dsimp only) <;> intros <;> with_reducible
      (repeat' first
          | exact .refl _ | assumption | apply calmBack | dsimp only [viewMk] | refine (State.opA_calm _ _ _ _ _ _ _ _ _).to ?_
          | refine ((State.opA_calm _ _ _ _ _ _ _ _ _).get (by assumption)).to ?_ | apply calmIte | apply Ends.ok | apply Ends.next
          | apply Ends.ite | rfl | intro _ | split)

theorem execAndn_calm (s : State) (e : Fin 10) (kd : BitVec 4) (ka : BitVec 4) (kb : BitVec 4) (f : Bool) :
    Ends rl s.view (execAndn e kd ka kb f s) := by
  unfold execAndn
  (try dsimp only) <;> intros <;> with_reducible
      (repeat' first
          | exact .refl _ | assumption | apply calmBack | dsimp only [viewMk] | refine (State.opA_calm _ _ _ _ _ _ _ _ _).to ?_
          | refine ((State.opA_calm _ _ _ _ _ _ _ _ _).get (by assumption)).to ?_ | apply calmIte | apply Ends.ok | apply Ends.next
          | apply Ends.ite | rfl | intro _ | split)

theorem execShl_calm (s : State) (e : Fin 10) (kd : BitVec 4) (ka : BitVec 4) (kb : BitVec 4) (f : Bool) :
    Ends rl s.view (execShl e kd ka kb f s) := by
  unfold execShl
  (try dsimp only) <;> intros <;> with_reducible
      (repeat' first
          | exact .refl _ | assumption | apply calmBack | dsimp only [viewMk] | refine (State.opA_calm _ _ _ _ _ _ _ _ _).to ?_
          | refine ((State.opA_calm _ _ _ _ _ _ _ _ _).get (by assumption)).to ?_ | apply calmIte | apply Ends.ok | apply Ends.next
          | apply Ends.ite | rfl | intro _ | split)

theorem execShr_calm (s : State) (e : Fin 10) (kd : BitVec 4) (ka : BitVec 4) (kb : BitVec 4) (f : Bool) :
    Ends rl s.view (execShr e kd ka kb f s) := by
  unfold execShr
  (try dsimp only) <;> intros <;> with_reducible
      (repeat' first
          | exact .refl _ | assumption | apply calmBack | dsimp only [viewMk] | refine (State.opA_calm _ _ _ _ _ _ _ _ _).to ?_
          | refine ((State.opA_calm _ _ _ _ _ _ _ _ _).get (by assumption)).to ?_ | apply calmIte | apply Ends.ok | apply Ends.next
          | apply Ends.ite | rfl | intro _ | split)

theorem execSar_calm (s : State) (e : Fin 10) (kd : BitVec 4) (ka : BitVec 4) (kb : BitVec 4) (f : Bool) :
    Ends rl s.view (execSar e kd ka kb f s) := by
  unfold execSar
  (try dsimp only) <;> intros <;> with_reducible
      (repeat' first
          | exact .refl _ | assumption | apply calmBack | dsimp only [viewMk] | refine (State.opA_calm _ _ _ _ _ _ _ _ _).to ?_
          | refine ((State.opA_calm _ _ _ _ _ _ _ _ _).get (by assumption)).to ?_ | apply calmIte | apply Ends.ok | apply Ends.next
          | apply Ends.ite | rfl | intro _ | split)

theorem execRor_calm (s : State) (e : Fin 10) (kd : BitVec 4) (ka : BitVec 4) (kb : BitVec 4) (f : Bool) :
    Ends rl s.view (execRor e kd ka kb f s) := by
  unfold execRor
  (try dsimp only) <;> intros <;> with_reducible
      (repeat' first
          | exact .refl _ | assumption | apply calmBack | dsimp only [viewMk] | refine (State.opA_calm _ _ _ _ _ _ _ _ _).to ?_
          | refine ((State.opA_calm _ _ _ _ _ _ _ _ _).get (by assumption)).to ?_ | apply calmIte | apply Ends.ok | apply Ends.next
          | apply Ends.ite | rfl | intro _ | split)

theorem execMul_calm (s : State) (e : Fin 10) (kd : BitVec 4) (ka : BitVec 4) (kb : BitVec 4) (f : Bool) :
    Ends rl s.view (execMul e kd ka kb f s) := by
  unfold execMul
  (try dsimp only) <;> intros <;> with_reducible
      (repeat' first
          | exact .refl _ | assumption | apply calmBack | dsimp only [viewMk] | refine (State.opA_calm _ _ _ _ _ _ _ _ _).to ?_
          | refine ((State.opA_calm _ _ _ _ _ _ _ _ _).get (by assumption)).to ?_ | apply calmIte | apply Ends.ok | apply Ends.next
          | apply Ends.ite | rfl | intro _ | split)

theorem execMulhu_calm (s : State) (e : Fin 10) (kd : BitVec 4) (ka : BitVec 4) (kb : BitVec 4) (f : Bool) :
    Ends rl s.view (execMulhu e kd ka kb f s) := by
  unfold execMulhu
  (try dsimp only) <;> intros <;> with_reducible
      (repeat' first
          | exact .refl _ | assumption | apply calmBack | dsimp only [viewMk] | refine (State.opA_calm _ _ _ _ _ _ _ _ _).to ?_
          | refine ((State.opA_calm _ _ _ _ _ _ _ _ _).get (by assumption)).to ?_ | apply calmIte | apply Ends.ok | apply Ends.next
          | apply Ends.ite | rfl | intro _ | split)

theorem execMinu_calm (s : State) (e : Fin 10) (kd : BitVec 4) (ka : BitVec 4) (kb : BitVec 4) (f : Bool) :
    Ends rl s.view (execMinu e kd ka kb f s) := by
  unfold execMinu
  (try dsimp only) <;> intros <;> with_reducible
      (repeat' first
          | exact .refl _ | assumption | apply calmBack | dsimp only [viewMk] | refine (State.opA_calm _ _ _ _ _ _ _ _ _).to ?_
          | refine ((State.opA_calm _ _ _ _ _ _ _ _ _).get (by assumption)).to ?_ | apply calmIte | apply Ends.ok | apply Ends.next
          | apply Ends.ite | rfl | intro _ | split)

theorem execMaxu_calm (s : State) (e : Fin 10) (kd : BitVec 4) (ka : BitVec 4) (kb : BitVec 4) (f : Bool) :
    Ends rl s.view (execMaxu e kd ka kb f s) := by
  unfold execMaxu
  (try dsimp only) <;> intros <;> with_reducible
      (repeat' first
          | exact .refl _ | assumption | apply calmBack | dsimp only [viewMk] | refine (State.opA_calm _ _ _ _ _ _ _ _ _).to ?_
          | refine ((State.opA_calm _ _ _ _ _ _ _ _ _).get (by assumption)).to ?_ | apply calmIte | apply Ends.ok | apply Ends.next
          | apply Ends.ite | rfl | intro _ | split)

theorem execClz_calm (s : State) (e : Fin 10) (kd : BitVec 4) (ka : BitVec 4) (f : Bool) :
    Ends rl s.view (execClz e kd ka f s) := by
  unfold execClz
  (try dsimp only) <;> intros <;> with_reducible
      (repeat' first
          | exact .refl _ | assumption | apply calmBack | dsimp only [viewMk] | refine (State.opA_calm _ _ _ _ _ _ _ _ _).to ?_
          | refine ((State.opA_calm _ _ _ _ _ _ _ _ _).get (by assumption)).to ?_ | apply calmIte | apply Ends.ok | apply Ends.next
          | apply Ends.ite | rfl | intro _ | split)

theorem execPopc_calm (s : State) (e : Fin 10) (kd : BitVec 4) (ka : BitVec 4) (f : Bool) :
    Ends rl s.view (execPopc e kd ka f s) := by
  unfold execPopc
  (try dsimp only) <;> intros <;> with_reducible
      (repeat' first
          | exact .refl _ | assumption | apply calmBack | dsimp only [viewMk] | refine (State.opA_calm _ _ _ _ _ _ _ _ _).to ?_
          | refine ((State.opA_calm _ _ _ _ _ _ _ _ _).get (by assumption)).to ?_ | apply calmIte | apply Ends.ok | apply Ends.next
          | apply Ends.ite | rfl | intro _ | split)

theorem execBswap_calm (s : State) (e : Fin 10) (kd : BitVec 4) (ka : BitVec 4) (f : Bool) :
    Ends rl s.view (execBswap e kd ka f s) := by
  unfold execBswap
  (try dsimp only) <;> intros <;> with_reducible
      (repeat' first
          | exact .refl _ | assumption | apply calmBack | dsimp only [viewMk] | refine (State.opA_calm _ _ _ _ _ _ _ _ _).to ?_
          | refine ((State.opA_calm _ _ _ _ _ _ _ _ _).get (by assumption)).to ?_ | apply calmIte | apply Ends.ok | apply Ends.next
          | apply Ends.ite | rfl | intro _ | split)

theorem execCrcw_calm (s : State) (e : Fin 10) (kd : BitVec 4) (ka : BitVec 4) (kb : BitVec 4) (f : Bool) :
    Ends rl s.view (execCrcw e kd ka kb f s) := by
  unfold execCrcw
  (try dsimp only) <;> intros <;> with_reducible
      (repeat' first
          | exact .refl _ | assumption | apply calmBack | dsimp only [viewMk] | refine (State.opA_calm _ _ _ _ _ _ _ _ _).to ?_
          | refine ((State.opA_calm _ _ _ _ _ _ _ _ _).get (by assumption)).to ?_ | apply calmIte | apply Ends.ok | apply Ends.next
          | apply Ends.ite | rfl | intro _ | split)

theorem execCmp_calm (s : State) (e : Fin 10) (ka : BitVec 4) (kb : BitVec 4) (f : Bool) :
    Ends rl s.view (execCmp e ka kb f s) := by
  unfold execCmp
  (try dsimp only) <;> intros <;> with_reducible
      (repeat' first
          | exact .refl _ | assumption | apply calmBack | dsimp only [viewMk] | refine (State.run_calm _ _ _ _ _ ?_).to ?_
          | refine ((State.run_calm _ _ _ _ _ ?_).get (by assumption)).to ?_ | refine (State.setEngine_calm _ _ _).to ?_
          | apply calmIte | apply Ends.ok | apply Ends.next | apply Ends.ite | apply RanCalm.done | apply RanCalm.jump
          | apply RanCalm.stay | apply RanCalm.fault | apply RanCalm.ite | rfl | intro _ | split)

theorem execTst_calm (s : State) (e : Fin 10) (ka : BitVec 4) (kb : BitVec 4) (f : Bool) :
    Ends rl s.view (execTst e ka kb f s) := by
  unfold execTst
  (try dsimp only) <;> intros <;> with_reducible
      (repeat' first
          | exact .refl _ | assumption | apply calmBack | dsimp only [viewMk] | refine (State.run_calm _ _ _ _ _ ?_).to ?_
          | refine ((State.run_calm _ _ _ _ _ ?_).get (by assumption)).to ?_ | refine (State.setEngine_calm _ _ _).to ?_
          | apply calmIte | apply Ends.ok | apply Ends.next | apply Ends.ite | apply RanCalm.done | apply RanCalm.jump
          | apply RanCalm.stay | apply RanCalm.fault | apply RanCalm.ite | rfl | intro _ | split)

theorem State.opB_calm (s : State) (e : Fin 10) (major : Nat) (kd : BitVec 4) (ka : BitVec 4) (f : Bool) (imm : BitVec 16) (op : Word → Word) (fl : Engine → Word → Word → Engine) :
    Ends rl s.view (State.opB s e major kd ka f imm op fl) := by
  unfold State.opB
  (try dsimp only) <;> intros <;> with_reducible
      (repeat' first
          | exact .refl _ | assumption | apply calmBack | dsimp only [viewMk] | refine (State.run_calm _ _ _ _ _ ?_).to ?_
          | refine ((State.run_calm _ _ _ _ _ ?_).get (by assumption)).to ?_ | refine (State.setEngine_calm _ _ _).to ?_
          | apply calmIte | apply Ends.ok | apply Ends.next | apply Ends.ite | apply RanCalm.done | apply RanCalm.jump
          | apply RanCalm.stay | apply RanCalm.fault | apply RanCalm.ite | rfl | intro _ | split)

theorem execAddi_calm (s : State) (e : Fin 10) (kd : BitVec 4) (ka : BitVec 4) (f : Bool) (imm : BitVec 16) :
    Ends rl s.view (execAddi e kd ka f imm s) := by
  unfold execAddi
  (try dsimp only) <;> intros <;> with_reducible
      (repeat' first
          | exact .refl _ | assumption | apply calmBack | dsimp only [viewMk] | refine (State.opB_calm _ _ _ _ _ _ _ _ _).to ?_
          | refine ((State.opB_calm _ _ _ _ _ _ _ _ _).get (by assumption)).to ?_ | apply calmIte | apply Ends.ok | apply Ends.next
          | apply Ends.ite | rfl | intro _ | split)

theorem execAndi_calm (s : State) (e : Fin 10) (kd : BitVec 4) (ka : BitVec 4) (f : Bool) (imm : BitVec 16) :
    Ends rl s.view (execAndi e kd ka f imm s) := by
  unfold execAndi
  (try dsimp only) <;> intros <;> with_reducible
      (repeat' first
          | exact .refl _ | assumption | apply calmBack | dsimp only [viewMk] | refine (State.opB_calm _ _ _ _ _ _ _ _ _).to ?_
          | refine ((State.opB_calm _ _ _ _ _ _ _ _ _).get (by assumption)).to ?_ | apply calmIte | apply Ends.ok | apply Ends.next
          | apply Ends.ite | rfl | intro _ | split)

theorem execOri_calm (s : State) (e : Fin 10) (kd : BitVec 4) (ka : BitVec 4) (f : Bool) (imm : BitVec 16) :
    Ends rl s.view (execOri e kd ka f imm s) := by
  unfold execOri
  (try dsimp only) <;> intros <;> with_reducible
      (repeat' first
          | exact .refl _ | assumption | apply calmBack | dsimp only [viewMk] | refine (State.opB_calm _ _ _ _ _ _ _ _ _).to ?_
          | refine ((State.opB_calm _ _ _ _ _ _ _ _ _).get (by assumption)).to ?_ | apply calmIte | apply Ends.ok | apply Ends.next
          | apply Ends.ite | rfl | intro _ | split)

theorem execXori_calm (s : State) (e : Fin 10) (kd : BitVec 4) (ka : BitVec 4) (f : Bool) (imm : BitVec 16) :
    Ends rl s.view (execXori e kd ka f imm s) := by
  unfold execXori
  (try dsimp only) <;> intros <;> with_reducible
      (repeat' first
          | exact .refl _ | assumption | apply calmBack | dsimp only [viewMk] | refine (State.opB_calm _ _ _ _ _ _ _ _ _).to ?_
          | refine ((State.opB_calm _ _ _ _ _ _ _ _ _).get (by assumption)).to ?_ | apply calmIte | apply Ends.ok | apply Ends.next
          | apply Ends.ite | rfl | intro _ | split)

theorem execCmpi_calm (s : State) (e : Fin 10) (ka : BitVec 4) (f : Bool) (imm : BitVec 16) :
    Ends rl s.view (execCmpi e ka f imm s) := by
  unfold execCmpi
  (try dsimp only) <;> intros <;> with_reducible
      (repeat' first
          | exact .refl _ | assumption | apply calmBack | dsimp only [viewMk] | refine (State.run_calm _ _ _ _ _ ?_).to ?_
          | refine ((State.run_calm _ _ _ _ _ ?_).get (by assumption)).to ?_ | refine (State.setEngine_calm _ _ _).to ?_
          | apply calmIte | apply Ends.ok | apply Ends.next | apply Ends.ite | apply RanCalm.done | apply RanCalm.jump
          | apply RanCalm.stay | apply RanCalm.fault | apply RanCalm.ite | rfl | intro _ | split)

theorem execShli_calm (s : State) (e : Fin 10) (kd : BitVec 4) (ka : BitVec 4) (f : Bool) (n : BitVec 5) :
    Ends rl s.view (execShli e kd ka f n s) := by
  unfold execShli
  (try dsimp only) <;> intros <;> with_reducible
      (repeat' first
          | exact .refl _ | assumption | apply calmBack | dsimp only [viewMk] | refine (State.opB_calm _ _ _ _ _ _ _ _ _).to ?_
          | refine ((State.opB_calm _ _ _ _ _ _ _ _ _).get (by assumption)).to ?_ | apply calmIte | apply Ends.ok | apply Ends.next
          | apply Ends.ite | rfl | intro _ | split)

theorem execShri_calm (s : State) (e : Fin 10) (kd : BitVec 4) (ka : BitVec 4) (f : Bool) (n : BitVec 5) :
    Ends rl s.view (execShri e kd ka f n s) := by
  unfold execShri
  (try dsimp only) <;> intros <;> with_reducible
      (repeat' first
          | exact .refl _ | assumption | apply calmBack | dsimp only [viewMk] | refine (State.opB_calm _ _ _ _ _ _ _ _ _).to ?_
          | refine ((State.opB_calm _ _ _ _ _ _ _ _ _).get (by assumption)).to ?_ | apply calmIte | apply Ends.ok | apply Ends.next
          | apply Ends.ite | rfl | intro _ | split)

theorem execSari_calm (s : State) (e : Fin 10) (kd : BitVec 4) (ka : BitVec 4) (f : Bool) (n : BitVec 5) :
    Ends rl s.view (execSari e kd ka f n s) := by
  unfold execSari
  (try dsimp only) <;> intros <;> with_reducible
      (repeat' first
          | exact .refl _ | assumption | apply calmBack | dsimp only [viewMk] | refine (State.opB_calm _ _ _ _ _ _ _ _ _).to ?_
          | refine ((State.opB_calm _ _ _ _ _ _ _ _ _).get (by assumption)).to ?_ | apply calmIte | apply Ends.ok | apply Ends.next
          | apply Ends.ite | rfl | intro _ | split)

theorem execLui_calm (s : State) (e : Fin 10) (kd : BitVec 4) (imm : BitVec 16) :
    Ends rl s.view (execLui e kd imm s) := by
  unfold execLui
  (try dsimp only) <;> intros <;> with_reducible
      (repeat' first
          | exact .refl _ | assumption | apply calmBack | dsimp only [viewMk] | refine (State.opB_calm _ _ _ _ _ _ _ _ _).to ?_
          | refine ((State.opB_calm _ _ _ _ _ _ _ _ _).get (by assumption)).to ?_ | apply calmIte | apply Ends.ok | apply Ends.next
          | apply Ends.ite | rfl | intro _ | split)

theorem execBCond_calm (s : State) (e : Fin 10) (cond : BitVec 4) (off : BitVec 22) :
    Ends rl s.view (execBCond e cond off s) := by
  unfold execBCond
  (try dsimp only) <;> intros <;> with_reducible
      (repeat' first
          | exact .refl _ | assumption | apply calmBack | dsimp only [viewMk] | refine (State.run_calm _ _ _ _ _ ?_).to ?_
          | refine ((State.run_calm _ _ _ _ _ ?_).get (by assumption)).to ?_ | apply calmIte | apply Ends.ok | apply Ends.next
          | apply Ends.ite | apply RanCalm.done | apply RanCalm.jump | apply RanCalm.stay | apply RanCalm.fault | apply RanCalm.ite
          | rfl | intro _ | split)

theorem execCallCond_calm (s : State) (e : Fin 10) (cond : BitVec 4) (off : BitVec 22) :
    Ends rl s.view (execCallCond e cond off s) := by
  unfold execCallCond
  (try dsimp only) <;> intros <;> with_reducible
      (repeat' first
          | exact .refl _ | assumption | apply calmBack | dsimp only [viewMk] | refine (State.run_calm _ _ _ _ _ ?_).to ?_
          | refine ((State.run_calm _ _ _ _ _ ?_).get (by assumption)).to ?_ | refine (State.setEngine_calm _ _ _).to ?_
          | apply calmIte | apply Ends.ok | apply Ends.next | apply Ends.ite | apply RanCalm.done | apply RanCalm.jump
          | apply RanCalm.stay | apply RanCalm.fault | apply RanCalm.ite | rfl | intro _ | split)

theorem execJr_calm (s : State) (e : Fin 10) (ka : BitVec 4) (imm : BitVec 16) :
    Ends rl s.view (execJr e ka imm s) := by
  unfold execJr
  (try dsimp only) <;> intros <;> with_reducible
      (repeat' first
          | exact .refl _ | assumption | apply calmBack | dsimp only [viewMk] | refine (State.run_calm _ _ _ _ _ ?_).to ?_
          | refine ((State.run_calm _ _ _ _ _ ?_).get (by assumption)).to ?_ | apply calmIte | apply Ends.ok | apply Ends.next
          | apply Ends.ite | apply RanCalm.done | apply RanCalm.jump | apply RanCalm.stay | apply RanCalm.fault | apply RanCalm.ite
          | rfl | intro _ | split)

theorem execJalr_calm (s : State) (e : Fin 10) (kd : BitVec 4) (ka : BitVec 4) (imm : BitVec 16) :
    Ends rl s.view (execJalr e kd ka imm s) := by
  unfold execJalr
  (try dsimp only) <;> intros <;> with_reducible
      (repeat' first
          | exact .refl _ | assumption | apply calmBack | dsimp only [viewMk] | refine (State.run_calm _ _ _ _ _ ?_).to ?_
          | refine ((State.run_calm _ _ _ _ _ ?_).get (by assumption)).to ?_ | refine (State.setEngine_calm _ _ _).to ?_
          | apply calmIte | apply Ends.ok | apply Ends.next | apply Ends.ite | apply RanCalm.done | apply RanCalm.jump
          | apply RanCalm.stay | apply RanCalm.fault | apply RanCalm.ite | rfl | intro _ | split)

theorem execWait_calm (s : State) (e : Fin 10) (kd : BitVec 4) (ka : BitVec 4) (f : Bool) (mask : BitVec 16) :
    Ends rl s.view (execWait e kd ka f mask s) := by
  unfold execWait
  (try dsimp only) <;> intros <;> with_reducible
      (repeat' first
          | exact .refl _ | assumption | apply calmBack | dsimp only [viewMk] | refine (State.run_calm _ _ _ _ _ ?_).to ?_
          | refine ((State.run_calm _ _ _ _ _ ?_).get (by assumption)).to ?_ | refine (State.setEngine_calm _ _ _).to ?_
          | apply calmIte | apply Ends.ok | apply Ends.next | apply Ends.ite | apply RanCalm.done | apply RanCalm.jump
          | apply RanCalm.stay | apply RanCalm.fault | apply RanCalm.ite | rfl | intro _ | split)

theorem execWaitEnd_calm (s : State) (e : Fin 10) (expired : Bool) :
    Ends rl s.view (execWaitEnd e expired s) := by
  unfold execWaitEnd
  (try dsimp only) <;> intros <;> with_reducible
      (repeat' first
          | exact .refl _ | assumption | apply calmBack | dsimp only [viewMk] | refine (State.advance_calm _ _ _ _).to ?_
          | refine (State.late_calm _).to ?_ | refine (State.setEngine_calm _ _ _).to ?_ | apply calmIte | apply Ends.ok
          | apply Ends.next | apply Ends.ite | rfl | intro _ | split)

theorem execSev_calm (s : State) (e : Fin 10) (hi : BitVec 8) :
    Ends rl s.view (execSev e hi s) := by
  unfold execSev
  (try dsimp only) <;> intros <;> with_reducible
      (repeat' first
          | exact .refl _ | assumption | apply calmBack | dsimp only [viewMk] | refine (State.run_calm _ _ _ _ _ ?_).to ?_
          | refine ((State.run_calm _ _ _ _ _ ?_).get (by assumption)).to ?_ | refine (State.setEngine_calm _ _ _).to ?_
          | apply calmIte | apply Ends.ok | apply Ends.next | apply Ends.ite | apply RanCalm.done | apply RanCalm.jump
          | apply RanCalm.stay | apply RanCalm.fault | apply RanCalm.ite | rfl | intro _ | split)

theorem execEclr_calm (s : State) (e : Fin 10) (kd : BitVec 4) (imm : BitVec 16) :
    Ends rl s.view (execEclr e kd imm s) := by
  unfold execEclr
  (try dsimp only) <;> intros <;> with_reducible
      (repeat' first
          | exact .refl _ | assumption | apply calmBack | dsimp only [viewMk] | refine (State.run_calm _ _ _ _ _ ?_).to ?_
          | refine ((State.run_calm _ _ _ _ _ ?_).get (by assumption)).to ?_ | refine (State.setEngine_calm _ _ _).to ?_
          | apply calmIte | apply Ends.ok | apply Ends.next | apply Ends.ite | apply RanCalm.done | apply RanCalm.jump
          | apply RanCalm.stay | apply RanCalm.fault | apply RanCalm.ite | rfl | intro _ | split)

theorem execEget_calm (s : State) (e : Fin 10) (kd : BitVec 4) (imm : BitVec 16) :
    Ends rl s.view (execEget e kd imm s) := by
  unfold execEget
  (try dsimp only) <;> intros <;> with_reducible
      (repeat' first
          | exact .refl _ | assumption | apply calmBack | dsimp only [viewMk] | refine (State.run_calm _ _ _ _ _ ?_).to ?_
          | refine ((State.run_calm _ _ _ _ _ ?_).get (by assumption)).to ?_ | refine (State.setEngine_calm _ _ _).to ?_
          | apply calmIte | apply Ends.ok | apply Ends.next | apply Ends.ite | apply RanCalm.done | apply RanCalm.jump
          | apply RanCalm.stay | apply RanCalm.fault | apply RanCalm.ite | rfl | intro _ | split)

theorem State.withReg_calm (s : State) (e : Nat) (kd : BitVec 4) (v : Nat) :
    Calm rl s.view (State.withReg s e kd v).view := by
  unfold State.withReg
  (try dsimp only) <;> intros <;> with_reducible
      (repeat' first
          | exact .refl _ | assumption | apply calmBack | dsimp only [viewMk] | refine (State.setEngine_calm _ _ _).to ?_
          | apply calmIte | rfl | intro _ | split)

theorem State.withZ_calm (s : State) (e : Nat) (z : Bool) :
    Calm rl s.view (State.withZ s e z).view := by
  unfold State.withZ
  (try dsimp only) <;> intros <;> with_reducible
      (repeat' first
          | exact .refl _ | assumption | apply calmBack | dsimp only [viewMk] | refine (State.setEngine_calm _ _ _).to ?_
          | apply calmIte | rfl | intro _ | split)

theorem execMbdb_calm (s : State) (e : Fin 10) (ka : BitVec 4) :
    Ends rl s.view (execMbdb e ka s) := by
  unfold execMbdb
  (try dsimp only) <;> intros <;> with_reducible
      (repeat' first
          | exact .refl _ | assumption | apply calmBack | dsimp only [viewMk] | refine (State.run_calm _ _ _ _ _ ?_).to ?_
          | refine ((State.run_calm _ _ _ _ _ ?_).get (by assumption)).to ?_ | refine (State.setD2h_calm _ _).to ?_ | apply calmIte
          | apply Ends.ok | apply Ends.next | apply Ends.ite | apply RanCalm.done | apply RanCalm.jump | apply RanCalm.stay
          | apply RanCalm.fault | apply RanCalm.ite | rfl | intro _ | split)

theorem execMback_calm (s : State) (e : Fin 10) (kd : BitVec 4) (ka : BitVec 4) (f : Bool) :
    Ends rl s.view (execMback e kd ka f s) := by
  unfold execMback
  (try dsimp only) <;> intros <;> with_reducible
      (repeat' first
          | exact .refl _ | assumption | apply calmBack | dsimp only [viewMk] | refine (State.run_calm _ _ _ _ _ ?_).to ?_
          | refine ((State.run_calm _ _ _ _ _ ?_).get (by assumption)).to ?_ | refine (State.withReg_calm _ _ _ _).to ?_
          | refine (State.withZ_calm _ _ _).to ?_ | apply calmIte | apply Ends.ok | apply Ends.next | apply Ends.ite
          | apply RanCalm.done | apply RanCalm.jump | apply RanCalm.stay | apply RanCalm.fault | apply RanCalm.ite | rfl | intro _
          | split)

theorem execMbrd_calm (s : State) (e : Fin 10) (kd : BitVec 4) (ka : BitVec 4) (kb : BitVec 4) :
    Ends rl s.view (execMbrd e kd ka kb s) := by
  unfold execMbrd
  (try dsimp only) <;> intros <;> with_reducible
      (repeat' first
          | exact .refl _ | assumption | apply calmBack | dsimp only [viewMk] | refine (State.run_calm _ _ _ _ _ ?_).to ?_
          | refine ((State.run_calm _ _ _ _ _ ?_).get (by assumption)).to ?_ | refine (State.withReg_calm _ _ _ _).to ?_
          | apply calmIte | apply Ends.ok | apply Ends.next | apply Ends.ite | apply RanCalm.done | apply RanCalm.jump
          | apply RanCalm.stay | apply RanCalm.fault | apply RanCalm.ite | rfl | intro _ | split)

theorem execMbwr_calm (s : State) (e : Fin 10) (kd : BitVec 4) (ka : BitVec 4) (kb : BitVec 4) :
    Ends rl s.view (execMbwr e kd ka kb s) := by
  unfold execMbwr
  (try dsimp only) <;> intros <;> with_reducible
      (repeat' first
          | exact .refl _ | assumption | apply calmBack | dsimp only [viewMk] | refine (State.run_calm _ _ _ _ _ ?_).to ?_
          | refine ((State.run_calm _ _ _ _ _ ?_).get (by assumption)).to ?_ | apply calmIte | apply Ends.ok | apply Ends.next
          | apply Ends.ite | apply RanCalm.done | apply RanCalm.jump | apply RanCalm.stay | apply RanCalm.fault | apply RanCalm.ite
          | rfl | intro _ | split)

theorem execMbsend_calm (s : State) (e : Fin 10) (kd : BitVec 4) (ka : BitVec 4) (f : Bool) :
    Ends rl s.view (execMbsend e kd ka f s) := by
  unfold execMbsend
  (try dsimp only) <;> intros <;> with_reducible
      (repeat' first
          | exact .refl _ | assumption | apply calmBack | dsimp only [viewMk] | refine (State.run_calm _ _ _ _ _ ?_).to ?_
          | refine ((State.run_calm _ _ _ _ _ ?_).get (by assumption)).to ?_ | refine (State.sendD2h_calm _ _).to ?_
          | refine (State.withReg_calm _ _ _ _).to ?_ | refine (State.withZ_calm _ _ _).to ?_ | apply calmIte | apply Ends.ok
          | apply Ends.next | apply Ends.ite | apply RanCalm.done | apply RanCalm.jump | apply RanCalm.stay | apply RanCalm.fault
          | apply RanCalm.ite | rfl | intro _ | split)

theorem execMbfree_calm (s : State) (e : Fin 10) (ka : BitVec 4) :
    Ends rl s.view (execMbfree e ka s) := by
  unfold execMbfree
  (try dsimp only) <;> intros <;> with_reducible
      (repeat' first
          | exact .refl _ | assumption | apply calmBack | dsimp only [viewMk] | refine (State.freeH2d_calm _ _).to ?_
          | refine (State.run_calm _ _ _ _ _ ?_).to ?_ | refine ((State.run_calm _ _ _ _ _ ?_).get (by assumption)).to ?_
          | apply calmIte | apply Ends.ok | apply Ends.next | apply Ends.ite | apply RanCalm.done | apply RanCalm.jump
          | apply RanCalm.stay | apply RanCalm.fault | apply RanCalm.ite | rfl | intro _ | split)

theorem execMbstat_calm (s : State) (e : Fin 10) (kd : BitVec 4) :
    Ends rl s.view (execMbstat e kd s) := by
  unfold execMbstat
  (try dsimp only) <;> intros <;> with_reducible
      (repeat' first
          | exact .refl _ | assumption | apply calmBack | dsimp only [viewMk] | refine (State.run_calm _ _ _ _ _ ?_).to ?_
          | refine ((State.run_calm _ _ _ _ _ ?_).get (by assumption)).to ?_ | refine (State.withReg_calm _ _ _ _).to ?_
          | apply calmIte | apply Ends.ok | apply Ends.next | apply Ends.ite | apply RanCalm.done | apply RanCalm.jump
          | apply RanCalm.stay | apply RanCalm.fault | apply RanCalm.ite | rfl | intro _ | split)

theorem execTld_calm (s : State) (e : Fin 10) (kd : BitVec 4) (ka : BitVec 4) (kb : BitVec 4) :
    Ends rl s.view (execTld e kd ka kb s) := by
  unfold execTld
  (try dsimp only) <;> intros <;> with_reducible
      (repeat' first
          | exact .refl _ | assumption | apply calmBack | dsimp only [viewMk] | refine (State.run_calm _ _ _ _ _ ?_).to ?_
          | refine ((State.run_calm _ _ _ _ _ ?_).get (by assumption)).to ?_ | refine (State.withReg_calm _ _ _ _).to ?_
          | apply calmIte | apply Ends.ok | apply Ends.next | apply Ends.ite | apply RanCalm.done | apply RanCalm.jump
          | apply RanCalm.stay | apply RanCalm.fault | apply RanCalm.ite | rfl | intro _ | split)

theorem execTwr_calm (s : State) (e : Fin 10) (kd : BitVec 4) (ka : BitVec 4) (kb : BitVec 4) :
    Ends rl s.view (execTwr e kd ka kb s) := by
  unfold execTwr
  (try dsimp only) <;> intros <;> with_reducible
      (repeat' first
          | exact .refl _ | assumption | apply calmBack | dsimp only [viewMk] | refine (State.run_calm _ _ _ _ _ ?_).to ?_
          | refine ((State.run_calm _ _ _ _ _ ?_).get (by assumption)).to ?_ | refine (State.storeWord_calm _ _ _ _ _).to ?_
          | apply calmIte | apply Ends.ok | apply Ends.next | apply Ends.ite | apply RanCalm.done | apply RanCalm.jump
          | apply RanCalm.stay | apply RanCalm.fault | apply RanCalm.ite | rfl | intro _ | split)

theorem execTsync_calm (s : State) (e : Fin 10) (kd : BitVec 4) (ka : BitVec 4) (f : Bool) :
    Ends rl s.view (execTsync e kd ka f s) := by
  unfold execTsync
  (try dsimp only) <;> intros <;> with_reducible
      (repeat' first
          | exact .refl _ | assumption | apply calmBack | dsimp only [viewMk] | refine (State.run_calm _ _ _ _ _ ?_).to ?_
          | refine ((State.run_calm _ _ _ _ _ ?_).get (by assumption)).to ?_ | refine (State.startSync_calm _ _ _).to ?_
          | refine (State.withReg_calm _ _ _ _).to ?_ | refine (State.withZ_calm _ _ _).to ?_ | apply calmIte | apply Ends.ok
          | apply Ends.next | apply Ends.ite | apply RanCalm.done | apply RanCalm.jump | apply RanCalm.stay | apply RanCalm.fault
          | apply RanCalm.ite | rfl | intro _ | split)

theorem execTimel_calm (s : State) (e : Fin 10) (kd : BitVec 4) (ka : BitVec 4) (kb : BitVec 4) :
    Ends rl s.view (execTimel e kd ka kb s) := by
  unfold execTimel
  (try dsimp only) <;> intros <;> with_reducible
      (repeat' first
          | exact .refl _ | assumption | apply calmBack | dsimp only [viewMk] | refine (State.run_calm _ _ _ _ _ ?_).to ?_
          | refine ((State.run_calm _ _ _ _ _ ?_).get (by assumption)).to ?_ | refine (State.setEngine_calm _ _ _).to ?_
          | refine (State.withReg_calm _ _ _ _).to ?_ | apply calmIte | apply Ends.ok | apply Ends.next | apply Ends.ite
          | apply RanCalm.done | apply RanCalm.jump | apply RanCalm.stay | apply RanCalm.fault | apply RanCalm.ite | rfl | intro _
          | split)

theorem execTimeh_calm (s : State) (e : Fin 10) (kd : BitVec 4) (ka : BitVec 4) (kb : BitVec 4) :
    Ends rl s.view (execTimeh e kd ka kb s) := by
  unfold execTimeh
  (try dsimp only) <;> intros <;> with_reducible
      (repeat' first
          | exact .refl _ | assumption | apply calmBack | dsimp only [viewMk] | refine (State.run_calm _ _ _ _ _ ?_).to ?_
          | refine ((State.run_calm _ _ _ _ _ ?_).get (by assumption)).to ?_ | refine (State.withReg_calm _ _ _ _).to ?_
          | apply calmIte | apply Ends.ok | apply Ends.next | apply Ends.ite | apply RanCalm.done | apply RanCalm.jump
          | apply RanCalm.stay | apply RanCalm.fault | apply RanCalm.ite | rfl | intro _ | split)

theorem execClkl_calm (s : State) (e : Fin 10) (kd : BitVec 4) (ka : BitVec 4) (kb : BitVec 4) :
    Ends rl s.view (execClkl e kd ka kb s) := by
  unfold execClkl
  (try dsimp only) <;> intros <;> with_reducible
      (repeat' first
          | exact .refl _ | assumption | apply calmBack | dsimp only [viewMk] | refine (State.run_calm _ _ _ _ _ ?_).to ?_
          | refine ((State.run_calm _ _ _ _ _ ?_).get (by assumption)).to ?_ | refine (State.setEngine_calm _ _ _).to ?_
          | refine (State.withReg_calm _ _ _ _).to ?_ | apply calmIte | apply Ends.ok | apply Ends.next | apply Ends.ite
          | apply RanCalm.done | apply RanCalm.jump | apply RanCalm.stay | apply RanCalm.fault | apply RanCalm.ite | rfl | intro _
          | split)

theorem execClkh_calm (s : State) (e : Fin 10) (kd : BitVec 4) (ka : BitVec 4) (kb : BitVec 4) :
    Ends rl s.view (execClkh e kd ka kb s) := by
  unfold execClkh
  (try dsimp only) <;> intros <;> with_reducible
      (repeat' first
          | exact .refl _ | assumption | apply calmBack | dsimp only [viewMk] | refine (State.run_calm _ _ _ _ _ ?_).to ?_
          | refine ((State.run_calm _ _ _ _ _ ?_).get (by assumption)).to ?_ | refine (State.withReg_calm _ _ _ _).to ?_
          | apply calmIte | apply Ends.ok | apply Ends.next | apply Ends.ite | apply RanCalm.done | apply RanCalm.jump
          | apply RanCalm.stay | apply RanCalm.fault | apply RanCalm.ite | rfl | intro _ | split)

theorem execNop_calm (s : State) (e : Fin 10) :
    Ends rl s.view (execNop e s) := by
  unfold execNop
  (try dsimp only) <;> intros <;> with_reducible
      (repeat' first
          | exact .refl _ | assumption | apply calmBack | dsimp only [viewMk] | refine (State.run_calm _ _ _ _ _ ?_).to ?_
          | refine ((State.run_calm _ _ _ _ _ ?_).get (by assumption)).to ?_ | apply calmIte | apply Ends.ok | apply Ends.next
          | apply Ends.ite | apply RanCalm.done | apply RanCalm.jump | apply RanCalm.stay | apply RanCalm.fault | apply RanCalm.ite
          | rfl | intro _ | split)

theorem execFence_calm (s : State) (e : Fin 10) (kd : BitVec 4) (ka : BitVec 4) (kb : BitVec 4) :
    Ends rl s.view (execFence e kd ka kb s) := by
  unfold execFence
  (try dsimp only) <;> intros <;> with_reducible
      (repeat' first
          | exact .refl _ | assumption | apply calmBack | dsimp only [viewMk] | refine (State.run_calm _ _ _ _ _ ?_).to ?_
          | refine ((State.run_calm _ _ _ _ _ ?_).get (by assumption)).to ?_ | apply calmIte | apply Ends.ok | apply Ends.next
          | apply Ends.ite | apply RanCalm.done | apply RanCalm.jump | apply RanCalm.stay | apply RanCalm.fault | apply RanCalm.ite
          | rfl | intro _ | split)

end Sys2Proof.Machine
end

