-- ==== Sys2Proof/Laws/CalmFabric.lean ====
section
/-! SUPPORT. `Calm` through every operation and meaning: the fabric, cairns and images. -/

set_option linter.unusedVariables false

namespace Sys2Proof.Machine

variable {rl : Bool}

theorem State.putFrame_calm (s : State) (p : Nat) (prio : Nat) (f : Bytes) :
    Calm rl s.view (State.putFrame s p prio f).view := by
  unfold State.putFrame
  (try dsimp only) <;> intros <;> with_reducible
      (repeat' first
          | exact .refl _ | assumption | apply calmBack | dsimp only [viewMk] | refine (State.emit_calm _ _).to ?_ | apply calmIte
          | rfl | intro _ | split)

theorem State.sendPfc_calm (s : State) (p : Nat) (prio : Nat) (pause : Bool) :
    Calm rl s.view (State.sendPfc s p prio pause).view := by
  unfold State.sendPfc
  (try dsimp only) <;> intros <;> with_reducible
      (repeat' first
          | exact .refl _ | assumption | apply calmBack | dsimp only [viewMk] | refine (State.emit_calm _ _).to ?_ | apply calmIte
          | rfl | intro _ | split)

theorem State.ownPause_calm (s : State) (p : Nat) (prio : Nat) (on : Bool) :
    Calm rl s.view (State.ownPause s p prio on).view := by
  unfold State.ownPause
  (try dsimp only) <;> intros <;> with_reducible
      (repeat' first
          | exact .refl _ | assumption | apply calmBack | dsimp only [viewMk] | refine (State.sendPfc_calm _ _ _ _).to ?_
          | refine (State.setF_calm _ _ _).to ?_ | apply calmIte | rfl | intro _ | split)

theorem State.noteFill_calm (s : State) (p : Nat) (prio : Nat) (fill : Nat) :
    Calm rl s.view (State.noteFill s p prio fill).view := by
  unfold State.noteFill
  (try dsimp only) <;> intros <;> with_reducible
      (repeat' first
          | exact .refl _ | assumption | apply calmBack | dsimp only [viewMk] | refine (State.ownPause_calm _ _ _ _).to ?_
          | apply calmIte | rfl | intro _ | split)

theorem State.sendOn_calm (s : State) (c : Nat) (p : Nat) (op : Nat) (flags : Nat) (psn : Nat) (body : Bytes) (payload : Bytes) (key : Option Bytes) :
    Calm rl s.view (State.sendOn s c p op flags psn body payload key).view := by
  unfold State.sendOn
  (try dsimp only) <;> intros <;> with_reducible
      (repeat' first
          | exact .refl _ | assumption | apply calmBack | dsimp only [viewMk] | refine (State.putFrame_calm _ _ _ _).to ?_
          | refine (State.setConn_calm _ _ _).to ?_ | apply calmIte | rfl | intro _ | split)

theorem State.sendSession_calm (s : State) (c : Nat) (op : Nat) (flags : Nat) (psn : Nat) (body : Bytes) (payload : Bytes) :
    Calm rl s.view (State.sendSession s c op flags psn body payload).view := by
  unfold State.sendSession
  (try dsimp only) <;> intros <;> with_reducible
      (repeat' first
          | exact .refl _ | assumption | apply calmBack | dsimp only [viewMk] | refine (State.sendOn_calm _ _ _ _ _ _ _ _ _).to ?_
          | apply calmIte | rfl | intro _ | split)

theorem State.pump_calm (s : State) (c : Nat) :
    ∀ k0, Calm rl s.view (State.pump s c k0).view := by
  intro k0
  induction k0 generalizing s c with
  | zero => unfold State.pump; (try dsimp only) <;> intros <;> with_reducible
      (repeat' first
          | exact .refl _ | assumption | apply calmBack | dsimp only [viewMk] | refine (State.sendSession_calm _ _ _ _ _ _ _).to ?_
          | refine (State.setConn_calm _ _ _).to ?_ | apply calmIte | apply calmIte1 | rfl | intro _ | split)
  | succ k0 ih => unfold State.pump; (try dsimp only) <;> intros <;> with_reducible
      (repeat' first
          | exact .refl _ | assumption | apply calmBack | dsimp only [viewMk] | refine (State.sendSession_calm _ _ _ _ _ _ _).to ?_
          | refine (State.setConn_calm _ _ _).to ?_ | refine (ih _ _).to ?_ | apply calmIte | apply calmIte1 | rfl | intro _
          | split)

theorem State.goBack_calm (s : State) (c : Nat) :
    Calm rl s.view (State.goBack s c).view := by
  unfold State.goBack
  (try dsimp only) <;> intros <;> with_reducible
      (repeat' first
          | exact .refl _ | assumption | apply calmBack | dsimp only [viewMk] | refine (State.pump_calm _ _ _).to ?_
          | refine (State.setConn_calm _ _ _).to ?_ | apply calmIte | rfl | intro _ | split)

theorem State.enqueue_calm (s : State) (c : Nat) (m : OMsg) :
    Calm rl s.view (State.enqueue s c m).view := by
  unfold State.enqueue
  (try dsimp only) <;> intros <;> with_reducible
      (repeat' first
          | exact .refl _ | assumption | apply calmBack | dsimp only [viewMk] | refine (State.pump_calm _ _ _).to ?_
          | refine (State.setConn_calm _ _ _).to ?_ | apply calmIte | rfl | intro _ | split)

theorem State.sendHello_calm (s : State) (c : Nat) (p : Nat) (kind : Nat) (restart : Bool) (msn : Nat) (nonce : Bytes) :
    Calm rl s.view (State.sendHello s c p kind restart msn nonce).view := by
  unfold State.sendHello
  (try dsimp only) <;> intros <;> with_reducible
      (repeat' first
          | exact .refl _ | assumption | apply calmBack | dsimp only [viewMk] | refine (State.sendOn_calm _ _ _ _ _ _ _ _ _).to ?_
          | apply calmIte | rfl | intro _ | split)

theorem State.helloNonce_calm (s : State) (c : Nat) :
    Calm rl s.view (State.helloNonce s c).1.view := by
  unfold State.helloNonce
  (try dsimp only) <;> intros <;> with_reducible
      (repeat' first
          | exact .refl _ | assumption | apply calmBack | dsimp only [viewMk] | refine (State.draw_calm _ _).to ?_ | apply calmIte
          | apply calmIte1 | rfl | intro _ | split)

theorem State.requestHello_calm (s : State) (c : Nat) (p : Nat) :
    Calm rl s.view (State.requestHello s c p).view := by
  unfold State.requestHello
  (try dsimp only) <;> intros <;> with_reducible
      (repeat' first
          | exact .refl _ | assumption | apply calmBack | dsimp only [viewMk] | refine (State.helloNonce_calm _ _).to ?_
          | refine (State.sendHello_calm _ _ _ _ _ _ _).to ?_ | refine (State.setConn_calm _ _ _).to ?_ | apply calmIte
          | apply calmIte1 | rfl | intro _ | split)

theorem State.connDown_calm (s : State) (c : Nat) :
    Calm rl s.view (State.connDown s c).view := by
  unfold State.connDown
  (try dsimp only) <;> intros <;> with_reducible
      (repeat' first
          | exact .refl _ | assumption | apply calmBack | dsimp only [viewMk] | refine (State.bump_calm _ _).to ?_
          | refine (State.dropIn_calm _ _).to ?_ | refine (State.record_calm _ _ _ _ _ _ _).to ?_
          | refine (State.requestHello_calm _ _ _).to ?_ | refine (State.setConn_calm _ _ _).to ?_ | apply calmIte | rfl | intro _
          | split)

theorem State.connUp_calm (s : State) (c : Nat) (p : Nat) (session : Option Bytes) :
    Calm rl s.view (State.connUp s c p session).view := by
  unfold State.connUp
  (try dsimp only) <;> intros <;> with_reducible
      (repeat' first
          | exact .refl _ | assumption | apply calmBack | dsimp only [viewMk] | refine (State.dropIn_calm _ _).to ?_
          | refine (State.pump_calm _ _ _).to ?_ | refine (State.record_calm _ _ _ _ _ _ _).to ?_
          | refine (State.setConn_calm _ _ _).to ?_ | apply calmIte | rfl | intro _ | split)

theorem State.failover_calm (s : State) (c : Nat) :
    Calm rl s.view (State.failover s c).view := by
  unfold State.failover
  (try dsimp only) <;> intros <;> with_reducible
      (repeat' first
          | exact .refl _ | assumption | apply calmBack | dsimp only [viewMk] | refine (State.bump_calm _ _).to ?_
          | refine (State.connDown_calm _ _).to ?_ | refine (State.goBack_calm _ _).to ?_
          | refine (State.record_calm _ _ _ _ _ _ _).to ?_ | refine (State.setConn_calm _ _ _).to ?_ | apply calmIte | rfl | intro _
          | split)

theorem State.failoverPort_calm (s : State) (p : Nat) (f : Nat → Bool) :
    Calm rl s.view (State.failoverPort s p f).view := by
  unfold State.failoverPort
  (try dsimp only) <;> intros <;> with_reducible
      (repeat' first
          | exact .refl _ | assumption | apply calmBack | dsimp only [viewMk] | refine (State.failover_calm _ _).to ?_
          | apply calmIte | apply calmIte1 | apply calmFold | apply calmFold1 | rfl | intro _ | split)

theorem State.closeConn_calm (s : State) (c : Nat) :
    Calm rl s.view (State.closeConn s c).view := by
  unfold State.closeConn
  (try dsimp only) <;> intros <;> with_reducible
      (repeat' first
          | exact .refl _ | assumption | apply calmBack | dsimp only [viewMk] | refine (State.dropIn_calm _ _).to ?_
          | refine (State.helloNonce_calm _ _).to ?_ | refine (State.sendHello_calm _ _ _ _ _ _ _).to ?_
          | refine (State.setConn_calm _ _ _).to ?_ | apply calmIte | apply calmIte1 | rfl | intro _ | split)

theorem State.violation_calm (s : State) (c : Nat) :
    Calm rl s.view (State.violation s c).view := by
  unfold State.violation
  (try dsimp only) <;> intros <;> with_reducible
      (repeat' first
          | exact .refl _ | assumption | apply calmBack | dsimp only [viewMk] | refine (State.bump_calm _ _).to ?_
          | refine (State.dropIn_calm _ _).to ?_ | refine (State.record_calm _ _ _ _ _ _ _).to ?_
          | refine (State.setConn_calm _ _ _).to ?_ | apply calmIte | rfl | intro _ | split)

theorem State.release_calm (s : State) (c : Nat) :
    Calm rl s.view (State.release s c).view := by
  unfold State.release
  (try dsimp only) <;> intros <;> with_reducible
      (repeat' first
          | exact .refl _ | assumption | apply calmBack | dsimp only [viewMk] | refine (State.record_calm _ _ _ _ _ _ _).to ?_
          | refine (State.setConn_calm _ _ _).to ?_ | apply calmIte | rfl | intro _ | split)

theorem State.reply_calm (s : State) (c : Nat) (last : Nat) (op : Nat) (body : Bytes) :
    Calm rl s.view (State.reply s c last op body).view := by
  unfold State.reply
  (try dsimp only) <;> intros <;> with_reducible
      (repeat' first
          | exact .refl _ | assumption | apply calmBack | dsimp only [viewMk] | refine (State.sendSession_calm _ _ _ _ _ _ _).to ?_
          | refine (State.setConn_calm _ _ _).to ?_ | apply calmIte | rfl | intro _ | split)

theorem State.nakTerminal_calm (s : State) (c : Nat) (code : Nat) (last : Nat) (msn : Nat) :
    Calm rl s.view (State.nakTerminal s c code last msn).view := by
  unfold State.nakTerminal
  (try dsimp only) <;> intros <;> with_reducible
      (repeat' first
          | exact .refl _ | assumption | apply calmBack | dsimp only [viewMk] | refine (State.dropIn_calm _ _).to ?_
          | refine (State.reply_calm _ _ _ _ _).to ?_ | refine (State.setConn_calm _ _ _).to ?_ | apply calmIte | rfl | intro _
          | split)

theorem State.nakRetry_calm (s : State) (c : Nat) (code : Nat) (first : Nat) (msn : Nat) (hint : Nat) :
    Calm rl s.view (State.nakRetry s c code first msn hint).view := by
  unfold State.nakRetry
  (try dsimp only) <;> intros <;> with_reducible
      (repeat' first
          | exact .refl _ | assumption | apply calmBack | dsimp only [viewMk] | refine (State.dropIn_calm _ _).to ?_
          | refine (State.sendSession_calm _ _ _ _ _ _ _).to ?_ | refine (State.setConn_calm _ _ _).to ?_ | apply calmIte | rfl
          | intro _ | split)

theorem State.setFiring_calm (s : State) (f : Firing) :
    Calm rl s.view (State.setFiring s f).view := by
  unfold State.setFiring
  (try dsimp only) <;> intros <;> with_reducible
      (repeat' first
          | exact .refl _ | assumption | apply calmBack | dsimp only [viewMk] | apply calmIte | rfl | intro _ | split)

theorem State.commitFiring_calm (s : State) (f : Firing) :
    Calm rl s.view (State.commitFiring s f).view := by
  unfold State.commitFiring
  (try dsimp only) <;> intros <;> with_reducible
      (repeat' first
          | exact .refl _ | assumption | apply calmBack | dsimp only [viewMk] | refine (State.commit_calm _).to ?_
          | refine (State.setFiring_calm _ _).to ?_ | apply calmIte | rfl | intro _ | split)

theorem State.pinOne_calm (s : State) (f : Firing) (a : Bytes) (v : Nat) :
    Calm rl s.view (State.pinOne s f a v).1.view := by
  unfold State.pinOne
  (try dsimp only) <;> intros <;> with_reducible
      (repeat' first
          | exact .refl _ | assumption | apply calmBack | dsimp only [viewMk] | refine (State.addPin_calm _ _ _ _).to ?_
          | apply calmIte | apply calmIte1 | rfl | intro _ | split)

theorem State.runPin_calm (s : State) (f : Firing) (a : Bytes) :
    Calm rl s.view (State.runPin s f a).view := by
  unfold State.runPin
  (try dsimp only) <;> intros <;> with_reducible
      (repeat' first
          | exact .refl _ | assumption | apply calmBack | dsimp only [viewMk] | refine (State.commitFiring_calm _ _).to ?_
          | refine (State.pinOne_calm _ _ _ _).to ?_ | apply calmIte | apply calmIte1 | apply calmFold | apply calmFold1 | rfl
          | intro _ | split)

theorem State.pumpShip_calm (s : State) (c : Nat) (conn : Nat) (ms : List OMsg) :
    ∀ k0, Calm rl s.view (State.pumpShip s c conn ms k0).view := by
  intro k0
  induction k0 generalizing s c conn ms with
  | zero => unfold State.pumpShip; (try dsimp only) <;> intros <;> with_reducible
      (repeat' first
          | exact .refl _ | assumption | apply calmBack | dsimp only [viewMk] | refine (State.enqueue_calm _ _ _).to ?_
          | refine (State.setFiring_calm _ _).to ?_ | apply calmIte | rfl | intro _ | split)
  | succ k0 ih => unfold State.pumpShip; (try dsimp only) <;> intros <;> with_reducible
      (repeat' first
          | exact .refl _ | assumption | apply calmBack | dsimp only [viewMk] | refine (State.enqueue_calm _ _ _).to ?_
          | refine (State.setFiring_calm _ _).to ?_ | refine (ih _ _ _ _).to ?_ | apply calmIte | rfl | intro _ | split)

theorem State.runShip_calm (s : State) (f : Firing) (a : Bytes) :
    Calm rl s.view (State.runShip s f a).view := by
  unfold State.runShip
  (try dsimp only) <;> intros <;> with_reducible
      (repeat' first
          | exact .refl _ | assumption | apply calmBack | dsimp only [viewMk] | refine (State.commitFiring_calm _ _).to ?_
          | refine (State.pumpShip_calm _ _ _ _ _).to ?_ | refine (State.setFiring_calm _ _).to ?_ | apply calmIte | apply calmIte1
          | rfl | intro _ | split)

theorem State.runSend_calm (s : State) (f : Firing) (a : Bytes) :
    Calm rl s.view (State.runSend s f a).view := by
  unfold State.runSend
  (try dsimp only) <;> intros <;> with_reducible
      (repeat' first
          | exact .refl _ | assumption | apply calmBack | dsimp only [viewMk] | refine (State.enqueue_calm _ _ _).to ?_
          | refine (State.setFiring_calm _ _).to ?_ | apply calmIte | rfl | intro _ | split)

theorem State.runAction_calm (s : State) (f : Firing) :
    Calm rl s.view (State.runAction s f).1.view := by
  unfold State.runAction
  (try dsimp only) <;> intros <;> with_reducible
      (repeat' first
          | exact .refl _ | assumption | apply calmBack | dsimp only [viewMk] | refine (State.commitFiring_calm _ _).to ?_
          | refine (State.runPin_calm _ _ _).to ?_ | refine (State.runSend_calm _ _ _).to ?_
          | refine (State.runShip_calm _ _ _).to ?_ | refine (State.setD2h_calm _ _).to ?_ | apply calmIte | apply calmIte1 | rfl
          | intro _ | split)

theorem State.runFiring_calm (s : State) (c : Nat) :
    ∀ k0, Calm rl s.view (State.runFiring s c k0).view := by
  intro k0
  induction k0 generalizing s c with
  | zero => unfold State.runFiring; (try dsimp only) <;> intros <;> with_reducible
      (repeat' first
          | exact .refl _ | assumption | apply calmBack | dsimp only [viewMk] | refine (State.runAction_calm _ _).to ?_
          | apply calmIte | apply calmIte1 | rfl | intro _ | split)
  | succ k0 ih => unfold State.runFiring; (try dsimp only) <;> intros <;> with_reducible
      (repeat' first
          | exact .refl _ | assumption | apply calmBack | dsimp only [viewMk] | refine (State.runAction_calm _ _).to ?_
          | refine (ih _ _).to ?_ | apply calmIte | apply calmIte1 | rfl | intro _ | split)

theorem State.runFirings_calm (s : State) :
    Calm rl s.view (State.runFirings s).view := by
  unfold State.runFirings
  (try dsimp only) <;> intros <;> with_reducible
      (repeat' first
          | exact .refl _ | assumption | apply calmBack | dsimp only [viewMk] | refine (State.runFiring_calm _ _ _).to ?_
          | apply calmIte | apply calmFold | apply calmFold1 | rfl | intro _ | split)

theorem execCairnFiringStart_calm (s : State) :
    Ends rl s.view (execCairnFiringStart s) := by
  unfold execCairnFiringStart
  (try dsimp only) <;> intros <;> with_reducible
      (repeat' first
          | exact .refl _ | assumption | apply calmBack | dsimp only [viewMk] | refine (State.commitFiring_calm _ _).to ?_
          | refine (State.record_calm _ _ _ _ _ _ _).to ?_ | refine (State.runFiring_calm _ _ _).to ?_ | apply calmIte
          | apply Ends.ok | apply Ends.next | apply Ends.ite | rfl | intro _ | split)

theorem State.cairnAcked_calm (s : State) (m : OMsg) :
    Calm rl s.view (State.cairnAcked s m).view := by
  unfold State.cairnAcked
  (try dsimp only) <;> intros <;> with_reducible
      (repeat' first
          | exact .refl _ | assumption | apply calmBack | dsimp only [viewMk] | refine (State.commit_calm _).to ?_
          | refine (State.runFiring_calm _ _ _).to ?_ | refine (State.setFiring_calm _ _).to ?_ | apply calmIte | rfl | intro _
          | split)

theorem State.orphan_calm (s : State) (c : Nat) :
    Calm rl s.view (State.orphan s c).view := by
  unfold State.orphan
  (try dsimp only) <;> intros <;> with_reducible
      (repeat' first
          | exact .refl _ | assumption | apply calmBack | dsimp only [viewMk] | apply calmIte | apply calmIte1 | rfl | intro _
          | split)

theorem State.cairnBroken_calm (s : State) (c : Nat) (r : Nat) :
    Calm rl s.view (State.cairnBroken s c r).view := by
  unfold State.cairnBroken
  (try dsimp only) <;> intros <;> with_reducible
      (repeat' first
          | exact .refl _ | assumption | apply calmBack | dsimp only [viewMk] | refine (State.orphan_calm _ _).to ?_
          | refine (State.runFiring_calm _ _ _).to ?_ | refine (State.setFiring_calm _ _).to ?_ | apply calmIte | rfl | intro _
          | split)

theorem execShipConnectionTimeout_calm (s : State) (c : Fin 512) :
    Ends rl s.view (execShipConnectionTimeout c s) := by
  unfold execShipConnectionTimeout
  (try dsimp only) <;> intros <;> with_reducible
      (repeat' first
          | exact .refl _ | assumption | apply calmBack | dsimp only [viewMk] | refine (State.cairnBroken_calm _ _ _).to ?_
          | refine (State.setConn_calm _ _ _).to ?_ | apply calmIte | apply Ends.ok | apply Ends.next | apply Ends.ite | rfl
          | intro _ | split)

theorem State.releasePins_calm (s : State) (f : Firing) :
    Calm rl s.view (State.releasePins s f).view := by
  unfold State.releasePins
  (try dsimp only) <;> intros <;> with_reducible
      (repeat' first
          | exact .refl _ | assumption | apply calmBack | dsimp only [viewMk] | refine (State.commit_calm _).to ?_ | apply calmIte
          | apply calmIte1 | rfl | intro _ | split)

theorem State.chain_calm (s : State) (c : Cairn) (f : Firing) :
    Calm rl s.view (State.chain s c f).view := by
  unfold State.chain
  (try dsimp only) <;> intros <;> with_reducible
      (repeat' first
          | exact .refl _ | assumption | apply calmBack | dsimp only [viewMk] | refine (State.fireCairn_calm _ _ _ _ _ _).to ?_
          | refine (State.record_calm _ _ _ _ _ _ _).to ?_ | apply calmIte | apply calmIte1 | rfl | intro _ | split)

theorem execCairnFiringEnd_calm (s : State) (i : Fin 512) :
    Ends rl s.view (execCairnFiringEnd i s) := by
  unfold execCairnFiringEnd
  (try dsimp only) <;> intros <;> with_reducible
      (repeat' first
          | exact .refl _ | assumption | apply calmBack | dsimp only [viewMk] | refine (State.bump_calm _ _).to ?_
          | refine (State.chain_calm _ _ _).to ?_ | refine (State.record_calm _ _ _ _ _ _ _).to ?_
          | refine (State.releasePins_calm _ _).to ?_ | refine (State.setCairn_calm _ _ _).to ?_
          | refine (State.touch_calm _ _).to ?_ | apply calmIte | apply Ends.ok | apply Ends.next | apply Ends.ite | rfl | intro _
          | split)

theorem execJournalPageVerified_calm (s : State) :
    Ends rl s.view (execJournalPageVerified s) := by
  unfold execJournalPageVerified
  (try dsimp only) <;> intros <;> with_reducible
      (repeat' first
          | exact .refl _ | assumption | apply calmBack | dsimp only [viewMk] | refine (State.pageVerified_calm _).to ?_
          | refine (State.runFirings_calm _).to ?_ | apply calmIte | apply Ends.ok | apply Ends.next | apply Ends.ite | rfl
          | intro _ | split)

theorem State.writeBoot_calm (s : State) (f : BootRec → BootRec) :
    Calm rl s.view (State.writeBoot s f).view := by
  unfold State.writeBoot
  (try dsimp only) <;> intros <;> with_reducible
      (repeat' first
          | exact .refl _ | assumption | apply calmBack | dsimp only [viewMk] | apply calmIte | rfl | intro _ | split)

theorem State.endTrial_calm (s : State) :
    Calm rl s.view (State.endTrial s).view := by
  unfold State.endTrial
  (try dsimp only) <;> intros <;> with_reducible
      (repeat' first
          | exact .refl _ | assumption | apply calmBack | dsimp only [viewMk] | refine (State.record_calm _ _ _ _ _ _ _).to ?_
          | refine (State.writeBoot_calm _ _).to ?_ | apply calmIte | rfl | intro _ | split)

theorem State.beginSession_calm (s : State) (path : Nat) :
    Calm rl s.view (State.beginSession s path).view := by
  unfold State.beginSession
  (try dsimp only) <;> intros <;> with_reducible
      (repeat' first
          | exact .refl _ | assumption | apply calmBack | dsimp only [viewMk] | refine (State.checked_calm _ _ _ ?_).to ?_
          | refine (State.endTrial_calm _).to ?_ | refine (State.record_calm _ _ _ _ _ _ _).to ?_
          | refine (State.touch_calm _ _).to ?_ | apply calmIte | rfl | intro _ | split)

theorem State.putChunk_calm (s : State) (g : Nat) (unit : Nat) (data : Bytes) :
    Calm rl s.view (State.putChunk s g unit data).view := by
  unfold State.putChunk
  (try dsimp only) <;> intros <;> with_reducible
      (repeat' first
          | exact .refl _ | assumption | apply calmBack | dsimp only [viewMk] | refine (State.touch_calm _ _).to ?_ | apply calmIte
          | rfl | intro _ | split)

theorem State.putChunks_calm (s : State) (g : Nat) (unit : Nat) :
    ∀ k0 k1, Calm rl s.view (State.putChunks s g unit k0 k1).1.view := by
  intro k0 k1
  induction k0 generalizing s g unit k1 with
  | zero => unfold State.putChunks; (try dsimp only) <;> intros <;> with_reducible
      (repeat' first
          | exact .refl _ | assumption | apply calmBack | dsimp only [viewMk] | refine (State.putChunk_calm _ _ _ _).to ?_
          | apply calmIte | apply calmIte1 | rfl | intro _ | split)
  | succ k0 ih => unfold State.putChunks; (try dsimp only) <;> intros <;> with_reducible
      (repeat' first
          | exact .refl _ | assumption | apply calmBack | dsimp only [viewMk] | refine (State.putChunk_calm _ _ _ _).to ?_
          | refine (ih _ _ _ _).to ?_ | apply calmIte | apply calmIte1 | rfl | intro _ | split)

theorem State.nameSlot_calm (s : State) (g : Nat) (b : Bytes) :
    Calm rl s.view (State.nameSlot s g b).view := by
  unfold State.nameSlot
  (try dsimp only) <;> intros <;> with_reducible
      (repeat' first
          | exact .refl _ | assumption | apply calmBack | dsimp only [viewMk] | refine (State.writeBoot_calm _ _).to ?_
          | apply calmIte | rfl | intro _ | split)

theorem State.commitImage_calm (s : State) (path : Nat) (len : Nat) (c : Copies) :
    Calm rl s.view (State.commitImage s path len c).1.view := by
  unfold State.commitImage
  (try dsimp only) <;> intros <;> with_reducible
      (repeat' first
          | exact .refl _ | assumption | apply calmBack | dsimp only [viewMk] | refine (State.bump_calm _ _).to ?_
          | refine (State.checked_calm _ _ _ ?_).to ?_ | refine (State.nameSlot_calm _ _ _).to ?_
          | refine (State.record_calm _ _ _ _ _ _ _).to ?_ | refine (State.touch_calm _ _).to ?_ | apply calmIte | apply calmIte1
          | rfl | intro _ | split)

theorem State.saveTrial_calm (s : State) :
    Calm rl s.view (State.saveTrial s).view := by
  unfold State.saveTrial
  (try dsimp only) <;> intros <;> with_reducible
      (repeat' first
          | exact .refl _ | assumption | apply calmBack | dsimp only [viewMk] | refine (State.writeBoot_calm _ _).to ?_
          | apply calmIte | rfl | intro _ | split)

theorem State.raiseFloor_calm (s : State) :
    Calm rl s.view (State.raiseFloor s).view := by
  unfold State.raiseFloor
  dsimp only
  split
  · rename_i h
    exact (State.record_calm _ _ _ _ _ _ _).to (.of rfl ⟨Nat.le_of_lt h.2.2, fun _ => Nat.min_le_left _ _⟩ (List.prefix_refl _) fun _ => ⟨Nat.le_refl _, Nat.le_refl _, id⟩)
  · exact .refl _

theorem State.confirmImage_calm (s : State) :
    Calm rl s.view (State.confirmImage s).view := by
  unfold State.confirmImage
  (try dsimp only) <;> intros <;> with_reducible
      (repeat' first
          | exact .refl _ | assumption | apply calmBack | dsimp only [viewMk] | refine (State.raiseFloor_calm _).to ?_
          | refine (State.record_calm _ _ _ _ _ _ _).to ?_ | refine (State.touch_calm _ _).to ?_
          | refine (State.writeBoot_calm _ _).to ?_ | apply calmIte | rfl | intro _ | split)

theorem execTrialTimeSave_calm (s : State) :
    Ends rl s.view (execTrialTimeSave s) := by
  unfold execTrialTimeSave
  (try dsimp only) <;> intros <;> with_reducible
      (repeat' first
          | exact .refl _ | assumption | apply calmBack | dsimp only [viewMk] | refine (State.saveTrial_calm _).to ?_
          | apply calmIte | apply Ends.ok | apply Ends.next | apply Ends.ite | rfl | intro _ | split)

theorem execTrialExpiry_calm (s : State) :
    Ends rl s.view (execTrialExpiry s) := by
  unfold execTrialExpiry
  (try dsimp only) <;> intros <;> with_reducible
      (repeat' first
          | exact .refl _ | assumption | apply calmBack | dsimp only [viewMk] | refine (State.confirmImage_calm _).to ?_
          | refine (State.endTrial_calm _).to ?_ | refine (State.touch_calm _ _).to ?_ | apply calmIte | apply Ends.ok
          | apply Ends.next | apply Ends.ite | rfl | intro _ | split)

theorem State.loadEngine_calm (s : State) (e : Nat) (b : Bytes) :
    Calm rl s.view (State.loadEngine s e b).view := by
  unfold State.loadEngine
  (try dsimp only) <;> intros <;> with_reducible
      (repeat' first
          | exact .refl _ | assumption | apply calmBack | dsimp only [viewMk] | refine (State.run_calm _ _ _ _ _ ?_).to ?_
          | refine ((State.run_calm _ _ _ _ _ ?_).get (by assumption)).to ?_ | refine (State.setData_calm _ _ _ _).to ?_
          | refine (State.setEngine_calm _ _ _).to ?_ | apply calmIte | rfl | intro _ | split)

theorem State.takeHooks_calm (s : State) (b : Bytes) :
    Calm rl s.view (State.takeHooks s b).view := by
  unfold State.takeHooks
  (try dsimp only) <;> intros <;> with_reducible
      (repeat' first
          | exact .refl _ | assumption | apply calmBack | dsimp only [viewMk] | refine (State.setF_calm _ _ _).to ?_ | apply calmIte
          | apply calmFold | apply calmFold1 | rfl | intro _ | split)

theorem State.loadSection_calm (s : State) (k : Nat) (allowed : Bool) (b : Bytes) :
    Calm rl s.view (State.loadSection s k allowed b).1.view := by
  unfold State.loadSection
  (try dsimp only) <;> intros <;> with_reducible
      (repeat' first
          | exact .refl _ | assumption | apply calmBack | dsimp only [viewMk] | refine (State.loadEngine_calm _ _ _).to ?_
          | refine (State.setEngine_calm _ _ _).to ?_ | refine (State.setF_calm _ _ _).to ?_
          | refine (State.takeHooks_calm _ _).to ?_ | apply calmIte | apply calmIte1 | apply calmFold | apply calmFold1 | rfl
          | intro _ | split)

theorem State.tallyIcrc_calm (s : State) (c : Nat) :
    Calm rl s.view (State.tallyIcrc s c).view := by
  unfold State.tallyIcrc
  (try dsimp only) <;> intros <;> with_reducible
      (repeat' first
          | exact .refl _ | assumption | apply calmBack | dsimp only [viewMk] | refine (State.setConn_calm _ _ _).to ?_
          | apply calmIte | rfl | intro _ | split)

theorem State.quarantineNak_calm (s : State) (c : Nat) (h : Bytes) :
    Calm rl s.view (State.quarantineNak s c h).view := by
  unfold State.quarantineNak
  (try dsimp only) <;> intros <;> with_reducible
      (repeat' first
          | exact .refl _ | assumption | apply calmBack | dsimp only [viewMk] | refine (State.nakTerminal_calm _ _ _ _ _).to ?_
          | refine (State.setConn_calm _ _ _).to ?_ | apply calmIte | rfl | intro _ | split)

theorem State.nakSeq_calm (s : State) (c : Nat) :
    Calm rl s.view (State.nakSeq s c).view := by
  unfold State.nakSeq
  (try dsimp only) <;> intros <;> with_reducible
      (repeat' first
          | exact .refl _ | assumption | apply calmBack | dsimp only [viewMk] | refine (State.sendSession_calm _ _ _ _ _ _ _).to ?_
          | refine (State.setConn_calm _ _ _).to ?_ | apply calmIte | rfl | intro _ | split)

theorem State.answerAgain_calm (s : State) (c : Nat) (h : Bytes) :
    Calm rl s.view (State.answerAgain s c h).view := by
  unfold State.answerAgain
  (try dsimp only) <;> intros <;> with_reducible
      (repeat' first
          | exact .refl _ | assumption | apply calmBack | dsimp only [viewMk] | refine (State.sendSession_calm _ _ _ _ _ _ _).to ?_
          | apply calmIte | apply calmIte1 | rfl | intro _ | split)

theorem State.inOrder_calm (s : State) (c : Nat) (p : Nat) (h : Bytes) (act : State → State) (hact : ∀ s, Calm rl (State.view s) (act s).view) :
    Calm rl s.view (State.inOrder s c p h act).view := by
  unfold State.inOrder
  (try dsimp only) <;> intros <;> with_reducible
      (repeat' first
          | exact .refl _ | assumption | apply calmBack | dsimp only [viewMk] | refine (State.answerAgain_calm _ _ _).to ?_
          | refine (State.nakSeq_calm _ _).to ?_ | refine (State.setConn_calm _ _ _).to ?_ | refine (hact _).to ?_ | apply calmIte
          | rfl | intro _ | split)

theorem State.malformed_calm (s : State) (c : Nat) (h : Bytes) :
    Calm rl s.view (State.malformed s c h).view := by
  unfold State.malformed
  (try dsimp only) <;> intros <;> with_reducible
      (repeat' first
          | exact .refl _ | assumption | apply calmBack | dsimp only [viewMk] | refine (State.nakTerminal_calm _ _ _ _ _).to ?_
          | refine (State.violation_calm _ _).to ?_ | apply calmIte | rfl | intro _ | split)

theorem State.refuse_calm (s : State) (c : Nat) (code : Nat) (last : Nat) (h : Bytes) :
    Calm rl s.view (State.refuse s c code last h).view := by
  unfold State.refuse
  (try dsimp only) <;> intros <;> with_reducible
      (repeat' first
          | exact .refl _ | assumption | apply calmBack | dsimp only [viewMk] | refine (State.nakTerminal_calm _ _ _ _ _).to ?_
          | refine (State.violation_calm _ _).to ?_ | apply calmIte | rfl | intro _ | split)

theorem State.beginAppend_calm (s : State) (c : Nat) (h : Bytes) (go : State → State) (hgo : ∀ s, Calm rl (State.view s) (go s).view) :
    Calm rl s.view (State.beginAppend s c h go).view := by
  unfold State.beginAppend
  (try dsimp only) <;> intros <;> with_reducible
      (repeat' first
          | exact .refl _ | assumption | apply calmBack | dsimp only [viewMk] | refine (State.countClass_calm _ _ _).to ?_
          | refine (State.nakRetry_calm _ _ _ _ _ _).to ?_ | refine (State.nakTerminal_calm _ _ _ _ _).to ?_
          | refine (State.refuse_calm _ _ _ _ _).to ?_ | refine (State.setConn_calm _ _ _).to ?_
          | refine (State.takeGeneral_calm _ _).to ?_ | refine (hgo _).to ?_ | apply calmIte | rfl | intro _ | split)

theorem State.endAppend_calm (s : State) (c : Nat) (m : IMsg) (last : Nat) :
    Calm rl s.view (State.endAppend s c m last).view := by
  unfold State.endAppend
  (try dsimp only) <;> intros <;> with_reducible
      (repeat' first
          | exact .refl _ | assumption | apply calmBack | dsimp only [viewMk] | refine (State.accept_calm _ _ _ _ _ _ _ _ _).to ?_
          | refine (State.countClass_calm _ _ _).to ?_ | refine (State.nakRetry_calm _ _ _ _ _ _).to ?_
          | refine (State.nakTerminal_calm _ _ _ _ _).to ?_ | refine (State.releaseOldest_calm _ _ _).to ?_
          | refine (State.reply_calm _ _ _ _ _).to ?_ | refine (State.setConn_calm _ _ _).to ?_
          | refine (State.setVol_calm _ _ _).to ?_ | apply calmIte | rfl | intro _ | split)

theorem State.takeAppend_calm (s : State) (c : Nat) (h : Bytes) (payload : Bytes) :
    Calm rl s.view (State.takeAppend s c h payload).view := by
  unfold State.takeAppend
  (try dsimp only) <;> intros <;> with_reducible
      (repeat' first
          | exact .refl _ | assumption | apply calmBack | dsimp only [viewMk] | refine (State.endAppend_calm _ _ _ _).to ?_
          | refine (State.malformed_calm _ _ _).to ?_ | refine (State.setConn_calm _ _ _).to ?_ | apply calmIte | rfl | intro _
          | split)

theorem State.actAppend_calm (s : State) (c : Nat) (h : Bytes) :
    Calm rl s.view (State.actAppend s c h).view := by
  unfold State.actAppend
  (try dsimp only) <;> intros <;> with_reducible
      (repeat' first
          | exact .refl _ | assumption | apply calmBack | dsimp only [viewMk] | refine (State.beginAppend_calm _ _ _ _ ?_).to ?_
          | refine (State.malformed_calm _ _ _).to ?_ | refine (State.takeAppend_calm _ _ _ _).to ?_ | apply calmIte | rfl | intro _
          | split)

theorem State.ackOne_calm (s : State) (c : Nat) (h : Bytes) :
    Calm rl s.view (State.ackOne s c h).view := by
  unfold State.ackOne
  (try dsimp only) <;> intros <;> with_reducible
      (repeat' first
          | exact .refl _ | assumption | apply calmBack | dsimp only [viewMk] | refine (State.countClass_calm _ _ _).to ?_
          | refine (State.reply_calm _ _ _ _ _).to ?_ | refine (State.setConn_calm _ _ _).to ?_ | apply calmIte | rfl | intro _
          | split)

theorem State.respondRead_calm (s : State) (c : Nat) (h : Bytes) (data : Bytes) (status : Nat) (tail : Bytes) :
    Calm rl s.view (State.respondRead s c h data status tail).view := by
  unfold State.respondRead
  (try dsimp only) <;> intros <;> with_reducible
      (repeat' first
          | exact .refl _ | assumption | apply calmBack | dsimp only [viewMk] | refine (State.ackOne_calm _ _ _).to ?_
          | refine (State.enqueue_calm _ _ _).to ?_ | apply calmIte | rfl | intro _ | split)

theorem State.readWindow_calm (s0 : State) (c : Nat) (v : Nat) (h : Bytes) (media : List (Nat × Media)) :
    Calm rl s0.view (State.readWindow s0 c v h media).view := by
  unfold State.readWindow
  (try dsimp only) <;> intros <;> with_reducible
      (repeat' first
          | exact .refl _ | assumption | apply calmBack | dsimp only [viewMk] | refine (State.readRecords_calm _ _ _).to ?_
          | refine (State.respondRead_calm _ _ _ _ _ _).to ?_ | apply calmIte | apply calmIte1 | rfl | intro _ | split)

theorem State.actRead_calm (s : State) (c : Nat) (h : Bytes) (media : List (Nat × Media)) :
    Calm rl s.view (State.actRead s c h media).view := by
  unfold State.actRead
  (try dsimp only) <;> intros <;> with_reducible
      (repeat' first
          | exact .refl _ | assumption | apply calmBack | dsimp only [viewMk] | refine (State.malformed_calm _ _ _).to ?_
          | refine (State.nakTerminal_calm _ _ _ _ _).to ?_ | refine (State.readWindow_calm _ _ _ _ _).to ?_
          | refine (State.refuse_calm _ _ _ _ _).to ?_ | refine (State.respondRead_calm _ _ _ _ _ _).to ?_ | apply calmIte
          | apply calmIte1 | rfl | intro _ | split)

theorem State.actSend_calm (s : State) (c : Nat) (h : Bytes) :
    Calm rl s.view (State.actSend s c h).view := by
  unfold State.actSend
  (try dsimp only) <;> intros <;> with_reducible
      (repeat' first
          | exact .refl _ | assumption | apply calmBack | dsimp only [viewMk] | refine (State.ackOne_calm _ _ _).to ?_
          | refine (State.malformed_calm _ _ _).to ?_ | refine (State.refuse_calm _ _ _ _ _).to ?_
          | refine (State.setConn_calm _ _ _).to ?_ | refine (State.triggerAll_calm _ _ _).to ?_ | apply calmIte | apply calmIte1
          | rfl | intro _ | split)

theorem State.rekey_calm (s : State) (c : Nat) :
    Calm rl s.view (State.rekey s c).view := by
  unfold State.rekey
  (try dsimp only) <;> intros <;> with_reducible
      (repeat' first
          | exact .refl _ | assumption | apply calmBack | dsimp only [viewMk] | refine (State.connDown_calm _ _).to ?_
          | refine (State.requestHello_calm _ _ _).to ?_ | apply calmIte | rfl | intro _ | split)

theorem State.acknowledge_calm (s : State) (c : Nat) (psn : Nat) (done : State → OMsg → State) (hdone : ∀ s a0, Calm rl (State.view s) (done s a0).view) :
    Calm rl s.view (State.acknowledge s c psn done).view := by
  unfold State.acknowledge
  extract_lets
  refine calmIte (.refl _) (.to (State.pump_calm _ _ _) ?_)
  exact calmFold (State.setConn_calm _ _ _) hdone

theorem State.actAck_calm (s : State) (c : Nat) (h : Bytes) (late : Bool) :
    Calm rl s.view (State.actAck s c h late).view := by
  unfold State.actAck
  (try dsimp only) <;> intros <;> with_reducible
      (repeat' first
          | exact .refl _ | assumption | apply calmBack | dsimp only [viewMk] | refine (State.acknowledge_calm _ _ _ _ ?_).to ?_
          | refine (State.cairnAcked_calm _ _).to ?_ | refine (State.late_calm _).to ?_ | refine (State.rekey_calm _ _).to ?_
          | refine (State.violation_calm _ _).to ?_ | apply calmIte | rfl | intro _ | split)

theorem State.holdMessage_calm (s : State) (c : Nat) (psn : Nat) (hint : Nat) :
    Calm rl s.view (State.holdMessage s c psn hint).view := by
  unfold State.holdMessage
  extract_lets
  with_reducible
      (repeat' first
          | exact .refl _ | assumption | apply calmBack | dsimp only [viewMk] | refine (State.setConn_calm _ _ _).to ?_
          | apply calmIte | rfl | intro _ | split)

theorem State.actNak_calm (s : State) (c : Nat) (h : Bytes) :
    Calm rl s.view (State.actNak s c h).view := by
  unfold State.actNak
  (try dsimp only) <;> intros <;> with_reducible
      (repeat' first
          | exact .refl _ | assumption | apply calmBack | dsimp only [viewMk] | refine (State.acknowledge_calm _ _ _ _ ?_).to ?_
          | refine (State.cairnBroken_calm _ _ _).to ?_ | refine (State.goBack_calm _ _).to ?_
          | refine (State.holdMessage_calm _ _ _ _).to ?_ | refine (State.rekey_calm _ _).to ?_
          | refine (State.violation_calm _ _).to ?_ | apply calmIte | rfl | intro _ | split)

theorem State.answerHello_calm (s : State) (c : Nat) (p : Nat) (h : Bytes) :
    Calm rl s.view (State.answerHello s c p h).view := by
  unfold State.answerHello
  (try dsimp only) <;> intros <;> with_reducible
      (repeat' first
          | exact .refl _ | assumption | apply calmBack | dsimp only [viewMk] | refine (State.connUp_calm _ _ _ _).to ?_
          | refine (State.helloNonce_calm _ _).to ?_ | refine (State.sendHello_calm _ _ _ _ _ _ _).to ?_ | apply calmIte
          | apply calmIte1 | rfl | intro _ | split)

theorem State.actHello_calm (s : State) (c : Nat) (p : Nat) (h : Bytes) :
    Calm rl s.view (State.actHello s c p h).view := by
  unfold State.actHello
  (try dsimp only) <;> intros <;> with_reducible
      (repeat' first
          | exact .refl _ | assumption | apply calmBack | dsimp only [viewMk] | refine (State.answerHello_calm _ _ _ _).to ?_
          | refine (State.connDown_calm _ _).to ?_ | refine (State.connUp_calm _ _ _ _).to ?_
          | refine (State.violation_calm _ _).to ?_ | apply calmIte | rfl | intro _ | split)

theorem State.actFrame_calm (s : State) (c : Nat) (p : Nat) (h : Bytes) (a : Arrival) (media : List (Nat × Media)) :
    Calm rl s.view (State.actFrame s c p h a media).view := by
  unfold State.actFrame
  (try dsimp only) <;> intros <;> with_reducible
      (repeat' first
          | exact .refl _ | assumption | apply calmBack | dsimp only [viewMk] | refine (State.actAck_calm _ _ _ _).to ?_
          | refine (State.actAppend_calm _ _ _).to ?_ | refine (State.actHello_calm _ _ _ _).to ?_
          | refine (State.actNak_calm _ _ _).to ?_ | refine (State.actRead_calm _ _ _ _).to ?_
          | refine (State.actSend_calm _ _ _).to ?_ | refine (State.inOrder_calm _ _ _ _ _ ?_).to ?_
          | refine (State.late_calm _).to ?_ | refine (State.malformed_calm _ _ _).to ?_
          | refine (State.quarantineNak_calm _ _ _).to ?_ | refine (State.rekey_calm _ _).to ?_ | apply calmIte | apply calmIte1
          | rfl | intro _ | split)

theorem State.arrive_calm (s : State) (p : Nat) (f : Bytes) (fcs : Bool) (a : Arrival) (media : List (Nat × Media)) :
    Calm rl s.view (State.arrive s p f fcs a media).view := by
  unfold State.arrive
  (try dsimp only) <;> intros <;> with_reducible
      (repeat' first
          | exact .refl _ | assumption | apply calmBack | dsimp only [viewMk] | refine (State.actFrame_calm _ _ _ _ _ _).to ?_
          | refine (State.bump_calm _ _).to ?_ | refine (State.countF_calm _ _ _).to ?_ | refine (State.late_calm _).to ?_
          | refine (State.noteFill_calm _ _ _ _).to ?_ | refine (State.tallyIcrc_calm _ _).to ?_
          | refine (State.violation_calm _ _).to ?_ | apply calmIte | apply calmIte1 | rfl | intro _ | split)

theorem State.arriveOp_calm (s : State) (op : Nat) (p : Nat) (f : Bytes) (a : Arrival) (media : List (Nat × Media)) :
    Ends rl s.view (State.arriveOp s op p f a media) := by
  unfold State.arriveOp
  (try dsimp only) <;> intros <;> with_reducible
      (repeat' first
          | exact .refl _ | assumption | apply calmBack | dsimp only [viewMk] | refine (State.arrive_calm _ _ _ _ _ _).to ?_
          | apply calmIte | apply calmIte1 | apply Ends.ok | apply Ends.next | apply Ends.ite | rfl | intro _ | split)

theorem execIlideAppend_calm (s : State) (p : Fin 2) (frame : Bytes) (a : Arrival) :
    Ends rl s.view (execIlideAppend p frame a s) := by
  unfold execIlideAppend
  (try dsimp only) <;> intros <;> with_reducible
      (repeat' first
          | exact .refl _ | assumption | apply calmBack | dsimp only [viewMk] | refine (State.arriveOp_calm _ _ _ _ _ _).to ?_
          | refine ((State.arriveOp_calm _ _ _ _ _ _).get (by assumption)).to ?_ | apply calmIte | apply Ends.ok | apply Ends.next
          | apply Ends.ite | rfl | intro _ | split)

theorem execReadReq_calm (s : State) (p : Fin 2) (frame : Bytes) (a : Arrival) (media : List (Nat × Media)) :
    Ends rl s.view (execReadReq p frame a media s) := by
  unfold execReadReq
  (try dsimp only) <;> intros <;> with_reducible
      (repeat' first
          | exact .refl _ | assumption | apply calmBack | dsimp only [viewMk] | refine (State.arriveOp_calm _ _ _ _ _ _).to ?_
          | refine ((State.arriveOp_calm _ _ _ _ _ _).get (by assumption)).to ?_ | apply calmIte | apply calmIte1 | apply Ends.ok
          | apply Ends.next | apply Ends.ite | rfl | intro _ | split)

theorem execSend_calm (s : State) (p : Fin 2) (frame : Bytes) (a : Arrival) :
    Ends rl s.view (execSend p frame a s) := by
  unfold execSend
  (try dsimp only) <;> intros <;> with_reducible
      (repeat' first
          | exact .refl _ | assumption | apply calmBack | dsimp only [viewMk] | refine (State.arriveOp_calm _ _ _ _ _ _).to ?_
          | refine ((State.arriveOp_calm _ _ _ _ _ _).get (by assumption)).to ?_ | apply calmIte | apply Ends.ok | apply Ends.next
          | apply Ends.ite | rfl | intro _ | split)

theorem execAck_calm (s : State) (p : Fin 2) (frame : Bytes) (a : Arrival) :
    Ends rl s.view (execAck p frame a s) := by
  unfold execAck
  (try dsimp only) <;> intros <;> with_reducible
      (repeat' first
          | exact .refl _ | assumption | apply calmBack | dsimp only [viewMk] | refine (State.arriveOp_calm _ _ _ _ _ _).to ?_
          | refine ((State.arriveOp_calm _ _ _ _ _ _).get (by assumption)).to ?_ | apply calmIte | apply Ends.ok | apply Ends.next
          | apply Ends.ite | rfl | intro _ | split)

theorem execNak_calm (s : State) (p : Fin 2) (frame : Bytes) (a : Arrival) :
    Ends rl s.view (execNak p frame a s) := by
  unfold execNak
  (try dsimp only) <;> intros <;> with_reducible
      (repeat' first
          | exact .refl _ | assumption | apply calmBack | dsimp only [viewMk] | refine (State.arriveOp_calm _ _ _ _ _ _).to ?_
          | refine ((State.arriveOp_calm _ _ _ _ _ _).get (by assumption)).to ?_ | apply calmIte | apply Ends.ok | apply Ends.next
          | apply Ends.ite | rfl | intro _ | split)

theorem execHello_calm (s : State) (p : Fin 2) (frame : Bytes) (a : Arrival) :
    Ends rl s.view (execHello p frame a s) := by
  unfold execHello
  (try dsimp only) <;> intros <;> with_reducible
      (repeat' first
          | exact .refl _ | assumption | apply calmBack | dsimp only [viewMk] | refine (State.arriveOp_calm _ _ _ _ _ _).to ?_
          | refine ((State.arriveOp_calm _ _ _ _ _ _).get (by assumption)).to ?_ | apply calmIte | apply Ends.ok | apply Ends.next
          | apply Ends.ite | rfl | intro _ | split)

theorem execOtherFrame_calm (s : State) (p : Fin 2) (frame : Bytes) (fcs : Bool) (a : Arrival) :
    Ends rl s.view (execOtherFrame p frame fcs a s) := by
  unfold execOtherFrame
  (try dsimp only) <;> intros <;> with_reducible
      (repeat' first
          | exact .refl _ | assumption | apply calmBack | dsimp only [viewMk] | refine (State.arrive_calm _ _ _ _ _ _).to ?_
          | apply calmIte | apply Ends.ok | apply Ends.next | apply Ends.ite | rfl | intro _ | split)

theorem State.clearPort_calm (s : State) (p : Nat) :
    Calm rl s.view (State.clearPort s p).view := by
  unfold State.clearPort
  (try dsimp only) <;> intros <;> with_reducible
      (repeat' first
          | exact .refl _ | assumption | apply calmBack | dsimp only [viewMk] | refine (State.setF_calm _ _ _).to ?_ | apply calmIte
          | apply calmIte1 | rfl | intro _ | split)

theorem State.failPort_calm (s : State) (p : Nat) (failed : Bool) :
    Calm rl s.view (State.failPort s p failed).view := by
  unfold State.failPort
  (try dsimp only) <;> intros <;> with_reducible
      (repeat' first
          | exact .refl _ | assumption | apply calmBack | dsimp only [viewMk] | refine (State.regrade_calm _).to ?_ | apply calmIte
          | rfl | intro _ | split)

theorem execPortLinkUp_calm (s : State) (p : Fin 2) (kx : Bool) (fec : Bool) :
    Ends rl s.view (execPortLinkUp p kx fec s) := by
  unfold execPortLinkUp
  (try dsimp only) <;> intros <;> with_reducible
      (repeat' first
          | refine (State.failPort_calm _ _ _).to ?_ | exact .refl _ | assumption | apply calmBack | dsimp only [viewMk] | refine (State.record_calm _ _ _ _ _ _ _).to ?_
          | refine (State.setF_calm _ _ _).to ?_ | apply calmIte | apply Ends.ok | apply Ends.next | apply Ends.ite | rfl | intro _
          | split)

theorem State.portDown_calm (s : State) (p : Nat) (link : Nat) :
    Calm rl s.view (State.portDown s p link).view := by
  unfold State.portDown
  (try dsimp only) <;> intros <;> with_reducible
      (repeat' first
          | refine (State.failPort_calm _ _ _).to ?_ | exact .refl _ | assumption | apply calmBack | dsimp only [viewMk] | refine (State.clearPort_calm _ _).to ?_
          | refine (State.failoverPort_calm _ _ _).to ?_ | refine (State.setF_calm _ _ _).to ?_ | apply calmIte | rfl | intro _
          | split)

theorem execPortLinkDown_calm (s : State) (p : Fin 2) :
    Ends rl s.view (execPortLinkDown p s) := by
  unfold execPortLinkDown
  (try dsimp only) <;> intros <;> with_reducible
      (repeat' first
          | refine (State.failPort_calm _ _ _).to ?_ | exact .refl _ | assumption | apply calmBack | dsimp only [viewMk] | refine (State.portDown_calm _ _ _).to ?_
          | refine (State.record_calm _ _ _ _ _ _ _).to ?_ | apply calmIte | apply Ends.ok | apply Ends.next | apply Ends.ite | rfl
          | intro _ | split)

theorem State.enablePort_calm (s : State) (p : Nat) (on : Bool) :
    Calm rl s.view (State.enablePort s p on).view := by
  unfold State.enablePort
  (try dsimp only) <;> intros <;> with_reducible
      (repeat' first
          | refine (State.failPort_calm _ _ _).to ?_ | exact .refl _ | assumption | apply calmBack | dsimp only [viewMk] | refine (State.portDown_calm _ _ _).to ?_
          | refine (State.setF_calm _ _ _).to ?_ | apply calmIte | rfl | intro _ | split)

theorem execPortEnable_calm (s : State) (path : Path) (p : Fin 2) (on : Bool) :
    Ends rl s.view (execPortEnable path p on s) := by
  unfold execPortEnable
  (try dsimp only) <;> intros <;> with_reducible
      (repeat' first
          | refine (State.failPort_calm _ _ _).to ?_ | exact .refl _ | assumption | apply calmBack | dsimp only [viewMk] | refine (State.asInstaller_calm _ _ _ ?_).to ?_
          | refine (State.asWrite_calm _ _ ?_).to ?_ | refine ((State.asWrite_calm _ _ ?_).get (by assumption)).to ?_
          | refine (State.enablePort_calm _ _ _).to ?_ | refine (State.ignoredWrite_calm _).to ?_ | apply calmIte | apply Ends.ok
          | apply Ends.next | apply Ends.ite | rfl | intro _ | split)

theorem State.releaseHeld_calm (s : State) (p : Nat) (prio : Nat) :
    Calm rl s.view (State.releaseHeld s p prio).view := by
  unfold State.releaseHeld
  (try dsimp only) <;> intros <;> with_reducible
      (repeat' first
          | exact .refl _ | assumption | apply calmBack | dsimp only [viewMk] | refine (State.putFrame_calm _ _ _ _).to ?_
          | refine (State.setF_calm _ _ _).to ?_ | apply calmIte | apply calmFold | apply calmFold1 | rfl | intro _ | split)

theorem execPfcFrame_calm (s : State) (p : Fin 2) (set : BitVec 8) (quanta : BitVec 8) :
    Ends rl s.view (execPfcFrame p set quanta s) := by
  unfold execPfcFrame
  (try dsimp only) <;> intros <;> with_reducible
      (repeat' first
          | exact .refl _ | assumption | apply calmBack | dsimp only [viewMk] | refine (State.releaseHeld_calm _ _ _).to ?_
          | refine (State.setF_calm _ _ _).to ?_ | apply calmIte | apply calmFold | apply calmFold1 | apply Ends.ok
          | apply Ends.next | apply Ends.ite | rfl | intro _ | split)

theorem execPauseWatchdog_calm (s : State) (p : Fin 2) (prio : Fin 8) :
    Ends rl s.view (execPauseWatchdog p prio s) := by
  unfold execPauseWatchdog
  (try dsimp only) <;> intros <;> with_reducible
      (repeat' first
          | exact .refl _ | assumption | apply calmBack | dsimp only [viewMk] | refine (State.bump_calm _ _).to ?_
          | refine (State.failoverPort_calm _ _ _).to ?_ | refine (State.record_calm _ _ _ _ _ _ _).to ?_
          | refine (State.setF_calm _ _ _).to ?_ | apply calmIte | apply Ends.ok | apply Ends.next | apply Ends.ite | rfl | intro _
          | split)

theorem execPauseTxLimit_calm (s : State) (p : Fin 2) (prio : Fin 8) :
    Ends rl s.view (execPauseTxLimit p prio s) := by
  unfold execPauseTxLimit
  (try dsimp only) <;> intros <;> with_reducible
      (repeat' first
          | exact .refl _ | assumption | apply calmBack | dsimp only [viewMk] | refine (State.ownPause_calm _ _ _ _).to ?_
          | refine (State.record_calm _ _ _ _ _ _ _).to ?_ | apply calmIte | apply Ends.ok | apply Ends.next | apply Ends.ite | rfl
          | intro _ | split)

theorem State.retryLimit_calm (s : State) (c : Nat) :
    Calm rl s.view (State.retryLimit s c).view := by
  unfold State.retryLimit
  (try dsimp only) <;> intros <;> with_reducible
      (repeat' first
          | exact .refl _ | assumption | apply calmBack | dsimp only [viewMk] | refine (State.connDown_calm _ _).to ?_
          | refine (State.failover_calm _ _).to ?_ | refine (State.setConn_calm _ _ _).to ?_ | apply calmIte | rfl | intro _
          | split)

theorem execRetransmitTimeout_calm (s : State) (c : Fin 256) :
    Ends rl s.view (execRetransmitTimeout c s) := by
  unfold execRetransmitTimeout
  (try dsimp only) <;> intros <;> with_reducible
      (repeat' first
          | exact .refl _ | assumption | apply calmBack | dsimp only [viewMk] | refine (State.goBack_calm _ _).to ?_
          | refine (State.pump_calm _ _ _).to ?_ | refine (State.retryLimit_calm _ _).to ?_
          | refine (State.setConn_calm _ _ _).to ?_ | apply calmIte | apply Ends.ok | apply Ends.next | apply Ends.ite | rfl
          | intro _ | split)

theorem execAssemblyTimeout_calm (s : State) (c : Fin 256) :
    Ends rl s.view (execAssemblyTimeout c s) := by
  unfold execAssemblyTimeout
  (try dsimp only) <;> intros <;> with_reducible
      (repeat' first
          | exact .refl _ | assumption | apply calmBack | dsimp only [viewMk] | refine (State.dropIn_calm _ _).to ?_
          | refine (State.setConn_calm _ _ _).to ?_ | apply calmIte | apply Ends.ok | apply Ends.next | apply Ends.ite | rfl
          | intro _ | split)

theorem execKeepaliveSend_calm (s : State) (c : Fin 256) :
    Ends rl s.view (execKeepaliveSend c s) := by
  unfold execKeepaliveSend
  (try dsimp only) <;> intros <;> with_reducible
      (repeat' first
          | exact .refl _ | assumption | apply calmBack | dsimp only [viewMk] | refine (State.helloNonce_calm _ _).to ?_
          | refine (State.sendHello_calm _ _ _ _ _ _ _).to ?_ | apply calmIte | apply calmIte1 | apply Ends.ok | apply Ends.next
          | apply Ends.ite | rfl | intro _ | split)

theorem execPartnerSilence_calm (s : State) (c : Fin 256) :
    Ends rl s.view (execPartnerSilence c s) := by
  unfold execPartnerSilence
  (try dsimp only) <;> intros <;> with_reducible
      (repeat' first
          | exact .refl _ | assumption | apply calmBack | dsimp only [viewMk] | refine (State.failover_calm _ _).to ?_
          | apply calmIte | apply Ends.ok | apply Ends.next | apply Ends.ite | rfl | intro _ | split)

theorem execHelloRetry_calm (s : State) (c : Fin 256) :
    Ends rl s.view (execHelloRetry c s) := by
  unfold execHelloRetry
  (try dsimp only) <;> intros <;> with_reducible
      (repeat' first
          | exact .refl _ | assumption | apply calmBack | dsimp only [viewMk] | refine (State.requestHello_calm _ _ _).to ?_
          | apply calmIte | apply Ends.ok | apply Ends.next | apply Ends.ite | rfl | intro _ | split)

theorem State.applyEntry_calm (s : State) (c : Nat) (b : Bytes) :
    Calm rl s.view (State.applyEntry s c b).view := by
  unfold State.applyEntry
  (try dsimp only) <;> intros <;> with_reducible
      (repeat' first
          | exact .refl _ | assumption | apply calmBack | dsimp only [viewMk] | refine (State.connDown_calm _ _).to ?_
          | refine (State.setConn_calm _ _ _).to ?_ | apply calmIte | rfl | intro _ | split)

theorem execConnectionBoundary_calm (s : State) (c : Fin 256) (forced : Bool) :
    Ends rl s.view (execConnectionBoundary c forced s) := by
  unfold execConnectionBoundary
  (try dsimp only) <;> intros <;> with_reducible
      (repeat' first
          | exact .refl _ | assumption | apply calmBack | dsimp only [viewMk] | refine (State.applyEntry_calm _ _ _).to ?_
          | apply calmIte | apply Ends.ok | apply Ends.next | apply Ends.ite | rfl | intro _ | split)

theorem State.syncConn_calm (s : State) (c : Nat) (b : Bytes) :
    Calm rl s.view (State.syncConn s c b).view := by
  unfold State.syncConn
  (try dsimp only) <;> intros <;> with_reducible
      (repeat' first
          | exact .refl _ | assumption | apply calmBack | dsimp only [viewMk] | refine (State.applyEntry_calm _ _ _).to ?_
          | refine (State.closeConn_calm _ _).to ?_ | refine (State.release_calm _ _).to ?_ | apply calmIte | rfl | intro _ | split)

theorem execTableSyncDone_calm (s : State) :
    Ends rl s.view (execTableSyncDone s) := by
  unfold execTableSyncDone
  (try dsimp only) <;> intros <;> with_reducible
      (repeat' first
          | exact .refl _ | assumption | apply calmBack | dsimp only [viewMk] | refine (State.acceptEntry_calm _ _ _).to ?_
          | refine (State.rejectSync_calm _ _).to ?_ | refine (State.setF_calm _ _ _).to ?_
          | refine (State.syncConn_calm _ _ _).to ?_ | apply calmIte | apply Ends.ok | apply Ends.next | apply Ends.ite | rfl
          | intro _ | split)

theorem execQuarantineEnd_calm (s : State) (c : Fin 256) :
    Ends rl s.view (execQuarantineEnd c s) := by
  unfold execQuarantineEnd
  (try dsimp only) <;> intros <;> with_reducible
      (repeat' first
          | exact .refl _ | assumption | apply calmBack | dsimp only [viewMk] | refine (State.release_calm _ _).to ?_
          | apply calmIte | apply Ends.ok | apply Ends.next | apply Ends.ite | rfl | intro _ | split)

theorem State.clearQuarantine_calm (s : State) (v : Nat) :
    Calm rl s.view (State.clearQuarantine s v).view := by
  unfold State.clearQuarantine
  (try dsimp only) <;> intros <;> with_reducible
      (repeat' first
          | exact .refl _ | assumption | apply calmBack | dsimp only [viewMk] | refine (State.release_calm _ _).to ?_
          | apply calmIte | rfl | intro _ | split)

theorem execQuarantineClear_calm (s : State) (path : Path) (value : Word) :
    Ends rl s.view (execQuarantineClear path value s) := by
  unfold execQuarantineClear
  (try dsimp only) <;> intros <;> with_reducible
      (repeat' first
          | exact .refl _ | assumption | apply calmBack | dsimp only [viewMk] | refine (State.asInstaller_calm _ _ _ ?_).to ?_
          | refine (State.asWrite_calm _ _ ?_).to ?_ | refine ((State.asWrite_calm _ _ ?_).get (by assumption)).to ?_
          | refine (State.clearQuarantine_calm _ _).to ?_ | refine (State.ignoredWrite_calm _).to ?_ | apply calmIte | apply Ends.ok
          | apply Ends.next | apply Ends.ite | rfl | intro _ | split)

end Sys2Proof.Machine
end

