-- ==== Sys2Proof/Laws/CalmSystem.lean ====
section
/-! SUPPORT. `Calm` through every operation and meaning: starts, the register bus, READY and the Belion system operations. -/

set_option linter.unusedVariables false

namespace Sys2Proof.Machine

variable {rl : Bool}

theorem State.setFails_calm (s : State) (v : Nat) :
    Calm rl s.view (State.setFails s v).view := by
  unfold State.setFails
  (try dsimp only) <;> intros <;> with_reducible
      (repeat' first
          | exact .refl _ | assumption | apply calmBack | dsimp only [viewMk] | refine (State.writeBoot_calm _ _).to ?_
          | apply calmIte | rfl | intro _ | split)

theorem State.failedStart_calm (s : State) (cause : Nat) :
    Calm rl s.view (State.failedStart s cause).view := by
  unfold State.failedStart
  (try dsimp only) <;> intros <;> with_reducible
      (repeat' first
          | exact .refl _ | assumption | apply calmBack | dsimp only [viewMk] | refine (State.bump_calm _ _).to ?_
          | refine (State.endTrial_calm _).to ?_ | refine (State.flushScree_calm _).to ?_ | refine (State.noteStart_calm _).to ?_
          | refine (State.record_calm _ _ _ _ _ _ _).to ?_ | refine (State.saveTimes_calm _).to ?_
          | refine (State.setFails_calm _ _).to ?_ | apply calmIte | rfl | intro _ | split)

theorem execStartTimeout_calm (s : State) :
    Ends rl s.view (execStartTimeout s) := by
  unfold execStartTimeout
  (try dsimp only) <;> intros <;> with_reducible
      (repeat' first
          | exact .refl _ | assumption | apply calmBack | dsimp only [viewMk] | refine (State.failedStart_calm _ _).to ?_
          | apply calmIte | apply Ends.ok | apply Ends.next | apply Ends.ite | rfl | intro _ | split)

theorem execWatchdogExpiry_calm (s : State) :
    Ends rl s.view (execWatchdogExpiry s) := by
  unfold execWatchdogExpiry
  (try dsimp only) <;> intros <;> with_reducible
      (repeat' first
          | exact .refl _ | assumption | apply calmBack | dsimp only [viewMk] | refine (State.failedStart_calm _ _).to ?_
          | apply calmIte | apply Ends.ok | apply Ends.next | apply Ends.ite | rfl | intro _ | split)

theorem execWatchdogHalf_calm (s : State) :
    Ends rl s.view (execWatchdogHalf s) := by
  unfold execWatchdogHalf
  (try dsimp only) <;> intros <;> with_reducible
      (repeat' first
          | exact .refl _ | assumption | apply calmBack | dsimp only [viewMk] | refine (State.raise_calm _ _ _).to ?_
          | apply calmIte | apply Ends.ok | apply Ends.next | apply Ends.ite | rfl | intro _ | split)

theorem execFailedCountClear_calm (s : State) :
    Ends rl s.view (execFailedCountClear s) := by
  unfold execFailedCountClear
  (try dsimp only) <;> intros <;> with_reducible
      (repeat' first
          | exact .refl _ | assumption | apply calmBack | dsimp only [viewMk] | refine (State.setFails_calm _ _).to ?_
          | apply calmIte | apply Ends.ok | apply Ends.next | apply Ends.ite | rfl | intro _ | split)

theorem State.writeStart_calm (s : State) (value : Nat) :
    Calm rl s.view (State.writeStart s value).view := by
  unfold State.writeStart
  (try dsimp only) <;> intros <;> with_reducible
      (repeat' first
          | exact .refl _ | assumption | apply calmBack | dsimp only [viewMk] | refine (State.dropValue_calm _ _ _).to ?_
          | refine (State.setFails_calm _ _).to ?_ | apply calmIte | rfl | intro _ | split)

theorem execGlbStartWrite_calm (s : State) (p : Path) (value : Word) :
    Ends rl s.view (execGlbStartWrite p value s) := by
  unfold execGlbStartWrite
  (try dsimp only) <;> intros <;> with_reducible
      (repeat' first
          | exact .refl _ | assumption | apply calmBack | dsimp only [viewMk] | refine (State.asInstaller_calm _ _ _ ?_).to ?_
          | refine (State.ignoredWrite_calm _).to ?_ | refine (State.writeStart_calm _ _).to ?_ | apply calmIte | apply Ends.ok
          | apply Ends.next | apply Ends.ite | rfl | intro _ | split)

theorem State.restart_calm (s : State) (src : Nat) (cause : FreezeCause) :
    Calm rl s.view (State.restart s src cause).view := by
  unfold State.restart
  (try dsimp only) <;> intros <;> with_reducible
      (repeat' first
          | exact .refl _ | assumption | apply calmBack | dsimp only [viewMk] | refine (State.freezeNow_calm _ _ _).to ?_
          | apply calmIte | rfl | intro _ | split)

theorem State.restartRequest_calm (s : State) :
    Calm rl s.view (State.restartRequest s).view := by
  unfold State.restartRequest
  (try dsimp only) <;> intros <;> with_reducible
      (repeat' first
          | exact .refl _ | assumption | apply calmBack | dsimp only [viewMk] | refine (State.restart_calm _ _ _).to ?_
          | apply calmIte | rfl | intro _ | split)

theorem execRestartRequest_calm (s : State) (p : Path) :
    Ends rl s.view (execRestartRequest p s) := by
  unfold execRestartRequest
  (try dsimp only) <;> intros <;> with_reducible
      (repeat' first
          | exact .refl _ | assumption | apply calmBack | dsimp only [viewMk] | refine (State.asInstaller_calm _ _ _ ?_).to ?_
          | refine (State.ignoredWrite_calm _).to ?_ | refine (State.restartRequest_calm _).to ?_ | apply calmIte | apply Ends.ok
          | apply Ends.next | apply Ends.ite | rfl | intro _ | split)

theorem execResetNAccepted_calm (s : State) :
    Ends rl s.view (execResetNAccepted s) := by
  unfold execResetNAccepted
  (try dsimp only) <;> intros <;> with_reducible
      (repeat' first
          | exact .refl _ | assumption | apply calmBack | dsimp only [viewMk] | refine (State.record_calm _ _ _ _ _ _ _).to ?_
          | refine (State.restart_calm _ _ _).to ?_ | apply calmIte | apply Ends.ok | apply Ends.next | apply Ends.ite | rfl
          | intro _ | split)

theorem execResetNRelease_calm (s : State) :
    Ends rl s.view (execResetNRelease s) := by
  unfold execResetNRelease
  (try dsimp only) <;> intros <;> with_reducible
      (repeat' first
          | exact .refl _ | assumption | apply calmBack | dsimp only [viewMk] | apply calmIte | apply Ends.ok | apply Ends.next
          | apply Ends.ite | rfl | intro _ | split)

theorem execPowerOn_calm (s : State) (vin : BitVec 16) (vres : BitVec 16) (riset : BitVec 32) (vccq18 : Bool) (latch : Bool) :
    Ends rl s.view (execPowerOn vin vres riset vccq18 latch s) := by
  unfold execPowerOn
  (try dsimp only) <;> intros <;> with_reducible
      (repeat' first
          | exact .refl _ | assumption | apply calmBack | dsimp only [viewMk] | apply calmIte | apply Ends.ok | apply Ends.next
          | apply Ends.ite | rfl | intro _ | split)

theorem execRailsGood_calm (s : State) :
    Ends rl s.view (execRailsGood s) := by
  unfold execRailsGood
  (try dsimp only) <;> intros <;> with_reducible
      (repeat' first
          | exact .refl _ | assumption | apply calmBack | dsimp only [viewMk] | apply calmIte | apply Ends.ok | apply Ends.next
          | apply Ends.ite | rfl | intro _ | split)

theorem State.fresh_calm (s : State) (st : Straps) (rom : RomFacts) :
    Calm rl s.view (State.fresh s st rom).view := by
  unfold State.fresh
  dsimp only <;> with_reducible
      (repeat' first
          | exact .refl _ | assumption | apply calmBack | dsimp only [viewMk] | refine (State.noteVin_calm _ _ _).to ?_
          | refine (State.setF_calm _ _ _).to ?_ | apply calmIte | apply calmFold | apply calmFold1 | rfl | intro _ | split)
  exact .some ⟨Nat.le_refl _, id⟩ (List.prefix_refl _) fun _ => ⟨Nat.zero_le _, Nat.zero_le _, nofun⟩

theorem State.bootSlots_calm (s : State) :
    Calm rl s.view (State.bootSlots s).view := by
  unfold State.bootSlots
  (try dsimp only) <;> intros <;> with_reducible
      (repeat' first
          | exact .refl _ | assumption | apply calmBack | dsimp only [viewMk] | refine (State.record_calm _ _ _ _ _ _ _).to ?_
          | refine (State.writeBoot_calm _ _).to ?_ | apply calmIte | rfl | intro _ | split)

theorem State.findErases_calm (s : State) :
    Calm rl s.view (State.findErases s).view := by
  unfold State.findErases
  (try dsimp only) <;> intros <;> with_reducible
      (repeat' first
          | exact .refl _ | assumption | apply calmBack | dsimp only [viewMk] | refine (State.bump_calm _ _).to ?_
          | refine (State.record_calm _ _ _ _ _ _ _).to ?_ | refine (State.setBlock_calm _ _ _ _).to ?_
          | refine (State.setLun_calm _ _ _).to ?_ | apply calmIte | apply calmIte1 | apply calmFold | apply calmFold1 | rfl
          | intro _ | split)

theorem State.recoverData_calm (s : State) :
    Calm rl s.view (State.recoverData s).view := by
  unfold State.recoverData
  (try dsimp only) <;> intros <;> with_reducible
      (repeat' first
          | exact .refl _ | assumption | apply calmBack | dsimp only [viewMk] | refine (State.ageOff_calm _).to ?_
          | refine (State.bootSlots_calm _).to ?_ | refine (State.findErases_calm _).to ?_
          | refine (State.record_calm _ _ _ _ _ _ _).to ?_ | apply calmIte | apply calmIte1 | rfl | intro _ | split)

theorem State.verifySlot_calm (s : State) (g : Nat) (c : Copies) :
    Calm rl s.view (State.verifySlot s g c).1.view := by
  unfold State.verifySlot
  (try dsimp only) <;> intros <;> with_reducible
      (repeat' first
          | exact .refl _ | assumption | apply calmBack | dsimp only [viewMk] | refine (State.bump_calm _ _).to ?_
          | refine (State.record_calm _ _ _ _ _ _ _).to ?_ | apply calmIte | apply calmIte1 | rfl | intro _ | split)

theorem State.loadAtStart_calm (s : State) (k : Nat) (sec : Bytes) :
    Calm rl s.view (State.loadAtStart s k sec).1.view := by
  unfold State.loadAtStart
  (try dsimp only) <;> intros <;> with_reducible
      (repeat' first
          | exact .refl _ | assumption | apply calmBack | dsimp only [viewMk] | refine (State.failedStart_calm _ _).to ?_
          | refine (State.loadSection_calm _ _ _ _).to ?_ | refine (State.record_calm _ _ _ _ _ _ _).to ?_ | apply calmIte
          | apply calmIte1 | rfl | intro _ | split)

theorem State.loadAll_calm (s : State) (k : Nat) :
    ∀ k0, Calm rl s.view (State.loadAll s k k0).1.view := by
  intro k0
  induction k0 generalizing s k with
  | nil => unfold State.loadAll; (try dsimp only) <;> intros <;> with_reducible
      (repeat' first
          | exact .refl _ | assumption | apply calmBack | dsimp only [viewMk] | refine (State.loadAtStart_calm _ _ _).to ?_
          | apply calmIte | apply calmIte1 | rfl | intro _ | split)
  | cons x k0 ih => unfold State.loadAll; (try dsimp only) <;> intros <;> with_reducible
      (repeat' first
          | exact .refl _ | assumption | apply calmBack | dsimp only [viewMk] | refine (State.loadAtStart_calm _ _ _).to ?_
          | refine (ih _ _).to ?_ | apply calmIte | apply calmIte1 | rfl | intro _ | split)

theorem State.startSlot_calm (s : State) (g : Nat) :
    Calm rl s.view (State.startSlot s g).view := by
  unfold State.startSlot
  (try dsimp only) <;> intros <;> with_reducible
      (repeat' first
          | exact .refl _ | assumption | apply calmBack | dsimp only [viewMk] | refine (State.checked_calm _ _ _ ?_).to ?_
          | refine (State.loadAll_calm _ _ _).to ?_ | apply calmIte | apply calmIte1 | rfl | intro _ | split)

theorem State.startConfirmed_calm (s : State) (rom : RomFacts) :
    Calm rl s.view (State.startConfirmed s rom).view := by
  unfold State.startConfirmed
  (try dsimp only) <;> intros <;> with_reducible
      (repeat' first
          | exact .refl _ | assumption | apply calmBack | dsimp only [viewMk] | refine (State.bump_calm _ _).to ?_
          | refine (State.enterBedrock_calm _ _).to ?_ | refine (State.record_calm _ _ _ _ _ _ _).to ?_
          | refine (State.setFails_calm _ _).to ?_ | refine (State.startSlot_calm _ _).to ?_
          | refine (State.verifySlot_calm _ _ _).to ?_ | refine (State.writeBoot_calm _ _).to ?_ | apply calmIte | apply calmIte1
          | rfl | intro _ | split)

theorem State.startTrial_calm (s : State) (rom : RomFacts) :
    Calm rl s.view (State.startTrial s rom).view := by
  unfold State.startTrial
  (try dsimp only) <;> intros <;> with_reducible
      (repeat' first
          | exact .refl _ | assumption | apply calmBack | dsimp only [viewMk] | refine (State.endTrial_calm _).to ?_
          | refine (State.failedStart_calm _ _).to ?_ | refine (State.record_calm _ _ _ _ _ _ _).to ?_
          | refine (State.startConfirmed_calm _ _).to ?_ | refine (State.startSlot_calm _ _).to ?_
          | refine (State.verifySlot_calm _ _ _).to ?_ | refine (State.writeBoot_calm _ _).to ?_ | apply calmIte | apply calmIte1
          | rfl | intro _ | split)

theorem State.romReady_calm (s : State) :
    Calm rl s.view (State.romReady s).view := by
  unfold State.romReady
  (try dsimp only) <;> intros <;> with_reducible
      (repeat' first
          | exact .refl _ | assumption | apply calmBack | dsimp only [viewMk] | refine (State.run_calm _ _ _ _ _ ?_).to ?_
          | refine ((State.run_calm _ _ _ _ _ ?_).get (by assumption)).to ?_ | apply calmIte | rfl | intro _ | split)

theorem State.romBoot_calm (s : State) (rom : RomFacts) (asked : Bool) :
    Calm rl s.view (State.romBoot s rom asked).view := by
  unfold State.romBoot
  (try dsimp only) <;> intros <;> with_reducible
      (repeat' first
          | exact .refl _ | assumption | apply calmBack | dsimp only [viewMk] | refine (State.enterBedrock_calm _ _).to ?_
          | refine (State.startConfirmed_calm _ _).to ?_ | refine (State.startTrial_calm _ _).to ?_ | apply calmIte | rfl | intro _
          | split)

theorem State.enterRecovery_calm (s : State) :
    Calm rl s.view (State.enterRecovery s).view := by
  unfold State.enterRecovery
  (try dsimp only) <;> intros <;> with_reducible
      (repeat' first
          | exact .refl _ | assumption | apply calmBack | dsimp only [viewMk] | refine (State.noteStart_calm _).to ?_
          | refine (State.record_calm _ _ _ _ _ _ _).to ?_ | refine (State.setDev_calm _ _).to ?_ | apply calmIte | rfl | intro _
          | split)

theorem State.romStart_calm (s : State) (st : Straps) (rom : RomFacts) (asked : Bool) :
    Calm rl s.view (State.romStart s st rom asked).view := by
  unfold State.romStart
  (try dsimp only) <;> intros <;> with_reducible
      (repeat' first
          | exact .refl _ | assumption | apply calmBack | dsimp only [viewMk] | refine (State.enterRecovery_calm _).to ?_
          | refine (State.record_calm _ _ _ _ _ _ _).to ?_ | refine (State.recoverData_calm _).to ?_
          | refine (State.romBoot_calm _ _ _).to ?_ | refine (State.romReady_calm _).to ?_ | apply calmIte | rfl | intro _ | split)

theorem execLogicDieResetRelease_calm (s : State) (st : Straps) (rom : RomFacts) :
    Ends rl s.view (execLogicDieResetRelease st rom s) := by
  unfold execLogicDieResetRelease
  (try dsimp only) <;> intros <;> with_reducible
      (repeat' first
          | exact .refl _ | assumption | apply calmBack | dsimp only [viewMk] | refine (State.fresh_calm _ _ _).to ?_
          | refine (State.record_calm _ _ _ _ _ _ _).to ?_ | refine (State.romStart_calm _ _ _ _).to ?_ | apply calmIte
          | apply Ends.ok | apply Ends.next | apply Ends.ite | rfl | intro _ | split)

theorem execBootLunTimeout_calm (s : State) :
    Ends rl s.view (execBootLunTimeout s) := by
  unfold execBootLunTimeout
  (try dsimp only) <;> intros <;> with_reducible
      (repeat' first
          | exact .refl _ | assumption | apply calmBack | dsimp only [viewMk] | refine (State.record_calm _ _ _ _ _ _ _).to ?_
          | apply calmIte | apply Ends.ok | apply Ends.next | apply Ends.ite | rfl | intro _ | split)

theorem execConfigRetryLimit_calm (s : State) :
    Ends rl s.view (execConfigRetryLimit s) := by
  unfold execConfigRetryLimit
  (try dsimp only) <;> intros <;> with_reducible
      (repeat' first
          | exact .refl _ | assumption | apply calmBack | dsimp only [viewMk] | apply calmIte | apply Ends.ok | apply Ends.next
          | apply Ends.ite | rfl | intro _ | split)

theorem execDrainStepDone_calm (s : State) (work : DrainWork) :
    Ends rl s.view (execDrainStepDone work s) := by
  unfold execDrainStepDone
  (try dsimp only) <;> intros <;> with_reducible
      (repeat' first
          | exact .refl _ | assumption | apply calmBack | dsimp only [viewMk] | refine (State.drainPrograms_calm _ _).to ?_
          | refine (State.drainUnits_calm _ _).to ?_ | refine (State.endDrain_calm _).to ?_ | refine (State.flushScree_calm _).to ?_
          | refine (State.journalVerified_calm _).to ?_ | refine (State.noteStop_calm _ _).to ?_
          | refine (State.saveTimes_calm _).to ?_ | refine (State.saveTrial_calm _).to ?_ | apply calmIte | apply Ends.ok
          | apply Ends.next | apply Ends.ite | rfl | intro _ | split)

theorem State.latchHigh_calm (s : State) (p : Path) (x : L64) :
    Calm rl s.view (State.latchHigh s p x).view := by
  unfold State.latchHigh
  (try dsimp only) <;> intros <;> with_reducible
      (repeat' first
          | exact .refl _ | assumption | apply calmBack | dsimp only [viewMk] | apply calmIte | rfl | intro _ | split)

theorem State.clearFields_calm (s : State) (a : Nat) (lo : Nat) (n : Nat) :
    Calm rl s.view (State.clearFields s a lo n).view := by
  unfold State.clearFields
  (try dsimp only) <;> intros <;> with_reducible
      (repeat' first
          | exact .refl _ | assumption | apply calmBack | dsimp only [viewMk] | refine (State.setF_calm _ _ _).to ?_ | apply calmIte
          | apply calmFold | apply calmFold1 | rfl | intro _ | split)

theorem State.clearStatus_calm (s : State) (a : Nat) (lo : Nat) (n : Nat) :
    Calm rl s.view (State.clearStatus s a lo n).view := by
  unfold State.clearStatus
  (try dsimp only) <;> intros <;> with_reducible
      (repeat' first
          | exact .refl _ | assumption | apply calmBack | dsimp only [viewMk] | refine (State.setChan_calm _ _ _).to ?_
          | apply calmIte | apply RanCalm.done | apply RanCalm.jump | apply RanCalm.stay | apply RanCalm.fault | apply RanCalm.ite
          | rfl | intro _ | split)

theorem State.readEffect_calm (s : State) (p : Path) (a : Nat) (lo : Nat) (n : Nat) :
    Calm rl s.view (State.readEffect s p a lo n).view := by
  unfold State.readEffect
  (try dsimp only) <;> intros <;> with_reducible
      (repeat' first
          | exact .refl _ | assumption | apply calmBack | dsimp only [viewMk] | refine (State.clearFields_calm _ _ _ _).to ?_
          | refine (State.clearStatus_calm _ _ _ _).to ?_ | refine (State.latchHigh_calm _ _ _).to ?_ | apply calmIte | rfl
          | intro _ | split)

theorem State.refuseDebug_calm (s : State) :
    Calm rl s.view (State.refuseDebug s).view := by
  unfold State.refuseDebug
  (try dsimp only) <;> intros <;> with_reducible
      (repeat' first
          | exact .refl _ | assumption | apply calmBack | dsimp only [viewMk] | refine (State.bump_calm _ _).to ?_
          | refine (State.record_calm _ _ _ _ _ _ _).to ?_ | apply calmIte | rfl | intro _ | split)

theorem State.busRead_calm (s : State) (p : Path) (off : Nat) (n : Nat) :
    Calm rl s.view (State.busRead s p off n).2.view := by
  unfold State.busRead
  (try dsimp only) <;> intros <;> with_reducible
      (repeat' first
          | exact .refl _ | assumption | apply calmBack | dsimp only [viewMk] | refine (State.readEffect_calm _ _ _ _ _).to ?_
          | refine (State.refuseDebug_calm _).to ?_ | apply calmIte | apply calmIte1 | apply calmIte2 | rfl | intro _ | split)

theorem State.staticDropped_calm (s : State) (a : Nat) :
    Calm rl s.view (State.staticDropped s a).view := by
  unfold State.staticDropped
  (try dsimp only) <;> intros <;> with_reducible
      (repeat' first
          | exact .refl _ | assumption | apply calmBack | dsimp only [viewMk] | refine (State.bump_calm _ _).to ?_
          | refine (State.record_calm _ _ _ _ _ _ _).to ?_ | refine (State.setF_calm _ _ _).to ?_ | apply calmIte | rfl | intro _
          | split)

theorem State.writeField_calm (s : State) (v : Nat) (f : Field) :
    Calm rl s.view (State.writeField s v f).view := by
  unfold State.writeField
  (try dsimp only) <;> intros <;> with_reducible
      (repeat' first
          | exact .refl _ | assumption | apply calmBack | dsimp only [viewMk] | refine (State.setF_calm _ _ _).to ?_ | apply calmIte
          | rfl | intro _ | split)

theorem State.writeFields_calm (s : State) (a : Nat) (v : Nat) :
    Calm rl s.view (State.writeFields s a v).view := by
  unfold State.writeFields
  (try dsimp only) <;> intros <;> with_reducible
      (repeat' first
          | exact .refl _ | assumption | apply calmBack | dsimp only [viewMk] | refine (State.writeField_calm _ _ _).to ?_
          | apply calmIte | apply calmFold | apply calmFold1 | rfl | intro _ | split)

theorem State.writeStatic_calm (s : State) (running : Bool) (a : Nat) (v : Nat) :
    Calm rl s.view (State.writeStatic s running a v).view := by
  unfold State.writeStatic
  (try dsimp only) <;> intros <;> with_reducible
      (repeat' first
          | exact .refl _ | assumption | apply calmBack | dsimp only [viewMk] | refine (State.setF_calm _ _ _).to ?_
          | refine (State.staticDropped_calm _ _).to ?_ | apply calmIte | apply calmFold | apply calmFold1 | rfl | intro _ | split)

theorem State.writeLinkCtrl_calm (s : State) (v : Nat) :
    Calm rl s.view (State.writeLinkCtrl s v).view := by
  unfold State.writeLinkCtrl
  (try dsimp only) <;> intros <;> with_reducible
      (repeat' first
          | exact .refl _ | assumption | apply calmBack | dsimp only [viewMk] | refine (State.dropValue_calm _ _ _).to ?_
          | refine (State.setF_calm _ _ _).to ?_ | refine (State.writeField_calm _ _ _).to ?_ | apply calmIte | rfl | intro _
          | split)

theorem State.writeChecked_calm (s : State) (good : Bool) (src : Nat) (a : Nat) (v : Nat) :
    Calm rl s.view (State.writeChecked s good src a v).view := by
  unfold State.writeChecked
  (try dsimp only) <;> intros <;> with_reducible
      (repeat' first
          | exact .refl _ | assumption | apply calmBack | dsimp only [viewMk] | refine (State.dropValue_calm _ _ _).to ?_
          | refine (State.writeFields_calm _ _ _).to ?_ | apply calmIte | rfl | intro _ | split)

theorem State.writeMbxCtrl_calm (s : State) (v : Nat) :
    Calm rl s.view (State.writeMbxCtrl s v).view := by
  unfold State.writeMbxCtrl
  (try dsimp only) <;> intros <;> with_reducible
      (repeat' first
          | exact .refl _ | assumption | apply calmBack | dsimp only [viewMk] | refine (State.dropValue_calm _ _ _).to ?_
          | refine (State.writeField_calm _ _ _).to ?_ | apply calmIte | apply calmFold | apply calmFold1 | rfl | intro _ | split)

theorem State.writeMbx_calm (s : State) (a : Nat) (v : Nat) :
    Calm rl s.view (State.writeMbx s a v).view := by
  unfold State.writeMbx
  (try dsimp only) <;> intros <;> with_reducible
      (repeat' first
          | exact .refl _ | assumption | apply calmBack | dsimp only [viewMk] | refine (State.clearD2h_calm _ _).to ?_
          | refine (State.freeD2hs_calm _ _).to ?_ | refine (State.postH2ds_calm _ _).to ?_ | refine (State.setH2d_calm _ _).to ?_
          | refine (State.writeFields_calm _ _ _).to ?_ | refine (State.writeH2dSlot_calm _ _ _ _).to ?_
          | refine (State.writeMbxCtrl_calm _ _).to ?_ | apply calmIte | rfl | intro _ | split)

theorem State.writeTmr_calm (s : State) (a : Nat) (v : Nat) :
    Calm rl s.view (State.writeTmr s a v).view := by
  unfold State.writeTmr
  (try dsimp only) <;> intros <;> with_reducible
      (repeat' first
          | exact .refl _ | assumption | apply calmBack | dsimp only [viewMk] | refine (State.dropValue_calm _ _ _).to ?_
          | refine (State.writeField_calm _ _ _).to ?_ | refine (State.writeFields_calm _ _ _).to ?_
          | refine (State.writeGpio_calm _ _ _).to ?_ | refine (State.writePeriod_calm _ _ _).to ?_
          | refine (State.writeStatic_calm _ _ _ _).to ?_ | refine (State.writeTimerEn_calm _ _ _).to ?_ | apply calmIte
          | apply calmFold | apply calmFold1 | rfl | intro _ | split)

theorem State.writeChg_calm (s : State) (v : Nat) :
    Calm rl s.view (State.writeChg s v).view := by
  unfold State.writeChg
  (try dsimp only) <;> intros <;> with_reducible
      (repeat' first
          | exact .refl _ | assumption | apply calmBack | dsimp only [viewMk] | refine (State.stageVres_calm _ _).to ?_
          | refine (State.writeField_calm _ _ _).to ?_ | apply calmIte | rfl | intro _ | split)

theorem State.writePfw_calm (s : State) (v : Nat) :
    Calm rl s.view (State.writePfw s v).view := by
  unfold State.writePfw
  (try dsimp only) <;> intros <;> with_reducible
      (repeat' first
          | exact .refl _ | assumption | apply calmBack | dsimp only [viewMk] | refine (State.dropValue_calm _ _ _).to ?_
          | refine (State.pfwBoundary_calm _).to ?_ | refine (State.writeField_calm _ _ _).to ?_ | apply calmIte | rfl | intro _
          | split)

theorem State.writePwr_calm (s : State) (a : Nat) (v : Nat) :
    Calm rl s.view (State.writePwr s a v).view := by
  unfold State.writePwr
  (try dsimp only) <;> intros <;> with_reducible
      (repeat' first
          | exact .refl _ | assumption | apply calmBack | dsimp only [viewMk] | refine (State.measureNow_calm _).to ?_
          | refine (State.writeChg_calm _ _).to ?_ | refine (State.writeFields_calm _ _ _).to ?_
          | refine (State.writePfw_calm _ _).to ?_ | apply calmIte | rfl | intro _ | split)

theorem State.writeHq_calm (s : State) (a : Nat) (v : Nat) :
    Calm rl s.view (State.writeHq s a v).view := by
  unfold State.writeHq
  (try dsimp only) <;> intros <;> with_reducible
      (repeat' first
          | exact .refl _ | assumption | apply calmBack | dsimp only [viewMk] | refine (State.disableRing_calm _ _).to ?_
          | refine (State.enableRing_calm _ _).to ?_ | refine (State.writeChecked_calm _ _ _ _ _).to ?_
          | refine (State.writeStatic_calm _ _ _ _).to ?_ | apply calmIte | rfl | intro _ | split)

theorem State.writeXfr_calm (s : State) (a : Nat) (v : Nat) :
    Calm rl s.view (State.writeXfr s a v).view := by
  unfold State.writeXfr
  (try dsimp only) <;> intros <;> with_reducible
      (repeat' first
          | exact .refl _ | assumption | apply calmBack | dsimp only [viewMk] | refine (State.resumeChannel_calm _ _).to ?_
          | refine (State.writeChecked_calm _ _ _ _ _).to ?_ | refine (State.writeStatic_calm _ _ _ _).to ?_ | apply calmIte | rfl
          | intro _ | split)

theorem State.writeDrcEn_calm (s : State) (v : Nat) :
    Calm rl s.view (State.writeDrcEn s v).view := by
  unfold State.writeDrcEn
  (try dsimp only) <;> intros <;> with_reducible
      (repeat' first
          | exact .refl _ | assumption | apply calmBack | dsimp only [viewMk] | refine (State.enableDram_calm _ _).to ?_
          | refine (State.setF_calm _ _ _).to ?_ | apply calmIte | rfl | intro _ | split)

theorem State.writeDrc_calm (s : State) (a : Nat) (v : Nat) :
    Calm rl s.view (State.writeDrc s a v).view := by
  unfold State.writeDrc
  (try dsimp only) <;> intros <;> with_reducible
      (repeat' first
          | exact .refl _ | assumption | apply calmBack | dsimp only [viewMk] | refine (State.staticDropped_calm _ _).to ?_
          | refine (State.writeChecked_calm _ _ _ _ _).to ?_ | refine (State.writeDrcEn_calm _ _).to ?_
          | refine (State.writeStatic_calm _ _ _ _).to ?_ | apply calmIte | rfl | intro _ | split)

theorem State.regEffect_calm (s : State) (a : Nat) (v : Nat) :
    Calm rl s.view (State.regEffect s a v).view := by
  unfold State.regEffect
  (try dsimp only) <;> intros <;> with_reducible
      (repeat' first
          | exact .refl _ | assumption | apply calmBack | dsimp only [viewMk] | refine (State.clearQuarantine_calm _ _).to ?_
          | refine (State.enablePort_calm _ _ _).to ?_ | refine (State.restartRequest_calm _).to ?_
          | refine (State.startSync_calm _ _ _).to ?_ | refine (State.writeChecked_calm _ _ _ _ _).to ?_
          | refine (State.writeDrc_calm _ _ _).to ?_ | refine (State.writeFields_calm _ _ _).to ?_
          | refine (State.writeHq_calm _ _ _).to ?_ | refine (State.writeLinkCtrl_calm _ _).to ?_
          | refine (State.writeMbx_calm _ _ _).to ?_ | refine (State.writePwr_calm _ _ _).to ?_
          | refine (State.writeStart_calm _ _).to ?_ | refine (State.writeTmr_calm _ _ _).to ?_
          | refine (State.writeXfr_calm _ _ _).to ?_ | apply calmIte | rfl | intro _ | split)

theorem State.writeMsix_calm (s : State) (a : Nat) (v : Nat) :
    Calm rl s.view (State.writeMsix s a v).view := by
  unfold State.writeMsix
  (try dsimp only) <;> intros <;> with_reducible
      (repeat' first
          | exact .refl _ | assumption | apply calmBack | dsimp only [viewMk] | refine (State.sendPending_calm _).to ?_
          | apply calmIte | rfl | intro _ | split)

theorem State.regWrite_calm (s : State) (p : Path) (a : Nat) (v : Nat) :
    Calm rl s.view (State.regWrite s p a v).view := by
  unfold State.regWrite
  (try dsimp only) <;> intros <;> with_reducible
      (repeat' first
          | exact .refl _ | assumption | apply calmBack | dsimp only [viewMk] | refine (State.ignoredWrite_calm _).to ?_
          | refine (State.regEffect_calm _ _ _).to ?_ | refine (State.writeMsix_calm _ _ _).to ?_ | apply calmIte | rfl | intro _
          | split)

theorem State.doorbellWrite_calm (s : State) (n : Nat) (off : Nat) (v : Nat) :
    Calm rl s.view (State.doorbellWrite s n off v).view := by
  unfold State.doorbellWrite
  (try dsimp only) <;> intros <;> with_reducible
      (repeat' first
          | exact .refl _ | assumption | apply calmBack | dsimp only [viewMk] | refine (State.dbBare_calm _ _).to ?_
          | refine (State.dbCqh_calm _ _ _).to ?_ | refine (State.dbTail_calm _ _ _).to ?_
          | refine (State.ignoredWrite_calm _).to ?_ | apply calmIte | rfl | intro _ | split)

theorem State.hostWindowWrite_calm (s : State) (off : Nat) (n : Nat) (v : Nat) :
    Calm rl s.view (State.hostWindowWrite s off n v).view := by
  unfold State.hostWindowWrite
  (try dsimp only) <;> intros <;> with_reducible
      (repeat' first
          | exact .refl _ | assumption | apply calmBack | dsimp only [viewMk] | refine (State.doorbellWrite_calm _ _ _ _).to ?_
          | refine (State.ignoredWrite_calm _).to ?_ | refine (State.pushWrite_calm _ _ _ _).to ?_ | apply calmIte | rfl | intro _
          | split)

theorem State.busWrite_calm (s : State) (p : Path) (off : Nat) (n : Nat) (v : Nat) :
    Calm rl s.view (State.busWrite s p off n v).view := by
  unfold State.busWrite
  (try dsimp only) <;> intros <;> with_reducible
      (repeat' first
          | exact .refl _ | assumption | apply calmBack | dsimp only [viewMk] | refine (State.hostWindowWrite_calm _ _ _ _).to ?_
          | refine (State.ignoredWrite_calm _).to ?_ | refine (State.refuseDebug_calm _).to ?_
          | refine (State.regWrite_calm _ _ _ _).to ?_ | apply calmIte | rfl | intro _ | split)

theorem execReadClear_calm (s : State) (p : Path) (offset : BitVec 20) (size : Size) :
    Ends rl s.view (execReadClear p offset size s) := by
  unfold execReadClear
  (try dsimp only) <;> intros <;> with_reducible
      (repeat' first
          | exact .refl _ | assumption | apply calmBack | dsimp only [viewMk] | refine (State.busRead_calm _ _ _ _).to ?_
          | refine (State.emit_calm _ _).to ?_ | apply calmIte | apply calmIte1 | apply Ends.ok | apply Ends.next | apply Ends.ite
          | rfl | intro _ | split)

theorem execL64LowRead_calm (s : State) (p : Path) (which : L64) :
    Ends rl s.view (execL64LowRead p which s) := by
  unfold execL64LowRead
  (try dsimp only) <;> intros <;> with_reducible
      (repeat' first
          | exact .refl _ | assumption | apply calmBack | dsimp only [viewMk] | refine (State.busRead_calm _ _ _ _).to ?_
          | refine (State.emit_calm _ _).to ?_ | apply calmIte | apply calmIte1 | apply Ends.ok | apply Ends.next | apply Ends.ite
          | rfl | intro _ | split)

theorem execVresSetStaged_calm (s : State) (p : Path) (value : Word) :
    Ends rl s.view (execVresSetStaged p value s) := by
  unfold execVresSetStaged
  (try dsimp only) <;> intros <;> with_reducible
      (repeat' first
          | exact .refl _ | assumption | apply calmBack | dsimp only [viewMk] | refine (State.asWrite_calm _ _ ?_).to ?_
          | refine ((State.asWrite_calm _ _ ?_).get (by assumption)).to ?_ | refine (State.busWrite_calm _ _ _ _ _).to ?_
          | apply calmIte | apply Ends.ok | apply Ends.next | apply Ends.ite | rfl | intro _ | split)

theorem State.loadTables_calm (s : State) :
    Calm rl s.view (State.loadTables s).view := by
  unfold State.loadTables
  (try dsimp only) <;> intros <;> with_reducible
      (repeat' first
          | exact .refl _ | assumption | apply calmBack | dsimp only [viewMk] | apply calmIte | apply calmIte1 | rfl | intro _
          | split)

theorem State.loadPfw_calm (s : State) :
    Calm rl s.view (State.loadPfw s).view := by
  unfold State.loadPfw
  (try dsimp only) <;> intros <;> with_reducible
      (repeat' first
          | exact .refl _ | assumption | apply calmBack | dsimp only [viewMk] | refine (State.takeStaged_calm _ _).to ?_
          | refine (State.writePfw_calm _ _).to ?_ | apply calmIte | rfl | intro _ | split)

theorem State.loadChg_calm (s : State) :
    Calm rl s.view (State.loadChg s).view := by
  unfold State.loadChg
  (try dsimp only) <;> intros <;> with_reducible
      (repeat' first
          | exact .refl _ | assumption | apply calmBack | dsimp only [viewMk] | refine (State.writeChg_calm _ _).to ?_
          | apply calmIte | rfl | intro _ | split)

theorem State.loadCyc_calm (s : State) :
    Calm rl s.view (State.loadCyc s).view := by
  unfold State.loadCyc
  (try dsimp only) <;> intros <;> with_reducible
      (repeat' first
          | exact .refl _ | assumption | apply calmBack | dsimp only [viewMk] | refine (State.takeStaged_calm _ _).to ?_
          | refine (State.writeChecked_calm _ _ _ _ _).to ?_ | apply calmIte | rfl | intro _ | split)

theorem State.loadKeys_calm (s : State) :
    Calm rl s.view (State.loadKeys s).view := by
  unfold State.loadKeys
  (try dsimp only) <;> intros <;> with_reducible
      (repeat' first
          | exact .refl _ | assumption | apply calmBack | dsimp only [viewMk] | apply calmIte | apply calmIte1 | apply calmFold
          | apply calmFold1 | rfl | intro _ | split)

theorem State.loadConns_calm (s : State) :
    Calm rl s.view (State.loadConns s).view := by
  unfold State.loadConns
  (try dsimp only) <;> intros <;> with_reducible
      (repeat' first
          | exact .refl _ | assumption | apply calmBack | dsimp only [viewMk] | refine (State.setConn_calm _ _ _).to ?_
          | apply calmIte | apply calmIte1 | apply calmFold | apply calmFold1 | rfl | intro _ | split)

theorem State.enterStarting_calm (s : State) :
    Calm rl s.view (State.enterStarting s).view := by
  unfold State.enterStarting
  (try dsimp only) <;> intros <;> with_reducible
      (repeat' first
          | exact .refl _ | assumption | apply calmBack | dsimp only [viewMk] | refine (State.loadChg_calm _).to ?_
          | refine (State.loadConns_calm _).to ?_ | refine (State.loadCyc_calm _).to ?_ | refine (State.loadKeys_calm _).to ?_
          | refine (State.loadPfw_calm _).to ?_ | refine (State.loadTables_calm _).to ?_ | refine (State.setDev_calm _ _).to ?_
          | apply calmIte | rfl | intro _ | split)

theorem State.loseRecord_calm (s : State) (v : Nat) (seq : Nat) (cause : Nat) :
    Calm rl s.view (State.loseRecord s v seq cause).view := by
  unfold State.loseRecord
  (try dsimp only) <;> intros <;> with_reducible
      (repeat' first
          | exact .refl _ | assumption | apply calmBack | dsimp only [viewMk] | refine (State.lose_calm _ _).to ?_
          | refine (State.setVol_calm _ _ _).to ?_ | apply calmIte | rfl | intro _ | split)

theorem State.loseBlock_calm (s : State) (v : Nat) (p : Nat) (cause : Nat) :
    Calm rl s.view (State.loseBlock s v p cause).view := by
  unfold State.loseBlock
  (try dsimp only) <;> intros <;> with_reducible
      (repeat' first
          | exact .refl _ | assumption | apply calmBack | dsimp only [viewMk] | refine (State.lose_calm _ _).to ?_
          | refine (State.setBlk_calm _ _ _ _).to ?_ | apply calmIte | rfl | intro _ | split)

theorem State.loseUnit_calm (s : State) (cause : Nat) (u : SUnit) :
    Calm rl s.view (State.loseUnit s cause u).view := by
  unfold State.loseUnit
  (try dsimp only) <;> intros <;> with_reducible
      (repeat' first
          | exact .refl _ | assumption | apply calmBack | dsimp only [viewMk] | refine (State.loseBlock_calm _ _ _ _).to ?_
          | refine (State.loseRecord_calm _ _ _ _).to ?_ | apply calmIte | rfl | intro _ | split)

theorem State.revertUnit_calm (s : State) (u : SUnit) :
    Calm rl s.view (State.revertUnit s u).view := by
  unfold State.revertUnit
  (try dsimp only) <;> intros <;> with_reducible
      (repeat' first
          | exact .refl _ | assumption | apply calmBack | dsimp only [viewMk] | refine (State.setBlk_calm _ _ _ _).to ?_
          | apply calmIte | rfl | intro _ | split)

theorem State.dropGroups_calm (s : State) :
    Calm rl s.view (State.dropGroups s).view := by
  unfold State.dropGroups
  (try dsimp only) <;> intros <;> with_reducible
      (repeat' first
          | exact .refl _ | assumption | apply calmBack | dsimp only [viewMk] | refine (State.revertUnit_calm _ _).to ?_
          | apply calmIte | apply calmFold | apply calmFold1 | rfl | intro _ | split)

theorem State.loseAll_calm (s : State) :
    Calm rl s.view (State.loseAll s).view := by
  unfold State.loseAll
  (try dsimp only) <;> intros <;> with_reducible
      (repeat' first
          | exact .refl _ | assumption | apply calmBack | dsimp only [viewMk] | refine (State.lose_calm _ _).to ?_
          | refine (State.revertUnit_calm _ _).to ?_ | refine (State.setVol_calm _ _ _).to ?_ | apply calmIte | apply calmFold
          | apply calmFold1 | rfl | intro _ | split)

theorem State.settleMsns_calm (s : State) :
    Calm rl s.view (State.settleMsns s).view := by
  unfold State.settleMsns
  (try dsimp only) <;> intros <;> with_reducible
      (repeat' first
          | exact .refl _ | assumption | apply calmBack | dsimp only [viewMk] | apply calmIte | apply calmFold | apply calmFold1
          | rfl | intro _ | split)

theorem State.restageDrained_calm (s : State) :
    Calm rl s.view (State.restageDrained s).view := by
  unfold State.restageDrained
  (try dsimp only) <;> intros <;> with_reducible
      (repeat' first
          | exact .refl _ | assumption | apply calmBack | dsimp only [viewMk] | refine (State.takeGeneral_calm _ _).to ?_
          | apply calmIte | apply calmIte1 | rfl | intro _ | split)

theorem State.replay_calm (s : State) :
    Calm rl s.view (State.replay s).view := by
  unfold State.replay
  (try dsimp only) <;> intros <;> with_reducible
      (repeat' first
          | exact .refl _ | assumption | apply calmBack | dsimp only [viewMk] | refine (State.dropGroups_calm _).to ?_
          | refine (State.loseAll_calm _).to ?_ | refine (State.loseUnit_calm _ _ _).to ?_
          | refine (State.record_calm _ _ _ _ _ _ _).to ?_ | refine (State.restageDrained_calm _).to ?_
          | refine (State.settleMsns_calm _).to ?_ | apply calmIte | apply calmFold | apply calmFold1 | rfl | intro _ | split)

theorem State.resumeFirings_calm (s : State) :
    Calm rl s.view (State.resumeFirings s).view := by
  unfold State.resumeFirings
  (try dsimp only) <;> intros <;> with_reducible
      (repeat' first
          | exact .refl _ | assumption | apply calmBack | dsimp only [viewMk] | refine (State.record_calm _ _ _ _ _ _ _).to ?_
          | refine (State.runFirings_calm _).to ?_ | refine (State.setCairn_calm _ _ _).to ?_ | apply calmIte | apply calmFold
          | apply calmFold1 | rfl | intro _ | split)

theorem State.startFabric_calm (s : State) :
    Calm rl s.view (State.startFabric s).view := by
  unfold State.startFabric
  (try dsimp only) <;> intros <;> with_reducible
      (repeat' first
          | exact .refl _ | assumption | apply calmBack | dsimp only [viewMk] | refine (State.enablePort_calm _ _ _).to ?_
          | refine (State.requestHello_calm _ _ _).to ?_ | refine (State.restart_calm _ _ _).to ?_
          | refine (State.setConn_calm _ _ _).to ?_ | apply calmIte | apply calmIte1 | apply calmFold | apply calmFold1 | rfl
          | intro _ | split)

theorem State.loadSegments_calm (s : State) :
    Calm rl s.view (State.loadSegments s).view := by
  unfold State.loadSegments
  (try dsimp only) <;> intros <;> with_reducible
      (repeat' first
          | exact .refl _ | assumption | apply calmBack | dsimp only [viewMk] | apply calmIte | apply calmIte1 | rfl | intro _
          | split)

theorem State.enterReady_calm (s : State) :
    Calm rl s.view (State.enterReady s).view := by
  unfold State.enterReady
  (try dsimp only) <;> intros <;> with_reducible
      (repeat' first
          | exact .refl _ | assumption | apply calmBack | dsimp only [viewMk] | refine (State.loadSegments_calm _).to ?_
          | refine (State.noteStart_calm _).to ?_ | refine (State.raiseFloor_calm _).to ?_
          | refine (State.rebuildOrLose_calm _ _).to ?_ | refine (State.record_calm _ _ _ _ _ _ _).to ?_
          | refine (State.replay_calm _).to ?_ | refine (State.resumeFirings_calm _).to ?_ | refine (State.setDev_calm _ _).to ?_
          | refine (State.settleLedger_calm _ _).to ?_ | refine (State.startFabric_calm _).to ?_ | apply calmIte | apply calmFold
          | apply calmFold1 | rfl | intro _ | split)

theorem State.askState_calm (s : State) (v : Nat) :
    Calm rl s.view (State.askState s v).1.view := by
  unfold State.askState
  (try dsimp only) <;> intros <;> with_reducible
      (repeat' first
          | exact .refl _ | assumption | apply calmBack | dsimp only [viewMk] | refine (State.enterBedrock_calm _ _).to ?_
          | refine (State.enterReady_calm _).to ?_ | refine (State.enterStarting_calm _).to ?_ | apply calmIte | apply calmIte1
          | rfl | intro _ | split)

theorem State.noteCheck_calm (s : State) (c : MemCheck) :
    Calm rl s.view (State.noteCheck s c).view := by
  unfold State.noteCheck
  (try dsimp only) <;> intros <;> with_reducible
      (repeat' first
          | exact .refl _ | assumption | apply calmBack | dsimp only [viewMk] | refine (State.bump_calm _ _).to ?_ | apply calmIte
          | rfl | intro _ | split)

theorem State.load_calm (s : State) (e : Fin 10) (major : Nat) (n : Nat) (kd : BitVec 4) (ka : BitVec 4) (imm : BitVec 16) (chk : MemCheck) :
    Ends rl s.view (State.load s e major n kd ka imm chk) := by
  unfold State.load
  (try dsimp only) <;> intros <;> with_reducible
      (repeat' first
          | exact .refl _ | assumption | apply calmBack | dsimp only [viewMk] | refine (State.busRead_calm _ _ _ _).to ?_
          | refine (State.noteCheck_calm _ _).to ?_ | refine (State.run_calm _ _ _ _ _ ?_).to ?_
          | refine ((State.run_calm _ _ _ _ _ ?_).get (by assumption)).to ?_ | refine (State.withReg_calm _ _ _ _).to ?_
          | apply calmIte | apply calmIte1 | apply Ends.ok | apply Ends.next | apply Ends.ite | apply RanCalm.done
          | apply RanCalm.jump | apply RanCalm.stay | apply RanCalm.fault | apply RanCalm.ite | rfl | intro _ | split)

theorem State.store_calm (s : State) (e : Fin 10) (major : Nat) (n : Nat) (kd : BitVec 4) (ka : BitVec 4) (imm : BitVec 16) (chk : MemCheck) :
    Ends rl s.view (State.store s e major n kd ka imm chk) := by
  unfold State.store
  (try dsimp only) <;> intros <;> with_reducible
      (repeat' first
          | exact .refl _ | assumption | apply calmBack | dsimp only [viewMk] | refine (State.busWrite_calm _ _ _ _ _).to ?_
          | refine (State.noteCheck_calm _ _).to ?_ | refine (State.run_calm _ _ _ _ _ ?_).to ?_
          | refine ((State.run_calm _ _ _ _ _ ?_).get (by assumption)).to ?_ | refine (State.setData_calm _ _ _ _).to ?_
          | apply calmIte | apply Ends.ok | apply Ends.next | apply Ends.ite | apply RanCalm.done | apply RanCalm.jump
          | apply RanCalm.stay | apply RanCalm.fault | apply RanCalm.ite | rfl | intro _ | split)

theorem execLdw_calm (s : State) (e : Fin 10) (kd : BitVec 4) (ka : BitVec 4) (imm : BitVec 16) (chk : MemCheck) :
    Ends rl s.view (execLdw e kd ka imm chk s) := by
  unfold execLdw
  (try dsimp only) <;> intros <;> with_reducible
      (repeat' first
          | exact .refl _ | assumption | apply calmBack | dsimp only [viewMk] | refine (State.load_calm _ _ _ _ _ _ _ _).to ?_
          | refine ((State.load_calm _ _ _ _ _ _ _ _).get (by assumption)).to ?_ | apply calmIte | apply Ends.ok | apply Ends.next
          | apply Ends.ite | rfl | intro _ | split)

theorem execLdh_calm (s : State) (e : Fin 10) (kd : BitVec 4) (ka : BitVec 4) (imm : BitVec 16) (chk : MemCheck) :
    Ends rl s.view (execLdh e kd ka imm chk s) := by
  unfold execLdh
  (try dsimp only) <;> intros <;> with_reducible
      (repeat' first
          | exact .refl _ | assumption | apply calmBack | dsimp only [viewMk] | refine (State.load_calm _ _ _ _ _ _ _ _).to ?_
          | refine ((State.load_calm _ _ _ _ _ _ _ _).get (by assumption)).to ?_ | apply calmIte | apply Ends.ok | apply Ends.next
          | apply Ends.ite | rfl | intro _ | split)

theorem execLdb_calm (s : State) (e : Fin 10) (kd : BitVec 4) (ka : BitVec 4) (imm : BitVec 16) (chk : MemCheck) :
    Ends rl s.view (execLdb e kd ka imm chk s) := by
  unfold execLdb
  (try dsimp only) <;> intros <;> with_reducible
      (repeat' first
          | exact .refl _ | assumption | apply calmBack | dsimp only [viewMk] | refine (State.load_calm _ _ _ _ _ _ _ _).to ?_
          | refine ((State.load_calm _ _ _ _ _ _ _ _).get (by assumption)).to ?_ | apply calmIte | apply Ends.ok | apply Ends.next
          | apply Ends.ite | rfl | intro _ | split)

theorem execStw_calm (s : State) (e : Fin 10) (kd : BitVec 4) (ka : BitVec 4) (imm : BitVec 16) (chk : MemCheck) :
    Ends rl s.view (execStw e kd ka imm chk s) := by
  unfold execStw
  (try dsimp only) <;> intros <;> with_reducible
      (repeat' first
          | exact .refl _ | assumption | apply calmBack | dsimp only [viewMk] | refine (State.store_calm _ _ _ _ _ _ _ _).to ?_
          | refine ((State.store_calm _ _ _ _ _ _ _ _).get (by assumption)).to ?_ | apply calmIte | apply Ends.ok | apply Ends.next
          | apply Ends.ite | rfl | intro _ | split)

theorem execSth_calm (s : State) (e : Fin 10) (kd : BitVec 4) (ka : BitVec 4) (imm : BitVec 16) (chk : MemCheck) :
    Ends rl s.view (execSth e kd ka imm chk s) := by
  unfold execSth
  (try dsimp only) <;> intros <;> with_reducible
      (repeat' first
          | exact .refl _ | assumption | apply calmBack | dsimp only [viewMk] | refine (State.store_calm _ _ _ _ _ _ _ _).to ?_
          | refine ((State.store_calm _ _ _ _ _ _ _ _).get (by assumption)).to ?_ | apply calmIte | apply Ends.ok | apply Ends.next
          | apply Ends.ite | rfl | intro _ | split)

theorem execStb_calm (s : State) (e : Fin 10) (kd : BitVec 4) (ka : BitVec 4) (imm : BitVec 16) (chk : MemCheck) :
    Ends rl s.view (execStb e kd ka imm chk s) := by
  unfold execStb
  (try dsimp only) <;> intros <;> with_reducible
      (repeat' first
          | exact .refl _ | assumption | apply calmBack | dsimp only [viewMk] | refine (State.store_calm _ _ _ _ _ _ _ _).to ?_
          | refine ((State.store_calm _ _ _ _ _ _ _ _).get (by assumption)).to ?_ | apply calmIte | apply Ends.ok | apply Ends.next
          | apply Ends.ite | rfl | intro _ | split)

theorem execSwp_calm (s : State) (e : Fin 10) (kd : BitVec 4) (ka : BitVec 4) (imm : BitVec 16) (chk : MemCheck) :
    Ends rl s.view (execSwp e kd ka imm chk s) := by
  unfold execSwp
  (try dsimp only) <;> intros <;> with_reducible
      (repeat' first
          | exact .refl _ | assumption | apply calmBack | dsimp only [viewMk] | refine (State.noteCheck_calm _ _).to ?_
          | refine (State.run_calm _ _ _ _ _ ?_).to ?_ | refine ((State.run_calm _ _ _ _ _ ?_).get (by assumption)).to ?_
          | refine (State.setData_calm _ _ _ _).to ?_ | refine (State.withReg_calm _ _ _ _).to ?_ | apply calmIte | apply Ends.ok
          | apply Ends.next | apply Ends.ite | apply RanCalm.done | apply RanCalm.jump | apply RanCalm.stay | apply RanCalm.fault
          | apply RanCalm.ite | rfl | intro _ | split)

theorem State.onBus_calm (s : State) (e : Nat) (f : State → Ran) (hf : ∀ s, RanCalm rl (State.view s) (f s)) :
    RanCalm rl s.view (State.onBus s e f) := by
  unfold State.onBus
  (try dsimp only) <;> intros <;> with_reducible
      (repeat' first
          | exact .refl _ | assumption | apply calmBack | dsimp only [viewMk] | refine (hf _).to ?_
          | refine ((hf _).gd (by assumption)).to ?_ | refine ((hf _).gj (by assumption)).to ?_
          | refine ((hf _).gs (by assumption)).to ?_ | apply calmIte | apply RanCalm.done | apply RanCalm.jump | apply RanCalm.stay
          | apply RanCalm.fault | apply RanCalm.ite | rfl | intro _ | split)

theorem State.cycle_calm (s : State) (e : Nat) (c : BusCycle) :
    Calm rl s.view (State.cycle s e c).view := by
  unfold State.cycle
  (try dsimp only) <;> intros <;> with_reducible
      (repeat' first
          | exact .refl _ | assumption | apply calmBack | dsimp only [viewMk] | refine (State.emit_calm _ _).to ?_ | apply calmIte
          | rfl | intro _ | split)

theorem execCesel_calm (s : State) (e : Fin 10) (ka : BitVec 4) (operand : BitVec 12) :
    Ends rl s.view (execCesel e ka operand s) := by
  unfold execCesel
  (try dsimp only) <;> intros <;> with_reducible
      (repeat' first
          | exact .refl _ | assumption | apply calmBack | dsimp only [viewMk] | refine (State.cycle_calm _ _ _).to ?_
          | refine (State.onBus_calm _ _ _ ?_).to ?_ | refine ((State.onBus_calm _ _ _ ?_).gd (by assumption)).to ?_
          | refine ((State.onBus_calm _ _ _ ?_).gj (by assumption)).to ?_
          | refine ((State.onBus_calm _ _ _ ?_).gs (by assumption)).to ?_ | refine (State.run_calm _ _ _ _ _ ?_).to ?_
          | refine ((State.run_calm _ _ _ _ _ ?_).get (by assumption)).to ?_ | refine (State.setFchan_calm _ _ _).to ?_
          | apply calmIte | apply Ends.ok | apply Ends.next | apply Ends.ite | apply RanCalm.done | apply RanCalm.jump
          | apply RanCalm.stay | apply RanCalm.fault | apply RanCalm.ite | rfl | intro _ | split)

theorem execCmd_calm (s : State) (e : Fin 10) (ka : BitVec 4) (operand : BitVec 12) :
    Ends rl s.view (execCmd e ka operand s) := by
  unfold execCmd
  (try dsimp only) <;> intros <;> with_reducible
      (repeat' first
          | exact .refl _ | assumption | apply calmBack | dsimp only [viewMk] | refine (State.cycle_calm _ _ _).to ?_
          | refine (State.onBus_calm _ _ _ ?_).to ?_ | refine ((State.onBus_calm _ _ _ ?_).gd (by assumption)).to ?_
          | refine ((State.onBus_calm _ _ _ ?_).gj (by assumption)).to ?_
          | refine ((State.onBus_calm _ _ _ ?_).gs (by assumption)).to ?_ | refine (State.run_calm _ _ _ _ _ ?_).to ?_
          | refine ((State.run_calm _ _ _ _ _ ?_).get (by assumption)).to ?_ | apply calmIte | apply Ends.ok | apply Ends.next
          | apply Ends.ite | apply RanCalm.done | apply RanCalm.jump | apply RanCalm.stay | apply RanCalm.fault | apply RanCalm.ite
          | rfl | intro _ | split)

theorem execAddr_calm (s : State) (e : Fin 10) (ka : BitVec 4) (n : BitVec 3) :
    Ends rl s.view (execAddr e ka n s) := by
  unfold execAddr
  (try dsimp only) <;> intros <;> with_reducible
      (repeat' first
          | exact .refl _ | assumption | apply calmBack | dsimp only [viewMk] | refine (State.cycle_calm _ _ _).to ?_
          | refine (State.onBus_calm _ _ _ ?_).to ?_ | refine ((State.onBus_calm _ _ _ ?_).gd (by assumption)).to ?_
          | refine ((State.onBus_calm _ _ _ ?_).gj (by assumption)).to ?_
          | refine ((State.onBus_calm _ _ _ ?_).gs (by assumption)).to ?_ | refine (State.run_calm _ _ _ _ _ ?_).to ?_
          | refine ((State.run_calm _ _ _ _ _ ?_).get (by assumption)).to ?_ | apply calmIte | apply Ends.ok | apply Ends.next
          | apply Ends.ite | apply RanCalm.done | apply RanCalm.jump | apply RanCalm.stay | apply RanCalm.fault | apply RanCalm.ite
          | rfl | intro _ | split)

theorem State.startTransfer_calm (s : State) (e : Nat) (input : Bool) (c : BusCycle) :
    Calm rl s.view (State.startTransfer s e input c).view := by
  unfold State.startTransfer
  (try dsimp only) <;> intros <;> with_reducible
      (repeat' first
          | exact .refl _ | assumption | apply calmBack | dsimp only [viewMk] | refine (State.cycle_calm _ _ _).to ?_
          | refine (State.setFchan_calm _ _ _).to ?_ | apply calmIte | rfl | intro _ | split)

theorem execDout_calm (s : State) (e : Fin 10) (ka : BitVec 4) :
    Ends rl s.view (execDout e ka s) := by
  unfold execDout
  (try dsimp only) <;> intros <;> with_reducible
      (repeat' first
          | exact .refl _ | assumption | apply calmBack | dsimp only [viewMk] | refine (State.onBus_calm _ _ _ ?_).to ?_
          | refine ((State.onBus_calm _ _ _ ?_).gd (by assumption)).to ?_
          | refine ((State.onBus_calm _ _ _ ?_).gj (by assumption)).to ?_
          | refine ((State.onBus_calm _ _ _ ?_).gs (by assumption)).to ?_ | refine (State.run_calm _ _ _ _ _ ?_).to ?_
          | refine ((State.run_calm _ _ _ _ _ ?_).get (by assumption)).to ?_ | refine (State.startTransfer_calm _ _ _ _).to ?_
          | apply calmIte | apply Ends.ok | apply Ends.next | apply Ends.ite | apply RanCalm.done | apply RanCalm.jump
          | apply RanCalm.stay | apply RanCalm.fault | apply RanCalm.ite | rfl | intro _ | split)

theorem execDin_calm (s : State) (e : Fin 10) (ka : BitVec 4) (operand : BitVec 12) :
    Ends rl s.view (execDin e ka operand s) := by
  unfold execDin
  (try dsimp only) <;> intros <;> with_reducible
      (repeat' first
          | exact .refl _ | assumption | apply calmBack | dsimp only [viewMk] | refine (State.onBus_calm _ _ _ ?_).to ?_
          | refine ((State.onBus_calm _ _ _ ?_).gd (by assumption)).to ?_
          | refine ((State.onBus_calm _ _ _ ?_).gj (by assumption)).to ?_
          | refine ((State.onBus_calm _ _ _ ?_).gs (by assumption)).to ?_ | refine (State.run_calm _ _ _ _ _ ?_).to ?_
          | refine ((State.run_calm _ _ _ _ _ ?_).get (by assumption)).to ?_ | refine (State.startTransfer_calm _ _ _ _).to ?_
          | apply calmIte | apply Ends.ok | apply Ends.next | apply Ends.ite | apply RanCalm.done | apply RanCalm.jump
          | apply RanCalm.stay | apply RanCalm.fault | apply RanCalm.ite | rfl | intro _ | split)

theorem execBusTransferEnd_calm (s : State) (ch : Fin 8) (result : BitVec 24) (iface : Bool) :
    Ends rl s.view (execBusTransferEnd ch result iface s) := by
  unfold execBusTransferEnd
  (try dsimp only) <;> intros <;> with_reducible
      (repeat' first
          | exact .refl _ | assumption | apply calmBack | dsimp only [viewMk] | refine (State.ifaceError_calm _ _).to ?_
          | refine (State.raise_calm _ _ _).to ?_ | refine (State.setFchan_calm _ _ _).to ?_ | apply calmIte | apply Ends.ok
          | apply Ends.next | apply Ends.ite | rfl | intro _ | split)

theorem execBres_calm (s : State) (e : Fin 10) (kd : BitVec 4) (ka : BitVec 4) :
    Ends rl s.view (execBres e kd ka s) := by
  unfold execBres
  (try dsimp only) <;> intros <;> with_reducible
      (repeat' first
          | exact .refl _ | assumption | apply calmBack | dsimp only [viewMk] | refine (State.onBus_calm _ _ _ ?_).to ?_
          | refine ((State.onBus_calm _ _ _ ?_).gd (by assumption)).to ?_
          | refine ((State.onBus_calm _ _ _ ?_).gj (by assumption)).to ?_
          | refine ((State.onBus_calm _ _ _ ?_).gs (by assumption)).to ?_ | refine (State.run_calm _ _ _ _ _ ?_).to ?_
          | refine ((State.run_calm _ _ _ _ _ ?_).get (by assumption)).to ?_ | refine (State.withReg_calm _ _ _ _).to ?_
          | apply calmIte | apply Ends.ok | apply Ends.next | apply Ends.ite | apply RanCalm.done | apply RanCalm.jump
          | apply RanCalm.stay | apply RanCalm.fault | apply RanCalm.ite | rfl | intro _ | split)

theorem execDoutm_calm (s : State) (e : Fin 10) (ka : BitVec 4) (operand : BitVec 12) :
    Ends rl s.view (execDoutm e ka operand s) := by
  unfold execDoutm
  (try dsimp only) <;> intros <;> with_reducible
      (repeat' first
          | exact .refl _ | assumption | apply calmBack | dsimp only [viewMk] | refine (State.cycle_calm _ _ _).to ?_
          | refine (State.onBus_calm _ _ _ ?_).to ?_ | refine ((State.onBus_calm _ _ _ ?_).gd (by assumption)).to ?_
          | refine ((State.onBus_calm _ _ _ ?_).gj (by assumption)).to ?_
          | refine ((State.onBus_calm _ _ _ ?_).gs (by assumption)).to ?_ | refine (State.run_calm _ _ _ _ _ ?_).to ?_
          | refine ((State.run_calm _ _ _ _ _ ?_).get (by assumption)).to ?_ | apply calmIte | apply Ends.ok | apply Ends.next
          | apply Ends.ite | apply RanCalm.done | apply RanCalm.jump | apply RanCalm.stay | apply RanCalm.fault | apply RanCalm.ite
          | rfl | intro _ | split)

theorem execDinm_calm (s : State) (e : Fin 10) (ka : BitVec 4) (operand : BitVec 12) (data : Bytes) :
    Ends rl s.view (execDinm e ka operand data s) := by
  unfold execDinm
  (try dsimp only) <;> intros <;> with_reducible
      (repeat' first
          | exact .refl _ | assumption | apply calmBack | dsimp only [viewMk] | refine (State.cycle_calm _ _ _).to ?_
          | refine (State.onBus_calm _ _ _ ?_).to ?_ | refine ((State.onBus_calm _ _ _ ?_).gd (by assumption)).to ?_
          | refine ((State.onBus_calm _ _ _ ?_).gj (by assumption)).to ?_
          | refine ((State.onBus_calm _ _ _ ?_).gs (by assumption)).to ?_ | refine (State.run_calm _ _ _ _ _ ?_).to ?_
          | refine ((State.run_calm _ _ _ _ _ ?_).get (by assumption)).to ?_ | refine (State.setData_calm _ _ _ _).to ?_
          | apply calmIte | apply Ends.ok | apply Ends.next | apply Ends.ite | apply RanCalm.done | apply RanCalm.jump
          | apply RanCalm.stay | apply RanCalm.fault | apply RanCalm.ite | rfl | intro _ | split)

theorem execRdb_calm (s : State) (e : Fin 10) (kd : BitVec 4) (byte : BitVec 8) :
    Ends rl s.view (execRdb e kd byte s) := by
  unfold execRdb
  (try dsimp only) <;> intros <;> with_reducible
      (repeat' first
          | exact .refl _ | assumption | apply calmBack | dsimp only [viewMk] | refine (State.cycle_calm _ _ _).to ?_
          | refine (State.onBus_calm _ _ _ ?_).to ?_ | refine ((State.onBus_calm _ _ _ ?_).gd (by assumption)).to ?_
          | refine ((State.onBus_calm _ _ _ ?_).gj (by assumption)).to ?_
          | refine ((State.onBus_calm _ _ _ ?_).gs (by assumption)).to ?_ | refine (State.run_calm _ _ _ _ _ ?_).to ?_
          | refine ((State.run_calm _ _ _ _ _ ?_).get (by assumption)).to ?_ | refine (State.withReg_calm _ _ _ _).to ?_
          | refine (State.withZ_calm _ _ _).to ?_ | apply calmIte | apply Ends.ok | apply Ends.next | apply Ends.ite
          | apply RanCalm.done | apply RanCalm.jump | apply RanCalm.stay | apply RanCalm.fault | apply RanCalm.ite | rfl | intro _
          | split)

theorem execBdly_calm (s : State) (e : Fin 10) (kd : BitVec 4) (ka : BitVec 4) (operand : BitVec 12) :
    Ends rl s.view (execBdly e kd ka operand s) := by
  unfold execBdly
  (try dsimp only) <;> intros <;> with_reducible
      (repeat' first
          | exact .refl _ | assumption | apply calmBack | dsimp only [viewMk] | refine (State.cycle_calm _ _ _).to ?_
          | refine (State.onBus_calm _ _ _ ?_).to ?_ | refine ((State.onBus_calm _ _ _ ?_).gd (by assumption)).to ?_
          | refine ((State.onBus_calm _ _ _ ?_).gj (by assumption)).to ?_
          | refine ((State.onBus_calm _ _ _ ?_).gs (by assumption)).to ?_ | refine (State.run_calm _ _ _ _ _ ?_).to ?_
          | refine ((State.run_calm _ _ _ _ _ ?_).get (by assumption)).to ?_ | apply calmIte | apply Ends.ok | apply Ends.next
          | apply Ends.ite | apply RanCalm.done | apply RanCalm.jump | apply RanCalm.stay | apply RanCalm.fault | apply RanCalm.ite
          | rfl | intro _ | split)

theorem execWpset_calm (s : State) (e : Fin 10) (kd : BitVec 4) (ka : BitVec 4) (operand : BitVec 12) :
    Ends rl s.view (execWpset e kd ka operand s) := by
  unfold execWpset
  (try dsimp only) <;> intros <;> with_reducible
      (repeat' first
          | exact .refl _ | assumption | apply calmBack | dsimp only [viewMk] | refine (State.cycle_calm _ _ _).to ?_
          | refine (State.onBus_calm _ _ _ ?_).to ?_ | refine ((State.onBus_calm _ _ _ ?_).gd (by assumption)).to ?_
          | refine ((State.onBus_calm _ _ _ ?_).gj (by assumption)).to ?_
          | refine ((State.onBus_calm _ _ _ ?_).gs (by assumption)).to ?_ | refine (State.run_calm _ _ _ _ _ ?_).to ?_
          | refine ((State.run_calm _ _ _ _ _ ?_).get (by assumption)).to ?_ | refine (State.setFchan_calm _ _ _).to ?_
          | apply calmIte | apply Ends.ok | apply Ends.next | apply Ends.ite | apply RanCalm.done | apply RanCalm.jump
          | apply RanCalm.stay | apply RanCalm.fault | apply RanCalm.ite | rfl | intro _ | split)

theorem execBmode_calm (s : State) (e : Fin 10) (kd : BitVec 4) (ka : BitVec 4) (operand : BitVec 12) :
    Ends rl s.view (execBmode e kd ka operand s) := by
  unfold execBmode
  (try dsimp only) <;> intros <;> with_reducible
      (repeat' first
          | exact .refl _ | assumption | apply calmBack | dsimp only [viewMk] | refine (State.cycle_calm _ _ _).to ?_
          | refine (State.onBus_calm _ _ _ ?_).to ?_ | refine ((State.onBus_calm _ _ _ ?_).gd (by assumption)).to ?_
          | refine ((State.onBus_calm _ _ _ ?_).gj (by assumption)).to ?_
          | refine ((State.onBus_calm _ _ _ ?_).gs (by assumption)).to ?_ | refine (State.run_calm _ _ _ _ _ ?_).to ?_
          | refine ((State.run_calm _ _ _ _ _ ?_).get (by assumption)).to ?_ | refine (State.setF_calm _ _ _).to ?_
          | refine (State.takeStaged_calm _ _).to ?_ | apply calmIte | apply Ends.ok | apply Ends.next | apply Ends.ite
          | apply RanCalm.done | apply RanCalm.jump | apply RanCalm.stay | apply RanCalm.fault | apply RanCalm.ite | rfl | intro _
          | split)

theorem execOpget_calm (s : State) (e : Fin 10) (kd : BitVec 4) (ka : BitVec 4) (operand : BitVec 12) :
    Ends rl s.view (execOpget e kd ka operand s) := by
  unfold execOpget
  (try dsimp only) <;> intros <;> with_reducible
      (repeat' first
          | exact .refl _ | assumption | apply calmBack | dsimp only [viewMk] | refine (State.run_calm _ _ _ _ _ ?_).to ?_
          | refine ((State.run_calm _ _ _ _ _ ?_).get (by assumption)).to ?_ | refine (State.setData_calm _ _ _ _).to ?_
          | refine (State.takeOp_calm _ _).to ?_ | refine ((State.takeOp_calm _ _).get (by assumption)).to ?_
          | refine (State.withReg_calm _ _ _ _).to ?_ | refine (State.withZ_calm _ _ _).to ?_ | apply calmIte | apply calmIte1
          | apply Ends.ok | apply Ends.next | apply Ends.ite | apply RanCalm.done | apply RanCalm.jump | apply RanCalm.stay
          | apply RanCalm.fault | apply RanCalm.ite | rfl | intro _ | split)

theorem execOpdone_calm (s : State) (e : Fin 10) (ka : BitVec 4) (operand : BitVec 12) :
    Ends rl s.view (execOpdone e ka operand s) := by
  unfold execOpdone
  (try dsimp only) <;> intros <;> with_reducible
      (repeat' first
          | exact .refl _ | assumption | apply calmBack | dsimp only [viewMk] | refine (State.reportOp_calm _ _ _ _).to ?_
          | refine ((State.reportOp_calm _ _ _ _).get (by assumption)).to ?_ | refine ((State.reportOp_calm _ _ _ _).to ?_).getD ?_
          | refine (State.run_calm _ _ _ _ _ ?_).to ?_ | refine ((State.run_calm _ _ _ _ _ ?_).get (by assumption)).to ?_
          | apply calmIte | apply Ends.ok | apply Ends.next | apply Ends.ite | apply RanCalm.done | apply RanCalm.jump
          | apply RanCalm.stay | apply RanCalm.fault | apply RanCalm.ite | rfl | intro _ | split)

theorem execHalt_calm (s : State) (e : Fin 10) (kd : BitVec 4) (ka : BitVec 4) (operand : BitVec 12) :
    Ends rl s.view (execHalt e kd ka operand s) := by
  unfold execHalt
  (try dsimp only) <;> intros <;> with_reducible
      (repeat' first
          | exact .refl _ | assumption | apply calmBack | dsimp only [viewMk] | refine (State.run_calm _ _ _ _ _ ?_).to ?_
          | refine ((State.run_calm _ _ _ _ _ ?_).get (by assumption)).to ?_ | refine (State.setEngine_calm _ _ _).to ?_
          | refine (State.supervisorStopped_calm _).to ?_ | apply calmIte | apply Ends.ok | apply Ends.next | apply Ends.ite
          | apply RanCalm.done | apply RanCalm.jump | apply RanCalm.stay | apply RanCalm.fault | apply RanCalm.ite | rfl | intro _
          | split)

theorem execWdkick_calm (s : State) (e : Fin 10) :
    Ends rl s.view (execWdkick e s) := by
  unfold execWdkick
  (try dsimp only) <;> intros <;> with_reducible
      (repeat' first
          | exact .refl _ | assumption | apply calmBack | dsimp only [viewMk] | refine (State.run_calm _ _ _ _ _ ?_).to ?_
          | refine ((State.run_calm _ _ _ _ _ ?_).get (by assumption)).to ?_ | apply calmIte | apply Ends.ok | apply Ends.next
          | apply Ends.ite | apply RanCalm.done | apply RanCalm.jump | apply RanCalm.stay | apply RanCalm.fault | apply RanCalm.ite
          | rfl | intro _ | split)

theorem State.loadFrom_calm (s : State) (e : Nat) (k : Nat) (off : Nat) (kd : BitVec 4) :
    Calm rl s.view (State.loadFrom s e k off kd).view := by
  unfold State.loadFrom
  (try dsimp only) <;> intros <;> with_reducible
      (repeat' first
          | exact .refl _ | assumption | apply calmBack | dsimp only [viewMk] | refine (State.failedStart_calm _ _).to ?_
          | refine (State.loadSection_calm _ _ _ _).to ?_ | refine (State.record_calm _ _ _ _ _ _ _).to ?_
          | refine (State.withReg_calm _ _ _ _).to ?_ | apply calmIte | apply calmIte1 | rfl | intro _ | split)

theorem execVload_calm (s : State) (e : Fin 10) (kd : BitVec 4) (ka : BitVec 4) (operand : BitVec 12) :
    Ends rl s.view (execVload e kd ka operand s) := by
  unfold execVload
  (try dsimp only) <;> intros <;> with_reducible
      (repeat' first
          | exact .refl _ | assumption | apply calmBack | dsimp only [viewMk] | refine (State.loadFrom_calm _ _ _ _ _).to ?_
          | refine (State.run_calm _ _ _ _ _ ?_).to ?_ | refine ((State.run_calm _ _ _ _ _ ?_).get (by assumption)).to ?_
          | apply calmIte | apply Ends.ok | apply Ends.next | apply Ends.ite | apply RanCalm.done | apply RanCalm.jump
          | apply RanCalm.stay | apply RanCalm.fault | apply RanCalm.ite | rfl | intro _ | split)

theorem execHload_calm (s : State) (e : Fin 10) (kd : BitVec 4) (ka : BitVec 4) (operand : BitVec 12) :
    Ends rl s.view (execHload e kd ka operand s) := by
  unfold execHload
  (try dsimp only) <;> intros <;> with_reducible
      (repeat' first
          | exact .refl _ | assumption | apply calmBack | dsimp only [viewMk] | refine (State.loadFrom_calm _ _ _ _ _).to ?_
          | refine (State.run_calm _ _ _ _ _ ?_).to ?_ | refine ((State.run_calm _ _ _ _ _ ?_).get (by assumption)).to ?_
          | apply calmIte | apply Ends.ok | apply Ends.next | apply Ends.ite | apply RanCalm.done | apply RanCalm.jump
          | apply RanCalm.stay | apply RanCalm.fault | apply RanCalm.ite | rfl | intro _ | split)

theorem execImgchk_calm (s : State) (e : Fin 10) (kd : BitVec 4) (ka : BitVec 4) (operand : BitVec 12) :
    Ends rl s.view (execImgchk e kd ka operand s) := by
  unfold execImgchk
  (try dsimp only) <;> intros <;> with_reducible
      (repeat' first
          | exact .refl _ | assumption | apply calmBack | dsimp only [viewMk] | refine (State.bump_calm _ _).to ?_
          | refine (State.run_calm _ _ _ _ _ ?_).to ?_ | refine ((State.run_calm _ _ _ _ _ ?_).get (by assumption)).to ?_
          | refine (State.withReg_calm _ _ _ _).to ?_ | apply calmIte | apply Ends.ok | apply Ends.next | apply Ends.ite
          | apply RanCalm.done | apply RanCalm.jump | apply RanCalm.stay | apply RanCalm.fault | apply RanCalm.ite | rfl | intro _
          | split)

theorem execSetstate_calm (s : State) (e : Fin 10) (kd : BitVec 4) (ka : BitVec 4) (operand : BitVec 12) :
    Ends rl s.view (execSetstate e kd ka operand s) := by
  unfold execSetstate
  (try dsimp only) <;> intros <;> with_reducible
      (repeat' first
          | exact .refl _ | assumption | apply calmBack | dsimp only [viewMk] | refine (State.askState_calm _ _).to ?_
          | refine (State.run_calm _ _ _ _ _ ?_).to ?_ | refine ((State.run_calm _ _ _ _ _ ?_).get (by assumption)).to ?_
          | refine (State.withReg_calm _ _ _ _).to ?_ | apply calmIte | apply calmIte1 | apply Ends.ok | apply Ends.next
          | apply Ends.ite | apply RanCalm.done | apply RanCalm.jump | apply RanCalm.stay | apply RanCalm.fault | apply RanCalm.ite
          | rfl | intro _ | split)

theorem State.endHook_calm (s : State) (result : Nat) :
    Calm rl s.view (State.endHook s result).view := by
  unfold State.endHook
  (try dsimp only) <;> intros <;> with_reducible
      (repeat' first
          | exact .refl _ | assumption | apply calmBack | dsimp only [viewMk] | refine (State.run_calm _ _ _ _ _ ?_).to ?_
          | refine ((State.run_calm _ _ _ _ _ ?_).get (by assumption)).to ?_ | refine (State.setEngine_calm _ _ _).to ?_
          | apply calmIte | rfl | intro _ | split)

theorem execHend_calm (s : State) (e : Fin 10) (operand : BitVec 12) :
    Ends rl s.view (execHend e operand s) := by
  unfold execHend
  (try dsimp only) <;> intros <;> with_reducible
      (repeat' first
          | exact .refl _ | assumption | apply calmBack | dsimp only [viewMk] | refine (State.endHook_calm _ _).to ?_
          | refine (State.run_calm _ _ _ _ _ ?_).to ?_ | refine ((State.run_calm _ _ _ _ _ ?_).get (by assumption)).to ?_
          | apply calmIte | apply Ends.ok | apply Ends.next | apply Ends.ite | apply RanCalm.done | apply RanCalm.jump
          | apply RanCalm.stay | apply RanCalm.fault | apply RanCalm.ite | rfl | intro _ | split)

theorem execCfire_calm (s : State) (e : Fin 10) (kd : BitVec 4) (ka : BitVec 4) (operand : BitVec 12) :
    Ends rl s.view (execCfire e kd ka operand s) := by
  unfold execCfire
  (try dsimp only) <;> intros <;> with_reducible
      (repeat' first
          | exact .refl _ | assumption | apply calmBack | dsimp only [viewMk] | refine (State.run_calm _ _ _ _ _ ?_).to ?_
          | refine ((State.run_calm _ _ _ _ _ ?_).get (by assumption)).to ?_ | refine (State.trigger_calm _ _ _).to ?_
          | refine (State.withReg_calm _ _ _ _).to ?_ | apply calmIte | apply calmIte1 | apply Ends.ok | apply Ends.next
          | apply Ends.ite | apply RanCalm.done | apply RanCalm.jump | apply RanCalm.stay | apply RanCalm.fault | apply RanCalm.ite
          | rfl | intro _ | split)

theorem execGpout_calm (s : State) (e : Fin 10) (kd : BitVec 4) (ka : BitVec 4) (operand : BitVec 12) :
    Ends rl s.view (execGpout e kd ka operand s) := by
  unfold execGpout
  (try dsimp only) <;> intros <;> with_reducible
      (repeat' first
          | exact .refl _ | assumption | apply calmBack | dsimp only [viewMk] | refine (State.run_calm _ _ _ _ _ ?_).to ?_
          | refine ((State.run_calm _ _ _ _ _ ?_).get (by assumption)).to ?_ | refine (State.setLevel_calm _ _ _).to ?_
          | apply calmIte | apply calmFold | apply calmFold1 | apply Ends.ok | apply Ends.next | apply Ends.ite | apply RanCalm.done
          | apply RanCalm.jump | apply RanCalm.stay | apply RanCalm.fault | apply RanCalm.ite | rfl | intro _ | split)

theorem execGpin_calm (s : State) (e : Fin 10) (kd : BitVec 4) (ka : BitVec 4) (operand : BitVec 12) :
    Ends rl s.view (execGpin e kd ka operand s) := by
  unfold execGpin
  (try dsimp only) <;> intros <;> with_reducible
      (repeat' first
          | exact .refl _ | assumption | apply calmBack | dsimp only [viewMk] | refine (State.run_calm _ _ _ _ _ ?_).to ?_
          | refine ((State.run_calm _ _ _ _ _ ?_).get (by assumption)).to ?_ | refine (State.withReg_calm _ _ _ _).to ?_
          | apply calmIte | apply Ends.ok | apply Ends.next | apply Ends.ite | apply RanCalm.done | apply RanCalm.jump
          | apply RanCalm.stay | apply RanCalm.fault | apply RanCalm.ite | rfl | intro _ | split)

theorem execHlog_calm (s : State) (e : Fin 10) (kd : BitVec 4) (ka : BitVec 4) (operand : BitVec 12) :
    Ends rl s.view (execHlog e kd ka operand s) := by
  unfold execHlog
  (try dsimp only) <;> intros <;> with_reducible
      (repeat' first
          | exact .refl _ | assumption | apply calmBack | dsimp only [viewMk] | refine (State.record_calm _ _ _ _ _ _ _).to ?_
          | refine (State.run_calm _ _ _ _ _ ?_).to ?_ | refine ((State.run_calm _ _ _ _ _ ?_).get (by assumption)).to ?_
          | apply calmIte | apply Ends.ok | apply Ends.next | apply Ends.ite | apply RanCalm.done | apply RanCalm.jump
          | apply RanCalm.stay | apply RanCalm.fault | apply RanCalm.ite | rfl | intro _ | split)

theorem execHookTrigger_calm (s : State) (entry : Fin 16) :
    Ends rl s.view (execHookTrigger entry s) := by
  unfold execHookTrigger
  (try dsimp only) <;> intros <;> with_reducible
      (repeat' first
          | exact .refl _ | assumption | apply calmBack | dsimp only [viewMk] | refine (State.queueHook_calm _ _).to ?_
          | apply calmIte | apply Ends.ok | apply Ends.next | apply Ends.ite | rfl | intro _ | split)

theorem State.startHook_calm (s : State) (r : HookReq) (rest : List HookReq) :
    Calm rl s.view (State.startHook s r rest).view := by
  unfold State.startHook
  (try dsimp only) <;> intros <;> with_reducible
      (repeat' first
          | exact .refl _ | assumption | apply calmBack | dsimp only [viewMk] | refine (State.raise_calm _ _ _).to ?_
          | refine (State.setEngine_calm _ _ _).to ?_ | apply calmIte | rfl | intro _ | split)

theorem execHookStart_calm (s : State) :
    Ends rl s.view (execHookStart s) := by
  unfold execHookStart
  (try dsimp only) <;> intros <;> with_reducible
      (repeat' first
          | exact .refl _ | assumption | apply calmBack | dsimp only [viewMk] | refine (State.startHook_calm _ _ _).to ?_
          | apply calmIte | apply Ends.ok | apply Ends.next | apply Ends.ite | rfl | intro _ | split)

theorem execHookBudgetWarning_calm (s : State) :
    Ends rl s.view (execHookBudgetWarning s) := by
  unfold execHookBudgetWarning
  (try dsimp only) <;> intros <;> with_reducible
      (repeat' first
          | exact .refl _ | assumption | apply calmBack | dsimp only [viewMk] | refine (State.raise_calm _ _ _).to ?_
          | apply calmIte | apply Ends.ok | apply Ends.next | apply Ends.ite | rfl | intro _ | split)

theorem execHookBudgetExpiry_calm (s : State) :
    Ends rl s.view (execHookBudgetExpiry s) := by
  unfold execHookBudgetExpiry
  (try dsimp only) <;> intros <;> with_reducible
      (repeat' first
          | exact .refl _ | assumption | apply calmBack | dsimp only [viewMk] | refine (State.abandonHook_calm _).to ?_
          | refine (State.record_calm _ _ _ _ _ _ _).to ?_ | apply calmIte | apply Ends.ok | apply Ends.next | apply Ends.ite | rfl
          | intro _ | split)

theorem State.debugStop_calm (s : State) (e : Nat) :
    Calm rl s.view (State.debugStop s e).view := by
  unfold State.debugStop
  (try dsimp only) <;> intros <;> with_reducible
      (repeat' first
          | exact .refl _ | assumption | apply calmBack | dsimp only [viewMk] | refine (State.failChannel_calm _ _).to ?_
          | refine (State.run_calm _ _ _ _ _ ?_).to ?_ | refine ((State.run_calm _ _ _ _ _ ?_).get (by assumption)).to ?_
          | refine (State.setEngine_calm _ _ _).to ?_ | refine (State.supervisorStopped_calm _).to ?_ | apply calmIte | rfl
          | intro _ | split)

theorem State.writeDbgCtrl_calm (s : State) (eng : Nat) (stop : Bool) :
    Calm rl s.view (State.writeDbgCtrl s eng stop).view := by
  unfold State.writeDbgCtrl
  (try dsimp only) <;> intros <;> with_reducible
      (repeat' first
          | exact .refl _ | assumption | apply calmBack | dsimp only [viewMk] | refine (State.debugStop_calm _ _).to ?_
          | refine (State.setF_calm _ _ _).to ?_ | apply calmIte | rfl | intro _ | split)

theorem execDebugStop_calm (s : State) (p : Path) (eng : BitVec 4) :
    Ends rl s.view (execDebugStop p eng s) := by
  unfold execDebugStop
  (try dsimp only) <;> intros <;> with_reducible
      (repeat' first
          | exact .refl _ | assumption | apply calmBack | dsimp only [viewMk] | refine (State.ignoredWrite_calm _).to ?_
          | refine (State.refuseDebug_calm _).to ?_ | refine (State.writeDbgCtrl_calm _ _ _).to ?_ | apply calmIte | apply Ends.ok
          | apply Ends.next | apply Ends.ite | rfl | intro _ | split)

end Sys2Proof.Machine
end

