-- ==== Sys2Proof/Laws/CalmAdmin.lean ====
section
/-! SUPPORT. `Calm` through every operation and meaning: administrative commands, self-tests, keys, the USB port and the debug window. -/

set_option linter.unusedVariables false

namespace Sys2Proof.Machine

variable {rl : Bool}

theorem State.defer_calm (s : State) (c : Cmd) (hint : Nat) :
    Calm rl s.view (State.defer s c hint).view := by
  unfold State.defer
  (try dsimp only) <;> intros <;> with_reducible
      (repeat' first
          | exact .refl _ | assumption | apply calmBack | dsimp only [viewMk] | refine (State.complete_calm _ _ _ _).to ?_
          | apply calmIte | rfl | intro _ | split)

theorem State.startAdm_calm (s : State) (n : Nat) (tag : Nat) (op : Nat) (mine : Cmd → Bool) (rule : State → Cmd → AdmRule) (f : State → Cmd → State) (hf : ∀ s a0, Calm rl (State.view s) (f s a0).view) :
    Ends rl s.view (State.startAdm s n tag op mine rule f) := by
  unfold State.startAdm
  (try dsimp only) <;> intros <;> with_reducible
      (repeat' first
          | exact .refl _ | assumption | apply calmBack | dsimp only [viewMk] | refine (State.complete_calm _ _ _ _).to ?_
          | refine (State.defer_calm _ _ _).to ?_ | refine (State.startCmd_calm _ _ _ _ _ ?_).to ?_
          | refine ((State.startCmd_calm _ _ _ _ _ ?_).get (by assumption)).to ?_ | refine (hf _ _).to ?_ | apply calmIte
          | apply Ends.ok | apply Ends.next | apply Ends.ite | rfl | intro _ | split)

theorem State.admIn_calm (s : State) (c : Cmd) (x : AdmXfer) (f : State → Bytes → State) (hf : ∀ s a0, Calm rl (State.view s) (f s a0).view) :
    Calm rl s.view (State.admIn s c x f).view := by
  unfold State.admIn
  (try dsimp only) <;> intros <;> with_reducible
      (repeat' first
          | exact .refl _ | assumption | apply calmBack | dsimp only [viewMk] | refine (State.complete_calm _ _ _ _).to ?_
          | refine (State.dmaFault_calm _ _ _ _).to ?_ | refine (hf _ _).to ?_ | apply calmIte | apply RanCalm.done
          | apply RanCalm.jump | apply RanCalm.stay | apply RanCalm.fault | apply RanCalm.ite | rfl | intro _ | split)

theorem State.admOut_calm (s : State) (c : Cmd) (x : AdmXfer) (f : State → State × Bytes × Bytes) (hf : ∀ s, Calm rl (State.view s) (f s).1.view) :
    Calm rl s.view (State.admOut s c x f).view := by
  unfold State.admOut
  (try dsimp only) <;> intros <;> with_reducible
      (repeat' first
          | exact .refl _ | assumption | apply calmBack | dsimp only [viewMk] | refine (State.complete_calm _ _ _ _).to ?_
          | refine (State.dmaFault_calm _ _ _ _).to ?_ | refine (State.scatter_calm _ _ _).to ?_ | refine (hf _).to ?_
          | apply calmIte | apply calmIte1 | apply RanCalm.done | apply RanCalm.jump | apply RanCalm.stay | apply RanCalm.fault
          | apply RanCalm.ite | rfl | intro _ | split)

theorem execIdentify_calm (s : State) (n : Fin 8) (tag : BitVec 5) (x : AdmXfer) :
    Ends rl s.view (execIdentify n tag x s) := by
  unfold execIdentify
  (try dsimp only) <;> intros <;> with_reducible
      (repeat' first
          | exact .refl _ | assumption | apply calmBack | dsimp only [viewMk] | refine (State.admOut_calm _ _ _ _ ?_).to ?_
          | refine (State.startAdm_calm _ _ _ _ _ _ _ ?_).to ?_
          | refine ((State.startAdm_calm _ _ _ _ _ _ _ ?_).get (by assumption)).to ?_ | apply calmIte | apply Ends.ok
          | apply Ends.next | apply Ends.ite | rfl | intro _ | split)

theorem execVolumeQuery_calm (s : State) (n : Fin 8) (tag : BitVec 5) (x : AdmXfer) :
    Ends rl s.view (execVolumeQuery n tag x s) := by
  unfold execVolumeQuery
  (try dsimp only) <;> intros <;> with_reducible
      (repeat' first
          | exact .refl _ | assumption | apply calmBack | dsimp only [viewMk] | refine (State.admOut_calm _ _ _ _ ?_).to ?_
          | refine (State.startAdm_calm _ _ _ _ _ _ _ ?_).to ?_
          | refine ((State.startAdm_calm _ _ _ _ _ _ _ ?_).get (by assumption)).to ?_ | apply calmIte | apply Ends.ok
          | apply Ends.next | apply Ends.ite | rfl | intro _ | split)

theorem State.clearPage_calm (s : State) (page : Nat) (off : Nat) (len : Nat) :
    Calm rl s.view (State.clearPage s page off len).view := by
  unfold State.clearPage
  (try dsimp only) <;> intros <;> with_reducible
      (repeat' first
          | exact .refl _ | assumption | apply calmBack | dsimp only [viewMk] | refine (State.record_calm _ _ _ _ _ _ _).to ?_
          | refine (State.touch_calm _ _).to ?_ | apply calmIte | apply calmIte1 | rfl | intro _ | split)

theorem State.logCopy_calm (s : State) (page : Nat) (off : Nat) (len : Nat) (clear : Bool) (gone : List Nat) :
    Calm rl s.view (State.logCopy s page off len clear gone).1.view := by
  unfold State.logCopy
  (try dsimp only) <;> intros <;> with_reducible
      (repeat' first
          | exact .refl _ | assumption | apply calmBack | dsimp only [viewMk] | refine (State.bump_calm _ _).to ?_
          | refine (State.clearPage_calm _ _ _ _).to ?_ | apply calmIte | apply calmIte1 | apply calmFold | apply calmFold1 | rfl
          | intro _ | split)

theorem execLogRead_calm (s : State) (n : Fin 8) (tag : BitVec 5) (gone : List (BitVec 16)) (x : AdmXfer) :
    Ends rl s.view (execLogRead n tag gone x s) := by
  unfold execLogRead
  (try dsimp only) <;> intros <;> with_reducible
      (repeat' first
          | exact .refl _ | assumption | apply calmBack | dsimp only [viewMk] | refine (State.admOut_calm _ _ _ _ ?_).to ?_
          | refine (State.logCopy_calm _ _ _ _ _ _).to ?_ | refine (State.startAdm_calm _ _ _ _ _ _ _ ?_).to ?_
          | refine ((State.startAdm_calm _ _ _ _ _ _ _ ?_).get (by assumption)).to ?_ | apply calmIte | apply Ends.ok
          | apply Ends.next | apply Ends.ite | rfl | intro _ | split)

theorem execLossReport_calm (s : State) (n : Fin 8) (tag : BitVec 5) (x : AdmXfer) :
    Ends rl s.view (execLossReport n tag x s) := by
  unfold execLossReport
  (try dsimp only) <;> intros <;> with_reducible
      (repeat' first
          | exact .refl _ | assumption | apply calmBack | dsimp only [viewMk] | refine (State.admOut_calm _ _ _ _ ?_).to ?_
          | refine (State.startAdm_calm _ _ _ _ _ _ _ ?_).to ?_
          | refine ((State.startAdm_calm _ _ _ _ _ _ _ ?_).get (by assumption)).to ?_ | apply calmIte | apply Ends.ok
          | apply Ends.next | apply Ends.ite | rfl | intro _ | split)

theorem State.makeKey_calm (s : State) (v : Nat) :
    Calm rl s.view (State.makeKey s v).view := by
  unfold State.makeKey
  (try dsimp only) <;> intros <;> with_reducible
      (repeat' first
          | exact .refl _ | assumption | apply calmBack | dsimp only [viewMk] | refine (State.draw_calm _ _).to ?_
          | refine (State.record_calm _ _ _ _ _ _ _).to ?_ | refine (State.setFlint_calm _ _).to ?_ | apply calmIte | apply calmIte1
          | rfl | intro _ | split)

theorem State.createVolume_calm (s : State) (c : Cmd) :
    Calm rl s.view (State.createVolume s c).view := by
  unfold State.createVolume
  (try dsimp only) <;> intros <;> with_reducible
      (repeat' first
          | exact .refl _ | assumption | apply calmBack | dsimp only [viewMk] | refine (State.commit_calm _).to ?_
          | refine (State.complete_calm _ _ _ _).to ?_ | refine (State.makeKey_calm _ _).to ?_
          | refine (State.record_calm _ _ _ _ _ _ _).to ?_ | refine (State.setVol_calm _ _ _).to ?_ | apply calmIte | rfl | intro _
          | split)

theorem execVolumeCreate_calm (s : State) (n : Fin 8) (tag : BitVec 5) :
    Ends rl s.view (execVolumeCreate n tag s) := by
  unfold execVolumeCreate
  (try dsimp only) <;> intros <;> with_reducible
      (repeat' first
          | exact .refl _ | assumption | apply calmBack | dsimp only [viewMk] | refine (State.complete_calm _ _ _ _).to ?_
          | refine (State.createVolume_calm _ _).to ?_ | refine (State.startAdm_calm _ _ _ _ _ _ _ ?_).to ?_
          | refine ((State.startAdm_calm _ _ _ _ _ _ _ ?_).get (by assumption)).to ?_ | apply calmIte | apply Ends.ok
          | apply Ends.next | apply Ends.ite | rfl | intro _ | split)

theorem State.dropUnits_calm (s : State) (v : Nat) :
    Calm rl s.view (State.dropUnits s v).view := by
  unfold State.dropUnits
  (try dsimp only) <;> intros <;> with_reducible
      (repeat' first
          | exact .refl _ | assumption | apply calmBack | dsimp only [viewMk] | refine (State.giveBack_calm _ _ _ _).to ?_
          | apply calmIte | apply calmFold | apply calmFold1 | rfl | intro _ | split)

theorem State.dropMarks_calm (s : State) (v : Nat) :
    Calm rl s.view (State.dropMarks s v).view := by
  unfold State.dropMarks
  (try dsimp only) <;> intros <;> with_reducible
      (repeat' first
          | exact .refl _ | assumption | apply calmBack | dsimp only [viewMk] | apply calmIte | rfl | intro _ | split)

theorem State.deleteVolume_calm (s : State) (c : Cmd) :
    Calm rl s.view (State.deleteVolume s c).view := by
  unfold State.deleteVolume
  (try dsimp only) <;> intros <;> with_reducible
      (repeat' first
          | exact .refl _ | assumption | apply calmBack | dsimp only [viewMk] | refine (State.commit_calm _).to ?_
          | refine (State.complete_calm _ _ _ _).to ?_ | refine (State.dropMarks_calm _ _).to ?_
          | refine (State.dropUnits_calm _ _).to ?_ | refine (State.record_calm _ _ _ _ _ _ _).to ?_
          | refine (State.setVol_calm _ _ _).to ?_ | apply calmIte | rfl | intro _ | split)

theorem execVolumeDelete_calm (s : State) (n : Fin 8) (tag : BitVec 5) :
    Ends rl s.view (execVolumeDelete n tag s) := by
  unfold execVolumeDelete
  (try dsimp only) <;> intros <;> with_reducible
      (repeat' first
          | exact .refl _ | assumption | apply calmBack | dsimp only [viewMk] | refine (State.deleteVolume_calm _ _).to ?_
          | refine (State.startAdm_calm _ _ _ _ _ _ _ ?_).to ?_
          | refine ((State.startAdm_calm _ _ _ _ _ _ _ ?_).get (by assumption)).to ?_ | apply calmIte | apply Ends.ok
          | apply Ends.next | apply Ends.ite | rfl | intro _ | split)

theorem State.switchSlot_calm (s : State) (g : Nat) (once : Bool) :
    Calm rl s.view (State.switchSlot s g once).view := by
  unfold State.switchSlot
  (try dsimp only) <;> intros <;> with_reducible
      (repeat' first
          | exact .refl _ | assumption | apply calmBack | dsimp only [viewMk] | refine (State.record_calm _ _ _ _ _ _ _).to ?_
          | refine (State.writeBoot_calm _ _).to ?_ | apply calmIte | rfl | intro _ | split)

theorem execBootSlotSwitch_calm (s : State) (n : Fin 8) (tag : BitVec 5) :
    Ends rl s.view (execBootSlotSwitch n tag s) := by
  unfold execBootSlotSwitch
  (try dsimp only) <;> intros <;> with_reducible
      (repeat' first
          | exact .refl _ | assumption | apply calmBack | dsimp only [viewMk] | refine (State.commit_calm _).to ?_
          | refine (State.complete_calm _ _ _ _).to ?_ | refine (State.startAdm_calm _ _ _ _ _ _ _ ?_).to ?_
          | refine ((State.startAdm_calm _ _ _ _ _ _ _ ?_).get (by assumption)).to ?_ | refine (State.switchSlot_calm _ _ _).to ?_
          | apply calmIte | apply Ends.ok | apply Ends.next | apply Ends.ite | rfl | intro _ | split)

theorem State.sanBlock_calm (s : State) (loc : Nat) :
    Calm rl s.view (State.sanBlock s loc).view := by
  unfold State.sanBlock
  (try dsimp only) <;> intros <;> with_reducible
      (repeat' first
          | exact .refl _ | assumption | apply calmBack | dsimp only [viewMk] | refine (State.closeBlock_calm _ _ _).to ?_
          | refine (State.erased_calm _ _ _).to ?_ | refine (State.moveLoc_calm _ _ _).to ?_
          | refine (State.openBlock_calm _ _ _ _ _).to ?_ | apply calmIte | rfl | intro _ | split)

theorem State.beginSanitize_calm (s : State) (vs : List Nat) (crypto : Bool) (target : Nat) :
    Calm rl s.view (State.beginSanitize s vs crypto target).view := by
  unfold State.beginSanitize
  (try dsimp only) <;> intros <;> with_reducible
      (repeat' first
          | exact .refl _ | assumption | apply calmBack | dsimp only [viewMk] | refine (State.commit_calm _).to ?_
          | refine (State.record_calm _ _ _ _ _ _ _).to ?_ | refine (State.setVol_calm _ _ _).to ?_ | apply calmIte | apply calmFold
          | apply calmFold1 | rfl | intro _ | split)

theorem State.freshKey_calm (s : State) (v : Nat) :
    Calm rl s.view (State.freshKey s v).view := by
  unfold State.freshKey
  (try dsimp only) <;> intros <;> with_reducible
      (repeat' first
          | exact .refl _ | assumption | apply calmBack | dsimp only [viewMk] | refine (State.makeKey_calm _ _).to ?_
          | refine (State.record_calm _ _ _ _ _ _ _).to ?_ | apply calmIte | rfl | intro _ | split)

theorem State.endSanitize_calm (s : State) (y : Sanitize) :
    Calm rl s.view (State.endSanitize s y).view := by
  unfold State.endSanitize
  (try dsimp only) <;> intros <;> with_reducible
      (repeat' first
          | exact .refl _ | assumption | apply calmBack | dsimp only [viewMk] | refine (State.commit_calm _).to ?_
          | refine (State.dropMarks_calm _ _).to ?_ | refine (State.dropUnits_calm _ _).to ?_
          | refine (State.freshKey_calm _ _).to ?_ | refine (State.record_calm _ _ _ _ _ _ _).to ?_
          | refine (State.sanBlock_calm _ _).to ?_ | refine (State.setVol_calm _ _ _).to ?_ | apply calmIte | apply calmFold
          | apply calmFold1 | rfl | intro _ | split)

theorem State.sanitizeEnds_calm (s : State) (n : Nat) (tag : Nat) (crypto : Bool) :
    Calm rl s.view (State.sanitizeEnds s n tag crypto).view := by
  unfold State.sanitizeEnds
  (try dsimp only) <;> intros <;> with_reducible
      (repeat' first
          | exact .refl _ | assumption | apply calmBack | dsimp only [viewMk] | refine (State.complete_calm _ _ _ _).to ?_
          | refine (State.endSanitize_calm _ _).to ?_ | refine (State.stage_calm _ _ _ _ _ _ _).to ?_ | apply calmIte | rfl
          | intro _ | split)

theorem State.startSanitize_calm (s : State) (n : Nat) (tag : Nat) (mine : Cmd → Bool) :
    Ends rl s.view (State.startSanitize s n tag mine) := by
  unfold State.startSanitize
  (try dsimp only) <;> intros <;> with_reducible
      (repeat' first
          | exact .refl _ | assumption | apply calmBack | dsimp only [viewMk] | refine (State.beginSanitize_calm _ _ _ _).to ?_
          | refine (State.complete_calm _ _ _ _).to ?_ | refine (State.setCmd_calm _ _).to ?_
          | refine (State.stage_calm _ _ _ _ _ _ _).to ?_ | refine (State.startAdm_calm _ _ _ _ _ _ _ ?_).to ?_
          | refine ((State.startAdm_calm _ _ _ _ _ _ _ ?_).get (by assumption)).to ?_ | apply calmIte | apply Ends.ok
          | apply Ends.next | apply Ends.ite | rfl | intro _ | split)

theorem execSanitizeCryptoErase_calm (s : State) (n : Fin 8) (tag : BitVec 5) (ends : Bool) :
    Ends rl s.view (execSanitizeCryptoErase n tag ends s) := by
  unfold execSanitizeCryptoErase
  (try dsimp only) <;> intros <;> with_reducible
      (repeat' first
          | exact .refl _ | assumption | apply calmBack | dsimp only [viewMk] | refine (State.sanitizeEnds_calm _ _ _ _).to ?_
          | refine (State.startSanitize_calm _ _ _ _).to ?_ | refine ((State.startSanitize_calm _ _ _ _).get (by assumption)).to ?_
          | apply calmIte | apply Ends.ok | apply Ends.next | apply Ends.ite | rfl | intro _ | split)

theorem execSanitizeBlockErase_calm (s : State) (n : Fin 8) (tag : BitVec 5) (ends : Bool) :
    Ends rl s.view (execSanitizeBlockErase n tag ends s) := by
  unfold execSanitizeBlockErase
  (try dsimp only) <;> intros <;> with_reducible
      (repeat' first
          | exact .refl _ | assumption | apply calmBack | dsimp only [viewMk] | refine (State.sanitizeEnds_calm _ _ _ _).to ?_
          | refine (State.startSanitize_calm _ _ _ _).to ?_ | refine ((State.startSanitize_calm _ _ _ _).get (by assumption)).to ?_
          | apply calmIte | apply Ends.ok | apply Ends.next | apply Ends.ite | rfl | intro _ | split)

theorem State.haltTest_calm (s : State) :
    Calm rl s.view (State.haltTest s).view := by
  unfold State.haltTest
  (try dsimp only) <;> intros <;> with_reducible
      (repeat' first
          | exact .refl _ | assumption | apply calmBack | dsimp only [viewMk] | apply calmIte | rfl | intro _ | split)

theorem State.abort_calm (s : State) (c : Cmd) :
    Calm rl s.view (State.abort s c).view := by
  unfold State.abort
  (try dsimp only) <;> intros <;> with_reducible
      (repeat' first
          | exact .refl _ | assumption | apply calmBack | dsimp only [viewMk] | refine (State.complete_calm _ _ _ _).to ?_
          | refine (State.haltTest_calm _).to ?_ | refine (State.stage_calm _ _ _ _ _ _ _).to ?_ | apply calmIte | apply calmFold
          | apply calmFold1 | rfl | intro _ | split)

theorem execAbort_calm (s : State) (n : Fin 8) (tag : BitVec 5) :
    Ends rl s.view (execAbort n tag s) := by
  unfold execAbort
  (try dsimp only) <;> intros <;> with_reducible
      (repeat' first
          | exact .refl _ | assumption | apply calmBack | dsimp only [viewMk] | refine (State.abort_calm _ _).to ?_
          | refine (State.startAdm_calm _ _ _ _ _ _ _ ?_).to ?_
          | refine ((State.startAdm_calm _ _ _ _ _ _ _ ?_).get (by assumption)).to ?_ | apply calmIte | apply Ends.ok
          | apply Ends.next | apply Ends.ite | rfl | intro _ | split)

theorem State.clockSet_calm (s : State) (v : Nat) :
    Calm rl s.view (State.clockSet s v).view := by
  unfold State.clockSet
  (try dsimp only) <;> intros <;> with_reducible
      (repeat' first
          | exact .refl _ | assumption | apply calmBack | dsimp only [viewMk] | refine (State.record_calm _ _ _ _ _ _ _).to ?_
          | apply calmIte | rfl | intro _ | split)

theorem execClockSet_calm (s : State) (n : Fin 8) (tag : BitVec 5) :
    Ends rl s.view (execClockSet n tag s) := by
  unfold execClockSet
  (try dsimp only) <;> intros <;> with_reducible
      (repeat' first
          | exact .refl _ | assumption | apply calmBack | dsimp only [viewMk] | refine (State.clockSet_calm _ _).to ?_
          | refine (State.complete_calm _ _ _ _).to ?_ | refine (State.startAdm_calm _ _ _ _ _ _ _ ?_).to ?_
          | refine ((State.startAdm_calm _ _ _ _ _ _ _ ?_).get (by assumption)).to ?_ | apply calmIte | apply Ends.ok
          | apply Ends.next | apply Ends.ite | rfl | intro _ | split)

theorem State.storeItem_calm (s : State) (item : Nat) (index : Nat) (b : Bytes) :
    Calm rl s.view (State.storeItem s item index b).view := by
  unfold State.storeItem
  (try dsimp only) <;> intros <;> with_reducible
      (repeat' first
          | exact .refl _ | assumption | apply calmBack | dsimp only [viewMk] | refine (State.commit_calm _).to ?_ | apply calmIte
          | rfl | intro _ | split)

theorem State.applyItem_calm (s : State) (item : Nat) (v : Nat) :
    Calm rl s.view (State.applyItem s item v).1.view := by
  unfold State.applyItem
  (try dsimp only) <;> intros <;> with_reducible
      (repeat' first
          | exact .refl _ | assumption | apply calmBack | dsimp only [viewMk] | refine (State.writeChecked_calm _ _ _ _ _).to ?_
          | refine (State.writeChg_calm _ _).to ?_ | refine (State.writePfw_calm _ _).to ?_ | apply calmIte | apply calmIte1 | rfl
          | intro _ | split)

theorem State.configWrite_calm (s : State) (c : Cmd) (b : Bytes) :
    Calm rl s.view (State.configWrite s c b).view := by
  unfold State.configWrite
  (try dsimp only) <;> intros <;> with_reducible
      (repeat' first
          | exact .refl _ | assumption | apply calmBack | dsimp only [viewMk] | refine (State.applyItem_calm _ _ _).to ?_
          | refine (State.complete_calm _ _ _ _).to ?_ | refine (State.record_calm _ _ _ _ _ _ _).to ?_
          | refine (State.storeItem_calm _ _ _ _).to ?_ | apply calmIte | apply calmIte1 | rfl | intro _ | split)

theorem execConfigWrite_calm (s : State) (n : Fin 8) (tag : BitVec 5) (x : AdmXfer) :
    Ends rl s.view (execConfigWrite n tag x s) := by
  unfold execConfigWrite
  (try dsimp only) <;> intros <;> with_reducible
      (repeat' first
          | exact .refl _ | assumption | apply calmBack | dsimp only [viewMk] | refine (State.admIn_calm _ _ _ _ ?_).to ?_
          | refine (State.configWrite_calm _ _ _).to ?_ | refine (State.startAdm_calm _ _ _ _ _ _ _ ?_).to ?_
          | refine ((State.startAdm_calm _ _ _ _ _ _ _ ?_).get (by assumption)).to ?_ | apply calmIte | apply Ends.ok
          | apply Ends.next | apply Ends.ite | rfl | intro _ | split)

theorem execConfigRead_calm (s : State) (n : Fin 8) (tag : BitVec 5) (x : AdmXfer) :
    Ends rl s.view (execConfigRead n tag x s) := by
  unfold execConfigRead
  (try dsimp only) <;> intros <;> with_reducible
      (repeat' first
          | exact .refl _ | assumption | apply calmBack | dsimp only [viewMk] | refine (State.admOut_calm _ _ _ _ ?_).to ?_
          | refine (State.startAdm_calm _ _ _ _ _ _ _ ?_).to ?_
          | refine ((State.startAdm_calm _ _ _ _ _ _ _ ?_).get (by assumption)).to ?_ | apply calmIte | apply Ends.ok
          | apply Ends.next | apply Ends.ite | rfl | intro _ | split)

theorem State.cairnPost_calm (s : State) (c : Cmd) (b : Bytes) :
    Calm rl s.view (State.cairnPost s c b).view := by
  unfold State.cairnPost
  (try dsimp only) <;> intros <;> with_reducible
      (repeat' first
          | exact .refl _ | assumption | apply calmBack | dsimp only [viewMk] | refine (State.commit_calm _).to ?_
          | refine (State.complete_calm _ _ _ _).to ?_ | refine (State.defer_calm _ _ _).to ?_
          | refine (State.setCairn_calm _ _ _).to ?_ | refine (State.touch_calm _ _).to ?_ | apply calmIte | rfl | intro _ | split)

theorem execCairnPost_calm (s : State) (n : Fin 8) (tag : BitVec 5) (x : AdmXfer) :
    Ends rl s.view (execCairnPost n tag x s) := by
  unfold execCairnPost
  (try dsimp only) <;> intros <;> with_reducible
      (repeat' first
          | exact .refl _ | assumption | apply calmBack | dsimp only [viewMk] | refine (State.admIn_calm _ _ _ _ ?_).to ?_
          | refine (State.cairnPost_calm _ _ _).to ?_ | refine (State.startAdm_calm _ _ _ _ _ _ _ ?_).to ?_
          | refine ((State.startAdm_calm _ _ _ _ _ _ _ ?_).get (by assumption)).to ?_ | apply calmIte | apply Ends.ok
          | apply Ends.next | apply Ends.ite | rfl | intro _ | split)

theorem State.cairnCancel_calm (s : State) (i : Nat) :
    Calm rl s.view (State.cairnCancel s i).1.view := by
  unfold State.cairnCancel
  (try dsimp only) <;> intros <;> with_reducible
      (repeat' first
          | exact .refl _ | assumption | apply calmBack | dsimp only [viewMk] | refine (State.setCairn_calm _ _ _).to ?_
          | refine (State.touch_calm _ _).to ?_ | apply calmIte | apply calmIte1 | rfl | intro _ | split)

theorem execCairnCancel_calm (s : State) (n : Fin 8) (tag : BitVec 5) :
    Ends rl s.view (execCairnCancel n tag s) := by
  unfold execCairnCancel
  (try dsimp only) <;> intros <;> with_reducible
      (repeat' first
          | exact .refl _ | assumption | apply calmBack | dsimp only [viewMk] | refine (State.cairnCancel_calm _ _).to ?_
          | refine (State.commit_calm _).to ?_ | refine (State.complete_calm _ _ _ _).to ?_
          | refine (State.startAdm_calm _ _ _ _ _ _ _ ?_).to ?_
          | refine ((State.startAdm_calm _ _ _ _ _ _ _ ?_).get (by assumption)).to ?_ | apply calmIte | apply calmIte1
          | apply Ends.ok | apply Ends.next | apply Ends.ite | rfl | intro _ | split)

theorem State.imageWrite_calm (s : State) (c : Cmd) (b : Bytes) :
    Calm rl s.view (State.imageWrite s c b).view := by
  unfold State.imageWrite
  (try dsimp only) <;> intros <;> with_reducible
      (repeat' first
          | exact .refl _ | assumption | apply calmBack | dsimp only [viewMk] | refine (State.beginSession_calm _ _).to ?_
          | refine (State.complete_calm _ _ _ _).to ?_ | refine (State.putChunks_calm _ _ _ _ _).to ?_ | apply calmIte
          | apply calmIte1 | rfl | intro _ | split)

theorem execImageWrite_calm (s : State) (n : Fin 8) (tag : BitVec 5) (x : AdmXfer) :
    Ends rl s.view (execImageWrite n tag x s) := by
  unfold execImageWrite
  (try dsimp only) <;> intros <;> with_reducible
      (repeat' first
          | exact .refl _ | assumption | apply calmBack | dsimp only [viewMk] | refine (State.admIn_calm _ _ _ _ ?_).to ?_
          | refine (State.complete_calm _ _ _ _).to ?_ | refine (State.hold_calm _ _ _ _).to ?_
          | refine (State.imageWrite_calm _ _ _).to ?_ | refine (State.startAdm_calm _ _ _ _ _ _ _ ?_).to ?_
          | refine ((State.startAdm_calm _ _ _ _ _ _ _ ?_).get (by assumption)).to ?_ | apply calmIte | apply Ends.ok
          | apply Ends.next | apply Ends.ite | rfl | intro _ | split)

theorem execImageCommit_calm (s : State) (n : Fin 8) (tag : BitVec 5) (copies : Copies) :
    Ends rl s.view (execImageCommit n tag copies s) := by
  unfold execImageCommit
  (try dsimp only) <;> intros <;> with_reducible
      (repeat' first
          | exact .refl _ | assumption | apply calmBack | dsimp only [viewMk] | refine (State.commitImage_calm _ _ _ _).to ?_
          | refine (State.complete_calm _ _ _ _).to ?_ | refine (State.hold_calm _ _ _ _).to ?_
          | refine (State.startAdm_calm _ _ _ _ _ _ _ ?_).to ?_
          | refine ((State.startAdm_calm _ _ _ _ _ _ _ ?_).get (by assumption)).to ?_ | apply calmIte | apply calmIte1
          | apply Ends.ok | apply Ends.next | apply Ends.ite | rfl | intro _ | split)

theorem execImageConfirm_calm (s : State) (n : Fin 8) (tag : BitVec 5) :
    Ends rl s.view (execImageConfirm n tag s) := by
  unfold execImageConfirm
  (try dsimp only) <;> intros <;> with_reducible
      (repeat' first
          | exact .refl _ | assumption | apply calmBack | dsimp only [viewMk] | refine (State.complete_calm _ _ _ _).to ?_
          | refine (State.confirmImage_calm _).to ?_ | refine (State.startAdm_calm _ _ _ _ _ _ _ ?_).to ?_
          | refine ((State.startAdm_calm _ _ _ _ _ _ _ ?_).get (by assumption)).to ?_ | apply calmIte | apply Ends.ok
          | apply Ends.next | apply Ends.ite | rfl | intro _ | split)

theorem State.hookLoad_calm (s : State) (c : Cmd) (b : Bytes) :
    Calm rl s.view (State.hookLoad s c b).view := by
  unfold State.hookLoad
  (try dsimp only) <;> intros <;> with_reducible
      (repeat' first
          | exact .refl _ | assumption | apply calmBack | dsimp only [viewMk] | refine (State.commit_calm _).to ?_
          | refine (State.complete_calm _ _ _ _).to ?_ | refine (State.countF_calm _ _ _).to ?_
          | refine (State.loadSection_calm _ _ _ _).to ?_ | apply calmIte | apply calmIte1 | rfl | intro _ | split)

theorem execHookLoad_calm (s : State) (n : Fin 8) (tag : BitVec 5) (x : AdmXfer) :
    Ends rl s.view (execHookLoad n tag x s) := by
  unfold execHookLoad
  (try dsimp only) <;> intros <;> with_reducible
      (repeat' first
          | exact .refl _ | assumption | apply calmBack | dsimp only [viewMk] | refine (State.admIn_calm _ _ _ _ ?_).to ?_
          | refine (State.hookLoad_calm _ _ _).to ?_ | refine (State.setCmd_calm _ _).to ?_
          | refine (State.stage_calm _ _ _ _ _ _ _).to ?_ | refine (State.startAdm_calm _ _ _ _ _ _ _ ?_).to ?_
          | refine ((State.startAdm_calm _ _ _ _ _ _ _ ?_).get (by assumption)).to ?_ | apply calmIte | apply Ends.ok
          | apply Ends.next | apply Ends.ite | rfl | intro _ | split)

theorem State.endTestCmd_calm (s : State) (n : Nat) (tag : Nat) (rec_ : Bytes) :
    Calm rl s.view (State.endTestCmd s n tag rec_).view := by
  unfold State.endTestCmd
  (try dsimp only) <;> intros <;> with_reducible
      (repeat' first
          | exact .refl _ | assumption | apply calmBack | dsimp only [viewMk] | refine (State.complete_calm _ _ _ _).to ?_
          | refine (State.stage_calm _ _ _ _ _ _ _).to ?_ | apply calmIte | rfl | intro _ | split)

theorem State.noteTest_calm (s : State) (t : SelfTest) (result : Nat) (step : Nat) (detail : Nat) :
    Calm rl s.view (State.noteTest s t result step detail).view := by
  unfold State.noteTest
  (try dsimp only) <;> intros <;> with_reducible
      (repeat' first
          | exact .refl _ | assumption | apply calmBack | dsimp only [viewMk] | refine (State.record_calm _ _ _ _ _ _ _).to ?_
          | apply calmIte | rfl | intro _ | split)

theorem State.endTest_calm (s : State) (t : SelfTest) (result : Nat) (step : Nat) (detail : Nat) :
    Calm rl s.view (State.endTest s t result step detail).view := by
  unfold State.endTest
  (try dsimp only) <;> intros <;> with_reducible
      (repeat' first
          | exact .refl _ | assumption | apply calmBack | dsimp only [viewMk] | refine (State.endSelfRecord_calm _ _ _ _ _).to ?_
          | refine (State.endTestCmd_calm _ _ _ _).to ?_ | refine (State.noteTest_calm _ _ _ _ _).to ?_ | apply calmIte | rfl
          | intro _ | split)

theorem State.latchFlint_calm (s : State) :
    Calm rl s.view (State.latchFlint s).view := by
  unfold State.latchFlint
  (try dsimp only) <;> intros <;> with_reducible
      (repeat' first
          | exact .refl _ | assumption | apply calmBack | dsimp only [viewMk] | refine (State.failEntropy_calm _).to ?_
          | refine (State.setFlint_calm _ _).to ?_ | apply calmIte | rfl | intro _ | split)

theorem State.faultyUnit_calm (s : State) (step : Nat) (unit : Nat) :
    Calm rl s.view (State.faultyUnit s step unit).view := by
  unfold State.faultyUnit
  (try dsimp only) <;> intros <;> with_reducible
      (repeat' first
          | exact .refl _ | assumption | apply calmBack | dsimp only [viewMk] | refine (State.askMeasure_calm _).to ?_
          | refine (State.crystalLost_calm _).to ?_ | refine (State.engineFault_calm _ _ _ _ _).to ?_
          | refine (State.failChannel_calm _ _).to ?_ | refine (State.failLun_calm _ _ _).to ?_
          | refine (State.latchFlint_calm _).to ?_ | apply calmIte | apply RanCalm.done | apply RanCalm.jump | apply RanCalm.stay
          | apply RanCalm.fault | apply RanCalm.ite | rfl | intro _ | split)

theorem State.failTest_calm (s : State) (t : SelfTest) (unit : Nat) :
    Calm rl s.view (State.failTest s t unit).view := by
  unfold State.failTest
  (try dsimp only) <;> intros <;> with_reducible
      (repeat' first
          | exact .refl _ | assumption | apply calmBack | dsimp only [viewMk] | refine (State.endTest_calm _ _ _ _ _).to ?_
          | refine (State.faultyUnit_calm _ _ _).to ?_ | apply calmIte | apply RanCalm.done | apply RanCalm.jump
          | apply RanCalm.stay | apply RanCalm.fault | apply RanCalm.ite | rfl | intro _ | split)

theorem State.nextStep_calm (s : State) (t : SelfTest) :
    Calm rl s.view (State.nextStep s t).view := by
  unfold State.nextStep
  (try dsimp only) <;> intros <;> with_reducible
      (repeat' first
          | exact .refl _ | assumption | apply calmBack | dsimp only [viewMk] | refine (State.endTest_calm _ _ _ _ _).to ?_
          | apply calmIte | rfl | intro _ | split)

theorem State.stepDone_calm (s : State) (t : SelfTest) :
    Calm rl s.view (State.stepDone s t).view := by
  unfold State.stepDone
  (try dsimp only) <;> intros <;> with_reducible
      (repeat' first
          | exact .refl _ | assumption | apply calmBack | dsimp only [viewMk] | refine (State.failTest_calm _ _ _).to ?_
          | refine (State.nextStep_calm _ _).to ?_ | apply calmIte | rfl | intro _ | split)

theorem State.pieceEnds_calm (s : State) (t : SelfTest) (p : Piece) :
    Calm rl s.view (State.pieceEnds s t p).view := by
  unfold State.pieceEnds
  (try dsimp only) <;> intros <;> with_reducible
      (repeat' first
          | exact .refl _ | assumption | apply calmBack | dsimp only [viewMk] | refine (State.countRead_calm _ _).to ?_
          | refine (State.failTest_calm _ _ _).to ?_ | refine (State.noteMedia_calm _ _ _).to ?_
          | refine (State.stepDone_calm _ _).to ?_ | apply calmIte | apply RanCalm.done | apply RanCalm.jump | apply RanCalm.stay
          | apply RanCalm.fault | apply RanCalm.ite | rfl | intro _ | split)

theorem execSelfTestPieceDone_calm (s : State) (p : Piece) :
    Ends rl s.view (execSelfTestPieceDone p s) := by
  unfold execSelfTestPieceDone
  (try dsimp only) <;> intros <;> with_reducible
      (repeat' first
          | exact .refl _ | assumption | apply calmBack | dsimp only [viewMk] | refine (State.endTest_calm _ _ _ _ _).to ?_
          | refine (State.pieceEnds_calm _ _ _).to ?_ | apply calmIte | apply Ends.ok | apply Ends.next | apply Ends.ite | rfl
          | intro _ | split)

theorem execSelfTestStarved_calm (s : State) :
    Ends rl s.view (execSelfTestStarved s) := by
  unfold execSelfTestStarved
  (try dsimp only) <;> intros <;> with_reducible
      (repeat' first
          | exact .refl _ | assumption | apply calmBack | dsimp only [viewMk] | refine (State.endTest_calm _ _ _ _ _).to ?_
          | apply calmIte | apply Ends.ok | apply Ends.next | apply Ends.ite | rfl | intro _ | split)

theorem State.startTest_calm (s : State) (c : Cmd) (kind : Nat) :
    Calm rl s.view (State.startTest s c kind).view := by
  unfold State.startTest
  (try dsimp only) <;> intros <;> with_reducible
      (repeat' first
          | exact .refl _ | assumption | apply calmBack | dsimp only [viewMk] | refine (State.defer_calm _ _ _).to ?_
          | refine (State.record_calm _ _ _ _ _ _ _).to ?_ | refine (State.setCmd_calm _ _).to ?_
          | refine (State.stage_calm _ _ _ _ _ _ _).to ?_ | apply calmIte | rfl | intro _ | split)

theorem execSelfTestShort_calm (s : State) (n : Fin 8) (tag : BitVec 5) :
    Ends rl s.view (execSelfTestShort n tag s) := by
  unfold execSelfTestShort
  (try dsimp only) <;> intros <;> with_reducible
      (repeat' first
          | exact .refl _ | assumption | apply calmBack | dsimp only [viewMk] | refine (State.startAdm_calm _ _ _ _ _ _ _ ?_).to ?_
          | refine ((State.startAdm_calm _ _ _ _ _ _ _ ?_).get (by assumption)).to ?_ | refine (State.startTest_calm _ _ _).to ?_
          | apply calmIte | apply Ends.ok | apply Ends.next | apply Ends.ite | rfl | intro _ | split)

theorem execSelfTestExtended_calm (s : State) (n : Fin 8) (tag : BitVec 5) :
    Ends rl s.view (execSelfTestExtended n tag s) := by
  unfold execSelfTestExtended
  (try dsimp only) <;> intros <;> with_reducible
      (repeat' first
          | exact .refl _ | assumption | apply calmBack | dsimp only [viewMk] | refine (State.startAdm_calm _ _ _ _ _ _ _ ?_).to ?_
          | refine ((State.startAdm_calm _ _ _ _ _ _ _ ?_).get (by assumption)).to ?_ | refine (State.startTest_calm _ _ _).to ?_
          | apply calmIte | apply Ends.ok | apply Ends.next | apply Ends.ite | rfl | intro _ | split)

theorem State.stopTest_calm (s : State) (c : Cmd) :
    Calm rl s.view (State.stopTest s c).view := by
  unfold State.stopTest
  (try dsimp only) <;> intros <;> with_reducible
      (repeat' first
          | exact .refl _ | assumption | apply calmBack | dsimp only [viewMk] | refine (State.complete_calm _ _ _ _).to ?_
          | refine (State.endTest_calm _ _ _ _ _).to ?_ | refine (State.setCmd_calm _ _).to ?_
          | refine (State.stage_calm _ _ _ _ _ _ _).to ?_ | apply calmIte | rfl | intro _ | split)

theorem execSelfTestStop_calm (s : State) (n : Fin 8) (tag : BitVec 5) :
    Ends rl s.view (execSelfTestStop n tag s) := by
  unfold execSelfTestStop
  (try dsimp only) <;> intros <;> with_reducible
      (repeat' first
          | exact .refl _ | assumption | apply calmBack | dsimp only [viewMk] | refine (State.startAdm_calm _ _ _ _ _ _ _ ?_).to ?_
          | refine ((State.startAdm_calm _ _ _ _ _ _ _ ?_).get (by assumption)).to ?_ | refine (State.stopTest_calm _ _).to ?_
          | apply calmIte | apply Ends.ok | apply Ends.next | apply Ends.ite | rfl | intro _ | split)

theorem execRoleChallenge_calm (s : State) (n : Fin 8) (tag : BitVec 5) (x : AdmXfer) :
    Ends rl s.view (execRoleChallenge n tag x s) := by
  unfold execRoleChallenge
  (try dsimp only) <;> intros <;> with_reducible
      (repeat' first
          | exact .refl _ | assumption | apply calmBack | dsimp only [viewMk] | refine (State.admOut_calm _ _ _ _ ?_).to ?_
          | refine (State.defer_calm _ _ _).to ?_ | refine (State.issueChal_calm _ _ _).to ?_
          | refine (State.startAdm_calm _ _ _ _ _ _ _ ?_).to ?_
          | refine ((State.startAdm_calm _ _ _ _ _ _ _ ?_).get (by assumption)).to ?_ | apply calmIte | apply calmIte1
          | apply Ends.ok | apply Ends.next | apply Ends.ite | rfl | intro _ | split)

theorem execRoleResponse_calm (s : State) (n : Fin 8) (tag : BitVec 5) (x : AdmXfer) :
    Ends false s.view (execRoleResponse n tag x s) := by
  unfold execRoleResponse
  (try dsimp only) <;> intros <;> with_reducible
      (repeat' first
          | exact .refl _ | assumption | apply calmBack | dsimp only [viewMk] | refine (State.admIn_calm _ _ _ _ ?_).to ?_
          | refine (State.complete_calm _ _ _ _).to ?_ | refine (State.respond_calm _ _ _).to ?_
          | refine (State.startAdm_calm _ _ _ _ _ _ _ ?_).to ?_
          | refine ((State.startAdm_calm _ _ _ _ _ _ _ ?_).get (by assumption)).to ?_ | apply calmIte | apply calmIte1
          | apply Ends.ok | apply Ends.next | apply Ends.ite | rfl | intro _ | split)

theorem execRoleDrop_calm (s : State) (n : Fin 8) (tag : BitVec 5) :
    Ends rl s.view (execRoleDrop n tag s) := by
  unfold execRoleDrop
  (try dsimp only) <;> intros <;> with_reducible
      (repeat' first
          | exact .refl _ | assumption | apply calmBack | dsimp only [viewMk] | refine (State.complete_calm _ _ _ _).to ?_
          | refine (State.setRole_calm _ _ _ ?_).to ?_ | refine (State.startAdm_calm _ _ _ _ _ _ _ ?_).to ?_
          | refine ((State.startAdm_calm _ _ _ _ _ _ _ ?_).get (by assumption)).to ?_ | apply calmIte | contradiction
          | apply Ends.ok | apply Ends.next | apply Ends.ite | rfl | intro _ | split)

theorem State.keyManage_calm (s : State) (n : Nat) (tag : Nat) (action : Nat) (len : Nat) (own : Bool) (target : Cmd → Bool) (range : State → Cmd → Bool) (f : State → Cmd → State) (hf : ∀ s a0, Calm rl (State.view s) (f s a0).view) :
    Ends rl s.view (State.keyManage s n tag action len own target range f) := by
  unfold State.keyManage
  (try dsimp only) <;> intros <;> with_reducible
      (repeat' first
          | exact .refl _ | assumption | apply calmBack | dsimp only [viewMk] | refine (State.startAdm_calm _ _ _ _ _ _ _ ?_).to ?_
          | refine ((State.startAdm_calm _ _ _ _ _ _ _ ?_).get (by assumption)).to ?_ | refine (hf _ _).to ?_ | apply calmIte
          | apply Ends.ok | apply Ends.next | apply Ends.ite | rfl | intro _ | split)

theorem State.badSecret_calm (s : State) (c : Cmd) :
    Calm rl s.view (State.badSecret s c).view := by
  unfold State.badSecret
  (try dsimp only) <;> intros <;> with_reducible
      (repeat' first
          | exact .refl _ | assumption | apply calmBack | dsimp only [viewMk] | refine (State.complete_calm _ _ _ _).to ?_
          | refine (State.reject_calm _ _ _).to ?_ | refine (State.voidChal_calm _ _).to ?_ | apply calmIte | rfl | intro _ | split)

theorem State.protect_calm (s : State) (c : Cmd) (b : Bytes) :
    Calm rl s.view (State.protect s c b).view := by
  unfold State.protect
  (try dsimp only) <;> intros <;> with_reducible
      (repeat' first
          | exact .refl _ | assumption | apply calmBack | dsimp only [viewMk] | refine (State.badSecret_calm _ _).to ?_
          | refine (State.commit_calm _).to ?_ | refine (State.complete_calm _ _ _ _).to ?_
          | refine (State.record_calm _ _ _ _ _ _ _).to ?_ | apply calmIte | rfl | intro _ | split)

theorem execProtect_calm (s : State) (n : Fin 8) (tag : BitVec 5) (x : AdmXfer) :
    Ends rl s.view (execProtect n tag x s) := by
  unfold execProtect
  (try dsimp only) <;> intros <;> with_reducible
      (repeat' first
          | exact .refl _ | assumption | apply calmBack | dsimp only [viewMk] | refine (State.admIn_calm _ _ _ _ ?_).to ?_
          | refine (State.keyManage_calm _ _ _ _ _ _ _ _ _ ?_).to ?_
          | refine ((State.keyManage_calm _ _ _ _ _ _ _ _ _ ?_).get (by assumption)).to ?_ | refine (State.protect_calm _ _ _).to ?_
          | apply calmIte | apply Ends.ok | apply Ends.next | apply Ends.ite | rfl | intro _ | split)

theorem State.loadKey_calm (s : State) (c : Cmd) (b : Bytes) :
    Calm rl s.view (State.loadKey s c b).view := by
  unfold State.loadKey
  (try dsimp only) <;> intros <;> with_reducible
      (repeat' first
          | exact .refl _ | assumption | apply calmBack | dsimp only [viewMk] | refine (State.badSecret_calm _ _).to ?_
          | refine (State.complete_calm _ _ _ _).to ?_ | refine (State.record_calm _ _ _ _ _ _ _).to ?_ | apply calmIte | rfl
          | intro _ | split)

theorem execLoad_calm (s : State) (n : Fin 8) (tag : BitVec 5) (x : AdmXfer) :
    Ends rl s.view (execLoad n tag x s) := by
  unfold execLoad
  (try dsimp only) <;> intros <;> with_reducible
      (repeat' first
          | exact .refl _ | assumption | apply calmBack | dsimp only [viewMk] | refine (State.admIn_calm _ _ _ _ ?_).to ?_
          | refine (State.keyManage_calm _ _ _ _ _ _ _ _ _ ?_).to ?_
          | refine ((State.keyManage_calm _ _ _ _ _ _ _ _ _ ?_).get (by assumption)).to ?_ | refine (State.loadKey_calm _ _ _).to ?_
          | apply calmIte | apply Ends.ok | apply Ends.next | apply Ends.ite | rfl | intro _ | split)

theorem execUnload_calm (s : State) (n : Fin 8) (tag : BitVec 5) :
    Ends rl s.view (execUnload n tag s) := by
  unfold execUnload
  (try dsimp only) <;> intros <;> with_reducible
      (repeat' first
          | exact .refl _ | assumption | apply calmBack | dsimp only [viewMk] | refine (State.complete_calm _ _ _ _).to ?_
          | refine (State.keyManage_calm _ _ _ _ _ _ _ _ _ ?_).to ?_
          | refine ((State.keyManage_calm _ _ _ _ _ _ _ _ _ ?_).get (by assumption)).to ?_ | apply calmIte | apply Ends.ok
          | apply Ends.next | apply Ends.ite | rfl | intro _ | split)

theorem execSetConnKey_calm (s : State) (n : Fin 8) (tag : BitVec 5) (x : AdmXfer) :
    Ends rl s.view (execSetConnKey n tag x s) := by
  unfold execSetConnKey
  (try dsimp only) <;> intros <;> with_reducible
      (repeat' first
          | exact .refl _ | assumption | apply calmBack | dsimp only [viewMk] | refine (State.admIn_calm _ _ _ _ ?_).to ?_
          | refine (State.commit_calm _).to ?_ | refine (State.complete_calm _ _ _ _).to ?_
          | refine (State.keyManage_calm _ _ _ _ _ _ _ _ _ ?_).to ?_
          | refine ((State.keyManage_calm _ _ _ _ _ _ _ _ _ ?_).get (by assumption)).to ?_ | apply calmIte | apply Ends.ok
          | apply Ends.next | apply Ends.ite | rfl | intro _ | split)

theorem State.clearConnKey_calm (s : State) (slot : Nat) :
    Calm rl s.view (State.clearConnKey s slot).view := by
  unfold State.clearConnKey
  (try dsimp only) <;> intros <;> with_reducible
      (repeat' first
          | exact .refl _ | assumption | apply calmBack | dsimp only [viewMk] | refine (State.commit_calm _).to ?_
          | refine (State.connDown_calm _ _).to ?_ | refine (State.record_calm _ _ _ _ _ _ _).to ?_ | apply calmIte | apply calmIte1
          | apply calmFold | apply calmFold1 | rfl | intro _ | split)

theorem execClearConnKey_calm (s : State) (n : Fin 8) (tag : BitVec 5) :
    Ends rl s.view (execClearConnKey n tag s) := by
  unfold execClearConnKey
  (try dsimp only) <;> intros <;> with_reducible
      (repeat' first
          | exact .refl _ | assumption | apply calmBack | dsimp only [viewMk] | refine (State.clearConnKey_calm _ _).to ?_
          | refine (State.complete_calm _ _ _ _).to ?_ | refine (State.keyManage_calm _ _ _ _ _ _ _ _ _ ?_).to ?_
          | refine ((State.keyManage_calm _ _ _ _ _ _ _ _ _ ?_).get (by assumption)).to ?_ | apply calmIte | apply Ends.ok
          | apply Ends.next | apply Ends.ite | rfl | intro _ | split)

theorem State.setInstaller_calm (s : State) (c : Cmd) (b : Bytes) :
    Calm rl s.view (State.setInstaller s c b).view := by
  unfold State.setInstaller
  (try dsimp only) <;> intros <;> with_reducible
      (repeat' first
          | exact .refl _ | assumption | apply calmBack | dsimp only [viewMk] | refine (State.badSecret_calm _ _).to ?_
          | refine (State.commit_calm _).to ?_ | refine (State.complete_calm _ _ _ _).to ?_ | apply calmIte | rfl | intro _ | split)

theorem execSetInstaller_calm (s : State) (n : Fin 8) (tag : BitVec 5) (x : AdmXfer) :
    Ends rl s.view (execSetInstaller n tag x s) := by
  unfold execSetInstaller
  (try dsimp only) <;> intros <;> with_reducible
      (repeat' first
          | exact .refl _ | assumption | apply calmBack | dsimp only [viewMk] | refine (State.admIn_calm _ _ _ _ ?_).to ?_
          | refine (State.keyManage_calm _ _ _ _ _ _ _ _ _ ?_).to ?_
          | refine ((State.keyManage_calm _ _ _ _ _ _ _ _ _ ?_).get (by assumption)).to ?_
          | refine (State.setInstaller_calm _ _ _).to ?_ | apply calmIte | apply Ends.ok | apply Ends.next | apply Ends.ite | rfl
          | intro _ | split)

theorem execStatus_calm (s : State) (n : Fin 8) (tag : BitVec 5) (x : AdmXfer) :
    Ends rl s.view (execStatus n tag x s) := by
  unfold execStatus
  (try dsimp only) <;> intros <;> with_reducible
      (repeat' first
          | exact .refl _ | assumption | apply calmBack | dsimp only [viewMk] | refine (State.admOut_calm _ _ _ _ ?_).to ?_
          | refine (State.keyManage_calm _ _ _ _ _ _ _ _ _ ?_).to ?_
          | refine ((State.keyManage_calm _ _ _ _ _ _ _ _ _ ?_).get (by assumption)).to ?_ | apply calmIte | apply Ends.ok
          | apply Ends.next | apply Ends.ite | rfl | intro _ | split)

theorem execEntropyGet_calm (s : State) (n : Fin 8) (tag : BitVec 5) (x : AdmXfer) :
    Ends rl s.view (execEntropyGet n tag x s) := by
  unfold execEntropyGet
  (try dsimp only) <;> intros <;> with_reducible
      (repeat' first
          | exact .refl _ | assumption | apply calmBack | dsimp only [viewMk] | refine (State.admOut_calm _ _ _ _ ?_).to ?_
          | refine (State.complete_calm _ _ _ _).to ?_ | refine (State.defer_calm _ _ _).to ?_ | refine (State.draw_calm _ _).to ?_
          | refine (State.setCmd_calm _ _).to ?_ | refine (State.stage_calm _ _ _ _ _ _ _).to ?_
          | refine (State.startAdm_calm _ _ _ _ _ _ _ ?_).to ?_
          | refine ((State.startAdm_calm _ _ _ _ _ _ _ ?_).get (by assumption)).to ?_ | apply calmIte | apply calmIte1
          | apply Ends.ok | apply Ends.next | apply Ends.ite | rfl | intro _ | split)

theorem execUsbAttach_calm (s : State) :
    Ends rl s.view (execUsbAttach s) := by
  unfold execUsbAttach
  (try dsimp only) <;> intros <;> with_reducible
      (repeat' first
          | exact .refl _ | assumption | apply calmBack | dsimp only [viewMk] | apply calmIte | apply Ends.ok | apply Ends.next
          | apply Ends.ite | rfl | intro _ | split)

theorem execUsbDisconnect_calm (s : State) :
    Ends rl s.view (execUsbDisconnect s) := by
  unfold execUsbDisconnect
  (try dsimp only) <;> intros <;> with_reducible
      (repeat' first
          | exact .refl _ | assumption | apply calmBack | dsimp only [viewMk] | refine (State.endPath_calm _ _).to ?_
          | apply calmIte | apply Ends.ok | apply Ends.next | apply Ends.ite | rfl | intro _ | split)

theorem execUsbBusReset_calm (s : State) (underWay : Bool) (high : Bool) :
    Ends rl s.view (execUsbBusReset underWay high s) := by
  unfold execUsbBusReset
  (try dsimp only) <;> intros <;> with_reducible
      (repeat' first
          | exact .refl _ | assumption | apply calmBack | dsimp only [viewMk] | refine (State.bump_calm _ _).to ?_
          | refine (State.record_calm _ _ _ _ _ _ _).to ?_ | apply calmIte | apply Ends.ok | apply Ends.next | apply Ends.ite | rfl
          | intro _ | split)

theorem State.stall_calm (s : State) :
    Calm rl s.view (State.stall s).view := by
  unfold State.stall
  (try dsimp only) <;> intros <;> with_reducible
      (repeat' first
          | exact .refl _ | assumption | apply calmBack | dsimp only [viewMk] | refine (State.emit_calm _ _).to ?_ | apply calmIte
          | rfl | intro _ | split)

theorem State.answer_calm (s : State) (b : Bytes) (len : Nat) :
    Calm rl s.view (State.answer s b len).view := by
  unfold State.answer
  (try dsimp only) <;> intros <;> with_reducible
      (repeat' first
          | exact .refl _ | assumption | apply calmBack | dsimp only [viewMk] | refine (State.emit_calm _ _).to ?_ | apply calmIte
          | rfl | intro _ | split)

theorem State.setHalt_calm (s : State) (ep : Nat) (on : Bool) :
    Calm rl s.view (State.setHalt s ep on).view := by
  unfold State.setHalt
  (try dsimp only) <;> intros <;> with_reducible
      (repeat' first
          | exact .refl _ | assumption | apply calmBack | dsimp only [viewMk] | refine (State.stall_calm _).to ?_ | apply calmIte
          | rfl | intro _ | split)

theorem State.usbStatus_calm (s : State) (type : Nat) (index : Nat) (len : Nat) :
    Calm rl s.view (State.usbStatus s type index len).view := by
  unfold State.usbStatus
  (try dsimp only) <;> intros <;> with_reducible
      (repeat' first
          | exact .refl _ | assumption | apply calmBack | dsimp only [viewMk] | refine (State.answer_calm _ _ _).to ?_
          | refine (State.stall_calm _).to ?_ | apply calmIte | rfl | intro _ | split)

theorem State.setConfiguration_calm (s : State) (v : Nat) :
    Calm rl s.view (State.setConfiguration s v).view := by
  unfold State.setConfiguration
  (try dsimp only) <;> intros <;> with_reducible
      (repeat' first
          | exact .refl _ | assumption | apply calmBack | dsimp only [viewMk] | refine (State.stall_calm _).to ?_ | apply calmIte
          | rfl | intro _ | split)

theorem State.standardRequest_calm (s : State) (type : Nat) (req : Nat) (value : Nat) (index : Nat) (len : Nat) :
    Calm rl s.view (State.standardRequest s type req value index len).view := by
  unfold State.standardRequest
  (try dsimp only) <;> intros <;> with_reducible
      (repeat' first
          | exact .refl _ | assumption | apply calmBack | dsimp only [viewMk] | refine (State.answer_calm _ _ _).to ?_
          | refine (State.setConfiguration_calm _ _).to ?_ | refine (State.setHalt_calm _ _ _).to ?_
          | refine (State.stall_calm _).to ?_ | refine (State.usbStatus_calm _ _ _ _).to ?_ | apply calmIte | rfl | intro _ | split)

theorem execUsbStandardRequest_calm (s : State) (type : BitVec 8) (req : BitVec 8) (value : BitVec 16) (index : BitVec 16) (len : BitVec 16) :
    Ends rl s.view (execUsbStandardRequest type req value index len s) := by
  unfold execUsbStandardRequest
  (try dsimp only) <;> intros <;> with_reducible
      (repeat' first
          | exact .refl _ | assumption | apply calmBack | dsimp only [viewMk]
          | refine (State.standardRequest_calm _ _ _ _ _ _).to ?_ | apply calmIte | apply Ends.ok | apply Ends.next | apply Ends.ite
          | rfl | intro _ | split)

theorem State.vendor_calm (s : State) (role : Nat) (fields : Bool) (states : Bool) (f : State → State) (hf : ∀ s, Calm rl (State.view s) (f s).view) :
    Ends rl s.view (State.vendor s role fields states f) := by
  unfold State.vendor
  (try dsimp only) <;> intros <;> with_reducible
      (repeat' first
          | exact .refl _ | assumption | apply calmBack | dsimp only [viewMk] | refine (State.stall_calm _).to ?_
          | refine (hf _).to ?_ | apply calmIte | apply Ends.ok | apply Ends.next | apply Ends.ite | rfl | intro _ | split)

theorem execGetState_calm (s : State) (value : BitVec 16) (index : BitVec 16) (len : BitVec 16) :
    Ends rl s.view (execGetState value index len s) := by
  unfold execGetState
  (try dsimp only) <;> intros <;> with_reducible
      (repeat' first
          | exact .refl _ | assumption | apply calmBack | dsimp only [viewMk] | refine (State.answer_calm _ _ _).to ?_
          | refine (State.vendor_calm _ _ _ _ _ ?_).to ?_ | refine ((State.vendor_calm _ _ _ _ _ ?_).get (by assumption)).to ?_
          | apply calmIte | apply Ends.ok | apply Ends.next | apply Ends.ite | rfl | intro _ | split)

theorem execGetIdentify_calm (s : State) (value : BitVec 16) (index : BitVec 16) (len : BitVec 16) :
    Ends rl s.view (execGetIdentify value index len s) := by
  unfold execGetIdentify
  (try dsimp only) <;> intros <;> with_reducible
      (repeat' first
          | exact .refl _ | assumption | apply calmBack | dsimp only [viewMk] | refine (State.answer_calm _ _ _).to ?_
          | refine (State.vendor_calm _ _ _ _ _ ?_).to ?_ | refine ((State.vendor_calm _ _ _ _ _ ?_).get (by assumption)).to ?_
          | apply calmIte | apply Ends.ok | apply Ends.next | apply Ends.ite | rfl | intro _ | split)

theorem execChallenge_calm (s : State) (value : BitVec 16) (index : BitVec 16) (len : BitVec 16) :
    Ends rl s.view (execChallenge value index len s) := by
  unfold execChallenge
  (try dsimp only) <;> intros <;> with_reducible
      (repeat' first
          | exact .refl _ | assumption | apply calmBack | dsimp only [viewMk] | refine (State.answer_calm _ _ _).to ?_
          | refine (State.issueChal_calm _ _ _).to ?_ | refine (State.stall_calm _).to ?_
          | refine (State.vendor_calm _ _ _ _ _ ?_).to ?_ | refine ((State.vendor_calm _ _ _ _ _ ?_).get (by assumption)).to ?_
          | apply calmIte | apply calmIte1 | apply Ends.ok | apply Ends.next | apply Ends.ite | rfl | intro _ | split)

theorem execResponse_calm (s : State) (value : BitVec 16) (index : BitVec 16) (data : Bytes) :
    Ends false s.view (execResponse value index data s) := by
  unfold execResponse
  (try dsimp only) <;> intros <;> with_reducible
      (repeat' first
          | exact .refl _ | assumption | apply calmBack | dsimp only [viewMk] | refine (State.respond_calm _ _ _).to ?_
          | refine (State.vendor_calm _ _ _ _ _ ?_).to ?_ | refine ((State.vendor_calm _ _ _ _ _ ?_).get (by assumption)).to ?_
          | apply calmIte | apply calmIte1 | apply Ends.ok | apply Ends.next | apply Ends.ite | rfl | intro _ | split)

theorem execDrop_calm (s : State) (value : BitVec 16) (index : BitVec 16) (data : Bytes) :
    Ends rl s.view (execDrop value index data s) := by
  unfold execDrop
  (try dsimp only) <;> intros <;> with_reducible
      (repeat' first
          | exact .refl _ | assumption | apply calmBack | dsimp only [viewMk] | refine (State.setRole_calm _ _ _ ?_).to ?_
          | refine (State.vendor_calm _ _ _ _ _ ?_).to ?_ | refine ((State.vendor_calm _ _ _ _ _ ?_).get (by assumption)).to ?_
          | apply calmIte | contradiction | apply Ends.ok | apply Ends.next | apply Ends.ite | rfl | intro _ | split)

theorem execImageBegin_calm (s : State) (value : BitVec 16) (index : BitVec 16) (data : Bytes) :
    Ends rl s.view (execImageBegin value index data s) := by
  unfold execImageBegin
  (try dsimp only) <;> intros <;> with_reducible
      (repeat' first
          | exact .refl _ | assumption | apply calmBack | dsimp only [viewMk] | refine (State.beginSession_calm _ _).to ?_
          | refine (State.vendor_calm _ _ _ _ _ ?_).to ?_ | refine ((State.vendor_calm _ _ _ _ _ ?_).get (by assumption)).to ?_
          | apply calmIte | apply Ends.ok | apply Ends.next | apply Ends.ite | rfl | intro _ | split)

theorem State.usbChunk_calm (s : State) (unit : Nat) (b : Bytes) :
    OptCalm rl s.view (State.usbChunk s unit b) := by
  unfold State.usbChunk
  (try dsimp only) <;> intros <;> with_reducible
      (repeat' first
          | exact .refl _ | assumption | apply calmBack | dsimp only [viewMk] | refine (State.putChunks_calm _ _ _ _ _).to ?_
          | apply calmIte | apply calmIte1 | apply OptCalm.none | apply OptCalm.some | apply OptCalm.ite | rfl | intro _ | split)

theorem execImageChunk_calm (s : State) (value : BitVec 16) (index : BitVec 16) (data : Bytes) :
    Ends rl s.view (execImageChunk value index data s) := by
  unfold execImageChunk
  (try dsimp only) <;> intros <;> with_reducible
      (repeat' first
          | exact .refl _ | assumption | apply calmBack | dsimp only [viewMk] | refine (State.stall_calm _).to ?_
          | refine (State.usbChunk_calm _ _ _).to ?_ | refine ((State.usbChunk_calm _ _ _).get (by assumption)).to ?_
          | refine ((State.usbChunk_calm _ _ _).to ?_).getD ?_ | refine (State.vendor_calm _ _ _ _ _ ?_).to ?_
          | refine ((State.vendor_calm _ _ _ _ _ ?_).get (by assumption)).to ?_ | apply calmIte | apply Ends.ok | apply Ends.next
          | apply Ends.ite | rfl | intro _ | split)

theorem execImageStream_calm (s : State) (value : BitVec 16) (index : BitVec 16) (data : Bytes) :
    Ends rl s.view (execImageStream value index data s) := by
  unfold execImageStream
  (try dsimp only) <;> intros <;> with_reducible
      (repeat' first
          | exact .refl _ | assumption | apply calmBack | dsimp only [viewMk] | refine (State.stall_calm _).to ?_
          | refine (State.vendor_calm _ _ _ _ _ ?_).to ?_ | refine ((State.vendor_calm _ _ _ _ _ ?_).get (by assumption)).to ?_
          | apply calmIte | apply Ends.ok | apply Ends.next | apply Ends.ite | rfl | intro _ | split)

theorem execStreamUnit_calm (s : State) (data : BitVec 32768) :
    Ends rl s.view (execStreamUnit data s) := by
  unfold execStreamUnit
  (try dsimp only) <;> intros <;> with_reducible
      (repeat' first
          | exact .refl _ | assumption | apply calmBack | dsimp only [viewMk] | refine (State.usbChunk_calm _ _ _).to ?_
          | refine ((State.usbChunk_calm _ _ _).get (by assumption)).to ?_ | refine ((State.usbChunk_calm _ _ _).to ?_).getD ?_
          | apply calmIte | apply Ends.ok | apply Ends.next | apply Ends.ite | rfl | intro _ | split)

theorem execUsbImageCommit_calm (s : State) (value : BitVec 16) (index : BitVec 16) (data : Bytes) (copies : Copies) :
    Ends rl s.view (execUsbImageCommit value index data copies s) := by
  unfold execUsbImageCommit
  (try dsimp only) <;> intros <;> with_reducible
      (repeat' first
          | exact .refl _ | assumption | apply calmBack | dsimp only [viewMk] | refine (State.commitImage_calm _ _ _ _).to ?_
          | refine (State.stall_calm _).to ?_ | refine (State.vendor_calm _ _ _ _ _ ?_).to ?_
          | refine ((State.vendor_calm _ _ _ _ _ ?_).get (by assumption)).to ?_ | apply calmIte | apply calmIte1 | apply Ends.ok
          | apply Ends.next | apply Ends.ite | rfl | intro _ | split)

theorem execUsbImageConfirm_calm (s : State) (value : BitVec 16) (index : BitVec 16) (data : Bytes) :
    Ends rl s.view (execUsbImageConfirm value index data s) := by
  unfold execUsbImageConfirm
  (try dsimp only) <;> intros <;> with_reducible
      (repeat' first
          | exact .refl _ | assumption | apply calmBack | dsimp only [viewMk] | refine (State.confirmImage_calm _).to ?_
          | refine (State.stall_calm _).to ?_ | refine (State.vendor_calm _ _ _ _ _ ?_).to ?_
          | refine ((State.vendor_calm _ _ _ _ _ ?_).get (by assumption)).to ?_ | apply calmIte | apply Ends.ok | apply Ends.next
          | apply Ends.ite | rfl | intro _ | split)

theorem execImageStatus_calm (s : State) (value : BitVec 16) (index : BitVec 16) (len : BitVec 16) :
    Ends rl s.view (execImageStatus value index len s) := by
  unfold execImageStatus
  (try dsimp only) <;> intros <;> with_reducible
      (repeat' first
          | exact .refl _ | assumption | apply calmBack | dsimp only [viewMk] | refine (State.answer_calm _ _ _).to ?_
          | refine (State.vendor_calm _ _ _ _ _ ?_).to ?_ | refine ((State.vendor_calm _ _ _ _ _ ?_).get (by assumption)).to ?_
          | apply calmIte | apply Ends.ok | apply Ends.next | apply Ends.ite | rfl | intro _ | split)

theorem execLogOpen_calm (s : State) (value : BitVec 16) (index : BitVec 16) (data : Bytes) (gone : List (BitVec 16)) :
    Ends rl s.view (execLogOpen value index data gone s) := by
  unfold execLogOpen
  (try dsimp only) <;> intros <;> with_reducible
      (repeat' first
          | exact .refl _ | assumption | apply calmBack | dsimp only [viewMk] | refine (State.emit_calm _ _).to ?_
          | refine (State.logCopy_calm _ _ _ _ _ _).to ?_ | refine (State.vendor_calm _ _ _ _ _ ?_).to ?_
          | refine ((State.vendor_calm _ _ _ _ _ ?_).get (by assumption)).to ?_ | apply calmIte | apply calmIte1 | apply Ends.ok
          | apply Ends.next | apply Ends.ite | rfl | intro _ | split)

theorem execRawRead_calm (s : State) (value : BitVec 16) (index : BitVec 16) (data : Bytes) (raw : Bytes) :
    Ends rl s.view (execRawRead value index data raw s) := by
  unfold execRawRead
  (try dsimp only) <;> intros <;> with_reducible
      (repeat' first
          | exact .refl _ | assumption | apply calmBack | dsimp only [viewMk] | refine (State.emit_calm _ _).to ?_
          | refine (State.queueOp_calm _ _).to ?_ | refine (State.vendor_calm _ _ _ _ _ ?_).to ?_
          | refine ((State.vendor_calm _ _ _ _ _ ?_).get (by assumption)).to ?_ | apply calmIte | apply Ends.ok | apply Ends.next
          | apply Ends.ite | rfl | intro _ | split)

theorem execReboot_calm (s : State) (value : BitVec 16) (index : BitVec 16) (data : Bytes) :
    Ends rl s.view (execReboot value index data s) := by
  unfold execReboot
  (try dsimp only) <;> intros <;> with_reducible
      (repeat' first
          | exact .refl _ | assumption | apply calmBack | dsimp only [viewMk] | refine (State.restart_calm _ _ _).to ?_
          | refine (State.vendor_calm _ _ _ _ _ ?_).to ?_ | refine ((State.vendor_calm _ _ _ _ _ ?_).get (by assumption)).to ?_
          | apply calmIte | apply Ends.ok | apply Ends.next | apply Ends.ite | rfl | intro _ | split)

theorem runBelion_calm (s : State) (i : Instr) :
    Ends rl s.view (runBelion i s) := by
  cases i <;> dsimp only [runBelion] <;> first | exact .ok (.refl _) | with_reducible
      (repeat' first
          | exact .refl _ | assumption | apply calmBack | dsimp only [viewMk] | refine (execAdc_calm _ _ _ _ _ _).to ?_
          | refine ((execAdc_calm _ _ _ _ _ _).get (by assumption)).to ?_ | refine (execAdd_calm _ _ _ _ _ _).to ?_
          | refine ((execAdd_calm _ _ _ _ _ _).get (by assumption)).to ?_ | refine (execAddi_calm _ _ _ _ _ _).to ?_
          | refine ((execAddi_calm _ _ _ _ _ _).get (by assumption)).to ?_ | refine (execAddr_calm _ _ _ _).to ?_
          | refine ((execAddr_calm _ _ _ _).get (by assumption)).to ?_ | refine (execAnd_calm _ _ _ _ _ _).to ?_
          | refine ((execAnd_calm _ _ _ _ _ _).get (by assumption)).to ?_ | refine (execAndi_calm _ _ _ _ _ _).to ?_
          | refine ((execAndi_calm _ _ _ _ _ _).get (by assumption)).to ?_ | refine (execAndn_calm _ _ _ _ _ _).to ?_
          | refine ((execAndn_calm _ _ _ _ _ _).get (by assumption)).to ?_ | refine (execBCond_calm _ _ _ _).to ?_
          | refine ((execBCond_calm _ _ _ _).get (by assumption)).to ?_ | refine (execBdly_calm _ _ _ _ _).to ?_
          | refine ((execBdly_calm _ _ _ _ _).get (by assumption)).to ?_ | refine (execBmode_calm _ _ _ _ _).to ?_
          | refine ((execBmode_calm _ _ _ _ _).get (by assumption)).to ?_ | refine (execBres_calm _ _ _ _).to ?_
          | refine ((execBres_calm _ _ _ _).get (by assumption)).to ?_ | refine (execBswap_calm _ _ _ _ _).to ?_
          | refine ((execBswap_calm _ _ _ _ _).get (by assumption)).to ?_ | refine (execCallCond_calm _ _ _ _).to ?_
          | refine ((execCallCond_calm _ _ _ _).get (by assumption)).to ?_ | refine (execCesel_calm _ _ _ _).to ?_
          | refine ((execCesel_calm _ _ _ _).get (by assumption)).to ?_ | refine (execCfire_calm _ _ _ _ _).to ?_
          | refine ((execCfire_calm _ _ _ _ _).get (by assumption)).to ?_ | refine (execClkh_calm _ _ _ _ _).to ?_
          | refine ((execClkh_calm _ _ _ _ _).get (by assumption)).to ?_ | refine (execClkl_calm _ _ _ _ _).to ?_
          | refine ((execClkl_calm _ _ _ _ _).get (by assumption)).to ?_ | refine (execClz_calm _ _ _ _ _).to ?_
          | refine ((execClz_calm _ _ _ _ _).get (by assumption)).to ?_ | refine (execCmd_calm _ _ _ _).to ?_
          | refine ((execCmd_calm _ _ _ _).get (by assumption)).to ?_ | refine (execCmp_calm _ _ _ _ _).to ?_
          | refine ((execCmp_calm _ _ _ _ _).get (by assumption)).to ?_ | refine (execCmpi_calm _ _ _ _ _).to ?_
          | refine ((execCmpi_calm _ _ _ _ _).get (by assumption)).to ?_ | refine (execCrcw_calm _ _ _ _ _ _).to ?_
          | refine ((execCrcw_calm _ _ _ _ _ _).get (by assumption)).to ?_ | refine (execDin_calm _ _ _ _).to ?_
          | refine ((execDin_calm _ _ _ _).get (by assumption)).to ?_ | refine (execDinm_calm _ _ _ _ _).to ?_
          | refine ((execDinm_calm _ _ _ _ _).get (by assumption)).to ?_ | refine (execDout_calm _ _ _).to ?_
          | refine ((execDout_calm _ _ _).get (by assumption)).to ?_ | refine (execDoutm_calm _ _ _ _).to ?_
          | refine ((execDoutm_calm _ _ _ _).get (by assumption)).to ?_ | refine (execEclr_calm _ _ _ _).to ?_
          | refine ((execEclr_calm _ _ _ _).get (by assumption)).to ?_ | refine (execEget_calm _ _ _ _).to ?_
          | refine ((execEget_calm _ _ _ _).get (by assumption)).to ?_ | refine (execFence_calm _ _ _ _ _).to ?_
          | refine ((execFence_calm _ _ _ _ _).get (by assumption)).to ?_ | refine (execGpin_calm _ _ _ _ _).to ?_
          | refine ((execGpin_calm _ _ _ _ _).get (by assumption)).to ?_ | refine (execGpout_calm _ _ _ _ _).to ?_
          | refine ((execGpout_calm _ _ _ _ _).get (by assumption)).to ?_ | refine (execHalt_calm _ _ _ _ _).to ?_
          | refine ((execHalt_calm _ _ _ _ _).get (by assumption)).to ?_ | refine (execHend_calm _ _ _).to ?_
          | refine ((execHend_calm _ _ _).get (by assumption)).to ?_ | refine (execHload_calm _ _ _ _ _).to ?_
          | refine ((execHload_calm _ _ _ _ _).get (by assumption)).to ?_ | refine (execHlog_calm _ _ _ _ _).to ?_
          | refine ((execHlog_calm _ _ _ _ _).get (by assumption)).to ?_ | refine (execImgchk_calm _ _ _ _ _).to ?_
          | refine ((execImgchk_calm _ _ _ _ _).get (by assumption)).to ?_ | refine (execJalr_calm _ _ _ _ _).to ?_
          | refine ((execJalr_calm _ _ _ _ _).get (by assumption)).to ?_ | refine (execJr_calm _ _ _ _).to ?_
          | refine ((execJr_calm _ _ _ _).get (by assumption)).to ?_ | refine (execLdb_calm _ _ _ _ _ _).to ?_
          | refine ((execLdb_calm _ _ _ _ _ _).get (by assumption)).to ?_ | refine (execLdh_calm _ _ _ _ _ _).to ?_
          | refine ((execLdh_calm _ _ _ _ _ _).get (by assumption)).to ?_ | refine (execLdw_calm _ _ _ _ _ _).to ?_
          | refine ((execLdw_calm _ _ _ _ _ _).get (by assumption)).to ?_ | refine (execLui_calm _ _ _ _).to ?_
          | refine ((execLui_calm _ _ _ _).get (by assumption)).to ?_ | refine (execMaxu_calm _ _ _ _ _ _).to ?_
          | refine ((execMaxu_calm _ _ _ _ _ _).get (by assumption)).to ?_ | refine (execMback_calm _ _ _ _ _).to ?_
          | refine ((execMback_calm _ _ _ _ _).get (by assumption)).to ?_ | refine (execMbdb_calm _ _ _).to ?_
          | refine ((execMbdb_calm _ _ _).get (by assumption)).to ?_ | refine (execMbfree_calm _ _ _).to ?_
          | refine ((execMbfree_calm _ _ _).get (by assumption)).to ?_ | refine (execMbrd_calm _ _ _ _ _).to ?_
          | refine ((execMbrd_calm _ _ _ _ _).get (by assumption)).to ?_ | refine (execMbsend_calm _ _ _ _ _).to ?_
          | refine ((execMbsend_calm _ _ _ _ _).get (by assumption)).to ?_ | refine (execMbstat_calm _ _ _).to ?_
          | refine ((execMbstat_calm _ _ _).get (by assumption)).to ?_ | refine (execMbwr_calm _ _ _ _ _).to ?_
          | refine ((execMbwr_calm _ _ _ _ _).get (by assumption)).to ?_ | refine (execMinu_calm _ _ _ _ _ _).to ?_
          | refine ((execMinu_calm _ _ _ _ _ _).get (by assumption)).to ?_ | refine (execMul_calm _ _ _ _ _ _).to ?_
          | refine ((execMul_calm _ _ _ _ _ _).get (by assumption)).to ?_ | refine (execMulhu_calm _ _ _ _ _ _).to ?_
          | refine ((execMulhu_calm _ _ _ _ _ _).get (by assumption)).to ?_ | refine (execNop_calm _ _).to ?_
          | refine ((execNop_calm _ _).get (by assumption)).to ?_ | refine (execOpdone_calm _ _ _ _).to ?_
          | refine ((execOpdone_calm _ _ _ _).get (by assumption)).to ?_ | refine (execOpget_calm _ _ _ _ _).to ?_
          | refine ((execOpget_calm _ _ _ _ _).get (by assumption)).to ?_ | refine (execOr_calm _ _ _ _ _ _).to ?_
          | refine ((execOr_calm _ _ _ _ _ _).get (by assumption)).to ?_ | refine (execOri_calm _ _ _ _ _ _).to ?_
          | refine ((execOri_calm _ _ _ _ _ _).get (by assumption)).to ?_ | refine (execPopc_calm _ _ _ _ _).to ?_
          | refine ((execPopc_calm _ _ _ _ _).get (by assumption)).to ?_ | refine (execRdb_calm _ _ _ _).to ?_
          | refine ((execRdb_calm _ _ _ _).get (by assumption)).to ?_ | refine (execRor_calm _ _ _ _ _ _).to ?_
          | refine ((execRor_calm _ _ _ _ _ _).get (by assumption)).to ?_ | refine (execSar_calm _ _ _ _ _ _).to ?_
          | refine ((execSar_calm _ _ _ _ _ _).get (by assumption)).to ?_ | refine (execSari_calm _ _ _ _ _ _).to ?_
          | refine ((execSari_calm _ _ _ _ _ _).get (by assumption)).to ?_ | refine (execSbc_calm _ _ _ _ _ _).to ?_
          | refine ((execSbc_calm _ _ _ _ _ _).get (by assumption)).to ?_ | refine (execSetstate_calm _ _ _ _ _).to ?_
          | refine ((execSetstate_calm _ _ _ _ _).get (by assumption)).to ?_ | refine (execSev_calm _ _ _).to ?_
          | refine ((execSev_calm _ _ _).get (by assumption)).to ?_ | refine (execShl_calm _ _ _ _ _ _).to ?_
          | refine ((execShl_calm _ _ _ _ _ _).get (by assumption)).to ?_ | refine (execShli_calm _ _ _ _ _ _).to ?_
          | refine ((execShli_calm _ _ _ _ _ _).get (by assumption)).to ?_ | refine (execShr_calm _ _ _ _ _ _).to ?_
          | refine ((execShr_calm _ _ _ _ _ _).get (by assumption)).to ?_ | refine (execShri_calm _ _ _ _ _ _).to ?_
          | refine ((execShri_calm _ _ _ _ _ _).get (by assumption)).to ?_ | refine (execStb_calm _ _ _ _ _ _).to ?_
          | refine ((execStb_calm _ _ _ _ _ _).get (by assumption)).to ?_ | refine (execSth_calm _ _ _ _ _ _).to ?_
          | refine ((execSth_calm _ _ _ _ _ _).get (by assumption)).to ?_ | refine (execStw_calm _ _ _ _ _ _).to ?_
          | refine ((execStw_calm _ _ _ _ _ _).get (by assumption)).to ?_ | refine (execSub_calm _ _ _ _ _ _).to ?_
          | refine ((execSub_calm _ _ _ _ _ _).get (by assumption)).to ?_ | refine (execSwp_calm _ _ _ _ _ _).to ?_
          | refine ((execSwp_calm _ _ _ _ _ _).get (by assumption)).to ?_ | refine (execTimeh_calm _ _ _ _ _).to ?_
          | refine ((execTimeh_calm _ _ _ _ _).get (by assumption)).to ?_ | refine (execTimel_calm _ _ _ _ _).to ?_
          | refine ((execTimel_calm _ _ _ _ _).get (by assumption)).to ?_ | refine (execTld_calm _ _ _ _ _).to ?_
          | refine ((execTld_calm _ _ _ _ _).get (by assumption)).to ?_ | refine (execTst_calm _ _ _ _ _).to ?_
          | refine ((execTst_calm _ _ _ _ _).get (by assumption)).to ?_ | refine (execTsync_calm _ _ _ _ _).to ?_
          | refine ((execTsync_calm _ _ _ _ _).get (by assumption)).to ?_ | refine (execTwr_calm _ _ _ _ _).to ?_
          | refine ((execTwr_calm _ _ _ _ _).get (by assumption)).to ?_ | refine (execVload_calm _ _ _ _ _).to ?_
          | refine ((execVload_calm _ _ _ _ _).get (by assumption)).to ?_ | refine (execWait_calm _ _ _ _ _ _).to ?_
          | refine ((execWait_calm _ _ _ _ _ _).get (by assumption)).to ?_ | refine (execWdkick_calm _ _).to ?_
          | refine ((execWdkick_calm _ _).get (by assumption)).to ?_ | refine (execWpset_calm _ _ _ _ _).to ?_
          | refine ((execWpset_calm _ _ _ _ _).get (by assumption)).to ?_ | refine (execXor_calm _ _ _ _ _ _).to ?_
          | refine ((execXor_calm _ _ _ _ _ _).get (by assumption)).to ?_ | refine (execXori_calm _ _ _ _ _ _).to ?_
          | refine ((execXori_calm _ _ _ _ _ _).get (by assumption)).to ?_ | apply calmIte | apply Ends.ok | apply Ends.next
          | apply Ends.ite | rfl | intro _ | split)

theorem State.stepWait_calm (s : State) (e : Nat) (w : Wait) :
    Calm rl s.view (State.stepWait s e w).view := by
  unfold State.stepWait
  (try dsimp only) <;> intros <;> with_reducible
      (repeat' first
          | exact .refl _ | assumption | apply calmBack | dsimp only [viewMk] | refine (State.setEngine_calm _ _ _).to ?_
          | refine (State.setPc_calm _ _ _).to ?_ | apply calmIte | rfl | intro _ | split)

theorem State.stepEngine_calm (s : State) (e : Fin 10) (chk : MemCheck) (bus : Bytes) :
    Ends rl s.view (State.stepEngine s e chk bus) := by
  unfold State.stepEngine
  (try dsimp only) <;> intros <;> with_reducible
      (repeat' first
          | exact .refl _ | assumption | apply calmBack | dsimp only [viewMk] | refine (State.engineFault_calm _ _ _ _ _).to ?_
          | refine (State.setEngine_calm _ _ _).to ?_ | refine (State.stepWait_calm _ _ _).to ?_ | refine (runBelion_calm _ _).to ?_
          | refine ((runBelion_calm _ _).get (by assumption)).to ?_ | apply calmIte | apply Ends.ok | apply Ends.next
          | apply Ends.ite | apply RanCalm.done | apply RanCalm.jump | apply RanCalm.stay | apply RanCalm.fault | apply RanCalm.ite
          | rfl | intro _ | split)

theorem State.writeDebug_calm (s : State) (eng : Nat) (stop : Bool) (step : Bool) (chk : MemCheck) (bus : Bytes) :
    Ends rl s.view (State.writeDebug s eng stop step chk bus) := by
  unfold State.writeDebug
  (try dsimp only) <;> intros <;> with_reducible
      (repeat' first
          | exact .refl _ | assumption | apply calmBack | dsimp only [viewMk] | refine (State.stepEngine_calm _ _ _ _).to ?_
          | refine ((State.stepEngine_calm _ _ _ _).get (by assumption)).to ?_ | refine (State.writeDbgCtrl_calm _ _ _).to ?_
          | apply calmIte | apply Ends.ok | apply Ends.next | apply Ends.ite | rfl | intro _ | split)

theorem execDebugStep_calm (s : State) (p : Path) (eng : BitVec 4) (stop : Bool) (chk : MemCheck) (bus : Bytes) :
    Ends rl s.view (execDebugStep p eng stop chk bus s) := by
  unfold execDebugStep
  (try dsimp only) <;> intros <;> with_reducible
      (repeat' first
          | exact .refl _ | assumption | apply calmBack | dsimp only [viewMk] | refine (State.ignoredWrite_calm _).to ?_
          | refine (State.refuseDebug_calm _).to ?_ | refine (State.writeDebug_calm _ _ _ _ _ _).to ?_
          | refine ((State.writeDebug_calm _ _ _ _ _ _).get (by assumption)).to ?_ | apply calmIte | apply Ends.ok | apply Ends.next
          | apply Ends.ite | rfl | intro _ | split)

theorem execRegisterWrite_calm (s : State) (p : Path) (offset : BitVec 20) (value : Word) (size : Size) :
    Ends rl s.view (execRegisterWrite p offset value size s) := by
  unfold execRegisterWrite
  (try dsimp only) <;> intros <;> with_reducible
      (repeat' first
          | exact .refl _ | assumption | apply calmBack | dsimp only [viewMk] | refine (State.busWrite_calm _ _ _ _ _).to ?_
          | refine (State.ignoredWrite_calm _).to ?_ | refine (State.writeDebug_calm _ _ _ _ _ _).to ?_
          | refine ((State.writeDebug_calm _ _ _ _ _ _).get (by assumption)).to ?_ | apply calmIte | apply Ends.ok | apply Ends.next
          | apply Ends.ite | rfl | intro _ | split)

end Sys2Proof.Machine
end

