-- ==== Sys2Proof/Laws/Engines.lean ====
section
/-! SUPPORT. Belion instructions, the die scheduler, hooks and the debug window: what the operations they share answer (R136 to R177). -/

namespace Sys2Proof.Machine

/-! ### Loads and stores -/

theorem ld_data {s : State} {e : Fin 10} {major n : Nat} {kd ka : BitVec 4} {imm : BitVec 16} (h : Runs s e)
    (ha : ((s.engine e.val).addr ka imm) < dataSize e.val) (h4 : ((s.engine e.val).addr ka imm) % n = 0) :
    Answers (s.load e major n kd ka imm .clean) (Only s e.val ((s.engine e.val).setReg kd
      (BitVec.ofNat 32 (leNat (s.dataBytes e.val ((s.engine e.val).addr ka imm) n)))).next) := by
  refine run_engine h (kinds_all _) ?_ (by simp)
  simp only [h4, space_data ha, ne_eq, not_true_eq_false, if_false, reduceCtorEq, State.noteCheck, State.withReg]
theorem ld_window {s : State} {e : Fin 10} {major n off : Nat} {kd ka : BitVec 4} {imm : BitVec 16} {c : MemCheck} (h : Runs s e)
    (ha : spaceOf e.val ((s.engine e.val).addr ka imm) = .window off) (h4 : ((s.engine e.val).addr ka imm) % n = 0) :
    Answers (s.load e major n kd ka imm c) (Only (s.busRead .keystone off n).2 e.val
      { ((s.busRead .keystone off n).2.engine e.val).setReg kd (BitVec.ofNat 32 (s.busRead .keystone off n).1) with
        pc := (s.engine e.val).pc + 4 }) := by
  refine run_put h (kinds_all _) ?_
  simp only [h4, ha, ne_eq, not_true_eq_false, if_false, State.withReg]
theorem ld_cal {s : State} {e : Fin 10} {major n off : Nat} {kd ka : BitVec 4} {imm : BitVec 16} {c : MemCheck} (h : Runs s e)
    (ha : spaceOf e.val ((s.engine e.val).addr ka imm) = .calibration off) (h4 : ((s.engine e.val).addr ka imm) % n = 0) :
    Answers (s.load e major n kd ka imm c) (Only s e.val ((s.engine e.val).setReg kd (BitVec.ofNat 32 (leNat (s.calRow off n)))).next) := by
  refine run_engine h (kinds_all _) ?_ (by simp)
  simp only [h4, ha, ne_eq, not_true_eq_false, if_false, State.withReg]
theorem st_data {s : State} {e : Fin 10} {major n : Nat} {kd ka : BitVec 4} {imm : BitVec 16} (h : Runs s e)
    (ha : ((s.engine e.val).addr ka imm) < dataSize e.val) (h4 : ((s.engine e.val).addr ka imm) % n = 0) :
    Answers (s.store e major n kd ka imm .clean) (Stored s e.val ((s.engine e.val).addr ka imm)
      (natLe n (((s.engine e.val).reg kd).toNat % 256 ^ n)) (s.engine e.val).next) := by
  rw [natLe_mod]
  refine (run_done (t := s.setData e.val ((s.engine e.val).addr ka imm) (natLe n ((s.engine e.val).reg kd).toNat)) h (kinds_all _)
    ?_ (by simp)).mono fun t ho => ?_
  · simp only [h4, space_data ha, ne_eq, not_true_eq_false, if_false, reduceCtorEq, State.noteCheck]
  refine cast ?_ ((Stored.setData s e.val _ _).then ho rfl)
  congr 1
  rw [State.engine_setData]; split <;> rfl
theorem st_window {s : State} {e : Fin 10} {major n off : Nat} {kd ka : BitVec 4} {imm : BitVec 16} {c : MemCheck} (h : Runs s e)
    (ha : spaceOf e.val ((s.engine e.val).addr ka imm) = .window off) (h4 : ((s.engine e.val).addr ka imm) % n = 0) :
    Answers (s.store e major n kd ka imm c) (Only (s.busWrite .keystone off n (((s.engine e.val).reg kd).toNat % 256 ^ n)) e.val
      { (s.busWrite .keystone off n (((s.engine e.val).reg kd).toNat % 256 ^ n)).engine e.val with
        pc := (s.engine e.val).pc + 4 }) := by
  refine run_seq h (kinds_all _) ?_
  have : (256 : Nat) ^ n = 2 ^ (8 * n) := by rw [Nat.pow_mul]
  simp only [h4, ha, ne_eq, not_true_eq_false, if_false, this]

/-! ### Branches and jumps -/

theorem target_eq {pc target : Nat} {off : BitVec 22} (h : (target : Int) = pc + 4 * off.toInt) (ht : target < 0x10000) :
    branchTarget pc off = target := by
  have h1 := BitVec.toInt_lt (x := off); have h2 := BitVec.le_toInt off
  have hs : (off.signExtend 32).toInt = off.toInt := by rw [BitVec.toInt_signExtend_of_le (by decide)]
  have hn : ((off.signExtend 32).toNat : Int) = if off.toInt < 0 then off.toInt + 2 ^ 32 else off.toInt := by
    have := BitVec.toInt_eq_toNat_cond (off.signExtend 32)
    have := (off.signExtend 32).isLt
    rw [hs] at *; split at * <;> split <;> omega
  simp only [branchTarget, BitVec.toNat_add, BitVec.toNat_shiftLeft, BitVec.toNat_ofNat, Nat.shiftLeft_eq]
  split at hn <;> omega
theorem progSize_le (e : Nat) : progSize e ≤ 0x10000 := by unfold progSize; split <;> (try split) <;> omega
theorem cond_table (x : Engine) (k : BitVec 4) (h : k ≠ 15) : x.cond k.toNat =
    [true, x.z, !x.z, x.c, !x.c, x.c && !x.z, !x.c || x.z, x.n == x.v, x.n != x.v, !x.z && x.n == x.v,
      x.z || x.n != x.v, x.n, !x.n, x.v, !x.v].getD k.toNat false := by
  revert h
  have : ∀ n : Nat, n < 15 → x.cond n = [true, x.z, !x.z, x.c, !x.c, x.c && !x.z, !x.c || x.z, x.n == x.v, x.n != x.v, !x.z && x.n == x.v,
      x.z || x.n != x.v, x.n, !x.n, x.v, !x.v].getD n false := by
    intro n hn
    match n, hn with
    | 0, _ | 1, _ | 2, _ | 3, _ | 4, _ | 5, _ | 6, _ | 7, _ | 8, _ | 9, _ | 10, _ | 11, _ | 12, _ | 13, _ | 14, _ => rfl
  intro h
  refine this _ ?_
  have := k.isLt
  have : k.toNat ≠ 15 := fun h' => h (BitVec.eq_of_toNat_eq h')
  omega

/-! ### Event instructions -/

theorem runs_none {s : State} {e : Nat} (h : s.engineRuns e = true) : (s.engine e).waiting = none := by
  simp only [State.engineRuns, Bool.and_eq_true, Option.isNone_iff_eq_none] at h; exact h.1.2
theorem advance_put {s : State} {e pc : Nat} {x y : Engine} {word : Word} (h : pc + 4 < progSize e)
    (hy : { y with pc := pc + 4 } = x) : Only s e x ((s.setEngine e y).advance e pc word) := by
  subst hy
  simp only [State.advance, h, true_or, if_true, State.setPc, State.engine_setEngine_self]
  exact (Only.setEngine _ _ _).after (Only.setEngine _ _ _)
theorem eta_wait {x : Engine} (h : x.waiting = none) : ({ x with waiting := none } : Engine) = x := by rw [← h]
theorem sev_imm (hi : BitVec 8) : (hi ++ 0#8) = BitVec.ofNat 16 (hi.toNat * 256) := by
  revert hi; decide

/-! ### Mailbox instructions -/

theorem kinds_kh {e : Fin 10} (h : e.val ≤ 1) : bit 3 (kindOf e.val) = true := by
  have : e.val = 0 ∨ e.val = 1 := by omega
  rcases this with h | h <;> rw [h] <;> decide
theorem may_touch {s : State} {e : Nat} {g : Bytes → Nat} {b : Nat} (h : e = 1 → g s.hookEntry ||| b = g s.hookEntry) :
    s.mayTouch e g b = true := by
  simp only [State.mayTouch]
  by_cases he : e = 1
  · simp [h he]
  · simp [he]
theorem mbxBoundary_mbx (s : State) : s.mbxBoundary.mbx = s.mbx := by
  unfold State.mbxBoundary; split <;> rfl

/-! ### Tables time and nothing -/

theorem kinds_k {e : Fin 10} (h : e.val = 0) : bit 1 (kindOf e.val) = true := by rw [h]; decide
theorem kinds_kv {e : Fin 10} (h : e.val = 0 ∨ 2 ≤ e.val) : bit 5 (kindOf e.val) = true := by
  rcases h with h | h
  · rw [h]; decide
  · simp only [kindOf]; rw [if_neg (by omega), if_neg (by omega)]; decide
theorem startSync_idle (s : State) (t i : Nat) (ht : t < 8) (hi : i < 256) (h : s.tab.sync = none) :
    ∃ y, { s.startSync t i with csr := s.csr, tab := s.tab, out := s.out } = s ∧
      (s.startSync t i).tab = { s.tab with sync := some y } ∧ y.table = t ∧ y.index = i ∧ y.data = none ∧
      (s.startSync t i).f Reg.syncTable = t ∧ (s.startSync t i).f Reg.syncIndex = i ∧ (s.startSync t i).f Reg.syncBusy = 1 := by
  simp only [State.startSync, h, Option.isSome_none, Bool.false_eq_true, if_false, State.issueSync]
  have h3 : ∀ u : State, u.csr = (((s.setF Reg.syncTable t).setF Reg.syncIndex i).setF Reg.syncBusy 1).csr →
      u.f Reg.syncTable = t ∧ u.f Reg.syncIndex = i ∧ u.f Reg.syncBusy = 1 := by
    intro u hu
    have hf : ∀ g, u.f g = (((s.setF Reg.syncTable t).setF Reg.syncIndex i).setF Reg.syncBusy 1).f g := fun g => by
      simp only [State.f, hu]
    rw [hf, hf, hf]
    refine ⟨?_, ?_, ?_⟩
    · rw [State.f_setF_ne _ _ (by decide), State.f_setF_ne _ _ (by decide), State.f_setF_self]
      exact Nat.mod_eq_of_lt ht
    · rw [State.f_setF_ne _ _ (by decide), State.f_setF_self]
      exact Nat.mod_eq_of_lt hi
    · rw [State.f_setF_self]; rfl
  split
  · exact ⟨_, rfl, rfl, rfl, rfl, rfl, h3 _ rfl⟩
  · exact ⟨_, rfl, rfl, rfl, rfl, rfl, h3 _ rfl⟩

/-! ### Bus operations -/

theorem kinds_v {e : Fin 10} (h : 2 ≤ e.val) : bit 4 (kindOf e.val) = true := by
  simp only [kindOf]; rw [if_neg (by omega), if_neg (by omega)]; decide
theorem onBus_free {s : State} {e : Nat} (f : State → Ran) (h : (s.fchan (e - 2)).transfer = none) : s.onBus e f = f s := by
  simp [State.onBus, veinOf, h]
theorem onBus_busy {s : State} {e : Nat} (f : State → Ran) (h : (s.fchan (e - 2)).transfer ≠ none) : s.onBus e f = .stay s := by
  simp only [State.onBus, veinOf, Option.isSome_iff_ne_none.2 h, if_true]
theorem valueOf_eq (a : Word) (p : BitVec 12) : valueOf a p = (a.toNat + p.toNat) % 2 ^ 32 := by
  simp [valueOf, BitVec.toNat_add]
theorem first_eq (a : Word) : firstOf a = a.toNat % 256 := by simp [firstOf, bits]
theorem count_eq (a : Word) : countOf a = a.toNat / 256 % 256 := by simp [countOf, bits]
theorem home_eq {e : Nat} (h : 2 ≤ e) : dataHome e = e ∧ ∀ a, dataPlace e a = a := by
  constructor
  · simp only [dataHome]; rw [if_neg (by omega)]
  · intro a; simp only [dataPlace]; rw [if_neg (by omega)]

/-! ### Operation queue instructions -/

theorem eraseStarts_eng (s : State) (o : FOp) : ((s.issues o).eraseStarts o).eng = s.eng ∧ ((s.issues o).eraseStarts o).fl = s.fl ∧
    ((s.issues o).eraseStarts o).pending = s.pending ∧ ((s.issues o).eraseStarts o).csr = s.csr ∧
    ((s.issues o).eraseStarts o).bas = (s.issues o).bas := by
  have h (u : State) : (u.eraseStarts o).eng = u.eng ∧ (u.eraseStarts o).fl = u.fl ∧ (u.eraseStarts o).pending = u.pending ∧
      (u.eraseStarts o).csr = u.csr ∧ (u.eraseStarts o).bas = u.bas := by
    unfold State.eraseStarts State.journal
    dsimp only
    split
    · split <;> exact ⟨rfl, rfl, rfl, rfl, rfl⟩
    · exact ⟨rfl, rfl, rfl, rfl, rfl⟩
  have k : (s.issues o).eng = s.eng ∧ (s.issues o).fl = s.fl ∧ (s.issues o).pending = s.pending ∧ (s.issues o).csr = s.csr := by
    unfold State.issues
    split <;> exact ⟨rfl, rfl, rfl, rfl⟩
  obtain ⟨h1, h2, h3, h4, h5⟩ := h (s.issues o)
  exact ⟨h1.trans k.1, h2.trans k.2.1, h3.trans k.2.2.1, h4.trans k.2.2.2, h5⟩

/-! ### Die scheduler -/

theorem ifaceError_few (s : State) (ch : Nat) (c : FChan) (h : s.fchan ch = c)
    (hl : (s.time.uptime :: c.errs.filter fun t => s.time.uptime < t + 25000000).length < 16) :
    s.ifaceError ch = ((s.setFchan ch
      { c with errs := s.time.uptime :: c.errs.filter fun t => s.time.uptime < t + 25000000 }).countF (Reg.errIface ch) 1).bump 0x10 := by
  subst h
  have hm : msTicks 1000 = 25000000 := rfl
  unfold State.ifaceError
  simp only [hm]
  rw [if_neg (by omega)]
theorem transferError (s : State) (ch : Nat) (c : FChan) (res : Nat)
    (hl : (s.time.uptime :: c.errs.filter fun t => s.time.uptime < t + 25000000).length < 16) :
    Answers (ok ((((s.setFchan ch { c with transfer := none, bres := res + 2 ^ 24 * b2n true }).raise (2 + ch) 3).raise (2 + ch) 5).ifaceError ch))
      fun t => ∃ u : State, t = u.bump 0x10 ∧
        u.fchan ch = { c with transfer := none, bres := res + 2 ^ 24, errs := s.time.uptime :: c.errs.filter fun t => s.time.uptime < t + 25000000 } ∧
        (u.engine (2 + ch)).ev = (s.engine (2 + ch)).ev ||| 0x28 ∧ u.f (Reg.errIface ch) = min 0xFFFF (s.f (Reg.errIface ch) + 1) ∧
        { u with eng := s.eng, fl := s.fl, csr := s.csr } = s := by
  have hb : res + 2 ^ 24 * b2n true = res + 2 ^ 24 := rfl
  rw [hb]
  generalize hw : (s.setFchan ch { c with transfer := none, bres := res + 2 ^ 24 }) = w
  have w1 : w.fchan ch = { c with transfer := none, bres := res + 2 ^ 24 } := by subst hw; exact Map.get_set_self _ _ _ _
  have w2 : w.engine (2 + ch) = s.engine (2 + ch) := by subst hw; rfl
  have w3 : ∀ x y z, { w with eng := x, fl := y, csr := z } = { s with eng := x, fl := y, csr := z } := by subst hw; intros; rfl
  have w4 : w.csr = s.csr := by subst hw; rfl
  have w5 : w.time = s.time := by subst hw; rfl
  generalize hv : (w.raise (2 + ch) 3).raise (2 + ch) 5 = v
  have v1 : v.fchan ch = { c with transfer := none, bres := res + 2 ^ 24 } := by subst hv; exact w1
  have v2 : (v.engine (2 + ch)).ev = (s.engine (2 + ch)).ev ||| 0x28 := by
    subst hv
    simp only [State.engine_raise_self, BitVec.or_assoc, w2]
    rfl
  have v3 : ∀ x y z, { v with eng := x, fl := y, csr := z } = { s with eng := x, fl := y, csr := z } := by
    subst hv; intro x y z; exact w3 x y z
  have v4 : v.csr = s.csr := by subst hv; exact w4
  have v5 : v.time = s.time := by subst hv; exact w5
  rw [ifaceError_few v ch _ v1 (by rw [v5]; exact hl), v5]
  refine ⟨_, rfl, _, rfl, Map.get_set_self _ _ _ _, v2, ?_, v3 s.eng s.fl s.csr⟩
  rw [State.countF, State.f_setF_self]
  have hf : ∀ x, (v.setFchan ch x).f (Reg.errIface ch) = s.f (Reg.errIface ch) := by
    intro x
    have q := congrArg (fun m => Map.get (Reg.errIface ch).reset m (Reg.errIface ch).key) v4
    exact q
  rw [hf]
  show min 65535 _ % 65536 = _
  omega

/-! ### Keystone operations -/

theorem kinds_k0 {e : Fin 10} (h : e.val = 0) : bit 1 (kindOf e.val) = true := by rw [h]; decide
theorem loadFrom_ok {s : State} {e k off : Nat} {kd : BitVec 4} (h64 : off % 64 = 0) (hm : s.mayLoad = true)
    (hl : (s.loadSection k true (s.img.sram.drop off)).2 = 1) :
    s.loadFrom e k off kd = (s.loadSection k true (s.img.sram.drop off)).1.withReg e kd 1 := by
  simp only [State.loadFrom, h64, hm, ne_eq, not_true_eq_false, if_false, State.sramAt, hl, true_or, if_true]
theorem loadFrom_bad {s : State} {e off : Nat} {kd : BitVec 4} (h64 : off % 64 = 0) (hm : s.mayLoad = true)
    (hl : (s.loadSection 1 true (s.img.sram.drop off)).2 ≠ 1) :
    s.loadFrom e 1 off kd = ((s.loadSection 1 true (s.img.sram.drop off)).1.withReg e kd (s.loadSection 1 true (s.img.sram.drop off)).2).record
      0x7010 Src.start 1 (s.loadSection 1 true (s.img.sram.drop off)).2 := by
  simp only [State.loadFrom, h64, hm, ne_eq, not_true_eq_false, if_false, State.sramAt, hl, or_self, false_or]
  rw [if_neg (by simp)]

/-! ### Hooks and shared operations -/

theorem bit_test (v i : Nat) : bit v i = v.testBit i := by
  simp [bit, Nat.testBit_eq_decide_div_mod_eq]
theorem get_filter3 (a b c : Word) (q : Nat) :
    Map.get 0 (([(1, a), (2, b), (3, c)] : Map Word).filter fun p => p.2 ≠ 0) q =
      if q = 1 then a else if q = 2 then b else if q = 3 then c else 0 := by
  by_cases ha : a = 0#32 <;> by_cases hb : b = 0#32 <;> by_cases hc : c = 0#32 <;>
    simp [List.filter, ha, hb, hc, Map.get] <;> (repeat' split) <;> (try rfl) <;> omega
theorem startHook_engine (s : State) (r : HookReq) (rest : List HookReq) : ∃ ev,
    (s.startHook r rest).engine 1 = { (s.engine 1).startHook ((s.hooks.table[r.entry]?).getD []) r with ev := ev } := by
  unfold State.startHook
  dsimp only
  split
  · exact ⟨_, State.engine_setEngine_self _ _ _⟩
  · rw [State.raise, State.engine_setEngine_ne _ _ (by decide)]
    simp
theorem abandon_facts (u : State) : (u.abandonHook).hooks.busy = false ∧ (u.abandonHook.engine 1).run = false ∧
        (u.abandonHook.engine 1).waiting = none ∧ u.abandonHook.pending = u.pending ∧ u.abandonHook.time = u.time := by
  unfold State.abandonHook
  dsimp only
  split <;> simp
theorem expiry (s : State) : Answers (ok ((s.record 0xA011 Src.hook s.hooks.entry).abandonHook)) fun t =>
    t.hooks.busy = false ∧ (t.engine 1).run = false ∧ (t.engine 1).waiting = none ∧ t.pending = s.pending ∧ t.time = s.time ∧
        ∃ u, Logs s 0xA011 Src.hook s.hooks.entry 0 0 0 u ∧ t = u.abandonHook := by
  have hr := State.record_steady s 0xA011 Src.hook s.hooks.entry 0 0 0
  have hl : Logs s 0xA011 Src.hook s.hooks.entry 0 0 0 (s.record 0xA011 Src.hook s.hooks.entry) := ⟨s, .refl _, .refl _⟩
  refine ⟨_, rfl, ?_⟩
  generalize s.record 0xA011 Src.hook s.hooks.entry = w at *
  have ha := abandon_facts w
  exact ⟨ha.1, ha.2.1, ha.2.2.1, ha.2.2.2.1.trans hr.pending, ha.2.2.2.2.trans hr.time, w, hl, rfl⟩
theorem start_reg (x : Engine) (b : Bytes) (r : HookReq) (ev : BitVec 16) (q : BitVec 4) :
    ({ x.startHook b r with ev := ev } : Engine).reg q
        = if q = 0 then 0 else if q.toNat = 1 then BitVec.ofNat 32 r.entry else
          if q.toNat = 2 then BitVec.ofNat 32 (hookDetail b) else
          if q.toNat = 3 then BitVec.ofNat 32 r.trigger else 0 := by
  unfold Engine.reg Engine.startHook
  dsimp only
  rw [get_filter3]
theorem start_rest (s : State) (r : HookReq) (rest : List HookReq) :
    (s.startHook r rest).hooks = { s.hooks with queue := rest, entry := r.entry, busy := true } ∧
        ({ s.startHook r rest with eng := s.eng, hooks := s.hooks } : State) = s := by
  have h : ∀ x : Engine, (({ s.setEngine 1 x with hooks := { s.hooks with queue := rest, entry := r.entry, busy := true } } : State).hooks
      = { s.hooks with queue := rest, entry := r.entry, busy := true }) ∧
      ({ ({ s.setEngine 1 x with hooks := { s.hooks with queue := rest, entry := r.entry, busy := true } } : State) with
        eng := s.eng, hooks := s.hooks } : State) = s := fun x => ⟨rfl, rfl⟩
  unfold State.startHook
  generalize (s.engine 1).startHook ((s.hooks.table[r.entry]?).getD []) r = x
  have hx := h x
  split
  · exact hx
  · exact ⟨hx.1, hx.2⟩
theorem start_facts (s : State) (r : HookReq) (rest : List HookReq) : Answers (ok (s.startHook r rest)) fun t =>
        let y := t.engine 1
        let entry := (s.hooks.table[r.entry]?).getD []
        t.hooks.queue = rest ∧ t.hooks.entry = r.entry ∧ t.hooks.busy = true ∧ y.run = true ∧ y.pc = hookAddr entry ∧
        y.reg 1 = BitVec.ofNat 32 r.entry ∧ y.reg 2 = BitVec.ofNat 32 (hookDetail entry) ∧
        y.reg 3 = BitVec.ofNat 32 r.trigger ∧ (∀ q : BitVec 4, q ≠ 1 → q ≠ 2 → q ≠ 3 → y.reg q = 0) ∧
        y.z = false ∧ y.n = false ∧ y.c = false ∧ y.v = false ∧ y.waiting = none ∧ y.data = (s.engine 1).data ∧ y.prog = (s.engine 1).prog ∧
        { t with eng := s.eng, hooks := s.hooks } = s := by
  refine ⟨_, rfl, ?_⟩
  obtain ⟨ev, hev⟩ := startHook_engine s r rest
  have hf := start_rest s r rest
  dsimp only
  rw [hf.1, hev]
  refine ⟨rfl, rfl, rfl, rfl, rfl, ?_, ?_, ?_, fun q h1 h2 h3 => ?_, rfl, rfl, rfl, rfl, rfl, rfl, rfl, hf.2⟩
  · rw [start_reg, if_neg (by decide), if_pos (by decide)]
  · rw [start_reg, if_neg (by decide), if_neg (by decide), if_pos (by decide)]
  · rw [start_reg, if_neg (by decide), if_neg (by decide), if_neg (by decide), if_pos (by decide)]
  rw [start_reg]
  have g : ∀ n : BitVec 4, q ≠ n → q.toNat ≠ n.toNat := fun n h e => h (BitVec.eq_of_toNat_eq e)
  rw [if_neg (show ¬ q.toNat = 1 from g 1 h1), if_neg (show ¬ q.toNat = 2 from g 2 h2), if_neg (show ¬ q.toNat = 3 from g 3 h3), ite_self]

/-! ### Faults and debug -/

theorem refuseDebug_facts (s : State) : ∃ v w : State, (if s.hooks.dbgRefused then v = s else
        Logs { s with hooks := { s.hooks with dbgRefused := true } } 0x6011 Src.sec 0 0 0 0 v) ∧ Counts v 0x43 w ∧
        Counts w 0x03 s.refuseDebug.ignoredWrite := by
  unfold State.refuseDebug
  dsimp only
  refine ⟨_, _, ?_, ⟨_, .refl _, .refl _⟩, ⟨_, .refl _, .refl _⟩⟩
  cases s.hooks.dbgRefused
  · exact ⟨_, .refl _, .refl _⟩
  · rfl
theorem engineFault_facts (s : State) (n c at_ : Nat) (word : Word) : ∃ v,
      Logs (s.setEngine n { s.engine n with run := false, stepping := false, waiting := none, fault := true, cause := c, fpc := at_ / 4 })
        (if n = 0 then 0x1050 else if n = 1 then 0xA010 else 0x3050)
        (if n = 0 then Src.keystone else if n = 1 then Src.hook else Src.channel (n - 2)) c at_ n word.toNat v ∧
      (n = 0 → ∃ y, Counts v 0x0A y ∧ s.engineFault n c at_ word = y.supervisorStopped) ∧
      (n = 1 → if v.hooks.busy then ∃ y, Counts v 0x53 y ∧ s.engineFault n c at_ word = y.abandonHook else s.engineFault n c at_ word = v) ∧
      (2 ≤ n → s.engineFault n c at_ word = v.failChannel (n - 2)) := by
  unfold State.engineFault
  dsimp only
  refine ⟨State.record (s.setEngine n { s.engine n with run := false, stepping := false, waiting := none, fault := true, cause := c, fpc := at_ / 4 }) (faultEvent n).1 (faultEvent n).2 c at_ n word.toNat, ?_, fun h => ?_, fun h => ?_, fun h => ?_⟩
  · have e1 : (faultEvent n).1 = if n = 0 then 0x1050 else if n = 1 then 0xA010 else 0x3050 := by
      unfold faultEvent; split
      · rfl
      · split <;> rfl
    have e2 : (faultEvent n).2 = if n = 0 then Src.keystone else if n = 1 then Src.hook else Src.channel (n - 2) := by
      unfold faultEvent; split
      · rfl
      · split <;> rfl
    rw [e1, e2]
    exact ⟨_, .refl _, .refl _⟩
  · subst h
    exact ⟨_, ⟨_, .refl _, .refl _⟩, rfl⟩
  · subst h
    generalize State.record _ _ _ c at_ 1 word.toNat = v
    by_cases hb : v.hooks.busy = true
    · simp only [hb, if_true, if_false, Nat.one_ne_zero]
      exact ⟨_, ⟨_, .refl _, .refl _⟩, rfl⟩
    · simp [hb]
  · rw [if_neg (by omega), if_neg (by omega)]
theorem runBelion_next (u : State) (i : Instr) : ∃ t, runBelion i u = .next t := by
  have k := runBelion_calm (rl := false) u i
  generalize runBelion i u = r at *
  cases k with
  | next h => exact ⟨_, rfl⟩

/-! ### Belion faults -/

theorem run_faults {s : State} {e : Fin 10} {kinds : Nat} {word : Word} {f : State → Engine → Ran} {c : Nat} (h : s.engineRuns e.val = true)
    (hf : bit kinds (kindOf e.val) = false ∧ c = 2 ∨ bit kinds (kindOf e.val) = true ∧ f s (s.engine e.val) = .fault c) :
    s.run e kinds word f = .next (s.engineFault e.val c (s.engine e.val).pc word) := by
  unfold State.run
  simp only [h, not_true_eq_false, if_false]
  rcases hf with ⟨k, rfl⟩ | ⟨k, hf⟩
  · simp only [k]; rfl
  · simp only [k, not_true_eq_false, if_false, hf]; rfl
theorem fault_of {s : State} {e : Fin 10} {c : Nat} {word w : Word} {q : Result} (hq : q = .next (s.engineFault e.val c (s.engine e.val).pc word)) (hw : word = w) :
    Answers q fun t => ∃ v,
      Logs (s.setEngine e.val { s.engine e.val with run := false, stepping := false, waiting := none, fault := true, cause := c, fpc := (s.engine e.val).pc / 4 })
        (if e.val = 0 then 0x1050 else if e.val = 1 then 0xA010 else 0x3050)
        (if e.val = 0 then Src.keystone else if e.val = 1 then Src.hook else Src.channel (e.val - 2)) c (s.engine e.val).pc e.val w.toNat v ∧
      (e.val = 0 → ∃ y, Counts v 0x0A y ∧ t = y.supervisorStopped) ∧
      (e.val = 1 → if v.hooks.busy then ∃ y, Counts v 0x53 y ∧ t = y.abandonHook else t = v) ∧
      (2 ≤ e.val → t = v.failChannel (e.val - 2)) := by
  subst hw
  obtain ⟨v, h1, h2, h3, h4⟩ := engineFault_facts s e.val c (s.engine e.val).pc word
  exact ⟨_, hq, v, h1, h2, h3, h4⟩
theorem kind_not1 {e : Fin 10} (h : e.val ≠ 0) : bit 1 (kindOf e.val) = false := by revert h; revert e; decide
theorem kind_not3 {e : Fin 10} (h : 2 ≤ e.val) : bit 3 (kindOf e.val) = false := by revert h; revert e; decide
theorem kind_not2 {e : Fin 10} (h : e.val ≠ 1) : bit 2 (kindOf e.val) = false := by revert h; revert e; decide
theorem kind_not5 {e : Fin 10} (h : e.val = 1) : bit 5 (kindOf e.val) = false := by revert h; revert e; decide
theorem kind_not4 {e : Fin 10} (h : e.val < 2) : bit 4 (kindOf e.val) = false := by revert h; revert e; decide
theorem fault2 {s : State} {e : Fin 10} {kinds : Nat} {word : Word} {f : State → Engine → Ran} (h : s.engineRuns e.val = true) (k : bit kinds (kindOf e.val) = false) :
   s.run e kinds word f = .next (s.engineFault e.val 2 (s.engine e.val).pc word) := run_faults h (.inl ⟨k, rfl⟩)
theorem faultC {s : State} {e : Fin 10} {word : Word} {f : State → Engine → Ran} {c : Nat} (h : s.engineRuns e.val = true) (k : f s (s.engine e.val) = .fault c) :
   s.run e 7 word f = .next (s.engineFault e.val c (s.engine e.val).pc word) := run_faults h (.inr ⟨kinds_all _, k⟩)
theorem faultJ {s t : State} {e : Fin 10} {word : Word} {f : State → Engine → Ran} {a : Nat} (h : s.engineRuns e.val = true) (k : f s (s.engine e.val) = .jump t a) :
   (a % 4 ≠ 0 → s.run e 7 word f = .next (s.engineFault e.val 3 (s.engine e.val).pc word)) ∧
   (a % 4 = 0 → progSize e.val ≤ a → s.run e 7 word f = .next (s.engineFault e.val 5 (s.engine e.val).pc word)) := by
  rw [run_body word f h (kinds_all _), k]
  refine ⟨fun h4 => ?_, fun h4 hp => ?_⟩ <;> simp only [State.jumpTo]
  · rw [if_pos h4]; rfl
  · rw [if_neg (by omega), if_pos hp]; rfl

end Sys2Proof.Machine
end

