-- ==== Sys2Proof/Laws/Ilide.lean ====
section
/-! SUPPORT. The fabric: its frames, requests, ports and connections (R413 to R456). -/

namespace Sys2Proof.Machine

/-! ### Fabric frames -/

theorem arrive_drops (s : State) (p : Nat) (f : Bytes) (fcs : Bool) (a : Arrival) (media : List (Nat × Media)) (r : Host.Outcome State Fault Refusal)
    (hr : r = ok (s.arrive p f fcs a media)) :
    (s.fabUp = false ∨ s.portUp p = false → r = .next s) ∧
    (s.fabUp = true → s.portUp p = true → ∀ u, u = s.noteFill p (bits (beAt f 14 2) 15 13) a.fill.toNat → u.noRoom p (bits (beAt f 14 2) 15 13) a.fill.toNat = true → r = .next u) ∧
    (∀ u, Arrives s p f a.fill.toNat u →
      (u.frameOk p f fcs = false → Answers r (Sets u [(Reg.portDrop p, min (2 ^ (Reg.portDrop p).width - 1) (u.f (Reg.portDrop p) + 1))])) ∧
      (u.frameOk p f fcs = true → icrcOk (f.drop 18) = false → Answers r fun t => ∃ v, Counts u 0x38 v ∧ t = v.tallyIcrc (hDcid (f.drop 18))) ∧
      (u.frameOk p f fcs = true → icrcOk (f.drop 18) = true → u.bound p f (frameInner (f.drop 18)) = false → Answers r fun t => ∃ v,
        Sets u [(Reg.portBind p, min (2 ^ (Reg.portBind p).width - 1) (u.f (Reg.portBind p) + 1))] v ∧ Counts v 0x39 t) ∧
      (u.frameOk p f fcs = true → icrcOk (f.drop 18) = true → u.bound p f (frameInner (f.drop 18)) = true → u.tagged (f.drop 18) = false → Answers r fun t => ∃ v,
        Counts u 0x3F v ∧ t = v.violation (hDcid (frameInner (f.drop 18))))) := by
  subst hr
  unfold State.arrive
  dsimp only
  refine ⟨fun h => by rw [if_pos (by rcases h with h | h <;> simp [h])]; rfl, fun h1 h2 u hu h3 => ?_, fun u x => ⟨fun h1 => ?_, fun h1 h2 => ?_, fun h1 h2 h3 => ?_, fun h1 h2 h3 h4 => ?_⟩⟩
  · rw [if_neg (by simp [h1, h2]), ← hu, if_pos h3]; rfl
  all_goals rw [if_neg (by simp [x.running, x.linked]), ← x.held, if_neg (by simp [x.room])]
  · rw [if_pos (by simp [h1])]
    exact ⟨_, rfl, Sets.count _ _ _⟩
  · rw [if_neg (by simp [h1]), if_pos (by simp [h2])]
    exact ⟨_, rfl, _, ⟨_, .refl _, .refl _⟩, rfl⟩
  · rw [if_neg (by simp [h1]), if_neg (by simp [h2]), if_pos (by simp [h3])]
    exact ⟨_, rfl, _, Sets.count _ _ _, ⟨_, .refl _, .refl _⟩⟩
  · rw [if_neg (by simp [h1]), if_neg (by simp [h2]), if_neg (by simp [h3]), if_pos (by simp [h4])]
    exact ⟨_, rfl, _, ⟨_, .refl _, .refl _⟩, rfl⟩
theorem op_else {op : Nat} (h : op ∉ [1, 3, 5, 16, 17, 32]) : op ≠ 1 ∧ op ≠ 3 ∧ op ≠ 5 ∧ op ≠ 16 ∧ op ≠ 17 ∧ op ≠ 32 := by simpa using h

/-! ### Fabric requests -/

theorem setConn_conn (s : State) (c : Nat) (x : Conn) : (s.setConn c x).conn c = x := Map.get_set_self _ _ _ _
theorem inOrder_run {s u : State} {p c op : Nat} {f h : Bytes} {a : Arrival} {x : Conn} {media : List (Nat × Media)} (ar : Arrives s p f a.fill.toNat u)
    (pa : Passes u p f c h) (hx : x = u.conn c) (h1 : x.quarantined = false) (h2 : x.st = 3) (h3 : hPsn h = x.epsn) (o : frameOp f = op) (ho : op = 1 ∨ op = 3 ∨ op = 5)
    (q : State → State → Prop)
    (hq : ∀ w : State, w.conn c = { x with port := p, nakSent := false, acted := min 0xFFFFFFFF (x.acted + 1) } →
      q w (if op = 1 then w.actAppend c h else if op = 3 then w.actRead c h media else w.actSend c h)) :
    Answers (s.arriveOp op p f a media) fun t => ∃ v w y : State,
      (if a.late = true then Counts u 0x21 v else v = u) ∧ w = v.setConn c { x with port := p, nakSent := false, acted := min 0xFFFFFFFF (x.acted + 1) } ∧
      q w y ∧ t = y.rekey c ∧ (connSealed (y.connEntry c) = false → t = y) := by
  have op' := (frame_op rfl pa.head pa.code).trans o
  unfold State.arriveOp
  rw [if_pos o, arrive_passes ar pa]
  obtain ⟨l1, l2⟩ := late_facts u a.late (hOp h) (by omega) _ rfl
  generalize (if a.late = true ∧ hOp h ≠ 0x10 then u.late else u) = v at *
  have vc : v.conn c = x := (l2 c).trans hx.symm
  have rk : ∀ y : State, connSealed (y.connEntry c) = false → y.rekey c = y := by
    intro y e
    unfold State.rekey State.rekeyDue
    rw [e]
    exact if_neg (by simp)
  refine ⟨_, rfl, v, v.setConn c { x with port := p, nakSent := false, acted := min 0xFFFFFFFF (x.acted + 1) }, _, l1, rfl, hq _ (setConn_conn _ _ _), ?_⟩
  unfold State.actFrame
  dsimp only
  rw [if_neg (by omega), if_neg (by omega), if_neg (by omega), vc, if_neg (by simp [h1])]
  unfold State.inOrder
  dsimp only
  rw [vc, if_neg (by simp [h2]), if_pos (by rw [h3]; omega)]
  have e : ∀ w : State, (if hOp h = 0x01 then w.actAppend c h else if hOp h = 0x03 then w.actRead c h media else if hOp h = 0x05 then w.actSend c h else w.malformed c h) =
      if op = 1 then w.actAppend c h else if op = 3 then w.actRead c h media else w.actSend c h := by
    intro w
    rw [op']
    rcases ho with rfl | rfl | rfl <;> rfl
  rw [e]
  exact ⟨rfl, fun k => rk _ k⟩
theorem endAppend_kind {g : State} {c psn v : Nat} {m : IMsg} (hv : v = winVol (g.connPartDef c) m.window) (h : (g.vol v).kind ≠ 1) :
    g.endAppend c m psn = g.nakTerminal c 8 psn m.msn := by
  subst hv
  exact if_pos h
theorem endAppend_sealed {g : State} {c psn v : Nat} {m : IMsg} (hv : v = winVol (g.connPartDef c) m.window) (h : (g.vol v).kind = 1) (h1 : (g.vol v).isSealed = true) :
    g.endAppend c m psn = g.nakTerminal c 6 psn m.msn := by
  subst hv
  exact (if_neg (fun k => k h)).trans (if_pos h1)
theorem endAppend_room {g : State} {c psn v : Nat} {m : IMsg} (hv : v = winVol (g.connPartDef c) m.window) (h : (g.vol v).kind = 1) (h1 : (g.vol v).isSealed = false) :
    g.endAppend c m psn = match g.toRelease v (extent m.mlen) ((g.vol v).space - (g.vol v).used) (g.vol v).recs with
      | none => (g.countClass (if m.excess then 8 else 5) 4).nakRetry c 3 m.firstPsn m.msn 0xFFFFFFFF
      | some k =>
        let b := (g.releaseOldest v k).accept v (transformed (beAt m.form 0 1) (2 ^ beAt m.form 1 1) (beAt m.form 2 1) m.data) (4096 + partId (g.connPartDef c))
          (beAt m.form 0 1) m.units false (1 + g.connSlot c) m.granted
        let b1 := b.setVol v { b.vol v with recs := (b.vol v).recs.map fun r => if r.seq = (g.vol v).nextSeq then { r with conn := c + 1, msn := m.msn } else r }
        let b2 : State := { b1 with nv := { b1.nv with lastMsn := b.nv.lastMsn.put c m.msn } }
        ((b2.setConn c { b2.conn c with inMsg := none, epsn := (psn + 1) % 2 ^ 24, appended := (b2.conn c).appended + m.mlen }).countClass
            (if m.excess then 8 else 5) 0).reply c psn 0x10 (ackBody psn m.msn (g.vol v).nextSeq) := by
  subst hv
  exact (if_neg (fun k => k h)).trans (if_neg (by simp [h1]))
theorem ended_facts (g : State) (c psn : Nat) (m : IMsg) :
    ((g.vol (winVol (g.connPartDef c) m.window)).kind ≠ 1 → g.endAppend c m psn = g.nakTerminal c 8 psn m.msn) ∧
    ((g.vol (winVol (g.connPartDef c) m.window)).kind = 1 → (g.vol (winVol (g.connPartDef c) m.window)).isSealed = true → g.endAppend c m psn = g.nakTerminal c 6 psn m.msn) ∧
    ((g.vol (winVol (g.connPartDef c) m.window)).kind = 1 → (g.vol (winVol (g.connPartDef c) m.window)).isSealed = false →
      (g.toRelease (winVol (g.connPartDef c) m.window) (extent m.mlen) ((g.vol (winVol (g.connPartDef c) m.window)).space - (g.vol (winVol (g.connPartDef c) m.window)).used)
          (g.vol (winVol (g.connPartDef c) m.window)).recs = none → g.endAppend c m psn = (g.countClass (if m.excess then 8 else 5) 4).nakRetry c 3 m.firstPsn m.msn 0xFFFFFFFF) ∧
      ∀ k, g.toRelease (winVol (g.connPartDef c) m.window) (extent m.mlen) ((g.vol (winVol (g.connPartDef c) m.window)).space - (g.vol (winVol (g.connPartDef c) m.window)).used)
          (g.vol (winVol (g.connPartDef c) m.window)).recs = some k → ∃ b : State, Appended g (winVol (g.connPartDef c) m.window) k m.units {
            seq := (g.vol (winVol (g.connPartDef c) m.window)).nextSeq, ticks := g.time.uptime, cycles := g.time.cycles, optMs := g.time.optMs
            payload := transformed (beAt m.form 0 1) (2 ^ beAt m.form 1 1) (beAt m.form 2 1) m.data
            src := 4096 + partId (g.connPartDef c), transform := beAt m.form 0 1
            off := (g.vol (winVol (g.connPartDef c) m.window)).writeOff } false (1 + g.connSlot c) m.granted b ∧
          let b1 := b.setVol (winVol (g.connPartDef c) m.window) { b.vol (winVol (g.connPartDef c) m.window) with
            recs := (b.vol (winVol (g.connPartDef c) m.window)).recs.map fun r =>
              if r.seq = (g.vol (winVol (g.connPartDef c) m.window)).nextSeq then { r with conn := c + 1, msn := m.msn } else r }
          let b2 : State := { b1 with nv := { b1.nv with lastMsn := b.nv.lastMsn.put c m.msn } }
          g.endAppend c m psn = ((b2.setConn c { b2.conn c with inMsg := none, epsn := (psn + 1) % 2 ^ 24, appended := (b2.conn c).appended + m.mlen }).countClass
            (if m.excess then 8 else 5) 0).reply c psn 0x10 (ackBody psn m.msn (g.vol (winVol (g.connPartDef c) m.window)).nextSeq)) := by
  generalize hv : winVol (g.connPartDef c) m.window = v
  refine ⟨fun k => endAppend_kind hv.symm k, fun k1 k2 => endAppend_sealed hv.symm k1 k2, fun k1 k2 => ⟨fun e => ?_, fun k e => ?_⟩⟩
  · rw [endAppend_room hv.symm k1 k2, e]
  · rw [endAppend_room hv.symm k1 k2, e]
    exact ⟨_, accept_appended g v k m.units _ _ _ _ _ _, rfl⟩
theorem beginAppend_refused {w : State} {c : Nat} {h : Bytes} {go : State → State} (a : w.appendRefusal c h ≠ 0) :
    w.beginAppend c h go = w.refuse c (w.appendRefusal c h) (hPsn h + packetsOf (hLen h) - 1) h := if_pos a
theorem beginAppend_rest {w : State} {c : Nat} {h : Bytes} {go : State → State} (a : w.appendRefusal c h = 0) (d cls v : _) (hd : w.connPartDef c = d)
    (hcls : (if w.partUnits (w.connSlot c) + ceilDiv (hLen h) 4096 ≤ partQuota d then 5 else 8) = cls) (hv : winVol d (hWindow h) = v) :
    w.beginAppend c h go =
      if w.volLocked v = true then w.nakTerminal c 10 (hPsn h + packetsOf (hLen h) - 1) (hMsn h)
      else if (w.vol v).isSealed = true then w.nakTerminal c 6 (hPsn h + packetsOf (hLen h) - 1) (hMsn h)
      else if ¬ w.dev.inService = true then (w.countClass cls 6).nakRetry c 5 (hPsn h) (hMsn h) w.shutdownHint
      else if ¬ w.openTo cls = true then (w.countClass cls 5).nakRetry c 4 (hPsn h) (hMsn h) (w.energyHint cls)
      else if ¬ w.unitsFit cls (ceilDiv (hLen h) 4096) = true ∨ ¬ w.energyFits (ceilDiv (hLen h) 4096) = true then
        if cls = 5 then (w.countClass 5 7).nakRetry c 2 (hPsn h) (hMsn h) (w.unitsHint 5 (ceilDiv (hLen h) 4096))
        else (w.countClass 8 4).nakRetry c 3 (hPsn h) (hMsn h) (hintOf (w.partUnits (w.connSlot c) + ceilDiv (hLen h) 4096 - partQuota d) (w.releasedIn false (1 + w.connSlot c)))
      else go ((w.takeGeneral (ceilDiv (hLen h) 4096)).setConn c { w.conn c with
        inMsg := some { msn := hMsn h, mlen := hLen h, window := hWindow h, form := slice h 26 3, firstPsn := hPsn h, data := [], units := ceilDiv (hLen h) 4096
                        vol := v, granted := w.time.uptime, excess := cls = 8 } }) := by
  subst hd hv hcls
  exact if_neg (fun k => k a)

/-! ### Fabric ports -/

theorem portKeys (p : Fin 2) : (Reg.portPaused p.val).key ≠ (Reg.portXoff p.val).key ∧ (Reg.portPaused p.val).key ≠ (Reg.portLink p.val).key ∧
    (Reg.portXoff p.val).key ≠ (Reg.portLink p.val).key ∧ (Reg.portLink p.val).key ≠ (Reg.portFec p.val).key ∧ Reg.portEn.key ≠ (Reg.portLink p.val).key := by
  revert p; decide
theorem ownPause_sets (s : State) (q i : Nat) (on : Bool) : ∃ v, Sets s [(Reg.portXoff q, withBit (s.f (Reg.portXoff q)) i on)] v ∧
    s.ownPause q i on = if v.portUp q = true ∧ v.bas.freeze = false then { v with out := .frame q (padTo 60 ([0x01, 0x80, 0xC2, 0, 0, 0x01] ++ portMac (v.port q) ++ natBe 2 0x8808 ++
            natBe 2 0x0101 ++ natBe 2 (2 ^ i) ++ (List.range 8).flatMap fun j => natBe 2 (if j = i ∧ on = true then 0xFFFF else 0))) :: v.out } else v := by
  refine ⟨_, Sets.one _ _ _, ?_⟩
  unfold State.ownPause State.sendPfc
  generalize s.setF (Reg.portXoff q) (withBit (s.f (Reg.portXoff q)) i on) = v
  dsimp only
  by_cases h : v.portUp q = true ∧ v.bas.freeze = false
  · rw [if_pos h, if_neg (by simp [h])]
    rfl
  · rw [if_neg h, if_pos (by cases h1 : v.portUp q <;> cases h2 : v.bas.freeze <;> simp [h1, h2] at h ⊢)]
theorem portDown_down (u : State) (p : Fin 2) (n : Nat) : ∃ v, Sets u [(Reg.portLink p.val, n), (Reg.portXoff p.val, 0), (Reg.portPaused p.val, 0)] v ∧
    u.portDown p.val n = State.failoverPort { v with fab := { v.fab with
            held := v.fab.held.filter fun e => e.1 / 8 ≠ p.val, rx := v.fab.rx.filter fun e => e.1 / 8 ≠ p.val, limited := v.fab.limited.filter fun e => e.1 / 8 ≠ p.val } }
        p.val (fun _ => true) := by
  have k := portKeys p
  refine ⟨_, ((Sets.one u (Reg.portPaused p.val) 0).more (Reg.portXoff p.val) 0 (by simpa using k.1)).more (Reg.portLink p.val) n (by simpa using ⟨k.2.2.1, k.2.1⟩), rfl⟩
theorem noteFill_eq (s : State) (q i fill : Nat) (u : State) (hu : u = { s with fab := { s.fab with
            rx := s.fab.rx.set 0 (8 * q + i) fill, limited := if fill ≤ 49152 then s.fab.limited.erase (8 * q + i) else s.fab.limited } }) :
    s.noteFill q i fill = if ¬ bit (portPfc (s.port q)) i = true then u
      else if 49152 ≤ fill ∧ ¬ bit (s.f (Reg.portXoff q)) i = true ∧ (u.fab.limited.get? (8 * q + i)).isNone = true then u.ownPause q i true
      else if fill < 24576 ∧ bit (s.f (Reg.portXoff q)) i = true then u.ownPause q i false
      else u := by
  have e : u = if fill ≤ 49152 then { s with fab := { s.fab with rx := s.fab.rx.set 0 (8 * q + i) fill, limited := s.fab.limited.erase (8 * q + i) } }
      else { s with fab := { s.fab with rx := s.fab.rx.set 0 (8 * q + i) fill } } := by rw [hu]; split <;> rfl
  have f : u.f (Reg.portXoff q) = s.f (Reg.portXoff q) := by rw [hu]; rfl
  rw [← f]
  clear hu f
  subst e
  rfl
theorem failPort_fails (u : State) (q : Nat) (on : Bool) : if bit u.portsFailed q = on then u.failPort q on = u else
    Steady { u with portsFailed := withBit u.portsFailed q on }.graded (u.failPort q on) := by
  unfold State.failPort
  split
  · rfl
  · exact State.regrade_shape _

/-! ### Fabric connections -/

theorem conn_of_fab {s t : State} (h : t.fab = s.fab) (c : Nat) : t.conn c = s.conn c := by unfold State.conn; rw [h]
theorem conn_setConn (s : State) (c : Nat) (x : Conn) : (s.setConn c x).conn c = x := Map.get_set_self _ _ _ _
theorem giveBack_fab (s : State) (k pool : Nat) (r : Bool) : (s.giveBack k pool r).fab = s.fab := by unfold State.giveBack; split <;> rfl
theorem dropIn_dropped (u : State) (n : Nat) : ((∀ m, (u.conn n).inMsg = some m →
        u.dropIn n = (u.setConn n { u.conn n with inMsg := none }).giveBack m.units (1 + u.connSlot n) false) ∧
      ((u.conn n).inMsg = none → u.dropIn n = u)) ∧ (u.dropIn n).conn n = { u.conn n with inMsg := none } := by
  unfold State.dropIn
  dsimp only
  cases h : (u.conn n).inMsg with
  | none =>
    refine ⟨⟨fun m e => absurd e (by simp), fun _ => rfl⟩, ?_⟩
    show u.conn n = _
    rw [← h]
  | some m =>
    refine ⟨⟨fun m' e => by rw [Option.some.inj e], fun e => absurd e (by simp)⟩, ?_⟩
    show (State.giveBack _ _ _ _).conn n = _
    rw [conn_of_fab (giveBack_fab _ _ _ _), conn_setConn]
theorem sendHello_eq (u : State) (n p kind : Nat) (restart : Bool) (key : Bytes) : u.sendHello n p kind restart 0 key =
      (u.setConn n { u.conn n with packets := min 0xFFFF ((u.conn n).packets + 1) }).putFrame p (u.connPcp n p)
        (u.ilideFrame n p 0x20 0 0 (natBe 1 kind ++ natBe 1 (if restart = true then 1 else 0) ++ [0, 0] ++ natBe 4 0 ++ padTo 16 key ++ natBe 4 (u.time.cycles % 2 ^ 32)) []
          (if connSealed (u.connEntry n) = true then some (u.connKey n) else none)) := by
  unfold State.sendHello State.sendOn State.helloBody
  cases restart <;> rfl
theorem mayHello_iff (u : State) (n : Nat) : u.mayHello n = true ↔ ¬ (connSealed (u.connEntry n) = true ∧ u.roles.flint.drbg = false) := by
  unfold State.mayHello State.canNonce
  cases connSealed (u.connEntry n) <;> simp
theorem helloNonce_eq (u : State) (n : Nat) : u.helloNonce n = (if connSealed (u.connEntry n) = true then (u.draw 16).1 else u, if connSealed (u.connEntry n) = true then (u.draw 16).2 else []) := by
  unfold State.helloNonce
  split <;> rfl
theorem requestHello_facts (u : State) (n p : Nat) :
    ((connSealed (u.connEntry n) = true ∧ u.roles.flint.drbg = false) → u.requestHello n p = u.setConn n { u.conn n with port := p }) ∧
    (¬ (connSealed (u.connEntry n) = true ∧ u.roles.flint.drbg = false) → u.requestHello n p =
      ((if connSealed (u.connEntry n) = true then (u.draw 16).1 else u).setConn n { u.conn n with
          st := 2, port := p, nonce := if connSealed (u.connEntry n) = true then (u.draw 16).2 else [] }).sendHello n p 0 (u.conn n).restart 0
        (if connSealed (u.connEntry n) = true then (u.draw 16).2 else [])) := by
  refine ⟨fun k => ?_, fun k => ?_⟩
  · unfold State.requestHello
    rw [if_pos (by rw [mayHello_iff]; exact fun q => q k)]
  · unfold State.requestHello
    rw [if_neg (by rw [mayHello_iff]; exact fun q => q k), helloNonce_eq]
    dsimp only
    have e : (if connSealed (u.connEntry n) = true then (u.draw 16).1 else u).conn n = u.conn n := by split <;> rfl
    rw [e]
theorem noteConn (s : State) (code src : Nat) (a b d e : Nat) (i n : Nat) : ((s.record code src a b d e).bump i).conn n = s.conn n := conn_of_fab
  ((State.record_steady _ _ _ _ _ _ _).trans (State.bump_steady _ _)).fab n
theorem connDown_eq (u : State) (n : Nat) : u.connDown n =
    (if (u.conn n).st = 3 then ((((u.dropIn n).setConn n { u.conn n with inMsg := none, st := 1, session := none, tries := 0, movedOnce := false }).record 0x5011
        (Src.fab (u.conn n).port) n).bump 0x3A) else (u.dropIn n).setConn n { u.conn n with inMsg := none, st := 1, session := none, tries := 0, movedOnce := false }).requestHello n
      (connPref (u.connEntry n)) := by
  unfold State.connDown
  dsimp only
  have h := (dropIn_dropped u n).2
  rw [h]
/-- Abbreviations of the statement, for its proof. -/
def helloSent (n : Nat) (u : State) (p kind : Nat) (restart : Bool) (key : Bytes) : State :=
      (u.setConn n { u.conn n with packets := min 0xFFFF ((u.conn n).packets + 1) }).putFrame p (u.connPcp n p)
        (u.ilideFrame n p 0x20 0 0 (natBe 1 kind ++ natBe 1 (if restart = true then 1 else 0) ++ [0, 0] ++ natBe 4 0 ++ padTo 16 key ++ natBe 4 (u.time.cycles % 2 ^ 32)) []
          (if connSealed (u.connEntry n) = true then some (u.connKey n) else none))
def Requested (n : Nat) (u : State) (p : Nat) (t : State) : Prop :=
      (connSealed (u.connEntry n) = true ∧ u.roles.flint.drbg = false → t = u.setConn n { u.conn n with port := p }) ∧
      (¬ (connSealed (u.connEntry n) = true ∧ u.roles.flint.drbg = false) → t = helloSent n ((if connSealed (u.connEntry n) = true then (u.draw 16).1 else u).setConn n { u.conn n with
          st := 2, port := p, nonce := if connSealed (u.connEntry n) = true then (u.draw 16).2 else [] }) p 0 (u.conn n).restart
        (if connSealed (u.connEntry n) = true then (u.draw 16).2 else []))
def MessageDropped (n : Nat) (u t : State) : Prop := (∀ m, (u.conn n).inMsg = some m → t = (u.setConn n { u.conn n with inMsg := none }).giveBack m.units (1 + u.connSlot n) false) ∧
      ((u.conn n).inMsg = none → t = u)
def WentDown (n : Nat) (u t : State) : Prop := ∃ v w : State, MessageDropped n u v ∧
      (if (u.conn n).st = 3 then ∃ l, Logs (v.setConn n { u.conn n with inMsg := none, st := 1, session := none, tries := 0, movedOnce := false }) 0x5011
          (Src.fab (u.conn n).port) n 0 0 0 l ∧ Counts l 0x3A w
        else w = v.setConn n { u.conn n with inMsg := none, st := 1, session := none, tries := 0, movedOnce := false }) ∧
      Requested n w (connPref (u.connEntry n)) t
def resentFrom (n : Nat) (u : State) : State := (u.setConn n { u.conn n with snd := (u.conn n).una, holdUntil := 0 }).pump n 64
def FailsOver (n : Nat) (u t : State) : Prop :=
      ((u.conn n).st ≠ 3 → t = u) ∧
      ((u.conn n).st = 3 → (connAllows (u.connEntry n) (1 - (u.conn n).port) = true ∧ u.portUp (1 - (u.conn n).port) = true ∧
          u.barred (1 - (u.conn n).port) (u.connPcp n (1 - (u.conn n).port)) = false) →
        ∃ v w, Logs (u.setConn n { u.conn n with port := 1 - (u.conn n).port, failovers := min 0xFFFF ((u.conn n).failovers + 1) }) 0x5012 (Src.fab (1 - (u.conn n).port)) n
          (1 - (u.conn n).port) 0 0 v ∧ Counts v 0x3B w ∧ t = resentFrom n w) ∧
      ((u.conn n).st = 3 → ¬ (connAllows (u.connEntry n) (1 - (u.conn n).port) = true ∧ u.portUp (1 - (u.conn n).port) = true ∧
          u.barred (1 - (u.conn n).port) (u.connPcp n (1 - (u.conn n).port)) = false) → WentDown n u t)
theorem requestHello_requested (n : Nat) (u : State) (p : Nat) : Requested n u p (u.requestHello n p) :=
  ⟨(requestHello_facts u n p).1, fun k => ((requestHello_facts u n p).2 k).trans (sendHello_eq _ _ _ _ _ _)⟩
theorem connDown_goes (n : Nat) (u : State) : WentDown n u (u.connDown n) := by
  rw [connDown_eq]
  unfold WentDown
  by_cases k : (u.conn n).st = 3
  · simp only [if_pos k]
    exact ⟨_, _, (dropIn_dropped u n).1, ⟨_, ⟨_, .refl _, .refl _⟩, ⟨_, .refl _, .refl _⟩⟩, requestHello_requested _ _ _⟩
  · simp only [if_neg k]
    exact ⟨_, _, (dropIn_dropped u n).1, rfl, requestHello_requested _ _ _⟩
theorem failover_moves (n : Nat) (u : State) : FailsOver n u (u.failover n) := by
  unfold State.failover
  dsimp only
  refine ⟨fun k => if_pos k, fun k k2 => ?_, fun k k2 => ?_⟩
  · rw [if_neg (by simp [k]), if_pos (by simpa using k2)]
    exact ⟨_, _, ⟨_, .refl _, .refl _⟩, ⟨_, .refl _, .refl _⟩, rfl⟩
  · rw [if_neg (by simp [k]), if_neg (by simpa using k2)]
    exact connDown_goes n u
theorem release_facts (n : Nat) (u : State) : ((u.conn n).quarantined = false → u.release n = u) ∧
    ((u.conn n).quarantined = true → Logs (u.setConn n { u.conn n with quarantined := false, vioNow := 0, lastQNak := none }) 0x5041 Src.ilide n 0 0 0 (u.release n)) := by
  unfold State.release
  refine ⟨fun k => if_neg (by simp [k]), fun k => ?_⟩
  rw [if_pos k]
  exact ⟨_, .refl _, .refl _⟩
theorem retry_eq (u : State) (n : Nat) (x : Conn) (hx : u.conn n = x) :
    (x.movedOnce = true → Answers (ok (u.retryLimit n)) (WentDown n (u.setConn n { u.conn n with outq := x.outq.filter fun m => m.cairn ≠ 0 }))) ∧
    (x.movedOnce = false → Answers (ok (u.retryLimit n)) fun t => ∃ v, FailsOver n (u.setConn n { u.conn n with tries := 0 }) v ∧
      t = if (v.conn n).st = 3 then v.setConn n { v.conn n with movedOnce := true } else v) := by
  unfold State.retryLimit
  dsimp only
  rw [hx]
  refine ⟨fun k => ?_, fun k => ?_⟩
  · rw [if_pos k]
    exact ⟨_, rfl, connDown_goes n _⟩
  · rw [if_neg (by simp [k])]
    exact ⟨_, rfl, _, failover_moves n _, rfl⟩

end Sys2Proof.Machine
end

