-- ==== Sys2Proof/Laws/Link.lean ====
section
/-! SUPPORT. The PCIe link, the reads of host memory, rings, completion entries and the host mailbox (R178 to R229). -/

namespace Sys2Proof.Machine

/-! ### Host link -/

theorem linkFields (x : State) (v w r p : Nat) (f : Field) : (((((((x.setF Reg.linkSpeed v).setF Reg.linkWidth w).setF Reg.linkUp 1).setF
      Reg.linkReversed r).setF Reg.linkPolarity p).setF Reg.linkPm 0).f f) =
    (if f = Reg.linkSpeed then v % 8 else if f = Reg.linkWidth then w % 8 else if f = Reg.linkUp then 1 else if f = Reg.linkReversed then r % 2
     else if f = Reg.linkPolarity then p % 16 else if f = Reg.linkPm then 0 else
       (((((((x.setF Reg.linkSpeed v).setF Reg.linkWidth w).setF Reg.linkUp 1).setF Reg.linkReversed r).setF Reg.linkPolarity p).setF Reg.linkPm 0).f f)) := by
  by_cases h0 : f = Reg.linkSpeed
  · subst h0
    rw [if_pos rfl, State.f_setF_ne _ _ (by decide), State.f_setF_ne _ _ (by decide), State.f_setF_ne _ _ (by decide), State.f_setF_ne _ _ (by decide), State.f_setF_ne _ _ (by decide), State.f_setF_self]
    rfl
  rw [if_neg h0]
  by_cases h1 : f = Reg.linkWidth
  · subst h1
    rw [if_pos rfl, State.f_setF_ne _ _ (by decide), State.f_setF_ne _ _ (by decide), State.f_setF_ne _ _ (by decide), State.f_setF_ne _ _ (by decide), State.f_setF_self]
    rfl
  rw [if_neg h1]
  by_cases h2 : f = Reg.linkUp
  · subst h2
    rw [if_pos rfl, State.f_setF_ne _ _ (by decide), State.f_setF_ne _ _ (by decide), State.f_setF_ne _ _ (by decide), State.f_setF_self]
    rfl
  rw [if_neg h2]
  by_cases h3 : f = Reg.linkReversed
  · subst h3
    rw [if_pos rfl, State.f_setF_ne _ _ (by decide), State.f_setF_ne _ _ (by decide), State.f_setF_self]
    rfl
  rw [if_neg h3]
  by_cases h4 : f = Reg.linkPolarity
  · subst h4
    rw [if_pos rfl, State.f_setF_ne _ _ (by decide), State.f_setF_self]
    rfl
  rw [if_neg h4]
  by_cases h5 : f = Reg.linkPm
  · subst h5
    rw [if_pos rfl, State.f_setF_self]
    rfl
  rw [if_neg h5]
theorem linkOthers (x : State) (v w r p : Nat) (f : Field) (h : f.key / 32 ≠ 0x400) : (((((((x.setF Reg.linkSpeed v).setF Reg.linkWidth w).setF Reg.linkUp 1).setF
      Reg.linkReversed r).setF Reg.linkPolarity p).setF Reg.linkPm 0).f f) = x.f f := by
  have n : ∀ g : Field, g.key / 32 = 0x400 → f.key ≠ g.key := fun g hg e => h (by rw [e]; exact hg)
  rw [State.f_setF_ne _ _ (n _ (by decide)), State.f_setF_ne _ _ (n _ (by decide)), State.f_setF_ne _ _ (n _ (by decide)),
    State.f_setF_ne _ _ (n _ (by decide)), State.f_setF_ne _ _ (n _ (by decide)), State.f_setF_ne _ _ (n _ (by decide))]

/-! ### Host reads -/

theorem noteEnd_ring (s : State) (e : ReadEnd) (n : Nat) : (s.noteEnd e).ring n = s.ring n := by cases e <;> rfl
theorem noteEnd_movingCmd (s : State) (e : ReadEnd) (n t o : Nat) : (s.noteEnd e).movingCmd n t o = s.movingCmd n t o := by cases e <;> rfl
theorem ringFault_twice (s : State) (n cause : Nat) (f : Field) (x : Ring) (h : x ≠ {}) :
    ((s.setRing n x).setF f 1).ringFault n cause = ((s.setF f 1).setRing n { x with
      state := 3, fault := cause, fetching := none, indexing := false }).record 0x2022 Src.ring n cause := by
  unfold State.ringFault
  rw [show ((s.setRing n x).setF f 1).ring n = x from Map.get_set_self _ _ _ _]
  congr 1
  exact State.setRing_setRing (s.setF f 1) n x _ h (fun k => by have e : (3 : Nat) = 0 := congrArg Ring.state k; exact absurd e (by decide))

/-! ### Rings -/

theorem atBoundary_facts (r : Ring) : r.atBoundary.snap = r.snap ∧ r.atBoundary.sqHead = r.sqHead ∧ r.atBoundary.sqTail = r.sqTail ∧
    r.atBoundary.ctx.sqDepth = r.ctx.sqDepth ∧ r.atBoundary.fetching = r.fetching ∧ r.atBoundary.state = r.state := by
  unfold Ring.atBoundary
  repeat' split
  all_goals exact ⟨rfl, rfl, rfl, rfl, rfl, rfl⟩
/-- A ring that reads nothing and has no snapshot reads its pending slots. -/
theorem State.fetch_one (s : State) (n : Nat) (x : Ring) (hx : s.ring n = x) (hd : x.state = 1) (hp : s.mayPost = true) (hf : x.fetching = none)
    (hs : x.snap = none) (hc : x.cmds.length < 32) (hn : x.pendingSlots ≠ 0) :
    s.fetchAll n = (s.setRing n { x.atBoundary with fetching := some (x.sqHead, min (min x.atBoundary.ctx.prefetch x.pendingSlots) (x.ctx.sqDepth - x.sqHead)) }).emit
      (.hostRead (x.atBoundary.ctx.sqBase + 64 * x.sqHead) (64 * min (min x.atBoundary.ctx.prefetch x.pendingSlots) (x.ctx.sqDepth - x.sqHead))) := by
  have m1 : s.mayFetch n = true := by
    unfold State.mayFetch
    simp [hx, hd, hp, hf, hc, hn]
  obtain ⟨a1, a2, a3, a4, a5, a6⟩ := atBoundary_facts x
  have ps : x.atBoundary.pendingSlots = x.pendingSlots := by
    unfold Ring.pendingSlots; rw [a2, a3, a4]
  have fr : x.atBoundary.fetchRun = min (min x.atBoundary.ctx.prefetch x.pendingSlots) (x.ctx.sqDepth - x.sqHead) := by
    unfold Ring.fetchRun
    rw [a1, hs, ps, a2, a4]
  have fs : s.fetchStep n = (s.setRing n { x.atBoundary with fetching := some (x.atBoundary.sqHead, x.atBoundary.fetchRun) }).emit
      (.hostRead (x.atBoundary.ctx.sqBase + 64 * x.atBoundary.sqHead) (64 * x.atBoundary.fetchRun)) := by
    unfold State.fetchStep
    rw [hx]
    dsimp only
    rw [a1, hs]
  have e : s.fetchAll n = State.pumpFetch (s.fetchStep n) n 1024 := by
    unfold State.fetchAll
    show (if s.mayFetch n then _ else _) = _
    rw [if_pos m1]
  rw [e, fs, fr, a2]
  generalize hk : min (min x.atBoundary.ctx.prefetch x.pendingSlots) (x.ctx.sqDepth - x.sqHead) = k
  generalize hu : (s.setRing n { x.atBoundary with fetching := some (x.sqHead, k) }).emit (.hostRead (x.atBoundary.ctx.sqBase + 64 * x.sqHead) (64 * k)) = u
  have ur : u.ring n = { x.atBoundary with fetching := some (x.sqHead, k) } := by
    rw [← hu]
    exact Map.get_set_self _ _ _ _
  show (if u.mayFetch n then _ else u.trimBells n) = u
  have m2 : u.mayFetch n = false := by
    unfold State.mayFetch
    rw [ur]
    simp
  rw [if_neg (by simp [m2])]
  unfold State.trimBells
  rw [ur]
  dsimp only
  rw [if_neg]
  rw [a2, a3]
  intro h
  apply hn
  unfold Ring.pendingSlots
  rw [h, Nat.add_sub_cancel_left, Nat.mod_self]
theorem State.fetch_set (s : State) (n : Nat) (x : Ring) (hd : x.state = 1) (hp : s.mayPost = true) (hf : x.fetching = none)
    (hs : x.snap = none) (hc : x.cmds.length < 32) (hn : x.pendingSlots ≠ 0) :
    (s.setRing n x).fetchAll n = (s.setRing n { x.atBoundary with fetching := some (x.sqHead, min (min x.atBoundary.ctx.prefetch x.pendingSlots) (x.ctx.sqDepth - x.sqHead)) }).emit
      (.hostRead (x.atBoundary.ctx.sqBase + 64 * x.sqHead) (64 * min (min x.atBoundary.ctx.prefetch x.pendingSlots) (x.ctx.sqDepth - x.sqHead))) := by
  have hne : ∀ x : Ring, x.state = 1 → x ≠ {} := fun x h k => by rw [k] at h; exact absurd h (by decide)
  refine (State.fetch_one (s.setRing n x) n x (Map.get_set_self _ _ _ _) hd hp hf hs hc hn).trans (congrArg (fun u => State.emit u _) ?_)
  exact State.setRing_setRing s n x _ (hne _ hd) (hne _ ((atBoundary_facts x).2.2.2.2.2.trans hd))
theorem noteLtr_cases (s : State) : (s.noteLtr = s ∧ s.pcie.ltr = if s.cycleRing then 10 else 1000) ∨
    s.noteLtr = ({ s with pcie := { s.pcie with ltr := if s.cycleRing then 10 else 1000 } } : State).emit (.ltr (if s.cycleRing then 10 else 1000)) := by
  unfold State.noteLtr
  dsimp only
  by_cases k : s.pcie.ltr = if s.cycleRing then 10 else 1000
  · exact .inl ⟨if_pos k, k⟩
  · exact .inr (if_neg k)
theorem ringDist {a b d : Nat} (ha : a < d) (hb : b < d) (h : a ≠ b) : (a + d - b) % d ≠ 0 := by
  rcases Nat.lt_or_ge a b with k | k
  · rw [Nat.mod_eq_of_lt (by omega)]; omega
  · rw [show a + d - b = (a - b) + d by omega, Nat.add_mod_right, Nat.mod_eq_of_lt (by omega)]; omega

/-! ### Completion entries -/

theorem atBoundary_cq (r : Ring) : r.atBoundary.ctx.cqDepth = r.ctx.cqDepth ∧ r.atBoundary.cqHead = r.cqHead ∧ r.atBoundary.cqTail = r.cqTail ∧ r.atBoundary.state = r.state ∧
    r.atBoundary.waiting = r.waiting := by
  unfold Ring.atBoundary
  repeat' split
  all_goals exact ⟨rfl, rfl, rfl, rfl, rfl⟩
theorem atBoundary_waiting (r : Ring) (w : List Cpl) : ({ r with waiting := w } : Ring).atBoundary = { r.atBoundary with waiting := w } := by
  obtain ⟨sy, c, nr⟩ := r
  cases nr
  · rfl
  · cases sy <;> rfl
theorem State.settleRing_not2 (u : State) (n : Nat) (h : (u.ring n).state ≠ 2) : u.settleRing n = u := by
  unfold State.settleRing
  exact if_neg (by simp [h])
theorem State.flush_one (u : State) (n : Nat) (c : Cpl) (h : (u.ring n).waiting = [c]) : u.flushCpls n 1 =
    if ¬ u.mayPost then u
    else if (u.ring n).cqRoom then (u.setRing n { u.ring n with waiting := [] }).writeCpl n c
    else if c.counted then u else (u.setRing n { u.ring n with waiting := [{ c with counted := true }] }).bumpPlain 0x24 := by
  unfold State.flushCpls
  dsimp only
  rw [h]
  rfl
def State.cplOut (s : State) (r x : Ring) (c : Cpl) : List Out :=
  (if r.ctx.idxwr then [Out.hostWrite (r.ctx.idxBase + 8) (idxBytes x)] else []) ++ Out.hostWrite (r.ctx.cqBase + 32 * r.cqTail) (cplBytes r s.time.uptime c) :: s.out
theorem State.writeCpl_eq (u : State) (n : Nat) (c : Cpl) (r x : Ring) (hr : (u.ring n).atBoundary = r) (hx : r.advance c = x) :
    u.writeCpl n c = ({ u.setRing n x with out := State.cplOut u r x c } : State).moderate n c := by
  subst hr hx
  unfold State.writeCpl State.cplOut
  dsimp only
  rw [show ((u.ring n).atBoundary.advance c).ctx.idxwr = (u.ring n).atBoundary.ctx.idxwr from rfl]
  by_cases h : (u.ring n).atBoundary.ctx.idxwr = true
  · rw [if_pos h, if_pos h]; rfl
  · rw [if_neg h, if_neg h]; rfl
theorem State.moderate_eq (v : State) (n : Nat) (c : Cpl) (x : Ring) (h : v.ring n = x) : v.moderate n c =
    if c.async then v.signal 0 else if c.noint then v
    else if x.ctx.modTime = 0 ∨ x.ctx.modCount ≤ x.modN + 1 then (v.setRing n { x with modN := 0 }).signal x.ctx.vector
    else v.setRing n { x with modN := x.modN + 1, modSince := if x.modN = 0 then v.time.uptime else x.modSince } := by
  subst h; rfl

/-! ### Host mailbox -/

theorem fold_one {f : State → Nat → State} (s : State) (slot : Fin 8) : (List.range 8).foldl
    (fun t i => if bit (BitVec.ofNat 8 (2 ^ slot.val)).toNat i then f t i else t) s = f s slot.val := by
  have e : List.range 8 = [0, 1, 2, 3, 4, 5, 6, 7] := by decide
  have h : ∀ i : Fin 8, ∀ k : Fin 8, bit (BitVec.ofNat 8 (2 ^ i.val)).toNat k.val = decide (k = i) := by decide
  have g : ∀ k : Fin 8, bit (BitVec.ofNat 8 (2 ^ slot.val)).toNat k.val = decide (k = slot) := h slot
  generalize (BitVec.ofNat 8 (2 ^ slot.val)).toNat = v at *
  have g0 := g 0; have g1 := g 1; have g2 := g 2; have g3 := g 3; have g4 := g 4; have g5 := g 5; have g6 := g 6; have g7 := g 7
  clear h g
  rw [e]
  simp only [List.foldl]
  match slot with
  | 0 => simp [show bit v 0 = true from g0, show bit v 1 = false from g1, show bit v 2 = false from g2, show bit v 3 = false from g3, show bit v 4 = false from g4, show bit v 5 = false from g5, show bit v 6 = false from g6, show bit v 7 = false from g7]
  | 1 => simp [show bit v 0 = false from g0, show bit v 1 = true from g1, show bit v 2 = false from g2, show bit v 3 = false from g3, show bit v 4 = false from g4, show bit v 5 = false from g5, show bit v 6 = false from g6, show bit v 7 = false from g7]
  | 2 => simp [show bit v 0 = false from g0, show bit v 1 = false from g1, show bit v 2 = true from g2, show bit v 3 = false from g3, show bit v 4 = false from g4, show bit v 5 = false from g5, show bit v 6 = false from g6, show bit v 7 = false from g7]
  | 3 => simp [show bit v 0 = false from g0, show bit v 1 = false from g1, show bit v 2 = false from g2, show bit v 3 = true from g3, show bit v 4 = false from g4, show bit v 5 = false from g5, show bit v 6 = false from g6, show bit v 7 = false from g7] <;> rfl
  | 4 => simp [show bit v 0 = false from g0, show bit v 1 = false from g1, show bit v 2 = false from g2, show bit v 3 = false from g3, show bit v 4 = true from g4, show bit v 5 = false from g5, show bit v 6 = false from g6, show bit v 7 = false from g7] <;> rfl
  | 5 => simp [show bit v 0 = false from g0, show bit v 1 = false from g1, show bit v 2 = false from g2, show bit v 3 = false from g3, show bit v 4 = false from g4, show bit v 5 = true from g5, show bit v 6 = false from g6, show bit v 7 = false from g7] <;> rfl
  | 6 => simp [show bit v 0 = false from g0, show bit v 1 = false from g1, show bit v 2 = false from g2, show bit v 3 = false from g3, show bit v 4 = false from g4, show bit v 5 = false from g5, show bit v 6 = true from g6, show bit v 7 = false from g7] <;> rfl
  | 7 => simp [show bit v 0 = false from g0, show bit v 1 = false from g1, show bit v 2 = false from g2, show bit v 3 = false from g3, show bit v 4 = false from g4, show bit v 5 = false from g5, show bit v 6 = false from g6, show bit v 7 = true from g7] <;> rfl
theorem raiseGranted_steady (s : State) (i : Nat) (g : Bytes → Nat) (k : Nat) : Steady s (s.raiseGranted i g k) := by
  unfold State.raiseGranted
  split
  · exact State.raise_steady _ _ _
  · exact .refl _
theorem mbxBoundary_keeps (s : State) : s.mbxBoundary.mbx = s.mbx ∧ s.mbxBoundary.hooks = s.hooks := by
  unfold State.mbxBoundary; split <;> exact ⟨rfl, rfl⟩
theorem raiseGranted_eq (u : State) (i : Nat) (g : Bytes → Nat) (k : Nat) (s : State) (h : u.hooks = s.hooks) :
    u.raiseGranted i g k = if s.granted (fun e => g e &&& k ≠ 0) then u.raise 1 i else u := by
  unfold State.raiseGranted State.granted State.hookEntry
  rw [h]
theorem vector_eq {s x : State} (h : Steady s x) : (if x.bitF Reg.mbxIeTo then x.signal x.mbxVector else x) =
    if s.f Reg.mbxIeTo = 1 then x.signal (s.f Reg.mbxVector) else x := by
  unfold State.bitF State.mbxVector
  rw [h.csr _ (by decide), h.csr _ (by decide)]
  simp only [decide_eq_true_eq]
theorem slots (f : State → Nat → State) (put : Mbx → Nat → Mbx) (get : Mbx → Nat) (op : Bool → Bool → Bool) (pp : ∀ m v w, put (put m v) w = put m w)
    (pg : ∀ m, put m (get m) = m) (of : ∀ b, op b false = b)
    (one : ∀ (t : State) (i : Nat), put (f t i).mbx (get t.mbx) = t.mbx ∧ ∀ j, bit (get (f t i).mbx) j = op (bit (get t.mbx) j) (decide (j = i)))
    (s : State) (set : BitVec 8) :
    put ((List.range 8).foldl (fun t i => if bit set.toNat i then f t i else t) s).mbx (get s.mbx) = s.mbx ∧
    ∀ j : Fin 8, bit (get ((List.range 8).foldl (fun t i => if bit set.toNat i then f t i else t) s).mbx) j.val =
      op (bit (get s.mbx) j.val) (bit set.toNat j.val) := by
  have go : ∀ k, put ((List.range k).foldl (fun t i => if bit set.toNat i then f t i else t) s).mbx (get s.mbx) = s.mbx ∧
      ∀ j, bit (get ((List.range k).foldl (fun t i => if bit set.toNat i then f t i else t) s).mbx) j =
        if j < k then op (bit (get s.mbx) j) (bit set.toNat j) else bit (get s.mbx) j := by
    intro k
    induction k with
    | zero => exact ⟨pg _, fun j => by simp⟩
    | succ k ih =>
      rw [List.range_succ, List.foldl_append]
      generalize (List.range k).foldl (fun t i => if bit set.toNat i then f t i else t) s = t at *
      simp only [List.foldl]
      obtain ⟨i1, i2⟩ := ih
      by_cases h : bit set.toNat k = true
      · simp only [h, if_true]
        obtain ⟨o1, o2⟩ := one t k
        refine ⟨?_, fun j => ?_⟩
        · have e := pp (f t k).mbx (get t.mbx) (get s.mbx)
          rw [o1] at e
          rw [← e]
          exact i1
        · rw [o2, i2]
          by_cases e : j = k
          · subst e; simp [h]
          · simp only [e, decide_false, of]
            by_cases l : j < k
            · rw [if_pos l, if_pos (by omega)]
            · rw [if_neg l, if_neg (by omega)]
      · rw [if_neg h]
        refine ⟨i1, fun j => ?_⟩
        rw [i2]
        by_cases e : j = k
        · subst e; rw [if_neg (by omega), if_pos (by omega), Bool.eq_false_iff.mpr h, of]
        · by_cases l : j < k
          · rw [if_pos l, if_pos (by omega)]
          · rw [if_neg l, if_neg (by omega)]
  exact ⟨(go 8).1, fun j => by rw [(go 8).2, if_pos j.isLt]⟩
theorem postH2d_mbx (t : State) (i : Nat) : (t.postH2d i).mbx = if bit t.mbx.h2dFull i then t.mbx else { t.mbx with h2dFull := withBit t.mbx.h2dFull i true } := by
  unfold State.postH2d
  split
  · exact (State.bump_steady t 0x22).mbx
  · have e : ∀ u : State, (State.hookTrigger (State.raiseGranted (State.raise u 0 2) 2 grantH2dSlots (2 ^ i)) (hookIs 2 i)).mbx = u.mbx := fun u =>
      (((State.raise_steady _ _ _).trans (raiseGranted_steady _ _ _ _)).trans (State.hookTrigger_steady _ _)).mbx
    dsimp only
    rw [e, (mbxBoundary_keeps t).1]
theorem freeD2h_mbx (t : State) (i : Nat) : (t.freeD2h i).mbx = if bit t.mbx.d2hFull i then { t.mbx with d2hFull := withBit t.mbx.d2hFull i false } else t.mbx := by
  unfold State.freeD2h
  split
  · have e : ∀ u : State, (u.raiseFreed i).mbx = u.mbx := fun u => ((State.raise_steady _ _ _).trans (raiseGranted_steady _ _ _ _)).mbx
    rw [e]
  · split
    · exact (State.bump_steady t 0x21).mbx
    · rfl

end Sys2Proof.Machine
end

