-- ==== Sys2Proof/Laws/Media.lean ====
section
/-! SUPPORT. Volumes, self-tests, settings, the flash and its upkeep, and the DRAM controller (R274 to R412). -/

namespace Sys2Proof.Machine

/-! ### Volumes -/

theorem draw_keyed (s : State) (v : Nat) : Keyed s v (s.makeKey v) := ⟨_, .refl _, .refl _⟩
theorem filter_notin_nil {α : Type} (l : List α) (f : α → Bool) (h : ∀ a, f a = true) : l.filter f = l := List.filter_eq_self.2 fun a _ => h a
theorem emptied_nil (s : State) (f : Vol → Vol) : Emptied s [] f s :=
  ⟨fun v h => absurd h (by simp), fun _ _ => rfl, by simp [filter_notin_nil], by simp [filter_notin_nil], rfl, rfl, rfl⟩
theorem dropUnits_rest (s : State) (v : Nat) : (s.dropUnits v) = { s with
    alloc := (s.dropUnits v).alloc, led := (s.dropUnits v).led
    str := { s.str with
      units := s.str.units.filter fun u => !(u.vol == v && u.place == UnitAt.staged)
      loaded := s.str.loaded.filter fun k => k / 2 ^ 32 ≠ v
      cached := s.str.cached.filter fun k => k / 2 ^ 40 ≠ v }
    nv := { s.nv with drained := s.nv.drained.filter fun u => u.vol ≠ v } } ∧
    { (s.dropUnits v).alloc with genUsed := s.alloc.genUsed, resUsed := s.alloc.resUsed, released := s.alloc.released } = s.alloc ∧
    { (s.dropUnits v).led with charged := s.led.charged } = s.led := by
  unfold State.dropUnits
  dsimp only
  generalize (s.str.units.filter fun u => u.vol == v && u.place == UnitAt.staged) = l
  have k := giveBacks_rest l s
  have a : ∀ (l : List SUnit) (s0 : State), { (l.foldl (fun t u => t.giveBack 1 u.part u.fromReserve) s0).alloc with genUsed := s.alloc.genUsed, resUsed := s.alloc.resUsed, released := s.alloc.released } =
      { s0.alloc with genUsed := s.alloc.genUsed, resUsed := s.alloc.resUsed, released := s.alloc.released } ∧
      { (l.foldl (fun t u => t.giveBack 1 u.part u.fromReserve) s0).led with charged := s.led.charged } = { s0.led with charged := s.led.charged } := by
    intro l
    induction l with
    | nil => intro s0; exact ⟨rfl, rfl⟩
    | cons u l ih =>
      intro s0
      simp only [List.foldl]
      refine ⟨(ih _).1.trans ?_, (ih _).2.trans ?_⟩
      all_goals
        unfold State.giveBack
        dsimp only
        split <;> rfl
  have b := a l s
  generalize List.foldl (fun t u => State.giveBack t 1 u.part u.fromReserve) s l = s2 at *
  refine ⟨?_, b.1, b.2⟩
  clear b a
  have e1 : s2.str = s.str := by have e := congrArg State.str k; exact e
  have e2 : s2.nv = s.nv := by have e := congrArg State.nv k; exact e
  rw [e1, e2]
  exact congrArg (fun x : State => { x with
    alloc := s2.alloc, led := s2.led
    str := { s.str with
      units := s.str.units.filter fun u => !(u.vol == v && u.place == UnitAt.staged)
      loaded := s.str.loaded.filter fun k => k / 2 ^ 32 ≠ v
      cached := s.str.cached.filter fun k => k / 2 ^ 40 ≠ v }
    nv := { s.nv with drained := s.nv.drained.filter fun u => u.vol ≠ v } }) k
theorem emptied_one (s : State) (v : Nat) (f : Vol → Vol) (x : Vol) (hx : x = f (s.vol v)) :
    Emptied s [v] f (((s.dropUnits v).dropMarks v).setVol v x) := by
  obtain ⟨k1, k2, k3⟩ := dropUnits_rest s v
  generalize s.dropUnits v = u at *
  have n : ∀ a : Nat, (!(List.contains [v] a)) = (decide (a ≠ v)) := by intro a; by_cases h : a = v <;> simp [h]
  have m : ∀ a : Nat, ([v].contains a) = (a == v) := by intro a; by_cases h : a = v <;> simp [h]
  have hv : ∀ w, u.vol w = s.vol w := by intro w; rw [k1]; rfl
  refine ⟨fun w h => ?_, fun w h => ?_, ?_, ?_, k2, k3, ?_⟩
  · rw [List.mem_singleton.1 h, State.vol_setVol, hx]
  · rw [State.vol_setVol_ne _ _ (by simpa using h)]
    exact hv w
  · simp only [n]
    simp only [m]
    have e := congrArg State.str k1
    exact e
  · simp only [n]
    have e := congrArg (fun y : State => ({ y.nv with
      pins := y.nv.pins.filter fun p => p.vol ≠ v
      loss := { y.nv.loss with runs := y.nv.loss.runs.filter fun r => r.vol ≠ v }, vols := s.nv.vols } : Nv)) k1
    exact e
  · show ({ u with alloc := s.alloc, led := s.led, str := s.str, nv := s.nv } : State) = s
    have e := congrArg (fun y : State => { y with alloc := s.alloc, led := s.led, str := s.str, nv := s.nv }) k1
    exact e
theorem emptied_cons {s t u : State} {v : Nat} {vs : List Nat} {f : Vol → Vol} (hf : ∀ x, f (f x) = f x) (h : Emptied s [v] f t) (k : Emptied t vs f u) :
    Emptied s (v :: vs) f u := by
  have q : ∀ {α : Type} (l : List α) (g : α → Nat), (l.filter fun a => !([v].contains (g a))).filter (fun a => !(vs.contains (g a))) = l.filter fun a => !((v :: vs).contains (g a)) := by
    intro α l g
    rw [List.filter_filter]
    congr 1
    funext a
    by_cases e : g a = v <;> simp [e]
  have q2 : ∀ (l : List SUnit), (l.filter fun a => !([v].contains a.vol && a.place == UnitAt.staged)).filter (fun a => !(vs.contains a.vol && a.place == UnitAt.staged)) =
      l.filter fun a => !((v :: vs).contains a.vol && a.place == UnitAt.staged) := by
    intro l
    rw [List.filter_filter]
    congr 1
    funext a
    by_cases e : a.vol = v <;> cases hp : (a.place == UnitAt.staged) <;> simp [e]
  refine ⟨fun w hw => ?_, fun w hw => ?_, ?_, ?_, ?_, ?_, ?_⟩
  · by_cases e : w ∈ vs
    · rw [k.inside w e]
      by_cases e' : w = v
      · rw [h.inside w (by simp [e']), hf]
      · rw [h.outside w (by simp [e'])]
    · rw [k.outside w e]
      exact h.inside w (by simpa [e] using hw)
  · have a : w ≠ v ∧ w ∉ vs := by simpa using hw
    rw [k.outside w a.2, h.outside w (by simp [a.1])]
  · rw [k.str, h.str]
    simp only [q, q2]
  · have e := k.nv
    have e' := h.nv
    have p1 : t.nv.pins = s.nv.pins.filter fun p => !([v].contains p.vol) := by have e := congrArg Nv.pins e'; exact e
    have p2 : t.nv.loss = { s.nv.loss with runs := s.nv.loss.runs.filter fun r => !([v].contains r.vol) } := by have e := congrArg Nv.loss e'; exact e
    have p3 : t.nv.drained = s.nv.drained.filter fun u => !([v].contains u.vol) := by have e := congrArg Nv.drained e'; exact e
    have g := congrArg (fun x : Nv => { x with vols := s.nv.vols }) e
    refine g.trans ?_
    dsimp only
    rw [p1, p2, p3]
    simp only [q]
    exact congrArg (fun x : Nv => { x with
      pins := s.nv.pins.filter fun p => !((v :: vs).contains p.vol)
      loss := { s.nv.loss with runs := s.nv.loss.runs.filter fun r => !((v :: vs).contains r.vol) }
      drained := s.nv.drained.filter fun u => !((v :: vs).contains u.vol) }) e'
  · have e := congrArg (fun x : Alloc => { x with genUsed := s.alloc.genUsed, resUsed := s.alloc.resUsed, released := s.alloc.released }) k.alloc
    exact e.trans h.alloc
  · have e := congrArg (fun x : Ledger => { x with charged := s.led.charged }) k.led
    exact e.trans h.led
  · have e := congrArg (fun x : State => { x with str := s.str, nv := s.nv, alloc := s.alloc, led := s.led }) k.rest
    exact e.trans h.rest
theorem wipe_emptied (vs : List Nat) : ∀ s : State, Emptied s vs Vol.wiped (vs.foldl (fun t v => (((t.dropUnits v).dropMarks v).setVol v (t.vol v).wiped)) s) := by
  induction vs with
  | nil => intro s; exact emptied_nil s _
  | cons v vs ih => intro s; exact emptied_cons (fun _ => rfl) (emptied_one s v Vol.wiped _ rfl) (ih _)
theorem flag_facts (vs : List Nat) : ∀ s u : State, vs.foldl (fun t v => t.setVol v { t.vol v with sanitize := true }) s = u →
    (∀ w ∈ vs, u.vol w = { s.vol w with sanitize := true }) ∧ (∀ w, w ∉ vs → u.vol w = s.vol w) ∧ { u with nv := { u.nv with vols := s.nv.vols } } = s := by
  induction vs with
  | nil => intro s u h; cases h; exact ⟨fun w h => absurd h (by simp), fun _ _ => rfl, rfl⟩
  | cons v vs ih =>
    intro s u h
    obtain ⟨k1, k2, k3⟩ := ih _ _ h
    refine ⟨fun w hw => ?_, fun w hw => ?_, ?_⟩
    · by_cases e : w ∈ vs
      · rw [k1 w e]
        by_cases e' : w = v
        · rw [e', State.vol_setVol]
        · rw [State.vol_setVol_ne _ _ e']
      · have e' : w = v := by simpa [e] using hw
        rw [k2 w e, e', State.vol_setVol]
    · have a : w ≠ v ∧ w ∉ vs := by simpa using hw
      rw [k2 w a.2, State.vol_setVol_ne _ _ a.1]
    · exact congrArg (fun x : State => { x with nv := { x.nv with vols := s.nv.vols } }) k3
theorem freshKey_facts (s : State) (z : Nat) : (s.freshKey z).nv.vols = s.nv.vols ∧ (s.freshKey z).nv.keys.drawn = s.nv.keys.drawn + 64 ∧
    (s.freshKey z).nv.keys.vol.get? z = some { drawn := s.nv.keys.drawn, secret := none } ∧ ∀ y, y ≠ z → (s.freshKey z).nv.keys.vol.get? y = s.nv.keys.vol.get? y := by
  unfold State.freshKey
  have a := (State.record_steady { s with nv := { s.nv with keys := { s.nv.keys with vol := s.nv.keys.vol.erase z } } } 0x6042 Src.sec z 0 0 0)
  generalize State.record { s with nv := { s.nv with keys := { s.nv.keys with vol := s.nv.keys.vol.erase z } } } 0x6042 Src.sec z = u at *
  obtain ⟨v, h1, h2⟩ := draw_keyed u z
  generalize u.makeKey z = w at *
  have v1 : v.nv.keys = { u.nv.keys with drawn := u.nv.keys.drawn + 64, vol := u.nv.keys.vol.put z { drawn := u.nv.keys.drawn, secret := none } } := h1.nv_keys
  have w1 : w.nv.keys = v.nv.keys := (h2.nv_keys).trans ((State.record_steady v 0x6040 Src.sec z 0 0 0).nv_keys)
  have u1 : u.nv.keys = { s.nv.keys with vol := s.nv.keys.vol.erase z } := a.nv_keys
  have q : w.nv.vols = s.nv.vols := by
    have e1 : w.nv.vols = (v.record 0x6040 Src.sec z 0 0 0).nv.vols := by rw [← h2.nv]
    have e2 : (v.record 0x6040 Src.sec z 0 0 0).nv.vols = v.nv.vols := by rw [← (State.record_steady v 0x6040 Src.sec z 0 0 0).nv]
    have e3 : v.nv.vols = u.nv.vols := by have e := congrArg Nv.vols h1.nv; exact e
    have e4 : u.nv.vols = s.nv.vols := by have e := congrArg Nv.vols a.nv; exact e
    rw [e1, e2, e3, e4]
  refine ⟨q, ?_, ?_, fun y hy => ?_⟩
  · rw [w1, v1, u1]
  · rw [w1, v1, u1]; exact Map.get?_put _ _ _
  · rw [w1, v1, u1]
    show ((s.nv.keys.vol.erase z).put z _).get? y = _
    rw [Map.get?_put_ne _ _ hy, Map.get?_erase_ne _ hy]
theorem freshKeys_facts (vs : List Nat) : ∀ s : State, (vs.foldl State.freshKey s).nv.vols = s.nv.vols ∧
    s.nv.keys.drawn ≤ (vs.foldl State.freshKey s).nv.keys.drawn ∧
    (∀ z ∈ vs, ∃ k, (vs.foldl State.freshKey s).nv.keys.vol.get? z = some { drawn := k, secret := none } ∧ s.nv.keys.drawn ≤ k) ∧
    ∀ z, z ∉ vs → (vs.foldl State.freshKey s).nv.keys.vol.get? z = s.nv.keys.vol.get? z := by
  induction vs with
  | nil => intro s; exact ⟨rfl, Nat.le_refl _, fun z h => absurd h (by simp), fun _ _ => rfl⟩
  | cons v vs ih =>
    intro s
    obtain ⟨k1, k2, k3, k4⟩ := ih (s.freshKey v)
    obtain ⟨f1, f2, f3, f4⟩ := freshKey_facts s v
    refine ⟨k1.trans f1, by simp only [List.foldl]; omega, fun z hz => ?_, fun z hz => ?_⟩
    · by_cases e : z ∈ vs
      · obtain ⟨k, a, b⟩ := k3 z e
        exact ⟨k, a, by omega⟩
      · have e' : z = v := by simpa [e] using hz
        subst e'
        exact ⟨_, (k4 z e).trans f3, Nat.le_refl _⟩
    · have a : z ≠ v ∧ z ∉ vs := by simpa using hz
      exact (k4 z a.2).trans (f4 z a.1)

/-! ### Self tests -/

theorem endTest_ended (s : State) (x : SelfTest) (r k d : Nat) : TestEnded s x r k d (s.endTest x r k d) := by
  refine ⟨_, (s.endSelfRecord x r k d).noteTest x r k d, rfl, ?_, ?_⟩
  · unfold State.noteTest
    match r with
    | 0 => exact ⟨_, .refl _, .refl _⟩
    | 1 => exact ⟨_, .refl _, .refl _⟩
    | 2 => exact ⟨_, .refl _, .refl _⟩
    | r + 3 => rw [if_neg (by omega)]; rfl
  · rfl
theorem ended_none {s t : State} {x : SelfTest} {r k d : Nat} (h : TestEnded s x r k d t) : t.selfTest = none := by
  obtain ⟨u, v, rfl, h1, h2⟩ := h
  have hv : v.selfTest = none := by
    split at h1
    · obtain ⟨w, a, b⟩ := h1
      rw [b.selfTest, (State.record_steady _ _ _ _ _ _ _).selfTest, a.selfTest]
    · rw [h1]
  have f : ∀ (a : State) (n tag : Nat) (b : Bytes), a.selfTest = none → (match a.cmd? n tag with
    | some c => if c.opcode = 0x48 ∧ c.stage = Stage.running then a.complete c 0 b else a
    | none => a).selfTest = none := by
    intro a n tag b ha
    split
    · split
      · rw [(State.complete_steady _ _ _ _).selfTest]; exact ha
      · exact ha
    · exact ha
  rw [h2]
  dsimp only
  split
  · exact f _ _ _ _ (f _ _ _ _ hv)
  · exact f _ _ _ _ hv
theorem abandonHook_test (s : State) : s.abandonHook.selfTest = s.selfTest := by
  unfold State.abandonHook
  dsimp only
  split
  · rw [(State.record_steady _ _ _ _ _ _ _).selfTest]
    exact (State.bump_steady _ _).selfTest
  · exact (State.bump_steady _ _).selfTest
theorem faulty_none (s : State) (k n : Nat) (h : s.selfTest = none) : (s.faultyUnit k n).selfTest = none := by
  have fold : ∀ (l : List Cmd) (x : State) (st : Nat), (l.foldl (fun t c => t.complete c st []) x).selfTest = x.selfTest := fun l x st =>
    foldl_keeps _ (fun u => u.selfTest) (fun t c => (State.complete_steady t c st []).selfTest) l x
  unfold State.faultyUnit
  split
  · exact h
  · exact h
  · unfold State.engineFault
    dsimp only
    generalize hr : State.record _ _ _ _ _ _ _ = u
    have hu : u.selfTest = none := by
      rw [← hr, (State.record_steady _ _ _ _ _ _ _).selfTest]; exact h
    clear hr
    split
    · have hb : (u.bump 0x0A).selfTest = none := (State.bump_steady _ _).selfTest.trans hu
      generalize u.bump 0x0A = v at *
      unfold State.supervisorStopped
      split
      · exact hb
      · split
        · rw [(State.regrade_media _).selfTest]; exact hb
        · rw [(State.regrade_media _).selfTest]
          unfold State.abortK
          dsimp only
          have hs : v.stopHooks.selfTest = none := hb
          rw [hs, fold]; exact hs
    · split
      · split
        · rw [abandonHook_test, (State.bump_steady _ _).selfTest]; exact hu
        · exact hu
      · rw [(State.failChannel_media _ _).selfTest]; exact hu
  · rw [(State.failChannel_media _ _).selfTest]; exact h
  · rw [(State.failLun_media _ _ _).selfTest]; exact h
  · show (State.failEntropy _).selfTest = none
    unfold State.failEntropy
    rw [fold]; exact h
  · show (State.failEntropy _).selfTest = none
    unfold State.failEntropy
    rw [fold]; exact h
  · split
    · exact h
    · unfold State.crystalLost
      rw [(State.regrade_media _).selfTest, (State.record_steady _ _ _ _ _ _ _).selfTest, (State.bump_steady _ _).selfTest]
      exact h
  · unfold State.askMeasure
    split <;> exact h
  · exact h
theorem noteSoft_media (s : State) (lun : Fin 128) (b : Nat) (hb : b < 65536) : MediaSide s (s.noteMedia (locOf lun.val b) .soft) := by
  have e : locOf lun.val b / 2 ^ 32 = lun.val := by unfold locOf; omega
  have c : lunChannel lun.val < 8 := by unfold lunChannel; omega
  unfold State.noteMedia
  dsimp only
  rw [e]
  refine .ite (.refl _) ?_
  exact (((State.countErr_media s _ 1 c).trans (State.setLun_media _ _ _)).trans (State.bump_media _ _)).trans (State.moveBlock_media _ _ _ _)

/-! ### Administrative settings -/

theorem takes_of {s : State} {c : Cmd} {segs data : Bytes} {off : BitVec 22} {code : BitVec 3} {i : AdmXfer → Instr} {f : State → Bytes → State} {p : State → Prop}
    (run : ∀ x, exec (i x) s = ok (s.admIn c x f)) (hf : p (f s (padTo c.length data))) :
    (c.listOk c.length segs = true → Answers (exec (i (.done segs data)) s) p) ∧
    (c.listOk c.length segs = false → exec (i (.done segs data)) s = .next (s.complete c 0x0201 [])) ∧
    exec (i (.faulted off code)) s = .next (s.dmaFault c (descAt (cutRuns false false false 0 (c.runs c.length [])) off.toNat) code.toNat) := by
  refine ⟨fun h => ?_, fun h => ?_, ?_⟩
  · rw [run, admIn_done h]; exact ⟨_, rfl, hf⟩
  · rw [run]; exact congrArg ok (if_neg (by simp [h]))
  · rw [run]; rfl
theorem complete_test (l : List Cmd) (st : Nat) (s : State) : (l.foldl (fun t c => t.complete c st []) s).selfTest = s.selfTest :=
  foldl_keeps _ (fun u => u.selfTest) (fun t c => (State.complete_steady t c st []).selfTest) l s
theorem steady_eq {s t : State} (h : t = s) : Steady s t := by rw [h]; exact .refl _
theorem store_eq (s : State) (v i : Nat) (b : Bytes) : s.storeItem v i b = { s.commit with
    nv := { s.nv with config := s.nv.config.put (v * 65536 + i) b }
    tab := { s.tab with
      connStored := if v = 1 then s.tab.connStored.set [] i b else s.tab.connStored
      lunStored := if v = 2 then s.tab.lunStored.set [] i b else s.tab.lunStored } } := by
  have e1 := commit_nv s
  have e2 : s.commit.tab = s.tab := by
    obtain ⟨z, hz⟩ := commit_shape s
    rw [hz]
  unfold State.storeItem
  generalize s.commit = x at *
  rw [← e1, ← e2]
  split
  · rfl
  · rfl
  · rename_i v1 v2
    rw [if_neg v1, if_neg v2]

/-! ### Transfer ends -/

theorem writeDesc_steady (s : State) (c : Cmd) (d : Desc) : Steady s (s.writeDesc c d) := by
  unfold State.writeDesc
  dsimp only
  split
  · exact State.emit_steady _ _
  · refine Steady.foldl _ (fun t i => ?_) _ _
    split
    · exact .refl _
    · exact State.emit_steady _ _

/-! ### Flash upkeep -/

theorem quarryUp_iff (s : State) : s.quarryUp = true ↔ s.dieUp = true ∧ s.dev.minimal = false ∧ s.bas.freeze = false ∧ s.dev ≠ .draining := by
  unfold State.quarryUp
  simp only [Bool.and_eq_true, Bool.not_eq_true', decide_eq_true_eq, and_assoc]
theorem reclaim_media (s : State) (n m : Nat) : MediaSide s (s.reclaim n m) := by
  unfold State.reclaim
  dsimp only
  refine .ite (.refl _) ?_
  unfold State.reErase
  split
  · rename_i t h
    split at h
    · cases h
      exact State.queueOp_media _ _
    · exact absurd h (by simp)
  · refine .ite (.refl _) ?_
    split
    · exact State.moveBlock_media _ _ _ _
    · exact .refl _
theorem pumpRebuild_media (s : State) (n : Nat) : MediaSide s (s.pumpRebuild n) := by
  unfold State.pumpRebuild
  split
  · refine .ite (.refl _) ?_
    split
    · exact (State.openBlock_media _ _ _ _ _).trans (State.queueOp_media _ _)
    · exact .refl _
  · exact .refl _
theorem wearCheck_media (s : State) (n : Nat) : MediaSide s (s.wearCheck n) := by
  unfold State.wearCheck
  dsimp only
  split
  · exact .refl _
  · refine .ite ?_ (.refl _)
    exact (State.setLunRun_media _ _ _).trans (State.moveBlock_media _ _ _ _)
theorem refreshCohort_media (s : State) (n : Nat) (c : Cohort) : MediaSide s (s.refreshCohort n c) := by
  unfold State.refreshCohort
  dsimp only
  have h : MediaSide s (if 11 * accOne ≤ 10 * c.acc ∧ ¬ c.overdue = true then
      ((s.record 0x3090 Src.tumbler n c.cell).bump 0x17).setLun n { ((s.record 0x3090 Src.tumbler n c.cell).bump 0x17).lun n with
        cohorts := (((s.record 0x3090 Src.tumbler n c.cell).bump 0x17).lun n).cohorts.map fun d =>
          if d.period = c.period ∧ d.cell = c.cell then { d with overdue := true } else d } else s) :=
    .ite (((State.record_media _ _ _ _ _ _ _).trans (State.bump_media _ _)).trans (State.setLun_media _ _ _)) (.refl _)
  exact .ite (h.trans (MediaSide.foldl _ (fun t b => State.moveBlock_media t n b _) _ _)) h
theorem refreshLun_media (s : State) (n : Nat) : MediaSide s (s.refreshLun n) := MediaSide.foldl _ (fun t c => refreshCohort_media t n c) _ _
theorem holdBack_facts (u : State) (n : Nat) : ∃ (v w : State) (all : Bool),
    v.lunRun n = { u.lunRun n with heldBack := if u.freeCount n ≤ 2 then true else (u.lunRun n).heldBack && u.freeCount n < 3 } ∧
    (∀ m, m ≠ n → v.lunRun m = u.lunRun m) ∧ { v with fl := { v.fl with luns := u.fl.luns } } = u ∧
    (all = true ↔ v.healthyLuns ≠ [] ∧ ∀ m ∈ v.healthyLuns, (v.lunRun m).heldBack = true) ∧
    (if all = true ∧ v.fl.allHeld = false then Logs v 0x3062 Src.quarry 0 0 0 0 w else w = v) ∧
    u.holdBack n = { w with fl := { w.fl with allHeld := all } } := by
  unfold State.holdBack
  dsimp only
  generalize hv : u.setLunRun n _ = v
  have e : v.fl.allHeld = u.fl.allHeld := by rw [← hv]; rfl
  refine ⟨v, _, !v.healthyLuns.isEmpty && v.healthyLuns.all fun m => (v.lunRun m).heldBack, ?_, ?_, ?_, ?_, ?_, rfl⟩
  · rw [← hv]; exact Map.get_set_self _ _ _ _
  · intro m hm; rw [← hv]; exact Map.get_set_ne _ _ _ hm
  · rw [← hv]; rfl
  · simp [List.isEmpty_iff]
  · by_cases c : (!v.healthyLuns.isEmpty && v.healthyLuns.all fun m => (v.lunRun m).heldBack) = true ∧ ¬ v.fl.allHeld = true
    · rw [if_pos c, if_pos ⟨c.1, by simpa using c.2⟩]
      exact ⟨_, .refl _, .refl _⟩
    · rw [if_neg c, if_neg fun k => c ⟨k.1, by simp [k.2]⟩]

/-! ### Dram controller -/

theorem steady_dieUp {s t : State} (h : Steady s t) : t.dieUp = s.dieUp := by
  unfold State.dieUp; rw [h.dev, h.bas]
theorem askReinit_asks (x : State) : if x.f Reg.drcReinit = 1 then x.askReinit = x else ∃ u, Sets x [(Reg.drcReinit, 1)] u ∧ Logs u 0x4030 Src.dram 0 0 0 0 x.askReinit := by
  unfold State.askReinit State.bitF
  by_cases h : x.f Reg.drcReinit = 1
  · rw [if_pos h, if_pos (by simp [h])]
  · rw [if_neg h, if_neg (by simp [h])]
    exact ⟨_, Sets.one _ _ _, _, .refl _, .refl _⟩
theorem replayFailed_facts (x : State) : let k := min 3 (x.f Reg.drcRfail + 1)
    if k = 3 then ∃ u, Sets x [(Reg.drcReplay, 0), (Reg.drcRfail, k)] u ∧
      (if u.f Reg.drcReinit = 1 then x.replayFailed = u else ∃ v, Sets u [(Reg.drcReinit, 1)] v ∧ Logs v 0x4030 Src.dram 0 0 0 0 x.replayFailed)
    else Sets x [(Reg.drcRfail, k)] x.replayFailed := by
  unfold State.replayFailed
  dsimp only
  generalize min 3 (x.f Reg.drcRfail + 1) = k
  by_cases h : k = 3
  · rw [if_pos h]
    refine ⟨(x.setF Reg.drcRfail k).setF Reg.drcReplay 0, (Sets.one _ _ _).more _ _ (by simp; decide), ?_⟩
    rw [if_pos h]
    exact askReinit_asks _
  · rw [if_neg h, if_neg h]
    exact Sets.one _ _ _
theorem reinitFailed_facts (x : State) (hu : x.dieUp = true) (hf : x.bas.freeze = false) : let k := min 3 (x.f Reg.drcIfail + 1)
    if k = 3 then ∃ u v : State, Sets { x with dram := { x.dram with initing := false } } [(Reg.drcIfail, k)] u ∧ Logs u 0x4031 Src.dram 0 0 0 0 v ∧
        Drains { v with bas := { v.bas with nextSrc := 3 } } .restart true x.reinitFailed
      else Sets { x with dram := { x.dram with initing := false } } [(Reg.drcReinit, 1), (Reg.drcIfail, k)] x.reinitFailed := by
  unfold State.reinitFailed
  dsimp only
  generalize min 3 (x.f Reg.drcIfail + 1) = k
  have k1 : Sets { x with dram := { x.dram with initing := false } } [(Reg.drcIfail, k)] { x.setF Reg.drcIfail k with dram := { (x.setF Reg.drcIfail k).dram with initing := false } } :=
    (Sets.one x Reg.drcIfail k).of_eq rfl rfl rfl
  by_cases h : k = 3
  · rw [if_pos h, if_pos h]
    refine ⟨_, _, k1, ⟨_, .refl _, .refl _⟩, ?_⟩
    have st := State.record_steady { x.setF Reg.drcIfail k with dram := { (x.setF Reg.drcIfail k).dram with initing := false } } 0x4031 Src.dram 0 0 0 0
    refine freezeNow_drains _ _ _ ?_ ?_
    · exact (steady_dieUp st).trans hu
    · have e := congrArg (fun b : Basalt => b.freeze) st.bas
      exact e.trans hf
  · rw [if_neg h, if_neg h]
    exact k1.more _ _ (by simp; decide)
theorem eccUncorrectable_facts (x : State) (addr k : Nat) : ∃ u v w z : State,
    Sets x [(Reg.eccUncorr, min (2 ^ Reg.eccUncorr.width - 1) (x.f Reg.eccUncorr + 1)), (Reg.eccAddr, addr / 32 % 2 ^ 28 + 2 ^ 28 * b2n true + 2 ^ 29 * (addr / 4 % 8))] u ∧
    Counts u 0x1B v ∧ Logs v 0x4011 Src.dram (addr % 2 ^ 32) k 0 0 w ∧
    (match k with
      | 1 => z = State.abandonMoves { w with dram := { w.dram with uncorr := x.time.uptime :: x.dram.uncorr.filter fun b => x.time.uptime < b + msTicks 1000 } }
      | 2 => Counts { w with dram := { w.dram with uncorr := x.time.uptime :: x.dram.uncorr.filter fun b => x.time.uptime < b + msTicks 1000 } } 0x13 z
      | 4 => z = State.restoreReads { w with dram := { w.dram with uncorr := x.time.uptime :: x.dram.uncorr.filter fun b => x.time.uptime < b + msTicks 1000 } }
      | _ => z = { w with dram := { w.dram with uncorr := x.time.uptime :: x.dram.uncorr.filter fun b => x.time.uptime < b + msTicks 1000 } }) ∧
    if 16 ≤ (x.time.uptime :: x.dram.uncorr.filter fun b => x.time.uptime < b + msTicks 1000).length then
      (if z.f Reg.drcReinit = 1 then x.eccUncorrectable addr k = z else
        ∃ y, Sets z [(Reg.drcReinit, 1)] y ∧ Logs y 0x4030 Src.dram 0 0 0 0 (x.eccUncorrectable addr k))
    else x.eccUncorrectable addr k = z := by
  unfold State.eccUncorrectable
  have q : (x.latchEcc addr true).f Reg.eccUncorr = x.f Reg.eccUncorr := State.f_setF_ne _ _ (by decide)
  have k1 : Sets x [(Reg.eccUncorr, min (2 ^ Reg.eccUncorr.width - 1) (x.f Reg.eccUncorr + 1)), (Reg.eccAddr, addr / 32 % 2 ^ 28 + 2 ^ 28 * b2n true + 2 ^ 29 * (addr / 4 % 8))]
      ((x.latchEcc addr true).countF Reg.eccUncorr 1) := by
    rw [← q]
    exact (Sets.one x Reg.eccAddr _).more _ _ (by simp; decide)
  generalize (x.latchEcc addr true).countF Reg.eccUncorr 1 = u at *
  dsimp only
  generalize hw : (u.bump 0x1B).record 0x4011 Src.dram (addr % 2 ^ 32) k = w
  generalize (x.time.uptime :: x.dram.uncorr.filter fun b => x.time.uptime < b + msTicks 1000) = us
  generalize hz : (if k = 1 then State.abandonMoves { w with dram := { w.dram with uncorr := us } } else _) = z
  refine ⟨u, u.bump 0x1B, w, z, k1, ⟨_, .refl _, .refl _⟩, ⟨_, .refl _, by rw [← hw]; exact .refl _⟩, ?_, ?_⟩
  · rw [← hz]
    split
    · rfl
    · exact ⟨_, .refl _, .refl _⟩
    · rfl
    · rename_i a1 a2 a3
      rw [if_neg a1, if_neg a2, if_neg a3]
  · split
    · exact askReinit_asks z
    · rfl

end Sys2Proof.Machine
end

