-- ==== Sys2Proof/Laws/Registers.lean ====
section
/-! SUPPORT. Register accesses and the synchronisation of the instance tables (R7 to R21). -/

namespace Sys2Proof.Machine

/-! ### Register access -/

theorem readClear_run (s : State) (p : Path) (a : BitVec 20) (hr : s.reaches p = true) (h1 : a.toNat < 0x10000) (h4 : a.toNat % 4 = 0)
    (hd : inDebug a.toNat = false) (hm : a.toNat < 0x800 ∨ 0x908 ≤ a.toNat) :
    execReadClear p a .b4 s = .next ((s.readEffect p a.toNat 0 4).emit (.regRead (s.regWord p a.toNat % 2 ^ 32))) := by
  have ha : a.toNat / 4 * 4 = a.toNat := by omega
  unfold execReadClear State.busRead
  simp only [hr, not_true_eq_false, if_false, ha, h4, hd, Bool.false_eq_true]
  rw [if_neg (by omega), if_neg (by omega)]
  simp [cutWord, sizeBytes, ok]
theorem registerWrite_run (s : State) (p : Path) (a : BitVec 20) (v : Word) (hr : s.reaches p = true) (h1 : a.toNat < 0x10000)
    (h4 : a.toNat % 4 = 0) (hd : inDebug a.toNat = false) (hm : a.toNat < 0x800 ∨ 0x908 ≤ a.toNat) (hv : s.dev ≠ .recovery) :
    execRegisterWrite p a v .b4 s = .next (match regWriter a.toNat with
      | none => s.ignoredWrite
      | some w => if s.notRunning a.toNat ∨ ¬ s.mayWrite p a.toNat v.toNat w then s.ignoredWrite else s.regEffect a.toNat v.toNat) := by
  have hlt : v.toNat % 2 ^ 32 = v.toNat := Nat.mod_eq_of_lt v.isLt
  unfold execRegisterWrite State.busWrite State.regWrite
  simp only [hr, not_true_eq_false, if_false, hd, Bool.false_eq_true, hv, not_false_eq_true, or_true, true_or, if_true, sizeBytes, h4, hlt,
    ne_eq, or_self, ok]
  rw [if_neg (by omega), if_neg (by omega)] <;> rfl
theorem registerWrite_any (s : State) (p : Path) (a : BitVec 20) (k : Nat) (v : Word) (hk : a.toNat = k)
    (hr : s.reaches p = true) (hv : s.dev ≠ .recovery) (h1 : k < 0x10000) (h4 : k % 4 = 0)
    (hd : inDebug k = false) (hm : k < 0x800 ∨ 0x908 ≤ k) (hw : regWriter k = some .any) (hs : needsService k = false) (h3 : k ≠ 0x30) :
    execRegisterWrite p a v .b4 s = .next (s.regEffect k v.toNat) := by
  subst hk
  rw [registerWrite_run s p a v hr h1 h4 hd hm hv, hw]
  simp [State.notRunning, hs, State.mayWrite, h3]
theorem notRunning_low (s : State) {a : Nat} (h : needsService a = false) : s.notRunning a = false := by
  simp [State.notRunning, h]
theorem readHigh (t : State) (p : Path) (x : L64) (hr : t.reaches p = true) (hv : t.dev ≠ .recovery) :
    execReadClear p (BitVec.ofNat 20 (l64Offset x + 4)) .b4 t =
      .next (t.emit (.regRead (t.time.holding.get 0 (holdKey p x) % 2 ^ 32))) := by
  cases x <;>
  · rw [readClear_run t p _ hr (by decide) (by decide) (by decide) (by decide)]
    simp [State.readEffect, State.regWord, l64Offset, State.notRunning, needsService, l64Low, l64High, hv, State.clearStatus,
      State.clearFields, (by decide : regWriter 0x3004 = some .any), (by decide : regWriter 0x300C = some .any),
      (by decide : regWriter 0x3014 = some .any), (by decide : regWriter 0x600C = some .any),
      (by decide : regWriter 0x7014 = some .any), (by decide : fieldsAt 0x3004 = []), (by decide : fieldsAt 0x300C = []),
      (by decide : fieldsAt 0x3014 = []), (by decide : fieldsAt 0x600C = []), (by decide : fieldsAt 0x7014 = [])]
theorem effect_hqBase (s : State) (v : Word) : s.regEffect 0x1000 v.toNat =
      if s.blockRuns 0x1000 = true then s.staticDropped 0x1000 else s.setF Reg.hqBaseLo (v.toNat / 512) := by
  have hl : v.toNat / 2 ^ 9 < 2 ^ 23 := by have := v.isLt; omega
  have h0 : v.toNat / 512 % 8388608 = v.toNat / 512 := Nat.mod_eq_of_lt hl
  have hf : fieldsAt 0x1000 = [Reg.hqBaseLo] := by decide
  cases hb : s.blockRuns 4096 <;>
    simp [State.regEffect, State.writeHq, State.writeStatic, hf, hb] <;> simp [Reg.hqBaseLo, rwS] <;> rw [h0]
theorem static_dropped (s : State) : Answers (.next (s.staticDropped 0x1000)) fun t =>
      t.f Reg.hqBaseLo = s.f Reg.hqBaseLo ∧ t.f Reg.glbStaticWr = 1 ∧
      (s.f Reg.glbStaticWr ≠ 1 → t.f Reg.glbErrAddr = 0x1000) ∧ (s.f Reg.glbStaticWr = 1 → t.f Reg.glbErrAddr = s.f Reg.glbErrAddr) ∧
      ∃ u : State, { u with csr := s.csr } = s ∧ Logs u 0x1040 Src.start 0x1000 0 0 0 t := by
  refine ⟨_, rfl, ?_⟩
  unfold State.staticDropped
  simp only
  generalize hu : (if s.bitF Reg.glbStaticWr = true then s else (s.setF Reg.glbStaticWr 1).setF Reg.glbErrAddr 0x1000) = u
  have h : Steady u ((u.record 0x1040 Src.start 0x1000).bump 0x0E) := (State.record_steady _ _ _ _ _ _ _).trans (State.bump_steady _ _)
  have hn : ∀ f ∈ [Reg.hqBaseLo, Reg.glbStaticWr, Reg.glbErrAddr], ∀ g ∈ noticeFields, f.key ≠ g.key := by decide
  rw [h.csr _ (hn _ (by simp)), h.csr _ (hn _ (by simp)), h.csr _ (hn _ (by simp))]
  subst hu
  by_cases hb : s.bitF Reg.glbStaticWr = true
  · have h1 : s.f Reg.glbStaticWr = 1 := by simpa [State.bitF] using hb
    rw [if_pos hb]
    exact ⟨rfl, h1, fun h => absurd h1 h, fun _ => rfl, s, rfl, _, .refl _, State.bump_steady _ _⟩
  · have h1 : ¬ s.f Reg.glbStaticWr = 1 := by simpa [State.bitF] using hb
    rw [if_neg hb]
    refine ⟨?_, ?_, fun _ => ?_, fun h => absurd h h1, _, ?_, _, .refl _, State.bump_steady _ _⟩
    · rw [State.f_setF_ne _ _ (by decide), State.f_setF_ne _ _ (by decide)]
    · rw [State.f_setF_ne _ _ (by decide), State.f_setF_self]; rfl
    · rw [State.f_setF_self]; rfl
    · rfl
theorem writer_rxDly (n : Fin 8) : regWriter (BitVec.ofNat 20 (0x9004 + 0x100 * n.val)).toNat = some .installer := by
  revert n; decide
theorem fields_rxDly (n : Fin 8) : fieldsAt (BitVec.ofNat 20 (0x9004 + 0x100 * n.val)).toNat = [Reg.rxDly n.val] := by
  revert n; decide
theorem notRunning_rxDly (s : State) (n : Fin 8) : s.notRunning (BitVec.ofNat 20 (0x9004 + 0x100 * n.val)).toNat = false :=
  notRunning_low s (by revert n; decide)
theorem effect_rxDly (s : State) (v : Word) (n : Fin 8) : s.regEffect (BitVec.ofNat 20 (0x9004 + 0x100 * n.val)).toNat v.toNat =
    { s with staged := s.staged.put (Reg.rxDly n.val).key (v.toNat % 256) } := by
  have e : (BitVec.ofNat 20 (0x9004 + 0x100 * n.val)).toNat = 0x9004 + 0x100 * n.val := by revert n; decide
  have hf := fields_rxDly n
  have hn := n.isLt
  unfold State.regEffect
  rw [if_neg (by omega), if_neg (by omega), if_neg (by omega), if_neg (by omega), if_neg (by omega), if_neg (by omega), if_neg (by omega),
    if_neg (by omega), if_neg (by omega), if_neg (by omega), if_neg (by omega), if_neg (by omega), if_neg (by omega), if_neg (by omega),
    if_neg (by omega), if_neg (by omega)]
  unfold State.writeFields
  rw [hf]
  simp [State.writeField, Reg.rxDly, rwB]
theorem key_ne {f g : Field} (hf : f.lo < 32) (hg : g.lo < 32) (h : g.off ≠ f.off) : g.key ≠ f.key := by
  unfold Field.key; omega
theorem ones_clear (s : State) (v : Nat) : Answers (.next (s.regEffect 0x40C v)) fun t =>
    { t with csr := s.csr } = s ∧ (∀ g : Field, g.off ≠ 0x40C → g.lo < 32 → t.f g = s.f g) ∧
      ∀ g ∈ [Reg.errPoison, Reg.errCplTo, Reg.errUnexp, Reg.errFatal], s.f g ≤ 1 → t.f g = if v.testBit g.lo then 0 else s.f g := by
  have e : s.regEffect 0x40C v = ((((s.writeField v Reg.errPoison).writeField v Reg.errCplTo).writeField v Reg.errUnexp).writeField v Reg.errFatal) := by
    have hf : fieldsAt 0x40C = [Reg.errPoison, Reg.errCplTo, Reg.errUnexp, Reg.errFatal] := by decide
    simp [State.regEffect, State.writeFields, hf]
  have hw : ∀ (t : State) (f : Field), f ∈ [Reg.errPoison, Reg.errCplTo, Reg.errUnexp, Reg.errFatal] →
      t.writeField v f = t.setF f (t.f f - (t.f f &&& (v / 2 ^ f.lo % 2))) := by
    intro t f hf
    simp only [List.mem_cons, List.not_mem_nil, or_false] at hf
    rcases hf with rfl | rfl | rfl | rfl <;> rfl
  rw [hw _ _ (by simp), hw _ _ (by simp), hw _ _ (by simp), hw _ _ (by simp)] at e
  rw [e]
  refine ⟨_, rfl, rfl, fun g ho hl => ?_, ?_⟩
  · have hk : ∀ f : Field, f.off = 0x40C → f.lo < 32 → g.key ≠ f.key := fun f h1 h2 => key_ne h2 hl (by rw [h1]; exact ho)
    rw [State.f_setF_ne _ _ (hk Reg.errFatal rfl (by decide)), State.f_setF_ne _ _ (hk Reg.errUnexp rfl (by decide)),
      State.f_setF_ne _ _ (hk Reg.errCplTo rfl (by decide)), State.f_setF_ne _ _ (hk Reg.errPoison rfl (by decide))]
  · have hb : ∀ x i : Nat, x ≤ 1 → (x - (x &&& (v / 2 ^ i % 2))) % 2 = if v.testBit i then 0 else x := by
      intro x i hx
      rw [Nat.testBit_eq_decide_div_mod_eq]
      have h2 : v / 2 ^ i % 2 = 0 ∨ v / 2 ^ i % 2 = 1 := by omega
      have h3 : x = 0 ∨ x = 1 := by omega
      rcases h2 with h | h <;> rcases h3 with rfl | rfl <;> simp [h]
    intro g hg
    simp only [List.mem_cons, List.not_mem_nil, or_false] at hg
    rcases hg with rfl | rfl | rfl | rfl <;> intro hx
    · rw [State.f_setF_ne _ _ (by decide), State.f_setF_ne _ _ (by decide), State.f_setF_ne _ _ (by decide), State.f_setF_self]
      exact hb _ _ hx
    · rw [State.f_setF_ne _ _ (by decide), State.f_setF_ne _ _ (by decide), State.f_setF_self, State.f_setF_ne _ _ (by decide)]
      exact hb _ _ hx
    · rw [State.f_setF_ne _ _ (by decide), State.f_setF_self, State.f_setF_ne _ _ (by decide), State.f_setF_ne _ _ (by decide)]
      exact hb _ _ hx
    · rw [State.f_setF_self, State.f_setF_ne _ _ (by decide), State.f_setF_ne _ _ (by decide), State.f_setF_ne _ _ (by decide)]
      exact hb _ _ hx
theorem word_resets (s : State) (p : Path) (hv : s.dev ≠ .recovery) : s.regWord p 0x408 =
    ([Reg.resetsFlr, Reg.resetsHot, Reg.resetsPerst, Reg.resetsDegrade].map fun g => s.shown g * 2 ^ g.lo).sum := by
  have hf : fieldsAt 0x408 = [Reg.resetsFlr, Reg.resetsHot, Reg.resetsPerst, Reg.resetsDegrade] := by decide
  have hw : regWriter 0x408 = some .any := by decide
  unfold State.regWord
  rw [if_neg (by simp [hw, hv]), if_neg (by simp [State.notRunning, needsService])]
  show s.fieldWord 0x408 + 0 = _
  unfold State.fieldWord
  rw [hf, Nat.add_zero]
theorem effect_resets (s : State) (p : Path) (hv : s.dev ≠ .recovery) : s.readEffect p 0x408 0 4 =
    (((s.setF Reg.resetsFlr 0).setF Reg.resetsHot 0).setF Reg.resetsPerst 0).setF Reg.resetsDegrade 0 := by
  have hf : ((fieldsAt 0x408).filter fun f => (f.access = .rc || f == Reg.rctMax) && covered 0 4 f.lo f.width) =
    [Reg.resetsFlr, Reg.resetsHot, Reg.resetsPerst, Reg.resetsDegrade] := by decide
  have hw : regWriter 0x408 = some .any := by decide
  unfold State.readEffect
  rw [if_neg (by simp [hw, hv, State.notRunning, needsService])]
  show ((s.clearFields 0x408 0 4).clearStatus 0x408 0 4) = _
  unfold State.clearFields
  rw [hf]
  rfl
theorem resets_clear (s : State) (p : Path) (hv : s.dev ≠ .recovery) :
    Answers (.next ((s.readEffect p 0x408 0 4).emit (.regRead (s.regWord p 0x408 % 2 ^ 32)))) fun t => ∃ u : State,
      t = u.emit (.regRead (([Reg.resetsFlr, Reg.resetsHot, Reg.resetsPerst, Reg.resetsDegrade].map fun g => s.shown g * 2 ^ g.lo).sum % 2 ^ 32)) ∧
      { u with csr := s.csr } = s ∧ (∀ g ∈ [Reg.resetsFlr, Reg.resetsHot, Reg.resetsPerst, Reg.resetsDegrade], u.f g = 0) ∧
      ∀ g : Field, g.off ≠ 0x408 → g.lo < 32 → u.f g = s.f g := by
  rw [word_resets s p hv, effect_resets s p hv]
  refine ⟨_, rfl, _, rfl, rfl, ?_, fun g ho hl => ?_⟩
  · intro g hg
    simp only [List.mem_cons, List.not_mem_nil, or_false] at hg
    rcases hg with rfl | rfl | rfl | rfl
    · rw [State.f_setF_ne _ _ (by decide), State.f_setF_ne _ _ (by decide), State.f_setF_ne _ _ (by decide), State.f_setF_self, Nat.zero_mod]
    · rw [State.f_setF_ne _ _ (by decide), State.f_setF_ne _ _ (by decide), State.f_setF_self, Nat.zero_mod]
    · rw [State.f_setF_ne _ _ (by decide), State.f_setF_self, Nat.zero_mod]
    · rw [State.f_setF_self, Nat.zero_mod]
  · have hk : ∀ f : Field, f.off = 0x408 → f.lo < 32 → g.key ≠ f.key := fun f h1 h2 => key_ne h2 hl (by rw [h1]; exact ho)
    rw [State.f_setF_ne _ _ (hk Reg.resetsDegrade rfl (by decide)), State.f_setF_ne _ _ (hk Reg.resetsPerst rfl (by decide)),
      State.f_setF_ne _ _ (hk Reg.resetsHot rfl (by decide)), State.f_setF_ne _ _ (hk Reg.resetsFlr rfl (by decide))]

/-! ### Table syncs -/

theorem get?_put_self {α : Type} (m : Map α) (k : Nat) (v : α) : (m.put k v).get? k = some v := by
  induction m with
  | nil => simp [Map.put, Map.get?]
  | cons p m ih =>
    obtain ⟨a, w⟩ := p
    unfold Map.put
    split
    · simp [Map.get?]
    · split
      · simp [Map.get?]
      · rename_i h; simp [Map.get?, h, ih]
theorem rejectSync_facts (s : State) (y : Sync) :
    (s.rejectSync y).tab = { s.tab with sync := none } ∧ (s.rejectSync y).f Reg.syncBusy = 0 ∧ (s.rejectSync y).f Reg.syncReject = 1 ∧
      ∃ u : State, { u with tab := s.tab, csr := s.csr } = s ∧ Logs u 0x1041 Src.keystone y.table y.index 0 0 (s.rejectSync y) := by
  unfold State.rejectSync
  generalize hu : (({ s with tab.sync := none } : State).setF Reg.syncReject 1).setF Reg.syncBusy 0 = u
  have h : Steady u ((u.record 0x1041 Src.keystone y.table y.index).bump 0x0F) := (State.record_steady _ _ _ _ _ _ _).trans (State.bump_steady _ _)
  have hn : ∀ f ∈ [Reg.syncBusy, Reg.syncReject], ∀ g ∈ noticeFields, f.key ≠ g.key := by decide
  refine ⟨?_, ?_, ?_, u, ?_, _, .refl _, State.bump_steady _ _⟩
  · rw [h.tab]; subst hu; rfl
  · rw [h.csr _ (hn _ (by simp))]; subst hu; rw [State.f_setF_self]; rfl
  · rw [h.csr _ (hn _ (by simp))]; subst hu; rw [State.f_setF_ne _ _ (by decide), State.f_setF_self]; rfl
  · subst hu; rfl
theorem startSync_facts (s : State) (k j : Nat) (hk : k < 8) (hj : j < 256) (h : s.tab.sync = none) :
    let read := decide (k < 2 ∧ j < 8) && s.mayPost
    let z := s.startSync k j
    z.tab = { s.tab with sync := some ⟨k, j, read, none⟩ } ∧ z.f Reg.syncTable = k ∧ z.f Reg.syncIndex = j ∧ z.f Reg.syncBusy = 1 ∧
      z.out = (if read then [.hostRead (s.entryAddr k j) 64] else []) ++ s.out ∧
      { z with tab := s.tab, csr := s.csr, out := s.out } = s := by
  dsimp only
  have hr : (2 ≤ k ∨ tableCount k ≤ j ∨ ¬ s.mayPost = true) ↔ ¬ (decide (k < 2 ∧ j < 8) && s.mayPost) = true := by
    by_cases h2 : k < 2
    · have : tableCount k = 8 := by
        have : k = 0 ∨ k = 1 := by omega
        rcases this with rfl | rfl <;> rfl
      rw [this]
      by_cases h8 : j < 8 <;> cases s.mayPost <;> simp [h2, h8] <;> omega
    · simp [h2]; omega
  have ha : ∀ x y z : Nat, ∀ T, (State.entryAddr { (((s.setF Reg.syncTable x).setF Reg.syncIndex y).setF Reg.syncBusy z) with tab := T } k j)
      = s.entryAddr k j := by
    intro x y z T
    have e : ∀ g ∈ [Reg.hqBaseLo, Reg.hqBaseHi, Reg.xfrBaseLo, Reg.xfrBaseHi],
      (((s.setF Reg.syncTable x).setF Reg.syncIndex y).setF Reg.syncBusy z).f g = s.f g := by
      intro g hg
      simp only [List.mem_cons, List.not_mem_nil, or_false] at hg
      rcases hg with rfl | rfl | rfl | rfl <;>
        rw [State.f_setF_ne _ _ (by decide), State.f_setF_ne _ _ (by decide), State.f_setF_ne _ _ (by decide)]
    show (if k = 0 then 512 * State.f _ _ + _ * State.f _ _ + _ else _) = _
    have e1 := e Reg.hqBaseLo (by simp); have e2 := e Reg.hqBaseHi (by simp)
    have e3 := e Reg.xfrBaseLo (by simp); have e4 := e Reg.xfrBaseHi (by simp)
    unfold State.entryAddr
    rw [← e1, ← e2, ← e3, ← e4]
    rfl
  unfold State.startSync
  rw [h, if_neg (by simp)]
  dsimp only
  generalize hu : ((s.setF Reg.syncTable k).setF Reg.syncIndex j).setF Reg.syncBusy 1 = u at *
  have f1 : u.f Reg.syncTable = k := by
    subst hu; rw [State.f_setF_ne _ _ (by decide), State.f_setF_ne _ _ (by decide), State.f_setF_self]; exact Nat.mod_eq_of_lt hk
  have f2 : u.f Reg.syncIndex = j := by
    subst hu; rw [State.f_setF_ne _ _ (by decide), State.f_setF_self]; exact Nat.mod_eq_of_lt hj
  have f3 : u.f Reg.syncBusy = 1 := by subst hu; rw [State.f_setF_self]; rfl
  have f4 : u.tab = s.tab := by subst hu; rfl
  have f5 : u.mayPost = s.mayPost := by subst hu; rfl
  have f6 : u.out = s.out := by subst hu; rfl
  have f7 : ∀ T C O, { u with tab := T, csr := C, out := O } = { s with tab := T, csr := C, out := O } := by subst hu; intros; rfl
  have ha' : ∀ T, State.entryAddr { u with tab := T } k j = s.entryAddr k j := by
    intro T; have := ha k j 1 T; rw [hu] at this; exact this
  unfold State.issueSync
  dsimp only
  by_cases hc : (decide (k < 2 ∧ j < 8) && s.mayPost) = true
  · rw [if_neg (by
      simp only [Bool.false_eq_true, false_or]
      have : ∀ T, State.mayPost { u with tab := T } = s.mayPost := fun T => f5
      rw [this, hr]
      exact fun h => h hc)]
    simp only [hc, if_true, f4]
    exact ⟨rfl, f1, f2, f3, by rw [ha']; show _ :: u.out = _; rw [f6]; rfl, f7 _ _ _⟩
  · rw [if_pos (by
      simp only [Bool.false_eq_true, false_or]
      have : ∀ T, State.mayPost { u with tab := T } = s.mayPost := fun T => f5
      rw [this, hr]
      exact hc)]
    simp only [Bool.not_eq_true] at hc
    simp only [hc, f4]
    exact ⟨trivial, f1, f2, f3, f6, f7 _ _ _⟩

end Sys2Proof.Machine
end

