-- ==== Sys2Proof/Laws/Steps.lean ====
section
/-! SUPPORT. What every command leaves as it is: the queue, the fuses of the rollback floor, the records of Amber and, for all but the
three answers to a challenge, the roles held (R511, R519, R527, R550). -/

namespace Sys2Proof.Machine

/-- Every command ends in a state that keeps the relation. -/
theorem exec_calm (b : Bool) (c : Instr) (h : b = true → c.answersChallenge = false) (s : State) : Ends b s.view (exec c s) := by
  cases c with
  | registerWrite => exact execRegisterWrite_calm s _ _ _ _
  | l64LowRead => exact execL64LowRead_calm s _ _
  | readClear => exact execReadClear_calm s _ _ _
  | tableSync => exact execTableSync_calm s _ _ _
  | tableSyncDone => exact execTableSyncDone_calm s
  | syncHoldTimeout => exact execSyncHoldTimeout_calm s
  | paceWindowEnd => exact execPaceWindowEnd_calm s _
  | vcoreStepAck => exact execVcoreStepAck_calm s _
  | crystalLost => exact execCrystalLost_calm s
  | noCrystalTimeout => exact execNoCrystalTimeout_calm s
  | powerOn => exact execPowerOn_calm s _ _ _ _ _
  | railsGood => exact execRailsGood_calm s
  | logicDieResetRelease => exact execLogicDieResetRelease_calm s _ _
  | railFault => exact execRailFault_calm s _
  | vinOvervoltage => exact execVinOvervoltage_calm s _ _
  | inputStageOff => exact execInputStageOff_calm s
  | measurementDue => exact execMeasurementDue_calm s
  | pwrMeasNow => exact execPwrMeasNow_calm s
  | vresSetStaged => exact execVresSetStaged_calm s _ _
  | measurementBegin => exact execMeasurementBegin_calm s
  | dipBasisReached => exact execDipBasisReached_calm s
  | measurementAbandoned => exact execMeasurementAbandoned_calm s
  | reservoirFallTimed => exact execReservoirFallTimed_calm s _ _
  | reservoirChargeTimeout => exact execReservoirChargeTimeout_calm s
  | vresSample => exact execVresSample_calm s _ _
  | vresLow => exact execVresLow_calm s
  | junctionSensorRead => exact execJunctionSensorRead_calm s _
  | supplyCollapse => exact execSupplyCollapse_calm s _
  | pfwChannelChange => exact execPfwChannelChange_calm s _ _
  | pfwDiscrepancyExpiry => exact execPfwDiscrepancyExpiry_calm s
  | pfwRearm => exact execPfwRearm_calm s
  | drainStepDone => exact execDrainStepDone_calm s _
  | drainCutShort => exact execDrainCutShort_calm s _
  | safeRestart => exact execSafeRestart_calm s
  | resetNAccepted => exact execResetNAccepted_calm s
  | resetNRelease => exact execResetNRelease_calm s
  | restartRequest => exact execRestartRequest_calm s _
  | startTimeout => exact execStartTimeout_calm s
  | watchdogExpiry => exact execWatchdogExpiry_calm s
  | watchdogHalf => exact execWatchdogHalf_calm s
  | failedCountClear => exact execFailedCountClear_calm s
  | glbStartWrite => exact execGlbStartWrite_calm s _ _
  | bootLunTimeout => exact execBootLunTimeout_calm s
  | configRetryLimit => exact execConfigRetryLimit_calm s
  | jtagInstruction => exact execJtagInstruction_calm s _
  | add => exact execAdd_calm s _ _ _ _ _
  | adc => exact execAdc_calm s _ _ _ _ _
  | sub => exact execSub_calm s _ _ _ _ _
  | sbc => exact execSbc_calm s _ _ _ _ _
  | and => exact execAnd_calm s _ _ _ _ _
  | or => exact execOr_calm s _ _ _ _ _
  | xor => exact execXor_calm s _ _ _ _ _
  | andn => exact execAndn_calm s _ _ _ _ _
  | shl => exact execShl_calm s _ _ _ _ _
  | shr => exact execShr_calm s _ _ _ _ _
  | sar => exact execSar_calm s _ _ _ _ _
  | ror => exact execRor_calm s _ _ _ _ _
  | mul => exact execMul_calm s _ _ _ _ _
  | mulhu => exact execMulhu_calm s _ _ _ _ _
  | minu => exact execMinu_calm s _ _ _ _ _
  | maxu => exact execMaxu_calm s _ _ _ _ _
  | cmp => exact execCmp_calm s _ _ _ _
  | tst => exact execTst_calm s _ _ _ _
  | clz => exact execClz_calm s _ _ _ _
  | popc => exact execPopc_calm s _ _ _ _
  | bswap => exact execBswap_calm s _ _ _ _
  | crcw => exact execCrcw_calm s _ _ _ _ _
  | addi => exact execAddi_calm s _ _ _ _ _
  | andi => exact execAndi_calm s _ _ _ _ _
  | ori => exact execOri_calm s _ _ _ _ _
  | xori => exact execXori_calm s _ _ _ _ _
  | cmpi => exact execCmpi_calm s _ _ _ _
  | shli => exact execShli_calm s _ _ _ _ _
  | shri => exact execShri_calm s _ _ _ _ _
  | sari => exact execSari_calm s _ _ _ _ _
  | lui => exact execLui_calm s _ _ _
  | ldw => exact execLdw_calm s _ _ _ _ _
  | ldh => exact execLdh_calm s _ _ _ _ _
  | ldb => exact execLdb_calm s _ _ _ _ _
  | stw => exact execStw_calm s _ _ _ _ _
  | sth => exact execSth_calm s _ _ _ _ _
  | stb => exact execStb_calm s _ _ _ _ _
  | swp => exact execSwp_calm s _ _ _ _ _
  | bCond => exact execBCond_calm s _ _ _
  | callCond => exact execCallCond_calm s _ _ _
  | jr => exact execJr_calm s _ _ _
  | jalr => exact execJalr_calm s _ _ _ _
  | wait => exact execWait_calm s _ _ _ _ _
  | waitEnd => exact execWaitEnd_calm s _ _
  | sev => exact execSev_calm s _ _
  | eclr => exact execEclr_calm s _ _ _
  | eget => exact execEget_calm s _ _ _
  | mbdb => exact execMbdb_calm s _ _
  | mback => exact execMback_calm s _ _ _ _
  | mbrd => exact execMbrd_calm s _ _ _ _
  | mbwr => exact execMbwr_calm s _ _ _ _
  | mbsend => exact execMbsend_calm s _ _ _ _
  | mbfree => exact execMbfree_calm s _ _
  | mbstat => exact execMbstat_calm s _ _
  | tld => exact execTld_calm s _ _ _ _
  | twr => exact execTwr_calm s _ _ _ _
  | tsync => exact execTsync_calm s _ _ _ _
  | timel => exact execTimel_calm s _ _ _ _
  | timeh => exact execTimeh_calm s _ _ _ _
  | clkl => exact execClkl_calm s _ _ _ _
  | clkh => exact execClkh_calm s _ _ _ _
  | nop => exact execNop_calm s _
  | fence => exact execFence_calm s _ _ _ _
  | cesel => exact execCesel_calm s _ _ _
  | cmd => exact execCmd_calm s _ _ _
  | addr => exact execAddr_calm s _ _ _
  | dout => exact execDout_calm s _ _
  | din => exact execDin_calm s _ _ _
  | busTransferEnd => exact execBusTransferEnd_calm s _ _ _
  | bres => exact execBres_calm s _ _ _
  | doutm => exact execDoutm_calm s _ _ _
  | dinm => exact execDinm_calm s _ _ _ _
  | rdb => exact execRdb_calm s _ _ _
  | bdly => exact execBdly_calm s _ _ _ _
  | wpset => exact execWpset_calm s _ _ _ _
  | bmode => exact execBmode_calm s _ _ _ _
  | opget => exact execOpget_calm s _ _ _ _
  | opdone => exact execOpdone_calm s _ _ _
  | veinReportTimeout => exact execVeinReportTimeout_calm s _
  | halt => exact execHalt_calm s _ _ _ _
  | wdkick => exact execWdkick_calm s _
  | vload => exact execVload_calm s _ _ _ _
  | hload => exact execHload_calm s _ _ _ _
  | imgchk => exact execImgchk_calm s _ _ _ _
  | setstate => exact execSetstate_calm s _ _ _ _
  | hend => exact execHend_calm s _ _
  | cfire => exact execCfire_calm s _ _ _ _
  | gpout => exact execGpout_calm s _ _ _ _
  | gpin => exact execGpin_calm s _ _ _ _
  | hlog => exact execHlog_calm s _ _ _ _
  | hookTrigger => exact execHookTrigger_calm s _
  | hookStart => exact execHookStart_calm s
  | hookBudgetWarning => exact execHookBudgetWarning_calm s
  | hookBudgetExpiry => exact execHookBudgetExpiry_calm s
  | debugStop => exact execDebugStop_calm s _ _
  | debugStep => exact execDebugStep_calm s _ _ _ _ _
  | perstAssert => exact execPerstAssert_calm s
  | perstDeassert => exact execPerstDeassert_calm s
  | hotReset => exact execHotReset_calm s
  | functionLevelReset => exact execFunctionLevelReset_calm s
  | busMasterEnableClear => exact execBusMasterEnableClear_calm s
  | d3hotEntry => exact execD3hotEntry_calm s
  | d0Return => exact execD0Return_calm s
  | msixUnmask => exact execMsixUnmask_calm s _
  | pcieErrorReceived => exact execPcieErrorReceived_calm s _
  | hostReadCompletion => exact execHostReadCompletion_calm s _ _ _ _ _
  | completionTimeout => exact execCompletionTimeout_calm s _ _ _ _
  | linkRetrain => exact execLinkRetrain_calm s
  | aspmL1Request => exact execAspmL1Request_calm s
  | ringEnable => exact execRingEnable_calm s _
  | ringDisable => exact execRingDisable_calm s _
  | dbTail => exact execDbTail_calm s _ _
  | dbBare => exact execDbBare_calm s _
  | dbCqh => exact execDbCqh_calm s _ _
  | pushWindowWrite => exact execPushWindowWrite_calm s _ _ _
  | chainTimeout => exact execChainTimeout_calm s _
  | moderationTimeout => exact execModerationTimeout_calm s _
  | mbxH2dSet => exact execMbxH2dSet_calm s _
  | mbxD2hClear => exact execMbxD2hClear_calm s _
  | h2dSlotWrite => exact execH2dSlotWrite_calm s _ _ _
  | h2dPost => exact execH2dPost_calm s _
  | d2hFree => exact execD2hFree_calm s _
  | mailboxSlotTimeout => exact execMailboxSlotTimeout_calm s _ _
  | read => exact execRead_calm s _ _ _ _
  | write => exact execWrite_calm s _ _ _
  | writeAtomic => exact execWriteAtomic_calm s _ _ _
  | append => exact execAppend_calm s _ _ _
  | flush => exact execFlush_calm s _ _
  | trim => exact execTrim_calm s _ _
  | sealStream => exact execSealStream_calm s _ _
  | readStream => exact execReadStream_calm s _ _ _ _
  | pinBySequence => exact execPinBySequence_calm s _ _
  | pinByTime => exact execPinByTime_calm s _ _
  | pinRelease => exact execPinRelease_calm s _ _
  | budgetWindowEnd => exact execBudgetWindowEnd_calm s
  | identify => exact execIdentify_calm s _ _ _
  | volumeCreate => exact execVolumeCreate_calm s _ _
  | volumeDelete => exact execVolumeDelete_calm s _ _
  | volumeQuery => exact execVolumeQuery_calm s _ _ _
  | logRead => exact execLogRead_calm s _ _ _ _
  | imageWrite => exact execImageWrite_calm s _ _ _
  | imageCommit => exact execImageCommit_calm s _ _ _
  | imageConfirm => exact execImageConfirm_calm s _ _
  | selfTestShort => exact execSelfTestShort_calm s _ _
  | selfTestExtended => exact execSelfTestExtended_calm s _ _
  | selfTestStop => exact execSelfTestStop_calm s _ _
  | selfTestPieceDone => exact execSelfTestPieceDone_calm s _
  | selfTestStarved => exact execSelfTestStarved_calm s
  | roleChallenge => exact execRoleChallenge_calm s _ _ _
  | roleResponse n tag x =>
    cases b with
    | false => exact execRoleResponse_calm s _ _ _
    | true => cases h rfl
  | roleDrop => exact execRoleDrop_calm s _ _
  | protect => exact execProtect_calm s _ _ _
  | load => exact execLoad_calm s _ _ _
  | unload => exact execUnload_calm s _ _
  | setConnKey => exact execSetConnKey_calm s _ _ _
  | clearConnKey => exact execClearConnKey_calm s _ _
  | setInstaller => exact execSetInstaller_calm s _ _ _
  | status => exact execStatus_calm s _ _ _
  | entropyGet => exact execEntropyGet_calm s _ _ _
  | cairnPost => exact execCairnPost_calm s _ _ _
  | cairnCancel => exact execCairnCancel_calm s _ _
  | clockSet => exact execClockSet_calm s _ _
  | bootSlotSwitch => exact execBootSlotSwitch_calm s _ _
  | hookLoad => exact execHookLoad_calm s _ _ _
  | sanitizeCryptoErase => exact execSanitizeCryptoErase_calm s _ _ _
  | sanitizeBlockErase => exact execSanitizeBlockErase_calm s _ _ _
  | abort => exact execAbort_calm s _ _
  | configWrite => exact execConfigWrite_calm s _ _ _
  | configRead => exact execConfigRead_calm s _ _ _
  | lossReport => exact execLossReport_calm s _ _ _
  | descriptorTimeout => exact execDescriptorTimeout_calm s _ _ _
  | descriptorEnd => exact execDescriptorEnd_calm s _ _ _
  | channelResume => exact execChannelResume_calm s _
  | allocHoldExpiry => exact execAllocHoldExpiry_calm s _ _
  | journalPageTimer => exact execJournalPageTimer_calm s
  | journalPageVerified => exact execJournalPageVerified_calm s
  | checkpointComplete => exact execCheckpointComplete_calm s
  | openPageClose => exact execOpenPageClose_calm s _ _ _ _
  | optimeSave => exact execOptimeSave_calm s
  | pacingWindow => exact execPacingWindow_calm s _ _
  | floorModeTimeout => exact execFloorModeTimeout_calm s _
  | wearCheck => exact execWearCheck_calm s
  | retentionStep => exact execRetentionStep_calm s
  | suspendRequest => exact execSuspendRequest_calm s _
  | resumeDeadline => exact execResumeDeadline_calm s _
  | lunResetTimeout => exact execLunResetTimeout_calm s _
  | dramEnable => exact execDramEnable_calm s _ _
  | refreshInterval => exact execRefreshInterval_calm s _ _
  | refreshWindowStart => exact execRefreshWindowStart_calm s
  | dramParityAlert => exact execDramParityAlert_calm s
  | alertTimeout => exact execAlertTimeout_calm s
  | scrubPass => exact execScrubPass_calm s _
  | portLinkUp => exact execPortLinkUp_calm s _ _ _
  | portLinkDown => exact execPortLinkDown_calm s _
  | portEnable => exact execPortEnable_calm s _ _ _
  | ilideAppend => exact execIlideAppend_calm s _ _ _
  | readReq => exact execReadReq_calm s _ _ _ _
  | send => exact execSend_calm s _ _ _
  | ack => exact execAck_calm s _ _ _
  | nak => exact execNak_calm s _ _ _
  | hello => exact execHello_calm s _ _ _
  | pfcFrame => exact execPfcFrame_calm s _ _ _
  | retransmitTimeout => exact execRetransmitTimeout_calm s _
  | assemblyTimeout => exact execAssemblyTimeout_calm s _
  | keepaliveSend => exact execKeepaliveSend_calm s _
  | partnerSilence => exact execPartnerSilence_calm s _
  | helloRetry => exact execHelloRetry_calm s _
  | connectionBoundary => exact execConnectionBoundary_calm s _ _
  | pauseWatchdog => exact execPauseWatchdog_calm s _ _
  | pauseTxLimit => exact execPauseTxLimit_calm s _ _
  | quarantineEnd => exact execQuarantineEnd_calm s _
  | quarantineClear => exact execQuarantineClear_calm s _ _
  | cairnFiringStart => exact execCairnFiringStart_calm s
  | cairnFiringEnd => exact execCairnFiringEnd_calm s _
  | shipConnectionTimeout => exact execShipConnectionTimeout_calm s _
  | timerPeriodEvent => exact execTimerPeriodEvent_calm s _
  | timerEnable => exact execTimerEnable_calm s _ _
  | timerStop => exact execTimerStop_calm s _ _
  | timerPeriodWrite => exact execTimerPeriodWrite_calm s _ _ _
  | timerCountWrite => exact execTimerCountWrite_calm s _ _ _
  | gpioEdge => exact execGpioEdge_calm s _ _
  | screeFlush => exact execScreeFlush_calm s
  | suppressionSummary => exact execSuppressionSummary_calm s
  | makerRoleExpiry => exact execMakerRoleExpiry_calm s _
  | challengeExpiry => exact execChallengeExpiry_calm s _
  | challengeHoldEnd => exact execChallengeHoldEnd_calm s _
  | flintWindow => exact execFlintWindow_calm s _ _
  | flintRerun => exact execFlintRerun_calm s
  | drbgReseed => exact execDrbgReseed_calm s
  | trialTimeSave => exact execTrialTimeSave_calm s
  | trialExpiry => exact execTrialExpiry_calm s
  | usbAttach => exact execUsbAttach_calm s
  | usbDisconnect => exact execUsbDisconnect_calm s
  | usbBusReset => exact execUsbBusReset_calm s _ _
  | usbStandardRequest => exact execUsbStandardRequest_calm s _ _ _ _ _
  | getState => exact execGetState_calm s _ _ _
  | getIdentify => exact execGetIdentify_calm s _ _ _
  | challenge => exact execChallenge_calm s _ _ _
  | response value index data =>
    cases b with
    | false => exact execResponse_calm s _ _ _
    | true => cases h rfl
  | drop => exact execDrop_calm s _ _ _
  | imageBegin => exact execImageBegin_calm s _ _ _
  | imageChunk => exact execImageChunk_calm s _ _ _
  | imageStream => exact execImageStream_calm s _ _ _
  | streamUnit => exact execStreamUnit_calm s _
  | usbImageCommit => exact execUsbImageCommit_calm s _ _ _ _
  | usbImageConfirm => exact execUsbImageConfirm_calm s _ _ _
  | imageStatus => exact execImageStatus_calm s _ _ _
  | logOpen => exact execLogOpen_calm s _ _ _ _
  | rawRead => exact execRawRead_calm s _ _ _ _
  | reboot => exact execReboot_calm s _ _ _
  | pcieLinkUp => exact execPcieLinkUp_calm s _ _ _ _
  | busMasterEnableSet => exact execBusMasterEnableSet_calm s
  | dramInitComplete => exact execDramInitComplete_calm s _
  | dAlertNHigh => exact execDAlertNHigh_calm s _ _ _
  | railRecovery => exact execRailRecovery_calm s _
  | chargerModeChange => exact execChargerModeChange_calm s _
  | otherFrame => exact execOtherFrame_calm s _ _ _ _
  | tapReset => exact execTapReset_calm s
  | qkchalRead => exact execQkchalRead_calm s
  | qkrespWrite data =>
    cases b with
    | false => exact execQkrespWrite_calm s _
    | true => cases h rfl
  | illegalInstruction => exact execIllegalInstruction_calm s _ _ _

/-- One step: its next state keeps the relation with the state whose command was taken. -/
theorem step_ends (b : Bool) (s : State) (h : ∀ c rest, s.pending = c :: rest → b = true → c.answersChallenge = false) :
    Ends b ({ s with pending := s.pending.tail } : State).view (step s) := by
  unfold step
  split
  next e =>
    have k : ({ s with pending := s.pending.tail } : State).view = s.view := by simp only [State.view, e, List.tail_nil]
    rw [k]; exact .next (State.tick_calm s)
  next c rest e => rw [e]; exact exec_calm b c (h c rest e) _

/-- A run of any machine goes on from the next state of its first step. -/
theorem run_next (M : Host.Core) (n : Nat) (s t : M.State) (h : M.step s = .next t) : M.run (n + 1) s = M.run n t := by
  have e : M.run (n + 1) s = (match M.step s with | .next u => M.run n u | .fault r => .fault r | .refused r => .refused r) := rfl
  rw [e, h]

end Sys2Proof.Machine
end

