-- ==== Sys2Proof/Laws/Supply.lean ====
section
/-! SUPPORT. VCORE, the charger, the measurement of the reservoir, supply failures, the drain and the starts (R26 to R134). -/

namespace Sys2Proof.Machine

/-! ### Vcore and crystal -/

theorem ite_lt8 {p : Prop} [Decidable p] {a b : Nat} (ha : a < 8) (hb : b < 8) : (if p then a else b) < 8 := by split <;> assumption
theorem paceRow_eq (s : State) (pace : Nat) (hz : s.bas.freeze = false) : s.paceRow pace =
      if s.vcore.released = false then 0
      else if s.f Reg.vcoreLoop = 4 ∧ s.vcore.above < 400 then 4
      else if pace < s.nv.paceFloor + 64 ∧ s.f Reg.vcoreCode < 30 then 2
      else if pace < s.nv.paceFloor ∧ s.f Reg.vcoreCode = 30 then 4
      else if 16 ≤ s.vcore.high ∧ 0 < s.f Reg.vcoreCode then 3
      else 1 := by
  unfold State.paceRow State.paceTarget
  simp only [hz, Bool.false_eq_true, if_false, Bool.not_eq_true]
theorem paceAct_facts (s : State) (row : Nat) (hr : row < 8) : ∃ u : State,
        u.f Reg.vcoreLoop = row ∧ u.f Reg.vcorePace = s.f Reg.vcorePace ∧ u.f Reg.vcoreCode = s.f Reg.vcoreCode ∧
        u.vcore = { s.vcore with high := if row = 3 then 0 else s.vcore.high, unacked := decide (row = 2 ∨ row = 3) || s.vcore.unacked } ∧
        u.out = (if row = 2 then [.vcoreStep true] else if row = 3 then [.vcoreStep false] else []) ++ s.out ∧
        { u with csr := s.csr, vcore := s.vcore, out := s.out } = s ∧
        if row = 4 ∧ s.f Reg.vcoreLoop ≠ 4 then
          u.f Reg.ceilSeen = 1 ∧ ∃ w : State, Counts u 0x0C w ∧ Logs u 0x0060 Src.basalt 0 0 0 0 w ∧ Steady w.graded (s.paceAct row)
        else u.f Reg.ceilSeen = s.f Reg.ceilSeen ∧ Steady u.graded (s.paceAct row) := by
  have f1 : ∀ u : State, u.csr = (s.setF Reg.vcoreLoop row).csr → u.f Reg.vcoreLoop = row ∧ u.f Reg.vcorePace = s.f Reg.vcorePace ∧
      u.f Reg.vcoreCode = s.f Reg.vcoreCode ∧ u.f Reg.ceilSeen = s.f Reg.ceilSeen := by
    intro u hu
    have e : ∀ f, u.f f = (s.setF Reg.vcoreLoop row).f f := fun f => by unfold State.f; rw [hu]
    refine ⟨?_, ?_, ?_, ?_⟩
    · rw [e, State.f_setF_self]; exact Nat.mod_eq_of_lt hr
    · rw [e, State.f_setF_ne _ _ (by decide)]
    · rw [e, State.f_setF_ne _ _ (by decide)]
    · rw [e, State.f_setF_ne _ _ (by decide)]
  have f2 : ∀ u : State, u.csr = ((s.setF Reg.vcoreLoop row).setF Reg.ceilSeen 1).csr → u.f Reg.vcoreLoop = row ∧
      u.f Reg.vcorePace = s.f Reg.vcorePace ∧ u.f Reg.vcoreCode = s.f Reg.vcoreCode ∧ u.f Reg.ceilSeen = 1 := by
    intro u hu
    have e : ∀ f, u.f f = ((s.setF Reg.vcoreLoop row).setF Reg.ceilSeen 1).f f := fun f => by unfold State.f; rw [hu]
    have g := f1 (s.setF Reg.vcoreLoop row) rfl
    refine ⟨?_, ?_, ?_, ?_⟩
    · rw [e, State.f_setF_ne _ _ (by decide)]; exact g.1
    · rw [e, State.f_setF_ne _ _ (by decide)]; exact g.2.1
    · rw [e, State.f_setF_ne _ _ (by decide)]; exact g.2.2.1
    · rw [e, State.f_setF_self]; rfl
  unfold State.paceAct
  dsimp only
  by_cases h2 : row = 2
  · subst h2
    have g := f1 (({ s.setF Reg.vcoreLoop 2 with vcore.unacked := true } : State).emit (.vcoreStep true)) rfl
    refine ⟨({ s.setF Reg.vcoreLoop 2 with vcore.unacked := true } : State).emit (.vcoreStep true), g.1, g.2.1, g.2.2.1, rfl, rfl, rfl, ?_⟩
    rw [if_neg (by simp), if_pos rfl]
    exact ⟨g.2.2.2, Steady.regrade (.refl _)⟩
  by_cases h3 : row = 3
  · subst h3
    have g := f1 (({ s.setF Reg.vcoreLoop 3 with vcore.unacked := true, vcore.high := 0 } : State).emit (.vcoreStep false)) rfl
    refine ⟨({ s.setF Reg.vcoreLoop 3 with vcore.unacked := true, vcore.high := 0 } : State).emit (.vcoreStep false), g.1, g.2.1, g.2.2.1,
      rfl, rfl, rfl, ?_⟩
    rw [if_neg (by simp), if_neg (by simp), if_pos rfl]
    exact ⟨g.2.2.2, Steady.regrade (.refl _)⟩
  simp only [h2, h3, if_false, or_self, decide_false, Bool.false_or, List.nil_append]
  by_cases h4 : row = 4 ∧ s.f Reg.vcoreLoop ≠ 4
  · have g := f2 ((s.setF Reg.vcoreLoop row).setF Reg.ceilSeen 1) rfl
    refine ⟨(s.setF Reg.vcoreLoop row).setF Reg.ceilSeen 1, g.1, g.2.1, g.2.2.1, rfl, rfl, rfl, ?_⟩
    rw [if_pos h4, if_pos h4]
    exact ⟨g.2.2.2, _, ⟨_, .refl _, State.record_steady _ _ _ _ _ _ _⟩, ⟨_, State.bump_steady _ _, .refl _⟩, Steady.regrade (.refl _)⟩
  · have g := f1 (s.setF Reg.vcoreLoop row) rfl
    refine ⟨s.setF Reg.vcoreLoop row, g.1, g.2.1, g.2.2.1, rfl, rfl, rfl, ?_⟩
    rw [if_neg h4, if_neg h4]
    exact ⟨g.2.2.2, Steady.regrade (.refl _)⟩

/-! ### Charger and sensors -/

theorem ite_lt4 {p : Prop} [Decidable p] {a b : Nat} (ha : a < 4) (hb : b < 4) : (if p then a else b) < 4 := by split <;> assumption
theorem noteVin_facts (s : State) (v r : Nat) : { s.noteVin v r with csr := s.csr } = { s with bas := { s.bas with vinMv := v, vresMv := r } } ∧
      (s.noteVin v r).f Reg.vinOk = b2n (decide (4500 ≤ v ∧ v ≤ 36000)) ∧ (s.noteVin v r).f Reg.onVres = b2n (decide (v < r)) ∧
      ∀ f : Field, f.key ≠ Reg.vinOk.key → f.key ≠ Reg.onVres.key → (s.noteVin v r).f f = s.f f := by
  have hb : ∀ b, b2n b % 2 = b2n b := by intro b; cases b <;> rfl
  refine ⟨rfl, ?_, ?_, fun f h1 h2 => ?_⟩
  · unfold State.noteVin
    rw [State.f_setF_ne _ _ (by decide), State.f_setF_self]
    exact hb _
  · unfold State.noteVin
    rw [State.f_setF_self]; exact hb _
  · unfold State.noteVin
    rw [State.f_setF_ne _ _ h2, State.f_setF_ne _ _ h1]; rfl
theorem relimit_idle (s : State) (h : s.ledgerShut = false) (hi : s.led.phase = .idle) (hs : s.led.stagedSet = none) :
    Settled { s with led := { s.led with
      eUsable := energyOf 388 s.led.c s.led.esr (min s.led.vtop s.bas.vresMv)
      limit := energyOf 291 s.led.c s.led.esr (min s.led.vtop s.bas.vresMv) } } s.relimit := by
  have hv : s.vTop = min s.led.vtop s.bas.vresMv := by unfold State.vTop; rw [hs]
  unfold State.relimit
  simp only [h, Bool.false_eq_true, if_false, hi, hv]
  exact State.settleLedger_settled _ _

/-! ### Reservoir measurement -/

theorem measureFails_facts (s : State) (m : Bytes) (hm : m = s.measRecord 0 0 s.led.vtopNow 0 0 1) : ∃ w x : State,
      Counts { s with led := { s.led with phase := .idle, failed := true, retryMs := 60000 } } 0x07 w ∧
      Logs { s with led := { s.led with phase := .idle, failed := true, retryMs := 60000 } } 0x0015 Src.ledger 0 0 0 0 w ∧
      x = { w.touch 0x0C with nv.measHist := (m :: w.nv.measHist).take 32 } ∧ Steady x.graded s.measureFails := by
  subst hm
  exact ⟨_, _, ⟨_, .refl _, State.record_steady _ _ _ _ _ _ _⟩, ⟨_, State.bump_steady _ _, .refl _⟩, rfl, Steady.regrade (.refl _)⟩
theorem measureFails_chg (s : State) (k : Nat) (m : Bytes) (hm : m = s.measRecord 0 0 s.led.vtopNow 0 0 1) : ∃ w x : State,
      Counts { s with bas := { s.bas with chgMode := k }, led := { s.led with phase := .idle, failed := true, retryMs := 60000 } } 0x07 w ∧
      Logs { s with bas := { s.bas with chgMode := k }, led := { s.led with phase := .idle, failed := true, retryMs := 60000 } } 0x0015
        Src.ledger 0 0 0 0 w ∧
      x = { w.touch 0x0C with nv.measHist := (m :: w.nv.measHist).take 32 } ∧
      Steady x.graded (State.measureFails { s with bas.chgMode := k }) := by
  generalize hu : ({ s with bas.chgMode := k } : State) = u
  have h1 : m = u.measRecord 0 0 u.led.vtopNow 0 0 1 := by subst hu; exact hm
  obtain ⟨w, x, h2, h3, h4, h5⟩ := measureFails_facts u m h1
  have h6 : ({ s with bas := { s.bas with chgMode := k }, led := { s.led with phase := .idle, failed := true, retryMs := 60000 } } : State)
    = { u with led := { u.led with phase := .idle, failed := true, retryMs := 60000 } } := by subst hu; rfl
  rw [h6]
  exact ⟨w, x, h2, h3, h4, h5⟩
theorem relimit_led (s : State) : s.relimit.led.stagedSet = s.led.stagedSet ∧ s.relimit.led.phase = s.led.phase ∧ s.relimit.bas = s.bas ∧
    s.relimit.staged = s.staged ∧ s.relimit.f Reg.chgLimit = s.f Reg.chgLimit := by
  have g : ∀ a b : State, Settled a b → b.led.stagedSet = a.led.stagedSet ∧ b.led.phase = a.led.phase ∧ b.bas = a.bas ∧
      b.staged = a.staged ∧ b.f Reg.chgLimit = a.f Reg.chgLimit := by
    intro a b h
    have hl := h.1.led
    refine ⟨by have q := congrArg Ledger.stagedSet hl; exact q, by have q := congrArg Ledger.phase hl; exact q, h.1.bas, h.1.staged, ?_⟩
    have hc := h.1.csr Reg.chgLimit (by decide)
    have e := a.unsettled_f b Reg.chgLimit
    rw [if_neg (by decide)] at e
    exact e.symm.trans hc
  unfold State.relimit
  split
  · exact ⟨rfl, rfl, rfl, rfl, rfl⟩
  · dsimp only
    refine ⟨(g _ _ (State.settleLedger_settled _ _)).1.trans ?_, (g _ _ (State.settleLedger_settled _ _)).2.1.trans ?_,
      (g _ _ (State.settleLedger_settled _ _)).2.2.1.trans ?_, (g _ _ (State.settleLedger_settled _ _)).2.2.2.1.trans ?_,
      (g _ _ (State.settleLedger_settled _ _)).2.2.2.2.trans ?_⟩ <;> split <;> rfl
theorem measured_facts (s : State) (c r top e lim m : Nat) (rec : Bytes) (htop : top = min s.led.vtopNow s.bas.vresMv)
    (he : e = energyOf 388 c r top) (hl : lim = energyOf 291 c r top) (hm : m = s.chargerMode s.bas.vinMv)
    (hr : rec = s.measRecord c r s.led.vtopNow e lim 0) : ∃ w x y : State,
      Logs { s with
        bas := { s.bas with chgMode := m }
        led := { s.led with
          phase := .idle, retryMs := 0, valid := true, doneAt := s.time.uptime, failed := false, c := c, esr := r
          vtop := s.led.vtopNow, stagedSet := none, eUsable := e, limit := lim } } 0x0010 Src.ledger c r s.led.vtopNow e w ∧
      (if lim < 120000 then Logs w 0x0011 Src.ledger 0 0 0 0 x else x = w) ∧
      y = { x.touch 0x0C with nv.measHist := (rec :: x.nv.measHist).take 32 } ∧ Settled y (s.measured c r) := by
  unfold State.measured
  dsimp only
  rw [← hm]
  have hv : State.vTop { s with
      led.phase := .idle, led.retryMs := 0, led.valid := true, led.doneAt := s.time.uptime, led.failed := false, led.c := c, led.esr := r
      led.vtop := s.led.vtopNow, led.stagedSet := none, bas.chgMode := m } = top := htop.symm
  rw [hv, ← he, ← hl, ← hr]
  refine ⟨_, _, _, ⟨_, .refl _, .refl _⟩, ?_, rfl, State.settleLedger_settled _ _⟩
  split
  · exact ⟨_, .refl _, .refl _⟩
  · rfl
theorem chgWrite (s : State) (p : Path) (v : Word) (hr : s.reaches p = true) (hv : s.dev ≠ .recovery) (hi : s.installer p = true) :
    exec (.vresSetStaged p v) s = .next ((s.setF Reg.chgLimit (v.toNat / 64 % 4)).stageVres (v.toNat % 64)) := by
  have hlt : v.toNat % 2 ^ 32 = v.toNat := Nat.mod_eq_of_lt v.isLt
  have hw : regWriter 0x5008 = some .installer := by decide
  have hu : s.dieUp = true := by
    unfold State.reaches at hr
    simp only [Bool.and_eq_true] at hr
    exact hr.1
  have e : s.busWrite p 0x5008 4 v.toNat = s.regEffect 0x5008 v.toNat := by
    unfold State.busWrite State.regWrite
    simp only [hw, hlt]
    rw [if_neg (by decide), if_neg (by decide), if_neg (by decide), if_neg hv, if_neg (by decide), if_neg]
    simp [State.notRunning, needsService, State.mayWrite, hi]
  rw [exec_vresSetStaged, execVresSetStaged, if_neg (by simp [hr]), State.asWrite, if_neg (by simp [hu]), if_neg hv, e]
  have b1 : bits v.toNat 5 0 = v.toNat % 64 := by simp [bits]
  show ok ((s.writeField v.toNat Reg.chgLimit).stageVres (bits v.toNat 5 0)) = _
  rw [b1]; rfl

/-! ### Supply failures -/

theorem leave_becomes (s : State) (p : PfwState) :
    Becomes { s with pfw := { s.pfw with state := p } }
      (if s.pfw.back.inService then State.serviceState { s with pfw := { s.pfw with state := p } } else s.pfw.back)
      (s.leavePreFreeze p) := by
  unfold State.leavePreFreeze
  dsimp only
  split <;> exact State.setDev_becomes _ _
/-- What a channel's warning depends on. -/
theorem warns_eq {u v : State} (hp : u.pfw.aOn = v.pfw.aOn) (hq : u.pfw.bOn = v.pfw.bOn) (hf : u.f Reg.pfwMode = v.f Reg.pfwMode) :
    u.warnsA = v.warnsA ∧ u.warnsB = v.warnsB := by
  unfold State.warnsA State.warnsB
  rw [hp, hq, hf]; exact ⟨rfl, rfl⟩
theorem becomes_keeps {s t : State} {d : Dev} (h : Becomes s d t) : t.pfw = s.pfw ∧ t.bas = s.bas ∧ t.staged = s.staged ∧
    t.f Reg.pfwMode = s.f Reg.pfwMode := by
  obtain ⟨u, a, b, _, h⟩ := h
  exact ⟨h.pfw, h.bas, h.staged, h.csr _ (by decide)⟩
theorem opens_facts (x : State) (ch : PfwCh) : ∃ u, Becomes { x with pfw := { x.pfw with state := .timing, first := ch, back := x.dev } } .preFreeze u ∧
    (if x.dev.inService then x.enterPreFreeze ch = u.triggerAll 5 fun c => c.kind == 5 && c.state ≠ 0 else x.enterPreFreeze ch = u) := by
  refine ⟨_, State.setDev_becomes _ _, ?_⟩
  unfold State.enterPreFreeze
  cases x.dev.inService <;> rfl
theorem opens_keeps (x : State) (ch : PfwCh) : (x.enterPreFreeze ch).pfw = { x.pfw with state := .timing, first := ch, back := x.dev } ∧
    (x.enterPreFreeze ch).f Reg.pfwMode = x.f Reg.pfwMode := by
  obtain ⟨u, h, e⟩ := opens_facts x ch
  have k := becomes_keeps h
  split at e
  · rw [e]
    have g := State.triggerAll_steady u 5 fun c => c.kind == 5 && c.state ≠ 0
    exact ⟨g.pfw.trans k.1, (g.csr _ (by decide)).trans k.2.2.2⟩
  · rw [e]; exact ⟨k.1, k.2.2.2⟩
/-- A warning opens, and nothing more settles. -/
theorem settle_timing (u : State) (ch : PfwCh) (h : u.pfw.state = .timing) (hw : (u.warnsA = true ∧ u.warnsB = false) ∨ (u.warnsA = false ∧ u.warnsB = true)) :
    (u.pfwBoundary).settlePfw ch = u := by
  have e : u.pfwBoundary = u := by
    unfold State.pfwBoundary
    rw [if_neg (by simp [h])]
  rw [e]
  unfold State.settlePfw
  simp only [h]
  rcases hw with ⟨h1, h2⟩ | ⟨h1, h2⟩ <;> simp [h1, h2]
theorem boundary_id (u : State) (h1 : u.staged.get? Reg.pfwMode.key = none) (h2 : u.staged.get? Reg.pfwDisc.key = none) : u.pfwBoundary = u := by
  unfold State.pfwBoundary
  rw [if_neg (by simp [h1, h2])]
theorem settle_quiet (u : State) (ch : PfwCh) (h : u.pfw.state = .armed) (h1 : u.warnsA = false) (h2 : u.warnsB = false) :
    u.settlePfw ch = u := by
  unfold State.settlePfw
  simp [h, h1, h2]
theorem pfwMoved_opens (x : State) (ch first : PfwCh) (hz : x.bas.freeze = false) (ha : x.pfwActs = true) (hs : x.pfw.state = .armed)
    (hw : first = .a ∧ x.warnsA = true ∧ x.warnsB = false ∨ first = .b ∧ x.warnsA = false ∧ x.warnsB = true) :
    x.pfwMoved ch = x.enterPreFreeze first := by
  have k := opens_keeps x first
  have kw := warns_eq (u := x.enterPreFreeze first) (v := x) (by rw [k.1]) (by rw [k.1]) k.2
  have e : x.settlePfw ch = x.enterPreFreeze first := by
    unfold State.settlePfw
    simp only [hs]
    rcases hw with ⟨rfl, h1, h2⟩ | ⟨rfl, h1, h2⟩ <;> simp [h1, h2]
  unfold State.pfwMoved
  rw [if_neg (by simp [hz, ha]), e]
  dsimp only
  have g := settle_timing (x.enterPreFreeze first) ch (by rw [k.1]) ?_
  · rw [g]
    split
    · unfold State.pfwBoundary
      rw [if_neg (by simp [k.1])]
    · rfl
  rw [kw.1, kw.2]
  rcases hw with ⟨_, h1, h2⟩ | ⟨_, h1, h2⟩
  · exact .inl ⟨h1, h2⟩
  · exact .inr ⟨h1, h2⟩
theorem pfwMoved_returns (x : State) (ch : PfwCh) (hz : x.bas.freeze = false) (ha : x.pfwActs = true) (hs : x.pfw.state = .timing)
    (h1 : x.warnsA = false) (h2 : x.warnsB = false) (h3 : x.staged.get? Reg.pfwMode.key = none) (h4 : x.staged.get? Reg.pfwDisc.key = none) :
    x.pfwMoved ch = ((x.leavePreFreeze .armed).bump 0x31).record 0x8010 Src.basalt := by
  have e : x.settlePfw ch = ((x.leavePreFreeze .armed).bump 0x31).record 0x8010 Src.basalt := by
    unfold State.settlePfw
    simp [hs, h1, h2]
  have q := leave_becomes x .armed
  have k := becomes_keeps q
  generalize x.leavePreFreeze .armed = y at *
  have g : Steady y ((y.bump 0x31).record 0x8010 Src.basalt) := (State.bump_steady _ _).trans (State.record_steady _ _ _ _ _ _ _)
  generalize (y.bump 0x31).record 0x8010 Src.basalt = w at *
  have hp : w.pfw = { x.pfw with state := .armed } := by rw [g.pfw]; exact k.1
  have hst : w.staged = x.staged := by rw [g.staged]; exact k.2.2.1
  have kw := warns_eq (u := w) (v := x) (by rw [hp]) (by rw [hp]) ((g.csr _ (by decide)).trans k.2.2.2)
  unfold State.pfwMoved
  rw [if_neg (by simp [hz, ha]), e, boundary_id w (by rw [hst, h3]) (by rw [hst, h4])]
  dsimp only
  rw [settle_quiet w ch (by rw [hp]) (by rw [kw.1, h1]) (by rw [kw.2, h2])]
  exact ite_self _
/-- What FREEZE leaves of PFW. -/
def Same (u v : State) : Prop := v.pfw = u.pfw ∧ v.f Reg.pfwMode = u.f Reg.pfwMode
theorem Same.refl (u : State) : Same u u := ⟨rfl, rfl⟩
theorem Same.trans {u v w : State} (h : Same u v) (k : Same v w) : Same u w := ⟨k.1.trans h.1, k.2.trans h.2⟩
theorem Same.steady {u v : State} (h : Steady u v) : Same u v := ⟨h.pfw, h.csr _ (by decide)⟩
theorem Same.foldl {α : Type} (f : State → α → State) (h : ∀ u a, Same u (f u a)) (l : List α) (u : State) : Same u (l.foldl f u) := by
  induction l generalizing u with
  | nil => exact .refl u
  | cons a l ih => exact (h u a).trans (ih _)
theorem abandonHook_same (u : State) : Same u u.abandonHook := by
  unfold State.abandonHook
  dsimp only
  generalize hb : (u.setEngine 1 { u.engine 1 with run := false, waiting := none }).bump 0x50 = w
  have h : Same u w := by subst hb; exact Same.trans (v := u.setEngine 1 { u.engine 1 with run := false, waiting := none }) ⟨rfl, rfl⟩ (Same.steady (State.bump_steady _ _))
  split
  · refine Same.trans ?_ (Same.steady (State.record_steady _ _ _ _ _ _ _))
    exact ⟨h.1, (State.f_setF_ne _ _ (by decide)).trans h.2⟩
  · exact h
theorem giveBack_same (u : State) (k p : Nat) (r : Bool) : Same u (u.giveBack k p r) := by
  unfold State.giveBack; dsimp only; split <;> exact ⟨rfl, rfl⟩
theorem dropMoving_same (u : State) (c : Cmd) : Same u (u.dropMoving c) := by
  unfold State.dropMoving; split
  · exact giveBack_same _ _ _ _
  · exact .refl u
theorem freezeCairns_same (u : State) : Same u u.freezeCairns := by
  unfold State.freezeCairns
  dsimp only
  refine Same.trans (Same.foldl _ ?_ _ u) (Same.foldl _ ?_ _ _)
  · intro x a; exact ⟨rfl, rfl⟩
  · intro x a; exact ⟨rfl, rfl⟩
theorem freezeFlash_same (u : State) : Same u u.freezeFlash := by
  unfold State.freezeFlash
  refine Same.foldl _ ?_ _ u
  intro x a
  dsimp only
  refine Same.trans (Same.foldl _ ?_ _ x) ⟨rfl, rfl⟩
  intro y b; exact ⟨rfl, rfl⟩
theorem dropIn_same (u : State) (c : Nat) : Same u (u.dropIn c) := by
  unfold State.dropIn
  dsimp only
  split
  · exact Same.trans ⟨rfl, rfl⟩ (giveBack_same _ _ _ _)
  · exact .refl u
theorem raiseVein_same (u : State) (v i : Nat) : Same u (u.raiseVein v i) := by
  unfold State.raiseVein
  refine Same.foldl _ ?_ _ u
  intro x a
  split <;> exact ⟨rfl, rfl⟩
theorem freezeBlocks_pfw (s : State) : Same s s.freezeBlocks := by
  have q1 : Same s (if s.hooks.busy then s.abandonHook else s) := by
    split
    · exact abandonHook_same s
    · exact .refl s
  unfold State.freezeBlocks
  dsimp only
  refine q1.trans ?_
  generalize (if s.hooks.busy then s.abandonHook else s) = u
  refine Same.trans (Same.foldl _ dropMoving_same (u.rings.flatMap fun r => r.2.cmds) u) ?_
  generalize (u.rings.flatMap fun r => r.2.cmds).foldl State.dropMoving u = v
  refine (raiseVein_same v 0xFF 4).trans ((freezeCairns_same _).trans ((freezeFlash_same _).trans ?_))
  generalize (v.raiseVein 0xFF 4).freezeCairns.freezeFlash = w
  refine Same.trans (Same.foldl _ dropIn_same (w.fab.conns.map fun c => c.1) w) ?_
  generalize (w.fab.conns.map fun c => c.1).foldl State.dropIn w = x
  cases h : x.selfTest with
  | none => exact ⟨rfl, rfl⟩
  | some t =>
    dsimp only
    have k := Same.steady (State.record_steady x 0x9004 Src.selfTest t.kind 0 0 0)
    generalize x.record 0x9004 Src.selfTest t.kind = z at *
    exact ⟨k.1, k.2⟩
theorem draining_bounds (u : State) (c : FreezeCause) (h : u.dieUp = true) (hz : u.bas.freeze = false) :
    (u.freezeNow c false).pfw = u.pfw ∧ (u.freezeNow c false).bas.freeze = true := by
  have g := freezeNow_drains u c false h hz
  unfold Drains at g
  have p := freezeBlocks_pfw u
  generalize u.freezeBlocks = v at *
  have k := becomes_keeps g
  exact ⟨k.1.trans p.1, by rw [k.2.1]⟩
theorem pfwMoved_confirms (x : State) (ch : PfwCh) (hd : x.dieUp = true) (hz : x.bas.freeze = false) (ha : x.pfwActs = true) (hs : x.pfw.state = .timing)
    (h1 : x.warnsA = true) (h2 : x.warnsB = true) : x.pfwMoved ch = (x.record 0x8012 Src.basalt).freezeNow .pfw false := by
  have e : x.settlePfw ch = (x.record 0x8012 Src.basalt).freezeNow .pfw false := by
    unfold State.settlePfw State.confirmPfw
    simp [hs, h1, h2]
  unfold State.pfwMoved
  rw [if_neg (by simp [hz, ha]), e]
  have k := State.record_steady x 0x8012 Src.basalt 0 0 0 0
  generalize x.record 0x8012 Src.basalt = w at *
  have g := draining_bounds w .pfw (by unfold State.dieUp; rw [k.dev, k.bas]; exact hd) (by rw [k.bas]; exact hz)
  generalize w.freezeNow .pfw false = y at *
  have b : y.pfwBoundary = y := by
    unfold State.pfwBoundary
    rw [if_neg (by rw [g.1, k.pfw]; simp [hs])]
  rw [b]
  dsimp only
  rw [if_pos g.2]
theorem freezeBlocks_facts (s : State) :
    (∀ q ∈ s.freezeBlocks.rings, q.2.cmds = [] ∧ q.2.waiting = [] ∧ q.2.chain = none ∧ q.2.snap = none) ∧
    s.freezeBlocks.hooks.queue = [] ∧ s.freezeBlocks.mbx.h2dFull = 0 ∧ s.freezeBlocks.mbx.d2hFull = 0 ∧
    s.freezeBlocks.led.phase = .idle ∧ s.freezeBlocks.bas.chgMode = 0 := by
  unfold State.freezeBlocks
  dsimp only
  refine ⟨?_, rfl, rfl, rfl, rfl, rfl⟩
  intro q hq
  obtain ⟨r, _, rfl⟩ := List.mem_map.mp hq
  exact ⟨rfl, rfl, rfl, rfl⟩

/-! ### Drain steps -/

theorem giveBack_drain (u : State) (k p : Nat) (r : Bool) : (u.giveBack k p r).drain = u.drain := by
  unfold State.giveBack; dsimp only; split <;> rfl
theorem journalVerified_drain (u : State) : u.journalVerified.drain = u.drain := by
  unfold State.journalVerified State.releaseDurable
  dsimp only
  exact foldl_keeps (fun (t : State) (u : SUnit) => t.giveBack 1 u.part u.fromReserve) (fun t => t.drain) (fun t u => giveBack_drain t _ _ _) _ _
theorem saveTrial_facts (u : State) : u.saveTrial.drain = u.drain ∧ u.saveTrial.time = u.time ∧ u.saveTrial.str = u.str ∧
    u.saveTrial.bas = u.bas ∧ u.saveTrial.evr = u.evr ∧ max u.saveTrial.nv.savedOpt u.time.optMs = max u.nv.savedOpt u.time.optMs := by
  unfold State.saveTrial
  split
  · refine ⟨rfl, rfl, rfl, rfl, rfl, ?_⟩
    show max (max _ _) _ = _
    omega
  · exact ⟨rfl, rfl, rfl, rfl, rfl, rfl⟩
theorem cutDrain_facts (s : State) (reached : List Nat) :
    let us := s.str.units.map fun u => { u with drained := u.drained || (s.drain.manifest && reached.contains u.id) }
    let v := s.cutDrain reached
    v.drain = s.drain ∧ v.str.units = us ∧ v.nv.missing = s.nv.missing ++ us.filter (fun u => !u.drained) ∧ v.nv.drainCut = true ∧
      ∃ u : State, Counts { s with str := { s.str with units := us } } 0x06 u ∧ v.evr = u.evr := by
  dsimp only
  unfold State.cutDrain
  dsimp only
  have k := State.bump_steady { s with str.units := s.str.units.map fun (u : SUnit) =>
      { u with drained := u.drained || (s.drain.manifest && reached.contains u.id) } } 0x06
  refine ⟨k.drain, ?_, ?_, rfl, _, ⟨_, .refl _, .refl _⟩, rfl⟩
  · rw [k.str]
  · have q := congrArg (fun n : Nv => n.missing) k.nv
    dsimp only at q
    rw [q]

/-! ### Power and resets -/

theorem setFails_facts (u : State) (v : Nat) : (u.setFails v).start = { u.start with fails := v } ∧ (u.setFails v).bas = { u.bas with latchF := v } ∧
    { u.setFails v with start := u.start, bas := u.bas, nv := u.nv } = u ∧ (u.setFails v).evr = u.evr ∧ (u.setFails v).nv.amber = u.nv.amber := by
  unfold State.setFails
  split <;> exact ⟨rfl, rfl, rfl, rfl, rfl⟩
theorem failedStart_facts (s : State) (cause : Nat) : ∃ u : State, Logs s 0x1010 Src.start cause 0 0 0 u ∧ Counts s 0x08 u ∧
      (s.failedStart cause).bas.dieReset = true ∧ (s.failedStart cause).bas.nextSrc = 4 ∧ (s.failedStart cause).nv.lastStop = {} ∧
      (s.failedStart cause).evr.staging = [] ∧
      (s.start.trial = false → (s.failedStart cause).nv.amber = u.nv.amber ++ u.evr.staging.filter (fun r => r.area == 1) ∧
        (s.failedStart cause).start.fails = min 3 (s.start.fails + 1) ∧
        (s.failedStart cause).bas.latchF = min 3 (s.start.fails + 1)) := by
  refine ⟨(s.record 0x1010 Src.start cause).bump 0x08, ⟨_, .refl _, State.bump_steady _ _⟩, ⟨_, State.record_steady _ _ _ _ _ _ _, .refl _⟩, ?_⟩
  have k := (State.record_steady s 0x1010 Src.start cause 0 0 0).trans (State.bump_steady _ 0x08)
  unfold State.failedStart
  dsimp only
  generalize (s.record 0x1010 Src.start cause).bump 0x08 = u at *
  refine ⟨rfl, rfl, rfl, rfl, fun ht => ?_⟩
  rw [if_neg (by simp [ht])]
  have g := setFails_facts u (min 3 (s.start.fails + 1))
  generalize u.setFails (min 3 (s.start.fails + 1)) = v at *
  obtain ⟨g1, g2, _, g4, g5⟩ := g
  refine ⟨?_, ?_, ?_⟩
  · show v.nv.amber ++ v.evr.staging.filter _ = _
    rw [g4, g5]
  · show v.start.fails = _
    rw [g1]
  · show v.bas.latchF = _
    rw [g2]

/-! ### Die start -/

theorem enterBedrock_facts (v : State) (c : Nat) : (v.enterBedrock c).dev = .bedrock ∧ (v.enterBedrock c).start.bedrockCause = c ∧
      (v.enterBedrock c).start.hostAccess = true ∧ (v.enterBedrock c).pcie.crs = false ∧ (v.enterBedrock c).dram = {} ∧
      (v.enterBedrock c).bas = v.bas ∧ (v.enterBedrock c).pending = v.pending ∧ ((v.enterBedrock c).engine 2).run = true ∧
      ((v.enterBedrock c).engine 3).run = true ∧ ((v.enterBedrock c).engine 4).run = false := by
  unfold State.enterBedrock
  dsimp only
  generalize hw : ({ v with
    start.bedrockCause := c, str.mapMode := 2, dram := {}
    eng := (v.eng.filter fun (x : Nat × Engine) => x.1 < 2) ++ [(2, { run := true }), (3, { run := true })] } : State) = w
  obtain ⟨u, a, b, _, h⟩ := State.setDev_becomes w .bedrock
  have k := (h.trans (State.record_steady _ 0x1020 Src.start c 0 0 0)).trans (State.bump_steady _ 0x09)
  generalize ((w.setDev .bedrock).record 0x1020 Src.start c).bump 0x09 = x at *
  have e : ∀ n : Nat, n ≠ 0 → n ≠ 1 → ∀ m : Map Engine, Map.get {} ((m.filter fun (x : Nat × Engine) => x.1 < 2) ++ [(2, { run := true }), (3, { run := true })]) n
      = if n = 2 ∨ n = 3 then ({ run := true } : Engine) else {} := by
    intro n h0 h1 m
    induction m with
    | nil =>
      show (if 2 = n then _ else if 3 = n then _ else _) = _
      by_cases h2 : n = 2
      · simp [h2]
      · by_cases h3 : n = 3
        · simp [h3]
        · rw [if_neg (by omega), if_neg (by omega), if_neg (by omega)]; rfl
    | cons p m ih =>
      by_cases hp : p.1 < 2
      · simp only [List.filter_cons, hp, decide_true, if_true, List.cons_append]
        obtain ⟨a, y⟩ := p
        show (if a = n then y else _) = _
        rw [if_neg (by simp only at hp; omega)]
        exact ih
      · simp only [List.filter_cons, hp, decide_false, Bool.false_eq_true, if_false]
        exact ih
  have we : ∀ n, n ≠ 0 → n ≠ 1 → (w.engine n).run = decide (n = 2 ∨ n = 3) := by
    intro n h0 h1
    subst hw
    show (Map.get {} _ n : Engine).run = _
    rw [e n h0 h1]
    by_cases h : n = 2 ∨ n = 3
    · simp [h]
    · simp [h]
  have xe : ∀ n, (x.engine n).run = (w.engine n).run := fun n => k.engine_run n
  refine ⟨k.dev, ?_, rfl, rfl, k.dram.trans ?_, k.bas.trans ?_, k.pending.trans ?_, (xe 2).trans ?_, (xe 3).trans ?_, (xe 4).trans ?_⟩
  · show x.start.bedrockCause = c
    rw [k.start]; subst hw; rfl
  · subst hw; rfl
  · subst hw; rfl
  · subst hw; rfl
  · rw [we 2 (by decide) (by decide)]; rfl
  · rw [we 3 (by decide) (by decide)]; rfl
  · rw [we 4 (by decide) (by decide)]; rfl
theorem fresh_facts (s : State) (st : Straps) (rom : RomFacts) : (s.fresh st rom).dev = .rom ∧ (s.fresh st rom).start.rom = .running ∧
    (s.fresh st rom).start.src = s.bas.nextSrc ∧ (s.fresh st rom).start.fails = s.bas.latchF ∧ (s.fresh st rom).pending = s.pending ∧
    (s.fresh st rom).time.uptime = 0 ∧ (s.fresh st rom).time.calSet = false ∧ (s.fresh st rom).time.optMs = s.nv.savedOpt ∧
    (s.fresh st rom).time.cycles = s.nv.savedCycles + 1 ∧
    (s.fresh st rom).bas.freeze = false ∧ (s.fresh st rom).bas.dieReset = false ∧ (s.fresh st rom).bas.latchF = s.bas.latchF ∧
    (s.fresh st rom).nv.vols = s.nv.vols ∧ (s.fresh st rom).nv.floor = s.nv.floor ∧
    (s.fresh st rom).nv.amber = s.nv.amber ∧ (s.fresh st rom).evr.staging = [] ∧ (s.fresh st rom).evr.tc = s.nv.savedTc ∧
    (s.fresh st rom).rings = [] ∧ (s.fresh st rom).str = State.reset.str ∧
    (s.fresh st rom).roles = State.reset.roles ∧ (s.fresh st rom).led = State.reset.led ∧ (s.fresh st rom).eng = State.reset.eng ∧
    (s.fresh st rom).dram = State.reset.dram := by
  unfold State.fresh
  dsimp only [List.range, List.range.loop, List.foldl]
  exact ⟨rfl, rfl, rfl, rfl, rfl, rfl, rfl, rfl, rfl, rfl, rfl, rfl, rfl, rfl, rfl, rfl, rfl, rfl, rfl, rfl, rfl, rfl, rfl⟩

end Sys2Proof.Machine
end

