-- ==== Sys2Proof/Laws/Tasks.lean ====
section
/-! SUPPORT. Cairn firings, the recorder and the timers (R457 to R512). -/

namespace Sys2Proof.Machine

/-! ### Cairn firings -/

theorem found_cairn {s : State} {c : Nat} {f : Firing} (h : s.crn.running.find? (fun g => g.cairn == c) = some f) : f.cairn = c := by
  have := List.find?_some h
  simpa using this
theorem commitFiring_eq (u : State) (f : Firing) : u.commitFiring f =
    { u.commit with crn := { u.commit.crn with running := u.commit.crn.running.map fun g => if g.cairn = f.cairn then
        { f with pages := u.commit.str.pages.length + if u.commit.str.openPage = [] then 0 else 1 } else g } } := by
  unfold State.commitFiring State.pagesAhead State.setFiring
  dsimp only
  generalize u.commit = v
  cases v.str.openPage <;> rfl
theorem runFiring_some {s : State} {c k : Nat} {f : Firing} (h : s.crn.running.find? (fun g => g.cairn == c) = some f) :
    s.runFiring c (k + 1) = if (s.runAction f).2 = true then State.runFiring (s.runAction f).1 c k else (s.runAction f).1 := by
  have e : s.firing? c = some f := h
  conv => lhs; unfold State.runFiring
  rw [e]
theorem runAction_pin {s : State} {c : Nat} {f : Firing} (h : s.crn.running.find? (fun g => g.cairn == c) = some f) (h1 : f.action < (s.cairn c).actions)
    (h2 : leAt (slice (s.cairn c).entry (32 + 16 * f.action) 16) 0 1 = 1) : s.runAction f = (s.runPin f (slice (s.cairn c).entry (32 + 16 * f.action) 16), true) := by
  rw [← found_cairn h] at *
  have h2' : slotKind ((s.cairn f.cairn).slot f.action) = 1 := h2
  unfold State.runAction
  dsimp only
  rw [if_neg (Nat.not_le.2 h1), h2']
  rfl
theorem runAction_ship {s : State} {c : Nat} {f : Firing} (h : s.crn.running.find? (fun g => g.cairn == c) = some f) (h1 : f.action < (s.cairn c).actions)
    (h2 : leAt (slice (s.cairn c).entry (32 + 16 * f.action) 16) 0 1 = 2) : s.runAction f = if ¬ f.pinsDurable = true ∧ ¬ f.begun = true then (s, false) else
      (s.runShip f (slice (s.cairn c).entry (32 + 16 * f.action) 16), ((s.runShip f (slice (s.cairn c).entry (32 + 16 * f.action) 16)).firing? c).any fun g => decide (g.action ≠ f.action)) := by
  rw [← found_cairn h] at *
  have h2' : slotKind ((s.cairn f.cairn).slot f.action) = 2 := h2
  unfold State.runAction
  dsimp only
  rw [if_neg (Nat.not_le.2 h1), h2']
  rfl
theorem runAction_send {s : State} {c : Nat} {f : Firing} (h : s.crn.running.find? (fun g => g.cairn == c) = some f) (h1 : f.action < (s.cairn c).actions)
    (h2 : leAt (slice (s.cairn c).entry (32 + 16 * f.action) 16) 0 1 = 3) : s.runAction f = (s.runSend f (slice (s.cairn c).entry (32 + 16 * f.action) 16), false) := by
  rw [← found_cairn h] at *
  have h2' : slotKind ((s.cairn f.cairn).slot f.action) = 3 := h2
  unfold State.runAction
  dsimp only
  rw [if_neg (Nat.not_le.2 h1), h2']
  rfl
theorem runAction_notify {s : State} {c : Nat} {f : Firing} (h : s.crn.running.find? (fun g => g.cairn == c) = some f) (h1 : f.action < (s.cairn c).actions)
    (h2 : leAt (slice (s.cairn c).entry (32 + 16 * f.action) 16) 0 1 = 4) : s.runAction f =
      ((if s.mbxUp = true then s.setD2h (leAt (slice (s.cairn c).entry (32 + 16 * f.action) 16) 4 4) else s).commitFiring (f.ended 0), true) := by
  rw [← found_cairn h] at *
  have h2' : slotKind ((s.cairn f.cairn).slot f.action) = 4 := h2
  unfold State.runAction
  dsimp only
  rw [if_neg (Nat.not_le.2 h1), h2']
  rfl
theorem refusals_counted (u : State) (r : Nat) : if r = 0 then (if r = 0 then u else u.bump 0x52) = u else Counts u 0x52 (if r = 0 then u else u.bump 0x52) := by
  by_cases h : r = 0
  · rw [if_pos h, if_pos h]
  · rw [if_neg h, if_neg h]
    exact ⟨_, .refl _, .refl _⟩
theorem broken_eq {s : State} {c : Nat} {f : Firing} (h : s.crn.running.find? (fun g => g.cairn == c) = some f) (hb : f.begun = true) (u : State)
    (hc : u.crn = s.crn) (hn : u.nv = s.nv) :
    u.cairnBroken c 3 =
      ((u.orphan c).setFiring ((if leAt (slice (s.cairn c).entry (32 + 16 * f.action) 16) 0 1 = 2 then { f with ships := max f.ships (max 3 f.part) } else f).ended (max 3 f.part))).runFiring c 8 := by
  have e : u.firing? c = some f := by unfold State.firing?; rw [hc]; exact h
  have d : u.cairn c = s.cairn c := by unfold State.cairn; rw [hn]
  unfold State.cairnBroken
  rw [e, d]
  exact if_neg (fun k => k hb)
theorem chain_facts (u : State) (e : Cairn) (f : Firing) :
    (¬ (e.flag 3 = true ∧ (e.flag 4 = true → f.results.foldl max (if f.resumed = true then 6 else 0) = 0)) → u.chain e f = u) ∧
    ((e.flag 3 = true ∧ (e.flag 4 = true → f.results.foldl max (if f.resumed = true then 6 else 0) = 0)) → 8 ≤ f.depth → Logs u 0xA023 Src.cairn f.cairn 0 0 0 (u.chain e f)) ∧
    ((e.flag 3 = true ∧ (e.flag 4 = true → f.results.foldl max (if f.resumed = true then 6 else 0) = 0)) → f.depth < 8 →
      u.chain e f = (u.fireCairn e.next 6 f.t0 f.t0Field (f.depth + 1)).1) := by
  unfold State.chain Firing.result
  generalize f.results.foldl max (if f.resumed = true then 6 else 0) = r
  refine ⟨fun k => if_pos ?_, fun k k2 => ?_, fun k k2 => ?_⟩
  · refine Classical.byContradiction fun n => k ?_
    simp only [not_or, Decidable.not_not, not_and] at n
    exact n
  all_goals
    have g : ¬ (¬ e.flag 3 = true ∨ (e.flag 4 = true ∧ r ≠ 0)) := by
      rintro (q | q)
      · exact q k.1
      · exact q.2 (k.2 q.1)
    rw [if_neg g]
  · rw [if_pos k2]
    exact ⟨_, .refl _, .refl _⟩
  · rw [if_neg (by omega)]

/-! ### Recorder -/

theorem bucketSize_eq (n : Nat) : bucketSize n = if n = 1 then 64 else if n = 2 then 8 else 2 := by
  unfold bucketSize; split <;> simp_all
theorem bucketPeriod_eq (n : Nat) : bucketPeriod n = if n = 1 then 390625 else if n = 2 then 3125000 else 25000000 := by
  unfold bucketPeriod; split <;> simp_all
theorem recordCore_eq (s : State) (code src p1 p2 p3 p4 : Nat) : s.recordCore code src p1 p2 p3 p4 =
    if (sevRate code).2 ≠ 0 ∧ s.tokens code (sevRate code).2 = 0 then
      ({ (s.bumpPlain 0).countF Reg.evrSupp 1 with evr := { ((s.bumpPlain 0).countF Reg.evrSupp 1).evr with
          supp := s.evr.supp.put code ⟨(s.evr.supp.get ⟨0, s.upLo⟩ code).count + 1, (s.evr.supp.get ⟨0, s.upLo⟩ code).first⟩ } }, false)
    else
      if ((if (sevRate code).2 = 0 then s else { s with evr := { s.evr with buckets := s.evr.buckets.put code ⟨s.tokens code (sevRate code).2 - 1, s.time.uptime⟩ } }).keep
          code src p1 p2 p3 p4).2 = true ∧
        (if (sevRate code).2 = 0 then s else { s with evr := { s.evr with buckets := s.evr.buckets.put code ⟨s.tokens code (sevRate code).2 - 1, s.time.uptime⟩ } }).amberHeld = 4095 then
        ((((if (sevRate code).2 = 0 then s else { s with evr := { s.evr with buckets := s.evr.buckets.put code ⟨s.tokens code (sevRate code).2 - 1, s.time.uptime⟩ } }).keep
          code src p1 p2 p3 p4).1.keep 0xF002 Src.recorder 0 0 0 0).1, true)
      else (if (sevRate code).2 = 0 then s else { s with evr := { s.evr with buckets := s.evr.buckets.put code ⟨s.tokens code (sevRate code).2 - 1, s.time.uptime⟩ } }).keep
          code src p1 p2 p3 p4 := rfl
theorem keep_room {u : State} (code src p1 p2 p3 p4 : Nat) (h : u.evr.shut = false) (h2 : u.evr.staging.length < 256) :
    u.keep code src p1 p2 p3 p4 = (u.stage code src p1 p2 p3 p4, true) := by
  unfold State.keep
  rw [if_neg (by simp [h]), if_neg (Nat.not_le.2 h2)]
theorem stage_eq (u : State) (code src p1 p2 p3 p4 : Nat) : u.stage code src p1 p2 p3 p4 =
    { u with evr := { u.evr with staging := u.evr.staging ++ [{
          code := code, kind := if u.time.calSet = true then 1 else 0, area := if u.amberHeld < 4096 then 1 else 0, sev := (sevRate code).1, src := src, time := u.timeField,
          p1 := p1 % 2 ^ 32, p2 := p2 % 2 ^ 32, p3 := p3 % 2 ^ 32, p4 := p4 % 2 ^ 32 }], last := code } } := by
  have e : b2n (decide (u.amberHeld < 4096)) = if u.amberHeld < 4096 then 1 else 0 := by
    unfold b2n; by_cases h : u.amberHeld < 4096 <;> simp [h]
  rw [← e]
  rfl

/-! ### Timers -/

theorem bitF_iff (s : State) (f : Field) : s.bitF f = true ↔ s.f f = 1 := by unfold State.bitF; simp
theorem timerFlag_facts (u : State) (f o : Field) : if u.f f = 1 then Sets u [(o, min (2 ^ o.width - 1) (u.f o + 1))] (u.timerFlag f o) else Sets u [(f, 1)] (u.timerFlag f o) := by
  unfold State.timerFlag
  split
  · exact Sets.count _ _ _
  · exact Sets.one _ _ _
def OutputsSet (u : State) (m : Nat) (event : Bool) (t : State) : Prop := { t with time := u.time } = u ∧ { t.time with gpioOut := u.time.gpioOut } = u.time ∧
      ∀ g, bit t.time.gpioOut g = if g < 4 ∧ u.f (Reg.gpioFunc g) = 2 ∧ u.f (Reg.gpioTimer g) = m then
        (let o := u.f (Reg.tmrOut m)
         if o = 1 then bit u.time.gpioOut g != event else if o = 2 then event else o = 3 ∧ u.f (Reg.tmrRun m) = 1) else bit u.time.gpioOut g
def outputLevel (u : State) (m : Nat) (event : Bool) (g : Nat) : Bool :=
  if u.f (Reg.tmrOut m) = 1 then bit u.time.gpioOut g != event else if u.f (Reg.tmrOut m) = 2 then event else decide (u.f (Reg.tmrOut m) = 3 ∧ u.f (Reg.tmrRun m) = 1)
theorem drive_one (t : State) (m : Nat) (event : Bool) (g : Nat) : ∃ w, (match t.f (Reg.tmrOut m) with
      | 1 => if event = true then t.drive g (!bit t.time.gpioOut g) else t
      | 2 => t.drive g event
      | 3 => t.drive g (t.bitF (Reg.tmrRun m))
      | _ => t.drive g false) = { t with time := { t.time with gpioOut := w } } ∧
    ∀ j, bit w j = if j = g then outputLevel t m event g else bit t.time.gpioOut j := by
  unfold outputLevel
  generalize t.f (Reg.tmrOut m) = o
  match o with
  | 1 =>
    cases event
    · exact ⟨t.time.gpioOut, rfl, fun j => by by_cases k : j = g <;> simp [k]⟩
    · exact ⟨_, rfl, fun j => by rw [bit_withBit]; simp⟩
  | 2 => exact ⟨_, rfl, fun j => by rw [bit_withBit]; rfl⟩
  | 3 => exact ⟨_, rfl, fun j => by rw [bit_withBit]; simp [State.bitF]⟩
  | 0 => exact ⟨_, rfl, fun j => by rw [bit_withBit]; rfl⟩
  | n + 4 => exact ⟨_, rfl, fun j => by rw [bit_withBit, if_neg (by omega : ¬ n + 4 = 1), if_neg (by omega : ¬ n + 4 = 2)]; simp⟩
theorem drive_all (m : Nat) (event : Bool) (l : List Nat) (hl : l.Nodup) (t : State) : ∃ w, (l.foldl (fun t g =>
    if t.f (Reg.gpioFunc g) = 2 ∧ t.f (Reg.gpioTimer g) = m then
      match t.f (Reg.tmrOut m) with
      | 1 => if event = true then t.drive g (!bit t.time.gpioOut g) else t
      | 2 => t.drive g event
      | 3 => t.drive g (t.bitF (Reg.tmrRun m))
      | _ => t.drive g false
    else t) t) = { t with time := { t.time with gpioOut := w } } ∧
    ∀ j, bit w j = if j ∈ l ∧ t.f (Reg.gpioFunc j) = 2 ∧ t.f (Reg.gpioTimer j) = m then outputLevel t m event j else bit t.time.gpioOut j := by
  induction l generalizing t with
  | nil => exact ⟨_, rfl, fun j => by simp⟩
  | cons g l ih =>
    have hn := List.nodup_cons.1 hl
    rw [List.foldl_cons]
    have one : ∃ w, (if t.f (Reg.gpioFunc g) = 2 ∧ t.f (Reg.gpioTimer g) = m then
      match t.f (Reg.tmrOut m) with
      | 1 => if event = true then t.drive g (!bit t.time.gpioOut g) else t
      | 2 => t.drive g event
      | 3 => t.drive g (t.bitF (Reg.tmrRun m))
      | _ => t.drive g false
      else t) = { t with time := { t.time with gpioOut := w } } ∧
      ∀ j, bit w j = if j = g ∧ t.f (Reg.gpioFunc g) = 2 ∧ t.f (Reg.gpioTimer g) = m then outputLevel t m event g else bit t.time.gpioOut j := by
      by_cases k : t.f (Reg.gpioFunc g) = 2 ∧ t.f (Reg.gpioTimer g) = m
      · obtain ⟨w, h1, h2⟩ := drive_one t m event g
        exact ⟨w, (if_pos k).trans h1, fun j => (h2 j).trans (by by_cases q : j = g <;> simp [q, k])⟩
      · exact ⟨_, if_neg k, fun j => by simp [k]⟩
    obtain ⟨w, h1, h2⟩ := one
    rw [h1]
    obtain ⟨w', h3, h4⟩ := ih hn.2 { t with time := { t.time with gpioOut := w } }
    refine ⟨w', h3, fun j => (h4 j).trans ?_⟩
    show (if j ∈ l ∧ t.f (Reg.gpioFunc j) = 2 ∧ t.f (Reg.gpioTimer j) = m then outputLevel _ m event j else bit w j) = _
    have hv : j ≠ g → outputLevel { t with time := { t.time with gpioOut := w } } m event j = outputLevel t m event j := by
      intro q
      have e : bit w j = bit t.time.gpioOut j := (h2 j).trans (if_neg (fun k => q k.1))
      unfold outputLevel
      show (if t.f (Reg.tmrOut m) = 1 then bit w j != event else if t.f (Reg.tmrOut m) = 2 then event else decide (t.f (Reg.tmrOut m) = 3 ∧ t.f (Reg.tmrRun m) = 1)) = _
      rw [e]
    by_cases q : j = g
    · subst q
      rw [if_neg (fun k => hn.1 k.1), h2 j]
      simp
    · rw [hv q, h2 j]
      simp [q]
theorem timerOutputs_set (u : State) (m : Nat) (event : Bool) : OutputsSet u m event (u.timerOutputs m event) := by
  obtain ⟨w, h1, h2⟩ := drive_all m event (List.range 4) (by decide) u
  have h : u.timerOutputs m event = { u with time := { u.time with gpioOut := w } } := h1
  unfold OutputsSet
  rw [h]
  refine ⟨rfl, rfl, fun g => ?_⟩
  rw [show bit _ g = bit w g from rfl, h2 g]
  unfold outputLevel
  simp only [List.mem_range]
theorem tmrKeys (n : Nat) : (Reg.tmrRun n).key ≠ (Reg.tmrCount n).key ∧ (Reg.tmrEn n).key ≠ (Reg.tmrRun n).key := by
  show (0x3110 + 0x20 * n) * 32 + 0 ≠ (0x3108 + 0x20 * n) * 32 + 0 ∧ (0x3100 + 0x20 * n) * 32 + 0 ≠ (0x3110 + 0x20 * n) * 32 + 0
  omega
theorem timerWrite_done (s : State) (path : Path) (f : State → State) (done : State → Prop) (h : done (f s)) :
    (s.dieUp = false → s.asWrite (fun t => t.asInstaller path f) = .next s) ∧
    (s.dieUp = true → ¬ (s.dieUp = true ∧ s.dev ≠ .recovery ∧ s.installer path = true) → Answers (s.asWrite fun t => t.asInstaller path f) (Counts s 0x03)) ∧
    ((s.dieUp = true ∧ s.dev ≠ .recovery ∧ s.installer path = true) → Answers (s.asWrite fun t => t.asInstaller path f) done) := by
  unfold State.asWrite State.asInstaller
  refine ⟨fun k => if_pos (by simp [k]), fun k k2 => ?_, fun k => ?_⟩
  · rw [if_neg (by simp [k])]
    have c : Counts s 0x03 s.ignoredWrite := ⟨_, .refl _, .refl _⟩
    split
    · exact ⟨_, rfl, c⟩
    · rename_i k3
      dsimp only
      rw [if_neg (fun k4 => k2 ⟨k, k3, k4⟩)]
      exact ⟨_, rfl, c⟩
  · rw [if_neg (by simp [k.1]), if_neg k.2.1]
    dsimp only
    rw [if_pos k.2.2]
    exact ⟨_, rfl, h⟩
theorem startTimer_starts (u : State) (m : Nat) : ∃ v, Sets u [(Reg.tmrCount m, 0), (Reg.tmrRun m, 1)] v ∧ OutputsSet v m false (u.startTimer m) := by
  refine ⟨_, (Sets.one u (Reg.tmrRun m) 1).more (Reg.tmrCount m) 0 (by simpa using (tmrKeys m).1), timerOutputs_set _ _ _⟩
theorem writeTimerEn_stops (s : State) (m : Nat) : ∃ u, Sets s [(Reg.tmrRun m, 0), (Reg.tmrEn m, 0)] u ∧ OutputsSet u m false (s.writeTimerEn m false) :=
  ⟨_, (Sets.one s (Reg.tmrEn m) 0).more (Reg.tmrRun m) 0 (by simpa using (tmrKeys m).2), timerOutputs_set _ _ _⟩
theorem writeTimerEn_starts (s : State) (m : Nat) : ∃ u, Sets s [(Reg.tmrEn m, 1)] u ∧ ∃ v, Sets u [(Reg.tmrCount m, 0), (Reg.tmrRun m, 1)] v ∧ OutputsSet v m false (s.writeTimerEn m true) :=
  ⟨_, Sets.one s (Reg.tmrEn m) 1, startTimer_starts _ _⟩
theorem writePeriod_facts (s : State) (m v : Nat) : if v = 0 then Logs s 0x1041 Src.lodestone (0x3104 + 0x20 * m) 0 0 0 (s.writePeriod m v) else Sets s [(Reg.tmrPeriod m, v)] (s.writePeriod m v) := by
  unfold State.writePeriod
  split
  · exact ⟨_, .refl _, .refl _⟩
  · exact Sets.one _ _ _
theorem oneShot_stops (y : State) (n : Nat) : if y.f (Reg.tmrMode n) = 1 then ∃ z, Sets y [(Reg.tmrRun n, 0)] z ∧
      OutputsSet z n false (if y.f (Reg.tmrMode n) = 1 then (y.setF (Reg.tmrRun n) 0).timerOutputs n false else y)
    else (if y.f (Reg.tmrMode n) = 1 then (y.setF (Reg.tmrRun n) 0).timerOutputs n false else y) = y := by
  by_cases h : y.f (Reg.tmrMode n) = 1
  · rw [if_pos h, if_pos h]
    exact ⟨_, Sets.one _ _ _, timerOutputs_set _ _ _⟩
  · rw [if_neg h, if_neg h]
theorem gateEdge_facts (u : State) (g m : Nat) (level : Bool) :
    let rising : Bool := level != (u.f (Reg.tmrGpol m) = 1)
    let takes : Prop := u.f (Reg.tmrGsrc m) = g + 1 ∧ u.f (Reg.tmrRun m) = 1 ∧ bit (u.f (Reg.tmrGedge m)) (if rising = true then 0 else 1) = true
    let t := if u.f (Reg.tmrGsrc m) = g + 1 then u.gateEdge m level else u
    (takes → u.f (Reg.tmrMode m) = 3 → t = u.countStep m) ∧ (takes → u.f (Reg.tmrMode m) = 4 → ∃ v, Sets u [(Reg.tmrCapture m, u.f (Reg.tmrCount m))] v ∧
      if v.f (Reg.tmrCap m) = 1 then Sets v [(Reg.tmrOvr m, min (2 ^ (Reg.tmrOvr m).width - 1) (v.f (Reg.tmrOvr m) + 1))] t else Sets v [(Reg.tmrCap m, 1)] t) ∧
    (takes → u.f (Reg.tmrMode m) = 5 → Sets u [(Reg.tmrCount m, 0)] t) ∧ (¬ takes ∨ u.f (Reg.tmrMode m) ≠ 3 ∧ u.f (Reg.tmrMode m) ≠ 4 ∧ u.f (Reg.tmrMode m) ≠ 5 → t = u) := by
  dsimp only
  unfold State.gateEdge
  have e : edgeSel (u.f (Reg.tmrGedge m)) (level != u.bitF (Reg.tmrGpol m)) =
      bit (u.f (Reg.tmrGedge m)) (if (level != decide (u.f (Reg.tmrGpol m) = 1)) = true then 0 else 1) := rfl
  rw [e]
  generalize bit (u.f (Reg.tmrGedge m)) (if (level != decide (u.f (Reg.tmrGpol m) = 1)) = true then 0 else 1) = sel
  dsimp only
  by_cases h : u.f (Reg.tmrGsrc m) = g + 1 ∧ u.f (Reg.tmrRun m) = 1 ∧ sel = true
  · rw [if_pos h.1, if_neg (by rw [bitF_iff]; simp [h.2.1, h.2.2])]
    refine ⟨fun _ k => by rw [if_pos k], fun _ k => ?_, fun _ k => ?_, fun k => ?_⟩
    · rw [if_neg (by omega), if_pos k]
      exact ⟨_, Sets.one _ _ _, timerFlag_facts _ _ _⟩
    · rw [if_neg (by omega), if_neg (by omega), if_pos k]
      exact Sets.one _ _ _
    · rcases k with k | k
      · exact absurd h k
      · rw [if_neg k.1, if_neg k.2.1, if_neg k.2.2]
  · refine ⟨fun k => absurd k h, fun k => absurd k h, fun k => absurd k h, fun _ => ?_⟩
    split
    · rename_i k
      rw [if_pos]
      rw [bitF_iff]
      refine Classical.byContradiction fun n => h ?_
      simp only [not_or, Decidable.not_not] at n
      exact ⟨k, n.1, n.2⟩
    · rfl
theorem slave_facts (u : State) (n m k : Nat) :
    let slave : Prop := n < m ∧ u.f (Reg.tmrMaster m) = n
    let next := u.f (Reg.tmrCount m) + 1
    let runs : Prop := u.f (Reg.tmrRun m) = 1
    let t := if n < m ∧ u.f (Reg.tmrMaster m) = n then
        if u.f (Reg.tmrLink m) = 1 then u.startTimer m
        else if u.f (Reg.tmrLink m) = 2 ∧ u.bitF (Reg.tmrRun m) = true then
          if u.f (Reg.tmrPeriod m) ≤ u.f (Reg.tmrCount m) + 1 then State.periodEvent u m k else u.setF (Reg.tmrCount m) (u.f (Reg.tmrCount m) + 1)
        else u
      else u
    (slave → u.f (Reg.tmrLink m) = 1 → ∃ v, Sets u [(Reg.tmrCount m, 0), (Reg.tmrRun m, 1)] v ∧ OutputsSet v m false t) ∧
    (slave → u.f (Reg.tmrLink m) = 2 → runs → u.f (Reg.tmrPeriod m) ≤ next → t = u.periodEvent m k) ∧
    (slave → u.f (Reg.tmrLink m) = 2 → runs → next < u.f (Reg.tmrPeriod m) → Sets u [(Reg.tmrCount m, next)] t) ∧
    (¬ slave ∨ u.f (Reg.tmrLink m) = 0 ∨ u.f (Reg.tmrLink m) = 2 ∧ ¬ runs → t = u) := by
  dsimp only
  refine ⟨fun h k => ?_, fun h k k2 k3 => ?_, fun h k k2 k3 => ?_, fun h => ?_⟩
  · rw [if_pos h, if_pos k]; exact startTimer_starts _ _
  · rw [if_pos h, if_neg (by omega), if_pos ⟨k, (bitF_iff _ _).2 k2⟩, if_pos k3]
  · rw [if_pos h, if_neg (by omega), if_pos ⟨k, (bitF_iff _ _).2 k2⟩, if_neg (Nat.not_le.2 k3)]; exact Sets.one _ _ _
  · split
    · rename_i k
      rcases h with h | h | h
      · exact absurd k h
      · rw [if_neg (by omega), if_neg (by omega)]
      · rw [if_neg (by omega), if_neg (by rw [bitF_iff]; exact fun q => h.2 q.2)]
    · rfl
def periodCounted (s : State) (n : Nat) : State := (s.setF (Reg.tmrCount n) 0).timerFlag (Reg.tmrEvt n) (Reg.tmrOvr n)
def periodRaised (v : State) (n : Nat) : State :=
  State.raiseVein (if v.f (Reg.tmrRKey n) = 1 then v.raise 0 0 else v) ((if v.f (Reg.tmrRKey n) = 1 then v.raise 0 0 else v).f (Reg.tmrRVein n)) 0
def periodRouted (w : State) (n : Nat) : State :=
  let a := if w.f (Reg.tmrRHook n) = 1 then (if (w.granted fun e => bit (grantTimers e) n) = true then w.raise 1 0 else w).hookTrigger (hookIs 3 n) else w
  if a.f (Reg.tmrRCairn n) = 1 then a.triggerAll 3 (fun c => c.kind == 3 && c.detail == n && c.state ≠ 0) else a
def slaveFed (n k : Nat) (t : State) (m : Nat) : State :=
  if n < m ∧ t.f (Reg.tmrMaster m) = n then
        if t.f (Reg.tmrLink m) = 1 then t.startTimer m
        else if t.f (Reg.tmrLink m) = 2 ∧ t.bitF (Reg.tmrRun m) = true then
          if t.f (Reg.tmrPeriod m) ≤ t.f (Reg.tmrCount m) + 1 then State.periodEvent t m k else t.setF (Reg.tmrCount m) (t.f (Reg.tmrCount m) + 1)
        else t
      else t
def oneShotEnded (y : State) (n : Nat) : State := if y.f (Reg.tmrMode n) = 1 then (y.setF (Reg.tmrRun n) 0).timerOutputs n false else y
theorem timerRoutes_eq (s : State) (n : Nat) : (s.setF (Reg.tmrCount n) 0).timerRoutes n = (periodRouted (periodRaised (periodCounted s n) n) n).timerOutputs n true := by
  unfold State.timerRoutes periodCounted periodRaised periodRouted State.bitF
  simp only [decide_eq_true_eq]
theorem periodEvent_eq (s : State) (n k : Nat) : s.periodEvent n (k + 1) =
    (List.range 8).foldl (slaveFed n k) (oneShotEnded ((periodRouted (periodRaised (periodCounted s n) n) n).timerOutputs n true) n) := by
  rw [← timerRoutes_eq]
  conv => lhs; unfold State.periodEvent
  rfl
def gatedEdge (g : Nat) (level : Bool) (t : State) (m : Nat) : State := if t.f (Reg.tmrGsrc m) = g + 1 then t.gateEdge m level else t
theorem periodRouted_raises (w : State) (n : Nat) : ∃ a b y : State, a = (if w.f (Reg.tmrRHook n) = 1 then (if (w.granted fun e => bit (grantTimers e) n) = true then w.raise 1 0 else w).hookTrigger (hookIs 3 n) else w) ∧
       b = (if a.f (Reg.tmrRCairn n) = 1 then a.triggerAll 3 (fun c => c.kind == 3 && c.detail == n && c.state ≠ 0) else a) ∧
       OutputsSet b n true y ∧ if y.f (Reg.tmrMode n) = 1 then ∃ z, Sets y [(Reg.tmrRun n, 0)] z ∧ OutputsSet z n false (oneShotEnded ((periodRouted w n).timerOutputs n true) n)
         else oneShotEnded ((periodRouted w n).timerOutputs n true) n = y := by
  refine ⟨_, periodRouted w n, (periodRouted w n).timerOutputs n true, rfl, rfl, ?_⟩
  generalize periodRouted w n = b
  refine ⟨?_, ?_⟩
  · exact timerOutputs_set b n true
  · exact oneShot_stops (b.timerOutputs n true) n

end Sys2Proof.Machine
end

