-- ==== Sys2Proof/Laws/Traffic.lean ====
section
/-! SUPPORT. Reads, writes, streams, FLUSH, TRIM and the queries (R230 to R273, R300 to R345). -/

namespace Sys2Proof.Machine

/-! ### Reads and writes -/

def failStatus (fails : List (Nat × Nat)) : Nat := match fails with
  | [] => 0
  | f :: _ => f.2
def failResult (fails : List (Nat × Nat)) : Bytes := natLe 4 0 ++ natLe 4 (match fails with
  | [] => 0xFFFFFFFF
  | f :: _ => f.1) ++ natLe 4 fails.length
def State.readEnds (u : State) (c : Cmd) (size : Nat) (fails : List (Nat × Nat)) (x : Xfer) : State :=
  match x with
  | .done segs _ =>
    if c.listOk (c.length * size) segs then
      (u.scatterBlocks c.volume c.start size fails (c.runs (c.length * size) segs) 0 c.length).complete c (failStatus fails) (failResult fails)
    else u.complete c 0x0201 []
  | _ => u.moveOut { c with holes := fails.map fun f => (f.1 * size, size) } (c.length * size)
      ((List.range c.length).flatMap fun i => u.readBytes c.volume c.start i) (failStatus fails) (failResult fails) x
theorem startRead_eq {s : State} {c : Cmd} (h1 : s.ioCheck c = none) (h2 : (s.chan c.ring).halted = false) (media : List (Nat × Media)) (x : Xfer) (u : State) (fails : List (Nat × Nat))
    (hu : u = s.readBlocks c.volume (((List.range c.length).map fun i => s.lbaPlace c.volume (c.start + i)).eraseDups)
        (media.map fun m => (s.lbaPlace c.volume (c.start + m.1), m.2))) (hf : fails = u.failing c.volume c.start c.length (failedOf media)) :
    s.startRead c media x = State.readEnds u c (s.vol c.volume).lbaBytes fails x := by
  unfold State.startRead State.checked
  rw [h1]
  dsimp only
  rw [if_neg (by simp [h2])]
  subst hf hu
  rfl
theorem clear_read {s : State} {n tag : Nat} {c : Cmd} (h : Clear s n tag 1 c) (media : List (Nat × Media)) (u : State) (fails : List (Nat × Nat))
    (hu : u = s.readBlocks c.volume (((List.range c.length).map fun i => s.lbaPlace c.volume (c.start + i)).eraseDups)
        (media.map fun m => (s.lbaPlace c.volume (c.start + m.1), m.2))) (hf : fails = u.failing c.volume c.start c.length (failedOf media)) (x : Xfer) :
    s.startCmd n tag 1 (fun s c => s.startRead c media x) = ok (State.readEnds u c (s.vol c.volume).lbaBytes fails x) := by
  rw [h.start.run, startRead_eq h.checks h.going media x u fails hu hf]
theorem readEnds_done {u : State} {c : Cmd} {size : Nat} {fails : List (Nat × Nat)} {segs data : Bytes} (h : c.listOk (c.length * size) segs = true) :
    State.readEnds u c size fails (.done segs data) =
      (u.scatterBlocks c.volume c.start size fails (c.runs (c.length * size) segs) 0 c.length).complete c (failStatus fails) (failResult fails) := if_pos h
theorem readEnds_bad {u : State} {c : Cmd} {size : Nat} {fails : List (Nat × Nat)} {segs data : Bytes} (h : c.listOk (c.length * size) segs = false) :
    State.readEnds u c size fails (.done segs data) = u.complete c 0x0201 [] := if_neg (by simp [h])
theorem moveOut_issued {u : State} {d : Cmd} {n st : Nat} {b r segs : Bytes} (h : d.listOk n segs = true) :
    u.moveOut d n b st r (.issued segs) = u.setCmd { d with
        stage := .moving, descs := cutRuns true true false 0 (d.runs n segs), got := [(0, b)], segs := d.runs n segs
        endStatus := st, endResult := r } := if_pos h
theorem moveOut_bad {u : State} {d : Cmd} {n st : Nat} {b r segs : Bytes} (h : d.listOk n segs = false) :
    u.moveOut d n b st r (.issued segs) = u.complete d 0x0201 [] := if_neg (by simp [h])
theorem unitsOf_span {s : State} {c : Cmd} (h : c.opcode ≠ 4) : c.unitsOf s = (c.blockSpan s).2 := if_neg h
theorem startWrite_plain {s : State} {c : Cmd} (h1 : s.ioCheck c = none) (h2 : (s.chan c.ring).halted = false) (hs : c.stage = .fetched) (hb : c.budgeted = false)
    (he : s.eligible c = false) (h4 : c.opcode ≠ 4) (d : Cmd) (hd : d = { c with cls := 7 }) (x : Xfer) :
    s.startWrite c x = match s.askGeneral d 7 (c.blockSpan s).2 with
      | .refused => s.complete d 0x0102 (natLe 4 (s.energyHint 7))
      | .held => s.hold d 7 (c.blockSpan s).2
      | .granted s2 fromReserve =>
        (({ s2.setCmd { d with units := (c.blockSpan s).2, fromReserve := fromReserve, granted := s.time.uptime } with
          alloc.queue := s2.alloc.queue.filter fun q => !(q.1 == c.ring && q.2.1 == c.tag) }).moveIn { d with units := (c.blockSpan s).2, fromReserve := fromReserve, granted := s.time.uptime }
            (c.bytesOf s) x) := by
  unfold State.startWrite State.checked
  rw [h1]
  dsimp only
  rw [if_neg (by simp [h2])]
  have cl : s.classify c = (s, d) := by
    unfold State.classify
    rw [if_neg (by simp [hs]), if_neg (by simp [he]), hd]
  rw [cl, unitsOf_span h4]
  dsimp only
  have ns : s.noteShort d (c.blockSpan s).2 = s := by
    unfold State.noteShort
    rw [if_neg (by rw [hd]; simp [hb])]
  rw [ns]
  have au : s.askUnits d (c.blockSpan s).2 = s.askGeneral d 7 (c.blockSpan s).2 := by
    unfold State.askUnits
    rw [if_neg (by rw [hd]; simp [hb])]
  rw [au]
  have op : d.opcode ≠ 4 := by rw [hd]; exact h4
  have aa : ∀ (t : State), t.afterAppend d = t := fun t => if_neg op
  rw [if_neg op, aa]
  rw [hd]
  rfl
theorem range_of_check {s : State} {c : Cmd} (h : s.ioCheck c = none) (op : c.opcode = 2 ∨ c.opcode = 3) :
    c.start + c.length ≤ (s.vol c.volume).lbas := by
  unfold State.ioCheck at h
  dsimp only at h
  by_cases k : (s.vol c.volume).lbas < c.start + c.length
  · exfalso
    have k' : (c.opcode = 1 ∨ c.opcode = 2 ∨ c.opcode = 3 ∨ c.opcode = 6) ∧ (s.vol c.volume).lbas < c.start + c.length := ⟨by omega, k⟩
    simp only [k', and_self, if_true] at h
    repeat' split at h
    all_goals exact absurd h (by simp)
  · omega
theorem span_fits {s : State} {c : Cmd} (h : c.start + c.length ≤ (s.vol c.volume).lbas) :
    (c.blockSpan s).1 + (c.blockSpan s).2 ≤ (s.vol c.volume).blocks := by
  unfold Cmd.blockSpan
  unfold Vol.lbas at h
  by_cases e : (s.vol c.volume).emul = true
  · rw [if_pos e] at h ⊢
    dsimp only
    unfold ceilDiv
    omega
  · rw [if_neg e] at h ⊢
    exact h
theorem span_same {s t : State} {c d : Cmd} (hv : t.vol d.volume = s.vol c.volume) (h1 : d.start = c.start) (h2 : d.length = c.length) :
    d.blockSpan t = c.blockSpan s := by
  unfold Cmd.blockSpan
  rw [hv, h1, h2]
/-- The data of a granted write is all in staging. -/
theorem moveIn_wrote {s u : State} {c e : Cmd} (hb : e.body = c.body) (ho : e.opcode ≠ 4) (hv : u.vol c.volume = s.vol c.volume) (h : c.start + c.length ≤ (s.vol c.volume).lbas)
    (n : Nat) (segs data : Bytes) (hl : e.listOk n segs = true) :
    ∃ w, Wrote { u with str := { u.str with nextGroup := u.str.nextGroup + 1 } } c.volume (c.blockSpan s).1
      (if (s.vol c.volume).emul then 512 * (c.start % 8) else 0) (c.blockSpan s).2 data w ∧ u.moveIn e n (.done segs data) = w.complete e 0 [] := by
  have e1 : e.volume = c.volume := by unfold Cmd.volume Cmd.b; rw [hb]
  have e2 : e.start = c.start := by unfold Cmd.start Cmd.b; rw [hb]
  have e3 : e.length = c.length := by unfold Cmd.length Cmd.b; rw [hb]
  have sp : e.blockSpan u = c.blockSpan s := span_same (by rw [e1, hv]) e2 e3
  have a : u.moveIn e n (.done segs data) = u.applyWrite e data := by
    unfold State.moveIn
    dsimp only
    rw [if_pos hl]
    unfold State.applyIn
    rw [if_neg ho]
  rw [a]
  unfold State.applyWrite
  dsimp only
  rw [sp, e1, e2, hv]
  have w := applyBlocks_wrote e (if e.opcode = 3 then u.str.nextGroup else 0) (c.blockSpan s).2 { u with str.nextGroup := u.str.nextGroup + 1 }
    (c.blockSpan s).1 (if (s.vol c.volume).emul then 512 * (c.start % 8) else 0) data (by split <;> omega) (by
      rw [e1]
      exact Nat.le_trans (span_fits h) (by rw [← hv]; exact Nat.le_refl _))
  rw [e1] at w
  exact ⟨_, w, rfl⟩
theorem moveIn_issued {u : State} {e : Cmd} (ho : e.opcode ≠ 4) {n : Nat} {segs : Bytes} (hl : e.listOk n segs = true) :
    u.moveIn e n (.issued segs) = u.setCmd { e with stage := .moving, descs := cutRuns false false false 0 (e.runs n segs), segs := e.runs n segs } := by
  unfold State.moveIn
  dsimp only
  rw [if_pos hl]
  simp only [ho, decide_false, Bool.false_and]
theorem moveIn_bad {u : State} {e : Cmd} (ho : e.opcode ≠ 4) {n : Nat} {segs data : Bytes} (hl : e.listOk n segs = false) (x : Xfer) (hx : x = .done segs data ∨ x = .issued segs) :
    u.moveIn e n x = (u.giveBack e.units 0 e.fromReserve).complete e 0x0201 [] := by
  unfold State.moveIn
  rcases hx with rfl | rfl <;> dsimp only <;> rw [if_neg (by simp [hl])] <;> exact if_neg ho
theorem moveIn_faulted {u : State} {e : Cmd} (ho : e.opcode ≠ 4) {n : Nat} (off : BitVec 22) (code : BitVec 3) :
    u.moveIn e n (.faulted off code) = u.dmaFault e (descAt (cutRuns false false false 0 (e.runs n [])) off.toNat) code.toNat := by
  unfold State.moveIn
  exact if_neg ho

/-! ### Streams -/

theorem streamBad {s : State} {c : Cmd} {st : Nat} (h : s.ioCheck c = some st) (f : State → Cmd → State) (ho : c.opcode ≠ 2 ∧ c.opcode ≠ 3 ∧ c.opcode ≠ 4) :
    s.checked c f = s.complete c st [] := by
  unfold State.checked
  rw [h]
  dsimp only
  rw [if_neg (by omega)]
theorem streamGood {s : State} {c : Cmd} (h : s.ioCheck c = none) (f : State → Cmd → State) : s.checked c f = f s c := by
  unfold State.checked
  rw [h]
theorem startPin_run {s : State} {n tag form : Nat} {c : Cmd} (h : Starts s n tag 9 c) (hf : c.opflags = form) (h3 : form ≤ 2) (f : State → Cmd → State) :
    s.startPin n tag form f = ok (f s c) := by
  unfold State.startPin
  rw [h.run, hf]
  have : form = 0 ∨ form = 1 ∨ form = 2 := by omega
  rcases this with rfl | rfl | rfl <;> rfl
theorem startAppend_plain {s : State} {c : Cmd} (h1 : s.ioCheck c = none) (h2 : (s.chan c.ring).halted = false) (hs : c.stage = .fetched) (hb : c.budgeted = false)
    (he : s.eligible c = false) (h4 : c.opcode = 4) (d : Cmd) (hd : d = { c with cls := 7 }) (x : Xfer) :
    s.startWrite c x = match s.askGeneral d 7 (ceilDiv c.length 4096) with
      | .refused => (s.complete d 0x0102 (natLe 4 (s.energyHint 7))).acceptReady c.ring c.volume 32
      | .held => s.hold d 7 (ceilDiv c.length 4096)
      | .granted s2 fromReserve =>
        (({ s2.setCmd { d with units := ceilDiv c.length 4096, fromReserve := fromReserve, granted := s.time.uptime } with
          alloc.queue := s2.alloc.queue.filter fun q => !(q.1 == c.ring && q.2.1 == c.tag) }).moveIn { d with units := ceilDiv c.length 4096, fromReserve := fromReserve, granted := s.time.uptime }
            c.length x) := by
  unfold State.startWrite State.checked
  rw [h1]
  dsimp only
  rw [if_neg (by simp [h2])]
  have cl : s.classify c = (s, d) := by
    unfold State.classify
    rw [if_neg (by simp [hs]), if_neg (by simp [he]), hd]
  have un : c.unitsOf s = ceilDiv c.length 4096 := if_pos h4
  rw [cl, un]
  dsimp only
  have ns : s.noteShort d (ceilDiv c.length 4096) = s := by
    unfold State.noteShort
    rw [if_neg (by rw [hd]; simp [hb])]
  rw [ns]
  have au : s.askUnits d (ceilDiv c.length 4096) = s.askGeneral d 7 (ceilDiv c.length 4096) := by
    unfold State.askUnits
    rw [if_neg (by rw [hd]; simp [hb])]
  rw [au]
  have op : d.opcode = 4 := by rw [hd]; exact h4
  have aa : ∀ (t : State), t.afterAppend d = t.acceptReady d.ring d.volume 32 := fun t => if_pos op
  rw [if_pos op, aa]
  rw [hd]
  rfl
theorem commit_pins (s : State) (l : List Pin) : ({ s.commit with nv := { s.commit.nv with pins := l } } : State) = { s.commit with nv := { s.nv with pins := l } } := by
  rw [commit_nv]
theorem pinRecords_full {s : State} {c : Cmd} {rs : List SRec} {gap : Bool} (h : s.pinRoom c.volume = false) : s.pinRecords c rs gap = s.complete c 0x0101 [] :=
  if_pos (by simp [h])
theorem pinRecords_room {s : State} {c : Cmd} {rs : List SRec} {gap : Bool} (h : s.pinRoom c.volume = true) : s.pinRecords c rs gap =
    (({ s.commit with nv := { s.nv with pins := s.nv.pins ++
          [{ vol := c.volume, handle := s.freeHandle, first := (rs.head?.map fun r => r.seq).getD 0, count := rs.length }] } } : State).complete c 0
          (natLe 2 s.freeHandle ++ natLe 2 (b2n gap) ++ natLe 8 ((rs.head?.map fun r => r.seq).getD 0) ++ natLe 4 rs.length)) := by
  unfold State.pinRecords State.addPin
  rw [if_neg (by simp [h])]
  dsimp only
  rw [commit_pins]
  cases rs <;> rfl
theorem acceptNow_fits {u : State} {c : Cmd} {data : Bytes} {k : Nat} (h1 : (u.vol c.volume).isSealed = false)
    (h2 : u.toRelease c.volume (extent c.length) ((u.vol c.volume).space - (u.vol c.volume).used) (u.vol c.volume).recs = some k) :
    u.acceptNow c data = ((u.releaseOldest c.volume k).accept c.volume (transformed (c.b 28 1) (2 ^ c.b 29 1) (c.b 30 1) (padTo c.length data)) c.ring (c.b 28 1) c.units
      c.fromReserve 0 c.granted).complete c 0 (natLe 4 0 ++ natLe 8 (u.vol c.volume).nextSeq) := by
  unfold State.acceptNow State.acceptInto
  dsimp only
  rw [if_neg (by simp [h1]), h2]
theorem acceptNow_full {u : State} {c : Cmd} {data : Bytes} (h1 : (u.vol c.volume).isSealed = false)
    (h2 : u.toRelease c.volume (extent c.length) ((u.vol c.volume).space - (u.vol c.volume).used) (u.vol c.volume).recs = none) :
    u.acceptNow c data = (u.giveBack c.units 0 c.fromReserve).complete c 0x0101 (natLe 4 0xFFFFFFFF) := by
  unfold State.acceptNow State.acceptInto
  dsimp only
  rw [if_neg (by simp [h1]), h2]
theorem appendIn_done {u : State} {e : Cmd} (ho : e.opcode = 4) {n : Nat} {segs data : Bytes} (hl : e.listOk n segs = true) :
    u.moveIn e n (.done segs data) = u.applyAppend e data := by
  unfold State.moveIn
  dsimp only
  rw [if_pos hl]
  exact if_pos ho
theorem appendIn_issued {u : State} {e : Cmd} (ho : e.opcode = 4) {n : Nat} {segs : Bytes} (hl : e.listOk n segs = true) :
    u.moveIn e n (.issued segs) = u.setCmd { e with stage := .moving, descs := cutRuns false false (e.b 28 1 ≠ 0) 0 (e.runs n segs), segs := e.runs n segs } := by
  unfold State.moveIn
  dsimp only
  rw [if_pos hl]
  simp only [ho, decide_true, Bool.true_and]
theorem appendIn_bad {u : State} {e : Cmd} (ho : e.opcode = 4) {n : Nat} {segs data : Bytes} (hl : e.listOk n segs = false) (x : Xfer) (hx : x = .done segs data ∨ x = .issued segs) :
    u.moveIn e n x = ((u.giveBack e.units 0 e.fromReserve).complete e 0x0201 []).acceptReady e.ring e.volume 32 := by
  unfold State.moveIn
  rcases hx with rfl | rfl <;> dsimp only <;> rw [if_neg (by simp [hl])] <;> exact if_pos ho
theorem appendIn_faulted {u : State} {e : Cmd} (ho : e.opcode = 4) {n : Nat} (off : BitVec 22) (code : BitVec 3) :
    u.moveIn e n (.faulted off code) = (u.dmaFault e (descAt (cutRuns false false false 0 (e.runs n [])) off.toNat) code.toNat).acceptReady e.ring e.volume 32 := by
  unfold State.moveIn
  exact if_pos ho

/-! ### Flush trim budget -/

theorem flushGood {s : State} {c : Cmd} (h : s.ioCheck c = none) (f : State → Cmd → State) : s.checked c f = f s c := by
  unfold State.checked
  rw [h]
theorem flushBad {s : State} {c : Cmd} {st : Nat} (h : s.ioCheck c = some st) (f : State → Cmd → State) (ho : c.opcode ≠ 2 ∧ c.opcode ≠ 3 ∧ c.opcode ≠ 4) :
    s.checked c f = s.complete c st [] := by
  unfold State.checked
  rw [h]
  dsimp only
  rw [if_neg (by omega)]
theorem covers_iff (c : Cmd) (v t : Nat) : c.covers v t = true ↔ (c.opflags = 1 ∨ v = c.volume) ∧ t ≤ c.arrive := by
  unfold Cmd.covers
  simp
theorem flushed_iff (s : State) (c : Cmd) : s.flushed c = true ↔ ¬ ((∃ u, u ∈ s.str.units ∧ (c.opflags = 1 ∨ u.vol = c.volume) ∧ u.granted ≤ c.arrive) ∨
        (∃ m r x, (m, r) ∈ s.rings ∧ x ∈ r.cmds ∧ (x.stage = .moving ∨ x.stage = .running) ∧ 2 ≤ x.opcode ∧ x.opcode ≤ 4 ∧ (c.opflags = 1 ∨ x.volume = c.volume) ∧ x.granted ≤ c.arrive) ∨
        ∃ k y m, (k, y) ∈ s.fab.conns ∧ y.inMsg = some m ∧ (c.opflags = 1 ∨ m.vol = c.volume) ∧ m.granted ≤ c.arrive) := by
  have a : (s.str.units.any fun u => c.covers u.vol u.granted) = true ↔ ∃ u, u ∈ s.str.units ∧ (c.opflags = 1 ∨ u.vol = c.volume) ∧ u.granted ≤ c.arrive := by
    rw [List.any_eq_true]
    constructor
    · rintro ⟨u, h, k⟩; exact ⟨u, h, (covers_iff _ _ _).mp k⟩
    · rintro ⟨u, h, k⟩; exact ⟨u, h, (covers_iff _ _ _).mpr k⟩
  have b : (s.rings.any fun r => r.2.cmds.any fun x => (x.stage == .moving || x.stage == .running) && 2 ≤ x.opcode && x.opcode ≤ 4 && c.covers x.volume x.granted) = true ↔
      ∃ m r x, (m, r) ∈ s.rings ∧ x ∈ r.cmds ∧ (x.stage = .moving ∨ x.stage = .running) ∧ 2 ≤ x.opcode ∧ x.opcode ≤ 4 ∧ (c.opflags = 1 ∨ x.volume = c.volume) ∧ x.granted ≤ c.arrive := by
    rw [List.any_eq_true]
    constructor
    · rintro ⟨⟨m, r⟩, h, k⟩
      rw [List.any_eq_true] at k
      obtain ⟨x, hx, k⟩ := k
      simp only [Bool.and_eq_true, Bool.or_eq_true, beq_iff_eq, decide_eq_true_eq, covers_iff] at k
      exact ⟨m, r, x, h, hx, k.1.1.1, k.1.1.2, k.1.2, k.2⟩
    · rintro ⟨m, r, x, h, hx, k1, k2, k3, k4⟩
      refine ⟨(m, r), h, ?_⟩
      rw [List.any_eq_true]
      refine ⟨x, hx, ?_⟩
      simp only [Bool.and_eq_true, Bool.or_eq_true, beq_iff_eq, decide_eq_true_eq, covers_iff]
      exact ⟨⟨⟨k1, k2⟩, k3⟩, k4⟩
  have d : (s.fab.conns.any fun x => match x.2.inMsg with
      | some m => c.covers m.vol m.granted
      | none => false) = true ↔ ∃ k y m, (k, y) ∈ s.fab.conns ∧ y.inMsg = some m ∧ (c.opflags = 1 ∨ m.vol = c.volume) ∧ m.granted ≤ c.arrive := by
    rw [List.any_eq_true]
    constructor
    · rintro ⟨⟨k, y⟩, h, q⟩
      dsimp only at q
      cases hm : y.inMsg with
      | none => rw [hm] at q; exact absurd q (by simp)
      | some m => rw [hm] at q; exact ⟨k, y, m, h, hm, (covers_iff _ _ _).mp q⟩
    · rintro ⟨k, y, m, h, hm, q⟩
      refine ⟨(k, y), h, ?_⟩
      dsimp only
      rw [hm]
      exact (covers_iff _ _ _).mpr q
  rw [← a, ← b, ← d]
  unfold State.flushed
  simp only [Bool.and_eq_true, Bool.not_eq_true', Bool.eq_false_iff, ne_eq, not_or]
  constructor
  · rintro ⟨⟨h1, h2⟩, h3⟩; exact ⟨h1, h2, h3⟩
  · rintro ⟨h1, h2, h3⟩; exact ⟨⟨h1, h2⟩, h3⟩
/-- Unmapping one block. -/
theorem trimStep_facts (s : State) (v p : Nat) (t : State) (ht : t = (((s.dropStaged v p).setBlk v p none).unlose v p).journal 0) :
    t.blk v p = none ∧ (∀ q, q ≠ p → t.blk v q = s.blk v q) ∧ ({ t.vol v with map := (s.vol v).map } = s.vol v) ∧
    (∀ w, w ≠ v → t.vol w = s.vol w) ∧
    { t with str := s.str, alloc := s.alloc, led := s.led, nv := { t.nv with vols := s.nv.vols, loss := s.nv.loss } } = s := by
  obtain ⟨k, -⟩ := dropStaged_rest s v p
  generalize s.dropStaged v p = u at *
  obtain ⟨z, hz⟩ : ∃ z, t = { (u.setBlk v p none).unlose v p with str := z } := by
    rw [ht]; exact commit_shape _
  have uv : u.nv = s.nv := by rw [← k]
  have vol : ∀ w, u.vol w = s.vol w := fun w => by unfold State.vol; rw [uv]
  have tv : t.vol v = { s.vol v with map := (s.vol v).map.erase p } := by
    rw [hz, ← vol v]
    exact State.vol_setVol _ _ _
  refine ⟨?_, fun q hq => ?_, by rw [tv], fun w hw => ?_, ?_⟩
  · unfold State.blk; rw [tv]; exact Map.get?_erase _ _
  · unfold State.blk; rw [tv]; exact Map.get?_erase_ne _ hq
  · rw [← vol w, hz]
    exact State.vol_setVol_ne _ _ hw
  · rw [hz]
    have e := congrArg (fun x : State => { x with nv := { u.nv with vols := s.nv.vols, loss := s.nv.loss } }) k
    refine Eq.trans ?_ (e.trans ?_)
    · rfl
    · show ({ s with nv := { u.nv with vols := s.nv.vols, loss := s.nv.loss } } : State) = s
      rw [uv]
theorem trims_facts (v : Nat) (l : List Nat) : ∀ (s t : State), t = l.foldl (fun t p => (((t.dropStaged v p).setBlk v p none).unlose v p).journal 0) s →
    (∀ q, t.blk v q = if q ∈ l then none else s.blk v q) ∧ ({ t.vol v with map := (s.vol v).map } = s.vol v) ∧
    (∀ w, w ≠ v → t.vol w = s.vol w) ∧
    { t with str := s.str, alloc := s.alloc, led := s.led, nv := { t.nv with vols := s.nv.vols, loss := s.nv.loss } } = s := by
  induction l with
  | nil =>
    intro s t ht
    rw [ht]
    exact ⟨fun q => by simp, rfl, fun _ _ => rfl, rfl⟩
  | cons p l ih =>
    intro s t ht
    simp only [List.foldl] at ht
    obtain ⟨a1, a2, a3, a4, a5⟩ := trimStep_facts s v p _ rfl
    generalize (((s.dropStaged v p).setBlk v p none).unlose v p).journal 0 = u at *
    obtain ⟨b1, b2, b3, b4⟩ := ih u t ht
    refine ⟨fun q => ?_, ?_, fun w hw => by rw [b3 w hw, a4 w hw], ?_⟩
    · rw [b1]
      by_cases h : q = p
      · subst h; simp [a1]
      · simp [h, a2 q h]
    · have e := congrArg (fun x : Vol => { x with map := (s.vol v).map }) b2
      exact e.trans a3
    · have e := congrArg (fun x : State => { x with str := s.str, alloc := s.alloc, led := s.led, nv := { x.nv with vols := s.nv.vols, loss := s.nv.loss } }) b4
      exact e.trans a5
theorem place_place {s : State} {v p : Nat} (h : p < (s.vol v).blocks) :
    (if (s.vol v).kind = 2 ∧ s.nv.boot.bootSlot = 1 then (if s.place v p < (s.vol v).cap then s.place v p + (s.vol v).cap else s.place v p - (s.vol v).cap) else s.place v p) = p := by
  unfold State.place
  unfold Vol.blocks at h
  dsimp only
  by_cases k : (s.vol v).kind = 2 ∧ s.nv.boot.bootSlot = 1
  · simp only [k, and_self, if_true] at h ⊢
    by_cases c : p < (s.vol v).cap
    · rw [if_pos c, if_neg (by omega)]; omega
    · rw [if_neg c, if_pos (by omega)]; omega
  · rw [if_neg k, if_neg k]
theorem mem_mappedIn {s : State} {v first n b : Nat} (h : b < (s.vol v).blocks) (hm : s.blk v (s.place v b) ≠ none) :
    s.place v b ∈ s.mappedIn v first n ↔ first ≤ b ∧ b < first + n := by
  unfold State.mappedIn
  rw [List.mem_filter]
  dsimp only
  rw [place_place h]
  constructor
  · rintro ⟨-, k⟩; simpa using k
  · intro k
    refine ⟨?_, by simpa using k⟩
    cases e : s.blk v (s.place v b) with
    | none => exact absurd e hm
    | some x => exact Map.mem_of_get? _ _ x e
theorem trimRange {s : State} {c : Cmd} (h : s.ioCheck c = none) (op : c.opcode = 6) : c.start + c.length ≤ (s.vol c.volume).lbas := by
  unfold State.ioCheck at h
  dsimp only at h
  by_cases k : (s.vol c.volume).lbas < c.start + c.length
  · exfalso
    have k' : (c.opcode = 1 ∨ c.opcode = 2 ∨ c.opcode = 3 ∨ c.opcode = 6) ∧ (s.vol c.volume).lbas < c.start + c.length := ⟨by omega, k⟩
    simp only [k', and_self, if_true] at h
    repeat' split at h
    all_goals exact absurd h (by simp)
  · omega
def takeStaged (t : State) (f : Field) : State :=
  match t.staged.get? f.key with
  | some v => ({ t with staged := t.staged.erase f.key }).setF f v
  | none => t
theorem takeStaged_facts (s t : State) (f : Field) (ht : t = takeStaged s f) :
    t.f f = (match s.staged.get? f.key with
      | some x => x % 2 ^ f.width
      | none => s.f f) ∧ (∀ g : Field, g.key ≠ f.key → t.f g = s.f g) ∧ t.staged.get? f.key = none ∧ (∀ k, k ≠ f.key → t.staged.get? k = s.staged.get? k) ∧
    { t with csr := s.csr, staged := s.staged } = s := by
  unfold takeStaged at ht
  cases h : s.staged.get? f.key with
  | some v =>
    rw [h] at ht
    subst ht
    refine ⟨State.f_setF_self _ _ _, fun g hg => ?_, Map.get?_erase _ _, fun k hk => Map.get?_erase_ne _ hk, rfl⟩
    rw [State.f_setF_ne _ _ hg]; rfl
  | none =>
    rw [h] at ht
    subst ht
    exact ⟨rfl, fun _ _ => rfl, h, fun _ _ => rfl, rfl⟩

/-! ### Queries -/

theorem sends_of {s : State} {c : Cmd} {segs data : Bytes} {off : BitVec 22} {code : BitVec 3} {i : AdmXfer → Instr} {f : State → State × Bytes × Bytes} {b r : Bytes}
    (run : ∀ x, exec (i x) s = ok (s.admOut c x f)) (hf : f s = (s, b, r)) :
    (c.listOk c.length segs = true → exec (i (.done segs data)) s = .next (s.deliver c segs b r)) ∧
    (c.listOk c.length segs = false → exec (i (.done segs data)) s = .next (s.complete c 0x0201 [])) ∧
    exec (i (.faulted off code)) s = .next (s.dmaFault c (descAt (cutRuns true false false 0 (c.runs c.length [])) off.toNat) code.toNat) := by
  refine ⟨fun h => ?_, fun h => ?_, ?_⟩
  · rw [run, admOut_done h, hf]; rfl
  · rw [run]; exact congrArg ok (if_neg (by simp [h]))
  · rw [run]
    unfold State.admOut
    dsimp only
    rw [hf]; rfl
theorem bumps_steady (l : List Nat) (i : Nat) (s : State) : Steady s (l.foldl (fun t _ => t.bump i) s) :=
  Steady.foldl _ (fun t _ => State.bump_steady t i) l s

end Sys2Proof.Machine
end

