-- ==== Sys2Proof/Laws/Words.lean ====
section
/-! SUPPORT. Belion words: the fields of each format, and what the reader and the writer of words give for them (R144). -/

namespace Sys2Proof.Machine

/-! ### Belion words read back -/

section
variable {m g s : Nat} {kd ka kb : BitVec 4} {f : Bool} {imm : BitVec 16} {op : BitVec 12} {off : BitVec 22} {w : Word}
theorem b2n_lt (f : Bool) : b2n f < 2 := by cases f <;> decide
theorem b2n_eq (f : Bool) : (b2n f == 1) = f := by cases f <;> rfl
theorem fmtA_nat (hm : m < 64) (hg : g < 2048) : (fmtA m g kd ka kb f).toNat = m * 2 ^ 26 + kd.toNat * 2 ^ 22 + ka.toNat * 2 ^ 18 + kb.toNat * 2 ^ 14 + b2n f * 2 ^ 13 + g := by
  have := b2n_lt f; have := kd.isLt; have := ka.isLt; have := kb.isLt
  simp only [fmtA, BitVec.toNat_ofNat]; omega
theorem fmtB_nat (hm : m < 64) : (fmtB m kd ka f imm).toNat = m * 2 ^ 26 + kd.toNat * 2 ^ 22 + ka.toNat * 2 ^ 18 + b2n f * 2 ^ 16 + imm.toNat := by
  have := b2n_lt f; have := kd.isLt; have := ka.isLt; have := imm.isLt
  simp only [fmtB, BitVec.toNat_ofNat]; omega
theorem fmtC_nat (hm : m < 64) : (fmtC m kd off).toNat = m * 2 ^ 26 + kd.toNat * 2 ^ 22 + off.toNat := by
  have := kd.isLt; have := off.isLt
  simp only [fmtC, BitVec.toNat_ofNat]; omega
theorem fmtD_nat (hm : m < 64) (hs : s < 64) : (fmtD m s kd ka op).toNat = m * 2 ^ 26 + kd.toNat * 2 ^ 22 + ka.toNat * 2 ^ 18 + s * 2 ^ 12 + op.toNat := by
  have := kd.isLt; have := ka.isLt; have := op.isLt
  simp only [fmtD, BitVec.toNat_ofNat]; omega
theorem field_eq {n lo : Nat} (w : Word) (x : BitVec n) (h : w.toNat / 2 ^ lo % 2 ^ n = x.toNat) : w.extractLsb' lo n = x :=
  BitVec.eq_of_toNat_eq (by rw [BitVec.extractLsb'_toNat, Nat.shiftRight_eq_div_pow, h])
theorem bit_eq (w : Word) (i : Nat) (f : Bool) (h : w.toNat / 2 ^ i % 2 = b2n f) : w.getLsbD i = f := by
  rw [BitVec.getLsbD, Nat.testBit_eq_decide_div_mod_eq, h]; cases f <;> rfl
theorem readA_fmtA (hm : m < 64) (hg : g < 2048) (k) : readA (fmtA m g kd ka kb f) k = k kd ka kb f g := by
  have := b2n_lt f; have := kd.isLt; have := ka.isLt; have := kb.isLt
  have e := fmtA_nat (kd := kd) (ka := ka) (kb := kb) (f := f) hm hg
  have h0 : gapA (fmtA m g kd ka kb f) = true := by simp only [gapA, e, beq_iff_eq]; omega
  rw [readA, if_pos h0, show kdOf (fmtA m g kd ka kb f) = kd from field_eq _ _ (by rw [e]; omega),
    show kaOf (fmtA m g kd ka kb f) = ka from field_eq _ _ (by rw [e]; omega),
    show kbOf (fmtA m g kd ka kb f) = kb from field_eq _ _ (by rw [e]; omega),
    bit_eq _ _ f (by rw [e]; omega), show funcOf (fmtA m g kd ka kb f) = g by simp only [funcOf, e]; omega]
theorem major_fmtA (hm : m < 64) (hg : g < 2048) : majorOf (fmtA m g kd ka kb f) = m := by
  have := b2n_lt f; have := kd.isLt; have := ka.isLt; have := kb.isLt
  simp only [majorOf, fmtA_nat hm hg]; omega
theorem major_fmtB (hm : m < 64) : majorOf (fmtB m kd ka f imm) = m := by
  have := b2n_lt f; have := kd.isLt; have := ka.isLt; have := imm.isLt
  simp only [majorOf, fmtB_nat hm]; omega
theorem major_fmtC (hm : m < 64) : majorOf (fmtC m kd off) = m := by
  have := kd.isLt; have := off.isLt
  simp only [majorOf, fmtC_nat hm]; omega
theorem major_fmtD (hm : m < 64) (hs : s < 64) : majorOf (fmtD m s kd ka op) = m := by
  have := kd.isLt; have := ka.isLt; have := op.isLt
  simp only [majorOf, fmtD_nat hm hs]; omega
theorem readB_fmtB (hm : m < 64) (e : Fin 10) (chk : MemCheck) (n : Nat) :
    (if gapB (fmtB m kd ka f imm) then decB e chk n (kdOf (fmtB m kd ka f imm)) (kaOf (fmtB m kd ka f imm)) ((fmtB m kd ka f imm).getLsbD 16) (immOf (fmtB m kd ka f imm)) else none)
      = decB e chk n kd ka f imm := by
  have := b2n_lt f; have := kd.isLt; have := ka.isLt; have := imm.isLt
  have e' := fmtB_nat (kd := kd) (ka := ka) (f := f) (imm := imm) hm
  have h0 : gapB (fmtB m kd ka f imm) = true := by
    rw [gapB, bit_eq _ _ false (by rw [e']; show _ = 0; omega)]; rfl
  rw [if_pos h0, show kdOf (fmtB m kd ka f imm) = kd from field_eq _ _ (by rw [e']; omega),
    show kaOf (fmtB m kd ka f imm) = ka from field_eq _ _ (by rw [e']; omega),
    bit_eq _ _ f (by rw [e']; omega), show immOf (fmtB m kd ka f imm) = imm from field_eq _ _ (by rw [e']; omega)]
theorem cond_fmtC (hm : m < 64) : kdOf (fmtC m kd off) = kd := by
  have := kd.isLt; have := off.isLt
  exact field_eq _ _ (by rw [fmtC_nat hm]; omega)
theorem off_fmtC (hm : m < 64) : offOf (fmtC m kd off) = off := by
  have := kd.isLt; have := off.isLt
  exact field_eq _ _ (by rw [fmtC_nat hm]; omega)
theorem readD_fmtD (hm : m < 64) (hs : s < 64) (k) : readD (fmtD m s kd ka op) k = k kd ka op s := by
  have := kd.isLt; have := ka.isLt; have := op.isLt
  have e := fmtD_nat (kd := kd) (ka := ka) (op := op) hm hs
  rw [readD, show kdOf (fmtD m s kd ka op) = kd from field_eq _ _ (by rw [e]; omega),
    show kaOf (fmtD m s kd ka op) = ka from field_eq _ _ (by rw [e]; omega),
    show operandOf (fmtD m s kd ka op) = op from field_eq _ _ (by rw [e]; omega),
    show subOf (fmtD m s kd ka op) = s by simp only [subOf, e]; omega]
end
theorem dec_decAlu {g : Nat} (hg : g < 2048) (e : Fin 10) (chk : MemCheck) (bus : Bytes) (kd ka kb : BitVec 4) (f : Bool) :
    belDecode e chk bus (fmtA 0x01 g kd ka kb f) = decAlu e kd ka kb f g := by
  simp only [belDecode, major_fmtA (show (0x01 : Nat) < 64 by decide) hg, readA_fmtA (show (0x01 : Nat) < 64 by decide) hg]
theorem dec_decMbx {g : Nat} (hg : g < 2048) (e : Fin 10) (chk : MemCheck) (bus : Bytes) (kd ka kb : BitVec 4) (f : Bool) :
    belDecode e chk bus (fmtA 0x28 g kd ka kb f) = decMbx e kd ka kb f g := by
  simp only [belDecode, major_fmtA (show (0x28 : Nat) < 64 by decide) hg, readA_fmtA (show (0x28 : Nat) < 64 by decide) hg]
theorem dec_decTab {g : Nat} (hg : g < 2048) (e : Fin 10) (chk : MemCheck) (bus : Bytes) (kd ka kb : BitVec 4) (f : Bool) :
    belDecode e chk bus (fmtA 0x2C g kd ka kb f) = decTab e kd ka kb f g := by
  simp only [belDecode, major_fmtA (show (0x2C : Nat) < 64 by decide) hg, readA_fmtA (show (0x2C : Nat) < 64 by decide) hg]
theorem dec_decTime {g : Nat} (hg : g < 2048) (e : Fin 10) (chk : MemCheck) (bus : Bytes) (kd ka kb : BitVec 4) (f : Bool) :
    belDecode e chk bus (fmtA 0x2D g kd ka kb f) = decTime e kd ka kb f g := by
  simp only [belDecode, major_fmtA (show (0x2D : Nat) < 64 by decide) hg, readA_fmtA (show (0x2D : Nat) < 64 by decide) hg]
theorem dec_decMisc {g : Nat} (hg : g < 2048) (e : Fin 10) (chk : MemCheck) (bus : Bytes) (kd ka kb : BitVec 4) (f : Bool) :
    belDecode e chk bus (fmtA 0x2E g kd ka kb f) = decMisc e kd ka kb f g := by
  simp only [belDecode, major_fmtA (show (0x2E : Nat) < 64 by decide) hg, readA_fmtA (show (0x2E : Nat) < 64 by decide) hg]
theorem dec_decBus {s : Nat} (hs : s < 64) (e : Fin 10) (chk : MemCheck) (bus : Bytes) (kd ka : BitVec 4) (op : BitVec 12) :
    belDecode e chk bus (fmtD 0x30 s kd ka op) = decBus e bus kd ka op s := by
  simp only [belDecode, major_fmtD (show (0x30 : Nat) < 64 by decide) hs, readD_fmtD (show (0x30 : Nat) < 64 by decide) hs]
theorem dec_decQueue {s : Nat} (hs : s < 64) (e : Fin 10) (chk : MemCheck) (bus : Bytes) (kd ka : BitVec 4) (op : BitVec 12) :
    belDecode e chk bus (fmtD 0x31 s kd ka op) = decQueue e kd ka op s := by
  simp only [belDecode, major_fmtD (show (0x31 : Nat) < 64 by decide) hs, readD_fmtD (show (0x31 : Nat) < 64 by decide) hs]
theorem dec_decKey {s : Nat} (hs : s < 64) (e : Fin 10) (chk : MemCheck) (bus : Bytes) (kd ka : BitVec 4) (op : BitVec 12) :
    belDecode e chk bus (fmtD 0x38 s kd ka op) = decKey e kd ka op s := by
  simp only [belDecode, major_fmtD (show (0x38 : Nat) < 64 by decide) hs, readD_fmtD (show (0x38 : Nat) < 64 by decide) hs]
theorem dec_decShared {s : Nat} (hs : s < 64) (e : Fin 10) (chk : MemCheck) (bus : Bytes) (kd ka : BitVec 4) (op : BitVec 12) :
    belDecode e chk bus (fmtD 0x3A s kd ka op) = decShared e kd ka op s := by
  simp only [belDecode, major_fmtD (show (0x3A : Nat) < 64 by decide) hs, readD_fmtD (show (0x3A : Nat) < 64 by decide) hs]
theorem dec_B {m : Nat} (hm : m < 64) (hn : m ∉ [0x01, 0x20, 0x21, 0x28, 0x2C, 0x2D, 0x2E, 0x30, 0x31, 0x38, 0x3A]) (e : Fin 10) (chk : MemCheck)
    (bus : Bytes) (kd ka : BitVec 4) (f : Bool) (imm : BitVec 16) : belDecode e chk bus (fmtB m kd ka f imm) = decB e chk m kd ka f imm := by
  simp only [List.mem_cons, not_or] at hn
  unfold belDecode
  rw [major_fmtB hm]
  split <;> first | omega | skip
  exact readB_fmtB hm e chk m
theorem dec_C {m : Nat} (e : Fin 10) (chk : MemCheck) (bus : Bytes) (c : BitVec 4) (off : BitVec 22) (hc : c ≠ 15) :
    belDecode e chk bus (fmtC 0x20 c off) = some (.bCond e c off) ∧ belDecode e chk bus (fmtC 0x21 c off) = some (.callCond e c off) := by
  simp only [belDecode, major_fmtC (show (0x20 : Nat) < 64 by decide), major_fmtC (show (0x21 : Nat) < 64 by decide), cond_fmtC (show (0x20 : Nat) < 64 by decide),
    cond_fmtC (show (0x21 : Nat) < 64 by decide), off_fmtC (show (0x20 : Nat) < 64 by decide), off_fmtC (show (0x21 : Nat) < 64 by decide), hc, if_false, and_self]
theorem sev_hi (x : BitVec 8) : (x ++ 0#8).toNat % 256 = 0 ∧ BitVec.extractLsb' 8 8 (x ++ 0#8) = x := by
  have e : (x ++ 0#8).toNat = x.toNat * 256 := by rw [BitVec.toNat_append, BitVec.toNat_ofNat, Nat.zero_mod, Nat.or_zero, Nat.shiftLeft_eq]
  refine ⟨by rw [e]; omega, BitVec.eq_of_toNat_eq ?_⟩
  have := x.isLt
  rw [BitVec.extractLsb'_toNat, Nat.shiftRight_eq_div_pow, e]; omega
/-! the other way -/
theorem keep_some {p : Prop} [Decidable p] {i j : Instr} (h : keep p i = some j) : p ∧ i = j := by
  unfold keep at h; split at h
  next k => exact ⟨k, Option.some.inj h⟩
  next => cases h
theorem enc_decAlu {e : Fin 10} {kd ka kb : BitVec 4} {f : Bool} {g : Nat} {i : Instr} (h : decAlu e kd ka kb f g = some i) :
    belEncode i = some (fmtA 0x01 g kd ka kb f) := by
  unfold decAlu at h
  split at h <;> first | (obtain rfl := Option.some.inj h; rfl) | cases h | (obtain ⟨k, rfl⟩ := keep_some h; simp only [belEncode, k]; done) | (obtain ⟨k, rfl⟩ := keep_some h; simp only [belEncode, k, narrow _ (m := 3) k.2]) | (obtain ⟨k, rfl⟩ := keep_some h; simp only [belEncode, narrow _ (m := 5) k]) | (obtain ⟨k, rfl⟩ := keep_some h; simp only [belEncode, k, hi_sev _ k.2.2.2])
theorem enc_decMbx {e : Fin 10} {kd ka kb : BitVec 4} {f : Bool} {g : Nat} {i : Instr} (h : decMbx e kd ka kb f g = some i) :
    belEncode i = some (fmtA 0x28 g kd ka kb f) := by
  unfold decMbx at h
  split at h <;> first | (obtain rfl := Option.some.inj h; rfl) | cases h | (obtain ⟨k, rfl⟩ := keep_some h; simp only [belEncode, k]; done) | (obtain ⟨k, rfl⟩ := keep_some h; simp only [belEncode, k, narrow _ (m := 3) k.2]) | (obtain ⟨k, rfl⟩ := keep_some h; simp only [belEncode, narrow _ (m := 5) k]) | (obtain ⟨k, rfl⟩ := keep_some h; simp only [belEncode, k, hi_sev _ k.2.2.2])
theorem enc_decTab {e : Fin 10} {kd ka kb : BitVec 4} {f : Bool} {g : Nat} {i : Instr} (h : decTab e kd ka kb f g = some i) :
    belEncode i = some (fmtA 0x2C g kd ka kb f) := by
  unfold decTab at h
  split at h <;> first | (obtain rfl := Option.some.inj h; rfl) | cases h | (obtain ⟨k, rfl⟩ := keep_some h; simp only [belEncode, k]; done) | (obtain ⟨k, rfl⟩ := keep_some h; simp only [belEncode, k, narrow _ (m := 3) k.2]) | (obtain ⟨k, rfl⟩ := keep_some h; simp only [belEncode, narrow _ (m := 5) k]) | (obtain ⟨k, rfl⟩ := keep_some h; simp only [belEncode, k, hi_sev _ k.2.2.2])
theorem enc_decTime {e : Fin 10} {kd ka kb : BitVec 4} {f : Bool} {g : Nat} {i : Instr} (h : decTime e kd ka kb f g = some i) :
    belEncode i = some (fmtA 0x2D g kd ka kb f) := by
  unfold decTime at h
  split at h <;> first | (obtain rfl := Option.some.inj h; rfl) | cases h | (obtain ⟨k, rfl⟩ := keep_some h; simp only [belEncode, k]; done) | (obtain ⟨k, rfl⟩ := keep_some h; simp only [belEncode, k, narrow _ (m := 3) k.2]) | (obtain ⟨k, rfl⟩ := keep_some h; simp only [belEncode, narrow _ (m := 5) k]) | (obtain ⟨k, rfl⟩ := keep_some h; simp only [belEncode, k, hi_sev _ k.2.2.2])
theorem enc_decMisc {e : Fin 10} {kd ka kb : BitVec 4} {f : Bool} {g : Nat} {i : Instr} (h : decMisc e kd ka kb f g = some i) :
    belEncode i = some (fmtA 0x2E g kd ka kb f) := by
  unfold decMisc at h
  split at h <;> first | (obtain rfl := Option.some.inj h; rfl) | cases h | (obtain ⟨k, rfl⟩ := keep_some h; simp only [belEncode, k]; done) | (obtain ⟨k, rfl⟩ := keep_some h; simp only [belEncode, k, narrow _ (m := 3) k.2]) | (obtain ⟨k, rfl⟩ := keep_some h; simp only [belEncode, narrow _ (m := 5) k]) | (obtain ⟨k, rfl⟩ := keep_some h; simp only [belEncode, k, hi_sev _ k.2.2.2])
theorem narrow {n m : Nat} (x : BitVec n) (h : x.toNat < 2 ^ m) : (x.setWidth m).setWidth n = x :=
  BitVec.eq_of_toNat_eq (by simp only [BitVec.toNat_setWidth]; rw [Nat.mod_eq_of_lt h, Nat.mod_eq_of_lt x.isLt])
theorem hi_sev (x : BitVec 16) (h : x.toNat % 256 = 0) : x.extractLsb' 8 8 ++ 0#8 = x := by
  refine BitVec.eq_of_toNat_eq ?_
  have := x.isLt
  rw [BitVec.toNat_append, BitVec.toNat_ofNat, Nat.zero_mod, Nat.or_zero, Nat.shiftLeft_eq, BitVec.extractLsb'_toNat, Nat.shiftRight_eq_div_pow]; omega
theorem enc_decBus {e : Fin 10} {bus : Bytes} {kd ka : BitVec 4} {op : BitVec 12} {g : Nat} {i : Instr} (h : decBus e bus kd ka op g = some i) :
    belEncode i = some (fmtD 0x30 g kd ka op) := by
  unfold decBus at h
  split at h <;> first | (obtain rfl := Option.some.inj h; rfl) | cases h | (obtain ⟨k, rfl⟩ := keep_some h; simp only [belEncode, k]; done) | (obtain ⟨k, rfl⟩ := keep_some h; simp only [belEncode, k, narrow _ (m := 3) k.2]) | (obtain ⟨k, rfl⟩ := keep_some h; simp only [belEncode, narrow _ (m := 5) k]) | (obtain ⟨k, rfl⟩ := keep_some h; simp only [belEncode, k, hi_sev _ k.2.2.2])
theorem enc_decQueue {e : Fin 10} {kd ka : BitVec 4} {op : BitVec 12} {g : Nat} {i : Instr} (h : decQueue e kd ka op g = some i) :
    belEncode i = some (fmtD 0x31 g kd ka op) := by
  unfold decQueue at h
  split at h <;> first | (obtain rfl := Option.some.inj h; rfl) | cases h | (obtain ⟨k, rfl⟩ := keep_some h; simp only [belEncode, k]; done) | (obtain ⟨k, rfl⟩ := keep_some h; simp only [belEncode, k, narrow _ (m := 3) k.2]) | (obtain ⟨k, rfl⟩ := keep_some h; simp only [belEncode, narrow _ (m := 5) k]) | (obtain ⟨k, rfl⟩ := keep_some h; simp only [belEncode, k, hi_sev _ k.2.2.2])
theorem enc_decKey {e : Fin 10} {kd ka : BitVec 4} {op : BitVec 12} {g : Nat} {i : Instr} (h : decKey e kd ka op g = some i) :
    belEncode i = some (fmtD 0x38 g kd ka op) := by
  unfold decKey at h
  split at h <;> first | (obtain rfl := Option.some.inj h; rfl) | cases h | (obtain ⟨k, rfl⟩ := keep_some h; simp only [belEncode, k]; done) | (obtain ⟨k, rfl⟩ := keep_some h; simp only [belEncode, k, narrow _ (m := 3) k.2]) | (obtain ⟨k, rfl⟩ := keep_some h; simp only [belEncode, narrow _ (m := 5) k]) | (obtain ⟨k, rfl⟩ := keep_some h; simp only [belEncode, k, hi_sev _ k.2.2.2])
theorem enc_decShared {e : Fin 10} {kd ka : BitVec 4} {op : BitVec 12} {g : Nat} {i : Instr} (h : decShared e kd ka op g = some i) :
    belEncode i = some (fmtD 0x3A g kd ka op) := by
  unfold decShared at h
  split at h <;> first | (obtain rfl := Option.some.inj h; rfl) | cases h | (obtain ⟨k, rfl⟩ := keep_some h; simp only [belEncode, k]; done) | (obtain ⟨k, rfl⟩ := keep_some h; simp only [belEncode, k, narrow _ (m := 3) k.2]) | (obtain ⟨k, rfl⟩ := keep_some h; simp only [belEncode, narrow _ (m := 5) k]) | (obtain ⟨k, rfl⟩ := keep_some h; simp only [belEncode, k, hi_sev _ k.2.2.2])
theorem enc_decB {e : Fin 10} {chk : MemCheck} {kd ka : BitVec 4} {f : Bool} {imm : BitVec 16} {m : Nat} {i : Instr} (h : decB e chk m kd ka f imm = some i) :
    belEncode i = some (fmtB m kd ka f imm) := by
  unfold decB at h
  split at h <;> first | (obtain rfl := Option.some.inj h; rfl) | cases h | (obtain ⟨k, rfl⟩ := keep_some h; simp only [belEncode, k]; done) | (obtain ⟨k, rfl⟩ := keep_some h; simp only [belEncode, k, narrow _ (m := 3) k.2]) | (obtain ⟨k, rfl⟩ := keep_some h; simp only [belEncode, narrow _ (m := 5) k]) | (obtain ⟨k, rfl⟩ := keep_some h; simp only [belEncode, k, hi_sev _ k.2.2.2])
theorem nat_of (w : Word) (lo n : Nat) : (w.extractLsb' lo n).toNat = w.toNat / 2 ^ lo % 2 ^ n := by rw [BitVec.extractLsb'_toNat, Nat.shiftRight_eq_div_pow]
theorem nat_bit (w : Word) (i : Nat) : b2n (w.getLsbD i) = w.toNat / 2 ^ i % 2 := by
  rw [BitVec.getLsbD, Nat.testBit_eq_decide_div_mod_eq]
  have := Nat.mod_two_eq_zero_or_one (w.toNat / 2 ^ i)
  rcases this with h | h <;> rw [h] <;> rfl
theorem wordA (w : Word) (h : gapA w = true) : fmtA (majorOf w) (funcOf w) (kdOf w) (kaOf w) (kbOf w) (w.getLsbD 13) = w := by
  have hw := w.isLt
  simp only [gapA, beq_iff_eq] at h
  refine BitVec.eq_of_toNat_eq ?_
  rw [fmtA_nat (by simp only [majorOf]; omega) (by simp only [funcOf]; omega)]
  simp only [majorOf, funcOf, kdOf, kaOf, kbOf, nat_of, nat_bit]; omega
theorem wordB (w : Word) (h : gapB w = true) : fmtB (majorOf w) (kdOf w) (kaOf w) (w.getLsbD 16) (immOf w) = w := by
  have hw := w.isLt
  have h' : w.toNat / 2 ^ 17 % 2 = 0 := by
    rw [← nat_bit]; simp only [gapB, Bool.not_eq_true'] at h; rw [h]; rfl
  refine BitVec.eq_of_toNat_eq ?_
  rw [fmtB_nat (by simp only [majorOf]; omega)]
  simp only [majorOf, kdOf, kaOf, immOf, nat_of, nat_bit]; omega
theorem wordC (w : Word) : fmtC (majorOf w) (kdOf w) (offOf w) = w := by
  have hw := w.isLt
  refine BitVec.eq_of_toNat_eq ?_
  rw [fmtC_nat (by simp only [majorOf]; omega)]
  simp only [majorOf, kdOf, offOf, nat_of]; omega
theorem wordD (w : Word) : fmtD (majorOf w) (subOf w) (kdOf w) (kaOf w) (operandOf w) = w := by
  have hw := w.isLt
  refine BitVec.eq_of_toNat_eq ?_
  rw [fmtD_nat (by simp only [majorOf]; omega) (by simp only [subOf]; omega)]
  simp only [majorOf, subOf, kdOf, kaOf, operandOf, nat_of]; omega
theorem readA_some {w : Word} {k i} (h : readA w k = some i) : gapA w = true ∧ k (kdOf w) (kaOf w) (kbOf w) (w.getLsbD 13) (funcOf w) = some i := by
  unfold readA at h; split at h
  next g => exact ⟨g, h⟩
  next => cases h

end Sys2Proof.Machine
end

