-- ==== Sys2Proof/Tests/Slice0.lean ====
section
/-! SUPPORT. Small tests. The ill-formed commands that the check refuses; the Belion words that the spec writes out; and for every statement
of Certificates/Slice0/Obligations.lean a state and operands that meet its hypotheses, at the ends of their ranges where the clauses have
ranges. -/

namespace Sys2Proof.Tests

open Sys2Proof.Machine

/-! ### Well-formedness -/

theorem test_misaligned_write : (Instr.registerWrite .pcie 0x1002 1 .b4).wellFormed = false := by decide
theorem test_wide_write : (Instr.registerWrite .pcie 0x1000 0x100 .b1).wellFormed = false := by decide
theorem test_misaligned_read : (Instr.readClear .pcie 0x0409 .b2).wellFormed = false := by decide
theorem test_branch_condition : (Instr.bCond 0 15 0).wellFormed = false := by decide
theorem test_call_condition : (Instr.callCond 0 15 0).wellFormed = false := by decide
theorem test_no_address_cycle : (Instr.addr 2 1 0).wellFormed = false := by decide
theorem test_five_address_cycles : (Instr.addr 2 1 5).wellFormed = false := by decide
theorem test_raw_length : (Instr.dinm 2 1 2 [0]).wellFormed = false := by decide
theorem test_well_formed : (Instr.registerWrite .pcie 0x1002 0xFFFF .b2).wellFormed = true ∧ (Instr.bCond 0 14 0).wellFormed = true ∧
    (Instr.addr 2 1 4).wellFormed = true ∧ (Instr.dinm 2 1 2 [0, 1]).wellFormed = true := by decide

/-! ### Belion words: the walk-through of 07_belion_model_and_encoding.md and the examples of 08_belion_engines_and_flash_bus.md -/

theorem test_walk_through_reads :
    [0x28400001#32, 0x1044E848#32, 0x90840006#32, 0x80400004#32, 0x09000008#32, 0xA0D00001#32, 0x803FFFFA#32, 0x41400040#32, 0x09540001#32,
      0x4D400040#32, 0x803FFFF6#32].map (belDecode 0 .clean []) =
    [some (.lui 0 1 1), some (.ori 0 1 1 false 0xE848), some (.wait 0 2 1 false 6), some (.bCond 0 1 4), some (.addi 0 4 0 false 8),
      some (.mback 0 3 4 false), some (.bCond 0 0 (-6)), some (.ldw 0 5 0 0x40 .clean), some (.addi 0 5 5 false 1),
      some (.stw 0 5 0 0x40 .clean), some (.bCond 0 0 (-10))] := by decide
theorem test_bus_words : [0xC0001080#32, 0xC4081004#32, 0xE9141000#32].map (belDecode 2 .clean []) =
    [some (.cmd 2 0 0x80), some (.opdone 2 2 4), some (.cfire 2 4 5 0)] := by decide
theorem test_words_written : [belEncode (.lui 0 1 1), belEncode (.mback 0 3 4 false), belEncode (.opdone 2 2 4), belEncode (.cfire 0 4 5 0)] =
    [some 0x28400001#32, some 0xA0D00001#32, some 0xC4081004#32, some 0xE9141000#32] := by decide
theorem test_no_words : (belDecode 0 .clean [] 0, belDecode 0 .clean [] 0xFFFFFFFF) = (none, none) := by decide

/-! ### States for the hypotheses -/

/-- The state after reset with engine `e` as `x`. -/
def withEngine (e : Nat) (x : Engine) : State := State.reset.setEngine e x
/-- A Vein engine that runs. -/
def vein : State := withEngine 2 { run := true, k := [(1, 0x140), (2, 0x20)] }
/-- The device in service. -/
def svc : State := { State.reset with dev := .ready }
/-- The same with the installer on the PCIe path, or the maker. -/
def inst : State := { svc with roles := { pcie := 1 } }
def maker : State := { svc with roles := { pcie := 2 } }
/-- A hook entry with every grant. -/
def granted : State := { (svc.setEngine 1 { run := true }) with hooks := { table := [List.replicate 24 0xFF ++ natLe 2 0 ++ natLe 2 512], busy := true } }

theorem runs_reset : Runs State.reset 0 := ⟨by decide, by decide⟩
theorem runs_vein : Runs vein 2 := ⟨by decide, by decide⟩

/-! ### Belion -/

theorem test_hyp_registers : Runs State.reset 0 ∧ Runs vein 2 ∧ Runs granted 1 := ⟨runs_reset, runs_vein, by decide, by decide⟩
theorem test_hyp_loads :
    (let x := (withEngine 0 { run := true, k := [(1, 0x7FFC)] }).engine 0
     (x.reg 1 + BitVec.ofInt 32 (0#16).toInt).toNat = 0x7FFC ∧ 0x7FFC < dataSize 0) ∧
    (let x := (withEngine 0 { run := true, k := [(1, 0x110000)] }).engine 0
     (x.reg 1 + BitVec.ofInt 32 (0xFFFC#16).toInt).toNat = 0x100000 + 0xFFFC) ∧
    (let x := (withEngine 0 { run := true, k := [(1, 0x180000)] }).engine 0
     (x.reg 1 + BitVec.ofInt 32 (0x07FC#16).toInt).toNat = 0x180000 + 0x7FC) := by decide
theorem test_hyp_branches :
    (0xFFFC % 4 = 0 ∧ 0xFFFC < progSize 0) ∧ (0 : Int) = ((withEngine 0 { run := true, pc := 8 }).engine 0).pc + 4 * (-2#22).toInt ∧
    0xFFFC = (((withEngine 0 { run := true, k := [(15, 0xFFFC)] }).engine 0).reg 15 + BitVec.ofInt 32 (0#16).toInt).toNat := by decide
theorem test_hyp_events :
    (let x := (withEngine 0 { run := true, ev := 6, k := [(1, 125000)] }).engine 0
     x.ev &&& 6 ≠ 0 ∧ x.ev &&& 8 = 0 ∧ ¬ ((8 : BitVec 16) = 0 ∧ x.reg 1 = 0)) ∧
    (let s := withEngine 0 { run := true, ev := 6, waiting := some ⟨2, 6, 125000, 0⟩ }
     s.waitEnds 0 = true ∧ (s.engine 0).ev &&& 6 ≠ 0) ∧
    (withEngine 0 { run := true, waiting := some ⟨2, 6, 125000, 0⟩ }).waitEnds 0 = true := by decide
theorem test_hyp_mailbox :
    State.reset.dieUp = true ∧ ({ granted with pcie := { perstHeld := false } } : State).mbxUp = true ∧
    (grantD2h granted.hookEntry ||| 0xFFFFFFFF = grantD2h granted.hookEntry) ∧
    (grantH2dSlots granted.hookEntry ||| 2 ^ 7 = grantH2dSlots granted.hookEntry) ∧ bit ({ h2dFull := 128 } : Mbx).h2dFull 7 = true := by decide
theorem test_hyp_tables :
    (7 < tableCount 0 ∧ 4 * 15 < tableEntry 0) ∧ (127 < tableCount 3 ∧ 15 / 16 = 2 - 2 ∧ 127 / 16 = 9 - 2) ∧
    State.reset.tab.sync = none ∧ 255 < tableCount 2 := by decide
theorem test_hyp_bus :
    (vein.fchan 0).transfer = none ∧ ((vein.engine 2).reg 1).toNat / 256 % 256 = 1 ∧ vein.modeAllowed 0 0 0 = true ∧
    (vein.setFchan 0 { transfer := some true }).fchan 0 ≠ vein.fchan 0 := by decide
/-- An operation. -/
def op : FOp := { lun := 0, kind := 1, block := 64, page := 0, suspendable := true }
theorem test_hyp_queue :
    (((vein.engine 2).reg 2).toNat + 0) % 2 ^ 32 % 32 = 0 ∧ (vein.fchan 0).cur = none ∧ (vein.fchan 0).pick vein.mayIssue = none ∧
    (let s := vein.setFchan 0 { queue := [op] }
     (s.fchan 0).pick s.mayIssue = some op) ∧
    (let s := vein.setFchan 0 { cur := some op, handle := 0 }
     (s.fchan 0).cur = some op ∧ (s.fchan 0).handle = ((s.engine 2).reg 3).toNat % 16) ∧
    ((vein.setFchan 0 { late := 1 }).fchan 0).late = ((vein.engine 2).reg 3).toNat % 16 + 1 := by decide
theorem test_hyp_scheduler :
    ((svc.setFchan 7 { transfer := some true }).fchan 7).transfer = some true ∧
    (let s := svc.setFchan 0 { cur := some op, susp := [op] }
     (s.fchan 0).cur = some op ∧ op.suspends < 16 ∧ (s.fchan 0).susp.find? (fun o => o.lun == 0) = some op ∧ s.bas.freeze = false) ∧
    bit svc.nv.failed.channels 7 = false := by decide
theorem test_hyp_keystone :
    (State.reset.dev = .rom ∧ State.reset.bas.freeze = false ∧ ((State.reset.engine 0).reg 1).toNat % 64 = 0) ∧
    (State.reset.loadSection 1 true (State.reset.img.sram.drop 0)).2 ≠ 1 ∧ imageCode 0 (State.reset.img.sram.drop 0) ≠ 0 ∧
    (svc.askState 4).2 = false ∧ 15 % 16 ≠ 2 := by decide +kernel
theorem test_hyp_hooks :
    Runs granted 1 ∧ (grantCairn granted.hookEntry 511 = true) ∧ granted.hooksUp = true ∧ granted.hooks.busy = true ∧
    (let s := (granted.setCairn 511 { state := 1 }).setF Reg.hookEn 1
     (s.cairn 511).state = 1 ∧ s.inGap (s.cairn 511) = false ∧ bit (s.f Reg.hookEn) 0 = true ∧ hookTrig ((s.hooks.table[0]?).getD []) ≠ 0) :=
  ⟨⟨by decide, by decide⟩, by decide⟩
theorem test_hyp_faults :
    State.reset.engineRuns 0 = true ∧ vein.engineRuns 2 = true ∧ granted.engineRuns 1 = true ∧ ((State.reset.engine 0).reg 1) = 0 ∧
    (let x := (withEngine 0 { run := true, k := [(1, 0xFFFFFFFF)] }).engine 0
     (x.reg 1 + (0#16).signExtend 32).toNat % 2 ≠ 0 ∧ spaceOf 0 (x.reg 1 + (0xFFFD#16).signExtend 32).toNat = .outside) ∧
    (let x := (withEngine 0 { run := true, k := [(1, 0x10000)] }).engine 0
     (x.reg 1 + (0#16).signExtend 32).toNat % 4 = 0 ∧ progSize 0 ≤ (x.reg 1 + (0#16).signExtend 32).toNat) ∧
    (BitVec.ofNat 32 0xFFFC + ((1#22).signExtend 32 <<< 2)).toNat = progSize 0 := by decide
theorem test_hyp_debug :
    (let s := maker.setEngine 3 { dbg := true }
     s.debugOpen .pcie = true ∧ s.reaches .pcie = true ∧ (s.engine 3).dbg = true ∧ (s.engine 3).run = false ∧
     belDecode 3 .clean [] (s.engine 3).wordAtPc = none) ∧
    inst.debugOpen .pcie = false ∧ (maker.setEngine 3 { run := true }).debugOpen .pcie = true := by decide

/-! ### Registers, supply and starts -/

theorem test_hyp_registers_bus :
    svc.reaches .pcie = true ∧ svc.dev ≠ .recovery ∧ (inDebug 0x7FC = false ∧ regWriter 0x7FC = none) ∧
    (inDebug 0xFFFC = false ∧ regWriter 0xFFFC = none) ∧ inst.installer .pcie = true ∧ svc.installer .pcie = false ∧ svc.mbxUp = true ∧
    (svc.setRing 7 { state := 1 }).rings = [(7, { state := 1 })] := by decide
theorem test_hyp_syncs :
    (svc.tab.sync = none ∧ inst.installer .keystone = true ∧ (7 : Nat) < tableCount 0) ∧
    (tableCount 0 ≤ 8 ∧ tableCount 1 ≤ 8) ∧ svc.entryOk ⟨0, 7, true, none⟩ [] = false ∧
    svc.entryOk ⟨1, 7, true, none⟩ (natLe 2 100 ++ [1, 16, 8] ++ List.replicate 59 0) = true ∧ svc.lunIdle 0 = true ∧ (svc.lun 0).failed = 0 := by decide
theorem test_hyp_vcore :
    svc.dieUp = true ∧ svc.bas.freeze = false ∧ svc.vcore.unacked = false ∧ svc.time.ringOsc = false ∧
    ({ State.reset with start := { rom := .crystal } } : State).dev = .rom := by decide
theorem test_hyp_charger :
    svc.bas.inputOn = true ∧ svc.led.phase = .idle ∧ svc.ledgerShut = true ∧ ({ svc with led := { valid := true } } : State).ledgerShut = false ∧
    svc.mayMeasure = true := by decide
theorem test_hyp_measurement :
    svc.mayMeasure = true ∧ inst.installer .pcie = true ∧ (47 ≤ (47#32).toNat % 64 ∧ (46#32).toNat % 64 < 47) ∧
    ({ svc with led := { phase := .waitDip } } : State).ledgerShut = true ∧
    (100000 ≤ (100000#32).toNat ∧ (3000000#32).toNat ≤ 3000000 ∧ (99999#32).toNat < 100000) ∧ svc.led.valid = false := by decide
/-- A warning arrangement: both channels in use. -/
def armed : State := ({ svc with pfw := { state := .armed } }).setF Reg.pfwMode 1
theorem test_hyp_collapse :
    (4199 < 4200 + 200 * svc.f Reg.collTh) ∧ (.vcore : Rail) ∉ svc.bas.badRails ∧ armed.bas.freeze = false ∧
    ({ svc with bas := { badRails := [.vddq], alert := true } } : State).dram.up = false := by decide
theorem test_hyp_drain :
    ({ svc with drain := { step := 8 } } : State).drain.step = 8 ∧
    (let s : State := { svc with dev := .safe, bas := { rails := .removed } }
     4500 ≤ s.bas.vinMv ∧ s.bas.vinMv ≤ 36000 ∧ 4200 + 200 * s.f Reg.collTh < s.bas.vinMv ∧ s.pfwHolds = false ∧ s.junction ≤ 140 ∧
     s.dieUp = false) ∧ svc.str.units = [] := by decide
theorem test_hyp_power :
    ({ State.reset with bas := { inputOn := false } } : State).bas.inputOn = false ∧ ({ State.reset with start := { rom := .running } } : State).startRuns = true ∧ svc.dieUp = true ∧
    svc.start.cleared = false ∧ State.reset.img.running = 255 ∧
    ({ inst with dev := .preFreeze } : State).installer .pcie = true := by decide
theorem test_hyp_start : ({ State.reset with bas := { dieReset := true } } : State).mayLeaveReset = true := by decide

/-! ### Roles, keys and images -/

/-- A command on a ring with its body: byte 0 the target, 1 the pointer's kind, 2 the flags, 4 LENGTH, 8 START, 16 the address, then the
operands from byte 28. -/
def cmdOn (ring op target kind flags len start addr : Nat) (rest : Bytes) : Cmd :=
  { ring := ring, tag := 3, opcode := op, cookie := 0, slot := 0, modeV := false, noint := false, arrive := 0, cls := 6
    body := natLe 1 target ++ natLe 1 kind ++ natLe 2 flags ++ natLe 4 len ++ natLe 8 start ++ natLe 8 addr ++ natLe 4 0 ++ padTo 28 rest }
/-- The state with that command fetched on its ring, and the supervisor at work. -/
def fetched (s : State) (c : Cmd) : State := s.setRing c.ring { state := 1, cmds := [c] }

theorem turn_fetched (s : State) (c : Cmd) (h : s.dieUp = true ∧ s.bas.freeze = false ∧ s.nv.sanitize = none ∧ s.dev.inService = true ∧ s.supervisor = true)
    (k : c.ring = 0 ∧ c.tag = 3 ∧ c.cls = 6 ∧ c.unstarted = true) : Turn (fetched s c) 3 c.opcode c := by
  obtain ⟨h1, h2, h3, h4, h5⟩ := h
  obtain ⟨k1, k2, k3, k4⟩ := k
  have hr : (fetched s c).ring 0 = { state := 1, cmds := [c] } := by
    unfold fetched; rw [k1]; simp [State.ring, State.setRing, Map.get_set_self]
  refine ⟨⟨c, ⟨?_, rfl, k1, k4, h1, h2⟩, ?_⟩, ?_, h4, fun _ => h5⟩
  · unfold State.cmd?; rw [hr]; simp [k2]
  · cases c; simp only at k3; subst k3; rfl
  · unfold State.admTurn
    rw [hr, show (fetched s c).nv.sanitize = none from h3]
    simp [k2]
theorem svc_ok : inst.dieUp = true ∧ inst.bas.freeze = false ∧ inst.nv.sanitize = none ∧ inst.dev.inService = true ∧ inst.supervisor = true := by decide

/-- A challenge for the installer, held on the PCIe path. -/
def asked : State := { inst with roles := { pcie := 1, chal := [(0, { role := 1, ctr := 0, bytes := [] })] } }
theorem test_hyp_roles :
    Turn (fetched asked (cmdOn 0 0x49 1 1 0 64 0 0x1000 [])) 3 0x49 (cmdOn 0 0x49 1 1 0 64 0 0x1000 []) ∧
    Turn (fetched asked (cmdOn 0 0x4A 2 1 0 48 0 0x1000 [])) 3 0x4A (cmdOn 0 0x4A 2 1 0 48 0 0x1000 []) ∧
    Turn (fetched asked (cmdOn 0 0x4B 0 0 0 0 0 0 [])) 3 0x4B (cmdOn 0 0x4B 0 0 0 0 0 0 []) :=
  ⟨turn_fetched asked _ svc_ok (by decide), turn_fetched asked _ svc_ok (by decide), turn_fetched asked _ svc_ok (by decide)⟩
theorem test_hyp_role_fields :
    (let c := cmdOn 0 0x49 1 1 0 64 0 0x1000 []
     c.opflags = 0 ∧ c.start = 0 ∧ c.noOps = true ∧ c.volume = 1 ∧ c.length = 64 ∧ c.data = true ∧ c.listOk c.length [] = true) ∧
    (cmdOn 0 0x4B 0 0 0 0 0 0 []).noData = true ∧ asked.holdLeft 0 = none ∧ asked.roles.chal.get? 0 ≠ none ∧
    asked.responseOk 0 (padTo 48 []) = false := by decide
theorem test_hyp_paths :
    maker.roleOf 0 = 2 ∧ svc.holdLeft 2 = none ∧ ({ svc with jtag := .qkchal } : State).bas.freeze = false ∧
    ({ svc with nv := { keys := { holds := [(2, 1500000000)] } } } : State).holdLeft 2 = some 60000000 := by decide
/-- Volume 31 with a key in force under a secret. -/
def keyed : State := { inst with nv := {
  vols := [(31, { encrypt := true })], keys := { vol := [(31, { drawn := 0, secret := some (List.replicate 32 1) })] } } }
theorem test_hyp_keys :
    (let c := cmdOn 0 0x4C 31 1 1 64 0 0x1000 []
     Turn (fetched keyed c) 3 0x4C c) ∧
    (let c := cmdOn 0 0x4D 0 1 0 4096 0 0x1000 []
     Turn (fetched keyed c) 3 0x4D c) :=
  ⟨turn_fetched keyed _ svc_ok (by decide), turn_fetched keyed _ svc_ok (by decide)⟩
theorem test_hyp_key_fields :
    (let c := cmdOn 0 0x4C 31 1 1 64 0 0x1000 []
     c.start = 0 ∧ c.noOps = true ∧ c.volume = 31 ∧ c.opflags = 1 ∧ c.length = 64 ∧ c.data = true) ∧ keyed.volKey 31 ≠ none ∧
    (let c := cmdOn 0 0x4D 0 1 0 4096 0 0x1000 []
     c.volume = 0 ∧ c.length = 4096 ∧ c.length % 4 = 0 ∧ c.data = true) ∧ keyed.flintLatched = false ∧ keyed.roles.flint.stat = 0 ∧
    (cmdOn 0 0x4C 31 0 3 0 0 0 []).noData = true ∧ secretOf (slice (padTo 64 (List.replicate 32 1)) 0 32) = some (List.replicate 32 1) := by decide
theorem test_hyp_flint :
    svc.dieUp = true ∧ svc.roles.flint.halted = false ∧ svc.roles.flint.stat = 0 ∧ ((80#11).toNat < 81 ∧ (823#11).toNat < 824 ∧ 824 ≤ (824#11).toNat) ∧
    ({ stat := 2, halted := true, reruns := 3 } : Flint).halted = true := by decide
/-- A session of the PCIe path for slot 1. -/
def session : State := { inst with img := { session := some (0, 1) } }
theorem test_hyp_images :
    (let c := cmdOn 0 0x45 0 1 0 4096 4190208 0x1000 []
     Turn (fetched session c) 3 0x45 c) ∧
    (let c := cmdOn 0 0x46 0 0 0 4096 0 0 []
     Turn (fetched session c) 3 0x46 c) ∧
    (let c := cmdOn 0 0x52 0 1 0 64 0 0x1000 []
     Turn (fetched session c) 3 0x52 c) :=
  ⟨turn_fetched session _ svc_ok (by decide), turn_fetched session _ svc_ok (by decide), turn_fetched session _ svc_ok (by decide)⟩
theorem test_hyp_image_fields :
    (let c := cmdOn 0 0x45 0 1 0 4096 4190208 0x1000 []
     c.start % 4096 = 0 ∧ c.length % 4096 = 0 ∧ c.start + c.length = 4194304 ∧ c.data = true ∧ c.noOps = true ∧ c.listOk c.length [] = true) ∧
    session.sessionOn 0 = some 1 ∧ (cmdOn 0 0x46 0 0 0 4096 0 0 []).pointerOk 0 = true ∧ session.openTo 6 = false ∧ session.hooks.busy = false ∧
    (cmdOn 0 0x52 0 1 0 64 0 0x1000 []).data = true ∧ session.unitsFit 6 512 = true := by decide
theorem test_hyp_trial :
    (let s : State := { inst with nv := { boot := { trial := 1 } }, img := { running := 1 }, start := { trial := true } }
     s.onTrial = true ∧ s.dieUp = true ∧ s.dev.inService = true) := by decide

/-! ### The host's side -/

/-- In service, with the PCIe function ready, room for energy, a block volume 5 and a stream 6. -/
def host : State := { inst with
  led := { valid := true, limit := 4000000000 }
  pcie := { perstHeld := false, detect := true, up := true, bme := true }
  nv := { vols := [(5, { kind := 0, cap := 1024 }), (6, { kind := 1, cap := 1024 })] } }
/-- A ring at work: 8 slots, mode V, class 0. -/
def ring8 : Ring := { state := 1, ctx := { sqDepth := 32, cqDepth := 16, push := true, prefetch := 4 } }
theorem test_hyp_host_link :
    host.dieUp = true ∧ host.pcie.perstHeld = false ∧ host.pcie.up = true ∧ host.dev ≠ .recovery ∧ host.cycleRing = false ∧ host.readsOut = false ∧
    ((4#3).toNat = 1 ∨ (4#3).toNat = 2 ∨ (4#3).toNat = 4) ∧ min (4#3).toNat (host.takeMaxSpeed.f Reg.maxSpeed) = 4 ∧
    min (1#3).toNat (host.takeMaxSpeed.f Reg.maxSpeed) < host.takeMaxSpeed.f Reg.maxSpeed := by decide
/-- A command whose one descriptor moves data to or from the host. -/
def moving (toHost : Bool) : Cmd :=
  { cmdOn 1 1 5 1 0 1 0 0x1000 [] with stage := .moving, cls := 7, descs := [⟨0x1000, 4096, 0, toHost, true⟩], segs := [(0x1000, 4096)], got := [(0, [])] }
theorem test_hyp_host_reads :
    (let r := (host.setRing 1 { ring8 with fetching := some (0, 4) }).ring 1
     r.fetching = some (0, 4) ∧ r.state = 1 ∧ r.indexing = false) ∧
    (let r := (host.setRing 1 { ring8 with indexing := true }).ring 1
     r.indexing = true ∧ r.state = 1 ∧ r.fetching = none ∧ r.again = false ∧ leAt [31, 0, 0, 0] 0 4 < r.ctx.sqDepth ∧ r.ctx.sqDepth ≤ leAt [32, 0, 0, 0] 0 4) ∧
    (fetched host (moving false)).movingCmd 1 3 0 = some (moving false, ⟨0x1000, 4096, 0, false, true⟩) ∧
    ({ host with tab := { sync := some { table := 0, index := 7, issued := true } } } : State).tab.sync.isSome = true := by decide
theorem test_hyp_doorbells :
    (let s := host.setRing 1 ring8
     let r := s.ring 1
     r.state = 1 ∧ r.ctx.dbBare = false ∧ (bits 31 15 10 = 0 ∧ bits 31 31 17 = 0 ∧ bits 31 9 0 < r.ctx.sqDepth ∧ bits 31 9 0 ≠ r.sqTail) ∧ r.ctx.sqDepth ≤ bits 32 9 0 ∧
     s.mayPost = true ∧ r.fetching = none ∧ r.snap = none ∧ r.cmds.length < 32 ∧ r.sqHead < r.ctx.sqDepth) ∧
    (let r := (host.setRing 1 { ring8 with pushed := 256 }).ring 1
     r.ctx.push = true ∧ r.pushed = 64 * ((4 + 32 - r.sqTail) % 32) ∧ bit (65536 + 4) 16 = true) ∧
    (let r := (host.setRing 1 { ring8 with ctx := { dbBare := true } }).ring 1
     r.state = 1 ∧ r.ctx.dbBare = true ∧ r.indexing = false) ∧
    (let r := (host.setRing 1 { ring8 with cqTail := 2 }).ring 1
     bits 2 9 0 < r.ctx.cqDepth ∧ (2 + r.ctx.cqDepth - r.cqHead) % r.ctx.cqDepth ≤ (r.cqTail + r.ctx.cqDepth - r.cqHead) % r.ctx.cqDepth ∧
     (r.cqTail + r.ctx.cqDepth - r.cqHead) % r.ctx.cqDepth < (3 + r.ctx.cqDepth - r.cqHead) % r.ctx.cqDepth) ∧
    ((0xC0#12).toNat + 64 ≤ 0x100 ∧ (0xC4#12).toNat + 64 > 0x100 ∧ 0x100 ≤ (0x100#12).toNat) := by decide
theorem test_hyp_ring_states :
    (let s := host.setRing 1 { synced := some ring8.ctx }
     (s.ring 1).synced = some ring8.ctx ∧ (s.ring 1).state = 0) ∧
    (let s := host.setRing 1 { ring8 with chain := some (cmdOn 1 1 5 1 0 1 0 0x1000 [], 1), modN := 1 }
     (s.ring 1).chain = some (cmdOn 1 1 5 1 0 1 0 0x1000 [], 1) ∧ (s.ring 1).ctx.modeV = false ∧ (s.ring 1).modN ≠ 0 ∧ (s.ring 1).state = 1) := by decide
theorem test_hyp_completions :
    (let s := host.setRing 1 { ring8 with cqTail := 15, ctx := { ring8.ctx with modTime := 8, modCount := 2 } }
     let r := (s.ring 1).atBoundary
     (s.ring 1).waiting = [] ∧ (s.ring 1).state = 1 ∧ s.mayPost = true ∧ (r.cqTail + 1) % r.ctx.cqDepth = r.cqHead ∧ r.ctx.modTime ≠ 0) ∧
    (let s := host.setRing 1 { ring8 with ctx := { ring8.ctx with modTime := 8, modCount := 2 } }
     let r := (s.ring 1).atBoundary
     s.mayPost = true ∧ (r.cqTail + 1) % r.ctx.cqDepth ≠ r.cqHead ∧ r.modN + 1 < r.ctx.modCount) ∧ inst.mayPost = false := by decide
theorem test_hyp_host_mailbox :
    host.dev ≠ .recovery ∧ host.mbxUp = true ∧ ((60#6).toNat + 4 ≤ 64 ∧ 64 < (60#6).toNat + 8) ∧ bit host.mbx.h2dFull 7 = false ∧
    bit ({ host with mbx := { h2dFull := 128 } } : State).mbx.h2dFull 7 = true ∧ bit ({ d2hTo := 128 } : Mbx).d2hTo 7 = true := by decide

/-! ### Commands on the rings -/

theorem starts_fetched (s : State) (c : Cmd) (h : s.dieUp = true ∧ s.bas.freeze = false) (k : c.unstarted = true) :
    Starts (fetched s c) c.ring c.tag c.opcode c := by
  refine ⟨?_, rfl, rfl, k, h.1, h.2⟩
  unfold State.cmd? fetched State.setRing State.ring
  simp [Map.get_set_self]
/-- A ring's command of class 7. -/
def io (op volume len start : Nat) (rest : Bytes) : Cmd := { cmdOn 1 op volume (if len = 0 then 0 else 1) 0 len start (if len = 0 then 0 else 0x1000) rest with cls := 7 }
/-- The same on a ring of the cycle class, in a budget. -/
def cyclic (c : Cmd) : State := (((fetched host c).setRing 1 { state := 1, ctx := { cls := 1 }, cmds := [c] }).setF Reg.cycMaxCmds 64).setF Reg.cycMaxUnits 1024
theorem clear_fetched (c : Cmd) (k : c.ring = 1 ∧ c.unstarted = true ∧ (fetched host c).ioCheck c = none) : Clear (fetched host c) 1 c.tag c.opcode c := by
  have h := starts_fetched host c (by decide) k.2.1
  rw [k.1] at h
  exact ⟨h, k.2.2, by rw [k.1]; rfl⟩
theorem test_hyp_reads : Clear (fetched host (io 1 5 512 512 [])) 1 3 1 (io 1 5 512 512 []) ∧
    (let c := io 1 5 512 513 []
     (fetched host c).ioCheck c = some 0x0202) ∧ (io 1 5 512 512 []).listOk 2097152 [] = true :=
  ⟨clear_fetched _ (by decide), by decide, by decide⟩
theorem test_hyp_writes :
    (let c := io 2 5 1 1023 []
     Clear (fetched host c) 1 3 2 c) ∧
    (let c := io 3 5 64 960 []
     Clear (fetched host c) 1 3 3 c) :=
  ⟨clear_fetched _ (by decide), clear_fetched _ (by decide)⟩
theorem test_hyp_write_paths :
    (let c := io 2 5 1 1023 []
     let s := fetched host c
     c.stage = .fetched ∧ c.budgeted = false ∧ s.eligible c = false ∧ s.openTo 7 = true ∧ s.blocked c 7 = false ∧ s.unitsFit 7 1 = true ∧ s.energyFits 1 = true ∧
     s.unitsFit 7 1600 = false ∧ ({ s with led := {} } : State).openTo 7 = false) ∧
    (let c := io 2 5 1 1023 []
     let s := cyclic c
     let r := ((s.countF Reg.cycCmds 1).countF Reg.cycUnits 1).setCmd { c with eligible := true, budgeted := true, cls := 3 }
     s.eligible c = true ∧ s.inBudget 1 = true ∧ s.inBudget 1025 = false ∧ r.openTo 3 = true ∧ 1 ≤ r.resFree) ∧
    (({ host with chans := [(1, { halted := true })] } : State).chan 1).halted = true := by decide
/-- A record. -/
def rec1 : SRec := { seq := 7, ticks := 0, cycles := 0, optMs := 0, payload := [1, 2], src := 1, transform := 0, off := 0 }
theorem test_hyp_streams :
    (let c := io 4 6 4000 0 []
     Clear (fetched host c) 1 3 4 c) ∧
    (let c := io 7 6 0 0 []
     Clear (fetched host c) 1 3 7 c) ∧
    (let c := io 8 6 4096 7 [1]
     Clear (fetched host c) 1 3 8 c) ∧
    (let c := { io 9 6 0 0 [0, 128] with body := natLe 1 6 ++ [0, 1, 0] ++ natLe 24 0 ++ padTo 28 [0, 128] }
     Clear (fetched host c) 1 3 9 c) :=
  ⟨clear_fetched _ (by decide), clear_fetched _ (by decide), clear_fetched _ (by decide), clear_fetched _ (by decide)⟩
theorem test_hyp_stream_paths :
    (let c := io 4 6 4000 0 []
     let s := fetched host c
     s.eligible c = false ∧ s.openTo 7 = true ∧ s.unitsFit 7 1 = true ∧ s.energyFits 1 = true ∧ s.earlierAppend c = false ∧ (s.vol 6).isSealed = false ∧
     s.toRelease 6 (extent 4000) ((s.vol 6).space - (s.vol 6).used) (s.vol 6).recs = some 0 ∧
     s.toRelease 6 (extent 4000) 0 (s.vol 6).recs = none) ∧ host.pinRoom 6 = true ∧
    ({ host with nv := { pins := (List.range 16).map fun h => { vol := 6, handle := h, first := 0, count := 1 } } } : State).pinRoom 6 = false := by decide
theorem test_hyp_flush :
    (let c := io 5 5 0 0 []
     Clear (fetched host c) 1 3 5 c) ∧
    (let c := io 6 5 1024 0 []
     Clear (fetched host { c with body := natLe 1 5 ++ natLe 3 0 ++ natLe 4 1024 ++ natLe 48 0 }) 1 3 6 { c with body := natLe 1 5 ++ natLe 3 0 ++ natLe 4 1024 ++ natLe 48 0 }) :=
  ⟨clear_fetched _ (by decide), clear_fetched _ (by decide)⟩

/-! ### Administrative commands -/

theorem test_hyp_queries :
    (let c := cmdOn 0 0x40 0 1 0 4096 0 0x1000 []
     Turn (fetched host c) 3 0x40 c) ∧
    (let c := cmdOn 0 0x43 31 1 0 256 0 0x1000 []
     Turn (fetched host c) 3 0x43 c) ∧
    (let c := cmdOn 0 0x57 255 1 0 64 0 0x1000 [5]
     Turn (fetched host c) 3 0x57 c) ∧
    (let c := cmdOn 0 0x56 3 1 1 4 0 0x1000 []
     Turn (fetched host c) 3 0x56 c) ∧
    (let c := cmdOn 0 0x44 4 1 1 256 0 0x1000 []
     Turn (fetched host c) 3 0x44 c) :=
  ⟨turn_fetched host _ svc_ok (by decide), turn_fetched host _ svc_ok (by decide), turn_fetched host _ svc_ok (by decide), turn_fetched host _ svc_ok (by decide),
   turn_fetched host _ svc_ok (by decide)⟩
theorem test_hyp_query_fields :
    (let c := cmdOn 0 0x40 0 1 0 4096 0 0x1000 []
     c.volume = 0 ∧ c.opflags = 0 ∧ c.start = 0 ∧ c.noOps = true ∧ c.length = 4096 ∧ c.data = true ∧ c.listOk 4096 [] = true) ∧
    (let c := cmdOn 0 0x57 255 1 0 64 0 0x1000 [5]
     c.volume = 255 ∧ c.b 28 1 ≤ 5 ∧ c.zero 29 27 = true ∧ 64 ≤ c.length ∧ c.length % 16 = 0 ∧ c.data = true) ∧
    (let c := cmdOn 0 0x56 3 1 1 4 0 0x1000 []
     c.opflags ≤ 1 ∧ itemSize c.volume ≠ 0 ∧ c.length = itemSize c.volume ∧ c.start < itemCount c.volume ∧ c.noOps = true ∧ c.data = true) ∧
    (let c := cmdOn 0 0x44 4 1 1 256 0 0x1000 []
     c.logOk = true ∧ host.asOwner = true ∧ c.opflags = 1 ∧ c.data = true) := by decide
theorem test_hyp_volumes :
    (let c := cmdOn 0 0x41 31 0 13 0 1025 0 [0, 0, 0, 0]
     Turn (fetched host c) 3 0x41 c) ∧
    (let c := cmdOn 0 0x42 5 0 0 0 0 0 []
     Turn (fetched host c) 3 0x42 c) ∧
    (let c := cmdOn 0 0x51 0 0 3 0 0 0 []
     Turn (fetched host c) 3 0x51 c) ∧
    (let c := cmdOn 0 0x53 255 0 2 0 0 0 []
     Turn (fetched host c) 3 0x53 c) :=
  ⟨turn_fetched host _ svc_ok (by decide), turn_fetched host _ svc_ok (by decide), turn_fetched host _ svc_ok (by decide), turn_fetched host _ svc_ok (by decide)⟩
theorem test_hyp_volume_fields :
    (let c := cmdOn 0 0x41 31 0 13 0 1025 0 [0, 0, 0, 0]
     c.volume ≤ 31 ∧ c.opflags ≤ 15 ∧ bits c.opflags 1 0 = 1 ∧ c.zero 32 24 = true ∧ c.noData = true) ∧
    (host.asOwner = true ∧ svc.asOwner = false) ∧
    (let c := cmdOn 0 0x42 5 0 0 0 0 0 []
     1 ≤ c.volume ∧ c.opflags ≤ 1 ∧ c.start = 0 ∧ c.noOps = true ∧ c.noData = true ∧ (host.vol c.volume).kind ≠ 255 ∧ host.writersOn c.volume = false) ∧
    (let c := cmdOn 0 0x53 255 0 2 0 0 0 []
     c.volume = 255 ∧ bits c.opflags 1 0 = 2 ∧ c.noData = true) ∧
    ({ host with nv := { sanitize := some { vols := [5], crypto := true, began := 0 } } } : State).nv.sanitize = some { vols := [5], crypto := true, began := 0 } ∧
    ({ host with roles := { flint := { drbg := true } } } : State).flintFailed = false ∧ ({ host with flintLatched := true } : State).flintFailed = true := by decide
/-- A self-test under way, at a step. -/
def testing (kind step : Nat) : State := { host with selfTest := some { kind := kind, step := step, ring := 0, tag := 3, began := 0 } }
theorem test_hyp_self_tests :
    (let c := cmdOn 0 0x48 0 0 1 0 0 0 []
     Turn (fetched host c) 3 0x48 c) ∧
    (let c := cmdOn 0 0x48 0 0 2 0 0 0 []
     Turn (fetched host c) 3 0x48 c) ∧
    (let c := cmdOn 0 0x48 0 0 3 0 0 0 []
     Turn (fetched (testing 2 11) c) 3 0x48 c) :=
  ⟨turn_fetched host _ svc_ok (by decide), turn_fetched host _ svc_ok (by decide), turn_fetched (testing 2 11) _ svc_ok (by decide)⟩
theorem test_hyp_test_steps :
    (testing 2 11).selfTest.isSome = true ∧ (testing 2 11).dev.serves = true ∧ (testing 2 11).dev.inService = true ∧ (testing 2 11).parityOn = false ∧ (9 + 1 > 9 ∧ 11 + 1 = 12) ∧
    (let s : State := { testing 1 9 with led := { valid := true, doneAt := 0 } }
     (s.led.valid && decide (s.time.uptime ≤ s.led.doneAt + msTicks 3660000)) = true) ∧ inst.led.valid = false := by decide
theorem test_hyp_settings :
    (let c := cmdOn 0 0x54 7 0 0 0 255 0 []
     Turn (fetched host c) 3 0x54 c) ∧
    (let c := cmdOn 0 0x50 0 0 0 0 1 0 []
     Turn (fetched host c) 3 0x50 c) ∧
    (let c := cmdOn 0 0x4E 0 1 0 128 511 0x1000 []
     Turn (fetched host c) 3 0x4E c) ∧
    (let c := cmdOn 0 0x4F 0 0 0 0 511 0 []
     Turn (fetched host c) 3 0x4F c) ∧
    (let c := cmdOn 0 0x55 5 1 1 4 0 0x1000 []
     Turn (fetched host c) 3 0x55 c) :=
  ⟨turn_fetched host _ svc_ok (by decide), turn_fetched host _ svc_ok (by decide), turn_fetched host _ svc_ok (by decide), turn_fetched host _ svc_ok (by decide),
   turn_fetched host _ svc_ok (by decide)⟩
theorem test_hyp_setting_fields :
    (let c := cmdOn 0 0x4E 0 1 0 128 511 0x1000 []
     c.opflags = 0 ∧ c.length = 128 ∧ c.start ≤ 511 ∧ c.noOps = true ∧ c.data = true ∧ host.cairnOk c.start (padTo 128 []) = false) ∧
    (let c := cmdOn 0 0x55 5 1 1 4 0 0x1000 []
     c.opflags = 1 ∧ 3 ≤ c.volume ∧ c.volume ≤ 5 ∧ c.length = itemSize c.volume ∧ c.start < itemCount c.volume ∧ c.data = true ∧
     host.itemOk 5 0 (natLe 4 (100 + 2 ^ 14 * 10 + 2 ^ 21 * 10)) = true) ∧
    (let s := host.setCairn 511 { state := 2 }
     (s.cairn 511).state = 2 ∧ (host.cairn 511).state = 0) := by decide
/-- A cairn entry: kind, flags, and one NOTIFY action. -/
def notify : Bytes := padTo 128 ([1, 5, 0, 1] ++ natLe 28 0 ++ [4, 0, 0, 0, 1, 0, 0, 0])
theorem test_hyp_cairn : host.cairnOk 5 notify = true := by decide

/-! ### Transfers, the flash and the DRAM -/

theorem test_hyp_transfers :
    (let c := moving true
     let s := fetched host c
     s.cmd? 1 3 = some c ∧ c.stage = .moving ∧ c.descs.find? (fun x => x.off == 0) = some ⟨0x1000, 4096, 0, true, true⟩ ∧ s.bas.freeze = false ∧ s.pcie.bme = true ∧ s.pcie.d3 = false ∧
     s.pcie.perstHeld = false ∧ c.holes = [] ∧ (c.descs.filter fun x => x.off ≠ 0) = []) ∧
    ((moving false).got.get [] 0).length < 4096 ∧ 4096 ≤ (({ moving false with got := [(0, List.replicate 4096 0)] } : Cmd).got.get [] 0).length ∧
    (let c := io 2 5 1 0 []
     let s : State := { fetched host { c with stage := .held } with alloc := { queue := [(1, 3, 7, 1)] } }
     s.alloc.queue.find? (fun q => q.1 == 1 && q.2.1 == 3 && q.2.2.1 == 7) = some (1, 3, 7, 1) ∧ (s.cmd? 1 3).isSome = true) := by decide +kernel
/-- One LUN of 16 KiB pages, with a unit that waits in staging. -/
def flash (blocks : List (Nat × FBlock)) : State := { host with
  tab := { lun := [(127, [1, 0, 0, 0, 0, 64, 0, 0, 0, 1, 0, 1, 0, 4, 0, 0])] }
  str := { units := [{ id := 1, vol := 5, lba := 0, stream := false, group := 0, fromReserve := false, part := 0, granted := 0 }] }
  nv := { host.nv with luns := [(127, { blocks := blocks })] } }
theorem test_hyp_pages :
    (let s := flash []
     s.dieUp = true ∧ s.bas.freeze = false ∧ s.dev.minimal = false ∧ s.lunHealthy 127 = true ∧ (s.lunRun 127).heldBack = false ∧
     (s.str.units.filter fun u => u.place == UnitAt.staged && u.fromReserve == false).take (lunCodewords (s.lunEntry 127)) ≠ [] ∧ bootBlocks 127 ≤ 0 ∧
     1022 + 1 < lunBlocks (s.lunEntry 127) ∧ ¬ 1023 + 1 < lunBlocks (s.lunEntry 127) ∧ (s.block 127 1022).state = .free ∧ s.dev ≠ .rom) ∧
    ((flash [(9, { state := .open_, cell := (flash []).cellOf 127 })]).block 127 9).state = .open_ ∧
    (let s : State := { host with str := { openPage := [1], pages := [[1]], ckptAt := some 1 } }
     s.str.openPage ≠ [] ∧ s.str.pages = [1] :: [] ∧ s.str.ckptAt = some 1) := by decide
/-- The LUN in Floor mode, with two closed blocks. -/
def worn : State := { flash [(3, { state := .closed, wear := 9 }), (4, { state := .closed })] with fl := { luns := [(127, { mode := 2 })] } }
theorem test_hyp_upkeep :
    worn.dieUp = true ∧ worn.dev.minimal = false ∧ worn.bas.freeze = false ∧ worn.dev ≠ .draining ∧ worn.lunHealthy 127 = true ∧ (worn.lunRun 127).mode = 2 ∧ worn.fl.hot = false ∧
    (worn.lun 127).blocks.filter (fun b => b.2.state == BlockState.closed) = [] ++ (3, { state := .closed, wear := 9 }) :: [(4, { state := .closed })] ∧
    (let x : State := { worn with nv := { worn.nv with vols := [(5, { map := [(0, { data := [], loc := locOf 127 4 })] })] } }
     x.validIn (locOf 127 3) < x.validIn (locOf 127 4)) ∧ accOne ≤ 5827852799 ∧ 10 * 5827852799 < 11 * accOne ∧ 11 * accOne ≤ 10 * 5827852800 := by decide
/-- The DRAM in use, with two ranks. -/
def dram : State := { host with dram := { up := true, ranks := 2, debt0 := 15 } }
theorem test_hyp_dram :
    ({ State.reset with dev := .starting } : State).f Reg.drcEn ≠ 1 ∧
    (let s : State := { host with dram := { initing := true } }
     s.dram.initing = true ∧ s.dramSupported = true ∧ (s.setF Reg.drcDensity 3).dramSupported = false ∧ s.dram.up = false) ∧
    (dram.dram.up = true ∧ dram.dram.initing = false ∧ (1 : Nat) < dram.dram.ranks ∧ 8 + dram.f Reg.postpone ≤ min 16 (dram.dram.debt0 + 1) ∧
     ¬ 8 + (dram.setF Reg.postpone 8).f Reg.postpone ≤ min 16 (dram.dram.debt1 + 1)) ∧
    (let s := ({ dram with dram := { dram.dram with alert := true } } : State).setF Reg.drcReplay 1
     s.dram.alert = true ∧ s.f Reg.drcReplay = 1) ∧
    (dram.setF Reg.ratThresh 8192).f Reg.ratThresh ≠ 0 := by decide

/-! ### The fabric and the cairns -/

/-- Connection 5 of partition 0, UP on port 0: window 0 appends to stream 6, window 1 reads the status, tags 0 to 9 trigger. -/
def fabric : State := ({ host with
  tab := { conn := [(5, [0x05, 0, 9, 0] ++ [2, 2, 2, 2, 2, 2] ++ natLe 6 0 ++ [1, 0x20, 0, 0, 20, 0, 1, 0, 2, 0, 5, 0, 4])]
           parts := [(0, [7, 0x80, 0, 0, 64, 0, 0, 9, 2, 0, 1, 0, 0, 0, 0, 0] ++ [1, 6, 0, 16, 0, 0] ++ natLe 6 0 ++ [2, 0, 0, 2, 0, 0])] }
  fab := { portCfg := [(0, [1, 0, 0xB5, 0x88, 2, 0, 0, 0, 0, 1, 100, 0])], conns := [(5, { st := 3, una := 0, snd := 2, top := 2, npsn := 2 })] } }.setF
    (Reg.portLink 0) 2).setF Reg.portEn 1
/-- A frame to connection 5 on port 0. -/
def frame (op flags psn : Nat) (body payload : Bytes) : Bytes :=
  let h := [0x10, BitVec.ofNat 8 op, BitVec.ofNat 8 flags, 0, 0, 7, 0, 5, 0, 9] ++ natBe 2 payload.length ++ [0] ++ natBe 3 psn ++ padTo 32 body ++ payload
  [2, 0, 0, 0, 0, 1] ++ [2, 2, 2, 2, 2, 2] ++ [0x81, 0, 0x20, 1, 0x88, 0xB5] ++ h ++ icrc h
/-- What a frame meets at port 0. -/
def meets (f : Bytes) : Bool :=
  let u := fabric.noteFill 0 1 0
  let h := frameInner (f.drop 18)
  fabric.fabUp && fabric.portUp 0 && bits (beAt f 14 2) 15 13 == 1 && !u.noRoom 0 1 0 && u.frameOk 0 f true && icrcOk (f.drop 18) && hDcid h == 5 && u.bound 0 f h && u.tagged (f.drop 18) &&
  decide ((u.conn 5).st = 3) && !(u.conn 5).quarantined && hPsn h == (u.conn 5).epsn && formOk h
theorem meets_passes (f : Bytes) (h : meets f = true) : Arrives fabric 0 f 0 (fabric.noteFill 0 1 0) ∧ Passes (fabric.noteFill 0 1 0) 0 f 5 (frameInner (f.drop 18)) := by
  simp only [meets, Bool.and_eq_true, beq_iff_eq, Bool.not_eq_true'] at h
  obtain ⟨⟨⟨⟨⟨⟨⟨⟨⟨⟨⟨⟨h1, h2⟩, h3⟩, h4⟩, h5⟩, h6⟩, h7⟩, h8⟩, h9⟩, -⟩, -⟩, -⟩, -⟩ := h
  exact ⟨⟨h1, h2, by rw [h3], by rw [h3]; exact h4⟩, h5, h6, rfl, h7.symm, h8, h9⟩
/-- An APPEND of 8 bytes, a READ_REQ of 4 status bytes, a SEND of tag 9, an ACK, a NAK, a HELLO, and a packet of no known opcode. -/
def frames : List Bytes :=
  [frame 1 3 0 (natBe 4 1 ++ natBe 4 8 ++ natBe 2 0) (List.replicate 8 1), frame 3 3 0 (natBe 4 1 ++ natBe 4 4 ++ natBe 2 1 ++ [0, 0] ++ natBe 8 508) [],
    frame 5 3 0 (natBe 4 1 ++ natBe 4 4 ++ [9]) [1, 2, 3, 4], frame 16 0 0 ([0] ++ natBe 3 1) [], frame 17 0 0 ([2] ++ natBe 3 1) [], frame 32 0 0 [0] [],
    frame 2 3 0 (natBe 4 1) []]
theorem test_hyp_frames : frames.map meets = List.replicate 7 true ∧ frames.map frameOp = [1, 3, 5, 16, 17, 32, 2] := by decide +kernel
theorem test_hyp_requests :
    (let s := fabric
     let d := s.connPartDef 5
     winKind d 0 = 1 ∧ winVol d 0 = 6 ∧ winMax d 0 = 4096 ∧ winKind d 1 = 2 ∧ s.volLocked 6 = false ∧ (s.vol 6).isSealed = false ∧ s.dev.inService = true ∧ s.openTo 5 = true ∧
     s.unitsFit 5 1 = true ∧ s.energyFits 1 = true ∧ s.partUnits 0 + 1 ≤ partQuota d ∧ partFirstTag d ≤ 9 ∧ 9 ≤ partLastTag d ∧ connTrigRate (s.connEntry 5) ≠ 0 ∧ (s.conn 5).tokens ≠ 0) := by
  decide
theorem test_hyp_ports :
    (let b := fabric.storedItem 8 0
     fabric.fabUp = true ∧ fabric.portUp 0 = true ∧ 2 ≤ fabric.f (Reg.portLink 0) ∧ portEnable b = false) ∧
    (let s := ({ fabric with nv := { config := [(8 * 65536, [3, 0, 0xB5, 0x88, 2, 0, 0, 0, 0, 1, 100, 0])] } } : State).setF (Reg.portLink 0) 1
     let b := s.storedItem 8 0
     s.fabUp = true ∧ bit (s.f Reg.portEn) 0 = true ∧ s.f (Reg.portLink 0) < 2 ∧ portEnable b = true ∧ portMac b ≠ List.replicate 6 0 ∧ portFallback b = true ∧ portOnlyKx b = false) ∧
    fabric.installer .pcie = true ∧
    (let s := ({ fabric with fab := { fabric.fab with portCfg := [(0, [1, 0x80, 0xB5, 0x88, 2, 0, 0, 0, 0, 1, 100, 0])] } } : State)
     bit (portPfc (s.port 0)) 7 = true ∧ (49152 ≤ 49152 ∧ ¬ 49152 ≤ 49151 ∧ 24575 < 24576) ∧ bit ((s.setF (Reg.portPaused 0) 128).f (Reg.portPaused 0)) 7 = true ∧
     bit ((s.setF (Reg.portXoff 0) 128).f (Reg.portXoff 0)) 7 = true) := by decide
theorem test_hyp_connections :
    (let x := fabric.conn 5
     (fabric.fabUp = true ∧ x.st = 3 ∧ x.una < x.top ∧ x.holdHello = false ∧ x.holdUntil ≤ fabric.time.uptime) ∧ x.holdUntil = 0 ∧ x.tries + 1 < connRetry (fabric.connEntry 5) ∧
     x.movedOnce = false ∧ connSealed (fabric.connEntry 5) = false) ∧
    (let s := fabric.setConn 5 { st := 3, una := 0, top := 1, tries := 1, movedOnce := true }
     connRetry (s.connEntry 5) ≤ (s.conn 5).tries + 1 ∧ (s.conn 5).movedOnce = true) ∧
    (let s : State := { fabric with tab := { fabric.tab with connNext := [(5, [])] } }
     s.tab.connNext.get? 5 = some [] ∧ (s.conn 5).atBoundary = true ∧ connValid [] = false) ∧
    (let s := fabric.setConn 5 { st := 3, quarantined := true }
     s.fabUp = true ∧ partDur (s.connPartDef 5) ≠ 0 ∧ (s.conn 5).quarantined = true ∧ bit 0x80000005 31 = true ∧ 0x80000005 % 256 = 5) ∧
    (let s := fabric.setConn 5 { st := 3, vioNow := 1 }
     partThresh (s.connPartDef 5) ≤ (s.conn 5).vioNow + 1) := by decide
/-- A firing of a cairn. -/
def fire (c action : Nat) : Firing := { cairn := c, number := 1, kind := 5, t0 := 0, t0Field := 0, depth := 0, action := action }
theorem test_hyp_cairns :
    host.cairnOk 511 notify = true ∧
    (let s : State := { host with crn := { queue := [fire 511 0] } }
     s.crn.queue = fire 511 0 :: [] ∧ s.crn.running.length < 4 ∧ s.dev.serves = true) ∧
    (let s : State := ({ host with crn := { running := [fire 511 0] } } : State).setCairn 511 { entry := notify, state := 2 }
     s.crn.running.find? (fun g => g.cairn == 511) = some (fire 511 0) ∧ (fire 511 0).action < (s.cairn 511).actions ∧ leAt (slice (s.cairn 511).entry 32 16) 0 1 = 4 ∧
     (s.cairn 511).actions ≤ (fire 511 1).action) ∧
    (host.vol 6).kind = 1 ∧ (host.vol 6).sanitize = false ∧ (host.vol 5).kind ≠ 1 ∧ (host.nv.pins.filter fun p => p.vol == 6).length < 16 := by decide

/-! ### The recorder, the timers and the USB port -/

theorem test_hyp_recorder :
    ((sevRate 0x2020).2 ≠ 0 ∧ ({ host with evr := { buckets := [(0x2020, ⟨0, 0⟩)] } } : State).evr.buckets.get? 0x2020 = some ⟨0, 0⟩) ∧ host.evr.shut = false ∧
    (let r : EvRec := { code := 0, kind := 0, area := 1, sev := 0, src := 0, time := 0, p1 := 0, p2 := 0, p3 := 0, p4 := 0 }
     let s : State := { host with evr := { staging := List.replicate 256 r } }
     256 ≤ s.evr.staging.length ∧ s.evr.staging ≠ [] ∧
     (let u : State := { host with nv := { amber := List.replicate 4095 r } }
      u.nv.amber.length + (u.evr.staging.filter fun r => r.area == 1).length = 4095)) := by decide +kernel
theorem test_hyp_timers :
    (let s := ((host.setF (Reg.tmrRun 7) 1).setF (Reg.tmrMode 7) 2).setF (Reg.tmrPeriod 7) 2
     s.f (Reg.tmrRun 7) = 1 ∧ s.f (Reg.tmrCount 7) + 1 < s.f (Reg.tmrPeriod 7) ∧ (s.setF (Reg.tmrCount 7) 1).f (Reg.tmrPeriod 7) ≤ (s.setF (Reg.tmrCount 7) 1).f (Reg.tmrCount 7) + 1 ∧
     s.f (Reg.tmrLink 7) ≠ 2 ∧ s.gateOn 7 = true) ∧
    (let s := (host.setF (Reg.tmrMaster 7) 0).setF (Reg.tmrLink 7) 2
     s.f (Reg.tmrMaster 7) = 0 ∧ s.f (Reg.tmrLink 7) = 2) ∧
    host.dieUp = true ∧ host.dev ≠ .recovery ∧ host.installer .pcie = true ∧ (bit host.time.gpioIn 3 ≠ true) ∧ (host.f (Reg.gpioFunc 3) = 0) := by decide
/-- The USB port attached and configured, with the maker's role. -/
def usb : State := { host with usb := { vbus := true, attached := true, configured := true }, roles := { usb := 2 }, img := { session := some (1, 1) } }
theorem test_hyp_usb :
    (host.usb.attached = false ∧ host.dev = .ready ∧ usb.dieUp = true ∧ usb.usb.attached = true) ∧ (usb.descriptor 1 0).isSome = true ∧ (usb.descriptor 4 0).isSome = false ∧
    (pageKnown 2 = true ∧ (let d := natLe 8 32 ++ natLe 4 (2 ^ 21) ++ natLe 4 0
                           d.length = 16 ∧ leAt d 12 4 = 0 ∧ 4 ≤ leAt d 8 4 ∧ leAt d 8 4 ≤ 2 ^ 21 ∧ leAt d 8 4 % 32 = 0 ∧ leAt d 0 8 % 32 = 0)) ∧
    (let s : State := { flash [] with roles := { usb := 2 } }
     let e := s.lunEntry 127
     s.lunHealthy 127 = true ∧ (1024 * 256 - 1) / max 1 (lunPages e) < lunBlocks e ∧ ¬ (1024 * 256) / max 1 (lunPages e) < lunBlocks e ∧ s.dev.inService = true ∧ 2 ≤ s.roles.usb) := by decide
theorem test_hyp_usb_requests :
    1 ≤ usb.roles.usb ∧ usb.unstreamed.holdLeft 1 = none ∧ usb.unstreamed.sessionOn 1 = some 1 ∧ usb.openTo 6 = true ∧ usb.unitsFit 6 1 = true ∧ usb.energyFits 1 = true ∧
    usb.unstreamed.poolRoom 1 = true ∧ (1023 ≤ 1023 ∧ 1023 + 1 ≤ 1024) ∧ (natLe 4096 0).length = 4096 ∧
    (let s : State := { usb with usb := { usb.usb with stream := some (1023, 1) } }
     s.usb.stream = some (1023, 1) ∧ s.usb.halt1 = false) ∧
    (let s : State := { usb with roles := { usb := 2, chal := [(1, { role := 2, ctr := 0, bytes := [] })] } }
     s.roles.chal.get? 1 ≠ none) := by decide +kernel

/-! ### The whole machine -/

theorem test_hyp_runs :
    ((State.reset.setF Reg.maxSpeed 4).pending = [] ∧ ({ State.reset with pending := [.wearCheck, .perstDeassert] } : State).pending = .wearCheck :: [.perstDeassert]) ∧
    (∀ c ∈ ({ State.reset with pending := [.wearCheck, .perstDeassert] } : State).pending.take 2, c.answersChallenge = false) ∧ State.reset.nv.floor ≤ 64 ∧
    ({ State.reset with nv := { floor := 64 } } : State).nv.floor ≤ 64 := by decide
theorem test_hyp_words : (Instr.addi 9 15 15 true 0xFFFF).wellFormed = true ∧ (belEncode (.addi 9 15 15 true 0xFFFF)).isSome = true ∧
    belDecode 9 .clean [] 0x09000008 = some (.addi 9 4 0 false 8) := by decide

end Sys2Proof.Tests
end

section
/-! PROOFS. Register accesses (R7 to R10, R12 to R15, R522): one lemma for each kind of access, and the statement from them. -/

namespace Sys2Proof.Machine

/-! ### Reserved addresses (R8) -/

theorem ignoredWrite_counts (s : State) : Counts s 0x03 s.ignoredWrite := ⟨s, .refl _, .refl _⟩

theorem regWord_reserved (s : State) (p : Path) {a : Nat} (hw : regWriter a = none) : s.regWord p a = 0 := by
  simp [State.regWord, hw]

theorem readEffect_reserved (s : State) (p : Path) {a : Nat} (lo n : Nat) (hw : regWriter a = none) : s.readEffect p a lo n = s := by
  simp [State.readEffect, hw]

theorem reserved_access (s : State) (p : Path) (a : BitVec 20) (v : Word) (hr : s.reaches p = true) (hv : s.dev ≠ .recovery)
    (h1 : a.toNat < 0x10000) (h4 : a.toNat % 4 = 0) (hd : inDebug a.toNat = false) (hm : a.toNat < 0x800 ∨ 0x908 ≤ a.toNat)
    (hw : regWriter a.toNat = none) :
    exec (.readClear p a .b4) s = .next (s.emit (.regRead 0)) ∧ Answers (exec (.registerWrite p a v .b4) s) (Counts s 0x03) := by
  rw [exec_readClear, exec_registerWrite, readClear_run s p a hr h1 h4 hd hm, registerWrite_run s p a v hr h1 h4 hd hm hv,
    regWord_reserved s p hw, readEffect_reserved s p 0 4 hw, hw]
  exact ⟨rfl, _, rfl, ignoredWrite_counts s⟩

/-! ### Halves of 64-bit values (R10) -/

@[simp] theorem l64Low_l64Offset (x : L64) : l64Low (l64Offset x) = some x := by cases x <;> rfl
@[simp] theorem regWriter_l64Offset (x : L64) : regWriter (l64Offset x) = some .any := by cases x <;> decide
@[simp] theorem fieldsAt_l64Offset (x : L64) : fieldsAt (l64Offset x) = [] := by cases x <;> decide
@[simp] theorem needsService_l64Offset (x : L64) : needsService (l64Offset x) = false := by cases x <;> rfl
@[simp] theorem clearStatus_l64Offset (s : State) (x : L64) (lo n : Nat) : s.clearStatus (l64Offset x) lo n = s := by cases x <;> rfl

/-- The offsets of the low halves lie in none of the windows that a read serves apart. -/
theorem l64Offset_place (x : L64) : l64Offset x < 0x10000 ∧ l64Offset x % 4 = 0 ∧ inDebug (l64Offset x) = false ∧ 0x908 ≤ l64Offset x := by
  cases x <;> decide

theorem holdKey_inj {p q : Path} {x y : L64} (h : holdKey q y = holdKey p x) : q = p ∧ y = x := by
  revert h
  cases p <;> cases q <;> cases x <;> cases y <;> decide

theorem regWord_low (s : State) (p : Path) (x : L64) (hv : s.dev ≠ .recovery) : s.regWord p (l64Offset x) = s.wide x % 2 ^ 32 := by
  simp [State.regWord, notRunning_low, hv]

theorem readEffect_low (s : State) (p : Path) (x : L64) (lo n : Nat) (hv : s.dev ≠ .recovery) :
    s.readEffect p (l64Offset x) lo n = s.latchHigh p x := by
  simp [State.readEffect, notRunning_low, hv, State.clearFields]

theorem busRead_low (s : State) (p : Path) (x : L64) (hv : s.dev ≠ .recovery) :
    s.busRead p (l64Offset x) 4 = (s.wide x % 2 ^ 32, s.latchHigh p x) := by
  obtain ⟨h1, h4, hd, hm⟩ := l64Offset_place x
  have ha : l64Offset x / 4 * 4 = l64Offset x := by omega
  unfold State.busRead
  simp only [ha, h4, hd, Bool.false_eq_true, if_false, regWord_low s p x hv, readEffect_low s p x 0 4 hv]
  rw [if_neg (by omega), if_neg (by omega)]
  simp [cutWord]

theorem l64LowRead_latches (s : State) (p : Path) (x : L64) (hr : s.reaches p = true) (hv : s.dev ≠ .recovery) :
    exec (.l64LowRead p x) s = .next ((s.latchHigh p x).emit (.regRead (s.wide x % 2 ^ 32))) := by
  rw [exec_l64LowRead, execL64LowRead, if_neg (by simp [hr]), busRead_low s p x hv]
  rfl

/-- The holding register that a low read of `x` on path `p` fills is the one that the next high read returns. -/
theorem readHigh_latched (s : State) (p : Path) (x : L64) (o : Out) (hr : s.reaches p = true) (hv : s.dev ≠ .recovery) :
    let t := (s.latchHigh p x).emit o
    exec (.readClear p (BitVec.ofNat 20 (l64Offset x + 4)) .b4) t = .next (t.emit (.regRead (s.wide x / 2 ^ 32 % 2 ^ 32))) := by
  intro t
  have hold : t.time.holding.get 0 (holdKey p x) = s.wide x / 2 ^ 32 % 2 ^ 32 := Map.get_set_self _ _ _ _
  rw [exec_readClear, readHigh t p x hr hv, hold, Nat.mod_mod]

/-! ### Static fields (R12, R13) -/

theorem registerWrite_hqBase (s : State) (p : Path) (v : Word) (hr : s.reaches p = true) (hv : s.dev ≠ .recovery) :
    exec (.registerWrite p 0x1000 v .b4) s =
      .next (if s.blockRuns 0x1000 = true then s.staticDropped 0x1000 else s.setF Reg.hqBaseLo (v.toNat / 512)) := by
  rw [exec_registerWrite, registerWrite_any s p 0x1000 0x1000 v rfl hr hv (by decide) (by decide) (by decide) (by decide) (by decide) rfl
    (by decide), effect_hqBase]

theorem blockRuns_rings (s : State) : s.blockRuns 0x1000 = true ↔ ∃ r ∈ s.rings, r.2.state ≠ 0 := by
  simp [State.blockRuns]

theorem hqBase_idle (s : State) (p : Path) (v : Word) (hr : s.reaches p = true) (hv : s.dev ≠ .recovery)
    (hi : ∀ r ∈ s.rings, r.2.state = 0) :
    exec (.registerWrite p 0x1000 v .b4) s = .next (s.setF Reg.hqBaseLo (v.toNat / 512)) := by
  have hb : ¬ s.blockRuns 0x1000 = true := fun h =>
    let ⟨r, hm, hn⟩ := (blockRuns_rings s).mp h
    hn (hi r hm)
  rw [registerWrite_hqBase s p v hr hv, if_neg hb]

theorem hqBase_running (s : State) (p : Path) (v : Word) (hr : s.reaches p = true) (hv : s.dev ≠ .recovery)
    (hn : ∃ r ∈ s.rings, r.2.state ≠ 0) :
    exec (.registerWrite p 0x1000 v .b4) s = .next (s.staticDropped 0x1000) := by
  rw [registerWrite_hqBase s p v hr hv, if_pos ((blockRuns_rings s).mpr hn)]

/-! ### Boundary fields and the role that writes them (R14, R522) -/

theorem rxDly_place (n : Fin 8) : let a := (BitVec.ofNat 20 (0x9004 + 0x100 * n.val)).toNat
    a < 0x10000 ∧ a % 4 = 0 ∧ inDebug a = false ∧ (a < 0x800 ∨ 0x908 ≤ a) := by
  revert n; decide

theorem registerWrite_rxDly (s : State) (p : Path) (v : Word) (n : Fin 8) (hr : s.reaches p = true) (hv : s.dev ≠ .recovery) :
    exec (.registerWrite p (BitVec.ofNat 20 (0x9004 + 0x100 * n.val)) v .b4) s = .next (if s.installer p = true
      then { s with staged := s.staged.put (Reg.rxDly n.val).key (v.toNat % 256) } else s.ignoredWrite) := by
  obtain ⟨h1, h4, hd, hm⟩ := rxDly_place n
  rw [exec_registerWrite, registerWrite_run s p _ v hr h1 h4 hd hm hv, writer_rxDly, ← effect_rxDly s v n]
  simp only [notRunning_rxDly, State.mayWrite, Bool.false_eq_true, false_or, ite_not]

theorem shown_staged (s : State) (f : Field) (x : Nat) (h : f.access ≠ .wo) :
    ({ s with staged := s.staged.put f.key x } : State).shown f = x := by
  rw [State.shown, if_neg h]
  exact Map.get_put_self _ _ _ _

/-! ### Live fields (R12) -/

theorem registerWrite_h2dMask (s : State) (p : Path) (v : Word) (hr : s.reaches p = true) (hv : s.dev ≠ .recovery) (hu : s.mbxUp = true) :
    exec (.registerWrite p 0x200C v .b4) s = .next (s.setF Reg.h2dMask v.toNat) := by
  have hf : fieldsAt 0x200C = [Reg.h2dMask] := by decide
  have hx : v.toNat / 2 ^ Reg.h2dMask.lo % 2 ^ Reg.h2dMask.width = v.toNat := by
    rw [show Reg.h2dMask.lo = 0 from rfl, Nat.pow_zero, Nat.div_one]
    exact Nat.mod_eq_of_lt v.isLt
  have effect : s.regEffect 0x200C v.toNat = s.writeField v.toNat Reg.h2dMask := by
    simp [State.regEffect, State.writeMbx, hu, State.writeFields, hf]
  have field : s.writeField v.toNat Reg.h2dMask = s.setF Reg.h2dMask v.toNat := congrArg (s.setF Reg.h2dMask) hx
  rw [exec_registerWrite, registerWrite_any s p 0x200C 0x200C v rfl hr hv (by decide) (by decide) (by decide) (by decide) (by decide) rfl
    (by decide), effect, field]

/-! ### Fields cleared by ones and by reads (R9) -/

theorem registerWrite_errors (s : State) (p : Path) (v : Word) (hr : s.reaches p = true) (hv : s.dev ≠ .recovery) :
    exec (.registerWrite p 0x40C v .b4) s = .next (s.regEffect 0x40C v.toNat) := by
  rw [exec_registerWrite, registerWrite_any s p 0x40C 0x40C v rfl hr hv (by decide) (by decide) (by decide) (by decide) (by decide) rfl
    (by decide)]

theorem readClear_resets (s : State) (p : Path) (hr : s.reaches p = true) :
    exec (.readClear p 0x408 .b4) s = .next ((s.readEffect p 0x408 0 4).emit (.regRead (s.regWord p 0x408 % 2 ^ 32))) := by
  rw [exec_readClear, readClear_run s p 0x408 hr (by decide) (by decide) (by decide) (by decide)]
  rfl

/-- Settles O13: the statement's clauses in order, each from the lemma about its kind of access. -/
theorem registerAccess : Obligations.RegisterAccess := by
  unfold Obligations.RegisterAccess
  intro s p a v x n hr hv
  dsimp only
  refine ⟨?reserved, ?latched, ⟨?held, fun _ _ => holdKey_inj, rfl⟩, ?idle, ?running, ?staged, ?role, ?live, ?ones, ?cleared⟩
  case reserved => exact reserved_access s p a v hr hv
  case latched =>
    rintro t rfl
    exact ⟨l64LowRead_latches s p x hr hv, readHigh_latched s p x _ hr hv⟩
  case held => rw [exec_readClear, readHigh s p x hr hv]
  case idle => exact hqBase_idle s p v hr hv
  case running =>
    intro hn
    rw [hqBase_running s p v hr hv hn]
    exact static_dropped s
  case staged =>
    intro hi
    rw [registerWrite_rxDly s p v n hr hv, if_pos hi]
    exact ⟨_, rfl, rfl, shown_staged s _ _ (by simp [Reg.rxDly, rwB])⟩
  case role =>
    intro hi
    rw [registerWrite_rxDly s p v n hr hv, if_neg (by simp [hi])]
    exact ⟨_, rfl, ignoredWrite_counts s⟩
  case live => exact registerWrite_h2dMask s p v hr hv
  case ones =>
    rw [registerWrite_errors s p v hr hv]
    exact ones_clear s v.toNat
  case cleared =>
    rw [readClear_resets s p hr]
    exact resets_clear s p hv

end Sys2Proof.Machine
end

section
/-! PROOFS. Faults of Belion instructions (R141, R145, R147, R149, R150): when the operations that instructions share fault, and the
statement from them. -/

namespace Sys2Proof.Machine

/-- The instruction `i`, executed on engine `e`, faults with cause `c` at the engine's PC, on the word that spells it. -/
def Faults (s : State) (e : Fin 10) (c : Nat) (i : Instr) : Prop :=
  ∃ w, belEncode i = some w ∧ exec i s = .next (s.engineFault e.val c (s.engine e.val).pc w)

/-! ### The engine's kind (R145) -/

theorem Faults.wrongKind {s : State} {e : Fin 10} {kinds : Nat} {w : Word} {f : State → Engine → Ran} {i : Instr}
    (h : s.engineRuns e.val = true) (hk : bit kinds (kindOf e.val) = false) (hx : exec i s = s.run e kinds w f)
    (hw : belEncode i = some w) : Faults s e 2 i :=
  ⟨w, hw, hx.trans (fault2 h hk)⟩

/-! ### WAIT without end (R150) -/

theorem wait_faults {s : State} {e : Fin 10} (kd : BitVec 4) {ka : BitVec 4} (f : Bool) (h : s.engineRuns e.val = true)
    (hl : (s.engine e.val).reg ka = 0) : Faults s e 1 (.wait e kd ka f 0) :=
  ⟨_, rfl, (exec_wait ..).trans (faultC h (if_pos ⟨rfl, hl⟩))⟩

/-! ### Loads, stores and SWP (R141, R147) -/

section Memory

variable {s : State} {e : Fin 10} {n : Nat} {ka : BitVec 4} {imm : BitVec 16} (major : Nat) (kd : BitVec 4) (chk : MemCheck)

theorem load_misaligned (h : s.engineRuns e.val = true) (ha : (s.engine e.val).addr ka imm % n ≠ 0) :
    s.load e major n kd ka imm chk = .next (s.engineFault e.val 3 (s.engine e.val).pc (fmtB major kd ka false imm)) :=
  faultC h (if_pos ha)

theorem store_misaligned (h : s.engineRuns e.val = true) (ha : (s.engine e.val).addr ka imm % n ≠ 0) :
    s.store e major n kd ka imm chk = .next (s.engineFault e.val 3 (s.engine e.val).pc (fmtB major kd ka false imm)) :=
  faultC h (if_pos ha)

theorem swp_misaligned (h : s.engineRuns e.val = true) (ha : (s.engine e.val).addr ka imm % 4 ≠ 0) :
    execSwp e kd ka imm chk s = .next (s.engineFault e.val 3 (s.engine e.val).pc (fmtB 0x16 kd ka false imm)) :=
  faultC h (if_pos ha)

theorem load_outside (h : s.engineRuns e.val = true) (ha : (s.engine e.val).addr ka imm % n = 0)
    (ho : spaceOf e.val ((s.engine e.val).addr ka imm) = .outside) :
    s.load e major n kd ka imm chk = .next (s.engineFault e.val 4 (s.engine e.val).pc (fmtB major kd ka false imm)) :=
  faultC h (by simp [ha, ho])

theorem store_outside (h : s.engineRuns e.val = true) (ha : (s.engine e.val).addr ka imm % n = 0)
    (ho : spaceOf e.val ((s.engine e.val).addr ka imm) = .outside) :
    s.store e major n kd ka imm chk = .next (s.engineFault e.val 4 (s.engine e.val).pc (fmtB major kd ka false imm)) :=
  faultC h (by simp [ha, ho])

theorem swp_outside (h : s.engineRuns e.val = true) (ha : (s.engine e.val).addr ka imm % 4 = 0)
    (ho : spaceOf e.val ((s.engine e.val).addr ka imm) = .outside) :
    execSwp e kd ka imm chk s = .next (s.engineFault e.val 4 (s.engine e.val).pc (fmtB 0x16 kd ka false imm)) :=
  faultC h (by simp [ha, ho])

end Memory

/-! ### Jumps and branches (R149) -/

/-- An instruction whose body jumps to `a` faults where `a` is no word of program memory. -/
theorem Faults.jump {s t : State} {e : Fin 10} {w : Word} {f : State → Engine → Ran} {i : Instr} {a : Nat}
    (h : s.engineRuns e.val = true) (hx : exec i s = s.run e 7 w f) (hw : belEncode i = some w)
    (hf : f s (s.engine e.val) = .jump t a) :
    (a % 4 ≠ 0 → Faults s e 3 i) ∧ (a % 4 = 0 → progSize e.val ≤ a → Faults s e 5 i) :=
  ⟨fun h4 => ⟨w, hw, hx.trans ((faultJ h hf).1 h4)⟩, fun h4 hp => ⟨w, hw, hx.trans ((faultJ h hf).2 h4 hp)⟩⟩

section Jump

variable {s : State} {e : Fin 10} {ka : BitVec 4} {imm : BitVec 16}

theorem jr_faults (h : s.engineRuns e.val = true) :
    ((s.engine e.val).addr ka imm % 4 ≠ 0 → Faults s e 3 (.jr e ka imm)) ∧
    ((s.engine e.val).addr ka imm % 4 = 0 → progSize e.val ≤ (s.engine e.val).addr ka imm →
      Faults s e 5 (.jr e ka imm)) :=
  Faults.jump h (exec_jr ..) rfl rfl

theorem jalr_faults (kd : BitVec 4) (h : s.engineRuns e.val = true) :
    ((s.engine e.val).addr ka imm % 4 ≠ 0 → Faults s e 3 (.jalr e kd ka imm)) ∧
    ((s.engine e.val).addr ka imm % 4 = 0 → progSize e.val ≤ (s.engine e.val).addr ka imm →
      Faults s e 5 (.jalr e kd ka imm)) :=
  Faults.jump h (exec_jalr ..) rfl rfl

end Jump

section Branch

variable {s : State} {e : Fin 10} {cond : BitVec 4} {off : BitVec 22}

theorem bCond_outside (h : s.engineRuns e.val = true) (hc : cond ≠ 15) (ht : (s.engine e.val).cond cond.toNat = true)
    (h4 : branchTarget (s.engine e.val).pc off % 4 = 0) (hp : progSize e.val ≤ branchTarget (s.engine e.val).pc off) :
    Faults s e 5 (.bCond e cond off) :=
  (Faults.jump h (exec_bCond ..) rfl ((if_neg hc).trans (if_pos ht))).2 h4 hp

theorem callCond_outside (h : s.engineRuns e.val = true) (hc : cond ≠ 15) (ht : (s.engine e.val).cond cond.toNat = true)
    (h4 : branchTarget (s.engine e.val).pc off % 4 = 0) (hp : progSize e.val ≤ branchTarget (s.engine e.val).pc off) :
    Faults s e 5 (.callCond e cond off) :=
  (Faults.jump h (exec_callCond ..) rfl ((if_neg hc).trans (if_pos ht))).2 h4 hp

end Branch

/-- Settles O60: each clause says when an instruction `Faults`, and `fault_of` says what the fault leaves. -/
theorem belionFaults : Obligations.BelionFaults := by
  unfold Obligations.BelionFaults
  intro s e kd ka kb f imm op n data r cond off chk h x faults a b
  have leaves {c : Nat} {i : Instr} : Faults s e c i → faults c i := fun ⟨w, hw, hx⟩ => ⟨w, hw, fault_of hx rfl⟩
  have wrong {kinds : Nat} {i : Instr} {w : Word} {f : State → Engine → Ran} (hk : bit kinds (kindOf e.val) = false)
      (hx : exec i s = s.run e kinds w f) (hw : belEncode i = some w := by rfl) : faults 2 i := leaves (.wrongKind h hk hx hw)
  refine ⟨?keystone, ?mailbox, ?hook, ?table, ?vein, ?wait, ?misaligned4, ?misaligned2, ?target, ?outside4, ?outside, ?branch⟩
  case keystone =>
    intro he
    have k := kind_not1 he
    exact ⟨wrong k (exec_twr ..), wrong k (exec_tsync ..), wrong k (exec_halt ..), wrong k (exec_wdkick ..), wrong k (exec_vload ..),
      wrong k (exec_hload ..), wrong k (exec_imgchk ..), wrong k (exec_setstate ..)⟩
  case mailbox =>
    intro he
    have k := kind_not3 he
    exact ⟨wrong k (exec_mbdb ..), wrong k (exec_mback ..), wrong k (exec_mbrd ..), wrong k (exec_mbwr ..), wrong k (exec_mbsend ..),
      wrong k (exec_mbfree ..), wrong k (exec_mbstat ..), wrong k (exec_cfire ..), wrong k (exec_gpout ..), wrong k (exec_gpin ..),
      wrong k (exec_hlog ..)⟩
  case hook => exact fun he => wrong (kind_not2 he) (exec_hend ..)
  case table => exact fun he => wrong (kind_not5 he) (exec_tld ..)
  case vein =>
    intro he
    have k := kind_not4 he
    exact ⟨wrong k (exec_cesel ..), wrong k (exec_cmd ..), wrong k (exec_addr ..), wrong k (exec_dout ..), wrong k (exec_din ..),
      wrong k (exec_bres ..), wrong k (exec_doutm ..), wrong k (exec_dinm ..), wrong k (exec_rdb ..), wrong k (exec_bdly ..),
      wrong k (exec_wpset ..), wrong k (exec_bmode ..), wrong k (exec_opget ..), wrong k (exec_opdone ..)⟩
  case wait => exact fun hl => leaves (wait_faults kd f h hl)
  case misaligned4 =>
    intro ha
    exact ⟨leaves ⟨_, rfl, load_misaligned _ kd chk h ha⟩, leaves ⟨_, rfl, store_misaligned _ kd chk h ha⟩,
      leaves ⟨_, rfl, swp_misaligned kd chk h ha⟩, leaves ((jr_faults h).1 ha), leaves ((jalr_faults kd h).1 ha)⟩
  case misaligned2 =>
    intro ha
    exact ⟨leaves ⟨_, rfl, load_misaligned _ kd chk h ha⟩, leaves ⟨_, rfl, store_misaligned _ kd chk h ha⟩⟩
  case target =>
    intro h4 hp
    exact ⟨leaves ((jr_faults h).2 h4 hp), leaves ((jalr_faults kd h).2 h4 hp)⟩
  case outside4 =>
    intro ha ho
    exact ⟨leaves ⟨_, rfl, load_outside _ kd chk h ha ho⟩, leaves ⟨_, rfl, store_outside _ kd chk h ha ho⟩,
      leaves ⟨_, rfl, swp_outside kd chk h ha ho⟩⟩
  case outside =>
    intro ho
    exact ⟨fun ha => ⟨leaves ⟨_, rfl, load_outside _ kd chk h ha ho⟩, leaves ⟨_, rfl, store_outside _ kd chk h ha ho⟩⟩,
      leaves ⟨_, rfl, load_outside _ kd chk h (Nat.mod_one a) ho⟩, leaves ⟨_, rfl, store_outside _ kd chk h (Nat.mod_one a) ho⟩⟩
  case branch =>
    intro hc ht h4 hp
    exact ⟨leaves (bCond_outside h hc ht h4 hp), leaves (callCond_outside h hc ht h4 hp)⟩

end Sys2Proof.Machine
end

section
/-! PROOFS. The rollback floor (R550): the fuses read as a thermometer, and no step or run clears one. -/

namespace Sys2Proof.Machine

/-! ### The thermometer of the fuses -/

theorem fuses_value {s : State} (h : s.nv.floor ≤ 64) : leNat (s.calRow 0x620 8) = 2 ^ s.nv.floor - 1 := by
  have fits : 2 ^ s.nv.floor - 1 < 256 ^ 8 :=
    calc 2 ^ s.nv.floor - 1 < 2 ^ s.nv.floor := Nat.sub_lt (Nat.two_pow_pos _) Nat.one_pos
      _ ≤ 2 ^ 64 := Nat.pow_le_pow_right (by decide) h
      _ = 256 ^ 8 := by decide
  rw [fuses_eq, leNat_natLe, Nat.mod_eq_of_lt fits]

/-! ### The floor over steps and runs -/

/-- From `s` to `t` no fuse is cleared, and no more than 64 are set. -/
def FusesKept (s t : State) : Prop := s.nv.floor ≤ t.nv.floor ∧ (s.nv.floor ≤ 64 → t.nv.floor ≤ 64)

theorem FusesKept.refl (s : State) : FusesKept s s := ⟨Nat.le_refl _, id⟩

theorem FusesKept.trans {s t u : State} (h : FusesKept s t) (k : FusesKept t u) : FusesKept s u :=
  ⟨Nat.le_trans h.1 k.1, k.2 ∘ h.2⟩

theorem step_keeps_fuses {s t : State} (h : step s = .next t) : FusesKept s t := by
  have calm := (step_ends false s fun _ _ _ => nofun).get h
  exact calm.floor

/-- A reflexive and transitive relation that every step keeps holds over every run. -/
theorem run_keeps {R : State → State → Prop} (refl : ∀ s, R s s) (trans : ∀ {s t u : State}, R s t → R t u → R s u)
    (hstep : ∀ {s t : State}, step s = .next t → R s t) (n : Nat) {s t : State} (h : Sys2Proof.core.run n s = .next t) : R s t := by
  induction n generalizing s with
  | zero => cases h; exact refl _
  | succ n ih =>
    have ends := step_ends false s fun _ _ _ => nofun
    generalize e : step s = r at ends
    cases ends with
    | @next u _ =>
      rw [run_next Sys2Proof.core n s u e] at h
      exact trans (hstep e) (ih h)

/-- Settles O56: the fuses' value is a thermometer of the floor, and every step keeps the fuses, so every run does. -/
theorem rollbackFloorNeverFalls : Obligations.RollbackFloorNeverFalls := by
  unfold Obligations.RollbackFloorNeverFalls
  refine ⟨fun s i hf _ => ?thermometer, fun _ _ => step_keeps_fuses, fun n _ _ => run_keeps .refl .trans step_keeps_fuses n⟩
  case thermometer => rw [fuses_value hf, Nat.testBit_two_pow_sub_one]

end Sys2Proof.Machine
end

section
/-! PROOFS. Steps and runs of the machine: the front command, the queue, the roles of the paths and the records of Amber (R511, R519,
R521, R527). -/

namespace Sys2Proof.Machine

/-! ### One step and the queue -/

theorem step_front {c : Instr} {rest : List Instr} {s : State} (h : s.pending = c :: rest) : step s = exec c { s with pending := rest } := by
  unfold step
  rw [h]

theorem step_idle {s : State} (h : s.pending = []) : step s = .next s.tick := by
  unfold step
  rw [h]

/-- Settles O53: `step` splits on the queue. -/
theorem stepTakesTheFrontCommand : Obligations.StepTakesTheFrontCommand := by
  unfold Obligations.StepTakesTheFrontCommand
  exact ⟨fun _ _ _ => step_front, fun _ => step_idle, rfl, rfl⟩

theorem step_tail (s : State) : Answers (step s) fun t => t.pending = s.pending.tail := by
  have ends := step_ends false s fun _ _ _ => nofun
  generalize step s = r at ends
  cases ends with
  | next calm => exact ⟨_, rfl, calm.queue⟩

theorem run_drop (n : Nat) (s : State) : Answers (Sys2Proof.core.run n s) fun t => t.pending = s.pending.drop n := by
  induction n generalizing s with
  | zero => exact ⟨s, rfl, rfl⟩
  | succ n ih =>
    obtain ⟨u, hu, hq⟩ := step_tail s
    obtain ⟨t, ht, hd⟩ := ih u
    refine ⟨t, (run_next Sys2Proof.core n s u hu).trans ht, ?_⟩
    exact hd.trans (hq ▸ List.drop_tail)

/-- Settles O55: every step takes the head of the queue, so `n` steps take its first `n` commands. -/
theorem everyStepTakesOneCommand : Obligations.EveryStepTakesOneCommand := by
  unfold Obligations.EveryStepTakesOneCommand
  refine ⟨step_tail, run_drop, fun s => ?empties⟩
  case empties =>
    obtain ⟨t, ht, hd⟩ := run_drop s.pending.length s
    exact ⟨t, ht, hd.trans List.drop_length⟩

/-! ### Roles -/

/-- From `s` to `t` no path's role rises. -/
def RolesBelow (s t : State) : Prop :=
  t.roles.pcie ≤ s.roles.pcie ∧ t.roles.usb ≤ s.roles.usb ∧ (t.roles.jtag = true → s.roles.jtag = true)

theorem RolesBelow.refl (s : State) : RolesBelow s s := ⟨Nat.le_refl _, Nat.le_refl _, id⟩

theorem RolesBelow.trans {s t u : State} (h : RolesBelow s t) (k : RolesBelow t u) : RolesBelow s u :=
  ⟨Nat.le_trans k.1 h.1, Nat.le_trans k.2.1 h.2.1, h.2.2 ∘ k.2.2⟩

theorem step_rolesBelow {s t : State} (hc : ∀ c rest, s.pending = c :: rest → c.answersChallenge = false) (h : step s = .next t) :
    RolesBelow s t := by
  have calm := (step_ends true s fun c rest e _ => hc c rest e).get h
  exact calm.roles

theorem run_rolesBelow (n : Nat) {s t : State} (hc : ∀ c ∈ s.pending.take n, c.answersChallenge = false)
    (h : Sys2Proof.core.run n s = .next t) : RolesBelow s t := by
  induction n generalizing s with
  | zero => cases h; exact .refl _
  | succ n ih =>
    obtain ⟨u, hu, hq⟩ := step_tail s
    rw [run_next Sys2Proof.core n s u hu] at h
    have front : RolesBelow s u := step_rolesBelow (fun c rest e => hc c (by simp [e])) hu
    have later : ∀ c ∈ u.pending.take n, c.answersChallenge = false := by
      intro c hm
      rw [hq] at hm
      refine hc c ?_
      cases e : s.pending with
      | nil => simp [e] at hm
      | cons d rest =>
        rw [e] at hm
        exact List.mem_cons_of_mem d hm
    exact front.trans (ih later h)

/-- Settles O57: a step whose command is no answer to a challenge is `Calm` also in the roles; a run goes by induction on its length. -/
theorem onlyResponsesRaiseARole : Obligations.OnlyResponsesRaiseARole := by
  unfold Obligations.OnlyResponsesRaiseARole
  exact ⟨fun _ _ => step_rolesBelow, fun n _ _ => run_rolesBelow n⟩

/-! ### Amber -/

theorem step_keeps_amber {s t : State} (h : step s = .next t) : s.nv.amber <+: t.nv.amber := by
  have calm := (step_ends false s fun _ _ _ => nofun).get h
  exact calm.amber

/-- Settles O58: every step is `Calm`, which keeps Amber at the head of what comes after, and that relation is reflexive and transitive. -/
theorem amberKeepsItsRecords : Obligations.AmberKeepsItsRecords := by
  unfold Obligations.AmberKeepsItsRecords
  exact ⟨fun _ _ => step_keeps_amber, fun n s t =>
    run_keeps (R := fun s t => s.nv.amber <+: t.nv.amber) (fun _ => List.prefix_rfl) List.IsPrefix.trans step_keeps_amber n⟩

/-! ### Reset -/

theorem reset_field (f : Field) : State.reset.f f = f.reset := rfl

theorem reset_engine (e : Nat) : State.reset.engine e = { run := decide (e = 0) } := by
  by_cases h : e = 0
  · subst h; rfl
  · simp [State.engine, State.reset, Map.get, h, Ne.symm h]

/-- Settles O54: each field of the reset state is read off; Keystone is the only engine it holds. -/
theorem resetState : Obligations.ResetState := by
  unfold Obligations.ResetState
  exact ⟨⟨rfl, rfl, rfl, rfl⟩, ⟨reset_field, rfl⟩, ⟨rfl, rfl, rfl, rfl⟩, ⟨rfl, rfl⟩, ⟨rfl, rfl, rfl, rfl, rfl⟩, fun _ => rfl, fun _ => rfl,
    reset_engine, rfl, rfl, rfl, rfl, rfl⟩

end Sys2Proof.Machine
end

section
/-! PROOFS. Belion words read back as their instructions, and no bit of a word is passed over (R136, R144). -/

namespace Sys2Proof.Machine

/-! ### An instruction's word reads back -/

theorem shift_fits (n : BitVec 5) : (n.setWidth 16).toNat < 32 ∧ (n.setWidth 16).setWidth 5 = n := by
  revert n; decide

theorem cycles_fit (n : BitVec 3) : (n.setWidth 12).toNat < 8 ∧ (n.setWidth 12).setWidth 3 = n := by
  revert n; decide

theorem keep_true {p : Prop} [Decidable p] {i : Instr} (h : p) : keep p i = some i := if_pos h

theorem decB_shift (e : Fin 10) (chk : MemCheck) (kd ka : BitVec 4) (f : Bool) (n : BitVec 5) :
    decB e chk 0x07 kd ka f (n.setWidth 16) = some (.shli e kd ka f n) ∧
    decB e chk 0x08 kd ka f (n.setWidth 16) = some (.shri e kd ka f n) ∧
    decB e chk 0x09 kd ka f (n.setWidth 16) = some (.sari e kd ka f n) := by
  obtain ⟨hlt, hn⟩ := shift_fits n
  simp only [decB, keep_true hlt, hn, and_self]

theorem decB_sev (e : Fin 10) (chk : MemCheck) (hi : BitVec 8) : decB e chk 0x25 0 0 false (hi ++ 0#8) = some (.sev e hi) := by
  obtain ⟨hz, hh⟩ := sev_hi hi
  rw [decB, hh]
  exact keep_true ⟨rfl, rfl, rfl, hz⟩

theorem decBus_addr (e : Fin 10) (bus : Bytes) (ka : BitVec 4) (n : BitVec 3) : decBus e bus 0 ka (n.setWidth 12) 0x02 = some (.addr e ka n) := by
  obtain ⟨hlt, hn⟩ := cycles_fit n
  rw [decBus, hn]
  exact keep_true ⟨rfl, hlt⟩

theorem belEncode_reads {i : Instr} {w : Word} (wf : i.wellFormed = true) (h : belEncode i = some w) :
    ∃ e chk bus, belDecode e chk bus w = some i := by
  cases i with
  | add e kd ka kb f | adc e kd ka kb f | sub e kd ka kb f | sbc e kd ka kb f | and e kd ka kb f | or e kd ka kb f | xor e kd ka kb f
  | andn e kd ka kb f | shl e kd ka kb f | shr e kd ka kb f | sar e kd ka kb f | ror e kd ka kb f | mul e kd ka kb f | mulhu e kd ka kb f
  | minu e kd ka kb f | maxu e kd ka kb f | crcw e kd ka kb f | cmp e ka kb f | tst e ka kb f | clz e kd ka f | popc e kd ka f
  | bswap e kd ka f => obtain rfl := Option.some.inj h; exact ⟨e, .clean, [], dec_decAlu (by decide) ..⟩
  | mbdb e ka | mback e kd ka f | mbrd e kd ka kb | mbwr e kd ka kb | mbsend e kd ka f | mbfree e ka | mbstat e kd =>
    obtain rfl := Option.some.inj h; exact ⟨e, .clean, [], dec_decMbx (by decide) ..⟩
  | tld e kd ka kb | twr e kd ka kb | tsync e kd ka f => obtain rfl := Option.some.inj h; exact ⟨e, .clean, [], dec_decTab (by decide) ..⟩
  | timel e kd ka kb | timeh e kd ka kb | clkl e kd ka kb | clkh e kd ka kb => obtain rfl := Option.some.inj h; exact ⟨e, .clean, [], dec_decTime (by decide) ..⟩
  | nop e | fence e kd ka kb => obtain rfl := Option.some.inj h; exact ⟨e, .clean, [], dec_decMisc (by decide) ..⟩
  | addi e kd ka f imm | andi e kd ka f imm | ori e kd ka f imm | xori e kd ka f imm | cmpi e ka f imm | lui e kd imm | jr e ka imm
  | jalr e kd ka imm | wait e kd ka f mask | eclr e kd imm | eget e kd imm =>
    obtain rfl := Option.some.inj h; exact ⟨e, .clean, [], dec_B (by decide) (by decide) ..⟩
  | ldw e kd ka imm chk | ldh e kd ka imm chk | ldb e kd ka imm chk | stw e kd ka imm chk | sth e kd ka imm chk | stb e kd ka imm chk
  | swp e kd ka imm chk => obtain rfl := Option.some.inj h; exact ⟨e, chk, [], dec_B (by decide) (by decide) ..⟩
  | shli e kd ka f n => obtain rfl := Option.some.inj h; exact ⟨e, .clean, [], (dec_B (by decide) (by decide) ..).trans (decB_shift e .clean kd ka f n).1⟩
  | shri e kd ka f n => obtain rfl := Option.some.inj h; exact ⟨e, .clean, [], (dec_B (by decide) (by decide) ..).trans (decB_shift e .clean kd ka f n).2.1⟩
  | sari e kd ka f n => obtain rfl := Option.some.inj h; exact ⟨e, .clean, [], (dec_B (by decide) (by decide) ..).trans (decB_shift e .clean kd ka f n).2.2⟩
  | sev e hi => obtain rfl := Option.some.inj h; exact ⟨e, .clean, [], (dec_B (by decide) (by decide) ..).trans (decB_sev e .clean hi)⟩
  | bCond e cond off =>
    obtain rfl := Option.some.inj h
    have hc : cond ≠ 15 := by simpa [Instr.wellFormed] using wf
    exact ⟨e, .clean, [], (dec_C (m := 0) e .clean [] cond off hc).1⟩
  | callCond e cond off =>
    obtain rfl := Option.some.inj h
    have hc : cond ≠ 15 := by simpa [Instr.wellFormed] using wf
    exact ⟨e, .clean, [], (dec_C (m := 0) e .clean [] cond off hc).2⟩
  | addr e ka n => obtain rfl := Option.some.inj h; exact ⟨e, .clean, [], (dec_decBus (by decide) ..).trans (decBus_addr e [] ka n)⟩
  | dinm e ka op data => obtain rfl := Option.some.inj h; exact ⟨e, .clean, data, dec_decBus (by decide) ..⟩
  | rdb e kd byte => obtain rfl := Option.some.inj h; exact ⟨e, .clean, [byte], dec_decBus (by decide) ..⟩
  | cesel e ka op | cmd e ka op | dout e ka | din e ka op | bres e kd ka | doutm e ka op | bdly e kd ka op | wpset e kd ka op
  | bmode e kd ka op => obtain rfl := Option.some.inj h; exact ⟨e, .clean, [], dec_decBus (by decide) ..⟩
  | opget e kd ka op | opdone e ka op => obtain rfl := Option.some.inj h; exact ⟨e, .clean, [], dec_decQueue (by decide) ..⟩
  | halt e kd ka op | wdkick e | vload e kd ka op | hload e kd ka op | imgchk e kd ka op | setstate e kd ka op =>
    obtain rfl := Option.some.inj h; exact ⟨e, .clean, [], dec_decKey (by decide) ..⟩
  | hend e op | cfire e kd ka op | gpout e kd ka op | gpin e kd ka op | hlog e kd ka op =>
    obtain rfl := Option.some.inj h; exact ⟨e, .clean, [], dec_decShared (by decide) ..⟩
  | _ => cases h

/-! ### A word that reads is its instruction's word -/

section Writes

variable {e : Fin 10} {chk : MemCheck} {bus : Bytes} {w : Word} {i : Instr} {m : Nat}

/-- A format A word of major `m`: what its reader reads, `m`'s writer writes back. -/
theorem readA_writes {k : BitVec 4 → BitVec 4 → BitVec 4 → Bool → Nat → Option Instr} (hm : majorOf w = m)
    (hk : ∀ {kd ka kb f g}, k kd ka kb f g = some i → belEncode i = some (fmtA m g kd ka kb f)) (h : readA w k = some i) :
    belEncode i = some w := by
  obtain ⟨gap, hr⟩ := readA_some h
  rw [hk hr, ← hm, wordA w gap]

theorem readD_writes {k : BitVec 4 → BitVec 4 → BitVec 12 → Nat → Option Instr} (hm : majorOf w = m)
    (hk : ∀ {kd ka op g}, k kd ka op g = some i → belEncode i = some (fmtD m g kd ka op)) (h : readD w k = some i) :
    belEncode i = some w := by
  rw [hk h, ← hm, wordD w]

theorem belDecode_writes (h : belDecode e chk bus w = some i) : belEncode i = some w := by
  unfold belDecode at h
  split at h
  next hm => exact readA_writes hm enc_decAlu h
  next hm =>
    split at h
    next => cases h
    next => cases h; exact congrArg some (hm ▸ wordC w)
  next hm =>
    split at h
    next => cases h
    next => cases h; exact congrArg some (hm ▸ wordC w)
  next hm => exact readA_writes hm enc_decMbx h
  next hm => exact readA_writes hm enc_decTab h
  next hm => exact readA_writes hm enc_decTime h
  next hm => exact readA_writes hm enc_decMisc h
  next hm => exact readD_writes hm enc_decBus h
  next hm => exact readD_writes hm enc_decQueue h
  next hm => exact readD_writes hm enc_decKey h
  next hm => exact readD_writes hm enc_decShared h
  next =>
    split at h
    next gap => rw [enc_decB h, wordB w gap]
    next => cases h

end Writes

/-- Settles O59: an instruction's word reads back, by cases on the instruction; a word that reads is written back, by cases on its
major. -/
theorem belionWordsReadBack : Obligations.BelionWordsReadBack := by
  unfold Obligations.BelionWordsReadBack
  exact ⟨fun _ _ => belEncode_reads, fun _ _ _ _ _ => belDecode_writes⟩

end Sys2Proof.Machine
end

section
/-! PROOFS. Belion register and immediate operations (R135, R137, R146): one lemma for each way in which an operation sets its flags,
then each operation's result. -/

namespace Sys2Proof.Machine

/-! ### Results of sums and differences -/

theorem sum_plain (a b : Word) : sumOf a b false = a + b := by simp [sumOf, b2n]

theorem over_plain (a b : Word) : overOf a b (a + b) = decide ((a + b).toInt ≠ a.toInt + b.toInt) := by
  have h := over_sum a b false
  rwa [sum_plain, show ((b2n false : Nat) : Int) = 0 from rfl, Int.add_zero] at h

theorem over_minus (a b : Word) : overOf a (~~~b) (a - b) = decide ((a - b).toInt ≠ a.toInt - b.toInt) := by
  have h := over_diff a b true
  rwa [sum_complement, show ((1 - b2n true : Nat) : Int) = 0 from rfl, Int.sub_zero] at h

theorem min_word (a b : Word) : (if a.toNat ≤ b.toNat then a else b) = BitVec.ofNat 32 (min a.toNat b.toNat) := by
  split
  next h => rw [Nat.min_eq_left h, BitVec.ofNat_toNat, BitVec.setWidth_eq]
  next h => rw [Nat.min_eq_right (by omega), BitVec.ofNat_toNat, BitVec.setWidth_eq]

theorem max_word (a b : Word) : (if a.toNat ≤ b.toNat then b else a) = BitVec.ofNat 32 (max a.toNat b.toNat) := by
  split
  next h => rw [Nat.max_eq_right h, BitVec.ofNat_toNat, BitVec.setWidth_eq]
  next h => rw [Nat.max_eq_left (by omega), BitVec.ofNat_toNat, BitVec.setWidth_eq]

theorem ones_eq (a : Word) : ones a = (List.range 32).countP a.getLsbD := List.countP_eq_length_filter.symm

theorem getD_outLeft (a : Word) (n : Nat) (c : Bool) : (outLeft a n).getD c = if n = 0 then c else a.getLsbD (32 - n) := by
  unfold outLeft; split <;> rfl

theorem getD_outRight (a : Word) (n : Nat) (c : Bool) : (outRight a n).getD c = if n = 0 then c else a.getLsbD (n - 1) := by
  unfold outRight; split <;> rfl

theorem upper_half (imm : BitVec 16) : uimm imm <<< 16 = BitVec.ofNat 32 (imm.toNat * 65536) := by
  refine BitVec.eq_of_toNat_eq ?_
  simp [uimm, Nat.shiftLeft_eq]

section Operations

variable {s : State} {e : Fin 10} {func : Nat} {kd ka kb : BitVec 4} {f : Bool} {r : Word} {c v : Bool}

/-! ### Register operations -/

theorem opA_sums {w : Word → Word} {k : Engine → Bool} (h : Runs s e) (hr : sumOf ((s.engine e.val).reg ka) (w ((s.engine e.val).reg kb)) (k (s.engine e.val)) = r)
    (hc : carryOf ((s.engine e.val).reg ka) (w ((s.engine e.val).reg kb)) (k (s.engine e.val)) = c)
    (hv : overOf ((s.engine e.val).reg ka) (w ((s.engine e.val).reg kb)) r = v) :
    Answers (s.opA e func kd ka kb f (fun x a b => sumOf a (w b) (k x)) fun x a b r => x.flagAdd a (w b) r (k x))
      (Only s e.val ((s.engine e.val).result f kd r c v)) := by
  subst hr hc hv
  exact opA_result h (flagAdd_result ..) fun _ _ _ _ => rfl

theorem opA_logic {op : Engine → Word → Word → Word} (h : Runs s e)
    (hr : op (s.engine e.val) ((s.engine e.val).reg ka) ((s.engine e.val).reg kb) = r) :
    Answers (s.opA e func kd ka kb f op zn) (Only s e.val ((s.engine e.val).result f kd r (s.engine e.val).c (s.engine e.val).v)) := by
  subst hr
  exact opA_result h (flagZN_result ..) fun _ _ _ _ => rfl

theorem opA_shifts {op : Engine → Word → Word → Word} {out : Word → Word → Option Bool} (h : Runs s e)
    (hr : op (s.engine e.val) ((s.engine e.val).reg ka) ((s.engine e.val).reg kb) = r)
    (hc : (out ((s.engine e.val).reg ka) ((s.engine e.val).reg kb)).getD (s.engine e.val).c = c) :
    Answers (s.opA e func kd ka kb f op fun x a b r => x.flagShift r (out a b))
      (Only s e.val ((s.engine e.val).result f kd r c (s.engine e.val).v)) := by
  subst hr hc
  exact opA_result h (flagShift_result ..) fun _ _ _ _ => rfl

/-- CMP and TST put flags in the engine and no result: what an operation with S = 1 does that writes k0. -/
theorem flags_answer {word : Word} {g : Engine → Engine} {y : Engine} (h : Runs s e) (hp : (g (s.engine e.val)).pc = (s.engine e.val).pc)
    (hy : ((g (s.engine e.val)).setReg 0 r).next = y) :
    Answers (s.run e 7 word fun s x => .done (s.setEngine e.val (g x))) (Only s e.val y) := by
  subst hy
  exact run_engine h (kinds_all _) rfl hp

end Operations

/-- Settles O1: the operations by the way they set their flags. -/
theorem arithmeticAndLogic : Obligations.ArithmeticAndLogic := by
  unfold Obligations.ArithmeticAndLogic
  intro s e kd ka kb f h
  simp only [exec_add, exec_adc, exec_sub, exec_sbc, exec_and, exec_or, exec_xor, exec_andn, exec_shl, exec_shr, exec_sar, exec_ror,
    exec_mul, exec_mulhu, exec_minu, exec_maxu, exec_cmp, exec_tst, exec_clz, exec_popc, exec_bswap, exec_crcw]
  refine ⟨?add, ?adc, ?sub, ?sbc, opA_logic h rfl, opA_logic h rfl, opA_logic h rfl, opA_logic h rfl, ?shl, ?shr, ?sar, ?ror,
    opA_logic h rfl, opA_logic h rfl, opA_logic h (min_word ..), opA_logic h (max_word ..), ?cmp, ?tst,
    opA_logic h (congrArg _ (clz_eq _)), opA_logic h (congrArg _ (ones_eq _)), opA_logic h (swap_eq _), opA_logic h rfl⟩
  case add => exact opA_sums h (sum_plain ..) rfl (over_plain ..)
  case adc => exact opA_sums h rfl rfl (over_sum ..)
  case sub => exact opA_sums h (sum_complement ..) (carryOf_sub ..) (over_minus ..)
  case sbc =>
    have diff := borrow_complement ((s.engine e.val).reg ka) ((s.engine e.val).reg kb) (s.engine e.val).c
    exact opA_sums h diff (carry_diff ..) (diff ▸ over_diff ..)
  case shl => exact opA_shifts h rfl (getD_outLeft ..)
  case shr => exact opA_shifts h rfl (getD_outRight ..)
  case sar => exact opA_shifts h rfl (getD_outRight ..)
  case ror => exact opA_shifts h rfl (getD_outRight ..)
  case cmp =>
    refine flags_answer h rfl ((flagAdd_result _ true 0 _ _ _ true).trans ?_)
    rw [sum_complement, carryOf_sub, over_minus]
  case tst => exact flags_answer h rfl (flagZN_result _ true 0 _)

/-! ### Immediate operations -/

/-- Settles O2: as O1, with the immediate for the second operand. -/
theorem immediateOperations : Obligations.ImmediateOperations := by
  unfold Obligations.ImmediateOperations
  intro s e kd ka f imm m h
  simp only [exec_addi, exec_andi, exec_ori, exec_xori, exec_cmpi, exec_shli, exec_shri, exec_sari, exec_lui]
  rw [← simm_int, ← uimm_nat, ← simm_toInt]
  have logic {op : Word → Word} {major : Nat} : Answers (s.opB e major kd ka f imm op fun x _ r => x.flagZN r)
      (Only s e.val ((s.engine e.val).result f kd (op ((s.engine e.val).reg ka)) (s.engine e.val).c (s.engine e.val).v)) :=
    opB_result h (flagZN_result ..) fun _ _ _ => rfl
  refine ⟨?addi, logic, logic, logic, ?cmpi, ?shli, ?shri, ?sari, ?lui⟩
  case addi =>
    refine opB_result h ((flagAdd_result ..).trans ?_) fun _ _ _ => rfl
    rw [sum_plain, over_plain]
    rfl
  case cmpi =>
    refine flags_answer h rfl ((flagAdd_result _ true 0 _ _ _ true).trans ?_)
    rw [sum_complement, carryOf_sub, over_minus]
  case shli => exact opB_result h ((flagShift_result ..).trans (by rw [getD_outLeft])) fun _ _ _ => rfl
  case shri => exact opB_result h ((flagShift_result ..).trans (by rw [getD_outRight])) fun _ _ _ => rfl
  case sari => exact opB_result h ((flagShift_result ..).trans (by rw [getD_outRight])) fun _ _ _ => rfl
  case lui =>
    refine opB_result h ?_ fun _ _ _ => rfl
    rw [upper_half]
    rfl

end Sys2Proof.Machine
end

section
/-! PROOFS. Belion loads, stores and SWP, branches and jumps, and the event instructions (R139 to R142, R146 to R151). -/

namespace Sys2Proof.Machine

theorem Only.refl (s : State) (e : Nat) : Only s e (s.engine e) s := ⟨rfl, fun _ _ => rfl, rfl⟩

/-! ### Data memory -/

section Memory

variable {s : State} {e : Fin 10} {kd ka : BitVec 4} {imm : BitVec 16}

theorem st_calibration {major n off : Nat} {c : MemCheck} (h : Runs s e)
    (ha : spaceOf e.val ((s.engine e.val).addr ka imm) = .calibration off) (h4 : (s.engine e.val).addr ka imm % n = 0) :
    Answers (s.store e major n kd ka imm c) (Only s e.val (s.engine e.val).next) := by
  refine run_done h (kinds_all _) ?_ rfl
  simp only [h4, ha, ne_eq, not_true_eq_false, if_false]

/-- SWP stores the old kd and leaves in it what the word held before. -/
theorem swp_data (h : Runs s e) (ha : (s.engine e.val).addr ka imm < dataSize e.val) (h4 : (s.engine e.val).addr ka imm % 4 = 0) :
    Answers (execSwp e kd ka imm .clean s) (Stored s e.val ((s.engine e.val).addr ka imm) (natLe 4 ((s.engine e.val).reg kd).toNat)
      ((s.engine e.val).setReg kd (BitVec.ofNat 32 (leNat (s.dataBytes e.val ((s.engine e.val).addr ka imm) 4)))).next) := by
  have run : Answers (execSwp e kd ka imm .clean s) (Only (s.setData e.val ((s.engine e.val).addr ka imm) (natLe 4 ((s.engine e.val).reg kd).toNat))
      e.val { ((s.setData e.val ((s.engine e.val).addr ka imm) (natLe 4 ((s.engine e.val).reg kd).toNat)).engine e.val).setReg kd
        (BitVec.ofNat 32 (leNat (s.dataBytes e.val ((s.engine e.val).addr ka imm) 4))) with pc := (s.engine e.val).pc + 4 }) := by
    refine run_put h (kinds_all _) ?_
    simp only [h4, space_data ha, ne_eq, not_true_eq_false, if_false, reduceCtorEq, State.noteCheck, State.withReg]
  refine run.mono fun t only => cast ?_ ((Stored.setData s e.val _ _).then only ?_)
  · congr 1
    rw [State.engine_setData]
    unfold Engine.setReg Engine.next
    split <;> split <;> rfl
  · unfold Engine.setReg
    split <;> rfl

end Memory

/-- Settles O3: the spaces in turn; in each the address is `Engine.addr`. -/
theorem loadsAndStores : Obligations.LoadsAndStores := by
  unfold Obligations.LoadsAndStores
  intro s e kd ka imm h
  simp only [exec_ldw, exec_ldh, exec_ldb, exec_stw, exec_sth, exec_stb, exec_swp]
  rw [← simm_int]
  refine ⟨?data, ?window, ?calibration⟩
  case data =>
    intro ha
    have one : (s.engine e.val).addr ka imm % 1 = 0 := Nat.mod_one _
    exact ⟨fun h4 => ⟨ld_data h ha h4, st_data h ha h4, swp_data h ha h4⟩, fun h2 => ⟨ld_data h ha h2, st_data h ha h2⟩,
      ld_data h ha one, st_data h ha one⟩
  case window =>
    intro he c off hoff ha
    have space : spaceOf e.val ((s.engine e.val).addr ka imm) = .window off := by
      rw [show (s.engine e.val).addr ka imm = _ from ha, he]
      exact space_window hoff
    exact ⟨ld_window h space, st_window h space, st_window h space, st_window h space (Nat.mod_one _)⟩
  case calibration =>
    intro he c off hoff ha h4
    have space : spaceOf e.val ((s.engine e.val).addr ka imm) = .calibration off := by
      rw [show (s.engine e.val).addr ka imm = _ from ha, he]
      exact space_calibration hoff
    exact ⟨ld_cal h space h4, st_calibration h space h4⟩

/-! ### Branches and jumps -/

theorem jump_answers {s t : State} {e : Fin 10} {word : Word} {f : State → Engine → Ran} {a : Nat} {y : Engine}
    (h : Runs s e) (hf : f s (s.engine e.val) = .jump t a) (ht : Only s e.val y t) (h4 : a % 4 = 0) (hm : a < progSize e.val) :
    Answers (s.run e 7 word f) (Only s e.val { y with pc := a }) := by
  refine ⟨_, run_jump h.1 (kinds_all _) hf h4 hm, ?_⟩
  rw [ht.self]
  exact ht.after (Only.setEngine ..)

theorem stay_in_sequence {s : State} {e : Fin 10} {word : Word} {f : State → Engine → Ran} (h : Runs s e)
    (hf : f s (s.engine e.val) = .done s) : Answers (s.run e 7 word f) (Only s e.val (s.engine e.val).next) :=
  run_done h (kinds_all _) hf rfl

/-- Settles O4: a taken branch or jump goes to its target, which is a word of program memory. -/
theorem branchesAndJumps : Obligations.BranchesAndJumps := by
  unfold Obligations.BranchesAndJumps
  intro s e kd ka cond off imm target h h4 hm
  simp only [exec_bCond, exec_callCond, exec_jr, exec_jalr]
  refine ⟨?taken, ?passed, ?jumps⟩
  case taken =>
    intro holds hto
    have named : cond ≠ 15 := by
      rintro rfl
      exact Bool.false_ne_true holds
    rw [← cond_table _ _ named] at holds
    have reaches : branchTarget (s.engine e.val).pc off = target := target_eq hto (Nat.lt_of_lt_of_le hm (progSize_le _))
    exact ⟨jump_answers h ((if_neg named).trans ((if_pos holds).trans (reaches ▸ rfl))) (Only.refl ..) h4 hm,
      jump_answers h ((if_neg named).trans ((if_pos holds).trans (reaches ▸ rfl))) (Only.setEngine ..) h4 hm⟩
  case passed =>
    intro named holds
    rw [← cond_table _ _ named] at holds
    have fails : ¬ (s.engine e.val).cond cond.toNat = true := by simp [holds]
    exact ⟨stay_in_sequence h ((if_neg named).trans (if_neg fails)), stay_in_sequence h ((if_neg named).trans (if_neg fails))⟩
  case jumps =>
    rintro rfl
    rw [← simm_int] at h4 hm ⊢
    exact ⟨jump_answers h rfl (Only.refl ..) h4 hm, jump_answers h rfl (Only.setEngine ..) h4 hm⟩

/-! ### Event flags -/

section Events

variable {s : State} {e : Fin 10} {kd ka : BitVec 4} {f : Bool} {mask : BitVec 16} {w : Wait}

theorem wait_returns (h : Runs s e) (hm : (s.engine e.val).ev &&& mask ≠ 0) :
    Answers (execWait e kd ka f mask s) (Only s e.val
      (({ s.engine e.val with ev := (s.engine e.val).ev &&& ~~~mask, z := false, n := false } : Engine).setReg kd
        (((s.engine e.val).ev &&& mask).setWidth 32)).next) := by
  have named : ¬ (mask = 0 ∧ (s.engine e.val).reg ka = 0) := by
    rintro ⟨rfl, _⟩
    exact hm BitVec.and_zero
  refine run_engine h (kinds_all _) ?_ (by simp)
  simp only [if_neg named, if_pos hm, Engine.endWait, Engine.takeFlags, ← runs_none h.1, Bool.false_eq_true, if_false]

theorem wait_waits (h : Runs s e) (hm : (s.engine e.val).ev &&& mask = 0) (named : ¬ (mask = 0 ∧ (s.engine e.val).reg ka = 0)) :
    Answers (execWait e kd ka f mask s) (Only s e.val { s.engine e.val with
      waiting := some { kd := kd, mask := mask, limit := ((s.engine e.val).reg ka).toNat, start := s.time.uptime } }) := by
  refine ⟨_, run_stay h.1 (kinds_all _) ?_, Only.setEngine ..⟩
  simp only [if_neg named, hm, ne_eq, not_true_eq_false, if_false]

theorem waitEnd_event (hu : s.waitEnds e.val = true) (hp : (s.engine e.val).pc + 4 < progSize e.val)
    (hw : (s.engine e.val).waiting = some w) (hm : (s.engine e.val).ev &&& w.mask ≠ 0) :
    Answers (execWaitEnd e false s) (Only s e.val (({ s.engine e.val with
      ev := (s.engine e.val).ev &&& ~~~w.mask, z := false, n := false, waiting := none } : Engine).setReg w.kd
        (((s.engine e.val).ev &&& w.mask).setWidth 32)).next) := by
  refine ⟨(s.setEngine e.val ((s.engine e.val).endWait w.kd w.mask false)).advance e.val (s.engine e.val).pc
    (fmtB 0x24 w.kd 0 false w.mask), ?_, advance_put hp ?_⟩
  · have some_flag : ¬ (s.engine e.val).ev &&& w.mask = 0#16 := hm
    simp [execWaitEnd, hw, hu, some_flag, ok]
  · simp [Engine.endWait, Engine.takeFlags, Engine.next]

theorem waitEnd_limit (hu : s.waitEnds e.val = true) (hw : (s.engine e.val).waiting = some w) (hl : w.limit ≠ 0) :
    execWaitEnd e true s =
      let t := if (s.engine e.val).ev &&& w.mask = 0 then s else s.late
      .next ((t.setEngine e.val ((t.engine e.val).endWait w.kd w.mask true)).advance e.val (s.engine e.val).pc
        (fmtB 0x24 w.kd 0 false w.mask)) := by
  simp [execWaitEnd, hw, hu, hl, ok]

/-- The limit's end leaves 0 in kd, Z = 1 and N = 0, and does not look at the flags. -/
theorem endWait_expired (x : Engine) (kd : BitVec 4) (mask : BitVec 16) :
    x.endWait kd mask true = ({ x with z := true, n := false, waiting := none } : Engine).setReg kd 0 := rfl

end Events

/-- Settles O5: a WAIT by the masked flags, its two ends, and the three instructions on flags. -/
theorem eventInstructions : Obligations.EventInstructions := by
  unfold Obligations.EventInstructions
  intro s e kd ka f mask hi w
  simp only [exec_wait, exec_waitEnd, exec_sev, exec_eclr, exec_eget]
  refine ⟨fun h => ⟨wait_returns h, wait_waits h, ?sev, ?eclr, ?eget⟩, fun hu hp hw => ⟨waitEnd_event hu hp hw, ?limit, ?late⟩⟩
  case sev =>
    rw [← sev_imm]
    exact run_engine h (kinds_all _) rfl rfl
  case eclr => exact run_engine h (kinds_all _) rfl (Engine.setReg_pc ..)
  case eget => exact run_engine h (kinds_all _) rfl (Engine.setReg_pc ..)
  case limit =>
    intro hl hm
    rw [waitEnd_limit hu hw hl, if_pos hm]
    exact ⟨_, rfl, advance_put hp (by simp [endWait_expired, Engine.next])⟩
  case late =>
    intro hl hm
    rw [waitEnd_limit hu hw hl, if_neg hm]
    exact ⟨_, rfl, s.late, ⟨s, .refl _, .refl _⟩, advance_put hp (by rw [endWait_expired])⟩

end Sys2Proof.Machine
end

section
/-! PROOFS. Belion mailbox instructions, tables and time (R18, R146, R152, R153, R224 to R230). -/

namespace Sys2Proof.Machine

/-! ### Bodies that change the engine and another part -/

/-- An instruction whose body changes the device to `u` and the engine to `y`. -/
theorem run_only {s u t : State} {e : Fin 10} {kinds : Nat} {word : Word} {f : State → Engine → Ran} {y : Engine} (h : Runs s e)
    (hk : bit kinds (kindOf e.val) = true) (hf : f s (s.engine e.val) = .done t) (ht : Only u e.val y t) :
    Answers (s.run e kinds word f) (Only u e.val { y with pc := (s.engine e.val).pc + 4 }) := by
  have self := ht.self
  subst self
  exact (run_seq h hk hf).mono fun _ ho => ht.after ho

theorem Only.withReg (s : State) (e : Nat) (kd : BitVec 4) (v : Nat) :
    Only s e ((s.engine e).setReg kd (BitVec.ofNat 32 v)) (s.withReg e kd v) := Only.setEngine ..

theorem Only.withZ {s t : State} {e : Nat} {y : Engine} (h : Only s e y t) (z : Bool) : Only s e { y with z := z } (t.withZ e z) := by
  have self := h.self
  subst self
  exact h.after (Only.setEngine ..)

/-! ### The mailbox -/

theorem setD2h_masked {s : State} {b : Nat}
    (h : b &&& (0xFFFFFFFF - s.mbx.d2hBits % 2 ^ 32) &&& (0xFFFFFFFF - s.f Reg.d2hMask) = 0) :
    s.setD2h b = { s with mbx.d2hBits := s.mbx.d2hBits ||| b } := if_neg (not_not_intro h)

theorem setD2h_signals {s : State} {b : Nat}
    (h : b &&& (0xFFFFFFFF - s.mbx.d2hBits % 2 ^ 32) &&& (0xFFFFFFFF - s.f Reg.d2hMask) ≠ 0) :
    s.setD2h b = ({ s with mbx.d2hBits := s.mbx.d2hBits ||| b } : State).signal (s.f Reg.mbxVector) := if_pos h

theorem sendD2h_steady (s : State) (n : Nat) : Steady { s.mbxBoundary with
    mbx.d2hFull := withBit s.mbx.d2hFull n true
    mbx.seq := s.mbx.seq - bits s.mbx.seq (4 * n + 3) (4 * n) * 2 ^ (4 * n) + (bits s.mbx.seq (4 * n + 3) (4 * n) + 1) % 16 * 2 ^ (4 * n) }
    (s.sendD2h n) := by
  unfold State.sendD2h
  exact Steady.ite (State.signal_steady ..) (.refl _)

theorem freeH2d_steady {s : State} {n : Nat} (h : bit s.mbx.h2dFull n = true) :
    Steady { s with mbx.h2dFull := withBit s.mbx.h2dFull n false } (s.freeH2d n) := by
  unfold State.freeH2d
  rw [if_pos h]
  exact Steady.ite (State.signal_steady ..) (.refl _)

section Mailbox

variable {s : State} {e : Fin 10} {kd ka kb : BitVec 4} {f : Bool}

theorem mbdb_run (h : Runs s e) (he : e.val ≤ 1) (hu : s.mbxUp = true) (may : s.mayTouch e.val grantD2h ((s.engine e.val).reg ka).toNat = true) :
    Answers (execMbdb e ka s) (Only (s.setD2h ((s.engine e.val).reg ka).toNat) e.val
      { (s.setD2h ((s.engine e.val).reg ka).toNat).engine e.val with pc := (s.engine e.val).pc + 4 }) :=
  run_seq h (kinds_kh he) (by simp only [may, hu, not_true_eq_false, if_false, if_true])

theorem mback_run (h : Runs s e) (he : e.val ≤ 1) (may : s.mayTouch e.val grantH2d ((s.engine e.val).reg ka).toNat = true) :
    let had := s.mbx.h2dBits &&& ((s.engine e.val).reg ka).toNat
    let y := (s.engine e.val).setReg kd (BitVec.ofNat 32 had)
    Answers (execMback e kd ka f s) (Only { s with mbx.h2dBits := s.mbx.h2dBits - had } e.val
      ({ y with z := if f then decide (had = 0) else (s.engine e.val).z } : Engine).next) := by
  intro had y
  have z : y.z = (s.engine e.val).z := by unfold y Engine.setReg; split <;> rfl
  have pc : y.pc = (s.engine e.val).pc := Engine.setReg_pc ..
  have reg : Only { s with mbx.h2dBits := s.mbx.h2dBits - had } e.val y (({ s with mbx.h2dBits := s.mbx.h2dBits - had } : State).withReg e.val kd had) :=
    .withReg ..
  cases f with
  | false =>
    refine (run_only h (kinds_kh he) ?_ reg).mono fun t ho => ?_
    · simp only [may, not_true_eq_false, if_false, Bool.false_eq_true]
      rfl
    · rw [← pc] at ho
      rw [← z]
      exact ho
  | true =>
    refine (run_only h (kinds_kh he) ?_ (reg.withZ (decide (had = 0)))).mono fun t ho => ?_
    · simp only [may, not_true_eq_false, if_false, if_true]
      rfl
    · rw [← pc] at ho
      exact ho

theorem mbsend_run {full : Bool} (h : Runs s e) (he : e.val ≤ 1) (hu : s.mbxUp = true)
    (may : s.mayTouch e.val grantD2hSlots (2 ^ (((s.engine e.val).reg ka).toNat % 8)) = true)
    (hf : bit s.mbx.d2hFull (((s.engine e.val).reg ka).toNat % 8) = full) :
    let u := if full then s else s.sendD2h (((s.engine e.val).reg ka).toNat % 8)
    Answers (execMbsend e kd ka f s) (Only u e.val
      { (u.engine e.val).setReg kd (BitVec.ofNat 32 (b2n (!full))) with z := full, pc := (s.engine e.val).pc + 4 }) := by
  refine run_only h (kinds_kh he) ?_ ((Only.withReg ..).withZ full)
  simp only [slotOf, may, hf, hu, not_true_eq_false, if_false, Bool.not_true, Bool.or_false]

end Mailbox

/-- Settles O6: each instruction's run; what it may touch is what `mayTouch` asks. -/
theorem mailboxInstructions : Obligations.MailboxInstructions := by
  unfold Obligations.MailboxInstructions
  intro s e kd ka kb f h he hu
  simp only [exec_mbdb, exec_mback, exec_mbrd, exec_mbwr, exec_mbsend, exec_mbfree, exec_mbstat]
  refine ⟨?mbdb, fun may => mback_run h he (may_touch may), ?mbrd, ?mbwr, ?full, ?free, ?mbfree, ?mbstat⟩
  case mbdb =>
    intro may
    exact (mbdb_run h he hu (may_touch may)).mono fun t ho => ⟨_, ho, setD2h_masked, setD2h_signals⟩
  case mbrd =>
    intro may
    refine run_engine h (kinds_kh he) ?_ (Engine.setReg_pc ..)
    simp only [slotOf, may_touch may, not_true_eq_false, if_false]
    rfl
  case mbwr =>
    intro may
    refine run_done (t := { s with mbx.d2h := s.mbx.d2h.setBytes _ _ }) h (kinds_kh he) ?_ rfl
    simp only [slotOf, may_touch may, not_true_eq_false, if_false]
    rfl
  case full =>
    intro may hf
    refine (mbsend_run h he hu (may_touch may) hf).mono fun t ho => ?_
    simpa [Engine.next, b2n] using ho
  case free =>
    intro may hf
    exact (mbsend_run h he hu (may_touch may) hf).mono fun t ho => ⟨_, sendD2h_steady s _, ho⟩
  case mbfree =>
    intro may hf
    refine (run_seq (t := s.freeH2d (((s.engine e.val).reg ka).toNat % 8)) h (kinds_kh he) ?_).mono fun t ho =>
      ⟨_, freeH2d_steady hf, ho⟩
    simp only [slotOf, may_touch may, hu, not_true_eq_false, if_false, if_true]
  case mbstat => exact run_engine h (kinds_kh he) rfl (Engine.setReg_pc ..)

/-! ### Tables and time -/

theorem entryWord_ok {t i w : Nat} (ht : t < 4) (hi : i < tableCount t) (hw : 4 * w < tableEntry t) : entryWordOk t i w = true := by
  simp [entryWordOk, ht, hi, hw]

theorem tableEntry_pos (t : Nat) : 4 * 0 < tableEntry t := by
  unfold tableEntry
  split <;> decide

theorem storeWord_engine (s : State) (t i w v e : Nat) : (s.storeWord t i w v).engine e = s.engine e := by
  unfold State.storeWord
  split <;> rfl

section Tables

variable {s : State} {e : Fin 10} {kd ka kb : BitVec 4} {f : Bool}

theorem tld_run (h : Runs s e) (ok : entryWordOk (((s.engine e.val).reg ka).toNat % 8) (((s.engine e.val).reg ka).toNat / 256 % 256)
      ((s.engine e.val).reg kb).toNat = true)
    (he : e.val = 0 ∨ (2 ≤ e.val ∧ ((s.engine e.val).reg ka).toNat % 8 = 3 ∧ ((s.engine e.val).reg ka).toNat / 256 % 256 / 16 = e.val - 2)) :
    Answers (execTld e kd ka kb s) (Only s e.val ((s.engine e.val).setReg kd (BitVec.ofNat 32 (leAt (s.cachedEntry
      (((s.engine e.val).reg ka).toNat % 8) (((s.engine e.val).reg ka).toNat / 256 % 256)) (4 * ((s.engine e.val).reg kb).toNat) 4))).next) := by
  have own : ¬ (e.val ≠ 0 ∧ (((s.engine e.val).reg ka).toNat % 8 ≠ 3 ∨ lunChannel (((s.engine e.val).reg ka).toNat / 256 % 256) ≠ e.val - 2)) := by
    unfold lunChannel
    omega
  refine run_engine h (kinds_kv (he.imp_right And.left)) ?_ (Engine.setReg_pc ..)
  rw [tableOf, indexOf, if_neg (by simp only [ok, own]; simp)]
  rfl

theorem twr_run (h : Runs s e) (he : e.val = 0) (ok : entryWordOk (((s.engine e.val).reg ka).toNat % 8)
      (((s.engine e.val).reg ka).toNat / 256 % 256) ((s.engine e.val).reg kb).toNat = true) (ht : ¬ ((s.engine e.val).reg ka).toNat % 8 < 2) :
    Answers (execTwr e kd ka kb s) (Only (s.storeWord (((s.engine e.val).reg ka).toNat % 8) (((s.engine e.val).reg ka).toNat / 256 % 256)
      ((s.engine e.val).reg kb).toNat ((s.engine e.val).reg kd).toNat) e.val (s.engine e.val).next) := by
  refine run_only h (kinds_k he) ?_ (storeWord_engine s _ _ _ _ e.val ▸ Only.refl ..)
  rw [tableOf, indexOf, if_neg (by simp only [ok, ht]; simp)]

theorem tsync_run (h : Runs s e) (he : e.val = 0) (ht : ((s.engine e.val).reg ka).toNat % 8 < 4)
    (hi : ((s.engine e.val).reg ka).toNat / 256 % 256 < tableCount (((s.engine e.val).reg ka).toNat % 8)) :
    let u := s.startSync (((s.engine e.val).reg ka).toNat % 8) (((s.engine e.val).reg ka).toNat / 256 % 256)
    Answers (execTsync e kd ka f s) (Only u e.val { (u.engine e.val).setReg kd (BitVec.ofNat 32 (b2n s.tab.sync.isSome)) with
      z := !s.tab.sync.isSome, pc := (s.engine e.val).pc + 4 }) := by
  refine run_only h (kinds_k he) ?_ ((Only.withReg ..).withZ (!s.tab.sync.isSome))
  rw [tableOf, indexOf, if_neg (by simp only [entryWord_ok ht hi (tableEntry_pos _), not_true_eq_false, not_false_eq_true])]

theorem setReg_upHold (x : Engine) (kd : BitVec 4) (r : Word) (n : Nat) :
    ({ x with upHold := n } : Engine).setReg kd r = { x.setReg kd r with upHold := n } := by
  unfold Engine.setReg
  split <;> rfl

theorem setReg_calHold (x : Engine) (kd : BitVec 4) (r : Word) (n : Nat) :
    ({ x with calHold := n } : Engine).setReg kd r = { x.setReg kd r with calHold := n } := by
  unfold Engine.setReg
  split <;> rfl

/-- A counter's low half in kd, with its high half kept in the engine. -/
theorem counter_run {word : Word} {g : State → Engine → State} {y : Engine} {v : State → Nat} (h : Runs s e)
    (hg : g s (s.engine e.val) = s.setEngine e.val y) (hy : y.pc = (s.engine e.val).pc) :
    Answers (s.run e 7 word fun s x => .done ((g s x).withReg e.val kd (v s))) (Only s e.val (y.setReg kd (BitVec.ofNat 32 (v s))).next) := by
  refine (run_only h (kinds_all _) rfl (Only.withReg ..)).mono fun t ho => ?_
  rw [hg, State.engine_setEngine_self, ← hy, ← Engine.setReg_pc y kd (BitVec.ofNat 32 (v s))] at ho
  exact (Only.setEngine ..).after ho

end Tables

/-- Settles O7: each instruction's run; TSYNC by whether a sync is under way. -/
theorem tablesTimeAndNothing : Obligations.TablesTimeAndNothing := by
  unfold Obligations.TablesTimeAndNothing
  intro s e kd ka kb f h
  simp only [exec_tld, exec_twr, exec_tsync, exec_timel, exec_timeh, exec_clkl, exec_clkh, exec_nop, exec_fence]
  refine ⟨fun ht hi hw => tld_run h (entryWord_ok ht hi hw), ?twr, ?started, ?dropped, ?timel, ?timeh, ?clkl, ?clkh,
    stay_in_sequence h rfl, stay_in_sequence h rfl⟩
  case twr =>
    intro he hi hw
    refine ⟨fun ht => ?_, fun ht => ?_⟩
    · have run := twr_run (kd := kd) (kb := kb) h he (entryWord_ok (by omega) hi hw) (by omega)
      rwa [ht] at run
    · have run := twr_run (kd := kd) (kb := kb) h he (entryWord_ok (by omega) hi hw) (by omega)
      rwa [ht] at run
  case started =>
    intro he ht hi hs
    obtain ⟨y, rest, tab, table, index, data, ftable, findex, fbusy⟩ := startSync_idle s _ _ (Nat.mod_lt ((s.engine e.val).reg ka).toNat (by decide))
      (Nat.mod_lt (((s.engine e.val).reg ka).toNat / 256) (by decide)) hs
    refine (tsync_run h he ht hi).mono fun v only => ⟨_, y, ?_, rest, tab, table, index, data, ftable, findex, fbusy⟩
    have eng := congrArg (fun t : State => t.engine e.val) rest
    rw [show (s.startSync _ _).engine e.val = s.engine e.val from eng, hs] at only
    exact only
  case dropped =>
    intro he ht hi hs
    have busy : s.tab.sync.isSome = true := Option.isSome_iff_ne_none.mpr hs
    have run := tsync_run (kd := kd) (f := f) h he ht hi
    simp only [State.startSync, busy, if_true] at run
    exact run.mono fun v only => ⟨_, ⟨s, .refl _, State.bump_steady ..⟩, ⟨_, State.record_steady .., .refl _⟩, only⟩
  case timel =>
    rw [← setReg_upHold]
    exact counter_run h rfl rfl
  case timeh => exact run_engine h (kinds_all _) rfl (Engine.setReg_pc ..)
  case clkl =>
    rw [← setReg_calHold]
    exact counter_run h rfl rfl
  case clkh => exact run_engine h (kinds_all _) rfl (Engine.setReg_pc ..)

end Sys2Proof.Machine
end

section
/-! PROOFS. Vein flash-bus operations and the operation queue (R156 to R161). -/

namespace Sys2Proof.Machine

/-! ### Cycles on the bus -/

/-- A bus operation whose body leaves the state `u` and puts the cycle `o` on the bus. -/
theorem cycle_answers {s u : State} {e : Fin 10} {word : Word} {f : State → Engine → Ran} {o : BusCycle} (h : Runs s e) (he : 2 ≤ e.val)
    (hf : f s (s.engine e.val) = .done (u.cycle e.val o)) (hu : u.engine e.val = s.engine e.val) :
    Answers (s.run e 4 word f) (Only { u with out := .flash (e.val - 2) o :: u.out } e.val (s.engine e.val).next) := by
  exact run_only (u := u.cycle e.val o) h (kinds_v he) hf (hu ▸ Only.refl ..)

theorem takeStaged_engine (s : State) (fs : List Field) (e : Nat) (hfs : (fs.map fun f => f.key).Nodup) :
    (s.takeStaged fs).engine e = s.engine e := by
  have rest := congrArg (fun t : State => t.engine e) (takeStaged_takes fs s hfs).rest
  exact rest

theorem busBits (v : Nat) : bits v 1 0 = v % 4 ∧ bits v 7 4 = v / 16 % 16 := by
  simp [bits]

theorem rawRun_ok {a n : Nat} (h1 : 1 ≤ n) (h2 : n ≤ 256) (h3 : a + n ≤ 4096) : rawRunOk a n = true := by
  simp [rawRunOk, h1, h2, h3]

section Bus

variable {s : State} {e : Fin 10} {kd ka : BitVec 4} {p : BitVec 12}

theorem dinm_run {data : Bytes} (h : Runs s e) (he : 2 ≤ e.val) (hb : (s.fchan (e.val - 2)).transfer = none)
    (ok : rawRunOk ((s.engine e.val).reg ka).toNat p.toNat = true) (hd : data.length = p.toNat) :
    Answers (execDinm e ka p data s) (Stored { s with out := .flash (e.val - 2) (.bytesIn p.toNat) :: s.out } e.val
      ((s.engine e.val).reg ka).toNat data (s.engine e.val).next) := by
  refine (run_done (t := (s.setData e.val ((s.engine e.val).reg ka).toNat data).cycle e.val (.bytesIn p.toNat)) h (kinds_v he) ?body
    (State.engine_setData_pc ..)).mono fun t only => ?stored
  case body => simp only [ok, not_true_eq_false, if_false, onBus_free _ hb, padTo_self hd]
  case stored =>
    refine cast ?_ ((Stored.setData { s with out := .flash (e.val - 2) (.bytesIn p.toNat) :: s.out } e.val _ _).then only rfl)
    congr 1
    rw [show ((s.setData e.val ((s.engine e.val).reg ka).toNat data).cycle e.val (.bytesIn p.toNat)).engine e.val =
      (s.setData e.val ((s.engine e.val).reg ka).toNat data).engine e.val from rfl, State.engine_setData]
    split <;> rfl

theorem rdb_run {byte : BitVec 8} (h : Runs s e) (he : 2 ≤ e.val) (hb : (s.fchan (e.val - 2)).transfer = none) :
    Answers (execRdb e kd byte s) (Only { s with out := .flash (e.val - 2) .readByte :: s.out } e.val
      { (s.engine e.val).setReg kd (byte.setWidth 32) with z := decide (byte = 0), pc := (s.engine e.val).pc + 4 }) := by
  have value : BitVec.ofNat 32 byte.toNat = byte.setWidth 32 := BitVec.eq_of_toNat_eq (by simp)
  have only : Only { s with out := .flash (e.val - 2) .readByte :: s.out } e.val
      { (s.engine e.val).setReg kd (byte.setWidth 32) with z := decide (byte = 0) }
      (((({ s with out := .flash (e.val - 2) .readByte :: s.out } : State).withReg e.val kd byte.toNat)).withZ e.val (decide (byte = 0))) :=
    value ▸ (Only.withReg ..).withZ _
  exact run_only h (kinds_v he) (onBus_free _ hb) only

end Bus

/-- Settles O8: each operation's cycle where the bus is free; a bus that is not makes them wait. -/
theorem busOperations : Obligations.BusOperations := by
  unfold Obligations.BusOperations
  intro s e kd ka p n data byte he h
  simp only [exec_cesel, exec_cmd, exec_addr, exec_dout, exec_din, exec_bres, exec_doutm, exec_dinm, exec_rdb, exec_bdly, exec_wpset, exec_bmode]
  rw [← valueOf_eq, ← first_eq, ← count_eq]
  refine ⟨fun hb => ⟨?cesel, ?cmd, ?addr, ?dout, ?din, ?bres, ?raw, rdb_run h he hb, ?bdly, ?wpset, ?bmode⟩, fun hb => ⟨run_stay h.1 (kinds_v he) (onBus_busy _ hb), run_stay h.1 (kinds_v he) (onBus_busy _ hb), run_stay h.1 (kinds_v he) (onBus_busy _ hb)⟩⟩
  case cesel => exact cycle_answers h he (onBus_free _ hb) rfl
  case cmd => exact cycle_answers h he (onBus_free _ hb) rfl
  case addr =>
    intro h1 h4
    exact cycle_answers h he ((if_neg (by omega)).trans (onBus_free _ hb)) rfl
  case dout =>
    intro h1 h8
    exact cycle_answers h he ((if_neg (by omega)).trans (onBus_free _ hb)) rfl
  case din =>
    intro h1 h8
    exact cycle_answers h he ((if_neg (by omega)).trans (onBus_free _ hb)) rfl
  case bres => exact run_engine h (kinds_v he) (onBus_free _ hb) (Engine.setReg_pc ..)
  case raw =>
    intro h1 h2 h3
    have ok := rawRun_ok h1 h2 h3
    refine ⟨cycle_answers h he ((if_neg (by simp [ok])).trans ((onBus_free _ hb).trans ?_)) rfl, dinm_run h he hb ok⟩
    rw [State.dataBytes, (home_eq he).1, (home_eq he).2]
    rfl
  case bdly => exact cycle_answers h he (onBus_free _ hb) rfl
  case wpset => exact cycle_answers h he ((onBus_free _ hb).trans (by rw [bit, Nat.pow_zero, Nat.div_one]; rfl)) rfl
  case bmode =>
    intro allowed
    rw [← (busBits _).1, ← (busBits _).2] at allowed ⊢
    exact cycle_answers h he ((if_neg (by simp [allowed, veinOf])).trans (onBus_free _ hb)) (takeStaged_engine s _ e.val (by simp))

/-! ### The operation queue -/

section Queue

variable {s : State} {e : Fin 10} {kd ka : BitVec 4} {p : BitVec 12} {o : FOp}

/-- The operation `o` as the channel holds it under way. -/
def FOp.got (o : FOp) : FOp := { o with suspendable := o.suspendable && decide (o.suspends < 16) }

/-- A state after OPGET took `o` from the queue of channel `ch`, before its descriptor is stored. -/
structure Took (s : State) (ch : Nat) (o : FOp) (t : State) : Prop where
  channel : t.fchan ch = { s.fchan ch with
    queue := (s.fchan ch).queue.erase o, cur := some o.got, handle := ((s.fchan ch).handle + 1) % 16, since := s.time.uptime, late := 0 }
  self : t.engine (2 + ch) = { s.engine (2 + ch) with ev := (s.engine (2 + ch)).ev &&& ~~~4#16 }
  others : ∀ d, d ≠ 2 + ch → t.engine d = s.engine d
  pending : t.pending = s.pending
  csr : t.csr = s.csr
  bas : t.bas = if 2 ≤ o.kind ∧ o.kind ≤ 4 then { s.bas with safeReleased := true } else s.bas

theorem takeOp_took {ch : Nat} (h : (s.fchan ch).pick s.mayIssue = some o) :
    ∃ t, s.takeOp ch = some (t, ((s.fchan ch).handle + 1) % 16, s.opBytes o.got) ∧ Took s ch o t := by
  refine ⟨_, by rw [State.takeOp, h]; rfl, ?_⟩
  generalize hu : (s.setFchan ch _).setEngine (2 + ch) _ = u
  obtain ⟨eng, fl, pending, csr, bas⟩ := eraseStarts_eng u o
  have engines (d : Nat) : ((u.issues o).eraseStarts o).engine d = u.engine d := congrArg (fun m : Map Engine => m.get ({} : Engine) d) eng
  subst hu
  constructor
  case channel => exact (congrArg (fun f : Flash => f.chans.get ({} : FChan) ch) fl).trans (Map.get_set_self ..)
  case self => exact (engines _).trans (State.engine_setEngine_self ..)
  case others => exact fun d hd => (engines d).trans (State.engine_setEngine_ne _ _ hd)
  case pending => exact pending
  case csr => exact csr
  case bas =>
    rw [bas, State.issues]
    split <;> rfl

theorem opget_empty (h : Runs s e) (he : 2 ≤ e.val) (h32 : valueOf ((s.engine e.val).reg ka) p % 32 = 0)
    (hm : valueOf ((s.engine e.val).reg ka) p + 32 ≤ 4096) (hc : (s.fchan (e.val - 2)).cur = none)
    (hp : (s.fchan (e.val - 2)).pick s.mayIssue = none) :
    Answers (execOpget e kd ka p s) (Only s e.val { (s.engine e.val).setReg kd 0xFFFFFFFF with z := true, pc := (s.engine e.val).pc + 4 }) := by
  refine run_only h (kinds_v he) ?_ ((Only.withReg s e.val kd 0xFFFFFFFF).withZ true)
  rw [if_neg (not_not_intro h32), if_neg (by simp [veinOf, hc]; omega), State.takeOp, veinOf, hp]

theorem opget_takes {t : State} {n : Nat} {b : Bytes} (h : Runs s e) (he : 2 ≤ e.val) (h32 : valueOf ((s.engine e.val).reg ka) p % 32 = 0)
    (hm : valueOf ((s.engine e.val).reg ka) p + 32 ≤ 4096) (hc : (s.fchan (e.val - 2)).cur = none)
    (ht : s.takeOp (e.val - 2) = some (t, n, b)) :
    let u := t.setData e.val (valueOf ((s.engine e.val).reg ka) p) b
    Answers (execOpget e kd ka p s) (Only u e.val
      { (u.engine e.val).setReg kd (BitVec.ofNat 32 n) with z := false, pc := (s.engine e.val).pc + 4 }) := by
  refine run_only h (kinds_v he) ?_ ((Only.withReg ..).withZ false)
  rw [if_neg (not_not_intro h32), if_neg (by simp [veinOf, hc]; omega), veinOf, ht]

theorem opdone_run {t : State} (h : Runs s e) (he : 2 ≤ e.val)
    (ht : s.reportOp (e.val - 2) (((s.engine e.val).reg ka).toNat % 16) (p.toNat % 16) = some t) :
    Answers (execOpdone e ka p s) (Only t e.val { t.engine e.val with pc := (s.engine e.val).pc + 4 }) := by
  refine run_seq h (kinds_v he) ?_
  rw [veinOf, ht]

theorem reportOp_current {ch n k : Nat} (hc : (s.fchan ch).cur = some o) (hn : (s.fchan ch).handle = n) :
    s.reportOp ch n k = some (s.endOp ch o k) := by
  simp only [State.reportOp, hc, hn, if_true]

theorem reportOp_late {ch n k : Nat} (hc : (s.fchan ch).cur = none) (hn : (s.fchan ch).late = n + 1) :
    s.reportOp ch n k = some (s.setFchan ch { s.fchan ch with late := 0 }).late := by
  simp only [State.reportOp, hc, hn, if_true]

theorem setReg_fields (x : Engine) (kd : BitVec 4) (v : Word) : (x.setReg kd v).n = x.n ∧ (x.setReg kd v).c = x.c ∧ (x.setReg kd v).v = x.v ∧
    (x.setReg kd v).run = x.run ∧ (x.setReg kd v).data = x.data := by
  unfold Engine.setReg
  split <;> exact ⟨rfl, rfl, rfl, rfl, rfl⟩

theorem setReg_k {x y : Engine} (kd : BitVec 4) (v : Word) (h : y.k = x.k) : (y.setReg kd v).k = (x.setReg kd v).k := by
  unfold Engine.setReg
  split
  · exact h
  · rw [h]

end Queue

/-- Settles O9: OPGET by whether there is an operation to take, OPDONE by whether its handle is in progress or has expired. -/
theorem operationQueueInstructions : Obligations.OperationQueueInstructions := by
  unfold Obligations.OperationQueueInstructions
  intro s e kd ka p o he h
  simp only [exec_opget, exec_opdone]
  rw [← valueOf_eq]
  refine ⟨fun h32 hm hc => ⟨opget_empty h he h32 hm hc, ?takes⟩, fun hc hn => opdone_run h he (reportOp_current hc hn), ?late⟩
  case takes =>
    intro hp
    obtain ⟨t, ht, took⟩ := takeOp_took hp
    have channel : 2 + (e.val - 2) = e.val := by omega
    obtain ⟨fchan, self, others, pending, csr, bas⟩ := took
    rw [channel] at self others
    refine (opget_takes (kd := kd) h he h32 hm hc ht).mono fun w only => ?_
    have fl := congrArg State.fl only.rest
    have engine := State.engine_setData t e.val (valueOf ((s.engine e.val).reg ka) p) e.val (s.opBytes o.got)
    rw [if_pos (home_eq he).1.symm, (home_eq he).2, self] at engine
    refine ⟨?_, ?_, fun d hd => ?_, ?_, ?_, ?_⟩
    · exact (congrArg (fun f : Flash => f.chans.get ({} : FChan) (e.val - 2)) fl).trans fchan
    · rw [only.self, engine]
      obtain ⟨hn, hc, hv, hr, hd⟩ := setReg_fields ({ s.engine e.val with
        ev := (s.engine e.val).ev &&& ~~~4#16, data := (s.engine e.val).data.setBytes (valueOf ((s.engine e.val).reg ka) p) (s.opBytes o.got) })
        kd (BitVec.ofNat 32 (((s.fchan (e.val - 2)).handle + 1) % 16))
      exact ⟨setReg_k kd _ rfl, rfl, hn, hc, hv, Engine.setReg_ev .., rfl, hr, hd⟩
    · rw [only.others d hd, State.engine_setData, if_neg (by rw [(home_eq he).1]; exact hd), others d hd]
    · exact (congrArg State.pending only.rest).trans pending
    · exact (congrArg State.csr only.rest).trans csr
    · exact (congrArg State.bas only.rest).trans bas
  case late =>
    intro hc hn
    exact (opdone_run h he (reportOp_late hc hn)).mono fun t only => ⟨_, ⟨_, .refl _, .refl _⟩, only⟩

end Sys2Proof.Machine
end

section
/-! PROOFS. Illegal words, and the debug window (R143, R144, R154, R155, R176, R177). -/

namespace Sys2Proof.Machine

theorem illegal_faults {s : State} {e : Fin 10} {word : Word} {parity : Bool} (h : s.engineRuns e.val = true) :
    execIllegalInstruction e word parity s = .next (s.engineFault e.val (if parity then 6 else 1) (s.engine e.val).pc word) :=
  run_fault h (kinds_all _) rfl

/-! ### The debug window -/

section Debug

variable {s : State} {p : Path} {e : Fin 10} {eng : BitVec 4} {chk : MemCheck} {bus : Bytes} {i : Instr}

theorem debugStop_open (hr : s.reaches p = true) (hv : s.dev ≠ .recovery) (ho : s.debugOpen p = true) :
    execDebugStop p eng s = .next (s.writeDbgCtrl eng.toNat true) := by
  rw [execDebugStop, if_neg (not_not_intro hr), if_pos ⟨hv, ho⟩]
  rfl

theorem debugStop_closed (hr : s.reaches p = true) (ho : s.debugOpen p = false) :
    execDebugStop p eng s = .next s.refuseDebug.ignoredWrite := by
  rw [execDebugStop, if_neg (not_not_intro hr), if_neg (by simp [ho])]
  rfl

theorem debugStep_closed (hr : s.reaches p = true) (ho : s.debugOpen p = false) :
    execDebugStep p eng false chk bus s = .next s.refuseDebug.ignoredWrite := by
  rw [execDebugStep, if_neg (not_not_intro hr), if_neg (by simp [ho])]
  rfl

theorem engine_number (e : Fin 10) : (BitVec.ofNat 4 e.val).toNat = e.val := by
  revert e; decide

/-- STEP of engine `e` is one instruction of it, after the control register holds the engine's number. -/
theorem debugStep_open (hr : s.reaches p = true) (hv : s.dev ≠ .recovery) (ho : s.debugOpen p = true) :
    execDebugStep p (BitVec.ofNat 4 e.val) false chk bus s =
      ((s.setF Reg.dbgEng e.val).setF Reg.dbgStop 0).stepEngine e chk bus := by
  rw [execDebugStep, if_neg (not_not_intro hr), if_pos ⟨hv, ho⟩, engine_number, State.writeDebug, dif_pos e.isLt, if_pos rfl]
  rfl

/-- An engine that STEP can step: stopped through the window, with no fault, hook or wait in its way. -/
structure Steps (s : State) (e : Fin 10) (chk : MemCheck) : Prop where
  stopped : (s.engine e.val).dbg = true
  sound : (s.engine e.val).fault = false
  hooked : e.val ≠ 1 ∨ s.hooks.busy = true
  awake : (s.engine e.val).waiting = none
  readable : chk ≠ .bad

theorem Steps.allowed (h : Steps s e chk) :
    ¬ (¬ (s.engine e.val).dbg = true ∨ (s.engine e.val).fault = true ∨ (e.val = 1 ∧ ¬ s.hooks.busy = true)) := by
  rintro (hd | hf | ⟨h1, hb⟩)
  · exact hd h.stopped
  · exact Bool.false_ne_true (h.sound.symm.trans hf)
  · exact h.hooked.elim (· h1) hb

theorem stepEngine_illegal (h : Steps s e chk) (hi : belDecode e chk bus (s.engine e.val).wordAtPc = none) :
    s.stepEngine e chk bus = .next (s.engineFault e.val 1 (s.engine e.val).pc (s.engine e.val).wordAtPc) := by
  rw [State.stepEngine, if_neg h.allowed]
  split
  next w hw => cases h.awake.symm.trans hw
  next =>
    rw [if_neg h.readable, hi]
    rfl

theorem stepEngine_instruction {t : State} (h : Steps s e chk) (hi : belDecode e chk bus (s.engine e.val).wordAtPc = some i)
    (ht : runBelion i (s.setEngine e.val { s.engine e.val with stepping := true }) = .next t) :
    s.stepEngine e chk bus = .next (t.setEngine e.val { t.engine e.val with stepping := false }) := by
  rw [State.stepEngine, if_neg h.allowed]
  split
  next w hw => cases h.awake.symm.trans hw
  next =>
    rw [if_neg h.readable, hi]
    dsimp only at ht ⊢
    rw [ht]
    rfl

theorem writeDbgCtrl_stop (s : State) (e : Fin 10) : s.writeDbgCtrl e.val true = ((s.setF Reg.dbgEng e.val).setF Reg.dbgStop 1).debugStop e.val :=
  rfl

theorem debugStop_running (hx : (s.engine e.val).run = true) :
    let t := s.setEngine e.val { s.engine e.val with run := false, dbg := true }
    s.debugStop e.val = if e.val = 0 then t.supervisorStopped else if e.val = 1 then t else t.failChannel (e.val - 2) :=
  if_neg (by simp [hx])

theorem debugStop_stopped (hx : (s.engine e.val).run = false) : s.debugStop e.val = s := if_pos (.inr (by simp [hx]))

end Debug

/-- Settles O22: the fault's facts for an illegal word; the window by whether it is open, and a step by what its word reads as. -/
theorem faultsAndDebug : Obligations.FaultsAndDebug := by
  unfold Obligations.FaultsAndDebug
  intro s p e word parity chk bus i
  simp only [exec_illegalInstruction, exec_debugStop, exec_debugStep]
  refine ⟨fun h => fault_of (illegal_faults h) rfl, fun hr hv => ⟨fun ho => ⟨?stop, ?stopped, ?step⟩, fun ho => ?closed⟩⟩
  case stop =>
    intro hx
    rw [debugStop_open hr hv ho, engine_number, writeDbgCtrl_stop]
    exact congrArg _ (debugStop_running (s := (s.setF Reg.dbgEng e.val).setF Reg.dbgStop 1) hx)
  case stopped =>
    intro hx
    rw [debugStop_open hr hv ho, engine_number, writeDbgCtrl_stop]
    exact congrArg _ (debugStop_stopped (s := (s.setF Reg.dbgEng e.val).setF Reg.dbgStop 1) hx)
  case step =>
    intro hd hf hh hw hc
    have steps : Steps ((s.setF Reg.dbgEng e.val).setF Reg.dbgStop 0) e chk := ⟨hd, hf, hh, hw, hc⟩
    rw [debugStep_open hr hv ho]
    refine ⟨fun hi => ?_, fun hi => stepEngine_illegal steps hi⟩
    obtain ⟨t, ht⟩ := runBelion_next
      (((s.setF Reg.dbgEng e.val).setF Reg.dbgStop 0).setEngine e.val { s.engine e.val with stepping := true }) i
    exact ⟨t, ht, stepEngine_instruction steps hi ht⟩
  case closed =>
    obtain ⟨v, w, h1, h2, h3⟩ := refuseDebug_facts s
    rw [debugStop_closed hr ho, debugStep_closed hr ho]
    exact ⟨⟨_, rfl, v, w, h1, h2, h3⟩, _, rfl, v, w, h1, h2, h3⟩

end Sys2Proof.Machine
end

section
/-! PROOFS. Table syncs (O14). -/

namespace Sys2Proof.Machine

theorem asWrite_run {s : State} (hu : s.dieUp = true) (hr : s.dev ≠ .recovery) (f : State → State) : s.asWrite f = .next (f s) := by
  rw [State.asWrite, if_neg (by simp [hu]), if_neg hr]; rfl

/-- A write of `GLB_TABLE_SYNC` by a path that holds the table's role. -/
theorem tableSync_run {s : State} {p : Path} {t : BitVec 3} {i : BitVec 8} (hu : s.dieUp = true) (hr : s.dev ≠ .recovery)
    (h : t.toNat < 2 ∨ s.installer p = true) : execTableSync p t i s = .next (s.startSync t.toNat i.toNat) := by
  rw [execTableSync, asWrite_run hu hr, if_pos h]

theorem startSync_busy {s : State} (h : s.tab.sync ≠ none) (t i : Nat) :
    s.startSync t i = (s.record 0x1042 Src.keystone t i).bump 0x0F := by
  rw [State.startSync, if_pos (Option.isSome_iff_ne_none.mpr h)]

section Done
variable {s : State} {y : Sync} {b : Bytes}

theorem tableSyncDone_outOfRange (hs : s.tab.sync = some y) (hi : tableCount y.table ≤ y.index) :
    execTableSyncDone s = .next (s.rejectSync y) := by
  rw [execTableSyncDone, hs]
  exact if_pos hi

theorem tableSyncDone_unfit (hs : s.tab.sync = some y) (hi : y.index < tableCount y.table) (hd : s.syncData y = some b)
    (hb : s.entryOk y b = false) : execTableSyncDone s = .next (s.rejectSync y) := by
  rw [execTableSyncDone, hs]
  dsimp only
  rw [if_neg (Nat.not_le.mpr hi), hd]
  dsimp only
  rw [hb]
  rfl

/-- The state with a sync ended and neither BUSY nor REJECT. -/
def State.synced (s : State) : State := ({ s with tab.sync := none }.setF Reg.syncReject 0).setF Reg.syncBusy 0

theorem tableSyncDone_fit (hs : s.tab.sync = some y) (hi : y.index < tableCount y.table) (hd : s.syncData y = some b)
    (hb : s.entryOk y b = true) (h2 : y.table ≠ 2) : execTableSyncDone s = .next (s.synced.acceptEntry y b) := by
  rw [execTableSyncDone, hs]
  dsimp only
  rw [if_neg (Nat.not_le.mpr hi), hd]
  dsimp only
  rw [hb, if_pos rfl, if_neg h2]
  rfl

theorem synced_busy : s.synced.f Reg.syncBusy = 0 := by rw [State.synced, State.f_setF_self]; rfl

theorem synced_reject : s.synced.f Reg.syncReject = 0 := by
  rw [State.synced, State.f_setF_ne _ _ (by decide), State.f_setF_self]; rfl

theorem syncHoldTimeout_run (hs : s.tab.sync = some y) (ht : y.table < 2) (hi : y.issued = false) :
    execSyncHoldTimeout s = .next (s.rejectSync y) := by
  rw [execSyncHoldTimeout, hs]
  exact if_pos ⟨ht, by simp [hi]⟩

theorem readmitLun_inService {n : Nat} (h : (s.lun n).failed = 0) (old new : Bytes) : s.readmitLun n old new = s := by
  rw [State.readmitLun, if_neg (by simp [h])]

/-- A LUN entry is in force where the LUN is idle, and waits elsewhere. -/
theorem lunBoundary_facts {n : Nat} (h : s.lunIdle n = true → (s.lun n).failed = 0) :
    ({ s with tab.lunNext := s.tab.lunNext.put n b } : State).lunBoundary n = { s with tab := if s.lunIdle n then
      { s.tab with lun := s.tab.lun.set [] n b, lunNext := (s.tab.lunNext.put n b).erase n }
      else { s.tab with lunNext := s.tab.lunNext.put n b } } := by
  rw [State.lunBoundary]
  dsimp only
  rw [get?_put_self]
  dsimp only
  change (if s.lunIdle n = true then _ else _) = _
  by_cases hi : s.lunIdle n = true
  · rw [if_pos hi, if_pos hi]
    refine readmitLun_inService ?_ _ _
    exact h hi
  · rw [if_neg hi, if_neg hi]

/-- What a taken entry of tables 0, 1 and 3 leaves. -/
theorem acceptEntry_facts (hi : y.index < tableCount y.table) (h2 : y.table ≠ 2)
    (h3 : y.table = 3 → s.lunIdle y.index = true → (s.lun y.index).failed = 0) :
    (s.synced.acceptEntry y b).csr = s.synced.csr ∧
    (y.table = 0 → s.synced.acceptEntry y b = s.synced.setRing y.index
      { s.ring y.index with synced := some (RingCtx.ofBytes b), nextRun := (s.ring y.index).state ≠ 0 }) ∧
    (y.table = 1 → s.synced.acceptEntry y b = s.synced.setChan y.index { s.chan y.index with ctx := ChanCtx.ofBytes b, next := none }) ∧
    (y.table = 3 → s.synced.acceptEntry y b = { s.synced with tab := if s.lunIdle y.index then
      { s.synced.tab with lun := s.tab.lun.set [] y.index b, lunNext := (s.tab.lunNext.put y.index b).erase y.index }
      else { s.synced.tab with lunNext := s.tab.lunNext.put y.index b } }) := by
  obtain ⟨table, index, issued, data⟩ := y
  match table, hi with
  | 0, _ => exact ⟨rfl, fun _ => rfl, nofun, nofun⟩
  | 1, _ => exact ⟨rfl, nofun, fun _ => rfl, nofun⟩
  | 2, _ => exact absurd rfl h2
  | 3, _ =>
    have taken := lunBoundary_facts (s := s.synced) (b := b) (h3 rfl)
    have csr := congrArg State.csr taken
    exact ⟨csr, nofun, nofun, fun _ => taken⟩
  | k + 4, hi => exact absurd hi (Nat.not_lt_zero _)

end Done

/-- Settles O14: `rejectSync_facts`, `startSync_facts` and `acceptEntry_facts`, by what ends the sync. -/
theorem tableSyncs : Obligations.TableSyncs := by
  unfold Obligations.TableSyncs
  intro s p t i y b hu hr
  simp only [exec_tableSync, exec_tableSyncDone, exec_syncHoldTimeout]
  refine ⟨fun role => ⟨fun idle => ?_, fun busy => ?_⟩, fun ht hp => ?_, fun hs => ⟨fun hi => ?_, fun hi hd hb h2 h3 => ?_, fun hi hd hb => ?_,
    fun ht hi => ?_⟩⟩
  · exact ⟨_, tableSync_run hu hr role, startSync_facts s _ _ t.isLt i.isLt idle⟩
  · refine ⟨_, tableSync_run hu hr role, ?_⟩
    rw [startSync_busy busy]
    exact ⟨s, .refl _, State.bump_steady ..⟩
  · refine ⟨s.bump 0x03, ?_, s, .refl _, .refl _⟩
    rw [execTableSync, asWrite_run hu hr, if_neg (by simp [hp]; omega)]
    rfl
  · exact ⟨_, tableSyncDone_outOfRange hs hi, rejectSync_facts s y⟩
  · obtain ⟨csr, ring, chan, lun⟩ := acceptEntry_facts (s := s) (b := b) hi h2 h3
    refine ⟨_, tableSyncDone_fit hs hi hd hb h2, ?_, ?_, s.synced, rfl, rfl, csr, ring, chan, lun⟩
    · exact (congrArg (fun m => Map.get _ m _) csr).trans synced_busy
    · exact (congrArg (fun m => Map.get _ m _) csr).trans synced_reject
  · exact ⟨_, tableSyncDone_unfit hs hi hd hb, rejectSync_facts s y⟩
  · exact ⟨_, syncHoldTimeout_run hs ht hi, rejectSync_facts s y⟩

end Sys2Proof.Machine
end

section
/-! PROOFS. VCORE and the crystal, the charger and the sensors, the measurement of the reservoir (O15 to O17). -/

namespace Sys2Proof.Machine

section Vcore
variable (s : State) (pace : Nat)

/-- The counts of a PACE window, beside the PACE it shows. -/
theorem countWindow_facts :
    let u := s.countWindow pace
    u.f Reg.vcoreLoop = s.f Reg.vcoreLoop ∧ u.f Reg.vcoreCode = s.f Reg.vcoreCode ∧ u.f Reg.ceilSeen = s.f Reg.ceilSeen ∧
      u.f Reg.vcorePace = min pace 2047 := by
  refine ⟨?_, ?_, ?_, ?_⟩
  · exact State.f_setF_ne _ _ (by decide)
  · exact State.f_setF_ne _ _ (by decide)
  · exact State.f_setF_ne _ _ (by decide)
  · refine (State.f_setF_self ..).trans (Nat.mod_eq_of_lt ?_)
    show min pace 2047 < 2048
    omega

variable {s pace}

theorem paceWindowEnd_unacked {p : BitVec 16} (hu : s.dieUp = true) (hz : s.bas.freeze = false) (ha : s.vcore.unacked = true) :
    execPaceWindowEnd p s = .next (s.countWindow p.toNat) := by
  rw [execPaceWindowEnd, if_neg (by simp [hu])]
  exact if_pos ⟨ha, by simp [State.countWindow, State.setF, hz]⟩

theorem paceWindowEnd_acked {p : BitVec 16} (hu : s.dieUp = true) (ha : s.vcore.unacked = false) :
    execPaceWindowEnd p s = .next ((s.countWindow p.toNat).paceAct ((s.countWindow p.toNat).paceRow p.toNat)) := by
  rw [execPaceWindowEnd, if_neg (by simp [hu])]
  exact if_neg (by simp [State.countWindow, State.setF, ha])

theorem crystalLost_facts (hu : s.dieUp = true) (hr : s.time.ringOsc = false) (hd : s.dev ≠ .rom) :
    Answers (execCrystalLost s) fun t => ∃ w : State,
      Counts { s with time := { s.time with ringOsc := true } } 0x0D w ∧
      Logs { s with time := { s.time with ringOsc := true } } 0x8002 Src.lodestone 0 0 0 0 w ∧ Steady w.graded t := by
  rw [execCrystalLost, if_neg (by simp [hu, hr, hd])]
  exact ⟨_, rfl, _, ⟨_, .refl _, State.record_steady ..⟩, ⟨_, State.bump_steady .., .refl _⟩, Steady.regrade (.refl _)⟩

end Vcore

/-- Settles O15: the row of R29 by `paceRow_eq`, what it does by `paceAct_facts`, each after the window's counts. -/
theorem vcoreAndCrystal : Obligations.VcoreAndCrystal := by
  unfold Obligations.VcoreAndCrystal
  intro s pace code
  simp only [exec_paceWindowEnd, exec_vcoreStepAck, exec_crystalLost, exec_noCrystalTimeout]
  refine ⟨fun hu hz => ⟨fun ha => paceWindowEnd_unacked hu hz ha, fun ha => ?_⟩, fun ha => if_pos ha, crystalLost_facts,
    fun hd hr => ⟨_, if_pos ⟨hd, hr⟩, _, .refl _, .refl _⟩⟩
  obtain ⟨loop, at_, ceil, shown⟩ := countWindow_facts s pace.toNat
  refine ⟨_, paceWindowEnd_acked hu ha, ?_⟩
  have row := paceRow_eq (s.countWindow pace.toNat) pace.toNat hz
  rw [loop, at_] at row
  have small : (s.countWindow pace.toNat).paceRow pace.toNat < 8 := by
    rw [row]
    exact ite_lt8 (by decide) (ite_lt8 (by decide) (ite_lt8 (by decide) (ite_lt8 (by decide) (ite_lt8 (by decide) (by decide)))))
  obtain ⟨u, floop, fpace, fcode, vcore, out, rest, entry⟩ := paceAct_facts (s.countWindow pace.toNat) _ small
  have acked : (s.countWindow pace.toNat).vcore.unacked = false := ha
  rw [acked, Bool.or_false] at vcore
  have kept := congrArg (fun t : State => { t with csr := s.csr, vcore := s.vcore, out := s.out }) rest
  rw [row] at floop vcore out entry ⊢
  rw [loop, ceil] at entry
  exact ⟨u, floop, fpace.trans shown, fcode.trans at_, vcore, out, kept, entry⟩

section Sensors
variable {s : State}

theorem chargerMode_of_noteVin (v r : Nat) : (s.noteVin v r).chargerMode v =
    if s.bas.freeze = true ∨ risetOk s.bas.riset = false then 0 else if 38000 < v then 3 else if v + 1000 < s.bas.vresSetMv then 1 else 2 := by
  rw [State.chargerMode]
  simp only [Bool.not_eq_true]
  rfl

theorem chargerModeChange_run {vin : BitVec 16} (hi : s.bas.inputOn = true) (hp : s.led.phase ≠ .falling) :
    execChargerModeChange vin s = .next { s.noteVin vin.toNat s.bas.vresMv with
      bas := { (s.noteVin vin.toNat s.bas.vresMv).bas with chgMode := (s.noteVin vin.toNat s.bas.vresMv).chargerMode vin.toNat } } :=
  if_neg (by simp [hi, hp])

theorem vresSample_run {vres vin : BitVec 16} (hi : s.bas.inputOn = true) :
    execVresSample vres vin s = .next (s.noteVin vin.toNat vres.toNat).relimit := if_pos hi

theorem relimit_shut (h : s.ledgerShut = true) : s.relimit = s := if_pos h

/-- The state as a reading of the sensor leaves it, before its band. -/
def State.sensed (s : State) (c : Int) : State :=
  { s with junction := c, fl := { s.fl with row := retentionRow (c + s.tOffset), hot := decide (150 < c) } }

theorem junctionSensorRead_run {c : Int} (hi : s.bas.inputOn = true) (hu : s.dieUp = true) (hc : c < 163) :
    execJunctionSensorRead c s = .next ((s.sensed c).setBand (bandAfter (s.f Reg.band) c)) := by
  rw [execJunctionSensorRead, if_neg (by simp [hi]), if_neg (by simp [hu])]
  dsimp only
  rw [if_neg (by omega)]
  rfl

theorem bandAfter_lt (s : State) (c : Int) : bandAfter (s.f Reg.band) c < 4 := by
  have small (x : Int) : bandOf x < 4 := ite_lt4 (by decide) (ite_lt4 (by decide) (ite_lt4 (by decide) (by decide)))
  exact ite_lt4 (small c) (Nat.lt_of_le_of_lt (Nat.min_le_right ..) (small (c + 3)))

/-- A band that does not change settles nothing. -/
theorem setBand_facts (s : State) (b : Nat) (hb : b < 4) : ∃ u : State, { u with csr := s.csr } = s ∧ u.f Reg.band = b ∧
    (∀ f : Field, f.key ≠ Reg.band.key → u.f f = s.f f) ∧ if b = s.f Reg.band then s.setBand b = u else Settled u (s.setBand b) := by
  rw [State.setBand]
  by_cases h : s.f Reg.band = b
  · simp only [if_pos h, if_pos h.symm]
    exact ⟨s, rfl, h, fun _ _ => rfl, rfl⟩
  · simp only [if_neg h, if_neg (Ne.symm h)]
    refine ⟨s.setF Reg.band b, rfl, ?_, fun f hf => State.f_setF_ne _ _ hf, State.settleLedger_settled _ _⟩
    rw [State.f_setF_self]
    exact Nat.mod_eq_of_lt hb

end Sensors

/-- Settles O16: the input's levels by `noteVin_facts`, the limit by `relimit_idle`, the band by `setBand_facts`. -/
theorem chargerAndSensors : Obligations.ChargerAndSensors := by
  unfold Obligations.ChargerAndSensors
  intro s vin vres peak dur c
  simp only [exec_chargerModeChange, exec_vinOvervoltage, exec_vresSample, exec_junctionSensorRead, exec_vresLow]
  refine ⟨fun hi => ⟨fun hp => ?_, fun hp => ?_, ⟨_, if_neg (by simp [hi]), _, .refl _, .refl _⟩, fun shut => ?_, fun shut idle hs => ?_, fun hu hc => ?_⟩,
    fun hm hd hf => ⟨_, if_pos ⟨hm, hd, hf⟩, _, .refl _, .refl _⟩⟩
  · refine ⟨_, chargerModeChange_run hi hp, _, noteVin_facts s _ _, ?_⟩
    rw [chargerMode_of_noteVin]
  · exact ⟨_, if_pos (Or.inr hp), noteVin_facts s _ _⟩
  · refine ⟨_, vresSample_run hi, ?_⟩
    rw [relimit_shut (by exact shut)]
    exact noteVin_facts s _ _
  · exact ⟨_, vresSample_run hi, _, noteVin_facts s _ _, relimit_idle (s.noteVin vin.toNat vres.toNat) shut idle hs⟩
  · obtain ⟨u, rest, fband, others, settled⟩ := setBand_facts (s.sensed c) _ (bandAfter_lt s c)
    exact ⟨_, junctionSensorRead_run hi hu hc, u, rest, fband, others, settled⟩

section Measurement
variable {s : State}

theorem State.dieUp_of_mayMeasure (h : s.mayMeasure = true) : s.dieUp = true := (Bool.and_eq_true_iff.mp h).1

theorem askMeasure_idle (h : s.led.phase = .idle) : s.askMeasure = { s with led := { s.led with phase := .due, retryMs := 0 } } := if_pos h

theorem pwrMeasNow_run (hm : s.mayMeasure = true) (hr : s.dev ≠ .recovery) : execPwrMeasNow s = .next s.askMeasure := by
  rw [execPwrMeasNow, asWrite_run (State.dieUp_of_mayMeasure hm) hr, State.measureNow, if_pos hm]

/-- What a staged VRES_SET leaves waiting; the limit's own settling touches none of it. -/
theorem stageVres_facts (s : State) {v : Nat} (hv : v < 47) :
    let t := s.stageVres v
    t.led.stagedSet = some v ∧ t.staged = s.staged.put Reg.vresSet.key v ∧
      t.led.phase = (if s.led.phase = .idle then .due else s.led.phase) ∧ t.f Reg.chgLimit = s.f Reg.chgLimit ∧ t.bas = s.bas := by
  dsimp only
  rw [State.stageVres, if_neg (Nat.not_le.mpr hv)]
  obtain ⟨set, phase, bas, staged, limit⟩ := relimit_led
    (State.askMeasure { s with led.stagedSet := some v, staged := s.staged.put Reg.vresSet.key v })
  rw [set, phase, bas, staged, limit, State.askMeasure]
  dsimp only
  by_cases h : s.led.phase = .idle
  · simp only [if_pos h]
    exact ⟨trivial, trivial, trivial, rfl, trivial⟩
  · simp only [if_neg h]
    exact ⟨trivial, trivial, trivial, rfl, trivial⟩

/-- The state with the staged VRES_SET taken. -/
def State.takeVres (s : State) : State :=
  match s.led.stagedSet with
  | some v => ({ s with bas.vresSetMv := 12000 + 500 * v, staged := s.staged.erase Reg.vresSet.key }).setF Reg.vresSet v
  | none => s

theorem takeVres_none (h : s.led.stagedSet = none) : s.takeVres = s := by rw [State.takeVres, h]

theorem takeVres_some {v : Nat} (h : s.led.stagedSet = some v) : s.takeVres =
    ({ s with bas.vresSetMv := 12000 + 500 * v, staged := s.staged.erase Reg.vresSet.key } : State).setF Reg.vresSet v := by
  rw [State.takeVres, h]

theorem measurementBegin_run (hm : s.mayMeasure = true) (hp : s.led.phase = .due) :
    execMeasurementBegin s = .next (State.settleLedger { s.takeVres with
      led.phase := .waitDip, led.savedLimit := s.takeVres.led.limit, led.vtopNow := s.takeVres.bas.vresMv
      led.limit := if s.takeVres.ledgerShut then 0 else
        energyOf 291 s.takeVres.led.c s.takeVres.led.esr (min s.takeVres.vTop s.takeVres.bas.vresMv - 500) } s.takeVres.closedAll) :=
  if_neg (by simp [hm, hp])

theorem dipBasisReached_run (hm : s.mayMeasure = true) (hp : s.led.phase = .waitDip) (hl : s.ledgerShut = true ∨ s.risk ≤ s.led.limit)
    (h1 : 4500 ≤ s.bas.vinMv) (h2 : s.bas.vinMv ≤ 36000) :
    execDipBasisReached s = .next { s with led.phase := .falling, bas.chgMode := 0 } :=
  if_pos ⟨hp, by simpa [State.dipReached] using hl, by simp [State.vinInRange, h1, h2], hm⟩

theorem measurementAbandoned_run (hm : s.mayMeasure = true) (hp : s.led.phase = .waitDip) :
    execMeasurementAbandoned s = .next (State.addMeas (((State.settleLedger { s with
      led.phase := .idle, led.limit := s.led.savedLimit, led.retryMs := 1000 } s.closedAll).bump 0x04).record 0x0014 Src.ledger)
        (s.measRecord 0 0 s.led.vtopNow 0 0 2)) := if_pos ⟨hp, hm⟩

theorem addMeas_logged (u : State) (i code src : Nat) (m : Bytes) : ∃ w x : State, Counts u i w ∧ Logs u code src 0 0 0 0 w ∧
    x = { w.touch 0x0C with nv.measHist := (m :: w.nv.measHist).take 32 } ∧ ((u.bump i).record code src).addMeas m = x :=
  ⟨(u.bump i).record code src, _, ⟨_, .refl _, State.record_steady ..⟩, ⟨_, State.bump_steady .., .refl _⟩, rfl, rfl⟩

theorem measurementAbandoned_facts (hm : s.mayMeasure = true) (hp : s.led.phase = .waitDip) :
    Answers (execMeasurementAbandoned s) fun t => ∃ u w x : State,
      Settled { s with led := { s.led with phase := .idle, limit := s.led.savedLimit, retryMs := 1000 } } u ∧ Counts u 0x04 w ∧
      Logs u 0x0014 Src.ledger 0 0 0 0 w ∧
      x = { w.touch 0x0C with nv.measHist := (s.measRecord 0 0 s.led.vtopNow 0 0 2 :: w.nv.measHist).take 32 } ∧ t = x :=
  ⟨_, measurementAbandoned_run hm hp, _, (addMeas_logged ..).imp fun _ h => h.imp fun _ h => ⟨State.settleLedger_settled .., h⟩⟩

variable {ticks : BitVec 32} {esr : BitVec 16}

theorem reservoirFallTimed_good (hm : s.mayMeasure = true) (hp : s.led.phase = .falling) (h1 : 100000 ≤ ticks.toNat)
    (h2 : ticks.toNat ≤ 3000000) : execReservoirFallTimed ticks esr s = .next (s.measured (ticks.toNat / 250) esr.toNat) := by
  rw [execReservoirFallTimed, if_neg (by simp [hm, hp]), if_neg (by omega)]
  rfl

theorem reservoirFallTimed_bad (hm : s.mayMeasure = true) (hp : s.led.phase = .falling) (h : ticks.toNat < 100000 ∨ 3000000 < ticks.toNat) :
    execReservoirFallTimed ticks esr s = .next (State.measureFails { s with bas.chgMode := s.chargerMode s.bas.vinMv }) := by
  rw [execReservoirFallTimed, if_neg (by simp [hm, hp]), if_pos h]
  rfl

end Measurement

/-- Settles O17: each step of a measurement by its own facts, the fall by `measured_facts` and `measureFails_chg`. -/
theorem reservoirMeasurement : Obligations.ReservoirMeasurement := by
  unfold Obligations.ReservoirMeasurement
  intro s p value ticks esr
  simp only [exec_measurementDue, exec_pwrMeasNow, exec_measurementBegin, exec_dipBasisReached, exec_measurementAbandoned,
    exec_reservoirFallTimed, exec_reservoirChargeTimeout]
  intro hm
  refine ⟨fun hp => ?due, fun hr hv hi => ?staged, fun hp hs => ?begin, fun hp => ⟨fun hl h1 h2 => dipBasisReached_run hm hp hl h1 h2, measurementAbandoned_facts hm hp⟩,
    fun hp h1 h2 => ⟨_, reservoirFallTimed_good hm hp h1 h2, measured_facts s _ _ _ _ _ _ _ rfl rfl rfl rfl rfl⟩,
    fun hp h => ⟨_, reservoirFallTimed_bad hm hp h, measureFails_chg s _ _ rfl⟩,
    fun hv => ⟨_, if_pos ⟨hm, by simp [hv]⟩, measureFails_facts s _ rfl⟩⟩
  case due =>
    rw [← askMeasure_idle hp]
    exact ⟨if_pos hm, pwrMeasNow_run hm⟩
  case staged =>
    rw [chgWrite s p value hr hv hi]
    refine ⟨fun h => ⟨_, rfl, ?_⟩, fun h => ⟨_, rfl, ?_⟩⟩
    · rw [State.stageVres, if_pos h]
      exact ⟨_, .refl _, .refl _⟩
    · obtain ⟨set, staged, phase, limit, bas⟩ := stageVres_facts (s.setF Reg.chgLimit (value.toNat / 64 % 4)) h
      refine ⟨set, staged, phase, limit.trans ?_, bas⟩
      rw [State.f_setF_self]
      exact Nat.mod_mod _ _
  case begin =>
    refine ⟨_, measurementBegin_run hm hp, _, ?_, ?_, ?_, ?_, State.settleLedger_settled ..⟩ <;> obtain hs | hs := hs
    case refine_1.inl => rw [takeVres_none hs, if_pos hs]
    case refine_1.inr =>
      rw [takeVres_some hs]
      exact congrArg (fun x => { s.bas with vresSetMv := x }) (if_neg (c := s.led.stagedSet = none) (by simp [hs])).symm
    case refine_2.inl => rw [takeVres_none hs]
    case refine_2.inr => rw [takeVres_some hs]; rfl
    case refine_3.inl => rw [hs]; nofun
    case refine_3.inr =>
      rw [takeVres_some hs]
      exact fun _ => ⟨(State.f_setF_self ..).trans (Nat.mod_eq_of_lt (Nat.mod_lt _ (by decide))), rfl⟩
    case refine_4.inl => rw [takeVres_none hs]
    case refine_4.inr => rw [takeVres_some hs]; rfl

end Sys2Proof.Machine
end

section
/-! PROOFS. Supply failures, the drain, power and resets (O18 to O20). -/

namespace Sys2Proof.Machine

section Supply
variable {s : State}

/-- FREEZE after records and counts. -/
theorem freezeNow_steady {u : State} (h : Steady s u) (hu : s.dieUp = true) (hz : s.bas.freeze = false) (c : FreezeCause) (warm : Bool) :
    Drains u c warm (u.freezeNow c warm) :=
  freezeNow_drains u c warm ((steady_dieUp h).trans hu) (by rw [h.bas]; exact hz)

theorem supplyCollapse_run {vin : BitVec 16} (hv : vin.toNat < 4200 + 200 * s.f Reg.collTh) :
    execSupplyCollapse vin s = .next ((s.noteVin vin.toNat s.bas.vresMv).freezeNow .collapse false) := if_pos hv

/-- The state with a rail bad: E6 raised, event 0x0030, count 0x05. -/
def State.railNoted (s : State) (r : Rail) : State :=
  (((({ s with bas := { s.bas with badRails := r :: s.bas.badRails, alert := true } } : State).raise 0 6).record 0x0030 Src.basalt (railCode r))).bump 0x05

theorem railFault_run {r : Rail} (hu : s.dieUp = true) (hr : r ∉ s.bas.badRails) : execRailFault r s =
    .next (if dramRail r then { s.railNoted r with dram := { (s.railNoted r).dram with railBad := true } }
      else (s.railNoted r).freezeNow .railFault false) :=
  if_neg (by simp [hu, hr])

theorem railFault_facts {r : Rail} (hu : s.dieUp = true) (hz : s.bas.freeze = false) (hr : r ∉ s.bas.badRails) :
    Answers (execRailFault r s) fun t => ∃ w : State,
      let u := ({ s with bas := { s.bas with badRails := r :: s.bas.badRails, alert := true } } : State).raise 0 6
      Logs u 0x0030 Src.basalt (railCode r) 0 0 0 w ∧ Counts u 0x05 w ∧
      if r = .vddq ∨ r = .vppOut then t = { w with dram := { w.dram with railBad := true } } else Drains w .railFault false t := by
  refine ⟨_, railFault_run hu hr, s.railNoted r, ⟨_, .refl _, State.bump_steady ..⟩, ⟨_, State.record_steady .., .refl _⟩, ?_⟩
  have hd : dramRail r = true ↔ r = .vddq ∨ r = .vppOut := by simp [dramRail]
  by_cases h : r = .vddq ∨ r = .vppOut
  · rw [if_pos h, if_pos (hd.mpr h)]
  · rw [if_neg h, if_neg (mt hd.mp h)]
    refine freezeNow_steady (s := ({ s with bas := { s.bas with badRails := r :: s.bas.badRails, alert := true } } : State).raise 0 6)
      ((State.record_steady ..).trans (State.bump_steady ..)) hu hz _ _

theorem railRecovery_run {r : Rail} (hd : r = .vddq ∨ r = .vppOut) (hr : r ∈ s.bas.badRails) :
    let left := s.bas.badRails.filter fun x => x ≠ r
    let u := { s with bas := { s.bas with badRails := left, alert := !left.isEmpty }, dram := { s.dram with railBad := left.any dramRail } }
    execRailRecovery r s = .next (if s.dram.up ∧ ¬ left.any dramRail ∧ s.dieUp then u.askReinit else u) :=
  if_neg (by simp [dramRail, hd, hr])

/-- A DRAM rail that comes back asks for a new initialisation, once, where no other is bad. -/
theorem railRecovery_facts {r : Rail} (hu : s.dieUp = true) (hd : r = .vddq ∨ r = .vppOut) (hr : r ∈ s.bas.badRails) :
    let left := s.bas.badRails.filter fun x => x ≠ r
    let bad := left.any dramRail
    let u := { s with bas := { s.bas with badRails := left, alert := !left.isEmpty }, dram := { s.dram with railBad := bad } }
    (s.dram.up = true ∧ bad = false ∧ s.f Reg.drcReinit ≠ 1 → Answers (execRailRecovery r s) (Logs (u.setF Reg.drcReinit 1) 0x4030 Src.dram 0 0 0 0)) ∧
      (s.dram.up = false ∨ bad = true ∨ s.f Reg.drcReinit = 1 → execRailRecovery r s = .next u) := by
  intro left bad u
  have run : execRailRecovery r s = .next (if s.dram.up ∧ ¬ bad ∧ s.dieUp then u.askReinit else u) := railRecovery_run hd hr
  have asks : u.askReinit = if s.f Reg.drcReinit = 1 then u else (u.setF Reg.drcReinit 1).record 0x4030 Src.dram := by
    rw [State.askReinit]
    have bitF : u.bitF Reg.drcReinit = true ↔ s.f Reg.drcReinit = 1 := by simp [State.bitF]; rfl
    by_cases h : s.f Reg.drcReinit = 1
    · rw [if_pos h, if_pos (bitF.mpr h)]
    · rw [if_neg h, if_neg (mt bitF.mp h)]
  refine ⟨fun ⟨hup, hb, hf⟩ => ⟨_, run, ?_⟩, fun h => run.trans (congrArg _ ?_)⟩
  · rw [if_pos ⟨hup, by simp [hb], hu⟩, asks, if_neg hf]
    exact ⟨_, .refl _, .refl _⟩
  · rw [asks]
    rcases h with h | h | h <;> simp [h]

end Supply

section Pfw
variable {s : State} {ch : PfwCh} {on : Bool}

/-- The state with a channel's level. -/
def State.pfwLevel (s : State) (ch : PfwCh) (on : Bool) : State :=
  { s with pfw := if ch = .a then { s.pfw with aOn := on } else { s.pfw with bOn := on } }

theorem pfwChannelChange_run : execPfwChannelChange ch on s = .next ((s.pfwLevel ch on).pfwMoved ch) := by
  cases ch <;> rfl

theorem pfwLevel_state : (s.pfwLevel ch on).pfw.state = s.pfw.state := by cases ch <;> rfl

theorem pfwLevel_back : (s.pfwLevel ch on).pfw.back = s.pfw.back := by cases ch <;> rfl

theorem pfwRearm_run (hz : s.bas.freeze = false) (hs : s.pfw.state = .disarmed) (ha : s.warnsA = false) (hb : s.warnsB = false)
    (h1 : s.staged.get? Reg.pfwMode.key = none) (h2 : s.staged.get? Reg.pfwDisc.key = none) :
    execPfwRearm s = .next (({ s with pfw := { s.pfw with state := .armed } } : State).record 0x8013 Src.basalt) := by
  rw [execPfwRearm, if_pos ⟨hs, by simp [ha], by simp [hb], by simp [hz]⟩]
  refine congrArg _ ?_
  have h := State.record_steady { s with pfw := { s.pfw with state := .armed } } 0x8013 Src.basalt 0 0 0 0
  generalize State.record { s with pfw := { s.pfw with state := .armed } } 0x8013 Src.basalt = u at h ⊢
  have armed : u.pfw.state = .armed := by rw [h.pfw]
  obtain ⟨warnsA, warnsB⟩ := warns_eq (u := u) (v := s) (by rw [h.pfw]) (by rw [h.pfw]) (h.csr _ (by decide))
  have quiet := settle_quiet u .a armed (warnsA.trans ha) (warnsB.trans hb)
  rw [State.pfwMoved]
  split
  · rfl
  · rw [quiet, boundary_id u (by rw [h.staged]; exact h1) (by rw [h.staged]; exact h2)]
    dsimp only
    rw [quiet, ite_self]

end Pfw

/-- Settles O18: the freeze by `freezeNow_drains`, each move of PFW by its `pfwMoved` law. -/
theorem supplyFailures : Obligations.SupplyFailures := by
  unfold Obligations.SupplyFailures
  intro s vin r ch on hu hz
  simp only [exec_supplyCollapse, exec_railFault, exec_railRecovery, exec_pfwChannelChange, exec_pfwDiscrepancyExpiry, exec_pfwRearm]
  have moved := pfwChannelChange_run (s := s) (ch := ch) (on := on)
  have state := pfwLevel_state (s := s) (ch := ch) (on := on)
  refine ⟨fun hv => ⟨_, supplyCollapse_run hv, freezeNow_drains _ _ _ hu hz⟩, railFault_facts hu hz, railRecovery_facts hu,
    fun ha => ⟨fun hs h1 h2 => ?_, fun hs h1 h2 => ?_, fun hs h1 h2 => ?_, fun hs h1 h2 h3 h4 => ?_⟩, fun hs => ?_,
    fun hs ha hb h1 h2 => ⟨_, pfwRearm_run hz hs ha hb h1 h2, _, .refl _, .refl _⟩, freezeBlocks_facts s⟩
  · rw [moved, pfwMoved_opens (s.pfwLevel ch on) ch .a hz ha (state.trans hs) (.inl ⟨rfl, h1, h2⟩)]
    obtain ⟨u, becomes, cairns⟩ := opens_facts (s.pfwLevel ch on) .a
    exact ⟨_, rfl, u, becomes, cairns⟩
  · rw [moved, pfwMoved_opens (s.pfwLevel ch on) ch .b hz ha (state.trans hs) (.inr ⟨rfl, h1, h2⟩)]
    obtain ⟨u, becomes, cairns⟩ := opens_facts (s.pfwLevel ch on) .b
    exact ⟨_, rfl, u, becomes, cairns⟩
  · rw [moved, pfwMoved_confirms (s.pfwLevel ch on) ch hu hz ha (state.trans hs) h1 h2]
    have drains := freezeNow_steady (State.record_steady (s.pfwLevel ch on) 0x8012 Src.basalt 0 0 0 0) hu hz .pfw false
    exact ⟨_, rfl, _, ⟨_, .refl _, .refl _⟩, drains⟩
  · rw [moved, pfwMoved_returns (s.pfwLevel ch on) ch hz ha (state.trans hs) h1 h2 h3 h4]
    have becomes := leave_becomes (s.pfwLevel ch on) .armed
    rw [pfwLevel_back] at becomes
    exact ⟨_, rfl, _, becomes, ⟨_, .refl _, State.record_steady ..⟩, ⟨_, State.bump_steady .., .refl _⟩⟩
  · exact ⟨_, if_pos ⟨hs, by simp [hz]⟩, _, leave_becomes s .disarmed, ⟨_, .refl _, State.record_steady ..⟩,
      ⟨_, State.bump_steady .., .refl _⟩⟩

section Drain
variable {s : State} {w : DrainWork}

/-- The state as a step of the drain finds it, with the time that the drain has taken. -/
def State.drainedFor (s : State) (ticks : Nat) : State := { s with drain.elapsed := ticks }

/-- What each step of the drain leaves. -/
def State.drainNext (s : State) (w : DrainWork) (k : Nat) : State :=
  let u := s.drainedFor w.elapsed.toNat
  match k with
  | 1 => { u.drainPrograms w.failed with drain.step := 2 }
  | 2 => { u.journalVerified with drain.step := 3, drain.manifest := true }
  | 3 => { u.drainUnits w.failed with drain.step := 4, bas.safeReleased := true }
  | 4 => { u.journalVerified with drain.step := 5 }
  | 5 => { u with drain.step := 6, drain.sealDone := true, evr.shut := true }
  | 6 => { u.flushScree with drain.step := 7 }
  | 7 => { u.saveTrial.saveTimes with
      drain.step := 8, nv.boot.seq := s.nv.boot.seq + 1, nv.boot.stopCause := s.stopCause, nv.boot.stopSealed := s.drain.sealDone }
  | 8 => (u.noteStop true).endDrain
  | _ => s

theorem drainStepDone_run : execDrainStepDone w s = .next (s.drainNext w s.drain.step) := by
  unfold execDrainStepDone State.drainNext State.drainedFor
  dsimp only
  generalize ({ s with drain.elapsed := w.elapsed.toNat } : State) = u
  generalize s.drain.step = k
  obtain _ | _ | _ | _ | _ | _ | _ | _ | _ | k := k <;> rfl

theorem drainStepDone_at {k : Nat} (hk : s.drain.step = k) : execDrainStepDone w s = .next (s.drainNext w k) :=
  hk ▸ drainStepDone_run

theorem journalVerified_durable (s : State) (q : Drain) : { s with drain := q }.journalVerified = State.releaseDurable { s with
    drain := q
    str := { s.str with
      units := s.str.units.map fun u => if u.place = .verified then { u with journalled := true } else u
      openPage := [], pages := [] } } := rfl

theorem drainCutShort_run {reached : List Nat} (hk : s.drain.step ≠ 0) (hd : s.drain.sealDone = false) (hw : s.drain.warm = false) :
    execDrainCutShort reached s = .next ((s.cutDrain reached).noteStop false).endDrain :=
  if_neg (by simp [hk, hd, hw])

end Drain

/-- Settles O19: each step by `drainStepDone_run`, the cut by `cutDrain_facts`. -/
theorem drainSteps : Obligations.DrainSteps := by
  unfold Obligations.DrainSteps
  intro s w reached
  simp only [exec_drainStepDone, exec_drainCutShort, exec_safeRestart, exec_inputStageOff]
  refine ⟨fun hk => ?programs, fun hk => ?manifest, fun hk => ?area, fun hk => ?records, fun hk => ?closing, fun hk => ?staged, fun hk => ?boot,
    fun hk => ?done, fun hk hd hw => ?cut, fun hd hr h1 h2 h3 h4 h5 => ?safe, fun hu => ?off, fun hu hk hs => ?down⟩
  case programs =>
    refine ⟨_, drainStepDone_at hk, ?_⟩
    unfold State.drainNext State.drainPrograms
    dsimp only
    refine congrArg (fun us => { s with drain := { s.drain with elapsed := w.elapsed.toNat, step := 2 }, str := { s.str with units := us } })
      (List.map_congr_left fun u _ => ?_)
    by_cases hf : w.failed.contains u.id = true
    · rw [if_pos hf, if_pos hf]
    · rw [if_neg hf, if_neg hf]
  case manifest =>
    refine ⟨_, drainStepDone_at hk, ?_⟩
    have drain := journalVerified_drain (s.drainedFor w.elapsed.toNat)
    unfold State.drainNext
    dsimp only
    rw [drain]
    rfl
  case area =>
    refine ⟨_, drainStepDone_at hk, ?_, rfl, rfl, rfl, rfl⟩
    unfold State.drainNext State.drainUnits State.drainedFor
    dsimp only
    simp only [Bool.not_eq_true]
  case records =>
    refine ⟨_, drainStepDone_at hk, ?_⟩
    have drain := journalVerified_drain (s.drainedFor w.elapsed.toNat)
    unfold State.drainNext
    dsimp only
    rw [drain]
    rfl
  case closing => exact ⟨_, drainStepDone_at hk, rfl⟩
  case staged =>
    refine ⟨_, drainStepDone_at hk, rfl, rfl, rfl, rfl, ?_⟩
    change (s.drainedFor w.elapsed.toNat).flushScree.nv.scree = _
    rw [State.flushScree]
    dsimp only [State.drainedFor]
  case boot =>
    obtain ⟨drain, time, str, bas, evr, opt⟩ := saveTrial_facts (s.drainedFor w.elapsed.toNat)
    refine ⟨_, drainStepDone_at hk, ?_⟩
    unfold State.drainNext State.saveTimes
    dsimp only
    rw [drain, time, str, bas, evr]
    exact ⟨rfl, rfl, rfl, rfl, opt, rfl, rfl, rfl⟩
  case done =>
    refine ⟨_, drainStepDone_at hk, ?_⟩
    unfold State.drainNext State.endDrain State.drainedFor State.noteStop
    dsimp only
    cases s.drain.warm
    · exact ⟨rfl, rfl, rfl, rfl, rfl, rfl, rfl⟩
    · exact ⟨rfl, rfl, rfl, rfl, rfl, rfl, rfl⟩
  case cut =>
    obtain ⟨drain, units, missing, cut, u, counts, evr⟩ := cutDrain_facts s reached
    have cold : ((s.cutDrain reached).noteStop false).drain.warm = false := (congrArg Drain.warm drain).trans hw
    refine ⟨_, drainCutShort_run hk hd hw, ?_⟩
    rw [State.endDrain, if_neg (by rw [cold]; decide)]
    exact ⟨rfl, rfl, rfl, rfl, units, missing, cut, rfl, u, counts, evr⟩
  case safe => exact if_pos ⟨hd, hr, by simp [State.vinInRange, h1, h2], h3, by simp [h4], h5⟩
  case off =>
    rw [execInputStageOff]
    simp only [hu]
    rfl
  case down =>
    refine ⟨_, rfl, rfl, rfl, rfl, rfl, rfl, ?_⟩
    rw [if_pos hu, if_neg (c := s.drain.step ≠ 0 ∨ _) (by simp [hk, hs])]
    cases s.drain.sealDone <;> rfl

section Resets
variable {s : State} {p : Path}

theorem watchdogHalf_facts (h : s.startRuns = true) :
    Answers (execWatchdogHalf s) (Only s 0 { s.engine 0 with ev := (s.engine 0).ev ||| 0x80 }) :=
  ⟨_, if_pos h, Only.setEngine ..⟩

theorem dieUp_dev (h : s.dieUp = true) : s.dev ≠ .off ∧ s.dev ≠ .safe ∧ s.bas.dieReset = false := by
  simpa [State.dieUp] using h

theorem resetNAccepted_facts (hu : s.dieUp = true) (hz : s.bas.freeze = false) :
    Answers (execResetNAccepted s) fun t => ∃ u, Logs { s with bas := { s.bas with resetLow := true } } 0x1030 Src.start 0 0 0 0 u ∧
      Drains { u with bas := { u.bas with nextSrc := 2 } } .resetPin true t := by
  obtain ⟨hoff, hsafe, hreset⟩ := dieUp_dev hu
  rw [execResetNAccepted, if_neg (by simp [hoff, hsafe]), if_neg (by simp [hreset, hz]), if_neg (by simp [hz])]
  have h := State.record_steady { s with bas := { s.bas with resetLow := true } } 0x1030 Src.start 0 0 0 0
  exact ⟨_, rfl, _, ⟨_, .refl _, .refl _⟩, restart_drains _ _ _ ((steady_dieUp h).trans hu) (by rw [h.bas]; exact hz)⟩

/-- The installer's write of a register of the start, by the die's state. -/
theorem restartRequest_run (hu : s.dieUp = true) (hr : s.dev ≠ .recovery) :
    execRestartRequest p s = .next (s.asInstaller p State.restartRequest) := by
  rw [execRestartRequest, if_neg (by simp [hu]), if_neg hr]
  rfl

theorem glbStartWrite_run {value : Word} (hu : s.dieUp = true) (hr : s.dev ≠ .recovery) :
    execGlbStartWrite p value s = .next (s.asInstaller p fun t => t.writeStart value.toNat) := by
  rw [execGlbStartWrite, if_neg (by simp [hu]), if_neg hr]
  rfl

theorem asInstaller_yes (h : s.installer p = true) (f : State → State) : s.asInstaller p f = f s := if_pos h

theorem asInstaller_no (h : s.installer p = false) (f : State → State) : s.asInstaller p f = s.bump 0x03 := if_neg (by simp [h])

theorem failedCountClear_facts (hu : s.dieUp = true) (hz : s.bas.freeze = false) (hd : s.dev.inService = true) (hc : s.start.cleared = false) :
    Answers (execFailedCountClear s) fun t => t.start = { s.start with cleared := true, fails := 0 } ∧
      t.bas = { s.bas with latchF := 0 } ∧ { t with start := s.start, bas := s.bas, nv := s.nv } = s := by
  obtain ⟨start, bas, rest, -, -⟩ := setFails_facts { s with start.cleared := true } 0
  refine ⟨_, if_pos ⟨hu, hd, by simp [hz], by simp [hc]⟩, start, bas, ?_⟩
  have k := congrArg (fun t : State => { t with start := s.start }) rest
  exact k

end Resets

/-- Settles O20: failed starts by `failedStart_facts`, the count of failures by `setFails_facts`, resets by `restart_drains`. -/
theorem powerAndResets : Obligations.PowerAndResets := by
  unfold Obligations.PowerAndResets
  intro s p value vin vres riset vccq latch
  simp only [exec_powerOn, exec_railsGood, exec_resetNRelease, exec_resetNAccepted, exec_startTimeout, exec_watchdogExpiry, exec_watchdogHalf,
    exec_restartRequest, exec_failedCountClear, exec_glbStartWrite, exec_bootLunTimeout, exec_configRetryLimit]
  refine ⟨fun hi => if_neg (by simp [hi]), fun hr => if_pos hr, rfl, fun h => if_pos h,
    fun h => ⟨⟨_, if_pos h, failedStart_facts s 1⟩, ⟨_, if_pos h, failedStart_facts s 2⟩, watchdogHalf_facts h⟩,
    fun hu => ⟨fun hz => ⟨resetNAccepted_facts hu hz, fun hr hp hi => ?_, failedCountClear_facts hu hz⟩, fun hp hi => ?_,
      fun hr hi => ⟨?_, ?_⟩, fun hr hi => ⟨fun hv => ?_, fun hv => ?_⟩, fun hd hr hi => ⟨_, if_pos ⟨hu, hd, hr, hi⟩, _, .refl _, .refl _⟩,
      fun hp => if_pos ⟨hu, by simp [hp]⟩⟩⟩
  · rw [restartRequest_run hu hr, asInstaller_yes hi, State.restartRequest, if_neg hp]
    exact ⟨_, rfl, restart_drains s _ _ hu hz⟩
  · rw [restartRequest_run hu (by simp [hp]), asInstaller_yes hi, State.restartRequest, if_pos hp]
  · rw [restartRequest_run hu hr, asInstaller_no hi]
    exact ⟨_, rfl, _, .refl _, .refl _⟩
  · rw [glbStartWrite_run hu hr, asInstaller_no hi]
    exact ⟨_, rfl, _, .refl _, .refl _⟩
  · rw [glbStartWrite_run hu hr, asInstaller_yes hi, State.writeStart, if_pos hv]
    obtain ⟨start, bas, rest, -, -⟩ := setFails_facts s 0
    exact ⟨_, rfl, start, bas, rest⟩
  · rw [glbStartWrite_run hu hr, asInstaller_yes hi, State.writeStart, if_neg hv]
    exact ⟨_, rfl, _, .refl _, .refl _⟩

end Sys2Proof.Machine
end

section
/-! PROOFS. Roles and keys on the rings and the paths, and the entropy source (O23 to O26). -/

namespace Sys2Proof.Machine

section Roles
variable {s : State} {tag : BitVec 5} {c : Cmd} {segs data : Bytes}

theorem role_target (h : c.volume = 1 ∨ c.volume = 2) : (decide (c.volume = 1) || decide (c.volume = 2)) = true := by simpa using h

theorem roleChallenge_run (h : Turn s tag 0x49 c) (ho : c.opflags = 0) (hs : c.start = 0) (hn : c.noOps = true)
    (hv : c.volume = 1 ∨ c.volume = 2) (hd : c.data = true) (hl : c.length = 64) (hlist : c.listOk c.length segs = true) :
    execRoleChallenge 0 tag (.done segs data) s = .next (match s.holdLeft 0 with
      | some us => s.complete c 0x0100 (natLe 4 us)
      | none => (s.issueChal 0 c.volume).1.deliver c segs (s.issueChal 0 c.volume).2 []) := by
  rw [execRoleChallenge, h.run rfl (by simp [State.admRule, role_target hv, ho, hs, hn, hd, hl]) rfl rfl, admOut_done hlist]
  rfl

theorem roleResponse_run (h : Turn s tag 0x4A c) (ho : c.opflags = 0) (hs : c.start = 0) (hn : c.noOps = true)
    (hv : c.volume = 1 ∨ c.volume = 2) (hd : c.data = true) (hl : c.length = 48) (hlist : c.listOk c.length segs = true) :
    execRoleResponse 0 tag (.done segs data) s =
      .next ((s.respond 0 (padTo 48 data)).1.complete c (if (s.respond 0 (padTo 48 data)).2 then 0 else 0x0400) []) := by
  rw [execRoleResponse, h.run rfl (by simp [State.admRule, role_target hv, ho, hs, hn, hd, hl]) rfl rfl, admIn_done hlist, hl]
  rfl

/-- A response is right that names the challenge's role and counter value and carries its HMAC under the role's key. -/
theorem responseOk_iff {p : Nat} {b : Bytes} {k : Challenge} {key : Bytes} (hc : s.roles.chal.get? p = some k) (hk : s.roleKey k.role = some key) :
    s.responseOk p b = true ↔ slice b 0 4 = ascii "QKRS" ∧ leAt b 4 1 = k.role ∧ leAt b 5 3 = 0 ∧ leAt b 8 8 = k.ctr ∧
      slice b 16 32 = hmac key k.bytes ∧ (p = 2 → k.role = 2) := by
  have tag : s.tagOk p k (slice b 16 32) = true ↔ slice b 16 32 = hmac key k.bytes ∧ (p = 2 → k.role = 2) := by
    rw [State.tagOk, hk]
    by_cases h : p = 2 ∧ k.role ≠ 2
    · rw [if_pos h]
      simp [h]
    · rw [if_neg h, beq_iff_eq]
      exact ⟨fun e => ⟨e, by simpa using h⟩, fun e => e.1⟩
  rw [State.responseOk, hc]
  simp only [Bool.and_eq_true, beq_iff_eq, tag, and_assoc]

end Roles

/-- Settles O23: the challenge by `issueChal_issued`, the response by `respond_right` and `respond_wrong`. -/
theorem roleCommands : Obligations.RoleCommands := by
  unfold Obligations.RoleCommands
  intro s tag c segs data ho hs hn
  simp only [exec_roleChallenge, exec_roleResponse, exec_roleDrop]
  refine ⟨fun hlist hv hd => ⟨fun h hl => ⟨fun us hu => ?_, fun hu => ?_⟩, fun h hl k hk => ⟨fun hr => ?_, fun hr => ?_⟩⟩,
    fun p b k key => responseOk_iff, fun h hv hd => ?_⟩
  · rw [roleChallenge_run h ho hs hn hv hd hl hlist, hu]
  · rw [roleChallenge_run h ho hs hn hv hd hl hlist, hu]
    obtain ⟨issued, bytes⟩ := issueChal_issued s 0 c.volume
    rw [bytes]
    exact ⟨_, rfl, _, issued, rfl⟩
  · rw [roleResponse_run h ho hs hn hv hd hl hlist]
    obtain ⟨granted, right⟩ := respond_right s 0 _ k hk hr
    rw [right]
    exact ⟨_, rfl, _, granted, rfl⟩
  · rw [roleResponse_run h ho hs hn hv hd hl hlist]
    obtain ⟨rejected, wrong⟩ := respond_wrong s 0 _ k hk hr
    rw [wrong]
    exact ⟨_, rfl, _, rejected, rfl⟩
  · rw [execRoleDrop, h.run rfl (by simp [State.admRule, Cmd.plain, hv, ho, hs, hn, hd]) rfl rfl]
    exact ⟨_, rfl, _, setRole_becomes s 0 0, rfl⟩

section Paths
variable {s : State}

theorem tapDecode_eq (i : JtagInstr) : s.tapDecode i =
    if (i = .extest ∨ i = .clamp ∨ i = .highz) ∧ s.bas.resetLow = false ∨ i = .qkdebug ∧ s.roles.jtag = false then .bypass else i := by
  cases i <;> simp [State.tapDecode, ← Bool.not_eq_true]

theorem qkchalRead_run (hu : s.dieUp = true) (hz : s.bas.freeze = false) (hj : s.jtag = .qkchal) :
    execQkchalRead s = .next (match s.holdLeft 2 with
      | some _ => s.emit (.jtag 0)
      | none => (s.issueChal 2 2).1.emit (.jtag (leNat (s.issueChal 2 2).2))) := by
  rw [execQkchalRead, if_neg (by simp [tapServes_true hu hz hj])]
  cases s.holdLeft 2 <;> rfl

theorem qkrespWrite_run {d : BitVec 384} (hu : s.dieUp = true) (hz : s.bas.freeze = false) (hj : s.jtag = .qkresp) :
    execQkrespWrite d s = .next (s.respond 2 (natLe 48 d.toNat)).1 := if_pos (tapServes_true hu hz hj)

end Paths

/-- Settles O24: `setRole_becomes`, `issueChal_issued`, `respond_right` and `respond_wrong` on the JTAG path. -/
theorem pathRoles : Obligations.PathRoles := by
  unfold Obligations.PathRoles
  intro s p i data
  simp only [exec_tapReset, exec_jtagInstruction, exec_challengeExpiry, exec_challengeHoldEnd, exec_makerRoleExpiry, exec_qkchalRead,
    exec_qkrespWrite]
  refine ⟨⟨_, rfl, _, setRole_becomes s 2 0, rfl⟩, ?_, fun hu => ⟨if_pos hu, if_pos hu, fun hr => ⟨_, if_pos ⟨hu, hr⟩, setRole_becomes s _ 0⟩,
    fun hz => ⟨fun hj us hl => ?_, fun hj hl => ?_, fun k hj hk => ⟨fun hr => ?_, fun hr => ?_⟩⟩⟩⟩
  · rw [execJtagInstruction, tapDecode_eq]
    rfl
  · rw [qkchalRead_run hu hz hj, hl]
  · rw [qkchalRead_run hu hz hj, hl]
    obtain ⟨issued, bytes⟩ := issueChal_issued s 2 2
    rw [bytes]
    exact ⟨_, rfl, _, issued, rfl⟩
  · exact ⟨_, qkrespWrite_run hu hz hj, (respond_right s 2 _ k hk hr).1⟩
  · exact ⟨_, qkrespWrite_run hu hz hj, (respond_wrong s 2 _ k hk hr).1⟩

section Keys
variable {s : State} {tag : BitVec 5} {c : Cmd} {segs data : Bytes} {action len : Nat} {own : Bool} {target : Cmd → Bool}
  {range : State → Cmd → Bool} {f : State → Cmd → State}

theorem Cmd.action_eq (ho : c.opflags = action) (ha : 1 ≤ action ∧ action ≤ 6 ∨ action = 8) : c.action = action := by
  rw [Cmd.action, ho]
  split <;> omega

theorem keyFields_ok {b : Bool} (ho : c.opflags = action) (ha : 1 ≤ action ∧ action ≤ 6 ∨ action = 8) (hs : c.start = 0) (hn : c.noOps = true)
    (hl : c.length = len) (hb : b = true) (hd : (if len = 0 then c.noData else c.data) = true) : c.keyFields b len = true := by
  rw [Cmd.keyFields, hd, Cmd.action_eq ho ha]
  simp [ho, hs, hn, hl, hb]

/-- An action of KEY_MANAGE that passes its checks. -/
theorem keyManage_run (h : Turn s tag 0x4C c) (ho : c.opflags = action) (ha : 1 ≤ action ∧ action ≤ 6 ∨ action = 8) (hs : c.start = 0)
    (hn : c.noOps = true) (hl : c.length = len) (ht : target c = true) (hd : (if len = 0 then c.noData else c.data) = true)
    (hr : own = true → 1 ≤ s.roles.pcie) (hg : range s c = true) :
    s.keyManage (0 : Fin 8).val tag.toNat action len own target range f = .next (f s c) := by
  rw [State.keyManage, h.run (by simp [Cmd.action_eq ho ha]) (keyFields_ok ho ha hs hn hl ht hd) ?_ hg]
  · rfl
  · cases own <;> simp [State.admRule, State.asOwner]
    exact hr rfl

/-- One that needs the installer role, on a path without it. -/
theorem keyManage_denied (h : Turn s tag 0x4C c) (ho : c.opflags = action) (ha : 1 ≤ action ∧ action ≤ 6 ∨ action = 8) (hs : c.start = 0)
    (hn : c.noOps = true) (hl : c.length = len) (ht : target c = true) (hd : (if len = 0 then c.noData else c.data) = true)
    (hr : s.roles.pcie = 0) :
    s.keyManage (0 : Fin 8).val tag.toNat action len true target range f = .next (s.complete c 0x0400 []) := by
  rw [State.keyManage, h.deny (by simp [Cmd.action_eq ho ha]) (keyFields_ok ho ha hs hn hl ht hd) (by simp [State.admRule, State.asOwner, hr])]
  rfl

theorem badSecret_facts : ∃ u, Rejected (s.unchallenged 0) 0 s.roles.pcie u ∧ s.badSecret c = u.complete c 0x0400 [] :=
  ⟨_, reject_rejected _ _ _, rfl⟩

variable {k : VKey}

theorem protect_right (hk : s.volKey c.volume = some k) (b : Bytes) (hb : k.secret = secretOf (slice b 0 32)) :
    s.protect c b = (({ s.commit with nv := { s.nv with keys := { s.nv.keys with
      vol := s.nv.keys.vol.put c.volume { k with secret := secretOf (slice b 32 32) } } } } : State).record 0x6040 Src.sec c.volume 1).complete c 0 [] := by
  rw [State.protect, hk]
  dsimp only
  rw [if_neg (by simp [hb]), commit_nv]

theorem protect_wrong (hk : s.volKey c.volume = some k) (b : Bytes) (hb : k.secret ≠ secretOf (slice b 0 32)) : s.protect c b = s.badSecret c := by
  rw [State.protect, hk]
  exact if_pos hb

theorem loadKey_right (hk : s.volKey c.volume = some k) (b : Bytes) (hb : k.secret = some (slice b 0 32)) :
    s.loadKey c b = (({ s with roles := { s.roles with keys := withBit s.roles.keys c.volume true } } : State).record
      0x6041 Src.sec c.volume 2).complete c 0 [] := by
  rw [State.loadKey, hk]
  exact if_neg (by simp [hb])

theorem loadKey_wrong (hk : s.volKey c.volume = some k) (b : Bytes) (hb : k.secret ≠ some (slice b 0 32)) : s.loadKey c b = s.badSecret c := by
  rw [State.loadKey, hk]
  exact if_pos hb

theorem hostKey_of_secret (hk : s.volKey c.volume = some k) (hs : k.secret.isSome = true) : s.hostKey c.volume = true := by
  rw [State.hostKey, hk]
  exact hs

theorem setInstaller_right (b : Bytes) (h : s.roles.pcie = 2 ∨ s.installerKey = none ∨ s.installerKey = some (slice b 0 32)) :
    s.setInstaller c b = State.complete { s.commit with nv := { s.nv with keys := { s.nv.keys with installer := some (slice b 32 32) } } } c 0 [] := by
  rw [State.setInstaller, if_pos (by simpa using h)]
  dsimp only
  rw [commit_nv]

theorem setInstaller_wrong (b : Bytes) (h : ¬ (s.roles.pcie = 2 ∨ s.installerKey = none ∨ s.installerKey = some (slice b 0 32))) :
    s.setInstaller c b = s.badSecret c := if_neg (by simpa using h)

/-- ENTROPY_GET by the state of the source. -/
theorem entropyGet_run (h : Turn s tag 0x4D c) (hv : c.volume = 0) (ho : c.opflags = 0) (hs : c.start = 0) (hn : c.noOps = true)
    (h1 : 4 ≤ c.length) (h2 : c.length ≤ 4096) (h3 : c.length % 4 = 0) (hd : c.data = true) :
    execEntropyGet 0 tag (.done segs data) s = .next (
      if s.flintLatched ∨ s.roles.flint.stat = 3 then s.complete c 0x0500 []
      else if s.roles.flint.stat = 2 then s.defer c s.rerunHint
      else if ¬ s.roles.flint.drbg ∨ s.roles.flint.reseed then s.setCmd { c with stage := .held }
      else s.admOut c (.done segs data) fun t => ((t.draw c.length).1, (t.draw c.length).2, natLe 4 c.length)) := by
  rw [execEntropyGet, h.run rfl (by simp [State.admRule, Cmd.plain, hv, ho, hs, hn, h1, h2, h3, hd]) rfl rfl]
  rfl

end Keys

/-- Settles O25: each action by `keyManage_run`, then by whether the old secret unwraps. -/
theorem keyCommands : Obligations.KeyCommands := by
  unfold Obligations.KeyCommands
  intro s tag c segs data k hs hn
  simp only [exec_protect, exec_load, exec_unload, exec_setConnKey, exec_clearConnKey, exec_setInstaller, exec_status, exec_entropyGet]
  refine ⟨fun h hv => ⟨fun hk => ⟨fun hd hlist => ⟨fun ho hl => ⟨fun hr => ?protectDenied, fun hr b hb => ⟨fun right => ?protect, fun wrong => ?badProtect⟩⟩,
      fun ho hl hsec b hb => ⟨fun right => ?load, fun wrong => ?badLoad⟩⟩, fun ho hl hd hsec => ?unload⟩,
    fun hr ho hl hd hlist => ?setConn, fun hr ho hl hd => ?clearConn,
    fun hr => ⟨fun ho hl hd => ?setConnDenied, fun ho hl hd => ?clearConnDenied, fun ho hl hz hd => ?installerDenied⟩,
    fun hr hz ho hl hd hlist b hb => ⟨fun right => ?installer, fun wrong => ?badInstaller⟩, fun hz ho hl hd hlist => ?status⟩,
    fun h hz ho h1 h2 h3 hd => ⟨fun latched => ?failed, fun latched => ⟨fun rerun => ?deferred, fun serves => ⟨fun waits => ?held, fun up fresh hlist => ?drawn⟩⟩⟩⟩
  case protectDenied =>
    exact keyManage_denied h ho (by decide) hs hn hl (by simpa using hv) hd hr
  case protect =>
    rw [execProtect, keyManage_run h ho (by decide) hs hn hl (by simpa using hv) hd (fun _ => hr) (by simp [hk]), admIn_done hlist, hl, ← hb,
      protect_right hk b right]
    exact ⟨_, rfl, _, ⟨_, .refl _, .refl _⟩, rfl⟩
  case badProtect =>
    rw [execProtect, keyManage_run h ho (by decide) hs hn hl (by simpa using hv) hd (fun _ => hr) (by simp [hk]), admIn_done hlist, hl, ← hb,
      protect_wrong hk b wrong]
    exact ⟨_, rfl, badSecret_facts⟩
  case load =>
    rw [execLoad, keyManage_run (own := false) h ho (by decide) hs hn hl (by simpa using hv) hd nofun (hostKey_of_secret hk hsec), admIn_done hlist, hl, ← hb,
      loadKey_right hk b right]
    exact ⟨_, rfl, _, ⟨_, .refl _, .refl _⟩, rfl⟩
  case badLoad =>
    rw [execLoad, keyManage_run (own := false) h ho (by decide) hs hn hl (by simpa using hv) hd nofun (hostKey_of_secret hk hsec), admIn_done hlist, hl, ← hb,
      loadKey_wrong hk b wrong]
    exact ⟨_, rfl, badSecret_facts⟩
  case unload => exact keyManage_run (own := false) h ho (by decide) hs hn hl (by simpa using hv) hd nofun (hostKey_of_secret hk hsec)
  case setConn =>
    rw [execSetConnKey, keyManage_run h ho (by decide) hs hn hl (by simpa using hv) hd (fun _ => hr) rfl, admIn_done hlist, hl]
    dsimp only
    rw [commit_nv]
  case clearConn =>
    rw [execClearConnKey, keyManage_run h ho (by decide) hs hn hl (by simpa using hv) hd (fun _ => hr) rfl, State.clearConnKey]
    dsimp only
    rw [commit_nv]
    exact ⟨_, rfl, _, ⟨_, .refl _, .refl _⟩, rfl⟩
  case setConnDenied => exact keyManage_denied h ho (by decide) hs hn hl (by simpa using hv) hd hr
  case clearConnDenied => exact keyManage_denied h ho (by decide) hs hn hl (by simpa using hv) hd hr
  case installerDenied => exact keyManage_denied h ho (by decide) hs hn hl (by simpa using hz) hd hr
  case installer =>
    rw [execSetInstaller, keyManage_run h ho (by decide) hs hn hl (by simpa using hz) hd (fun _ => hr) rfl, admIn_done hlist, hl, ← hb,
      setInstaller_right b right]
  case badInstaller =>
    rw [execSetInstaller, keyManage_run h ho (by decide) hs hn hl (by simpa using hz) hd (fun _ => hr) rfl, admIn_done hlist, hl, ← hb,
      setInstaller_wrong b wrong]
    exact ⟨_, rfl, badSecret_facts⟩
  case status =>
    rw [execStatus, keyManage_run (own := false) h ho (by decide) hs hn hl (by simpa using hz) hd nofun rfl, admOut_done hlist]
  case failed => rw [entropyGet_run h hz ho hs hn h1 h2 h3 hd, if_pos latched]
  case deferred => rw [entropyGet_run h hz ho hs hn h1 h2 h3 hd, if_neg (by simp [latched, rerun]), if_pos rerun]; rfl
  case held => rw [entropyGet_run h hz ho hs hn h1 h2 h3 hd, if_neg (by simp [latched]; omega), if_neg (by omega), if_pos (by simpa using waits)]
  case drawn =>
    rw [entropyGet_run h hz ho hs hn h1 h2 h3 hd, if_neg (by simp [latched]; omega), if_neg (by omega), if_neg (by simp [up, fresh]), admOut_done hlist]
    rfl

section Flint
variable {s : State} {rct apt : BitVec 11}

/-- The state with a window's figures shown. -/
def State.windowSeen (s : State) (rct apt : Nat) : State := (s.setF Reg.aptMax apt).setF Reg.rctMax (max (s.f Reg.rctMax) (min 127 rct))

theorem flintWindow_run (hu : s.dieUp = true) (hd : s.dev ≠ .rom) (hh : s.roles.flint.halted = false) (h3 : s.roles.flint.stat ≠ 3) :
    execFlintWindow rct apt s = .next (if 81 ≤ rct.toNat then (s.windowSeen rct.toNat apt.toNat).healthFail (if !s.roles.flint.drbg then 3 else 1) rct.toNat
      else if 824 ≤ apt.toNat then (s.windowSeen rct.toNat apt.toNat).healthFail (if !s.roles.flint.drbg then 3 else 2) apt.toNat
      else (s.windowSeen rct.toNat apt.toNat).windowPass) := by
  rw [execFlintWindow, if_neg (by simp [hu, hd, hh, h3])]
  dsimp only
  split
  · rfl
  · split <;> rfl

theorem flintWindow_pass (hu : s.dieUp = true) (hd : s.dev ≠ .rom) (hh : s.roles.flint.halted = false) (h3 : s.roles.flint.stat ≠ 3)
    (hr : rct.toNat < 81) (ha : apt.toNat < 824) : execFlintWindow rct apt s = .next (s.windowSeen rct.toNat apt.toNat).windowPass := by
  rw [flintWindow_run hu hd hh h3, if_neg (by omega), if_neg (by omega)]

theorem flintWindow_fail (hu : s.dieUp = true) (hd : s.dev ≠ .rom) (hh : s.roles.flint.halted = false) (h3 : s.roles.flint.stat ≠ 3)
    (h : 81 ≤ rct.toNat ∨ 824 ≤ apt.toNat) : execFlintWindow rct apt s = .next ((s.windowSeen rct.toNat apt.toNat).healthFail
      (if s.roles.flint.drbg = false then 3 else if 81 ≤ rct.toNat then 1 else 2) (if 81 ≤ rct.toNat then rct.toNat else apt.toNat)) := by
  rw [flintWindow_run hu hd hh h3]
  by_cases hr : 81 ≤ rct.toNat
  · simp [hr]
  · simp [hr, show 824 ≤ apt.toNat by omega]

end Flint

/-- Settles O26: a window that passes by the three `windowPass` laws, one that fails by `healthFail_facts`. -/
theorem flintWindows : Obligations.FlintWindows := by
  unfold Obligations.FlintWindows
  intro s rct apt hu
  simp only [exec_flintWindow, exec_flintRerun, exec_drbgReseed]
  refine ⟨fun hh h2 => if_pos ⟨hu, hh, h2⟩, fun hd => if_pos ⟨hu, hd⟩, fun hd hh h3 => ⟨fun hr ha => ⟨fun h1 h2 => ?_, fun h hp => ?_, fun h hp u hw => ?_⟩,
    fun h => ⟨_, flintWindow_fail hu hd hh h3 h, healthFail_facts (s.windowSeen rct.toNat apt.toNat) _ _⟩⟩⟩
  · exact (flintWindow_pass hu hd hh h3 hr ha).trans (congrArg _ (windowPass_steady _ h1 h2))
  · exact (flintWindow_pass hu hd hh h3 hr ha).trans (congrArg _ (windowPass_count _ h hp))
  · have passed := windowPass_up (s.windowSeen rct.toNat apt.toNat) h hp
    rw [flintWindow_pass hu hd hh h3 hr ha, passed]
    subst hw
    refine ⟨fun h2 => congrArg _ (if_neg h2), fun h2 => ⟨_, congrArg _ (if_pos h2), _, .refl _, .refl _⟩⟩

end Sys2Proof.Machine
end

section
/-! PROOFS. The commands of images and hooks, and the host link (O27, O28). -/

namespace Sys2Proof.Machine

section Images
variable {s : State} {tag : BitVec 5} {c : Cmd} {segs data : Bytes} {copies : Copies} {g : Nat}

theorem chunkGate_service (hd : s.dev.minimal = false) : s.chunkGate =
    if s.openTo 6 = false then .shut else if s.unitsFit 6 1 = true ∧ s.energyFits 1 = true then .open_ else .wait := by
  simp only [State.chunkGate, hd, Bool.not_eq_true]
  rfl

theorem imageWrite_run (h : Turn s tag 0x45 c) (hr : 1 ≤ s.roles.pcie) (hv : c.volume = 0) (hn : c.noOps = true) (hs : c.start % 4096 = 0)
    (hl : c.length % 4096 = 0) (he : c.start + c.length ≤ 4194304) (hd : c.data = true) (ho : c.opflags ≤ 1) :
    execImageWrite 0 tag (.done segs data) s = .next (
      if c.opflags = 0 ∧ s.sessionOn 0 = none then s.complete c 0x0901 []
      else if s.openTo 6 = false then s.complete c 0x0102 []
      else if s.unitsFit 6 1 = true ∧ s.energyFits 1 = true then s.admIn c (.done segs data) fun t b => t.imageWrite c b
      else s.hold c 6 1) := by
  rw [execImageWrite, h.run rfl (by simp [State.admRule, hv, hn, hs, hl, he, hd, ho]) (by simp [State.admRule, State.asOwner, hr]) rfl,
    chunkGate_service h.notMinimal]
  simp only [Option.isNone_iff_eq_none]
  by_cases h0 : c.opflags = 0 ∧ s.sessionOn 0 = none
  · rw [if_pos h0, if_pos h0]; rfl
  rw [if_neg h0, if_neg h0]
  by_cases h1 : s.openTo 6 = false
  · rw [if_pos h1, if_pos h1]; rfl
  rw [if_neg h1, if_neg h1]
  by_cases h2 : s.unitsFit 6 1 = true ∧ s.energyFits 1 = true
  · rw [if_pos h2, if_pos h2]; rfl
  · rw [if_neg h2, if_neg h2]; rfl

/-- The session that a `Begun` opens is its path's. -/
theorem Begun.session {p : Nat} {t : State} (h : Begun s p t) : t.sessionOn p = some s.spareSlot := by
  obtain ⟨u, -, w, before, after⟩ := h
  have img : t.img.session = some (p, s.spareSlot) := by rw [after.img, (State.record_steady ..).img, before.img]
  rw [State.sessionOn, img]
  exact if_pos rfl

theorem imageWrite_into {u : State} {h : Nat} {b : Bytes} (hu : (if c.opflags = 1 then s.beginSession 0 else s) = u) (hs : u.sessionOn 0 = some h) :
    s.imageWrite c b = if (u.putChunks h (c.start / 4096) (c.length / 4096) b).2 = true then
      (u.putChunks h (c.start / 4096) (c.length / 4096) b).1.complete c 0
        (natLe 4 c.length ++ natLe 8 (u.putChunks h (c.start / 4096) (c.length / 4096) b).1.heldBytes)
      else s.complete c 0x0201 [] := by
  rw [State.imageWrite, hu]
  dsimp only
  rw [hs]

/-- A chunk goes to the pool of the session it opens or finds. -/
theorem imageWrite_facts (b : Bytes) (hg : c.opflags = 1 ∨ c.opflags = 0 ∧ s.sessionOn 0 = some g) : ∃ u : State, ∃ h,
    (if c.opflags = 1 then Begun s 0 u ∧ h = s.spareSlot else u = s ∧ h = g) ∧
    ∀ r, r = u.putChunks h (c.start / 4096) (c.length / 4096) b →
      (r.2 = true → s.imageWrite c b = r.1.complete c 0 (natLe 4 c.length ++ natLe 8 r.1.heldBytes)) ∧
      (r.2 = false → s.imageWrite c b = s.complete c 0x0201 []) := by
  have into (u : State) (h : Nat) (hu : (if c.opflags = 1 then s.beginSession 0 else s) = u) (hs : u.sessionOn 0 = some h) :
      ∀ r, r = u.putChunks h (c.start / 4096) (c.length / 4096) b →
      (r.2 = true → s.imageWrite c b = r.1.complete c 0 (natLe 4 c.length ++ natLe 8 r.1.heldBytes)) ∧
      (r.2 = false → s.imageWrite c b = s.complete c 0x0201 []) := by
    intro r hr
    rw [imageWrite_into hu hs, ← hr]
    exact ⟨fun h => if_pos h, fun h => if_neg (by simp [h])⟩
  obtain h1 | ⟨h0, hg⟩ := hg
  · have begun := beginSession_begun s 0
    exact ⟨_, _, (if_pos h1).mpr ⟨begun, rfl⟩, into _ _ (if_pos h1) begun.session⟩
  · have h1 : c.opflags ≠ 1 := by omega
    exact ⟨_, _, (if_neg h1).mpr ⟨rfl, rfl⟩, into _ _ (if_neg h1) hg⟩

theorem imageCommit_run (h : Turn s tag 0x46 c) (hr : 1 ≤ s.roles.pcie) (hv : c.volume = 0) (hn : c.noOps = true) (ho : c.opflags = 0)
    (hs : c.start = 0) (hp : c.pointerOk 0 = true) : execImageCommit 0 tag copies s = .next (match (s.commitImage 0 c.length copies).2 with
      | none => s.complete c 0x0901 []
      | some (code, g) => if s.unitsFit 6 (min 512 (ceilDiv c.length 4096)) = false then s.hold c 6 (min 512 (ceilDiv c.length 4096))
        else (s.commitImage 0 c.length copies).1.complete c (imageStatus code) (natLe 4 0 ++ natLe 4 code ++ natLe 1 g)) := by
  rw [execImageCommit, h.run rfl (by simp [State.admRule, Cmd.plain, hv, hn, ho, hs, hp]) (by simp [State.admRule, State.asOwner, hr]) rfl]
  simp only [h.notMinimal, Bool.false_eq_true, not_false_eq_true, true_and, Bool.not_eq_true]
  rfl

/-- A commit that finds no session, or no whole image in its pool. -/
theorem commitImage_refused {p len : Nat} (h : s.sessionOn p = none ∨
    ∃ g, s.sessionOn p = some g ∧ ((s.pool g).held < len ∨ imgTotal ((s.pool g).bytes len) ≠ len)) :
    s.commitImage p len copies = (s, none) := by
  rw [State.commitImage]
  obtain h | ⟨g, h, short⟩ := h
  · rw [h]
  · rw [h]
    exact if_pos short

theorem imageConfirm_run (h : Turn s tag 0x47 c) (hr : 1 ≤ s.roles.pcie) (hv : c.volume = 0) (hn : c.noOps = true) (ho : c.opflags = 0)
    (hs : c.start = 0) (hd : c.noData = true) :
    execImageConfirm 0 tag s = .next (if s.onTrial then s.confirmImage.complete c 0 [] else s.complete c 0x0901 []) := by
  rw [execImageConfirm, h.run rfl (by simp [State.admRule, Cmd.plain, hv, hn, ho, hs, hd]) (by simp [State.admRule, State.asOwner, hr]) rfl]
  rfl

theorem hookLoad_run (h : Turn s tag 0x52 c) (hr : 1 ≤ s.roles.pcie) (hv : c.volume = 0) (hn : c.noOps = true) (ho : c.opflags = 0)
    (hs : c.start = 0) (h1 : 64 ≤ c.length) (h2 : c.length ≤ 10816) (hd : c.data = true) :
    execHookLoad 0 tag (.done segs data) s = .next (
      if s.hooks.busy then (if c.stage = .held then s else s.setCmd { c with stage := .held })
      else s.admIn c (.done segs data) fun t b => t.hookLoad c b) := by
  rw [execHookLoad, h.run rfl (by simp [State.admRule, Cmd.plain, hv, hn, ho, hs, h1, h2, hd]) (by simp [State.admRule, State.asOwner, hr]) rfl]
  rfl

/-- A section that HOOK_LOAD finds good is stored. -/
theorem hookLoad_facts (b : Bytes) {r : State × Nat} (hr : r = State.loadSection { s.countF Reg.hookMerged s.hooks.queue.length with
      hooks := { s.hooks with queue := [] } } 1 true b) :
    (r.2 = 1 → s.hookLoad c b = State.complete { r.1.commit with nv := { r.1.nv with config := r.1.nv.config.put 0 b } } c 0 []) ∧
    (r.2 ≠ 1 → s.hookLoad c b = r.1.complete c 0x0900 []) := by
  have kept : (s.countF Reg.hookMerged s.hooks.queue.length).hooks = s.hooks := rfl
  unfold State.hookLoad
  dsimp only at hr ⊢
  rw [kept, ← hr, commit_nv]
  exact ⟨fun h => if_pos h, fun h => if_neg h⟩

theorem trialExpiry_run (hu : s.dieUp = true) (ht : s.onTrial = true) (hd : s.dev.inService = true) : execTrialExpiry s =
    .next (if s.img.selfConfirm then s.confirmImage else { s.endTrial.touch 9 with start.trial := false }) := by
  rw [execTrialExpiry, if_neg (by simp [hu, ht, hd])]
  split <;> rfl

theorem trialTimeSave_run (hu : s.dieUp = true) (ht : s.onTrial = true) (hz : s.bas.freeze = false) {k : Nat}
    (hk : k = (if s.dev.inService then (s.time.uptime - s.img.trialAt) / 25000 else 0)) :
    execTrialTimeSave s = .next { s.writeBoot (fun r => { r with trialMs := r.trialMs + s.img.trialHeld + k }) with
      img := { s.img with trialHeld := 0, trialAt := s.img.trialAt + 25000 * k } } := by
  rw [execTrialTimeSave, if_pos ⟨hu, by simp [hz]⟩, State.saveTrial, if_pos ht, hk]
  rfl

end Images

/-- Settles O27: the session by `beginSession_begun`, the commit by `commitImage_committed`, the confirmation by `confirmImage_confirmed`. -/
theorem imageCommands : Obligations.ImageCommands := by
  unfold Obligations.ImageCommands
  intro s tag c segs data copies g
  simp only [exec_imageWrite, exec_imageCommit, exec_imageConfirm, exec_hookLoad, exec_trialTimeSave, exec_trialExpiry]
  refine ⟨fun hr hv hn => ⟨fun hs hl he hd h => ⟨fun ho hg => ?noSession, fun hg => ?write⟩, fun ho hs => ⟨fun h hp => ⟨fun hg => ?noCommit, fun hg =>
      ⟨fun short => ?refused, fun long total => ?commit⟩⟩, fun h hd => ?confirm, fun h h1 h2 hd => ?hook⟩⟩,
    fun hu ht => ⟨fun hz k hk => trialTimeSave_run hu ht hz hk, fun hd => ?expiry⟩⟩
  case noSession =>
    rw [imageWrite_run h hr hv hn hs hl he hd (by omega), if_pos ⟨ho, hg⟩]
  case write =>
    have run := imageWrite_run (segs := segs) (data := data) h hr hv hn hs hl he hd (by omega)
    rw [if_neg (by rintro ⟨h0, h1⟩; simp [h0, h1] at hg)] at run
    refine ⟨fun hopen => ?_, fun hopen full => ?_, fun hopen fits energy hlist => ?_⟩
    · rw [run, if_pos hopen]
    · rw [run, if_neg (by simp [hopen]), if_neg (by rintro ⟨h1, h2⟩; simp [h1, h2] at full)]
    · rw [run, if_neg (by simp [hopen]), if_pos ⟨fits, energy⟩, admIn_done hlist]
      exact ⟨_, rfl, imageWrite_facts _ hg⟩
  case noCommit => rw [imageCommit_run h hr hv hn ho hs hp, commitImage_refused (.inl hg)]
  case refused => rw [imageCommit_run h hr hv hn ho hs hp, commitImage_refused (.inr ⟨g, hg, short⟩)]
  case commit =>
    obtain ⟨committed, answer⟩ := commitImage_committed s 0 g c.length copies hg long total
    rw [imageCommit_run h hr hv hn ho hs hp, answer]
    dsimp only
    refine ⟨fun full => by rw [if_pos full], fun fits code hcode => ?_⟩
    rw [if_neg (by simp [fits]), hcode]
    exact ⟨_, rfl, _, committed, rfl⟩
  case confirm =>
    rw [imageConfirm_run h hr hv hn ho hs hd]
    exact ⟨fun ht => ⟨_, congrArg _ (if_pos ht), _, confirmImage_confirmed s (onTrial_trial ht), rfl⟩, fun ht => by rw [if_neg (by simp [ht])]⟩
  case hook =>
    rw [hookLoad_run h hr hv hn ho hs h1 h2 hd]
    refine ⟨fun hb hc => by rw [if_pos hb, if_neg hc], fun hb hlist r hload => ?_⟩
    rw [if_neg (by simp [hb]), admIn_done hlist]
    obtain ⟨good, bad⟩ := hookLoad_facts (c := c) _ hload
    exact ⟨fun h => congrArg _ (good h), fun h => congrArg _ (bad h)⟩
  case expiry =>
    rw [trialExpiry_run hu ht hd]
    refine ⟨fun hc => ⟨_, congrArg _ (if_pos hc), confirmImage_confirmed s (onTrial_trial ht)⟩,
      fun hc => ⟨_, congrArg _ (if_neg (by simp [hc])), s.endTrial.touch 9, ⟨_, .refl _, State.touch_steady ..⟩, ?_⟩⟩
    have start : (s.endTrial.touch 9).start = s.start := (State.record_steady ..).start
    exact congrArg (fun x => { s.endTrial.touch 9 with start := { x with trial := false } }) start

section Link
variable {s : State}

theorem hostDown_false (hu : s.dieUp = true) (hp : s.pcie.perstHeld = false) : ¬ (¬ s.dieUp = true ∨ s.pcie.perstHeld = true) := by
  simp [hu, hp]

theorem perstAssert_run (hu : s.dieUp = true) (hp : s.pcie.perstHeld = false) : execPerstAssert s =
    .next { (s.pcieReset 0x2005 Reg.resetsPerst false).linkDown with pcie := { (s.pcieReset 0x2005 Reg.resetsPerst false).linkDown.pcie with
      perstHeld := true, detect := false, crs := true } } := by
  rw [execPerstAssert, if_neg (by simp [hp]), if_neg (by simp [hu])]
  rfl

theorem aspmL1Request_run (hu : s.dieUp = true) (hl : s.pcie.up = true) (hr : s.cycleRing = false) (ho : s.readsOut = false) :
    execAspmL1Request s = .next { s with pcie := { s.pcie with l1Asked := true } } := if_pos ⟨hu, hl, by simp [hr], by simp [ho]⟩

theorem linkRetrain_run (hu : s.dieUp = true) (hd : s.dev ≠ .recovery) (hl : s.pcie.up = true) :
    execLinkRetrain s = .next (s.setF Reg.linkPm 4) := by
  rw [execLinkRetrain, asWrite_run hu hd, if_pos hl]

/-- The state of a link that has come up at a rate and a width. -/
def State.linkedUp (u : State) (rate width : Nat) (reversed : Bool) (polarity : Nat) : State :=
  (((((({ u with pcie := { u.pcie with up := true, detect := true } } : State).setF Reg.linkSpeed rate).setF Reg.linkWidth width).setF Reg.linkUp 1).setF
    Reg.linkReversed (b2n reversed)).setF Reg.linkPolarity polarity).setF Reg.linkPm 0

theorem linkedUp_fields (u : State) (rate width : Nat) (reversed : Bool) (polarity : Nat) (hw : width < 8) (hp : polarity < 16) :
    let w := u.linkedUp rate width reversed polarity
    (w.f Reg.linkSpeed, w.f Reg.linkWidth, w.f Reg.linkUp, w.f Reg.linkReversed, w.f Reg.linkPolarity, w.f Reg.linkPm) =
      (rate % 8, width, 1, b2n reversed, polarity, 0) := by
  have bit : b2n reversed % 2 = b2n reversed := by cases reversed <;> rfl
  have fields := linkFields { u with pcie := { u.pcie with up := true, detect := true } } rate width (b2n reversed) polarity
  dsimp only [State.linkedUp]
  rw [fields Reg.linkSpeed, fields Reg.linkWidth, fields Reg.linkUp, fields Reg.linkReversed, fields Reg.linkPolarity, fields Reg.linkPm, bit,
    Nat.mod_eq_of_lt hw, Nat.mod_eq_of_lt hp]
  rfl

theorem linkedUp_others (u : State) (rate width : Nat) (reversed : Bool) (polarity : Nat) (f : Field) (h : f.key / 32 ≠ 0x400) :
    (u.linkedUp rate width reversed polarity).f f = u.f f := linkOthers { u with pcie := { u.pcie with up := true, detect := true } } _ _ _ _ f h

theorem linkedUp_rest (u : State) (rate width : Nat) (reversed : Bool) (polarity : Nat) :
    { u.linkedUp rate width reversed polarity with csr := u.csr, pcie := u.pcie } = u ∧
      (u.linkedUp rate width reversed polarity).pcie = { u.pcie with up := true, detect := true } := by
  unfold State.linkedUp State.setF
  exact ⟨rfl, rfl⟩

section Up
variable {speed width : BitVec 3} {reversed : Bool} {polarity : BitVec 4} {u : State} {rate : Nat}

theorem pcieLinkUp_run (hu : s.dieUp = true) (hp : s.pcie.perstHeld = false) (hs : speed ≠ 0)
    (hw : width.toNat = 1 ∨ width.toNat = 2 ∨ width.toNat = 4) (ht : u = s.takeMaxSpeed) (hr : rate = min speed.toNat (u.f Reg.maxSpeed))
    {w : State} (he : w = u.linkedUp rate width.toNat (reversed && width.toNat = 4) polarity.toNat) :
    execPcieLinkUp speed width reversed polarity s =
      .next (if rate < w.f Reg.maxSpeed ∨ width.toNat < 4 then (w.countF Reg.resetsDegrade 1).record 0x2011 Src.pcie rate width.toNat else w) := by
  subst he hr ht
  refine if_neg ?_
  rintro (h | h | h | h)
  · exact h hu
  · exact absurd h (by simp [hp])
  · exact hs h
  · omega

theorem pcieLinkUp_facts (hu : s.dieUp = true) (hp : s.pcie.perstHeld = false) (hs : speed ≠ 0)
    (hw : width.toNat = 1 ∨ width.toNat = 2 ∨ width.toNat = 4) (ht : u = s.takeMaxSpeed) (hr : rate = min speed.toNat (u.f Reg.maxSpeed)) :
    Answers (execPcieLinkUp speed width reversed polarity s) fun t => ∃ w : State,
      (w.f Reg.linkSpeed, w.f Reg.linkWidth, w.f Reg.linkUp, w.f Reg.linkReversed, w.f Reg.linkPolarity, w.f Reg.linkPm) =
        (rate % 8, width.toNat, 1, b2n (reversed && width.toNat = 4), polarity.toNat, 0) ∧
      (∀ f : Field, f.key / 32 ≠ 0x400 → w.f f = u.f f) ∧
      { w with csr := u.csr, pcie := u.pcie } = u ∧ w.pcie = { u.pcie with up := true, detect := true } ∧
      if rate < u.f Reg.maxSpeed ∨ width.toNat < 4 then Logs (w.countF Reg.resetsDegrade 1) 0x2011 Src.pcie rate width.toNat 0 0 t else t = w := by
  obtain ⟨w, hlinked⟩ : ∃ w, w = u.linkedUp rate width.toNat (reversed && width.toNat = 4) polarity.toNat := ⟨_, rfl⟩
  have fields := linkedUp_fields u rate width.toNat (reversed && width.toNat = 4) polarity.toNat width.isLt polarity.isLt
  have others := linkedUp_others u rate width.toNat (reversed && width.toNat = 4) polarity.toNat
  obtain ⟨rest, pcie⟩ := linkedUp_rest u rate width.toNat (reversed && width.toNat = 4) polarity.toNat
  have run := pcieLinkUp_run hu hp hs hw ht hr hlinked
  rw [← hlinked] at fields others rest pcie
  rw [others Reg.maxSpeed (by decide)] at run
  refine ⟨_, run, w, fields, others, rest, pcie, ?_⟩
  split
  · exact ⟨_, .refl _, .refl _⟩
  · rfl

end Up

end Link

/-- Settles O28: the resets by `pcieReset_hostReset`, a link that comes up by `pcieLinkUp_facts`. -/
theorem hostLink : Obligations.HostLink := by
  unfold Obligations.HostLink
  intro s v speed width reversed polarity
  simp only [exec_perstDeassert, exec_perstAssert, exec_hotReset, exec_functionLevelReset, exec_busMasterEnableClear, exec_busMasterEnableSet,
    exec_d3hotEntry, exec_d0Return, exec_msixUnmask, exec_linkRetrain, exec_aspmL1Request, exec_pcieLinkUp]
  refine ⟨rfl, fun hu hp => ⟨⟨_, perstAssert_run hu hp, _, pcieReset_hostReset .., rfl⟩, ⟨_, if_neg (hostDown_false hu hp), _, pcieReset_hostReset .., rfl⟩,
    ⟨_, if_neg (hostDown_false hu hp), pcieReset_hostReset ..⟩, if_neg (by simp [hp]), if_neg (hostDown_false hu hp), if_neg (hostDown_false hu hp),
    if_neg (hostDown_false hu hp), if_neg (hostDown_false hu hp), if_neg (hostDown_false hu hp), fun hl hd => linkRetrain_run hu hd hl,
    aspmL1Request_run hu, fun hs hw u rate ht hr => pcieLinkUp_facts hu hp hs hw ht hr⟩⟩

end Sys2Proof.Machine
end

section
/-! PROOFS. The reads of host memory (O29). -/

namespace Sys2Proof.Machine

section Reads
variable {s : State} {n : Nat} {e : ReadEnd} {k : ReadFor} {tag : BitVec 5} {off : BitVec 22}

/-- The state with an AER bit set. -/
def State.aerBit (s : State) (i : Nat) : State := { s with pcie := { s.pcie with aer := withBit s.pcie.aer i true } }

/-- The error bit that the end of a read sets. -/
theorem noteEnd_eq : s.noteEnd e = match e with
    | .poisoned => s.aerBit 2
    | .timedOut => s.aerBit 3
    | _ => s := by
  cases e <;> rfl

theorem hostReadCompletion_run (hu : s.dieUp = true) (hp : s.pcie.perstHeld = false) (hz : s.bas.freeze = false) {m : Fin 8} :
    execHostReadCompletion k m tag off e s = .next (s.readEnd k m.val tag.toNat off.toNat e) := if_neg (by simp [hu, hp, hz])

theorem unexpectedCpl_counts (u : State) : Counts (u.setF Reg.errUnexp 1) 0x21 u.unexpectedCpl := ⟨_, .refl _, .refl _⟩

theorem fetchEnd_unawaited {u : State} (h : (u.ring n).fetching = none) : u.fetchEnd n e = u.unexpectedCpl := by
  rw [State.fetchEnd, h]

theorem ring_ne_default {r : Ring} (h : r.state = 1) : r ≠ {} := fun k => by rw [k] at h; exact absurd h (by decide)

/-- The ring of a faulted fetch. -/
theorem fetchEnd_fault {u : State} {slot len cause : Nat} {bit : Field} (h : (u.ring n).fetching = some (slot, len)) (hs : (u.ring n).state = 1)
    (hi : (u.ring n).indexing = false) (he : e = .timedOut ∧ bit = Reg.errCplTo ∧ cause = 1 ∨ (e = .poisoned ∨ e = .unsupported) ∧ bit = Reg.errPoison ∧ cause = 2) :
    u.fetchEnd n e = ((u.setF bit 1).setRing n { u.ring n with
      state := 3, fault := cause, fetching := none, indexing := false
      again := if (u.ring n).indexing then false else (u.ring n).again }).record 0x2022 Src.ring n cause := by
  have fault := ringFault_twice u n cause bit { u.ring n with fetching := none } (ring_ne_default hs)
  rw [hi, if_neg (by decide), ← fault, State.fetchEnd, h]
  dsimp only
  rw [if_neg (by simp [hs])]
  obtain ⟨rfl, rfl, rfl⟩ | ⟨rfl | rfl, rfl, rfl⟩ := he <;> rfl

theorem fetchEnd_data {slot len : Nat} {b : Bytes} (h : (s.ring n).fetching = some (slot, len)) (hs : (s.ring n).state = 1) :
    s.fetchEnd n (.data b) = ((s.setRing n { s.ring n with fetching := none }).takeSlots n slot len b).fetchAll n := by
  rw [State.fetchEnd, h]
  exact if_neg (by simp [hs])

theorem indexEnd_unawaited {u : State} (h : (u.ring n).indexing = false) : u.indexEnd n e = u.unexpectedCpl := if_pos (by simp [h])

theorem indexEnd_fault {u : State} {bit : Field} (hi : (u.ring n).indexing = true) (hs : (u.ring n).state = 1)
    (he : e = .timedOut ∧ bit = Reg.errCplTo ∨ (e = .poisoned ∨ e = .unsupported) ∧ bit = Reg.errPoison) :
    u.indexEnd n e = ((u.setF bit 1).setRing n { u.ring n with
      state := 3, fault := 3, fetching := none, indexing := false
      again := if (u.ring n).indexing then false else (u.ring n).again }).record 0x2022 Src.ring n 3 := by
  have fault := ringFault_twice u n 3 bit { u.ring n with indexing := false, again := false } (ring_ne_default hs)
  rw [hi, if_pos rfl, ← fault, State.indexEnd, if_neg (by simp [hi])]
  dsimp only
  rw [if_neg (by simp [hs])]
  obtain ⟨rfl, rfl⟩ | ⟨rfl | rfl, rfl⟩ := he <;> rfl

theorem indexEnd_data {b : Bytes} (hi : (s.ring n).indexing = true) (hs : (s.ring n).state = 1) (ha : (s.ring n).again = false) {u : State}
    (hu : u = s.setRing n { s.ring n with indexing := false, again := false }) :
    s.indexEnd n (.data b) = if (s.ring n).ctx.sqDepth ≤ leAt b 0 4 then u.badBell n else (u.newTail n (leAt b 0 4)).fetchAll n := by
  rw [State.indexEnd, if_neg (by simp [hi])]
  dsimp only
  rw [if_neg (by simp [hs]), if_neg (by simp [ha]), hu]

theorem indexEnd_badTail (u : State) : Logs u 0x2020 Src.ring n 0 0 0 (u.record 0x2020 Src.ring n) ∧
    Counts (u.record 0x2020 Src.ring n) 0x22 (u.badBell n) := ⟨⟨_, .refl _, .refl _⟩, ⟨_, .refl _, .refl _⟩⟩

theorem transferRead_unawaited {u : State} {t o : Nat} (h : u.movingCmd n t o = none) : u.transferRead n t o e = u.unexpectedCpl := by
  rw [State.transferRead, h]

theorem transferRead_moving {u : State} {t o : Nat} {c : Cmd} {d : Desc} (h : u.movingCmd n t o = some (c, d)) (hd : d.toHost = false) :
    u.transferRead n t o e = match e with
      | .data b => u.descData c d b
      | .timedOut => (u.setF Reg.errCplTo 1).descFault c d 1
      | .poisoned => (u.setF Reg.errPoison 1).descFault c d 2
      | .unsupported => u.descFault c d 3 := by
  rw [State.transferRead, h]
  exact (if_neg (by simp [hd])).trans (by cases e <;> rfl)

variable {m : Fin 8} (hu : s.dieUp = true) (hp : s.pcie.perstHeld = false) (hz : s.bas.freeze = false)
include hu hp hz

/-- A completion that nothing awaits. -/
theorem read_unawaited (h : match k with
    | .fetch => (s.ring m.val).fetching = none
    | .index => (s.ring m.val).indexing = false
    | .transfer => s.movingCmd m.val tag.toNat off.toNat = none
    | .table => False) :
    Answers (execHostReadCompletion k m tag off e s) (Counts ((s.noteEnd e).setF Reg.errUnexp 1) 0x21) := by
  refine ⟨_, hostReadCompletion_run hu hp hz, ?_⟩
  have counts := unexpectedCpl_counts (s.noteEnd e)
  cases k with
  | fetch =>
    rw [State.readEnd, fetchEnd_unawaited (by rw [noteEnd_ring]; exact h)]
    exact counts
  | index =>
    rw [State.readEnd, indexEnd_unawaited (by rw [noteEnd_ring]; exact h)]
    exact counts
  | table => exact h.elim
  | transfer =>
    rw [State.readEnd, transferRead_unawaited (by rw [noteEnd_movingCmd]; exact h)]
    exact counts

/-- The state of a ring that a read has faulted. -/
theorem fetch_faults {slot len cause : Nat} {bit : Field} (h : (s.ring m.val).fetching = some (slot, len)) (hs : (s.ring m.val).state = 1)
    (hi : (s.ring m.val).indexing = false)
    (he : e = .timedOut ∧ bit = Reg.errCplTo ∧ cause = 1 ∨ (e = .poisoned ∨ e = .unsupported) ∧ bit = Reg.errPoison ∧ cause = 2) :
    Answers (execHostReadCompletion .fetch m tag off e s) (Logs (((s.noteEnd e).setF bit 1).setRing m.val { s.ring m.val with
      state := 3, fault := cause, fetching := none, indexing := false
      again := if (s.ring m.val).indexing then false else (s.ring m.val).again }) 0x2022 Src.ring m.val cause 0 0) := by
  have ring := noteEnd_ring s e m.val
  refine ⟨_, hostReadCompletion_run hu hp hz, ?_⟩
  rw [State.readEnd, fetchEnd_fault (u := s.noteEnd e) (by rw [ring]; exact h) (by rw [ring]; exact hs) (by rw [ring]; exact hi) he, ring]
  exact ⟨_, .refl _, .refl _⟩

theorem index_faults {bit : Field} (hi : (s.ring m.val).indexing = true) (hs : (s.ring m.val).state = 1)
    (he : e = .timedOut ∧ bit = Reg.errCplTo ∨ (e = .poisoned ∨ e = .unsupported) ∧ bit = Reg.errPoison) :
    Answers (execHostReadCompletion .index m tag off e s) (Logs (((s.noteEnd e).setF bit 1).setRing m.val { s.ring m.val with
      state := 3, fault := 3, fetching := none, indexing := false
      again := if (s.ring m.val).indexing then false else (s.ring m.val).again }) 0x2022 Src.ring m.val 3 0 0) := by
  have ring := noteEnd_ring s e m.val
  refine ⟨_, hostReadCompletion_run hu hp hz, ?_⟩
  rw [State.readEnd, indexEnd_fault (u := s.noteEnd e) (by rw [ring]; exact hi) (by rw [ring]; exact hs) he, ring]
  exact ⟨_, .refl _, .refl _⟩

theorem transfer_run {c : Cmd} {d : Desc} (h : s.movingCmd m.val tag.toNat off.toNat = some (c, d)) (hd : d.toHost = false) :
    execHostReadCompletion .transfer m tag off e s = .next (match e with
      | .data b => (s.noteEnd e).descData c d b
      | .timedOut => ((s.noteEnd e).setF Reg.errCplTo 1).descFault c d 1
      | .poisoned => ((s.noteEnd e).setF Reg.errPoison 1).descFault c d 2
      | .unsupported => (s.noteEnd e).descFault c d 3) := by
  rw [hostReadCompletion_run hu hp hz, State.readEnd, transferRead_moving (by rw [noteEnd_movingCmd]; exact h) hd]

end Reads

/-- Settles O29: an error's bits by `noteEnd_eq`, a completion by what awaits it. -/
theorem hostReads : Obligations.HostReads := by
  unfold Obligations.HostReads
  intro s n tag off b e hu hp
  simp only [exec_pcieErrorReceived, exec_completionTimeout, exec_hostReadCompletion]
  have down := hostDown_false hu hp
  refine ⟨⟨⟨_, if_neg down, _, .refl _, .refl _⟩, if_neg down, if_neg down, if_neg down, if_neg down, if_neg down,
      ⟨_, if_neg down, _, ⟨_, .refl _, .refl _⟩, _, .refl _, .refl _⟩⟩,
    fun hz => ⟨fun k => rfl, fun h => ?_, fun slot k h hs hi => ⟨fun he => ?_, fun he => ?_, fun he => ?_⟩, fun h => ?_,
      fun hi hs _ => ⟨fun he ha u hw => ⟨fun hb => ?_, fun hb => ?_⟩, fun he => ?_, fun he => ?_⟩, fun h => ?_,
      fun c d h hd => ⟨fun he => ?_, fun he => ?_, fun he => ?_, fun he => ?_⟩, fun y hy hi => hostReadCompletion_run hu hp hz⟩⟩
  · cases e <;> exact read_unawaited hu hp hz h
  · subst he
    rw [hostReadCompletion_run hu hp hz]
    exact congrArg _ (fetchEnd_data h hs)
  · subst he
    exact fetch_faults hu hp hz h hs hi (.inl ⟨rfl, rfl, rfl⟩)
  · obtain rfl | rfl := he <;> exact fetch_faults hu hp hz h hs hi (.inr ⟨by decide, rfl, rfl⟩)
  · cases e <;> exact read_unawaited hu hp hz h
  · subst he
    rw [hostReadCompletion_run hu hp hz]
    exact congrArg _ ((indexEnd_data hi hs ha hw).trans (if_neg (by omega)))
  · subst he
    exact ⟨_, (hostReadCompletion_run hu hp hz).trans (congrArg _ ((indexEnd_data hi hs ha hw).trans (if_pos hb))), _, indexEnd_badTail u⟩
  · subst he
    exact index_faults hu hp hz hi hs (.inl ⟨rfl, rfl⟩)
  · obtain rfl | rfl := he <;> exact index_faults hu hp hz hi hs (.inr ⟨by decide, rfl⟩)
  · cases e <;> exact read_unawaited hu hp hz h
  all_goals
    subst he
    exact transfer_run hu hp hz h hd

end Sys2Proof.Machine
end

section
/-! PROOFS. The rings: doorbells, pushes, chains, moderation, enable and disable (O30). -/

namespace Sys2Proof.Machine

section Rings
variable {s : State} {n : Nat}

theorem asBell_run (hu : s.dieUp = true) (hp : s.pcie.perstHeld = false) (hr : s.dev ≠ .recovery) (hz : s.bas.freeze = false) (f : State → State) :
    s.asBell f = .next (f s) := by
  rw [State.asBell, if_neg (by simp [hp]), asWrite_run hu hr, if_neg (by simp [State.bellsFrozen, hz])]

theorem asBell_frozen (hu : s.dieUp = true) (hp : s.pcie.perstHeld = false) (hr : s.dev ≠ .recovery) (hz : s.bas.freeze = true) (f : State → State) :
    Answers (s.asBell f) (Counts s 0x03) := by
  rw [State.asBell, if_neg (by simp [hp]), asWrite_run hu hr]
  exact ⟨_, congrArg _ (if_pos hz), _, .refl _, .refl _⟩

theorem badBell_facts (s : State) (n : Nat) : ∃ u, Logs s 0x2020 Src.ring n 0 0 0 u ∧ Counts u 0x22 (s.badBell n) :=
  ⟨_, ⟨_, .refl _, .refl _⟩, ⟨_, .refl _, .refl _⟩⟩

/-- A ring with a tail that a doorbell has given it. -/
def Ring.belled (r : Ring) (tail now : Nat) : Ring := { r with sqTail := tail, bells := r.bells ++ [(tail, now)] }

theorem newTail_new {tail : Nat} (h : tail ≠ (s.ring n).sqTail) :
    s.newTail n tail = s.setRing n ((s.ring n).belled tail s.time.uptime) := if_neg h

/-- A doorbell that R203 accepts, whose tail is new. -/
theorem dbTail_new {v : Nat} (hs : (s.ring n).state = 1) (hb : (s.ring n).ctx.dbBare = false) (h1 : bits v 15 10 = 0) (h2 : bits v 31 17 = 0)
    (hd : bits v 9 0 < (s.ring n).ctx.sqDepth) (ht : bits v 9 0 ≠ (s.ring n).sqTail) {u : State}
    (hu : u = s.setRing n ((s.ring n).belled (bits v 9 0) s.time.uptime)) :
    s.dbTail n v = (if bit v 16 then u.takePush n (s.ring n).sqTail (bits v 9 0) else u).fetchAll n := by
  rw [State.dbTail]
  dsimp only
  rw [if_neg (by simp [hs, hb, h1, h2]; omega), if_neg ht, newTail_new ht, ← hu]

theorem dbTail_bad {v : Nat} (h : (s.ring n).state ≠ 1 ∨ (s.ring n).ctx.dbBare = true ∨ bits v 15 10 ≠ 0 ∨ bits v 31 17 ≠ 0 ∨
    (s.ring n).ctx.sqDepth ≤ bits v 9 0) : s.dbTail n v = s.badBell n := if_pos h

theorem dbTail_same {v : Nat} (hs : (s.ring n).state = 1) (hb : (s.ring n).ctx.dbBare = false) (h1 : bits v 15 10 = 0) (h2 : bits v 31 17 = 0)
    (hd : bits v 9 0 < (s.ring n).ctx.sqDepth) (ht : bits v 9 0 = (s.ring n).sqTail) : s.dbTail n v = s := by
  rw [State.dbTail]
  dsimp only
  rw [if_neg (by simp [hs, hb, h1, h2]; omega), if_pos ht]

/-- A push whose window matches its doorbell. -/
theorem takePush_match {x : Ring} {old new : Nat} (hx : x.state = 1) (hp : x.ctx.push = true)
    (hl : x.pushed = 64 * ((new + x.ctx.sqDepth - old) % x.ctx.sqDepth)) (hs : x.snap = none) (hk : (new + x.ctx.sqDepth - old) % x.ctx.sqDepth ≤ 4) :
    (s.setRing n x).takePush n old new = s.setRing n { x with
      pushed := 0, snap := some (old, x.push.bytes 0 (64 * ((new + x.ctx.sqDepth - old) % x.ctx.sqDepth))) } := by
  rw [State.takePush, State.ring_setRing]
  dsimp only
  rw [if_pos ⟨hp, hl, by rw [hs]; rfl, hk⟩]
  exact State.setRing_setRing s n x _ (ring_ne_default hx) (ring_ne_default hx)

theorem takePush_miss {x : Ring} {old new : Nat} (hx : x.state = 1)
    (h : x.ctx.push = false ∨ x.pushed ≠ 64 * ((new + x.ctx.sqDepth - old) % x.ctx.sqDepth) ∨ x.snap ≠ none ∨
      4 < (new + x.ctx.sqDepth - old) % x.ctx.sqDepth) :
    (s.setRing n x).takePush n old new = ((s.setRing n { x with pushed := 0 }).countF Reg.pushMiss 1).bump 0x26 := by
  rw [State.takePush, State.ring_setRing]
  dsimp only
  rw [if_neg]
  · exact congrArg (fun t : State => (t.countF Reg.pushMiss 1).bump 0x26)
      (State.setRing_setRing s n x { x with pushed := 0 } (ring_ne_default hx) (ring_ne_default hx))
  · rintro ⟨h1, h2, h3, h4⟩
    obtain h | h | h | h := h
    · simp [h1] at h
    · exact h h2
    · exact h (by simpa using h3)
    · omega

theorem dbBare_bad (h : (s.ring n).state ≠ 1 ∨ (s.ring n).ctx.dbBare = false) : s.dbBare n = s.badBell n :=
  if_pos (by simpa using h)

theorem dbBare_good (hs : (s.ring n).state = 1) (hb : (s.ring n).ctx.dbBare = true) :
    s.dbBare n = if (s.ring n).indexing = true then s.setRing n { s.ring n with again := true } else s.startIndex n :=
  if_neg (by simp [hs, hb])

/-- A head of the completion queue that R203 accepts, by the slots it frees. -/
theorem dbCqh_good {v : Nat} (hs : (s.ring n).state = 1 ∨ (s.ring n).state = 3) (h1 : bits v 31 10 = 0) (hd : bits v 9 0 < (s.ring n).ctx.cqDepth)
    {freed : Nat} (hf : freed = (bits v 9 0 + (s.ring n).ctx.cqDepth - (s.ring n).cqHead) % (s.ring n).ctx.cqDepth) :
    s.dbCqh n v = if freed = 0 then s
      else if ((s.ring n).cqTail + (s.ring n).ctx.cqDepth - (s.ring n).cqHead) % (s.ring n).ctx.cqDepth < freed then s.badBell n
      else ((s.setRing n { s.ring n with cqHead := bits v 9 0 }).pumpRing n).fetchAll n := by
  rw [State.dbCqh]
  dsimp only
  rw [if_neg (by simp [h1]; omega), ← hf]

/-- A faulted ring that has nothing to complete only drops its old doorbells. -/
theorem pump_faulted {x : Ring} (hs : x.state = 3) (hw : x.waiting = []) :
    ((s.setRing n x).pumpRing n).fetchAll n = (s.setRing n x).trimBells n := by
  have ring := State.ring_setRing s n x
  have pumped : (s.setRing n x).pumpRing n = s.setRing n x := by
    rw [State.pumpRing, ring, hw]
    refine State.settleRing_not2 (s.setRing n x) n ?_
    rw [ring, hs]
    decide
  have still : (s.setRing n x).mayFetch n = false := by
    rw [State.mayFetch, ring]
    simp [hs]
  rw [pumped]
  exact if_neg (by simp [still])

theorem pushWrite_facts (s : State) (n off : Nat) (data : Bytes) :
    (0x100 ≤ off → s.pushWrite n off data = s.ignoredWrite) ∧
    (data.length < 4 ∨ 64 < data.length ∨ data.length % 4 ≠ 0 ∨ off % 4 ≠ 0 ∨ 0x100 < off + data.length → off < 0x100 → s.pushWrite n off data = s) ∧
    (4 ≤ data.length → data.length ≤ 64 → data.length % 4 = 0 → off % 4 = 0 → off + data.length ≤ 0x100 → s.pushWrite n off data =
      s.setRing n { s.ring n with push := (s.ring n).push.setBytes off data, pushed := (s.ring n).pushed + data.length }) := by
  refine ⟨fun h => if_pos h, fun h ho => ?_, fun h1 h2 h3 h4 h5 => ?_⟩
  · rw [State.pushWrite, if_neg (by omega), if_pos h]
  · rw [State.pushWrite, if_neg (by omega), if_neg (by omega)]

theorem chainTimeout_run {m : Fin 8} {c : Cmd} {k : Nat} (hz : s.bas.freeze = false) (h : (s.ring m.val).chain = some (c, k))
    (hm : (s.ring m.val).ctx.modeV = false) : execChainTimeout m s = .next (s.breakChain c) := by
  rw [execChainTimeout, h]
  exact if_neg (by simp [hm, hz])

theorem enableRing_none (h : (s.ring n).synced = none) : s.enableRing n = s.record 0x2021 Src.ring n := by
  rw [State.enableRing, h]

theorem enableRing_some {c : RingCtx} (h : (s.ring n).synced = some c) : s.enableRing n =
    if (s.ring n).state = 2 then s.record 0x2021 Src.ring n
    else if (s.ring n).state = 0 then ((s.setRing n ((s.ring n).enabled c)).setF (Reg.ringEn n) 1).noteLtr else s := by
  rw [State.enableRing, h]

theorem noteLtr_facts (u : State) : u.noteLtr.rings = u.rings ∧ u.noteLtr.csr = u.csr ∧
    u.noteLtr.pcie = { u.pcie with ltr := if u.noteLtr.cycleRing then 10 else 1000 } ∧ { u.noteLtr with pcie := u.pcie, out := u.out } = u := by
  obtain ⟨same, ltr⟩ | moved := noteLtr_cases u
  · rw [same]
    refine ⟨rfl, rfl, ?_, rfl⟩
    rw [← ltr]
  · rw [moved]
    exact ⟨rfl, rfl, rfl, rfl⟩

/-- The ring that a write of 1 to EN enables. -/
theorem enableRing_facts {c : RingCtx} (hc : (s.ring n).synced = some c) (h0 : (s.ring n).state = 0) :
    let t := s.enableRing n
    t.ring n = { synced := some c, ctx := c, state := 1, push := (s.ring n).push, pushed := (s.ring n).pushed } ∧
      (∀ m, m ≠ n → t.ring m = s.ring m) ∧ t.f (Reg.ringEn n) = 1 ∧ (∀ f : Field, f.key ≠ (Reg.ringEn n).key → t.f f = s.f f) ∧
      t.pcie = { s.pcie with ltr := if t.cycleRing then 10 else 1000 } ∧
      { t with csr := s.csr, rings := s.rings, pcie := s.pcie, out := s.out } = s := by
  intro t
  obtain ⟨rings, csr, pcie, rest⟩ := noteLtr_facts ((s.setRing n ((s.ring n).enabled c)).setF (Reg.ringEn n) 1)
  have ht : t = ((s.setRing n ((s.ring n).enabled c)).setF (Reg.ringEn n) 1).noteLtr := by
    show s.enableRing n = _
    rw [enableRing_some hc, if_neg (by omega), if_pos h0]
  have ring (m : Nat) : t.ring m = (s.setRing n ((s.ring n).enabled c)).ring m := by
    rw [ht]
    exact congrArg (fun r => Map.get {} r m) rings
  have field (f : Field) : t.f f = ((s.setRing n ((s.ring n).enabled c)).setF (Reg.ringEn n) 1).f f := by
    rw [ht]
    exact congrArg (fun r => Map.get f.reset r f.key) csr
  rw [← ht] at pcie rest
  refine ⟨?_, fun m h => ?_, ?_, fun f h => ?_, pcie, ?_⟩
  · rw [ring, State.ring_setRing, Ring.enabled, hc]
  · rw [ring]
    exact Map.get_set_ne _ _ _ h
  · rw [field, State.f_setF_self]
    rfl
  · rw [field, State.f_setF_ne _ _ h]
    rfl
  · have k := congrArg (fun u : State => { u with csr := s.csr, rings := s.rings }) rest
    exact k

/-- A ring as disabling leaves it, before its commands end. -/
def Ring.disabled (r : Ring) : Ring := { r with state := 2, fault := 0, snap := none, fetching := none, indexing := false, chain := none }

/-- The completions and the state that end a disabled ring's work. -/
def State.endRing (u : State) (n : Nat) (cs : List Cmd) : State :=
  ((cs.foldl (fun t c => t.complete c 0x0701 []) u).settleRing n).noteLtr

theorem disableRing_off (h : (s.ring n).state = 0 ∨ (s.ring n).state = 2) : s.disableRing n = s.setF (Reg.ringEn n) 0 := if_pos h

theorem setChain_disabled {x : Ring} (hx : x.state = 2) (f : Field) (v : Nat) :
    ((s.setRing n x).setF f v).setChain n none = (s.setRing n { x with chain := none }).setF f v := by
  have nonempty (y : Ring) (hy : y.state = 2) : y ≠ {} := fun k => by rw [k] at hy; exact absurd hy (by decide)
  have ring : ((s.setRing n x).setF f v).ring n = x := State.ring_setRing s n x
  rw [State.setChain, ring]
  exact congrArg (fun t : State => t.setF f v) (State.setRing_setRing s n x _ (nonempty x hx) (nonempty { x with chain := none } hx))

theorem disableRing_on (h : (s.ring n).state = 1 ∨ (s.ring n).state = 3) {u : State} (hu : u = (s.setRing n (s.ring n).disabled).setF (Reg.ringEn n) 0) :
    s.disableRing n = State.endRing (match (s.ring n).chain with
      | some (o, _) => u.endEntry o 0x0701
      | none => u) n ((s.ring n).cmds.filter Cmd.unstarted) := by
  rw [State.disableRing]
  dsimp only
  rw [if_neg (by omega)]
  cases hc : (s.ring n).chain with
  | none =>
    have kept : (s.ring n).disabled = { s.ring n with state := 2, fault := 0, snap := none, fetching := none, indexing := false, chain := none } := rfl
    rw [hu, kept]
    rfl
  | some p =>
    dsimp only
    rw [setChain_disabled rfl, hu]
    rfl

end Rings

section Commands
variable {s : State} {n : Fin 8}

/-- A doorbell that finds the ring unit free reads the pending slots. -/
theorem fetch_belled {tail : Nat} (hs : (s.ring n.val).state = 1) (hp : s.mayPost = true) (hf : (s.ring n.val).fetching = none)
    (hsnap : (s.ring n.val).snap = none) (hc : (s.ring n.val).cmds.length < 32) (hh : (s.ring n.val).sqHead < (s.ring n.val).ctx.sqDepth)
    (hd : tail < (s.ring n.val).ctx.sqDepth) (ht : tail ≠ (s.ring n.val).sqHead) :
    let x := (s.ring n.val).belled tail s.time.uptime
    let k := min (min x.atBoundary.ctx.prefetch ((tail + (s.ring n.val).ctx.sqDepth - (s.ring n.val).sqHead) % (s.ring n.val).ctx.sqDepth))
      ((s.ring n.val).ctx.sqDepth - (s.ring n.val).sqHead)
    (s.setRing n.val x).fetchAll n.val = (s.setRing n.val { x.atBoundary with fetching := some ((s.ring n.val).sqHead, k) }).emit
      (.hostRead (x.atBoundary.ctx.sqBase + 64 * (s.ring n.val).sqHead) (64 * k)) :=
  State.fetch_set s n.val ((s.ring n.val).belled tail s.time.uptime) hs hp hf hsnap hc (ringDist hd hh ht)

theorem moderationTimeout_run (hm : (s.ring n.val).modN ≠ 0) (hz : s.bas.freeze = false) : execModerationTimeout n s =
    .next ((s.setRing n.val { s.ring n.val with modN := 0 }).signal (s.ring n.val).ctx.vector) := if_neg (by simp [hm, hz])

variable (hu : s.dieUp = true) (hp : s.pcie.perstHeld = false) (hr : s.dev ≠ .recovery)
include hu hp hr

theorem ringEnable_run : execRingEnable n s = .next (if s.bas.freeze then s else s.enableRing n.val) := by
  rw [execRingEnable, if_neg (by simp [hp]), asWrite_run hu hr]

theorem ringDisable_run : execRingDisable n s = .next (if s.bas.freeze then s else s.disableRing n.val) := by
  rw [execRingDisable, if_neg (by simp [hp]), asWrite_run hu hr]

end Commands

/-- Settles O30: a doorbell by `dbTail_new`, `dbBare_good` and `dbCqh_good`, an enable and a disable by `enableRing_facts` and `disableRing_on`. -/
theorem rings : Obligations.Rings := by
  unfold Obligations.Rings
  intro s n v off data hu hp hr
  simp only [exec_dbTail, exec_dbBare, exec_dbCqh, exec_pushWindowWrite, exec_ringEnable, exec_ringDisable, exec_chainTimeout, exec_moderationTimeout]
  refine ⟨fun hz => ⟨asBell_frozen hu hp hr hz _, asBell_frozen hu hp hr hz _, asBell_frozen hu hp hr hz _, asBell_frozen hu hp hr hz _, ?_, ?_⟩,
    fun hz => ?_⟩
  · rw [ringEnable_run hu hp hr, if_pos hz]
  · rw [ringDisable_run hu hp hr, if_pos hz]
  have bell (f : State → State) : s.asBell f = .next (f s) := asBell_run hu hp hr hz f
  have enable := ringEnable_run (n := n) hu hp hr
  have disable := ringDisable_run (n := n) hu hp hr
  rw [if_neg (by simp [hz])] at enable disable
  obtain ⟨pushOut, pushUnfit, pushFit⟩ := pushWrite_facts s n.val off.toNat data
  refine ⟨fun h => ⟨_, (bell _).trans (congrArg _ (dbTail_bad h)), badBell_facts s n.val⟩, fun hs hb h1 h2 hd => ⟨fun ht => ?same, fun ht => ?tail⟩,
    fun h => ⟨_, (bell _).trans (congrArg _ (dbBare_bad h)), badBell_facts s n.val⟩, fun hs hb => ?bare,
    fun h => ⟨_, (bell _).trans (congrArg _ (if_pos h)), badBell_facts s n.val⟩, fun hs h1 hd => ?cqh,
    fun h => ⟨_, (bell _).trans (congrArg _ (pushOut h)), _, .refl _, .refl _⟩, fun h ho => (bell _).trans (congrArg _ (pushUnfit h ho)),
    fun h1 h2 h3 h4 h5 => (bell _).trans (congrArg _ (pushFit h1 h2 h3 h4 h5)), fun c k hc hm => ?chain,
    fun hm => moderationTimeout_run hm hz, fun h => ?refused, fun c hc h0 => ⟨_, enable, enableRing_facts hc h0⟩,
    fun h => disable.trans (congrArg _ (disableRing_off h)), fun h u hw => ⟨fun hc => ?disable, fun c k hc hring => ?disableChain⟩⟩
  case same => exact (bell _).trans (congrArg _ (dbTail_same hs hb h1 h2 hd ht))
  case tail =>
    have run : execDbTail n v s = .next _ := (bell _).trans (congrArg _ (dbTail_new hs hb h1 h2 hd ht rfl))
    refine ⟨fun hw => ?_, fun hw push pushed snap four => ?_, fun hw miss => ?_, fun hw post free snap room head differs => ?_⟩
    · rw [run, if_neg (by simp [hw])]
      rfl
    · rw [run, if_pos hw, takePush_match (x := (s.ring n.val).belled _ _) hs push pushed snap four]
      rfl
    · rw [run, if_pos hw, takePush_miss (x := (s.ring n.val).belled _ _) hs miss]
      exact ⟨_, rfl, _, ⟨_, .refl _, .refl _⟩, rfl⟩
    · rw [run, if_neg (by simp [hw])]
      exact congrArg _ (fetch_belled hs post free snap room head hd differs)
  case bare =>
    have run : execDbBare n s = .next _ := (bell _).trans (congrArg _ (dbBare_good hs hb))
    rw [run]
    exact ⟨fun hi => by rw [if_pos hi], fun hi => by rw [if_neg (by simp [hi])]; rfl⟩
  case cqh =>
    have run : execDbCqh n v s = .next _ := (bell _).trans (congrArg _ (dbCqh_good hs h1 hd rfl))
    rw [run]
    refine ⟨fun hf => by rw [if_pos hf], fun hf more => ?_, fun hf fits => ?_⟩
    · rw [if_neg hf, if_pos more]
      exact ⟨_, rfl, badBell_facts s n.val⟩
    · rw [if_neg hf, if_neg (Nat.not_lt.mpr fits)]
      exact ⟨rfl, fun hw h3 => congrArg _ (pump_faulted h3 hw)⟩
  case chain =>
    rw [chainTimeout_run hz hc hm]
    exact ⟨_, rfl, _, ⟨_, .refl _, .refl _⟩, rfl⟩
  case refused =>
    refine ⟨_, enable, ?_⟩
    obtain h | ⟨h, h2⟩ := h
    · rw [enableRing_none h]
      exact ⟨_, .refl _, .refl _⟩
    · obtain ⟨c, hc⟩ := Option.ne_none_iff_exists'.mp h
      rw [enableRing_some hc, if_pos h2]
      exact ⟨_, .refl _, .refl _⟩
  case disable =>
    rw [disable, disableRing_on h hw, hc]
    rfl
  case disableChain =>
    rw [disable, disableRing_on h hw, hc]
    dsimp only
    rw [State.endEntry, hring]
    rfl

end Sys2Proof.Machine
end

section
/-! PROOFS. Completion entries and the host side of the mailbox (O31, O32). -/

namespace Sys2Proof.Machine

section Entries
variable {s : State} {n : Nat} {c : Cpl} {r x : Ring}

theorem busy_ne_default (h : x.state = 1 ∨ x.state = 3) : x ≠ {} := fun k => by rw [k] at h; exact absurd h (by decide)

theorem moderate_ring_state (u : State) (h : u.ring n = x) : ((u.moderate n c).ring n).state = x.state := by
  rw [State.moderate_eq u n c x h]
  have sent (v : State) (i : Nat) : (v.signal i).ring n = v.ring n := by
    unfold State.signal
    split <;> rfl
  split
  · rw [sent, h]
  split
  · rw [h]
  split
  · rw [sent, State.ring_setRing]
  · rw [State.ring_setRing]

/-- The state with a ring and what has been sent. -/
def State.ringOut (s : State) (n : Nat) (x : Ring) (o : List Out) : State := { s.setRing n x with out := o }

theorem ringOut_ring (o : List Out) : (s.ringOut n x o).ring n = x := State.ring_setRing s n x

/-- A ring with these completions waiting. -/
def Ring.waits (r : Ring) (w : List Cpl) : Ring := { r with waiting := w }

theorem setRing_waits (hs : (s.ring n).state = 1 ∨ (s.ring n).state = 3) (w : List Cpl) (hx : x.state = 1 ∨ x.state = 3) :
    (s.setRing n ((s.ring n).waits w)).setRing n x = s.setRing n x :=
  State.setRing_setRing s n _ x (busy_ne_default (x := (s.ring n).waits w) hs) (busy_ne_default hx)

/-- A ring that waits for nothing takes a completion. -/
theorem postCpl_eq (hw : (s.ring n).waiting = []) :
    s.postCpl n c = ((s.setRing n ((s.ring n).waits [c])).flushCpls n 1).settleRing n := by
  rw [State.postCpl, hw, State.pumpRing, State.ring_setRing]
  rfl

variable (hw : (s.ring n).waiting = []) (hs : (s.ring n).state = 1 ∨ (s.ring n).state = 3)
include hw hs

/-- Where nothing may be posted, the completion waits. -/
theorem postCpl_waits (h : s.mayPost = false) : s.postCpl n c = s.setRing n ((s.ring n).waits [c]) := by
  have ring := State.ring_setRing s n ((s.ring n).waits [c])
  have held : (s.setRing n ((s.ring n).waits [c])).mayPost = false := h
  rw [postCpl_eq hw, State.flush_one _ n c (by rw [ring]; rfl), if_pos (by simp [held])]
  refine State.settleRing_not2 _ _ ?_
  rw [ring, Ring.waits]
  dsimp only
  omega

theorem postCpl_full (h : s.mayPost = true) (hr : (s.ring n).cqRoom = false) (hc : c.counted = false) :
    s.postCpl n c = (s.setRing n ((s.ring n).waits [{ c with counted := true }])).bumpPlain 0x24 := by
  have ring := State.ring_setRing s n ((s.ring n).waits [c])
  have free : (s.setRing n ((s.ring n).waits [c])).mayPost = true := h
  have full : ((s.ring n).waits [c]).cqRoom = false := hr
  have counted : (s.setRing n ((s.ring n).waits [c])).setRing n { (s.ring n).waits [c] with waiting := [{ c with counted := true }] } =
    s.setRing n ((s.ring n).waits [{ c with counted := true }]) := setRing_waits hs _ hs
  rw [postCpl_eq hw, State.flush_one _ n c (by rw [ring]; rfl), if_neg (by simp [free]), ring, if_neg (by simp [full]), if_neg (by simp [hc]), counted]
  refine State.settleRing_not2 _ _ ?_
  have state : ((s.setRing n ((s.ring n).waits [{ c with counted := true }])).ring n).state = (s.ring n).state := by rw [State.ring_setRing]; rfl
  exact fun two => by have := state.symm.trans two; omega

/-- A completion that finds room is written, then brings its message. -/
theorem postCpl_written (h : s.mayPost = true) (hroom : (s.ring n).cqRoom = true) (hr : (s.ring n).atBoundary = r) (hx : r.advance c = x) :
    s.postCpl n c = (s.ringOut n x (s.cplOut r x c)).moderate n c := by
  have ring := State.ring_setRing s n ((s.ring n).waits [c])
  have free : (s.setRing n ((s.ring n).waits [c])).mayPost = true := h
  have room : ((s.ring n).waits [c]).cqRoom = true := hroom
  have taken : (s.setRing n ((s.ring n).waits [c])).setRing n { (s.ring n).waits [c] with waiting := [] } = s.setRing n (s.ring n) := by
    have kept : ({ (s.ring n).waits [c] with waiting := [] } : Ring) = s.ring n := by rw [← hw]; rfl
    rw [kept]
    exact setRing_waits hs _ hs
  have state : x.state = (s.ring n).state := by rw [← hx, ← hr]; exact (atBoundary_cq (s.ring n)).2.2.2.1
  rw [postCpl_eq hw, State.flush_one _ n c (by rw [ring]; rfl), if_neg (by simp [free]), ring, if_pos room, taken,
    State.writeCpl_eq (s.setRing n (s.ring n)) n c r x (by rw [State.ring_setRing]; exact hr) hx,
    State.setRing_setRing s n _ x (busy_ne_default hs) (busy_ne_default (by rw [state]; exact hs))]
  refine State.settleRing_not2 _ _ ?_
  have same := moderate_ring_state (c := c) (s.ringOut n x (s.cplOut r x c)) (ringOut_ring _)
  exact fun two => by have := same.symm.trans two; omega

/-- The four ends of a written completion (R220). -/
theorem postCpl_message (h : s.mayPost = true) (hroom : (s.ring n).cqRoom = true) (hr : (s.ring n).atBoundary = r) (hx : r.advance c = x) :
    s.postCpl n c = if c.async then (s.ringOut n x (s.cplOut r x c)).signal 0
      else if c.noint then s.ringOut n x (s.cplOut r x c)
      else if r.ctx.modTime = 0 ∨ r.ctx.modCount ≤ r.modN + 1 then (s.ringOut n { x with modN := 0 } (s.cplOut r x c)).signal r.ctx.vector
      else s.ringOut n { x with modN := r.modN + 1, modSince := if r.modN = 0 then s.time.uptime else r.modSince } (s.cplOut r x c) := by
  have state : x.state = (s.ring n).state := by rw [← hx, ← hr]; exact (atBoundary_cq (s.ring n)).2.2.2.1
  have again (y : Ring) (hy : y.state = x.state) : (s.ringOut n x (s.cplOut r x c)).setRing n y = s.ringOut n y (s.cplOut r x c) :=
    congrArg (fun t : State => { t with out := s.cplOut r x c })
      (State.setRing_setRing s n x y (busy_ne_default (by rw [state]; exact hs)) (busy_ne_default (by rw [hy, state]; exact hs)))
  have modN : x.modN = r.modN := by rw [← hx]; rfl
  have modSince : x.modSince = r.modSince := by rw [← hx]; rfl
  have ctx : x.ctx = r.ctx := by rw [← hx]; rfl
  rw [postCpl_written hw hs h hroom hr hx, State.moderate_eq _ n c x (ringOut_ring _), again { x with modN := 0 } rfl,
    again { x with modN := x.modN + 1, modSince := if x.modN = 0 then (s.ringOut n x (s.cplOut r x c)).time.uptime else x.modSince } rfl,
    ctx, modN, modSince]
  rfl

end Entries

/-- Settles O31: an entry that finds room by `postCpl_message`, one that waits by `postCpl_full` and `postCpl_waits`, the frame by
`complete_steady`. -/
theorem completionEntries : Obligations.CompletionEntries := by
  unfold Obligations.CompletionEntries
  refine ⟨fun s n c hw hs => ?_, State.complete_steady⟩
  obtain ⟨depth, head, tail, -, -⟩ := atBoundary_cq (s.ring n)
  have room : (s.ring n).cqRoom = true ↔ ((s.ring n).atBoundary.cqTail + 1) % (s.ring n).atBoundary.ctx.cqDepth ≠ (s.ring n).atBoundary.cqHead := by
    rw [depth, head, tail, Ring.cqRoom, decide_eq_true_iff]
  refine ⟨fun post fits => ?_, fun post full counted => postCpl_full hw hs post (by simpa using mt room.mp (Classical.not_not.mpr full)) counted,
    postCpl_waits hw hs⟩
  have written := postCpl_message (c := c) hw hs post (room.mpr fits) rfl rfl
  refine ⟨fun ha => ?_, fun ha hn => ?_, fun ha hn hm => ?_, fun ha hn h1 h2 => ?_⟩
  · rw [written, if_pos ha]
    rfl
  · rw [written, if_neg (by simp [ha]), if_pos hn]
    rfl
  · rw [written, if_neg (by simp [ha]), if_neg (by simp [hn]), if_pos hm]
    rfl
  · rw [written, if_neg (by simp [ha]), if_neg (by simp [hn]), if_neg (by omega)]
    rfl

section Mailbox
variable {s : State} {slot : Fin 8} {set : BitVec 8}

theorem mbxWrite_run (hr : s.dev ≠ .recovery) (hm : s.mbxUp = true) (f : State → State) :
    s.asWrite (fun t => if t.mbxUp then f t else t) = .next (f s) := by
  have hu : s.dieUp = true := by
    simp only [State.mbxUp, Bool.and_eq_true] at hm
    exact hm.1.1
  rw [asWrite_run hu hr, if_pos hm]

/-- The host sets doorbell bits. -/
theorem setH2d_facts (s : State) (b : Nat) :
    let new := b &&& (0xFFFFFFFF - s.mbx.h2dBits % 2 ^ 32)
    let w : State := { s with mbx := { s.mbx with h2dBits := s.mbx.h2dBits ||| b } }
    ∃ u v : State, u = (if new &&& (0xFFFFFFFF - s.f Reg.h2dMask) ≠ 0 then w.raise 0 1 else w) ∧
      v = (if s.granted fun e => grantH2d e &&& new ≠ 0 then u.raise 1 1 else u) ∧
      s.setH2d b = (List.range 32).foldl (fun t i => if bit new i then t.hookTrigger (hookIs 1 i) else t) v ∧ Steady w (s.setH2d b) := by
  intro new w
  have raised : Steady w (if new &&& (0xFFFFFFFF - s.f Reg.h2dMask) ≠ 0 then w.raise 0 1 else w) := by
    split
    · exact State.raise_steady ..
    · exact .refl _
  refine ⟨_, _, rfl, rfl, ?_, ?_⟩
  · rw [← raiseGranted_eq _ 1 grantH2d new s (by split <;> rfl)]
    rfl
  · refine raised.trans ((raiseGranted_steady _ 1 grantH2d new).trans (Steady.foldl _ (fun t i => ?_) _ _))
    split
    · exact State.hookTrigger_steady ..
    · exact .refl _

theorem writeH2dSlot_facts (s : State) (slot off : Nat) (data : Bytes) :
    (data.length < 4 ∨ 64 < off + data.length ∨ off % 4 ≠ 0 ∨ data.length % 4 ≠ 0 → s.writeH2dSlot slot off data = s.bump 0x03) ∧
    (4 ≤ data.length → off + data.length ≤ 64 → off % 4 = 0 → data.length % 4 = 0 → s.writeH2dSlot slot off data =
      if bit s.mbx.h2dFull slot then s.bump 0x22 else { s with mbx := { s.mbx with h2d := s.mbx.h2d.setBytes (64 * slot + off) data } }) := by
  refine ⟨fun h => if_pos h, fun h1 h2 h3 h4 => ?_⟩
  rw [State.writeH2dSlot, if_neg (by omega)]

theorem postH2ds_one : s.postH2ds (BitVec.ofNat 8 (2 ^ slot.val)).toNat = s.postH2d slot.val := fold_one s slot

theorem freeD2hs_one : s.freeD2hs (BitVec.ofNat 8 (2 ^ slot.val)).toNat = s.freeD2h slot.val := fold_one s slot

/-- A post of a free slot. -/
theorem postH2d_facts {i : Nat} (h : bit s.mbx.h2dFull i = false) : ∃ u v : State,
    u = { s.mbxBoundary with mbx := { s.mbx with h2dFull := withBit s.mbx.h2dFull i true } } ∧
    v = (if s.granted fun e => grantH2dSlots e &&& 2 ^ i ≠ 0 then (u.raise 0 2).raise 1 2 else u.raise 0 2) ∧
    s.postH2d i = v.hookTrigger (hookIs 2 i) ∧ Steady u (s.postH2d i) := by
  obtain ⟨mbx, hooks⟩ := mbxBoundary_keeps s
  have eq : s.postH2d i = State.hookTrigger (State.raiseGranted (State.raise
      { s.mbxBoundary with mbx := { s.mbx with h2dFull := withBit s.mbx.h2dFull i true } } 0 2) 2 grantH2dSlots (2 ^ i)) (hookIs 2 i) := by
    rw [State.postH2d, if_neg (by simp [h])]
    dsimp only
    rw [mbx]
  rw [eq]
  refine ⟨_, _, rfl, rfl, ?_, ((State.raise_steady _ 0 2).trans (raiseGranted_steady ..)).trans (State.hookTrigger_steady ..)⟩
  congr 1
  exact raiseGranted_eq _ 2 grantH2dSlots (2 ^ i) s hooks

theorem freeD2h_full {i : Nat} (h : bit s.mbx.d2hFull i = true) : s.freeD2h i =
    (let x : State := { s with mbx := { s.mbx with d2hFull := withBit s.mbx.d2hFull i false } }
     if s.granted (fun e => grantD2hSlots e &&& 2 ^ i ≠ 0) then (x.raise 0 3).raise 1 3 else x.raise 0 3) := by
  rw [State.freeD2h, if_pos h]
  exact raiseGranted_eq _ 3 grantD2hSlots (2 ^ i) s rfl

theorem freeD2h_empty {i : Nat} (h : bit s.mbx.d2hFull i = false) : s.freeD2h i = if bit s.mbx.d2hTo i = true then s.bump 0x21 else s :=
  if_neg (by simp [h])

theorem timeoutH2d_facts (s : State) (i : Nat) : ∃ u v : State,
    Logs { s with mbx := { s.mbx with h2dFull := withBit s.mbx.h2dFull i false, h2dTo := withBit s.mbx.h2dTo i true } } 0x2030 Src.mailbox i 0 0 0 u ∧
    Counts u 0x25 v ∧ s.timeoutH2d i = if s.f Reg.mbxIeTo = 1 then v.signal (s.f Reg.mbxVector) else v := by
  refine ⟨_, _, ⟨_, .refl _, .refl _⟩, ⟨_, .refl _, .refl _⟩, ?_⟩
  exact vector_eq (s := { s with mbx := { s.mbx with h2dFull := withBit s.mbx.h2dFull i false, h2dTo := withBit s.mbx.h2dTo i true } })
    ((State.record_steady ..).trans (State.bump_steady ..))

theorem timeoutD2h_facts (s : State) (i : Nat) : ∃ u v w : State,
    Logs { s with mbx := { s.mbx with d2hFull := withBit s.mbx.d2hFull i false, d2hTo := withBit s.mbx.d2hTo i true } } 0x2031 Src.mailbox i 0 0 0 u ∧
    Counts u 0x25 v ∧ w = v.raiseFreed i ∧ s.timeoutD2h i = if s.f Reg.mbxIeTo = 1 then w.signal (s.f Reg.mbxVector) else w := by
  refine ⟨_, _, _, ⟨_, .refl _, .refl _⟩, ⟨_, .refl _, .refl _⟩, rfl, ?_⟩
  exact vector_eq (s := { s with mbx := { s.mbx with d2hFull := withBit s.mbx.d2hFull i false, d2hTo := withBit s.mbx.d2hTo i true } })
    (((State.record_steady ..).trans (State.bump_steady ..)).trans ((State.raise_steady ..).trans (raiseGranted_steady ..)))

end Mailbox

/-- Settles O32: a host's write runs by `mbxWrite_run`, the bits by `setH2d_facts`, one slot by `postH2d_facts` and `freeD2h_full`, a
set of slots by `slots`, the timeouts by `timeoutH2d_facts` and `timeoutD2h_facts`. -/
theorem hostMailbox : Obligations.HostMailbox := by
  unfold Obligations.HostMailbox
  intro s b slot off data set hr hm m at1 one new freed vector
  simp only [exec_mbxH2dSet, exec_mbxD2hClear, exec_h2dSlotWrite, exec_h2dPost, exec_d2hFree, exec_mailboxSlotTimeout]
  have run := fun f => mbxWrite_run hr hm f
  have post (set : BitVec 8) : execH2dPost set s = .next (s.postH2ds set.toNat) := run (·.postH2ds set.toNat)
  have free (set : BitVec 8) : execD2hFree set s = .next (s.freeD2hs set.toNat) := run (·.freeD2hs set.toNat)
  have post1 : execH2dPost one s = .next (s.postH2d slot.val) := by rw [post, postH2ds_one]
  have free1 : execD2hFree one s = .next (s.freeD2h slot.val) := by rw [free, freeD2hs_one]
  have write : execH2dSlotWrite slot off data s = .next (s.writeH2dSlot slot.val off.toNat data) :=
    run (·.writeH2dSlot slot.val off.toNat data)
  have up (r : Result) : (if ¬ s.mbxUp then ok s else r) = r := if_neg (by simp [hm])
  obtain ⟨outside, inside⟩ := writeH2dSlot_facts s slot.val off.toNat data
  refine ⟨⟨_, run (·.setH2d b.toNat), setH2d_facts s b.toNat⟩, ?clear, fun bad => ?outside, fun h1 h2 h3 h4 => ⟨fun full => ?full, fun empty => ?written⟩,
    fun full => ?taken, fun empty => ?posted, ?posts, fun full => ?freed, fun empty timed => ?late, fun empty quiet => ?none, ?frees,
    fun full => ?lost, fun full => ?lostToo, fun empty => ?no, fun empty => ?noToo⟩
  case clear =>
    refine (run (·.clearD2h b.toNat)).trans ?_
    rw [State.clearD2h, Nat.mod_eq_of_lt b.isLt]
  case outside => exact ⟨_, write, by rw [outside bad]; exact ⟨_, .refl _, .refl _⟩⟩
  case full => exact ⟨_, write, by rw [inside h1 h2 h3 h4, if_pos full]; exact ⟨_, .refl _, .refl _⟩⟩
  case written => rw [write, inside h1 h2 h3 h4, if_neg (by simp [m] at empty; simp [empty])]
  case taken =>
    refine ⟨_, post1, ?_⟩
    rw [State.postH2d, if_pos full]
    exact ⟨_, .refl _, .refl _⟩
  case posted => exact ⟨_, post1, postH2d_facts empty⟩
  case posts =>
    refine ⟨_, post set, slots State.postH2d (fun m v => { m with h2dFull := v }) Mbx.h2dFull or (fun _ _ _ => rfl) (fun _ => rfl)
      (fun b => Bool.or_false b) (fun t i => ?_) s set⟩
    rw [postH2d_mbx]
    split
    next full => exact ⟨rfl, fun j => by by_cases h : j = i <;> simp [h, full]⟩
    next empty => exact ⟨rfl, fun j => by rw [bit_withBit]; by_cases h : j = i <;> simp [h]⟩
  case freed => rw [free1, freeD2h_full full]
  case late =>
    refine ⟨_, free1, ?_⟩
    rw [freeD2h_empty empty, if_pos timed]
    exact ⟨_, .refl _, .refl _⟩
  case none => rw [free1, freeD2h_empty empty, if_neg (by simp [m] at quiet; simp [quiet])]
  case frees =>
    refine ⟨_, free set, slots State.freeD2h (fun m v => { m with d2hFull := v }) Mbx.d2hFull (fun x y => x && !y) (fun _ _ _ => rfl) (fun _ => rfl)
      (fun b => by simp) (fun t i => ?_) s set⟩
    rw [freeD2h_mbx]
    split
    next full => exact ⟨rfl, fun j => by rw [bit_withBit]; by_cases h : j = i <;> simp [h]⟩
    next empty => exact ⟨rfl, fun j => by by_cases h : j = i <;> simp [h, empty]⟩
  case lost =>
    obtain ⟨u, v, logged, counted, eq⟩ := timeoutH2d_facts s slot.val
    exact ⟨_, (up _).trans ((if_neg (by decide)).trans ((if_pos full).trans (congrArg _ eq))), u, v, logged, counted, rfl⟩
  case lostToo =>
    obtain ⟨u, v, w, logged, counted, freed, eq⟩ := timeoutD2h_facts s slot.val
    exact ⟨_, (up _).trans ((if_pos rfl).trans ((if_pos full).trans (congrArg _ eq))), u, v, w, logged, counted, freed, rfl⟩
  case no => exact (up _).trans ((if_neg (by decide)).trans (if_neg (by simp only [m] at empty; simp [empty])))
  case noToo => exact (up _).trans ((if_pos rfl).trans (if_neg (by simp only [m] at empty; simp [empty])))

end Sys2Proof.Machine
end

section
/-! PROOFS. Lodestone's timers and inputs, and the recorder (O50, O49). -/

namespace Sys2Proof.Machine

section Lodestone
variable {s : State} {n : Nat}

theorem periodCounted_sets (s : State) (n : Nat) : ∃ u, Sets s [(Reg.tmrCount n, 0)] u ∧
    if u.f (Reg.tmrEvt n) = 1 then Sets u [(Reg.tmrOvr n, min (2 ^ (Reg.tmrOvr n).width - 1) (u.f (Reg.tmrOvr n) + 1))] (periodCounted s n)
    else Sets u [(Reg.tmrEvt n, 1)] (periodCounted s n) :=
  ⟨_, Sets.one .., timerFlag_facts ..⟩

theorem countStep_facts (s : State) (n : Nat) :
    (s.f (Reg.tmrPeriod n) ≤ s.f (Reg.tmrCount n) + 1 → s.countStep n = s.periodEvent n 8) ∧
    (s.f (Reg.tmrCount n) + 1 < s.f (Reg.tmrPeriod n) → Sets s [(Reg.tmrCount n, s.f (Reg.tmrCount n) + 1)] (s.countStep n)) := by
  rw [State.countStep]
  refine ⟨fun due => if_pos due, fun early => ?_⟩
  rw [if_neg (by omega)]
  exact Sets.one ..

theorem timerTick_facts (s : State) (n : Nat) :
    let mode := s.f (Reg.tmrMode n)
    let counts : Prop := s.f (Reg.tmrRun n) = 1 ∧ s.f (Reg.tmrLink n) ≠ 2 ∧ (mode = 4 ∨ mode = 5 ∨ (mode = 1 ∨ mode = 2) ∧ s.gateOn n = true)
    (counts → s.timerTick n = s.countStep n) ∧ (¬ counts → s.timerTick n = s) := by
  unfold State.timerTick
  simp only [bitF_iff]
  refine ⟨fun ⟨run, link, mode⟩ => ?_, fun not => ?_⟩
  · rw [if_neg (by simp [run, link])]
    obtain h | h | ⟨h | h, on⟩ := mode
    · rw [h]; rfl
    · rw [h]; rfl
    · rw [h]; exact if_pos on
    · rw [h]; exact if_pos on
  · split
    · rfl
    next h =>
      obtain ⟨run, link⟩ := not_or.mp h
      have off (mode : s.f (Reg.tmrMode n) = 1 ∨ s.f (Reg.tmrMode n) = 2) : ¬ s.gateOn n = true :=
        fun on => not ⟨Classical.not_not.mp run, link, .inr (.inr ⟨mode, on⟩)⟩
      split
      next h => exact if_neg (off (.inl h))
      next h => exact if_neg (off (.inr h))
      next h => exact absurd ⟨Classical.not_not.mp run, link, .inl h⟩ not
      next h => exact absurd ⟨Classical.not_not.mp run, link, .inr (.inl h)⟩ not
      next => rfl

/-- What an edge at an input does to a device that hears it. -/
theorem gpioEdge_run {g : Fin 4} {level : Bool} (hu : s.dieUp = true) (h : bit s.time.gpioIn g.val ≠ level) : execGpioEdge g level s =
    .next (State.inputEdge ((List.range 8).foldl (gatedEdge g.val level)
      (({ s with time := { s.time with gpioIn := withBit s.time.gpioIn g.val level } } : State).setF (Reg.gpioIn g.val) (b2n level))) g.val level) :=
  if_neg (by simp [hu, h])

end Lodestone

/-- Settles O50: a period event by `periodEvent_eq`, its routes by `periodRouted_raises`, its slaves by `slave_facts`, the ticks by
`timerTick_facts`, the writes by `timerWrite_done`, an edge by `gateEdge_facts`. -/
theorem timers : Obligations.Timers := by
  unfold Obligations.Timers
  intro s n outputs flag starts mine writes
  simp only [exec_timerPeriodEvent, exec_timerEnable, exec_timerStop, exec_timerPeriodWrite, exec_timerCountWrite, exec_gpioEdge]
  refine ⟨fun idle => ?idle, fun up run => ?event, fun k => ?slaves, countStep_facts s n, timerTick_facts s n, fun path =>
    ⟨?start, ?stop, fun value => ⟨?period, ?count⟩⟩, fun g level => ⟨fun same => ?same, fun up edge => ?edge⟩⟩
  case idle =>
    refine if_neg fun h => ?_
    rw [bitF_iff] at h
    obtain hu | hr := idle
    · simp [hu] at h
    · exact hr h.1
  case event => exact if_pos ⟨(bitF_iff ..).mpr run, up⟩
  case slaves =>
    obtain ⟨u, counted, flagged⟩ := periodCounted_sets s n
    refine ⟨u, periodCounted s n, periodRaised (periodCounted s n) n, _, slaveFed n k, counted, flagged, rfl, periodRouted_raises .., ?_⟩
    exact ⟨periodEvent_eq s n k, fun u m => slave_facts u n m k⟩
  case start => exact timerWrite_done s path _ _ (writeTimerEn_starts s n)
  case stop => exact timerWrite_done s path _ _ (writeTimerEn_stops s n)
  case period => exact timerWrite_done s path _ _ (writePeriod_facts s n value.toNat)
  case count => exact timerWrite_done s path _ _ (Sets.one ..)
  case same => exact if_pos (by obtain h | h := same <;> simp [h])
  case edge =>
    refine ⟨gatedEdge g.val level, _, Sets.one .., ?_, fun u m => gateEdge_facts u g.val m level⟩
    rw [gpioEdge_run up edge]
    rfl

section Records
variable {s : State} {code src p1 p2 p3 p4 : Nat}

/-- The state with a token taken of the code's bucket (R500). -/
def State.tokenTaken (s : State) (code : Nat) : State :=
  if (sevRate code).2 = 0 then s
  else { s with evr := { s.evr with buckets := s.evr.buckets.put code ⟨s.tokens code (sevRate code).2 - 1, s.time.uptime⟩ } }

theorem tokenTaken_facts (s : State) (code : Nat) : (s.tokenTaken code).evr.shut = s.evr.shut ∧ (s.tokenTaken code).evr.staging = s.evr.staging ∧
    (s.tokenTaken code).evr.lost = s.evr.lost ∧ (s.tokenTaken code).amberHeld = s.amberHeld ∧ (s.tokenTaken code).time = s.time := by
  unfold State.tokenTaken
  split <;> exact ⟨rfl, rfl, rfl, rfl, rfl⟩

/-- The record that the device makes of an event (R501). -/
def State.eventRecord (s : State) (code src p1 p2 p3 p4 area : Nat) : EvRec where
  code := code
  kind := if s.time.calSet = true then 1 else 0
  area := area
  sev := (sevRate code).1
  src := src
  time := s.timeField
  p1 := p1 % 2 ^ 32
  p2 := p2 % 2 ^ 32
  p3 := p3 % 2 ^ 32
  p4 := p4 % 2 ^ 32

/-- The state with more records in staging, the last of this code. -/
def State.withStaged (s : State) (l : List EvRec) (code : Nat) : State := { s with evr := { s.evr with staging := s.evr.staging ++ l, last := code } }

theorem withStaged_eq {s : State} {st : List EvRec} (h : s.evr.staging = st) (l : List EvRec) (c : Nat) :
    s.withStaged l c = { s with evr := { s.evr with staging := st ++ l, last := c } } := by
  rw [← h]
  rfl

theorem withStaged_withStaged (s : State) (l m : List EvRec) (c d : Nat) : (s.withStaged l c).withStaged m d = s.withStaged (l ++ m) d := by
  unfold State.withStaged
  rw [← List.append_assoc]

theorem withStaged_amberHeld (s : State) (l : List EvRec) (c : Nat) :
    (s.withStaged l c).amberHeld = s.amberHeld + (l.filter fun r => r.area == 1).length := by
  unfold State.withStaged State.amberHeld
  dsimp only
  rw [List.filter_append, List.length_append, Nat.add_assoc]

theorem withStaged_time {s : State} {l : List EvRec} {c : Nat} : (s.withStaged l c).time = s.time := rfl

theorem eventRecord_of_time {u s : State} {area : Nat} (h : u.time = s.time) :
    u.eventRecord code src p1 p2 p3 p4 area = s.eventRecord code src p1 p2 p3 p4 area := by
  unfold State.eventRecord State.timeField
  rw [h]

theorem stage_record (u : State) : u.stage code src p1 p2 p3 p4 =
    u.withStaged [u.eventRecord code src p1 p2 p3 p4 (if u.amberHeld < 4096 then 1 else 0)] code := stage_eq ..

theorem record_none (hc : (sevRate code).2 ≠ 0) (ht : s.tokens code (sevRate code).2 = 0) : s.record code src p1 p2 p3 p4 =
    { (s.bumpPlain 0).countF Reg.evrSupp 1 with evr := { ((s.bumpPlain 0).countF Reg.evrSupp 1).evr with
        supp := s.evr.supp.put code ⟨(s.evr.supp.get ⟨0, s.upLo⟩ code).count + 1, (s.evr.supp.get ⟨0, s.upLo⟩ code).first⟩ } } := by
  have core := (recordCore_eq s code src p1 p2 p3 p4).trans (if_pos ⟨hc, ht⟩)
  rw [State.record, core]
  rfl

section Token
variable (ht : (sevRate code).2 = 0 ∨ s.tokens code (sevRate code).2 ≠ 0)
include ht

theorem recordCore_taken : s.recordCore code src p1 p2 p3 p4 =
    if ((s.tokenTaken code).keep code src p1 p2 p3 p4).2 = true ∧ (s.tokenTaken code).amberHeld = 4095 then
      ((((s.tokenTaken code).keep code src p1 p2 p3 p4).1.keep 0xF002 Src.recorder 0 0 0 0).1, true)
    else (s.tokenTaken code).keep code src p1 p2 p3 p4 := by
  exact (recordCore_eq s code src p1 p2 p3 p4).trans (if_neg fun none => ht.elim none.1 (· none.2))

theorem recordCore_kept {u : State} {b : Bool} (hk : (s.tokenTaken code).keep code src p1 p2 p3 p4 = (u, b)) :
    s.recordCore code src p1 p2 p3 p4 = if b = true ∧ s.amberHeld = 4095 then ((u.keep 0xF002 Src.recorder 0 0 0 0).1, true) else (u, b) := by
  obtain ⟨-, -, -, held, -⟩ := tokenTaken_facts s code
  rw [recordCore_taken ht, hk, held]

theorem record_shut (hs : s.evr.shut = true) : s.record code src p1 p2 p3 p4 = s.tokenTaken code := by
  obtain ⟨shut, -⟩ := tokenTaken_facts s code
  have kept : (s.tokenTaken code).keep code src p1 p2 p3 p4 = (s.tokenTaken code, false) := if_pos (shut.trans hs)
  rw [State.record, recordCore_kept ht kept]
  rfl

theorem record_lost (hs : s.evr.shut = false) (hl : 256 ≤ s.evr.staging.length) : s.record code src p1 p2 p3 p4 =
    { (s.tokenTaken code).bumpPlain 1 with evr := { ((s.tokenTaken code).bumpPlain 1).evr with lost := s.evr.lost + 1 } } := by
  obtain ⟨shut, staging, lost, -⟩ := tokenTaken_facts s code
  have kept : (s.tokenTaken code).keep code src p1 p2 p3 p4 =
      ({ (s.tokenTaken code).bumpPlain 1 with evr := { ((s.tokenTaken code).bumpPlain 1).evr with lost := s.evr.lost + 1 } }, false) := by
    rw [State.keep, if_neg (by simp [shut, hs]), if_pos (by rw [staging]; exact hl), lost]
  rw [State.record, recordCore_kept ht kept]
  rfl

theorem record_staged (hs : s.evr.shut = false) (hl : s.evr.staging.length < 256) (hh : s.amberHeld ≠ 4095) : s.record code src p1 p2 p3 p4 =
    ((s.tokenTaken code).stage code src p1 p2 p3 p4).notice code := by
  obtain ⟨shut, staging, -⟩ := tokenTaken_facts s code
  have core := (recordCore_kept ht (keep_room code src p1 p2 p3 p4 (shut.trans hs) (by rw [staging]; exact hl))).trans (if_neg fun h => hh h.2)
  rw [State.record, core]
  rfl

/-- The record that fills Amber brings the one that says so. -/
theorem record_fills (hs : s.evr.shut = false) (hl : s.evr.staging.length < 255) (hh : s.amberHeld = 4095) : s.record code src p1 p2 p3 p4 =
    (((s.tokenTaken code).stage code src p1 p2 p3 p4).stage 0xF002 Src.recorder 0 0 0 0).notice code := by
  obtain ⟨shut, staging, -⟩ := tokenTaken_facts s code
  have room : ((s.tokenTaken code).stage code src p1 p2 p3 p4).evr.staging.length < 256 := by
    rw [stage_eq]
    simp only [List.length_append, List.length_cons, List.length_nil, staging]
    omega
  have core := (recordCore_kept ht (keep_room code src p1 p2 p3 p4 (shut.trans hs) (by rw [staging]; omega))).trans (if_pos ⟨rfl, hh⟩)
  rw [State.record, core, keep_room (u := (s.tokenTaken code).stage code src p1 p2 p3 p4) _ _ _ _ _ _ (shut.trans hs) room]
  rfl

end Token

theorem tokens_eq (s : State) (code cls : Nat) : s.tokens code cls =
    match s.evr.buckets.get? code with
    | none => if cls = 1 then 64 else if cls = 2 then 8 else 2
    | some b => min (if cls = 1 then 64 else if cls = 2 then 8 else 2) (b.tokens + (s.time.uptime / (if cls = 1 then 390625 else if cls = 2 then 3125000 else 25000000) -
        b.seen / (if cls = 1 then 390625 else if cls = 2 then 3125000 else 25000000))) := by
  rw [← bucketSize_eq, ← bucketPeriod_eq]
  rfl

theorem screeFlush_run (hu : s.dieUp = true) (hf : s.bas.freeze = false) (hs : s.evr.staging ≠ []) : execScreeFlush s =
    .next (let u : State := State.touch { s.flushScree with evr := { s.flushScree.evr with lost := 0 } } 3
      if s.evr.lost = 0 then u else u.record 0xF010 Src.recorder s.evr.lost) :=
  if_neg (by simp [hu, hf, hs])

end Records

/-- Settles O49: a record by `record_none`, `record_shut`, `record_lost`, `record_staged` and `record_fills`. -/
theorem recorder : Obligations.Recorder := by
  unfold Obligations.Recorder
  intro s st up n
  rw [exec_screeFlush, exec_suppressionSummary]
  refine ⟨fun not => ?_, fun ⟨hu, hf, hs⟩ => ⟨_, screeFlush_run hu hf hs, _, rfl, ?_⟩, fun down => if_pos (by simp [down]), fun hu => if_neg (by simp [hu]), ?_⟩
  · refine if_pos ?_
    simp only [up, st] at not
    simp only [List.isEmpty_iff]
    cases hu : s.dieUp <;> cases hf : s.bas.freeze <;> simp_all
  · dsimp only
    split
    next none => rfl
    next some => exact ⟨_, .refl _, .refl _⟩
  intro code src p1 p2 p3 p4 cls size period tokens x held rec_ taken r full count
  have tokens_is : s.tokens code cls = tokens := tokens_eq s code cls
  have taken_is : s.tokenTaken code = taken := by unfold State.tokenTaken; rw [tokens_is]
  have staged : (s.tokenTaken code).stage code src p1 p2 p3 p4 = taken.withStaged [r] code := by
    obtain ⟨-, -, -, amber, time⟩ := tokenTaken_facts s code
    rw [stage_record, eventRecord_of_time time, amber, taken_is]
    rfl
  have staging : taken.evr.staging = st := by
    rw [← taken_is]
    exact (tokenTaken_facts s code).2.1
  have filled (hh : held = 4095) : (taken.withStaged [r] code).stage 0xF002 Src.recorder 0 0 0 0 = taken.withStaged [r, full] 0xF002 := by
    obtain ⟨-, -, -, amber, time⟩ := tokenTaken_facts s code
    rw [taken_is] at amber time
    have last : (taken.withStaged [r] code).amberHeld = 4096 := by
      rw [withStaged_amberHeld, amber, show s.amberHeld = held from rfl, hh]
      simp [r, rec_, hh]
    rw [stage_record, last, eventRecord_of_time (s := s) (withStaged_time.trans time), withStaged_withStaged]
    rfl
  refine ⟨fun hc ht => ⟨_, Sets.count .., record_none hc (tokens_is.trans ht)⟩, fun ht hs => ?_, fun ht hs hl => ?_, fun ht hs hl hh => ?_,
    fun ht hs hl hh => ?_⟩
  all_goals rw [← tokens_is] at ht
  · rw [record_shut ht hs, taken_is]
  · rw [record_lost ht hs hl, taken_is]
    rfl
  · rw [record_staged ht hs hl hh, staged, withStaged_eq staging]
  · rw [record_fills ht hs hl hh, staged, filled hh, withStaged_eq staging]

end Sys2Proof.Machine
end

section
/-! PROOFS. Cairn firings (O48). -/

namespace Sys2Proof.Machine

section Firings
variable {s : State} {c k conn : Nat} {f : Firing} {a : Bytes} {ms : List OMsg}

theorem runFiring_over (h : s.crn.running.find? (fun g => g.cairn == c) = some f) (ha : (s.cairn c).actions ≤ f.action) : s.runFiring c (k + 1) = s := by
  rw [← found_cairn h] at ha
  have done : s.runAction f = (s, false) := if_pos ha
  rw [runFiring_some h, done]
  rfl

section Action
variable (h : s.crn.running.find? (fun g => g.cairn == c) = some f) (ha : f.action < (s.cairn c).actions)
include h ha

/-- A PIN ends at once, and the firing goes on. -/
theorem runFiring_pin (hk : leAt (slice (s.cairn c).entry (32 + 16 * f.action) 16) 0 1 = 1) :
    s.runFiring c (k + 1) = (s.runPin f (slice (s.cairn c).entry (32 + 16 * f.action) 16)).runFiring c k := by
  rw [runFiring_some h, runAction_pin h ha hk]
  rfl

/-- A SHIP waits till the pins of the firing are durable. -/
theorem runFiring_ship_waits (hk : leAt (slice (s.cairn c).entry (32 + 16 * f.action) 16) 0 1 = 2) (hp : f.pinsDurable = false) (hb : f.begun = false) :
    s.runFiring c (k + 1) = s := by
  rw [runFiring_some h, runAction_ship h ha hk, if_pos (c := ¬ f.pinsDurable = true ∧ ¬ f.begun = true) (by simp [hp, hb])]
  rfl

/-- A SHIP that may go on hands over messages, and the firing goes on if it ended. -/
theorem runFiring_ship (hk : leAt (slice (s.cairn c).entry (32 + 16 * f.action) 16) 0 1 = 2) (hp : f.pinsDurable = true ∨ f.begun = true) {u : State}
    (hu : s.runShip f (slice (s.cairn c).entry (32 + 16 * f.action) 16) = u) :
    s.runFiring c (k + 1) = if (u.crn.running.find? fun g => g.cairn == c).any (fun g => decide (g.action ≠ f.action)) = true then u.runFiring c k else u := by
  have may : ¬ (¬ f.pinsDurable = true ∧ ¬ f.begun = true) := fun no => hp.elim no.1 no.2
  rw [runFiring_some h, runAction_ship h ha hk, if_neg may, hu]
  rfl

theorem runFiring_send (hk : leAt (slice (s.cairn c).entry (32 + 16 * f.action) 16) 0 1 = 3) :
    s.runFiring c (k + 1) = s.runSend f (slice (s.cairn c).entry (32 + 16 * f.action) 16) := by
  rw [runFiring_some h, runAction_send h ha hk]
  rfl

theorem runFiring_notify (hk : leAt (slice (s.cairn c).entry (32 + 16 * f.action) 16) 0 1 = 4) :
    s.runFiring c (k + 1) = State.runFiring ((if s.mbxUp = true then s.setD2h (leAt (slice (s.cairn c).entry (32 + 16 * f.action) 16) 4 4) else s).commitFiring
      (f.ended 0)) c k := by
  rw [runFiring_some h, runAction_notify h ha hk]
  rfl

end Action

theorem volGone_iff (s : State) (v : Nat) : s.volGone v = true ↔ (s.vol v).kind ≠ 1 ∨ (s.vol v).sanitize = true := by
  simp [State.volGone]

theorem pinRoom_iff (s : State) (v : Nat) : ¬ s.pinRoom v = true ↔ 16 ≤ (s.nv.pins.filter fun p => p.vol == v).length ∨ 128 ≤ s.nv.pins.length := by
  simp only [State.pinRoom, Bool.and_eq_true, decide_eq_true_iff]
  omega

theorem pinHeld_iff (s : State) (v h : Nat) : (s.nv.pins.any fun p => p.vol == v && p.handle == h) = true ↔ ∃ p ∈ s.nv.pins, p.vol = v ∧ p.handle = h := by
  simp

theorem addPin_eq (s : State) (v h : Nat) (rs : List SRec) : s.addPin v h rs = { s.commit with nv := { s.commit.nv with
    pins := s.nv.pins ++ [{ vol := v, handle := h, first := (rs.head?.map fun r => r.seq).getD 0, count := rs.length }] } } := by
  cases rs <;> rfl

/-- What a PIN does of one stream (R473). -/
theorem pinOne_facts (s : State) (f : Firing) (a : Bytes) (v : Nat) :
    let x := s.vol v
    let handle := 0x8000 + 32 * f.cairn + v
    let gone : Prop := x.kind ≠ 1 ∨ x.sanitize = true
    let held : Prop := ∃ p ∈ s.nv.pins, p.vol = v ∧ p.handle = handle
    let full : Prop := 16 ≤ (s.nv.pins.filter fun p => p.vol == v).length ∨ 128 ≤ s.nv.pins.length
    (gone → s.pinOne f a v = (s, [], 7)) ∧ (¬ gone → held ∨ full → s.pinOne f a v = (s, [], 2)) ∧
    (¬ gone → ¬ held → ¬ full → s.pinOne f a v = (s.addPin v handle (s.pinSpan f a v), [(handle, v, f.action)], 0)) := by
  intro x handle gone held full
  have gone_iff := volGone_iff s v
  have room_iff := pinRoom_iff s v
  have held_iff := pinHeld_iff s v handle
  refine ⟨fun h => if_pos (gone_iff.mpr h), fun h1 h2 => ?_, fun h1 h2 h3 => ?_⟩
  · exact (if_neg (mt gone_iff.mp h1)).trans (if_pos (h2.imp held_iff.mpr room_iff.mpr))
  · exact (if_neg (mt gone_iff.mp h1)).trans (if_neg (not_or.mpr ⟨mt held_iff.mp h2, mt room_iff.mp h3⟩))

/-- A SHIP hands over at most 4 messages ahead of acknowledgement (R474). -/
theorem pumpShip_stops (h : s.crn.running.find? (fun g => g.cairn == c) = some f) (hm : f.acked + 4 ≤ f.next ∨ ms.length ≤ f.next) :
    s.pumpShip c conn ms k = s := by
  have found : s.firing? c = some f := h
  cases k with
  | zero => rfl
  | succ k =>
    rw [State.pumpShip, found]
    dsimp only
    split
    · rfl
    next early => rw [List.getElem?_eq_none (hm.resolve_left early)]

theorem pumpShip_goes (h : s.crn.running.find? (fun g => g.cairn == c) = some f) (ha : f.next < f.acked + 4) {m : OMsg} (hm : ms[f.next]? = some m) :
    s.pumpShip c conn ms (k + 1) = State.pumpShip ((s.setFiring { f with next := f.next + 1 }).enqueue conn m) c conn ms k := by
  have found : s.firing? c = some f := h
  rw [State.pumpShip, found]
  dsimp only
  rw [if_neg (by omega), hm]

theorem cairnsUp_iff (s : State) : s.cairnsUp = true ↔ s.dieUp = true ∧ s.dev.serves = true ∧ s.bas.freeze = false := by
  simp [State.cairnsUp, and_assoc]

theorem cairnFiringStart_run {q : List Firing} (hq : s.crn.queue = f :: q) : execCairnFiringStart s =
    if ¬ s.cairnsUp = true ∨ 4 ≤ s.crn.running.length then .next s
    else .next (State.runFiring (State.commitFiring (State.record { s with crn := { s.crn with queue := q, running := s.crn.running ++ [f] } } 0xA020 Src.cairn
      f.cairn f.number f.kind (f.t0 % 2 ^ 32)) f) f.cairn 8) := by
  rw [execCairnFiringStart, hq]
  rfl

/-- The state in which a firing has ended, before its chain trigger (R476). -/
def State.cairnEnded (s : State) (i : Nat) (f : Firing) : State :=
  let c := s.cairn i
  let s1 := s.record 0xA021 Src.cairn i f.result f.shipped f.bytes
  let s2 := if f.result = 0 then s1 else s1.bump 0x52
  let s3 := if c.flag 2 ∧ f.ships = 0 then s2.releasePins f else s2
  let c3 := s3.cairn i
  let after := { c3 with
    entry := if c3.cancelled then [] else c3.entry
    state := if c3.cancelled then 0 else if c.flag 1 then 1 else 3
    cancelled := false, count := 0, result := f.result, ended := f.results.length }
  { (s3.setCairn i after).touch 0x0B with crn := { s3.crn with
    running := s3.crn.running.filter (fun g => g.cairn ≠ i)
    lastCairn := i, lastResult := f.result, lastNumber := f.number % 65536 } }

theorem cairnFiringEnd_run {i : Fin 512} (h : s.firing? i.val = some f) : execCairnFiringEnd i s =
    if ¬ s.cairnsUp = true ∨ f.action < (s.cairn i.val).actions then .next s
    else .next ((s.cairnEnded i.val f).chain (s.cairn i.val) f) := by
  rw [execCairnFiringEnd, h]
  rfl

/-- The state in which a connection no longer holds a cairn's messages. -/
def State.cairnUnsent (s : State) (c conn : Nat) : State :=
  s.setConn conn { s.conn conn with outq := (s.conn conn).outq.filter fun m => m.cairn ≠ c + 1 }

theorem shipConnectionTimeout_run {i : Fin 512} (h : s.firing? i.val = some f) : execShipConnectionTimeout i s =
    let a := slice (s.cairn i.val).entry (32 + 16 * f.action) 16
    if ¬ s.cairnsUp = true ∨ ¬ f.begun = true ∨ (s.conn (leAt a 2 1)).st = 3 ∨ (leAt a 0 1 ≠ 2 ∧ leAt a 0 1 ≠ 3) then .next s
    else .next ((s.cairnUnsent i.val (leAt a 2 1)).cairnBroken i.val 3) := by
  rw [execShipConnectionTimeout, h]
  rfl

/-- The parts of a firing's end, one after the other. -/
theorem cairnEnded_facts (s : State) (i : Nat) (f : Firing) (r : Nat) (hr : r = f.result) : ∃ u v w : State,
    Logs s 0xA021 Src.cairn i r f.shipped f.bytes u ∧ (if r = 0 then v = u else Counts u 0x52 v) ∧
    w = (if (s.cairn i).flag 2 = true ∧ f.ships = 0 then { v.commit with nv := { v.commit.nv with
      pins := v.nv.pins.filter fun p => !(f.pins.any fun q => q.1 == p.handle && q.2.1 == p.vol) } } else v) ∧
    s.cairnEnded i f = { (w.setCairn i { w.cairn i with
        entry := if (w.cairn i).cancelled = true then [] else (w.cairn i).entry
        state := if (w.cairn i).cancelled = true then 0 else if (s.cairn i).flag 1 = true then 1 else 3
        cancelled := false, count := 0, result := r, ended := f.results.length }).touch 0x0B with
      crn := { w.crn with running := w.crn.running.filter (fun g => g.cairn ≠ i), lastCairn := i, lastResult := r, lastNumber := f.number % 65536 } } := by
  subst hr
  exact ⟨s.record 0xA021 Src.cairn i f.result f.shipped f.bytes, _, _, ⟨_, .refl _, .refl _⟩, refusals_counted _ f.result, rfl, rfl⟩

end Firings

/-- Settles O48: a firing's actions by `runFiring_pin`, `runFiring_ship`, `runFiring_send` and `runFiring_notify`, one stream's pin by
`pinOne_facts`, a SHIP's messages by `pumpShip_goes`, a broken action by `broken_eq`, the end by `chain_facts`. -/
theorem cairnFirings : Obligations.CairnFirings := by
  unfold Obligations.CairnFirings
  intro s up put saved excess
  rw [exec_cairnFiringStart]
  have save (u : State) (f : Firing) : saved u f = u.commitFiring f := (commitFiring_eq u f).symm
  have upIff : s.cairnsUp = true ↔ up := cairnsUp_iff s
  refine ⟨fun none => ?_, fun f q hq => ⟨fun not => ?_, fun hu room => ?_⟩, ?_, fun f a v => ?_,
    fun c conn k ms f hf => ⟨pumpShip_stops hf, fun ha m hm => pumpShip_goes hf ha hm⟩, fun c => ⟨fun idle => ?_, fun f hf => ?_⟩⟩
  · rw [execCairnFiringStart, none]
    rfl
  · rw [cairnFiringStart_run hq, if_pos (by rw [upIff]; have := not_and.mp not; by_cases hu : up <;> simp_all)]
  · refine ⟨_, (cairnFiringStart_run hq).trans (if_neg (by rw [upIff]; simp [hu]; omega)), _, ⟨_, .refl _, .refl _⟩, ?_⟩
    rw [save]
  · intro c k f hf
    obtain rfl := found_cairn hf
    intro e a kind n ship
    refine ⟨runFiring_over hf, fun ha hk => ⟨_, _, _, rfl, ?_⟩, runFiring_ship_waits hf, fun ha hk hp => ⟨_, ?_, ?_, runFiring_ship hf ha hk hp rfl⟩, fun ha hk => ?_, fun ha hk => ?_⟩
    · rw [runFiring_pin hf ha hk, save]
      rfl
    · intro all
      rw [save]
      exact if_pos all
    · intro more
      exact if_neg (Nat.not_le.mpr more)
    · rw [runFiring_send hf ha hk, State.runSend]
      rfl
    · rw [runFiring_notify hf ha hk, save]
      rfl
  · obtain ⟨gone, kept, pinned⟩ := pinOne_facts s f a v
    refine ⟨gone, kept, fun h1 h2 h3 => (pinned h1 h2 h3).trans ?_⟩
    rw [addPin_eq]
    rfl
  · have found : s.firing? c.val = none := idle
    exact ⟨by rw [exec_cairnFiringEnd, execCairnFiringEnd, found]; rfl, by rw [exec_shipConnectionTimeout, execShipConnectionTimeout, found]; rfl⟩
  · intro e a kind conn stuck r done linked
    have found : s.firing? c.val = some f := hf
    have stuckIff : ¬ stuck ↔ ¬ s.cairnsUp = true ∨ ¬ f.begun = true ∨ (s.conn conn).st = 3 ∨ (kind ≠ 2 ∧ kind ≠ 3) := by
      rw [upIff]
      exact Classical.not_and_iff_not_or_not.trans (or_congr .rfl (Classical.not_and_iff_not_or_not.trans (or_congr .rfl (Classical.not_and_iff_not_or_not.trans (or_congr Classical.not_not not_or)))))
    have doneIff : ¬ done ↔ ¬ s.cairnsUp = true ∨ f.action < e.actions := by
      rw [upIff, ← Nat.not_le]
      exact Classical.not_and_iff_not_or_not
    have timeout := shipConnectionTimeout_run found
    rw [exec_shipConnectionTimeout, exec_cairnFiringEnd]
    refine ⟨fun not => timeout.trans (if_pos (stuckIff.mp not)), fun h => ⟨s.cairnUnsent c.val conn, rfl, ?_⟩, fun not => ?_, fun h => ?_⟩
    · refine (timeout.trans (if_neg (mt stuckIff.mpr (Classical.not_not.mpr h)))).trans ?_
      rw [broken_eq hf h.2.1 (s.cairnUnsent c.val conn) rfl rfl]
      exact congrArg (fun t : State => ok (t.runFiring c.val 8)) rfl
    · rw [execCairnFiringEnd, found]
      exact if_pos (doneIff.mp not)
    · obtain ⟨unlinked, deep, chained⟩ := chain_facts (State.cairnEnded s c.val f) e f
      rw [found_cairn hf] at deep
      obtain ⟨u, v, w, logged, counted, released, ended⟩ := cairnEnded_facts s c.val f r rfl
      exact ⟨_, (cairnFiringEnd_run found).trans (if_neg (mt doneIff.mpr (Classical.not_not.mpr h))), u, v, w, _, logged, counted, released, ended, unlinked, deep, chained⟩

end Sys2Proof.Machine
end

section
/-! PROOFS. FLUSH, TRIM and the budget window (O35). -/

namespace Sys2Proof.Machine

section Traffic
variable {s : State} {n tag : Nat} {c : Cmd}

theorem flush_open (h : Starts s n tag 5 c) (hc : s.ioCheck c = none) (hf : s.flushed c = false) :
    s.startCmd n tag 5 State.startFlush = .next (s.setCmd { c with stage := .held }) := by
  rw [h.run, State.startFlush, flushGood hc, if_neg (by simp [hf])]
  rfl

theorem flush_done (h : Starts s n tag 5 c) (hc : s.ioCheck c = none) (hf : s.flushed c = true) :
    s.startCmd n tag 5 State.startFlush = .next (s.complete c 0 []) := by
  rw [h.run, State.startFlush, flushGood hc, if_pos hf]
  rfl

theorem trim_run (h : Starts s n tag 6 c) (hc : s.ioCheck c = none) : s.startCmd n tag 6 State.startTrim = .next (State.complete
    (if (s.vol c.volume).emul = true then
      if (c.start + c.length) / 8 < ceilDiv c.start 8 then s.trimPart c.volume ((c.start + c.length) / 8) (c.start % 8) ((c.start + c.length) % 8)
      else
        let t := s.trimWhole c.volume (ceilDiv c.start 8) ((c.start + c.length) / 8 - ceilDiv c.start 8)
        (if c.start % 8 = 0 then t else t.trimPart c.volume (c.start / 8) (c.start % 8) 8).trimPart c.volume ((c.start + c.length) / 8) 0 ((c.start + c.length) % 8)
    else s.trimWhole c.volume c.start c.length) c 0 []) := by
  rw [h.run, State.startTrim, flushGood hc]
  rfl

/-- The blocks of a range are unmapped, the others stay. -/
theorem trimWhole_blk (s : State) (v first n : Nat) {b : Nat} (h : b < (s.vol v).blocks) :
    (s.trimWhole v first n).blk v (s.place v b) = if first ≤ b ∧ b < first + n then none else s.blk v (s.place v b) := by
  obtain ⟨blocks, -⟩ := trims_facts v (s.mappedIn v first n) s (s.trimWhole v first n) rfl
  rw [blocks]
  by_cases hm : s.blk v (s.place v b) = none
  · rw [hm, ite_self, ite_self]
  · exact ite_cond_congr (propext (mem_mappedIn h hm))

theorem trimmed_reads_zeros (s : State) (v first n : Nat) {b : Nat} (h : b < (s.vol v).blocks) (h1 : first ≤ b) (h2 : b < first + n) :
    (s.trimWhole v first n).blockBytes v (s.place v b) = List.replicate 4096 0 := by
  rw [State.blockBytes, trimWhole_blk s v first n h, if_pos ⟨h1, h2⟩]

/-- The fields that a budget window takes from its staged writes. -/
theorem budgetWindowEnd_facts (s : State) : ∃ t : State, execBudgetWindowEnd s = .next t ∧ t.f Reg.cycCmds = 0 ∧ t.f Reg.cycUnits = 0 ∧
    (∀ f ∈ [Reg.cycWindow, Reg.cycMaxCmds, Reg.cycMaxUnits], t.staged.get? f.key = none ∧
      t.f f = match s.staged.get? f.key with
        | some x => x % 2 ^ f.width
        | none => s.f f) ∧
    (∀ f : Field, (∀ g ∈ [Reg.cycCmds, Reg.cycUnits, Reg.cycWindow, Reg.cycMaxCmds, Reg.cycMaxUnits], f.key ≠ g.key) → t.f f = s.f f) ∧
    { t with csr := s.csr, staged := s.staged } = s := by
  obtain ⟨a1, a2, a3, a4, a5⟩ := takeStaged_facts s _ Reg.cycWindow rfl
  obtain ⟨b1, b2, b3, b4, b5⟩ := takeStaged_facts (takeStaged s Reg.cycWindow) _ Reg.cycMaxCmds rfl
  obtain ⟨c1, c2, c3, c4, c5⟩ := takeStaged_facts (takeStaged (takeStaged s Reg.cycWindow) Reg.cycMaxCmds) _ Reg.cycMaxUnits rfl
  obtain ⟨u, hu⟩ : ∃ u, u = takeStaged (takeStaged (takeStaged s Reg.cycWindow) Reg.cycMaxCmds) Reg.cycMaxUnits := ⟨_, rfl⟩
  obtain ⟨t, ht⟩ : ∃ t : State, t = { (u.setF Reg.cycCmds 0).setF Reg.cycUnits 0 with staged := u.staged.erase 1 } := ⟨_, rfl⟩
  rw [← hu] at c1 c2 c3 c4 c5
  have same (f : Field) : t.f f = ((u.setF Reg.cycCmds 0).setF Reg.cycUnits 0).f f := by
    rw [ht]
    rfl
  have shown (f : Field) (h1 : f.key ≠ Reg.cycUnits.key) (h2 : f.key ≠ Reg.cycCmds.key) : t.f f = u.f f := by
    rw [same, State.f_setF_ne _ _ h1, State.f_setF_ne _ _ h2]
  have staged (k : Nat) (hk : k ≠ 1) : t.staged.get? k = u.staged.get? k := by
    rw [ht]
    exact Map.get?_erase_ne _ hk
  refine ⟨t, by rw [ht, hu]; rfl, ?_, ?_, ?_, fun f hf => ?_, ?_⟩
  · rw [same, State.f_setF_ne _ _ (by decide), State.f_setF_self]
    rfl
  · rw [same, State.f_setF_self]
    rfl
  · simp only [List.forall_mem_cons, List.not_mem_nil, false_imp_iff, implies_true, and_true]
    refine ⟨⟨?_, ?_⟩, ⟨?_, ?_⟩, ?_, ?_⟩
    · rw [staged _ (by decide), c4 _ (by decide), b4 _ (by decide), a3]
    · exact (shown _ (by decide) (by decide)).trans ((c2 _ (by decide)).trans ((b2 _ (by decide)).trans a1))
    · rw [staged _ (by decide), c4 _ (by decide), b3]
    · rw [a4 _ (by decide), a2 _ (by decide)] at b1
      exact (shown _ (by decide) (by decide)).trans ((c2 _ (by decide)).trans b1)
    · rw [staged _ (by decide), c3]
    · rw [b4 _ (by decide), a4 _ (by decide), b2 _ (by decide), a2 _ (by decide)] at c1
      exact (shown _ (by decide) (by decide)).trans c1
  · simp only [List.forall_mem_cons] at hf
    obtain ⟨h1, h2, h3, h4, h5, -⟩ := hf
    rw [shown f h2 h1, c2 f h5, b2 f h4, a2 f h3]
  · have all := congrArg (fun x : State => { x with csr := s.csr, staged := s.staged }) c5
    have two := congrArg (fun x : State => { x with csr := s.csr, staged := s.staged }) b5
    rw [ht]
    exact all.trans (two.trans a5)

end Traffic

/-- Settles O35: FLUSH by `flushed_iff`, TRIM by `trims_facts`, the window by `budgetWindowEnd_facts`. -/
theorem flushTrimBudget : Obligations.FlushTrimBudget := by
  unfold Obligations.FlushTrimBudget
  intro s n tag c
  rw [exec_flush, exec_trim, exec_budgetWindowEnd]
  refine ⟨fun st hst => ⟨fun h => ?_, fun h => ?_⟩, fun h hc => ?_, fun h hc => ?_, budgetWindowEnd_facts s⟩
  · exact (h.run _).trans (congrArg ok (flushBad hst _ (by rw [h.opcode]; decide)))
  · exact (h.run _).trans (congrArg ok (flushBad hst _ (by rw [h.opcode]; decide)))
  · intro covered open_
    have done : s.flushed c = true ↔ ¬ open_ := flushed_iff s c
    exact ⟨fun more => flush_open h hc (by simpa using mt done.mp (Classical.not_not.mpr more)), fun all => flush_done h hc (done.mpr all)⟩
  · intro v lo hi whole
    refine ⟨fun plain => ?_, fun emul => ⟨fun none => ?_, fun some => ?_⟩⟩
    · have run : execTrim n tag s = .next ((s.trimWhole v lo c.length).complete c 0 []) := by
        rw [execTrim, trim_run h hc, if_neg (by simp [show (s.vol c.volume).emul = false from plain])]
      obtain ⟨-, map, others, rest⟩ := trims_facts v (s.mappedIn v lo c.length) s (s.trimWhole v lo c.length) rfl
      have range := trimRange hc h.opcode
      have blocks : (s.vol v).lbas = (s.vol v).blocks := if_neg (by simp [plain])
      refine ⟨_, run, _, rfl, fun b => trimWhole_blk s v lo c.length, fun b h1 h2 => trimmed_reads_zeros s v lo c.length ?_ h1 h2, map, others, rest⟩
      rw [← blocks]
      exact Nat.lt_of_lt_of_le h2 range
    · rw [execTrim, trim_run h hc, if_pos emul, if_pos none]
    · rw [execTrim, trim_run h hc, if_pos emul, if_neg (Nat.not_lt.mpr some)]

end Sys2Proof.Machine
end

section
/-! PROOFS. The queries (O36). -/

namespace Sys2Proof.Machine

section Logs
variable {s : State} {c : Cmd} {tag : BitVec 5} {gone : List (BitVec 16)}

theorem lossReport_run (h : Turn s tag 0x57 c) (ho : ((c.volume ≤ 31 || c.volume = 0xFF) && c.opflags = 0 && c.b 28 1 ≤ 5 && c.zero 29 27 &&
    64 ≤ c.length && c.length % 16 = 0 && c.data) = true) (x : AdmXfer) : exec (.lossReport 0 tag x) s = ok (s.admOut c x fun t =>
      let all := t.lossMatches c.volume (c.b 28 1)
      let sel := (all.drop c.start).take ((c.length - 64) / 16)
      let data := t.lossHeader ++ sel.flatMap LossRun.bytes
      (t, data, natLe 4 data.length ++ natLe 4 sel.length ++ natLe 4 all.length)) := by
  rw [exec_lossReport, execLossReport, h.run rfl ho rfl rfl]

theorem configRead_run (h : Turn s tag 0x56 c) (ho : c.itemFields = true) (x : AdmXfer) : exec (.configRead 0 tag x) s = ok (s.admOut c x fun t =>
    (t, if c.opflags = 1 then t.itemInForce c.volume c.start else padTo c.length (t.storedItem c.volume c.start), natLe 4 c.length)) := by
  rw [exec_configRead, execConfigRead, h.run rfl ho rfl rfl]

theorem logRead_run (h : Turn s tag 0x44 c) (ho : c.logOk = true) (hr : c.opflags = 0 ∨ s.asOwner = true) (x : AdmXfer) :
    exec (.logRead 0 tag gone x) s = ok (s.admOut c x fun t => t.logCopy c.volume c.start c.length (c.opflags = 1) (gone.map fun i => i.toNat)) := by
  rw [exec_logRead, execLogRead, h.run rfl ho (by simpa using hr) rfl]

/-- A page without records is copied as it is. -/
theorem logCopy_plain {page off len : Nat} {l : List Nat} (h2 : page ≠ 2) (h3 : page ≠ 3) : s.logCopy page off len false l =
    (s, ((s.pageWith page l).drop off).take len,
      natLe 4 (((s.pageWith page l).drop off).take len).length ++ natLe 8 (s.pageSequence page) ++ natLe 4 (s.pageWith page l).length) := by
  unfold State.logCopy
  dsimp only
  rw [if_neg (c := page = 2 ∨ page = 3) (by omega)]
  rfl

theorem logCopy_cleared {page off len : Nat} {l : List Nat} (h2 : page ≠ 2) (h3 : page ≠ 3) : (s.logCopy page off len true l).1 = s.clearPage page off len := by
  unfold State.logCopy
  dsimp only
  rw [if_neg (c := page = 2 ∨ page = 3) (by omega), if_pos rfl]
  rfl

/-- Only records that decode from neither copy are counted. -/
theorem logCopy_counts (page off len : Nat) (l : List Nat) : Steady s (s.logCopy page off len false l).1 := bumps_steady _ 0x02 s

end Logs

/-- Settles O36: each query sends by `sends_of`, LOG_READ clears by `logCopy_cleared`. -/
theorem queries : Obligations.Queries := by
  unfold Obligations.Queries
  intro s tag c segs data off code gone hd fault sends
  refine ⟨fun h hv ho hs hn hl => ?identify, fun h hv ho hs hn hl => ?volume, fun h hv ho hc hz h64 h16 => ?loss, fun h ho hi hl hs hn => ?config,
    fun h ho hr => ?log⟩
  case identify =>
    refine sends_of (f := fun t => (t, t.identify, natLe 4 4096)) (fun x => ?_) ?_
    · rw [exec_identify, execIdentify, h.run rfl (by simp [State.admRule, Cmd.plain, hv, ho, hs, hn, hl, hd]) rfl rfl]
    · rw [State.identify, h.notMinimal]
      rfl
  case volume =>
    have run (x : AdmXfer) : exec (.volumeQuery 0 tag x) s = ok (s.admOut c x fun t => (t, t.volQuery c.volume, natLe 4 256)) := by
      rw [exec_volumeQuery, execVolumeQuery, h.run rfl (by simp [State.admRule, hv, ho, hs, hn, hl, hd]) rfl rfl]
    intro v b stream first
    refine ⟨fun free => sends_of run ?_, fun used => sends_of run ?_⟩
    · exact congrArg (fun b => (s, b, natLe 4 256)) (if_pos free)
    · exact congrArg (fun b => (s, b, natLe 4 256)) (if_neg used)
  case loss =>
    exact sends_of (lossReport_run h (by simp [hv, ho, hc, hz, h64, h16, hd])) rfl
  case config =>
    exact sends_of (configRead_run h (by simp [Cmd.itemFields, ho, hi, hl, hs, hn, hd])) rfl
  case log =>
    have run := logRead_run (gone := gone) h ho hr
    intro page bytes result
    refine ⟨fun read h2 h3 => sends_of run ?_, fun list => ⟨_, (run _).trans (congrArg ok (admOut_done list)), _, rfl, fun read => ?_, fun clear h4 => ?_, fun clear h6 => ?_⟩⟩
    · rw [read]
      exact logCopy_plain h2 h3
    · rw [read]
      exact logCopy_counts ..
    · rw [clear, h4]
      exact ⟨_, .refl _, (logCopy_cleared (page := 4) (by decide) (by decide)).symm ▸ .refl _⟩
    · rw [clear, h6]
      exact ⟨_, .refl _, (logCopy_cleared (page := 6) (by decide) (by decide)).symm ▸ .refl _⟩

end Sys2Proof.Machine
end

section
/-! PROOFS. Transfers that end (O40). -/

namespace Sys2Proof.Machine

section Ends
variable {s : State} {n : Fin 8} {tag : BitVec 5} {off : BitVec 22} {c : Cmd} {d : Desc}

theorem movingCmd_some (h : s.cmd? n.val tag.toNat = some c) (hm : c.stage = .moving) (hd : c.descs.find? (fun x => x.off == off.toNat) = some d) :
    s.movingCmd n.val tag.toNat off.toNat = some (c, d) := by
  rw [State.movingCmd, h]
  dsimp only
  rw [if_pos hm, hd]
  rfl

theorem movingCmd_none (h : s.cmd? n.val tag.toNat = none) : s.movingCmd n.val tag.toNat off.toNat = none := by
  rw [State.movingCmd, h]

theorem descriptorEnd_run (h : s.movingCmd n.val tag.toNat off.toNat = some (c, d)) (hz : s.bas.freeze = false) : execDescriptorEnd n tag off s =
    if (d.toHost = true ∧ ¬ s.mayPost = true) ∨ (¬ d.toHost = true ∧ (c.got.get [] d.off).length < d.len) then .next s else .next (s.descEnd c d) := by
  rw [execDescriptorEnd, h]
  dsimp only
  rw [hz]
  simp only [Bool.false_eq_true, false_or]
  rfl

theorem descriptorTimeout_run (h : s.movingCmd n.val tag.toNat off.toNat = some (c, d)) (hz : s.bas.freeze = false) :
    execDescriptorTimeout n tag off s = .next (s.descFault c d 4) := by
  rw [execDescriptorTimeout, h]
  exact if_neg (by simp [hz])

/-- What the end of a descriptor to the host leaves. -/
theorem descEnd_toHost (hd : d.toHost = true) : s.descEnd c d =
    let e : Cmd := { c with descs := c.descs.filter fun x => x.off ≠ d.off }
    if e.descs = [] then ((s.writeDesc c d).setCmd e).complete e c.endStatus c.endResult else (s.writeDesc c d).setCmd e := by
  unfold State.descEnd
  simp only [hd, if_true, List.isEmpty_iff]
  split <;> simp_all

/-- What the end of a descriptor from the host leaves. -/
theorem descEnd_toDevice (hd : d.toHost = false) : s.descEnd c d =
    let e : Cmd := { c with descs := c.descs.filter fun x => x.off ≠ d.off }
    if e.descs ≠ [] then s.setCmd e else (s.setCmd e).applyIn e (c.got.flatMap fun p => p.2) := by
  unfold State.descEnd
  simp only [hd, List.isEmpty_iff]
  rfl

/-- Under FREEZE nothing of a transfer ends. -/
theorem transfers_frozen (hz : s.bas.freeze = true) :
    execDescriptorEnd n tag off s = .next s ∧ execDescriptorTimeout n tag off s = .next s ∧ execAllocHoldExpiry n tag s = .next s := by
  refine ⟨?_, ?_, ?_⟩
  · unfold execDescriptorEnd
    split
    · exact if_pos (.inl hz)
    · rfl
  · unfold execDescriptorTimeout
    split
    · exact if_pos hz
    · rfl
  · unfold execAllocHoldExpiry
    split
    · split
      · exact if_pos hz
      · rfl
    · rfl

/-- Without the command nothing of its transfer ends. -/
theorem transfers_unknown (h : s.cmd? n.val tag.toNat = none) :
    execDescriptorEnd n tag off s = .next s ∧ execDescriptorTimeout n tag off s = .next s ∧ execAllocHoldExpiry n tag s = .next s := by
  have none : s.movingCmd n.val tag.toNat off.toNat = none := movingCmd_none h
  refine ⟨by rw [execDescriptorEnd, none]; rfl, by rw [execDescriptorTimeout, none]; rfl, ?_⟩
  unfold execAllocHoldExpiry
  split
  · rw [h]
    rfl
  · rfl

theorem allocHoldExpiry_run {q : Nat × Nat × Nat × Nat} (hq : s.alloc.queue.find? (fun q => q.1 == n.val && q.2.1 == tag.toNat && q.2.2.1 == 7) = some q)
    (h : s.cmd? n.val tag.toNat = some c) (hz : s.bas.freeze = false) : execAllocHoldExpiry n tag s =
      .next (((s.countF Reg.raceDeferred 1).complete c 0x0100 (natLe 4 (s.unitsHint 7 q.2.2.2))).afterAppend c) := by
  rw [execAllocHoldExpiry, hq]
  dsimp only
  rw [h]
  exact if_neg (by simp [hz])

theorem resumeChannel_facts (s : State) (n : Nat) : (s.resumeChannel n).chan n = { s.chan n with halted := false } ∧
    (∀ m, m ≠ n → (s.resumeChannel n).chan m = s.chan m) ∧ { s.resumeChannel n with chans := s.chans } = s :=
  ⟨Map.get_set_self .., fun _ hm => Map.get_set_ne _ _ _ hm, rfl⟩

end Ends

/-- Settles O40: a descriptor's end by `descEnd_toHost` and `descEnd_toDevice`, its timeout by `descriptorTimeout_run`. -/
theorem transferEnds : Obligations.TransferEnds := by
  unfold Obligations.TransferEnds
  intro s n tag off c d ends late resume expire after
  refine ⟨fun h => h.elim (fun h => transfers_unknown h) fun h => transfers_frozen h, fun h hm hd hz => ?_, fun off => ?_, fun hp hu hr => ?_, fun hp hu hr => ?_, fun q hq h hz => ?_⟩
  · have found := movingCmd_some h hm hd
    have run := descriptorEnd_run found hz
    have may : s.mayPost = true ↔ s.pcie.bme = true ∧ s.pcie.d3 = false ∧ s.pcie.perstHeld = false := by simp [State.mayPost, hz, and_assoc]
    intro left e
    refine ⟨descriptorTimeout_run found hz, fun out b1 b2 b3 => ?_, fun out not => ?_, fun inn short => ?_, fun inn all => ?_⟩
    · have goes : execDescriptorEnd n tag off s = .next (s.descEnd c d) := run.trans (if_neg (by simp [out, may.mpr ⟨b1, b2, b3⟩]))
      rw [descEnd_toHost out] at goes
      refine ⟨fun whole => goes.trans ?_, _, goes, s.writeDesc c d, writeDesc_steady s c d, rfl⟩
      have written : s.writeDesc c d = s.emit (.hostWrite d.addr (slice (c.got.get [] 0) d.off d.len)) := if_pos (by simp [whole])
      rw [written]
    · refine run.trans (if_pos (.inl ⟨out, fun b => ?_⟩))
      obtain ⟨b1, b2, b3⟩ := may.mp b
      simp [b1, b2, b3] at not
    · exact run.trans (if_pos (.inr ⟨by simp [inn], short⟩))
    · refine (run.trans (if_neg (by simp [inn, all]))).trans ?_
      rw [descEnd_toDevice inn]
      rfl
  · obtain held | down := off
    · exact if_pos held
    · exact (ite_congr rfl (fun _ => rfl) fun _ => if_pos (by simp [down])).trans (ite_self _)
  · refine ⟨_, (if_neg (by simp [hp])).trans ((if_neg (by simp [hu])).trans (if_pos hr)), ⟨_, .refl _, .refl _⟩⟩
  · exact ⟨_, (if_neg (by simp [hp])).trans (asWrite_run hu hr _), resumeChannel_facts s n.val⟩
  · obtain ⟨counted, others, rest⟩ := Sets.count s Reg.raceDeferred 1
    refine ⟨_, allocHoldExpiry_run hq h hz, s.countF Reg.raceDeferred 1, ?_, fun f hf => others f (by simpa using hf), rest, rfl⟩
    exact (counted _ (List.mem_singleton_self _)).trans (Nat.mod_eq_of_lt (Nat.lt_succ_of_le (Nat.min_le_left 65535 _)))

end Sys2Proof.Machine
end

section
/-! PROOFS. Self-tests (O38). -/

namespace Sys2Proof.Machine

section Tests
variable {s u : State} {x y : SelfTest} {tag : BitVec 5} {c : Cmd}

theorem selfTestShort_run (h : Turn s tag 0x48 c) (hv : c.volume = 0) (hs : c.start = 0) (hn : c.noOps = true) (hd : c.noData = true) (ho : c.opflags = 1) :
    execSelfTestShort 0 tag s = ok (s.startTest c 1) := by
  rw [execSelfTestShort, h.run (by simp [ho]) (by simp [State.testRule, hv, hs, hn, hd, ho]) rfl rfl]

theorem selfTestExtended_run (h : Turn s tag 0x48 c) (hv : c.volume = 0) (hs : c.start = 0) (hn : c.noOps = true) (hd : c.noData = true) (ho : c.opflags = 2) :
    execSelfTestExtended 0 tag s = ok (s.startTest c 2) := by
  rw [execSelfTestExtended, h.run (by simp [ho]) (by simp [State.testRule, hv, hs, hn, hd, ho]) rfl rfl]

theorem selfTestStop_run (h : Turn s tag 0x48 c) (hv : c.volume = 0) (hs : c.start = 0) (hn : c.noOps = true) (hd : c.noData = true) (ho : c.opflags = 3) :
    execSelfTestStop 0 tag s = ok (s.stopTest c) := by
  rw [execSelfTestStop, h.run (by simp [ho]) (by simp [State.testRule, hv, hs, hn, hd, ho]) rfl rfl]

/-- A test starts unless one runs (R283). -/
theorem startTest_busy (hx : s.selfTest = some x) (k : Nat) : s.startTest c k = s.complete c 0x0100 (natLe 4 (s.testHint x)) := by
  rw [State.startTest, hx]
  rfl

theorem startTest_free (hx : s.selfTest = none) (k : Nat) : Logs { s.setCmd { c with stage := .running } with
    selfTest := some { kind := k, step := 1, ring := c.ring, tag := c.tag, began := s.time.uptime } } 0x9001 Src.selfTest k 0 0 0 (s.startTest c k) := by
  rw [State.startTest, hx]
  exact ⟨_, .refl _, .refl _⟩

theorem stopTest_free (hx : s.selfTest = none) : s.stopTest c = s.complete c 0 [] := by
  rw [State.stopTest, hx]

theorem stopTest_asked (hx : s.selfTest = some x) (h : x.stop ≠ none) : s.stopTest c = s.complete c 0 [] := by
  obtain ⟨p, hp⟩ := Option.ne_none_iff_exists'.mp h
  rw [State.stopTest, hx]
  dsimp only
  rw [hp]

theorem stopTest_asks (hx : s.selfTest = some x) (h : x.stop = none) (hp : s.dev ≠ .preFreeze) : s.stopTest c =
    { s.setCmd { c with stage := .running } with selfTest := some { x with stopping := true, stop := some (c.ring, c.tag) } } := by
  rw [State.stopTest, hx]
  dsimp only
  rw [h]
  exact if_neg hp

/-- What follows a piece: a stop request takes effect (R286). -/
def State.pieceDone (s : State) : State :=
  match s.selfTest with
  | some x => if x.stopping then s.endTest x 2 0 0 else s
  | none => s

theorem pieceDone_none (h : u.selfTest = none) : u.pieceDone = u := by
  rw [State.pieceDone, h]

theorem pieceDone_ends (h : u.selfTest = some y) : if y.stopping = true then TestEnded u y 2 0 0 u.pieceDone else u.pieceDone = u := by
  rw [State.pieceDone, h]
  dsimp only
  split
  · exact endTest_ended ..
  · rfl

theorem selfTestPieceDone_run (hx : s.selfTest = some x) (hu : s.dieUp = true) (hd : s.dev.inService = true) (hz : s.bas.freeze = false) (p : Piece) :
    execSelfTestPieceDone p s = .next (s.pieceEnds x p).pieceDone := by
  rw [execSelfTestPieceDone, hx]
  dsimp only
  rw [if_neg (by simp [hu, hd, hz]), State.pieceDone]
  cases (s.pieceEnds x p).selfTest with
  | none => rfl
  | some y => exact (apply_ite ok ..).symm

theorem selfTestStarved_run (hx : s.selfTest = some x) : exec .selfTestStarved s =
    if s.dieUp = true ∧ s.dev.serves = true ∧ ¬ s.bas.freeze = true then .next (s.endTest x 4 0 0) else .next s := by
  rw [exec_selfTestStarved, execSelfTestStarved, hx]
  rfl

theorem selfTestPieceDone_idle (hx : s.selfTest = some x) (h : s.dieUp = false ∨ s.dev.inService = false ∨ s.bas.freeze = true) (p : Piece) :
    execSelfTestPieceDone p s = .next s := by
  rw [execSelfTestPieceDone, hx]
  exact if_pos (by simpa using h)

/-- The step after the present one, or the end of the test. -/
theorem nextStep_last (h : lastStep x.kind < x.step + 1 ∨ x.step + 1 = 12 ∧ s.parityOn = false) : TestEnded s x 0 0 0 (s.nextStep x).pieceDone := by
  have last : s.nextStep x = s.endTest x 0 0 0 := if_pos (by simpa using h)
  rw [last, pieceDone_none (ended_none (endTest_ended s x 0 0 0))]
  exact endTest_ended ..

theorem nextStep_goes (h1 : x.step + 1 ≤ lastStep x.kind) (h2 : ¬ (x.step + 1 = 12 ∧ s.parityOn = false)) :
    s.nextStep x = { s with selfTest := some { x with step := x.step + 1 } } := if_neg (by
    rintro (h | h)
    · omega
    · exact h2 ⟨h.1, by simpa using h.2⟩)

/-- A unit found faulty ends the test. -/
theorem failTest_facts (s : State) (x : SelfTest) (unit : Nat) : ∃ u, TestEnded s x 1 x.step unit u ∧
    (s.failTest x unit).pieceDone = u.faultyUnit x.step unit :=
  ⟨_, endTest_ended .., pieceDone_none (faulty_none _ _ _ (ended_none (endTest_ended ..)))⟩

/-- What a piece of step 11 read (R285). -/
theorem pieceEnds_page (hx : s.selfTest = some x) (h : x.step = 11) (lun : Fin 128) (block : BitVec 16) (soft : Bool) :
    let loc := locOf lun.val block.toNat
    s.pieceEnds x (.page lun block soft) = (if soft = true then (s.countRead loc).noteMedia loc .soft else s.countRead loc) ∧
    MediaSide s (s.pieceEnds x (.page lun block soft)) ∧ (s.pieceEnds x (.page lun block soft)).selfTest = some x := by
  have read : s.pieceEnds x (.page lun block soft) =
      if soft = true then (s.countRead (locOf lun.val block.toNat)).noteMedia (locOf lun.val block.toNat) .soft else s.countRead (locOf lun.val block.toNat) :=
    if_neg (Classical.not_not.mpr h)
  have media : MediaSide s (s.pieceEnds x (.page lun block soft)) := by
    rw [read]
    exact .ite ((State.countRead_media ..).trans (noteSoft_media _ lun _ block.isLt)) (State.countRead_media ..)
  exact ⟨read, media, media.selfTest.trans hx⟩

theorem stepDone_goes (h : x.step ≠ 9 ∨ s.measuredLately = true) : s.stepDone x = s.nextStep x := if_neg fun k => h.elim (fun other => other k.1) k.2

theorem stepDone_fails (h : x.step = 9) (hm : s.measuredLately = false) : s.stepDone x = s.failTest x 0 := if_pos ⟨h, by simp [hm]⟩

theorem faultyUnit_eq (u : State) (k unit : Nat) : k ≠ 9 → u.faultyUnit k unit = match k with
    | 1 => { u with alloc := { u.alloc with withdrawn := u.alloc.withdrawn + 1 } }
    | 2 => { u with alloc := { u.alloc with transitLost := u.alloc.transitLost + 256 } }
    | 3 => u.engineFault (unit % 10) 6 (u.engine (unit % 10)).pc 0
    | 4 => u.failChannel (unit % 8)
    | 5 => u.failLun (unit % 128) 2
    | 6 | 7 => u.latchFlint
    | 8 => if u.time.ringOsc then u else u.crystalLost
    | _ => u :=
  match k with
  | 0 => fun _ => rfl
  | 1 => fun _ => rfl
  | 2 => fun _ => rfl
  | 3 => fun _ => rfl
  | 4 => fun _ => rfl
  | 5 => fun _ => rfl
  | 6 => fun _ => rfl
  | 7 => fun _ => rfl
  | 8 => fun _ => rfl
  | 9 => fun h => absurd rfl h
  | _ + 10 => fun _ => rfl

end Tests

/-- Settles O38: a piece by `selfTestPieceDone_run`, a step's end by `nextStep_last` and `nextStep_goes`, a faulty unit by `failTest_facts`. -/
theorem selfTests : Obligations.SelfTests := by
  unfold Obligations.SelfTests
  intro s tag c last starts ends piece
  refine ⟨fun h hv hs hn hd => ⟨fun ho => ?short, fun ho => ?extended, fun ho => ⟨fun free => ?none, fun x hx => ⟨fun asked => ?asked, fun fresh => ?stop⟩⟩⟩,
    fun free => ⟨?starved, fun p => ?idle⟩, fun x hx => ⟨fun off => ?_, fun off p => selfTestPieceDone_idle hx off p, fun hu hd hz => ?ended, fun hu hd hz => ?pieces⟩⟩
  case short =>
    have run : exec (.selfTestShort 0 tag) s = _ := selfTestShort_run h hv hs hn hd ho
    exact ⟨fun x hx => run.trans (congrArg ok (startTest_busy hx 1)), fun free => ⟨_, run, startTest_free free 1⟩⟩
  case extended =>
    have run : exec (.selfTestExtended 0 tag) s = _ := selfTestExtended_run h hv hs hn hd ho
    exact ⟨fun x hx => run.trans (congrArg ok (startTest_busy hx 2)), fun free => ⟨_, run, startTest_free free 2⟩⟩
  case none => exact (selfTestStop_run h hv hs hn hd ho).trans (congrArg ok (stopTest_free free))
  case asked => exact (selfTestStop_run h hv hs hn hd ho).trans (congrArg ok (stopTest_asked hx asked))
  case stop =>
    have serving : s.dev ≠ .preFreeze := by
      obtain e | e := Dev.inService_cases h.service <;> simp [e]
    exact (selfTestStop_run h hv hs hn hd ho).trans (congrArg ok (stopTest_asks hx fresh serving))
  case starved =>
    rw [exec_selfTestStarved, execSelfTestStarved, free]
    rfl
  case idle =>
    refine (?_ : execSelfTestPieceDone p s = .next s)
    rw [execSelfTestPieceDone, free]
    rfl
  case ended => exact ⟨_, (selfTestStarved_run hx).trans (if_pos (by simp [hu, hd, hz])), endTest_ended ..⟩
  case pieces =>
    have run (p : Piece) : piece p = .next (s.pieceEnds x p).pieceDone := selfTestPieceDone_run hx hu hd hz p
    intro excess measured
    have next (p : Piece) (hp : s.pieceEnds x p = s.nextStep x) : excess p := by
      refine ⟨fun h => ⟨_, run p, ?_⟩, fun h1 h2 => ⟨_, run p, ?_⟩⟩
      · rw [hp]
        exact nextStep_last h
      · rw [hp, nextStep_goes h1 h2]
        exact pieceDone_ends rfl
    refine ⟨⟨_, run _, pieceDone_ends hx⟩, fun lun block soft => ⟨fun h => ⟨_, run _, ?_⟩, fun h => ⟨_, run _, ?_⟩⟩, fun h => next .last (stepDone_goes h),
      fun h hm k => next (.faulty k) ((if_pos h).trans (stepDone_goes (.inr hm))), fun h hm p hp => ?_, fun h k => ?_⟩
    · have same : s.pieceEnds x (.page lun block soft) = s := if_pos h
      rw [same]
      exact pieceDone_ends hx
    · obtain ⟨read, media, test⟩ := pieceEnds_page hx h lun block soft
      exact ⟨_, media, pieceDone_ends test, read⟩
    · have fails : s.pieceEnds x p = s.failTest x 0 := by
        obtain rfl | ⟨k, rfl⟩ := hp
        · exact stepDone_fails h hm
        · exact (if_pos h).trans (stepDone_fails h hm)
      obtain ⟨u, ended, done⟩ := failTest_facts s x 0
      rw [h] at ended done
      refine ⟨_, run p, u, ended, ?_⟩
      rw [fails, done]
      rfl
    · have fails : s.pieceEnds x (.faulty k) = s.failTest x k.toNat := if_neg h
      obtain ⟨u, ended, done⟩ := failTest_facts s x k.toNat
      refine ⟨_, run _, u, ended, ?_⟩
      rw [fails, done]
      exact faultyUnit_eq u x.step k.toNat h
  · refine (selfTestStarved_run hx).trans (if_neg fun h => ?_)
    simp [h] at off

end Sys2Proof.Machine
end

section
/-! PROOFS. ABORT, CLOCK_SET, cairn posts and configuration items (O39). -/

namespace Sys2Proof.Machine

section Settings
variable {s : State} {tag : BitVec 5} {c : Cmd} {b : Bytes}

theorem abort_eq (s : State) (c : Cmd) : s.abort c =
    let all := (s.ring c.volume).cmds.filter fun x => (c.start == 255 || x.tag == c.start) && x.opcode ≠ 0x54 && x.stage ≠ .done
    let idle := all.filter fun x => x.stage = .fetched || x.stage = .held
    let u := idle.foldl (fun a x => a.complete x 0x0701 []) s
    State.complete (if c.volume = 0 ∧ all.any (fun x => x.opcode = 0x48 ∧ x.stage = .running) then
        { u with selfTest := s.selfTest.map fun x => { x with stopping := true } } else u) c 0
      (natLe 4 0 ++ natLe 4 idle.length ++ natLe 4 (all.length - idle.length)) := by
  have test := complete_test ((s.abortNames c.volume c.start).filter Cmd.unstarted) 0x0701 s
  unfold State.abort State.haltTest
  dsimp only
  rw [test]
  rfl

theorem cairnPost_fields (hv : c.volume = 0) (ho : c.opflags = 0) (hl : c.length = 128) (hs : c.start ≤ 511) (hn : c.noOps = true) (hd : c.data = true) :
    (c.volume = 0 && c.opflags = 0 && c.length = 128 && c.start ≤ 511 && c.noOps && c.data) = true := by simp [hv, ho, hl, hs, hn, hd]

theorem cairnPost_run (h : Turn s tag 0x4E c)
    (hf : (c.volume = 0 && c.opflags = 0 && c.length = 128 && c.start ≤ 511 && c.noOps && c.data) = true) (hr : s.asOwner = true) (x : AdmXfer) :
    exec (.cairnPost 0 tag x) s = ok (s.admIn c x fun t b => t.cairnPost c b) := by
  rw [exec_cairnPost, execCairnPost, h.run rfl hf (by simp [State.admRule, hr]) rfl]

theorem cairnPost_denied (h : Turn s tag 0x4E c)
    (hf : (c.volume = 0 && c.opflags = 0 && c.length = 128 && c.start ≤ 511 && c.noOps && c.data) = true) (hr : s.asOwner = false) (x : AdmXfer) :
    exec (.cairnPost 0 tag x) s = ok (s.complete c 0x0400 []) := by
  rw [exec_cairnPost, execCairnPost, h.deny rfl hf (by simp [State.admRule, hr])]

theorem busy_iff (x : Cairn) : x.busy = true ↔ x.state = 2 ∨ x.state = 4 := by simp [Cairn.busy]

theorem cairnPost_facts (s : State) (c : Cmd) (b : Bytes) : let x := s.cairn c.start
    (s.cairnOk c.start b = false → s.cairnPost c b = s.complete c 0x0201 []) ∧
    (s.cairnOk c.start b = true → x.state = 2 ∨ x.state = 4 → s.cairnPost c b = s.complete c 0x0100 (natLe 4 10000)) ∧
    (s.cairnOk c.start b = true → x.state ≠ 2 → x.state ≠ 4 →
      s.cairnPost c b = ((s.setCairn c.start { x with entry := b, state := 1, count := 0, cancelled := false }).touch 11).commit.complete c 0 []) := by
  intro x
  refine ⟨fun h => if_pos (by simp [h]), fun h hb => ?_, fun h h2 h4 => ?_⟩
  · exact (if_neg (by simp [h])).trans (if_pos ((busy_iff x).mpr hb))
  · exact (if_neg (by simp [h])).trans (if_neg (mt (busy_iff x).mp (not_or.mpr ⟨h2, h4⟩)))

theorem cairnCancel_facts (s : State) (i : Nat) : let x := s.cairn i
    (x.state = 0 → s.cairnCancel i = (s, 2)) ∧
    (x.state = 2 ∨ x.state = 4 → s.cairnCancel i = (s.setCairn i { x with cancelled := true }, 1)) ∧
    (x.state ≠ 0 → x.state ≠ 2 → x.state ≠ 4 →
      s.cairnCancel i = ((s.setCairn i { x with entry := [], state := 0, count := 0 }).touch 11, if x.state = 1 then 0 else 1)) := by
  intro x
  refine ⟨fun h => if_pos h, fun hb => ?_, fun h0 h2 h4 => ?_⟩
  · exact (if_neg fun h0 => by rw [h0] at hb; omega).trans (if_pos ((busy_iff x).mpr hb))
  · exact (if_neg h0).trans (if_neg (mt (busy_iff x).mp (not_or.mpr ⟨h2, h4⟩)))

theorem cairnCancel_denied (h : Turn s tag 0x4F c) (hf : (c.volume = 0 && c.opflags = 0 && c.start ≤ 511 && c.noOps && c.noData) = true)
    (hr : s.asOwner = false) : exec (.cairnCancel 0 tag) s = ok (s.complete c 0x0400 []) := by
  rw [exec_cairnCancel, execCairnCancel, h.deny rfl hf (by simp [State.admRule, hr])]

/-- The fields of a CONFIG_WRITE are in range. -/
def Cmd.configOk (c : Cmd) : Bool := c.itemFields && (c.opflags = 0 || (3 ≤ c.volume && c.volume ≤ 5))

theorem configWrite_run (h : Turn s tag 0x55 c) (hf : c.configOk = true) (hr : s.asOwner = true) (x : AdmXfer) :
    exec (.configWrite 0 tag x) s = ok (s.admIn c x fun t b => t.configWrite c b) := by
  rw [exec_configWrite, execConfigWrite, h.run rfl hf (by simp [State.admRule, hr]) rfl]

theorem configWrite_denied (h : Turn s tag 0x55 c) (hf : c.configOk = true) (hr : s.asOwner = false) (x : AdmXfer) :
    exec (.configWrite 0 tag x) s = ok (s.complete c 0x0400 []) := by
  rw [exec_configWrite, execConfigWrite, h.deny rfl hf (by simp [State.admRule, hr])]

/-- An item stored, with its record (R280). -/
def State.itemStored (s : State) (c : Cmd) (b : Bytes) : State := (s.storeItem c.volume c.start b).record 0x1060 Src.strata c.volume c.start

theorem configWrite_bad (h : s.itemOk c.volume c.start b = false) : s.configWrite c b = s.complete c 0x0201 [] := if_pos (by simp [h])

theorem configWrite_stores (h : s.itemOk c.volume c.start b = true) (ho : c.opflags = 0) :
    s.configWrite c b = (s.itemStored c b).complete c 0 (natLe 4 0 ++ natLe 1 (b2n false)) := by
  unfold State.configWrite
  rw [if_neg (by simp [h])]
  dsimp only
  rw [if_neg (by simp [ho])]
  rfl

theorem configWrite_applies (h : s.itemOk c.volume c.start b = true) (ho : c.opflags = 1) {u : State} {taken : Bool}
    (ha : (s.itemStored c b).applyItem c.volume (leAt b 0 4) = (u, taken)) :
    s.configWrite c b = u.complete c 0 (natLe 4 0 ++ natLe 1 (b2n (!taken))) := by
  unfold State.configWrite
  unfold State.itemStored at ha
  rw [if_neg (by simp [h])]
  dsimp only
  rw [if_pos ho, ha]

end Settings

/-- Settles O39: a cairn's post by `cairnPost_facts`, its cancel by `cairnCancel_facts`, an item by `configWrite_stores` and
`configWrite_applies`. -/
theorem administrativeSettings : Obligations.AdministrativeSettings := by
  unfold Obligations.AdministrativeSettings
  intro s tag c segs data off code bytes denied takes
  refine ⟨fun h hv ho hs hn hd => ?abort, fun h hv ho hn hd => ?clock, fun h hv ho hl hs hn hd => ?post, fun h hv ho hs hn hd => ?cancel,
    fun h ho hi hl hs hn hd => ?config⟩
  case abort =>
    refine ⟨s.abort c, ?_, abort_eq s c⟩
    rw [exec_abort, execAbort, h.run rfl (by simp [State.admRule, hv, ho, hs, hn, hd]) rfl rfl]
    rfl
  case clock =>
    refine ⟨(s.clockSet c.start).complete c 0 (natLe 4 0 ++ natLe 8 s.time.calendar), ?_, s.clockSet c.start, ⟨_, .refl _, .refl _⟩, rfl⟩
    rw [exec_clockSet, execClockSet, h.run rfl (by simp [State.admRule, hv, ho, hn, hd]) rfl rfl]
    rfl
  case post =>
    have fields := cairnPost_fields hv ho hl hs hn hd
    exact ⟨fun hr => cairnPost_denied h fields hr _, fun hr => takes_of (cairnPost_run h fields hr) (cairnPost_facts s c bytes)⟩
  case cancel =>
    intro i x answer
    refine ⟨fun hr => ?_, fun hr => ?_⟩
    · exact cairnCancel_denied h (by simp [hv, ho, hs, hn, hd]) hr
    · have run : exec i s = ok ((s.cairnCancel c.start).1.commit.complete c 0 (natLe 4 0 ++ natLe 1 (s.cairnCancel c.start).2)) := by
        rw [exec_cairnCancel, execCairnCancel, h.run rfl (by simp [State.admRule, hv, ho, hs, hn, hd]) (by simp [State.admRule, hr]) rfl]
      obtain ⟨unposted, busy, idle⟩ := cairnCancel_facts s c.start
      refine ⟨fun h0 => ?_, fun hb => ?_, fun h0 h2 h4 => ?_⟩
      · rw [unposted h0] at run
        exact run
      · rw [busy hb] at run
        exact run
      · rw [idle h0 h2 h4] at run
        exact run
  case config =>
    have fields : c.configOk = true := by
      have one : c.opflags ≤ 1 := by omega
      obtain h0 | ⟨h1, h3, h5⟩ := ho
      · simp [Cmd.configOk, Cmd.itemFields, hi, hl, hs, hn, hd, h0]
      · simp [Cmd.configOk, Cmd.itemFields, hi, hl, hs, hn, hd, h1, h3, h5]
    refine ⟨fun hr => configWrite_denied h fields hr _, fun hr => takes_of (configWrite_run h fields hr) ⟨configWrite_bad, fun good => ?_⟩⟩
    refine ⟨_, _, s.itemStored c bytes, rfl, rfl, ?_, fun h0 => configWrite_stores good h0, fun h1 h3 => ?_, fun h1 h4 => ?_, fun h1 h5 => ?_⟩
    · exact ⟨s.storeItem c.volume c.start bytes, steady_eq (store_eq ..), .refl _⟩
    · refine configWrite_applies good h1 ?_
      rw [h3]
      rfl
    · refine configWrite_applies good h1 ?_
      rw [h4]
      rfl
    · refine configWrite_applies good h1 ?_
      rw [h5]
      rfl

end Sys2Proof.Machine
end

section
/-! PROOFS. Volumes (O37). -/

namespace Sys2Proof.Machine

section Admin
variable {s : State} {tag : BitVec 5} {op : Nat} {c : Cmd} {mine : Cmd → Bool} {fields range : State → Cmd → Bool} {f : State → Cmd → State}

/-- A command of the installer that passes its checks. -/
theorem Turn.owned (h : Turn s tag op c) (hm : mine c = true) (hf : fields s c = true) (hr : s.asOwner = true) (hg : range s c = true) :
    s.startAdm (0 : Fin 8).val tag.toNat op mine (fun s c => s.admRule c true (fields s c) (range s c)) f = .next (f s c) :=
  h.run hm hf (by simp [State.admRule, hr]) hg

/-- One that is out of range. -/
theorem Turn.outside (h : Turn s tag op c) (hm : mine c = true) (hf : fields s c = true) (hr : s.asOwner = true) (hg : range s c = false) :
    s.startAdm (0 : Fin 8).val tag.toNat op mine (fun s c => s.admRule c true (fields s c) (range s c)) f = .next (s.complete c 0x0201 []) := by
  rw [h.check hm, h.out hf (by simp [State.admRule, hr]) hg]
  rfl

/-- One on a path without the installer's role. -/
theorem Turn.unowned (h : Turn s tag op c) (hm : mine c = true) (hf : fields s c = true) (hr : s.asOwner = false) :
    s.startAdm (0 : Fin 8).val tag.toNat op mine (fun s c => s.admRule c true (fields s c) (range s c)) f = .next (s.complete c 0x0400 []) :=
  h.deny hm hf (by simp [State.admRule, hr])

end Admin

section Volumes
variable {s : State} {tag : BitVec 5} {c : Cmd} {y : Sanitize}

theorem volumeCreate_checks (h : Turn s tag 0x41 c)
    (hf : (c.volume ≤ 31 && c.opflags ≤ 15 && bits c.opflags 1 0 ≠ 3 && c.zero 32 24 && c.noData) = true) :
    (s.asOwner = false → exec (.volumeCreate 0 tag) s = .next (s.complete c 0x0400 [])) ∧
    (s.asOwner = true → s.createOk c = false → exec (.volumeCreate 0 tag) s = .next (s.complete c 0x0201 [])) ∧
    (s.asOwner = true → s.createOk c = true → exec (.volumeCreate 0 tag) s = .next (if bit c.opflags 3 = true ∧ s.flintFailed = true then s.complete c 0x0500 []
      else if bit c.opflags 3 = true ∧ ¬ s.roles.flint.drbg = true then s else s.createVolume c)) := by
  rw [exec_volumeCreate, execVolumeCreate]
  refine ⟨fun hr => ?_, fun hr hg => ?_, fun hr hg => ?_⟩
  · rw [h.unowned rfl hf hr]
  · rw [h.outside rfl hf hr hg]
  · rw [h.owned rfl hf hr hg]

theorem volumeDelete_checks (h : Turn s tag 0x42 c)
    (hf : (1 ≤ c.volume && c.volume ≤ 31 && c.opflags ≤ 1 && c.start = 0 && c.noOps && c.noData) = true) {good : Bool}
    (hg : good = ((s.vol c.volume).kind ≠ 255 && (c.opflags = 1 || !s.nv.pins.any fun p => p.vol == c.volume))) :
    (s.asOwner = false → exec (.volumeDelete 0 tag) s = .next (s.complete c 0x0400 [])) ∧
    (s.asOwner = true → good = false → exec (.volumeDelete 0 tag) s = .next (s.complete c 0x0201 [])) ∧
    (s.asOwner = true → good = true → exec (.volumeDelete 0 tag) s = .next (if s.writersOn c.volume = true then s else s.deleteVolume c)) := by
  rw [exec_volumeDelete, execVolumeDelete, hg]
  refine ⟨fun hr => ?_, fun hr hg => ?_, fun hr hg => ?_⟩
  · rw [h.unowned rfl hf hr]
  · rw [h.outside rfl hf hr hg]
  · rw [h.owned rfl hf hr hg]

theorem bootSlotSwitch_checks (h : Turn s tag 0x51 c) (hf : (c.volume = 0 && c.opflags ≤ 3 && c.start = 0 && c.noOps && c.noData) = true) :
    (s.asOwner = false → exec (.bootSlotSwitch 0 tag) s = .next (s.complete c 0x0400 [])) ∧
    (s.asOwner = true → exec (.bootSlotSwitch 0 tag) s = .next (if s.writersOn 0 = true then s else
      (s.switchSlot (bits c.opflags 0 0) (bit c.opflags 1)).commit.complete c 0 [])) := by
  rw [exec_bootSlotSwitch, execBootSlotSwitch]
  refine ⟨fun hr => ?_, fun hr => ?_⟩
  · rw [h.unowned rfl hf hr]
  · rw [h.owned (range := fun _ _ => true) rfl hf hr rfl]

/-- The form of SANITIZE that a row starts. -/
def sanitizeMine (crypto : Bool) (c : Cmd) : Bool := if crypto then bits c.opflags 1 0 ≠ 2 else bits c.opflags 1 0 = 2

/-- The row of SANITIZE, by its form. -/
def sanitizeRow (crypto : Bool) (tag : BitVec 5) (last : Bool) : Instr :=
  if crypto then .sanitizeCryptoErase 0 tag last else .sanitizeBlockErase 0 tag last

theorem sanitize_starts (crypto : Bool) : exec (sanitizeRow crypto tag false) s = s.startSanitize (0 : Fin 8).val tag.toNat (sanitizeMine crypto) := by
  cases crypto <;> rfl

theorem sanitize_ends (crypto : Bool) : exec (sanitizeRow crypto tag true) s = .next (s.sanitizeEnds 0 tag.toNat crypto) := by
  cases crypto <;> rfl

theorem sanitize_checks {crypto : Bool} (h : Turn s tag 0x53 c) (hb : bits c.opflags 1 0 = if crypto = true then 1 else 2)
    (hf : ((c.volume ≤ 31 || c.volume = 0xFF) && c.opflags ≤ 7 && c.start = 0 && c.noOps && c.noData) = true) {vs : List Nat} {good : Bool}
    (hvs : vs = s.sanVols c.volume (bit c.opflags 2)) (hg : good = ((c.volume = 0xFF || !vs.isEmpty) && (!crypto || vs.all fun v => (s.vol v).encrypt))) :
    (s.asOwner = false → exec (sanitizeRow crypto tag false) s = .next (s.complete c 0x0400 [])) ∧
    (s.asOwner = true → good = false → exec (sanitizeRow crypto tag false) s = .next (s.complete c 0x0201 [])) ∧
    (s.asOwner = true → good = true → exec (sanitizeRow crypto tag false) s = .next (if crypto = true ∧ s.flintFailed = true then s.complete c 0x0500 []
      else if crypto = true ∧ ¬ s.roles.flint.drbg = true then s else (s.beginSanitize vs crypto c.volume).setCmd { c with stage := .running })) := by
  rw [sanitize_starts, State.startSanitize]
  dsimp only
  have how : (bits c.opflags 1 0 = 1) = (crypto = true) := by rw [hb]; cases crypto <;> simp
  have fields : ((c.volume ≤ 31 || c.volume = 0xFF) && c.opflags ≤ 7 && (bits c.opflags 1 0 = 1 || bits c.opflags 1 0 = 2) && c.start = 0 && c.noOps &&
      c.noData) = true := by
    have form : bits c.opflags 1 0 = 1 ∨ bits c.opflags 1 0 = 2 := by rw [hb]; cases crypto <;> simp
    simp only [Bool.and_eq_true] at hf ⊢
    simpa [form, and_assoc] using hf
  have range : ((c.volume = 0xFF || !(s.sanVols c.volume (bit c.opflags 2)).isEmpty) &&
      (bits c.opflags 1 0 ≠ 1 || (s.sanVols c.volume (bit c.opflags 2)).all fun v => (s.vol v).encrypt)) = good := by
    rw [hg, hvs]
    cases crypto <;> simp [how]
  have mine : sanitizeMine crypto c = true := by cases crypto <;> simp [sanitizeMine, hb]
  refine ⟨fun hr => ?_, fun hr hg => ?_, fun hr hg => ?_⟩
  · rw [h.unowned mine fields hr]
  · rw [h.outside mine fields hr (range.trans hg)]
  · rw [h.owned mine fields hr (range.trans hg)]
    rw [hvs]
    simp only [how, Bool.decide_eq_true]

/-- The volume that a create makes (R292), its key not yet drawn. -/
def State.volumeMade (s : State) (c : Cmd) : State :=
  (s.setVol c.volume { kind := bits c.opflags 1 0, emul := bit c.opflags 2, encrypt := bit c.opflags 3, cap := capGranted c.start, retention := c.b 28 4 }).commit

theorem createVolume_facts (s : State) (c : Cmd) : ∃ u w : State, (if bit c.opflags 3 = true then Keyed (s.volumeMade c) c.volume u else u = s.volumeMade c) ∧
    Logs u 0x1070 Src.strata c.volume 0 0 0 w ∧ s.createVolume c = w.complete c 0 (natLe 4 0 ++ natLe 8 (capGranted c.start)) := by
  refine ⟨if bit c.opflags 3 = true then (s.volumeMade c).makeKey c.volume else s.volumeMade c, _, ?_, ⟨_, .refl _, .refl _⟩, rfl⟩
  split
  · exact draw_keyed ..
  · rfl

theorem deleteVolume_facts (s : State) (c : Cmd) : ∃ u w : State, Emptied s [c.volume] (fun _ => {}) u ∧
    Logs (State.commit { u with nv := { u.nv with keys := { u.nv.keys with vol := u.nv.keys.vol.erase c.volume } }
                                roles := { u.roles with keys := withBit u.roles.keys c.volume false } }) 0x1071 Src.strata c.volume 0 0 0 w ∧
    s.deleteVolume c = w.complete c 0 [] :=
  ⟨_, _, emptied_one s c.volume (fun _ => {}) _ rfl, ⟨_, .refl _, .refl _⟩, rfl⟩

theorem switchSlot_facts (s : State) (g : Nat) (once : Bool) :
    if once = true then s.switchSlot g once = s.writeBoot fun b => { b with once := some g }
    else if g = s.nv.boot.bootSlot then s.switchSlot g once = s.writeBoot fun b => { b with revert := none }
    else Logs (s.writeBoot fun b => { b with bootSlot := g, once := none, revert := none }) 0x1072 Src.strata g 0 0 0 (s.switchSlot g once) := by
  unfold State.switchSlot
  split
  · rfl
  split
  · rfl
  · exact ⟨_, .refl _, .refl _⟩

/-- A SANITIZE locks its volumes (R273). -/
theorem beginSanitize_facts (s : State) (vs : List Nat) (crypto : Bool) (v : Nat) : ∃ u : State,
    (∀ w ∈ vs, u.vol w = { s.vol w with sanitize := true }) ∧ (∀ w, w ∉ vs → u.vol w = s.vol w) ∧ { u with nv := { u.nv with vols := s.nv.vols } } = s ∧
    Logs { u.commit with nv := { u.nv with
      sanitize := some { vols := vs, crypto := crypto, began := s.time.uptime }, sanDone := 0, sanScope := (s.blocksOf vs).length } } 0x6030 Src.strata v 0 0 0
      (s.beginSanitize vs crypto v) := by
  obtain ⟨u, hu⟩ : ∃ u, vs.foldl (fun t v => t.setVol v { t.vol v with sanitize := true }) s = u := ⟨_, rfl⟩
  obtain ⟨inside, outside, rest⟩ := flag_facts vs s u hu
  refine ⟨u, inside, outside, rest, _, .refl _, ?_⟩
  rw [← commit_nv u, ← hu]
  exact .refl _

/-- The volumes of a SANITIZE at its end, their keys and blocks not yet changed. -/
def State.sanWiped (s : State) (y : Sanitize) : State := y.vols.foldl (fun t v => (((t.dropUnits v).dropMarks v).setVol v (t.vol v).wiped)) s

/-- The volumes of a SANITIZE with new keys, or with their blocks erased (R272). -/
def State.sanErased (s : State) (y : Sanitize) : State :=
  if y.crypto then y.vols.foldl State.freshKey (s.sanWiped y) else (s.blocksOf y.vols).foldl State.sanBlock (s.sanWiped y)

theorem endSanitize_logs (s : State) (y : Sanitize) :
    Logs { (s.sanErased y).commit with nv := { (s.sanErased y).nv with sanitize := none, sanDone := (s.sanErased y).nv.sanScope } } 0x6031 Src.strata 0 0 0 0
      (s.endSanitize y) := by
  have same : s.endSanitize y = State.record { (s.sanErased y).commit with nv := { (s.sanErased y).nv with sanitize := none, sanDone := (s.sanErased y).nv.sanScope } }
      0x6031 Src.strata := congrArg (fun n : Nv => State.record { (s.sanErased y).commit with
    nv := { n with sanitize := none, sanDone := (s.sanErased y).nv.sanScope } } 0x6031 Src.strata) (commit_nv (s.sanErased y))
  rw [same]
  exact ⟨_, .refl _, .refl _⟩

theorem sanErased_keys (hy : y.crypto = true) :
    (∀ z ∈ y.vols, ∃ k, (s.sanErased y).nv.keys.vol.get? z = some { drawn := k, secret := none } ∧ s.nv.keys.drawn ≤ k) ∧
    (∀ z, z ∉ y.vols → (s.sanErased y).nv.keys.vol.get? z = s.nv.keys.vol.get? z) ∧ ∀ z, (s.sanErased y).vol z = (s.sanWiped y).vol z := by
  have keys : (s.sanWiped y).nv.keys = s.nv.keys := by
    have same := congrArg Nv.keys (wipe_emptied y.vols s).nv
    exact same
  have erased : s.sanErased y = y.vols.foldl State.freshKey (s.sanWiped y) := if_pos hy
  obtain ⟨vols, -, inside, outside⟩ := freshKeys_facts y.vols (s.sanWiped y)
  rw [keys] at inside outside
  rw [erased]
  refine ⟨inside, outside, fun z => ?_⟩
  unfold State.vol
  rw [vols]

theorem sanErased_blocks (hy : y.crypto = false) : s.sanErased y = (s.blocksOf y.vols).foldl State.sanBlock (s.sanWiped y) ∧
    MediaSide (s.sanWiped y) (s.sanErased y) ∧ ∀ z ∈ y.vols, ((s.sanErased y).vol z).map = [] ∧ ((s.sanErased y).vol z).recs = [] := by
  have erased : s.sanErased y = (s.blocksOf y.vols).foldl State.sanBlock (s.sanWiped y) := if_neg (by simp [hy])
  have media : MediaSide (s.sanWiped y) (s.sanErased y) := by
    rw [erased]
    exact MediaSide.foldl _ (fun t loc => State.sanBlock_media t loc) _ _
  refine ⟨erased, media, fun z hz => ?_⟩
  have wiped : (s.sanWiped y).vol z = (s.vol z).wiped := (wipe_emptied y.vols s).inside z hz
  obtain ⟨-, map, recs⟩ := media.vols z
  rw [wiped] at map recs
  exact ⟨List.map_eq_nil_iff.mp map, List.map_eq_nil_iff.mp recs⟩

/-- The end of the SANITIZE under way. -/
theorem sanitizeEnds_run {n tag : Nat} (hy : s.nv.sanitize = some y) (hu : s.dieUp = true) (hd : s.dev.inService = true) (hz : s.bas.freeze = false)
    (hk : y.crypto = false ∨ s.roles.flint.drbg = true) : s.sanitizeEnds n tag y.crypto = match s.cmd? n tag with
      | some c => if c.opcode = 0x53 ∧ c.stage = .running ∧ n = 0 then (s.endSanitize y).complete c 0 (s.sanResult y) else s.endSanitize y
      | none => s.endSanitize y := by
  have may : ¬ (y.crypto ≠ y.crypto ∨ ¬ s.dieUp = true ∨ ¬ s.dev.inService = true ∨ s.bas.freeze = true ∨ y.crypto = true ∧ ¬ s.roles.flint.drbg = true) := by
    simp only [hu, hd, hz]
    obtain k | k := hk <;> simp [k]
  rw [State.sanitizeEnds, hy]
  exact if_neg may

/-- Without random numbers a cryptographic SANITIZE does not end. -/
theorem sanitizeEnds_waits {n tag : Nat} (hy : s.nv.sanitize = some y) (hk : s.roles.flint.drbg = false) :
    s.sanitizeEnds n tag true = s := by
  rw [State.sanitizeEnds, hy]
  exact if_pos (by simp [hk])

theorem sanitizeEnds_none {n tag : Nat} {crypto : Bool} (hy : s.nv.sanitize = none) : s.sanitizeEnds n tag crypto = s := by
  rw [State.sanitizeEnds, hy]

end Volumes

/-- Settles O37: a create by `createVolume_facts`, a delete by `deleteVolume_facts`, a switch by `switchSlot_facts`, a SANITIZE by
`beginSanitize_facts`, `sanErased_keys` and `sanErased_blocks`. -/
theorem volumes : Obligations.Volumes := by
  unfold Obligations.Volumes
  intro s tag c v denied
  refine ⟨fun h hv ho hk hz hn => ?create, fun h h1 hv ho hs hn hd => ?delete, fun h hv ho hs hn hd => ?boot, fun crypto => ?sanitize⟩
  case create =>
    intro i kind g good made
    have fields : (c.volume ≤ 31 && c.opflags ≤ 15 && bits c.opflags 1 0 ≠ 3 && c.zero 32 24 && c.noData) = true := by
      have hv' : c.volume ≤ 31 := hv
      simp [hv', ho, hk, hz, hn]
    obtain ⟨denies, refuses, run⟩ := volumeCreate_checks h fields
    refine ⟨denies, refuses, fun hr hg => ⟨fun he hf => ?_, fun he hf hb => ?_, fun he => ?_⟩⟩
    · exact (run hr hg).trans (congrArg ok (if_pos ⟨he, hf⟩))
    · exact (run hr hg).trans (congrArg ok ((if_neg (by simp [hf])).trans (if_pos ⟨he, by simp [hb]⟩)))
    · obtain ⟨u, w, keyed, logged, done⟩ := createVolume_facts s c
      refine ⟨_, (run hr hg).trans (congrArg ok ((if_neg ?_).trans (if_neg ?_))), u, w, keyed, logged, done⟩
      · obtain e | ⟨e, -⟩ := he <;> simp [e]
      · obtain e | ⟨-, e⟩ := he <;> simp [e]
  case delete =>
    intro i good
    have fields : (1 ≤ c.volume && c.volume ≤ 31 && c.opflags ≤ 1 && c.start = 0 && c.noOps && c.noData) = true := by
      have hv' : c.volume ≤ 31 := hv
      have h1' : 1 ≤ c.volume := h1
      simp [hv', h1', ho, hs, hn, hd]
    obtain ⟨denies, refuses, run⟩ := volumeDelete_checks h fields (good := good) rfl
    refine ⟨denies, refuses, fun hr hg hw => ?_, fun hr hg hw => ?_⟩
    · exact (run hr hg).trans (congrArg ok (if_pos hw))
    · exact ⟨_, (run hr hg).trans (congrArg ok (if_neg (by simp [show s.writersOn c.volume = false from hw]))), deleteVolume_facts s c⟩
  case boot =>
    intro i g
    have fields : (c.volume = 0 && c.opflags ≤ 3 && c.start = 0 && c.noOps && c.noData) = true := by
      have hv' : c.volume = 0 := hv
      simp [hv', ho, hs, hn, hd]
    obtain ⟨denies, run⟩ := bootSlotSwitch_checks h fields
    refine ⟨denies, fun hr hw => ?_, fun hr hw => ?_⟩
    · exact (run hr).trans (congrArg ok (if_pos hw))
    · exact ⟨_, (run hr).trans (congrArg ok (if_neg (by simp [hw]))), _, rfl, switchSlot_facts s g _⟩
  case sanitize =>
    intro i
    have finish : exec (i true) s = .next (s.sanitizeEnds 0 tag.toNat crypto) := sanitize_ends crypto
    refine ⟨fun h hv ho hb hs hn hd => ?starts, fun hy => ?none, fun y hy hc hu hd hz => ⟨fun hk hb => ?waits, fun hk => ?ends⟩⟩
    case none => rw [finish, sanitizeEnds_none hy]
    case waits => rw [finish, hk, sanitizeEnds_waits hy hb]
    case starts =>
      intro vs good
      have fields : ((c.volume ≤ 31 || c.volume = 0xFF) && c.opflags ≤ 7 && c.start = 0 && c.noOps && c.noData) = true := by
        have hv' : c.volume ≤ 31 ∨ c.volume = 255 := hv
        simp [hv', ho, hs, hn, hd]
      obtain ⟨denies, refuses, run⟩ := sanitize_checks h hb fields (vs := vs) rfl (good := good) rfl
      refine ⟨denies, refuses, fun hr hg he hf => ?_, fun hr hg he hf hb => ?_, fun hr hg he => ?_⟩
      · exact (run hr hg).trans (congrArg ok (if_pos ⟨he, hf⟩))
      · exact (run hr hg).trans (congrArg ok ((if_neg (by simp [hf])).trans (if_pos ⟨he, by simp [hb]⟩)))
      · obtain ⟨u, inside, outside, rest, logged⟩ := beginSanitize_facts s vs crypto v
        refine ⟨_, (run hr hg).trans (congrArg ok ((if_neg ?_).trans (if_neg ?_))), u, _, inside, outside, rest, logged, rfl⟩
        · obtain e | ⟨e, -⟩ := he <;> simp [e]
        · obtain e | ⟨-, e⟩ := he <;> simp [e]
    case ends =>
      rw [← hc] at hk finish ⊢
      have run := finish.trans (congrArg ok (sanitizeEnds_run (n := 0) (tag := tag.toNat) hy hu hd hz hk))
      refine ⟨_, run, s.sanWiped y, s.sanErased y, s.endSanitize y, wipe_emptied y.vols s, sanErased_keys, sanErased_blocks, endSanitize_logs s y, ?_, ?_⟩
      · rintro ⟨found, opcode, stage⟩
        rw [found]
        exact if_pos ⟨opcode, stage, rfl⟩
      · intro found
        rw [found]

end Sys2Proof.Machine
end

section
/-! PROOFS. The journal and the closing of pages (O41). -/

namespace Sys2Proof.Machine

section Journal
variable {s : State} {n b cell : Nat} {landing : Bool}

theorem scramblerSeed_keeps (s : State) : s.scramblerSeed.1.nv.luns = s.nv.luns ∧ s.scramblerSeed.1.fl = s.fl ∧ s.scramblerSeed.1.str = s.str := by
  unfold State.scramblerSeed
  split
  · exact ⟨rfl, rfl, rfl⟩
  · exact ⟨rfl, rfl, rfl⟩

/-- A block newly opened (R312). -/
theorem openBlock_facts (s : State) (n b cell : Nat) (landing : Bool) :
    (s.openBlock n b cell landing).block n b = { s.block n b with state := .open_, cell := cell, landing := landing } ∧
    (∀ d, d ≠ b → (s.openBlock n b cell landing).block n d = s.block n d) ∧ (∀ m, m ≠ n → (s.openBlock n b cell landing).lun m = s.lun m) ∧
    (s.openBlock n b cell landing).fl = s.fl ∧ (s.openBlock n b cell landing).str = s.str := by
  obtain ⟨luns, fl, str⟩ := scramblerSeed_keeps s
  have lun (m : Nat) : s.scramblerSeed.1.lun m = s.lun m := by rw [State.lun, luns]; rfl
  have block (d : Nat) : s.scramblerSeed.1.block n d = s.block n d := by rw [State.block, lun]; rfl
  refine ⟨?_, fun d hd => ?_, fun m hm => ?_, fl, str⟩
  · rw [State.openBlock, State.block_setBlock, block]
  · rw [State.openBlock, State.block_setBlock_ne _ _ hd, block]
  · rw [State.openBlock, State.lun_setBlock_ne _ _ _ hm, lun]

/-- A verified page makes its records durable and frees their units (R321). -/
theorem releaseDurable_facts (s : State) : s.releaseDurable.str = { s.str with units := s.str.units.filter fun y => !y.durable } ∧
    { s.releaseDurable with str := s.str, alloc := s.alloc, led := s.led } = s := by
  have rest := giveBacks_rest (s.str.units.filter SUnit.durable) s
  unfold State.releaseDurable
  dsimp only
  generalize (s.str.units.filter SUnit.durable).foldl (fun t u => t.giveBack 1 u.part u.fromReserve) s = w at rest ⊢
  have str : w.str = s.str := by
    have same := congrArg State.str rest
    exact same
  have all := congrArg (fun x : State => { x with str := s.str, alloc := s.alloc, led := s.led }) rest
  rw [str]
  exact ⟨rfl, all⟩

section Close
variable {lun : Fin 128} {block page : BitVec 16}

theorem openPageClose_idle (h : (s.dieUp = false ∨ s.bas.freeze = true) ∨ s.dev.minimal = true ∨ s.lunHealthy lun.val = false ∨ (s.lunRun lun.val).heldBack = true ∨
    (s.waitingUnits landing).take (lunCodewords (s.lunEntry lun.val)) = [] ∨ block.toNat < bootBlocks lun.val ∨ lunBlocks (s.lunEntry lun.val) ≤ block.toNat + 1 ∨
    ¬ ((s.block lun.val block.toNat).state = .open_ ∧ (s.block lun.val block.toNat).cell = (if landing then 1 else s.cellOf lun.val) ∧
      (s.block lun.val block.toNat).landing = landing) ∧ (s.block lun.val block.toNat).state ≠ .free) : execOpenPageClose lun block page landing s = .next s := by
  refine if_pos ?_
  rw [List.isEmpty_iff, not_or, Bool.not_eq_true, Bool.not_eq_true]
  grind

theorem openPageClose_run (hu : s.dieUp = true) (hz : s.bas.freeze = false) (hm : s.dev.minimal = false) (hh : s.lunHealthy lun.val = true)
    (hb : (s.lunRun lun.val).heldBack = false) {us : List SUnit} (hus : us = (s.waitingUnits landing).take (lunCodewords (s.lunEntry lun.val))) (hne : us ≠ [])
    (h1 : bootBlocks lun.val ≤ block.toNat) (h2 : block.toNat + 1 < lunBlocks (s.lunEntry lun.val)) {cell : Nat}
    (hc : cell = if landing then 1 else s.cellOf lun.val)
    (hx : (s.block lun.val block.toNat).state = .open_ ∧ (s.block lun.val block.toNat).cell = cell ∧ (s.block lun.val block.toNat).landing = landing ∨
      (s.block lun.val block.toNat).state = .free) {u : State}
    (hopen : u = if (s.block lun.val block.toNat).state = .free then s.openBlock lun.val block.toNat cell landing else s) :
    execOpenPageClose lun block page landing s = .next (State.queueOp
      { u with str := { u.str with units := u.str.units.map fun y => if (us.map fun z => z.id).contains y.id then { y with place := .programming } else y } }
      { lun := lun.val, kind := 2, block := block.toNat, page := page.toNat, cell := cell, cls := if landing then 3 else if us.any (fun y => y.part ≠ 0) then 5 else 7
        codewords := lunCodewords (s.lunEntry lun.val), load := .units (us.map fun z => z.id) }) := by
  subst hus hc hopen
  refine if_neg ?_
  rw [List.isEmpty_iff, hu, hz, hm, hh, hb]
  simp only [hne, Nat.not_lt.mpr h1, Nat.not_le.mpr h2]
  grind

end Close

theorem checkpointComplete_run {k : Nat} (h : s.str.ckptAt = some k) (hu : s.dieUp = true) (hz : s.bas.freeze = false) :
    execCheckpointComplete s = .next (State.record { s with
      str := { s.str with sinceCkpt := s.str.sinceCkpt - k, ckptAt := none }
      nv := { s.nv with
        savedTc := s.evr.tc
        luns := s.nv.luns.map fun l => (l.1, { l.2 with blocks := l.2.blocks.map fun y => (y.1, { y.2 with savedReads := y.2.reads }) }) } } 0x1074 Src.strata) := by
  rw [execCheckpointComplete, h]
  exact if_neg (by simp [hu, hz])

theorem checkpointComplete_idle (h : s.str.ckptAt = none ∨ s.dieUp = false ∨ s.bas.freeze = true) : execCheckpointComplete s = .next s := by
  unfold execCheckpointComplete
  split
  · rfl
  next k hk => exact if_pos (by simpa [hk] using h)

theorem pageVerified_idle (h : s.str.pages = [] ∨ s.dieUp = false ∨ s.bas.freeze = true) : s.pageVerified = s := by
  unfold State.pageVerified
  split
  · rfl
  next p ps hp => exact if_pos (by simpa [hp] using h)

theorem pageVerified_run {p : List Nat} {ps : List (List Nat)} (h : s.str.pages = p :: ps) (hu : s.dieUp = true) (hz : s.bas.freeze = false) :
    s.pageVerified = (State.releaseDurable { s with
        str := { s.str with pages := ps, units := s.str.units.map fun y => if p.contains y.id then { y with journalled := true } else y }
        nv := { s.nv with savedOpt := max s.nv.savedOpt s.time.optMs, savedCycles := max s.nv.savedCycles s.time.cycles }
        crn := { s.crn with running := s.crn.running.map Firing.pageDone } }).serveFlush.settleRebuild := by
  unfold State.pageVerified
  rw [h]
  exact if_neg (by simp [hu, hz])

theorem optimeSave_idle (h : s.dieUp = false ∨ s.bas.freeze = true ∨ s.dev = .rom) : execOptimeSave s = .next s := by
  refine if_neg fun k => ?_
  obtain h | h | h := h <;> simp [h] at k

theorem journalPageTimer_idle (h : s.str.openPage = [] ∨ s.dieUp = false ∨ s.bas.freeze = true) : execJournalPageTimer s = .next s :=
  if_pos (by simpa using h)

end Journal

/-- Settles O41: a page's block by `openBlock_facts`, its records by `releaseDurable_facts`. -/
theorem journalAndPages : Obligations.JournalAndPages := by
  unfold Obligations.JournalAndPages
  intro s lun block page landing n b x cell us idle may times
  refine ⟨fun ⟨hu, hz⟩ hm hh hb hus h1 h2 hx => ?close, fun h => ?kept, fun h => ⟨journalPageTimer_idle (.inr h), checkpointComplete_idle (.inr h),
      optimeSave_idle ?_, ?_⟩, fun h => journalPageTimer_idle (.inl h), fun h => checkpointComplete_idle (.inl h), fun h => optimeSave_idle (.inr (.inr h)), fun h => ?_,
    fun ⟨hu, hz⟩ h => ?timer, fun ⟨hu, hz⟩ k h => ⟨_, checkpointComplete_run h hu hz, _, .refl _, .refl _⟩, fun ⟨hu, hz⟩ hr => ?saved, fun ⟨hu, hz⟩ p ps h => ?verified⟩
  case timer => exact if_neg (by simp [h, hu, hz])
  case saved => exact if_pos ⟨hu, by simp [hz], hr⟩
  case verified =>
    obtain ⟨durable, rest⟩ := releaseDurable_facts { s with
      str := { s.str with pages := ps, units := s.str.units.map fun y => if p.contains y.id then { y with journalled := true } else y }
      nv := times s.nv, crn := { s.crn with running := s.crn.running.map Firing.pageDone } }
    refine ⟨_, rfl, _, _, rfl, durable, rest, ?_⟩
    rw [pageVerified_run h hu hz]
  case kept => exact openPageClose_idle h
  case close =>
    have run {u : State} := openPageClose_run (page := page) (u := u) hu hz hm hh hb (us := us) rfl hus h1 h2 (cell := cell) rfl hx
    obtain ⟨opened, blocks, luns, fl, str⟩ := openBlock_facts s n b cell landing
    obtain open_ | free := id hx
    · have keeps : s = if x.state = .free then s.openBlock n b cell landing else s := (if_neg (by rw [open_.1]; decide)).symm
      exact ⟨_, run keeps, s, fun _ => rfl, fun free => by simp [open_.1] at free, rfl⟩
    · have takes : s.openBlock n b cell landing = if x.state = .free then s.openBlock n b cell landing else s := (if_pos free).symm
      refine ⟨_, run takes, _, fun h => by simp [free] at h, fun _ => ⟨State.openBlock_media .., opened, blocks, luns, fl, str⟩, ?_⟩
      rw [str]
  · grind
  · exact congrArg (fun t : State => ok t.runFirings) (pageVerified_idle (.inr h))
  · exact congrArg (fun t : State => ok t.runFirings) (pageVerified_idle (.inl h))

end Sys2Proof.Machine
end

section
/-! PROOFS. Quarry and Tumbler (O42). -/

namespace Sys2Proof.Machine

section Upkeep
variable {s : State} {n m : Nat} {lun : Fin 128} {busy : BitVec 16}

/-- The block with the fewest valid units is the victim (R324). -/
theorem victim_least {x : State} {l r : List (Nat × FBlock)} {e : Nat × FBlock} (h : ((x.lun n).blocks.filter fun b => b.2.state == BlockState.closed) = l ++ e :: r)
    (hl : ∀ y ∈ l ++ e :: r, y.2.landing = false) (hv : ∀ y ∈ l ++ r, x.validIn (locOf n e.1) < x.validIn (locOf n y.1)) : x.victim n = some e.1 := by
  have none : ((x.lun n).blocks.filter fun b => b.2.state == BlockState.closed).find? (fun b => b.2.landing) = none := by
    rw [h]
    exact List.find?_eq_none.mpr fun y hy => by simp [hl y hy]
  unfold State.victim
  dsimp only
  rw [none]
  cases hc : (x.lun n).blocks.filter fun b => b.2.state == BlockState.closed with
  | nil => simp [hc] at h
  | cons a as =>
    have first := fold_first (fun b k : Nat × FBlock => decide (x.validIn (locOf n b.1) < x.validIn (locOf n k.1) ∨
      x.validIn (locOf n b.1) = x.validIn (locOf n k.1) ∧ b.2.closedSeq < k.2.closedSeq)) l r e
      (fun y hy => decide_eq_true (.inl (hv y (List.mem_append_left _ hy))))
      (fun y hy => decide_eq_false (by have := hv y (List.mem_append_right _ hy); omega)) a as (h.symm.trans hc)
    simp only [decide_eq_true_eq] at first
    exact congrArg (fun b : Nat × FBlock => some b.1) first

/-- Wear moves the closed block of least wear when it lags far enough (R333). -/
theorem wearCheck_none (h : ((s.lun m).blocks.filter fun b => b.2.state == BlockState.closed) = []) : s.wearCheck m = s := by
  unfold State.wearCheck
  dsimp only
  rw [h]

theorem wearCheck_least {l r : List (Nat × FBlock)} {e : Nat × FBlock} (h : ((s.lun m).blocks.filter fun b => b.2.state == BlockState.closed) = l ++ e :: r)
    (hl : ∀ y ∈ l, e.2.wear < y.2.wear) (hr : ∀ y ∈ r, e.2.wear ≤ y.2.wear) : s.wearCheck m =
    if (∀ k, (s.lunRun m).lastMove = some k → k + msTicks 10000 ≤ s.time.uptime) ∧
      e.2.wear + 10000 * s.f Reg.wlDelta < (s.lun m).blocks.foldl (fun k b => max k b.2.wear) 0 then
      (s.setLunRun m { s.lunRun m with lastMove := some s.time.uptime }).moveBlock m e.1 9 else s := by
  unfold State.wearCheck
  dsimp only
  cases hc : (s.lun m).blocks.filter fun b => b.2.state == BlockState.closed with
  | nil => simp [hc] at h
  | cons a as =>
    have first := fold_first (fun b k : Nat × FBlock => decide (b.2.wear < k.2.wear)) l r e (fun y hy => decide_eq_true (hl y hy))
      (fun y hy => decide_eq_false (Nat.not_lt.mpr (hr y hy))) a as (h.symm.trans hc)
    simp only [decide_eq_true_eq] at first
    dsimp only
    rw [first]
    refine ite_cond_congr (propext (and_congr_left fun _ => ?_))
    cases (s.lunRun m).lastMove with
    | none => simp
    | some k => simp

/-- The moves of a cohort that is due, and the record of one that is overdue (R335). -/
theorem refreshCohort_facts (a : State) (m : Nat) (c : Cohort) : let mine := ((a.lun m).blocks.filter fun b => inCohort c b.2).map fun b => b.1
    (c.acc < accOne → a.refreshCohort m c = a) ∧
    (accOne ≤ c.acc → 10 * c.acc < 11 * accOne → a.refreshCohort m c = mine.foldl (fun x b => x.moveBlock m b 9) a) ∧
    (11 * accOne ≤ 10 * c.acc → ∃ x : State, a.refreshCohort m c = mine.foldl (fun x b => x.moveBlock m b 4) x ∧ (c.overdue = true → x = a) ∧
      (c.overdue = false → ∃ y z : State, Logs a 0x3090 Src.tumbler m c.cell 0 0 y ∧ Counts y 0x17 z ∧
        x = z.setLun m { z.lun m with cohorts := (z.lun m).cohorts.map fun d => if d.period = c.period ∧ d.cell = c.cell then { d with overdue := true } else d })) := by
  intro mine
  unfold State.refreshCohort
  dsimp only
  refine ⟨fun h => ?_, fun h1 h2 => ?_, fun h => ?_⟩
  · rw [if_neg (Nat.not_le.mpr h), if_neg (by omega)]
  · have early : ¬ 11 * accOne ≤ 10 * c.acc := Nat.not_le.mpr h2
    rw [if_pos h1, if_neg (c := 11 * accOne ≤ 10 * c.acc ∧ ¬ c.overdue = true) fun k => early k.1]
    simp only [early]
    rfl
  · have due : accOne ≤ c.acc := by omega
    rw [if_pos due]
    simp only [h, if_true, true_and]
    refine ⟨_, rfl, fun told => by simp [told], fun fresh => ⟨_, _, ⟨_, .refl _, .refl _⟩, ⟨_, .refl _, .refl _⟩, ?_⟩⟩
    rw [if_pos (by simp [fresh])]

/-- The reclaim operation that a pacing window starts (R324). -/
theorem reclaim_facts (x : State) (n mode : Nat) : let cls := if mode = 2 then 4 else 9
    if x.reclaiming n = true ∨ cls = 9 ∧ x.fl.hot = true then x.reclaim n mode = x
    else match (x.lun n).blocks.find? fun b => b.2.state == BlockState.incomplete with
      | some b => x.reclaim n mode = x.queueOp { lun := n, kind := 3, block := b.1, page := 0, cell := b.2.cell, cls := cls }
      | none => if mode = 0 then x.reclaim n mode = x else match x.victim n with
        | some b => x.reclaim n mode = x.moveBlock n b cls
        | none => x.reclaim n mode = x := by
  intro cls
  unfold State.reclaim State.reErase
  dsimp only
  split
  · rfl
  · cases (x.lun n).blocks.find? fun b => b.2.state == BlockState.incomplete with
    | some b => rfl
    | none =>
      dsimp only
      split
      · rfl
      · cases x.victim n <;> rfl

theorem pacingWindow_run (hq : s.quarryUp = true) (hh : s.lunHealthy lun.val = true) {u : State}
    (hu : u = s.takeStaged [Reg.qryFloor, Reg.qryTarget, Reg.qryShare, Reg.qryRebuildShare]) : execPacingWindow lun busy s =
    .next (State.pumpRebuild (State.reclaim ((u.setLunRun lun.val { u.lunRun lun.val with
      mode := u.modeOf lun.val, overrun := busy.toNat - (u.lunRun lun.val).share
      share := u.shareTicks lun.val - (busy.toNat - (u.lunRun lun.val).share) }).holdBack lun.val) lun.val (u.modeOf lun.val)) lun.val) := by
  rw [hu]
  exact if_neg (by simp [hq, hh])

/-- What a pacing window sets of its LUN (R322, R325). -/
theorem windowSet_facts (u : State) (n : Nat) (r : LunRun) : ∃ (v w : State) (all : Bool),
    v.lunRun n = { r with heldBack := if u.freeCount n ≤ 2 then true else r.heldBack && u.freeCount n < 3 } ∧
    (∀ m, m ≠ n → v.lunRun m = u.lunRun m) ∧ { v with fl := { v.fl with luns := u.fl.luns } } = u ∧
    (all = true ↔ v.healthyLuns ≠ [] ∧ ∀ m ∈ v.healthyLuns, (v.lunRun m).heldBack = true) ∧
    (if all = true ∧ u.fl.allHeld = false then Logs v 0x3062 Src.quarry 0 0 0 0 w else w = v) ∧
    (u.setLunRun n r).holdBack n = { w with fl := { w.fl with allHeld := all } } := by
  obtain ⟨v, w, all, set, others, rest, held, logged, done⟩ := holdBack_facts (u.setLunRun n r) n
  have mine : (u.setLunRun n r).lunRun n = r := Map.get_set_self ..
  have back := congrArg (fun y : State => { y with fl := { y.fl with luns := u.fl.luns } }) rest
  have same : v.fl.allHeld = u.fl.allHeld := by
    have same := congrArg (fun y : State => y.fl.allHeld) back
    exact same
  rw [mine] at set
  rw [same] at logged
  exact ⟨v, w, all, set, fun m hm => (others m hm).trans (Map.get_set_ne _ _ _ hm), back, held, logged, done⟩

theorem pacingWindow_idle (h : ¬ s.quarryUp = true ∨ s.lunHealthy lun.val = false) : execPacingWindow lun busy s = .next s :=
  if_pos (by simpa using h)

theorem floorModeTimeout_idle (h : ¬ s.quarryUp = true ∨ s.lunHealthy lun.val = false ∨ (s.lunRun lun.val).mode ≠ 2) : execFloorModeTimeout lun s = .next s := by
  refine if_neg fun k => ?_
  obtain h | h | h := h <;> simp [h] at k

theorem wearCheck_idle (h : ¬ s.quarryUp = true ∨ s.fl.hot = true) : execWearCheck s = .next s := by
  refine if_neg fun k => ?_
  obtain h | h := h <;> simp [h] at k

end Upkeep

/-- Settles O42: a pacing window by `holdBack_facts`, the victim by `victim_least`, wear by `wearCheck_least`, retention by
`refreshCohort_facts`. -/
theorem flashUpkeep : Obligations.FlashUpkeep := by
  unfold Obligations.FlashUpkeep
  intro s lun busy n up
  have upIff : s.quarryUp = true ↔ up := quarryUp_iff s
  refine ⟨fun h => ?down, fun h => ⟨pacingWindow_idle (.inr h), floorModeTimeout_idle (.inr (.inl h))⟩, fun h => floorModeTimeout_idle (.inr (.inr h)),
    fun h => wearCheck_idle (.inr h), fun h hh hm => ⟨_, if_pos ⟨upIff.mpr h, hh, hm⟩, _, .refl _, .refl _⟩, fun h hh => ?window, fun x l r e => victim_least,
    fun h hot => ?wear, fun h => ?retention⟩
  case down =>
    have off := mt upIff.mp h
    exact ⟨pacingWindow_idle (.inl off), floorModeTimeout_idle (.inl off), wearCheck_idle (.inl off), if_pos off⟩
  case wear =>
    exact ⟨State.wearCheck, if_pos ⟨upIff.mpr h, by simp [hot]⟩, MediaSide.foldl _ (fun t m => wearCheck_media t m) _ _,
      fun a m => ⟨wearCheck_none, fun l r e h hl hr => wearCheck_least h hl hr⟩⟩
  case retention =>
    have takes := takeStaged_takes [Reg.wlDelta, Reg.tOffset, Reg.offH, Reg.offRow] s (by decide)
    exact ⟨_, if_neg (Classical.not_not.mpr (upIff.mpr h)), _, _, fun m t c => t.refreshCohort m c, takes, rfl, rfl,
      MediaSide.foldl _ (fun t m => refreshLun_media t m) _ _, fun m a c => refreshCohort_facts a m c⟩
  case window =>
    obtain ⟨u, hu⟩ : ∃ u, u = s.takeStaged [Reg.qryFloor, Reg.qryTarget, Reg.qryShare, Reg.qryRebuildShare] := ⟨_, rfl⟩
    have takes : Takes s [Reg.qryFloor, Reg.qryTarget, Reg.qryShare, Reg.qryRebuildShare] u := by
      rw [hu]
      exact takeStaged_takes _ s (by decide)
    obtain ⟨v, w, all, set, others, rest, held, logged, done⟩ := windowSet_facts u n { u.lunRun n with
      mode := u.modeOf n, overrun := busy.toNat - (u.lunRun n).share, share := u.shareTicks n - (busy.toNat - (u.lunRun n).share) }
    have run := pacingWindow_run (busy := busy) (upIff.mpr h) hh hu
    rw [done] at run
    refine ⟨_, run, u, v, w, _, all, takes, set, others, rest, held, logged, rfl, ⟨_, rfl, ?_⟩, (reclaim_media _ _ _).trans (pumpRebuild_media _ _)⟩
    exact reclaim_facts _ n _

end Sys2Proof.Machine
end

section
/-! PROOFS. The DRAM controller (O43). -/

namespace Sys2Proof.Machine

section Dram
variable {s : State} {rank : Fin 2}

/-- Setting EN and clearing IDLE, with the initialisation that begins (R384). -/
theorem Sets.enabled {u : State} {l : List (Field × Nat)} (h : Sets s l u) (h1 : ∀ p ∈ l, p.1.key ≠ Reg.drcEn.key)
    (h2 : ∀ p ∈ l, p.1.key ≠ Reg.drcIdle.key) : Sets { s with dram := { s.dram with initing := true } } ((Reg.drcIdle, 0) :: (Reg.drcEn, 1) :: l)
      { (u.setF Reg.drcEn 1).setF Reg.drcIdle 0 with dram := { ((u.setF Reg.drcEn 1).setF Reg.drcIdle 0).dram with initing := true } } := by
  have all := (h.more Reg.drcEn 1 h1).more Reg.drcIdle 0 (List.forall_mem_cons.mpr ⟨by decide, h2⟩)
  have dram : u.dram = s.dram := by have e := congrArg State.dram h.rest; exact e
  refine all.of_eq rfl rfl ?_
  have e := congrArg (fun t : State => { t with dram := { s.dram with initing := true } }) h.rest
  rw [← dram] at e ⊢
  exact e

/-- Enabling the controller sets its registers and starts an initialisation (R382, R384). -/
theorem enableDram_sets (s : State) (found : Option (Bool × Bool × BitVec 2)) : Sets { s with dram := { s.dram with initing := true } }
    ([(Reg.drcIdle, 0), (Reg.drcEn, 1)] ++ match found with
      | some (two, x16, d) => [(Reg.ratThresh, 8192), (Reg.drcDensity, d.toNat), (Reg.drcX16, b2n x16), (Reg.drcRanks2, b2n two), (Reg.drcRdbi, 0),
          (Reg.drcMap, 3), (Reg.drcCwl, 9), (Reg.drcCl, 11), (Reg.drcRate, 1)]
      | none => []) (s.enableDram found) := by
  match found with
  | none => exact (Sets.none s).enabled (by simp) (by simp)
  | some (two, x16, d) =>
    have described := ((((((((Sets.one s Reg.drcRate 1).more Reg.drcCl 11 (by simp; decide)).more Reg.drcCwl 9 (by simp; decide)).more
      Reg.drcMap 3 (by simp; decide)).more Reg.drcRdbi 0 (by simp; decide)).more Reg.drcRanks2 (b2n two) (by simp; decide)).more
      Reg.drcX16 (b2n x16) (by simp; decide)).more Reg.drcDensity d.toNat (by simp; decide)).more Reg.ratThresh 8192 (by simp; decide)
    exact described.enabled (by simp; decide) (by simp; decide)

/-- An initialisation that passed (R384). -/
theorem dramPassed_facts (s : State) : ∃ u, Sets { s with dram := { s.dram with
      up := true, initing := false, ranks := s.dramRanks, capMiB := s.dramCap, debt0 := 8, debt1 := 8, acts := [], written := []
      lastZqcs := s.time.uptime, railBad := false, uncorr := [] } }
      [(Reg.drcReplay, 0), (Reg.drcRfail, 0), (Reg.drcIfail, 0), (Reg.drcSet, s.f Reg.band), (Reg.drcReinit, 0)] u ∧
    Logs u 0x4001 Src.dram (s.f Reg.drcRate) s.dramRanks s.dramCap 0 s.dramPassed :=
  ⟨_, (((((Sets.one _ _ _).more _ _ (by simp; decide)).more _ _ (by simp; decide)).more _ _ (by simp; decide)).more _ _ (by simp; decide)), _, .refl _, .refl _⟩

/-- An activation is counted against its row, and at a multiple of THRESH the neighbours are refreshed (R393). -/
theorem activate_facts (x : State) (addr : Nat) : let p := x.dramPlace addr
    let key := 16 * p.1 + p.2.1
    let r := actTable p.2.2 (x.dram.acts.get [] key)
    let y : State := { x with dram := { x.dram with acts := x.dram.acts.put key r.1 } }
    if x.f Reg.ratThresh ≠ 0 ∧ r.2 % x.f Reg.ratThresh = 0 then ∃ u v, Counts y 0x1D u ∧ Sets u [(Reg.ratCnt, min (2 ^ Reg.ratCnt.width - 1) (u.f Reg.ratCnt + 1))] v ∧
      Logs v 0x4040 Src.dram key p.2.2 0 0 (x.activate addr)
    else x.activate addr = y := by
  intro p key r y
  split
  next due =>
    have run : x.activate addr = ((y.bump 0x1D).countF Reg.ratCnt 1).record 0x4040 Src.dram key p.2.2 := if_pos due
    rw [run]
    exact ⟨_, _, ⟨_, .refl _, .refl _⟩, Sets.count .., _, .refl _, .refl _⟩
  next early => exact if_neg early

theorem eccCorrected_facts (x : State) (addr : Nat) : ∃ u v : State,
    Sets x [(Reg.eccCorr, min (2 ^ Reg.eccCorr.width - 1) (x.f Reg.eccCorr + 1)), (Reg.eccAddr, addr / 32 % 2 ^ 28 + 2 ^ 28 * b2n false + 2 ^ 29 * (addr / 4 % 8))] u ∧
    Counts u 0x1A v ∧ Logs v 0x4010 Src.dram (addr % 2 ^ 32) 0 0 0 (x.eccCorrected addr) := by
  have same : (x.latchEcc addr false).f Reg.eccCorr = x.f Reg.eccCorr := State.f_setF_ne _ _ (by decide)
  refine ⟨(x.latchEcc addr false).countF Reg.eccCorr 1, _, ?_, ⟨_, .refl _, .refl _⟩, _, .refl _, .refl _⟩
  rw [← same]
  exact (Sets.one x Reg.eccAddr _).more _ _ (by simp; decide)

/-- Changes that wait for a refresh boundary (R388, R390). -/
def State.boundaryTaken (s : State) : State := s.takeStaged [Reg.postpone]

def State.refreshSet (s : State) : State :=
  if s.f Reg.drcSet = s.f Reg.band then s else (s.setF Reg.drcSet (s.f Reg.band)).record 0x4050 Src.dram (s.f Reg.band)

def State.calibrated (s : State) : State :=
  if s.dram.lastZqcs + msTicks 128 ≤ s.time.uptime then { s with dram := { s.dram with lastZqcs := s.time.uptime } } else s

theorem refreshBoundary_eq (s : State) : s.refreshBoundary =
    let w := s.boundaryTaken.refreshSet.calibrated
    if w.bitF Reg.drcReinit = true ∧ ¬ w.dram.initing = true ∧ ¬ w.dram.alert = true ∧ ¬ w.dram.railBad = true then w.startReinit
    else if w.bitF Reg.drcReinit = true ∧ w.dram.alert = true then w.reinitFailed
    else w := rfl

theorem refreshSet_facts (u : State) : if u.f Reg.drcSet = u.f Reg.band then u.refreshSet = u
    else ∃ a, Sets u [(Reg.drcSet, u.f Reg.band)] a ∧ Logs a 0x4050 Src.dram (u.f Reg.band) 0 0 0 u.refreshSet := by
  unfold State.refreshSet
  split
  · rfl
  · exact ⟨_, Sets.one .., _, .refl _, .refl _⟩

theorem refreshSet_steady (u : State) : (u.refreshSet).dev = u.dev ∧ u.refreshSet.bas = u.bas := by
  unfold State.refreshSet
  split
  · exact ⟨rfl, rfl⟩
  · have logged := State.record_steady (u.setF Reg.drcSet (u.f Reg.band)) 0x4050 Src.dram (u.f Reg.band) 0 0 0
    exact ⟨logged.dev, logged.bas⟩

/-- The device state and the rails stay over the changes of a boundary. -/
theorem boundary_keeps (s : State) : s.boundaryTaken.refreshSet.calibrated.dieUp = s.dieUp ∧ s.boundaryTaken.refreshSet.calibrated.bas = s.bas := by
  have taken := (takeStaged_takes [Reg.postpone] s (by simp)).rest
  obtain ⟨dev, bas⟩ := refreshSet_steady s.boundaryTaken
  have dev' : s.boundaryTaken.refreshSet.calibrated.dev = s.dev := by
    have e : s.boundaryTaken.dev = s.dev := by have e := congrArg State.dev taken; exact e
    unfold State.calibrated
    split <;> exact dev.trans e
  have bas' : s.boundaryTaken.refreshSet.calibrated.bas = s.bas := by
    have e : s.boundaryTaken.bas = s.bas := by have e := congrArg State.bas taken; exact e
    unfold State.calibrated
    split <;> exact bas.trans e
  exact ⟨by unfold State.dieUp; rw [dev', bas'], bas'⟩

/-- What a due reinitialisation does at a boundary (R398, R399). -/
theorem refreshBoundary_ends (w : State) :
    let t := if w.bitF Reg.drcReinit = true ∧ ¬ w.dram.initing = true ∧ ¬ w.dram.alert = true ∧ ¬ w.dram.railBad = true then w.startReinit
      else if w.bitF Reg.drcReinit = true ∧ w.dram.alert = true then w.reinitFailed else w
    if w.f Reg.drcReinit = 1 then
      (if w.dram.alert = true then t = w.reinitFailed else if w.dram.railBad = true ∨ w.dram.initing = true then t = w else t = w.startReinit)
    else t = w := by
  by_cases due : w.f Reg.drcReinit = 1
  · have due' := (bitF_iff w Reg.drcReinit).mpr due
    by_cases alert : w.dram.alert = true
    · simp [due, due', alert]
    · by_cases busy : w.dram.railBad = true ∨ w.dram.initing = true
      · rw [if_pos due, if_neg alert, if_pos busy, if_neg (fun h => busy.elim h.2.2.2 h.2.1), if_neg (fun h => alert h.2)]
      · obtain ⟨rail, init⟩ := not_or.mp busy
        rw [if_pos due, if_neg alert, if_neg busy, if_pos ⟨due', init, alert, rail⟩]
  · have idle := mt (bitF_iff w Reg.drcReinit).mp due
    rw [if_neg due, if_neg (fun h => idle h.1), if_neg (fun h => idle h.1)]

end Dram

/-- Settles O43. The registers that an action writes are gathered by `Sets`; the changes of a refresh boundary follow one another as the rules name them. -/
theorem dramController : Obligations.DramController := by
  unfold Obligations.DramController
  intro s found step rank idle facts replayed enable done interval high counted asks replayFails initFails boundary
  have fails (x : State) (hu : x.dieUp = true) (hz : x.bas.freeze = false) : initFails x x.reinitFailed := reinitFailed_facts x hu hz
  have bounds (x : State) (hu : x.dieUp = true) (hz : x.bas.freeze = false) : boundary x x.refreshBoundary := by
    obtain ⟨up, bas⟩ := boundary_keeps x
    refine ⟨x.boundaryTaken, x.boundaryTaken.refreshSet, x.boundaryTaken.refreshSet.calibrated, takeStaged_takes _ x (by simp),
      refreshSet_facts x.boundaryTaken, rfl, ?_⟩
    have ends := refreshBoundary_ends x.boundaryTaken.refreshSet.calibrated
    have eq := refreshBoundary_eq x
    have failed := fails _ (up.trans hu) ((congrArg Basalt.freeze bas).trans hz)
    generalize x.boundaryTaken.refreshSet.calibrated = w at *
    dsimp only at ends eq
    rw [← eq] at ends
    split
    next due =>
      rw [if_pos due] at ends
      split
      next alert =>
        rw [if_pos alert] at ends
        rw [ends]; exact failed
      next quiet => rw [if_neg quiet] at ends; exact ends
    next idle => rw [if_neg idle] at ends; exact ends
  have keystone (hu : s.dieUp = true) (hr : s.dev ≠ .recovery) : enable .keystone =
      ok (if s.bitF Reg.drcEn ∨ (s.dev ≠ .starting ∧ s.dev ≠ .rom) then s else s.enableDram found) :=
    asWrite_run hu hr fun t => if t.bitF Reg.drcEn ∨ (t.dev ≠ .starting ∧ t.dev ≠ .rom) then t else t.enableDram found
  have pcie (hu : s.dieUp = true) (hr : s.dev ≠ .recovery) : enable .pcie = ok s.ignoredWrite := asWrite_run hu hr State.ignoredWrite
  have recovery (hu : s.dieUp = true) (hr : s.dev = .recovery) (p : Path) : Answers (enable p) (Counts s 3) :=
    ⟨s.ignoredWrite, (if_neg (by simp [hu])).trans (if_pos hr), _, .refl _, .refl _⟩
  have due : ∀ t : State, t.bitF Reg.drcReplay = true ↔ t.f Reg.drcReplay = 1 := fun t => bitF_iff t _
  refine ⟨?off, fun hu => ⟨fun hr => recovery hu hr, ?pcie, ?ignored, ?enables⟩, ?stays, ?inits, ?asleep, ?interval, ?window, ?parity, ?late, ?low, ?rise, ?still, ?scrub⟩
  case off => exact fun hu p => if_pos (by simp [hu])
  case pcie =>
    by_cases hr : s.dev = .recovery
    · exact recovery hu hr _
    · exact ⟨_, pcie hu hr, _, .refl _, .refl _⟩
  case ignored => exact fun hr h => (keystone hu hr).trans (congrArg ok (if_pos (h.imp_left (bitF_iff s _).mpr)))
  case enables =>
    intro fresh starting
    have hr : s.dev ≠ .recovery := by rintro h; simp [h] at starting
    exact ⟨_, (keystone hu hr).trans (congrArg ok (if_neg fun k => k.elim (fun e => fresh ((bitF_iff s _).mp e)) fun e => starting.elim e.1 e.2)), enableDram_sets s found⟩
  case stays => exact fun h => if_pos (by simpa [or_assoc] using h)
  case inits =>
    intro initing hu hz
    have runs : done = if step.val = 0 ∧ s.dramSupported = true then ok s.dramPassed
        else if s.dram.up = true then ok s.reinitFailed
        else ok (({ s with dram := { s.dram with initing := false } }.record 0x4002 Src.dram step.val).enterBedrock 3) := if_neg (by simp [initing, hu, hz])
    refine ⟨fun h0 hs => ⟨_, runs.trans (if_pos ⟨h0, hs⟩), dramPassed_facts s⟩, fun failed => ?_⟩
    have runs' := runs.trans (if_neg (by rintro ⟨h0, hs⟩; simp [h0, hs] at failed))
    exact ⟨fun up => ⟨_, runs'.trans (if_pos up), fails s hu hz⟩,
      fun down => ⟨_, runs'.trans (if_neg (by simp [down])), _, ⟨_, .refl _, .refl _⟩, rfl⟩⟩
  case asleep => exact fun h => if_pos (by simpa using h)
  case interval =>
    intro up ready hz hu ranked
    have runs : interval = ok (let d := min 16 ((if rank.val = 0 then s.dram.debt0 else s.dram.debt1) + 1)
        let refresh := (idle && decide (0 < d)) || decide (8 + s.f Reg.postpone ≤ d)
        let e := if refresh then d - 1 else d
        let s1 := if rank.val = 0 then { s with dram := { s.dram with debt0 := e } } else { s with dram := { s.dram with debt1 := e } }
        if refresh ∧ rank.val = 0 then s1.refreshBoundary else s1) := if_neg (by simp [up, ready, hz, hu, ranked])
    refine ⟨_, runs, ?_⟩
    dsimp -zeta only
    have owed : 0 < min 16 ((if rank.val = 0 then s.dram.debt0 else s.dram.debt1) + 1) := by omega
    generalize min 16 ((if rank.val = 0 then s.dram.debt0 else s.dram.debt1) + 1) = d at *
    intro d' refresh
    have iff : ((idle && decide (0 < d)) || decide (8 + s.f Reg.postpone ≤ d)) = true ↔ refresh := by simp [refresh, d', owed]
    refine ⟨fun hr h0 => ?_, fun hr h0 => ?_, fun hr => ?_⟩
    · have hb := iff.mpr hr
      simp only [hb, h0, if_true, and_self]
      exact bounds { s with dram := { s.dram with debt0 := d' - 1 } } hu hz
    · have hb := iff.mpr hr
      simp only [hb, h0, if_true, if_false, and_false]
      rfl
    · have hb := mt iff.mp hr
      by_cases h0 : rank.val = 0
      · simp only [hb, h0, if_true]
        rfl
      · simp only [hb, h0, if_false]
        rfl
  case window =>
    split
    next on => exact ⟨_, if_pos on, takeStaged_takes _ _ (by simp)⟩
    next off => exact if_neg off
  case parity =>
    split
    next on => exact ⟨_, if_pos (by simpa using on), (((Sets.count s Reg.parAlerts 1).more Reg.drcReplay 1 (by simp; decide)).of_eq rfl rfl rfl)⟩
    next off => exact if_neg (by simpa using off)
  case late =>
    split
    next on => exact ⟨_, if_pos (by simpa [due] using on), replayFailed_facts s⟩
    next off => exact if_neg (by simpa [due] using off)
  case low => exact fun h again => if_pos (by simpa using h)
  case rise =>
    intro alert hu
    have runs (again : Bool) : high again = if ¬ s.bitF Reg.drcReplay = true then ok { s with dram := { s.dram with alert := false } }
        else if again = true then ok (s.countF Reg.parAlerts 1).replayFailed
        else ok (((({ s with dram := { s.dram with alert := false } }.setF Reg.drcReplay 0).setF Reg.drcRfail 0).record 0x4020 Src.dram rank.val replayed.toNat).bump 0x1C) :=
      if_neg (by simp [alert, hu])
    refine ⟨fun h again => (runs again).trans (if_pos (mt (due s).mp h)), fun h => ?_⟩
    have replays (again : Bool) := (runs again).trans (if_neg (Classical.not_not.mpr ((due s).mpr h)))
    exact ⟨⟨_, replays true, _, Sets.count .., replayFailed_facts _⟩,
      ⟨_, replays false, _, _, (Sets.one _ _ _).more _ _ (by simp; decide), ⟨_, .refl _, .refl _⟩, _, .refl _, .refl _⟩⟩
  case still => exact fun h => if_neg (by rintro ⟨a, b, c, d⟩; simp_all)
  case scrub =>
    refine fun up ready hu hz => ⟨State.dramFact, if_pos (by simp [up, ready, hu, hz]), fun x a => ⟨rfl, eccCorrected_facts x a.toNat, fun k => ?_, activate_facts x a.toNat⟩⟩
    obtain ⟨u, v, w, z, h1, h2, h3, h4, h5⟩ := eccUncorrectable_facts x a.toNat k.val
    exact ⟨u, v, w, _, z, h1, h2, h3, rfl, h4, h5⟩

end Sys2Proof.Machine
end

section
/-! PROOFS. READ, WRITE and WRITE_ATOMIC (O33). -/

namespace Sys2Proof.Machine

section Writes
variable {s : State} {n tag op : Nat} {c : Cmd}

theorem startWrite_refused {st : Nat} (h : Starts s n tag op c) (hc : s.ioCheck c = some st) (ho : 2 ≤ op ∧ op ≤ 4) (x : Xfer) :
    s.startCmd n tag op (fun s c => s.startWrite c x) = ok (s.complete c st (if st = 0x0103 then natLe 4 s.shutdownHint else [])) := by
  rw [h.run]
  unfold State.startWrite State.checked
  rw [hc]
  have opc : 2 ≤ c.opcode ∧ c.opcode ≤ 4 := h.opcode ▸ ho
  simp only [opc, and_true]

theorem startWrite_halted (h : Starts s n tag op c) (hc : s.ioCheck c = none) (hh : (s.chan c.ring).halted = true) (x : Xfer) :
    s.startCmd n tag op (fun s c => s.startWrite c x) = ok s := by
  rw [h.run]
  unfold State.startWrite State.checked
  rw [hc]
  exact congrArg ok (if_pos hh)

theorem Clear.writes {d : Cmd} (h : Clear s n tag op c) (hs : c.stage = .fetched) (hb : c.budgeted = false) (he : s.eligible c = false) (ho : op ≠ 4)
    (hd : d = { c with cls := 7 }) (x : Xfer) : s.startCmd n tag op (fun s c => s.startWrite c x) = ok (match s.askGeneral d 7 (c.blockSpan s).2 with
      | .refused => s.complete d 0x0102 (natLe 4 (s.energyHint 7))
      | .held => s.hold d 7 (c.blockSpan s).2
      | .granted s2 fromReserve =>
        (({ s2.setCmd { d with units := (c.blockSpan s).2, fromReserve := fromReserve, granted := s.time.uptime } with
          alloc.queue := s2.alloc.queue.filter fun q => !(q.1 == c.ring && q.2.1 == c.tag) }).moveIn { d with units := (c.blockSpan s).2, fromReserve := fromReserve, granted := s.time.uptime }
            (c.bytesOf s) x)) := by
  rw [h.start.run]
  exact congrArg ok (startWrite_plain h.checks h.going hs hb he (by rw [h.start.opcode]; exact ho) d hd x)

theorem askGeneral_refused {cls k : Nat} (h : s.openTo cls = false) : s.askGeneral c cls k = .refused := if_pos (by simp [h])
theorem askGeneral_held {cls k : Nat} (h : s.openTo cls = true) (full : s.blocked c cls = true ∨ s.unitsFit cls k = false ∨ s.energyFits k = false) :
    s.askGeneral c cls k = .held := (if_neg (by simp [h])).trans (if_pos (by simpa using full))
theorem askGeneral_granted {cls k : Nat} (h : s.openTo cls = true) (hb : s.blocked c cls = false) (hu : s.unitsFit cls k = true) (he : s.energyFits k = true) :
    s.askGeneral c cls k = .granted (s.takeGeneral k) false := (if_neg (by simp [h])).trans (if_neg (by simp [hb, hu, he]))

/-- A cyclic command in its budget takes its units from the reserve (R254). -/
theorem startWrite_budgeted {d e : Cmd} {r u : State} {k : Nat} (h1 : s.ioCheck c = none) (h2 : (s.chan c.ring).halted = false) (hs : c.stage = .fetched)
    (he : s.eligible c = true) (hk : c.unitsOf s = k) (hb : s.inBudget k = true) (hd : d = { c with eligible := true, budgeted := true, cls := 3 })
    (hr : r = ((s.countF Reg.cycCmds 1).countF Reg.cycUnits k).setCmd d) (hopen : r.openTo 3 = true) (hfree : k ≤ r.resFree)
    (hgrant : e = { d with units := k, fromReserve := true, granted := s.time.uptime }) (hu : u = ((r.takeReserve k).setCmd e).unqueued e) (x : Xfer) :
    s.startWrite c x = u.moveIn e (if c.opcode = 4 then c.length else c.bytesOf s) x := by
  unfold State.startWrite State.checked
  rw [h1]
  dsimp only
  rw [if_neg (by simp [h2])]
  have classified : s.classify c = (r, d) := by
    unfold State.classify
    rw [if_neg (by simp [hs]), if_pos he, hk]
    simp only [hb, if_true]
    rw [hr, hd]
    exact congrArg (fun t : State => (t.setCmd _, _)) (if_pos hb)
  rw [classified, hk]
  dsimp only
  have short : r.noteShort d k = r := if_neg (by simp only [not_and]; omega)
  have granted : r.askUnits d k = .granted (r.takeReserve k) true := by
    unfold State.askUnits
    rw [if_pos (by rw [hd]), if_neg (by simp [hopen]), if_pos hfree]
  rw [short, granted]
  subst hu hgrant hd
  rfl

end Writes

/-- Settles O33. The writes are one proof for both opcodes. -/
theorem readsAndWrites : Obligations.ReadsAndWrites := by
  unfold Obligations.ReadsAndWrites
  intro s n tag c segs data media atomic off code write op read v size total span into runs
  have opcode : 2 ≤ op ∧ op ≤ 3 := by cases atomic <;> decide
  have runsWrite (x : Xfer) : exec (write x) s = s.startCmd n.val tag.toNat op fun s c => s.startWrite c x := by
    cases atomic <;> rfl
  have runsRead (x : Xfer) (h : Starts s n.val tag.toNat 1 c) : read x = ok (s.startRead c media x) := h.run fun s c => s.startRead c media x
  refine ⟨?readBad, ?writeBad, ?halted, ?read, ?write⟩
  case readBad => exact fun x st h hc => (runsRead x h).trans (congrArg ok (streamBad hc _ (by rw [h.opcode]; decide)))
  case writeBad => exact fun x st h hc => (runsWrite x).trans (startWrite_refused h hc (by omega) x)
  case halted =>
    exact fun x hh hc => ⟨fun h => (runsRead x h).trans (congrArg ok ((streamGood hc _).trans (if_pos hh))), fun h => (runsWrite x).trans (startWrite_halted h hc hh x)⟩
  case read =>
    intro h u fails hu hf status result bytes held
    have ends := clear_read h media u fails hu hf
    exact ⟨fun hl => ⟨(ends _).trans (congrArg ok (readEnds_done hl)), (ends _).trans (congrArg ok (moveOut_issued hl))⟩,
      fun hl => ⟨(ends _).trans (congrArg ok (readEnds_bad hl)), (ends _).trans (congrArg ok (moveOut_bad hl))⟩, ends _⟩
  case write =>
    refine fun h hs hb => ⟨fun he d hd => ⟨fun shut x => ?_, fun open7 full x => ?_, fun open7 free fits energy e u hE hu => ?_⟩, fun he budget d r hd hr open3 free e u hE hu hl => ?_⟩
    · rw [runsWrite, h.writes hs hb he (by omega) hd, askGeneral_refused shut]
      rfl
    · rw [runsWrite, h.writes hs hb he (by omega) hd, askGeneral_held open7 full]
      rfl
    · have run (x : Xfer) : exec (write x) s = ok (u.moveIn e total x) := by
        rw [runsWrite, h.writes hs hb he (by omega) hd, askGeneral_granted open7 free fits energy]
        subst hu hE hd
        rfl
      have opE : e.opcode ≠ 4 := by
        subst hE hd
        exact fun k : c.opcode = 4 => by have := h.start.opcode; omega
      have body : e.body = c.body := by subst hE hd; rfl
      have vol : u.vol c.volume = s.vol c.volume := by subst hu; rfl
      have list : e.listOk total segs = c.listOk total segs := by subst hE hd; rfl
      have runsE (b : Bytes) : e.runs total b = c.runs total b := by subst hE hd; rfl
      have granted : e.units = span.2 ∧ e.fromReserve = false := by subst hE; exact ⟨rfl, rfl⟩
      clear hE hu
      refine ⟨fun hl => ⟨?_, ?_⟩, fun hl x hx => ?_, ?_⟩
      · obtain ⟨w, hw, eq⟩ := moveIn_wrote body opE vol (range_of_check h.checks (by have := h.start.opcode; omega)) total segs data (list.trans hl)
        exact ⟨_, (run _).trans (congrArg ok eq), w, hw, rfl⟩
      · have moved := moveIn_issued (u := u) opE (list.trans hl)
        rw [runsE] at moved
        exact (run _).trans (congrArg ok moved)
      · have moved := moveIn_bad (u := u) opE (list.trans hl) x hx
        rw [granted.1, granted.2] at moved
        exact (run _).trans (congrArg ok moved)
      · have moved := moveIn_faulted (u := u) opE (n := total) off code
        rw [runsE] at moved
        exact (run _).trans (congrArg ok moved)
    · have opC : c.opcode ≠ 4 := by have := h.start.opcode; omega
      have units : c.unitsOf s = span.2 := unitsOf_span opC
      have run : exec (write (.done segs data)) s = ok (u.moveIn e (if c.opcode = 4 then c.length else total) (.done segs data)) := by
        rw [runsWrite, h.start.run]
        exact congrArg ok (startWrite_budgeted h.checks h.going hs he units budget hd hr open3 free hE hu _)
      have opE : e.opcode ≠ 4 := by subst hE hd; exact opC
      have body : e.body = c.body := by subst hE hd; rfl
      have vol : u.vol c.volume = s.vol c.volume := by subst hu hr; rfl
      have list : e.listOk total segs = c.listOk total segs := by subst hE hd; rfl
      clear hE hu hr hd free open3
      obtain ⟨w, hw, eq⟩ := moveIn_wrote body opE vol (range_of_check h.checks (by have := h.start.opcode; omega)) total segs data (list.trans hl)
      exact ⟨_, run.trans (congrArg ok ((congrArg (fun k => u.moveIn e k (.done segs data)) (if_neg opC)).trans eq)), w, hw, rfl⟩

end Sys2Proof.Machine
end

section
/-! PROOFS. APPEND, SEAL_STREAM, READ_STREAM and pins (O34). -/

namespace Sys2Proof.Machine

section Streams
variable {s : State} {n tag : Nat} {c : Cmd}

theorem Clear.appends {d : Cmd} (h : Clear s n tag 4 c) (hs : c.stage = .fetched) (hb : c.budgeted = false) (he : s.eligible c = false)
    (hd : d = { c with cls := 7 }) (x : Xfer) : s.startCmd n tag 4 (fun s c => s.startWrite c x) = ok (match s.askGeneral d 7 (ceilDiv c.length 4096) with
      | .refused => (s.complete d 0x0102 (natLe 4 (s.energyHint 7))).acceptReady c.ring c.volume 32
      | .held => s.hold d 7 (ceilDiv c.length 4096)
      | .granted s2 fromReserve =>
        (({ s2.setCmd { d with units := ceilDiv c.length 4096, fromReserve := fromReserve, granted := s.time.uptime } with
          alloc.queue := s2.alloc.queue.filter fun q => !(q.1 == c.ring && q.2.1 == c.tag) }).moveIn { d with units := ceilDiv c.length 4096, fromReserve := fromReserve, granted := s.time.uptime }
            c.length x)) := by
  rw [h.start.run]
  exact congrArg ok (startAppend_plain h.checks h.going hs hb he h.start.opcode d hd x)

/-- The bytes and the position that READ_STREAM answers (R246). -/
def readStreamResult (c : Cmd) (from_ : List SRec) (oldest : Nat) (q : Bytes × Nat × Nat × Bool × Nat) : Bytes :=
  natLe 4 q.1.length ++ natLe 8 (if from_ = [] then c.start else q.2.2.1) ++ natLe 2 q.2.1 ++ natLe 2 (b2n (c.start < oldest) + 2 * b2n q.2.2.2.1)

theorem startReadStream_eq (h : Clear s n tag 8 c) (media : List (Nat × Media)) {u : State} {from_ : List SRec} {oldest : Nat} {q : Bytes × Nat × Nat × Bool × Nat}
    (hu : u = s.readRecords c.volume media) (hf : from_ = (u.vol c.volume).recs.filter (fun r => c.start ≤ r.seq))
    (ho : oldest = ((u.vol c.volume).recs.head?.map fun r => r.seq).getD c.start)
    (hq : q = streamCopy (failedOf media) c.length (c.b 28 4) from_ (max c.start oldest) 0) (x : Xfer) :
    s.startReadStream c media x = u.moveOut c c.length q.1 q.2.2.2.2 (readStreamResult c from_ oldest q) x := by
  refine (streamGood h.checks _).trans ((if_neg (by simp [h.going])).trans ?_)
  subst hu hq ho hf
  unfold readStreamResult
  dsimp only
  generalize s.readRecords c.volume media = u
  generalize (u.vol c.volume).recs = recs
  cases recs with
  | nil => rfl
  | cons r rs =>
    dsimp only [List.head?_cons, Option.map_some, Option.getD_some]
    generalize (r :: rs).filter (fun r => c.start ≤ r.seq) = from_
    cases from_ <;> rfl

theorem startSeal_eq (h : s.ioCheck c = none) : s.startSeal c = (s.setVol c.volume { s.vol c.volume with isSealed := true }).commit.complete c 0
    (natLe 4 0 ++ natLe 8 (((s.vol c.volume).recs.getLast?.map fun r => r.seq).getD 0xFFFFFFFFFFFFFFFF)) := by
  refine (streamGood h _).trans ?_
  dsimp only
  cases (s.vol c.volume).recs.getLast? <;> rfl

theorem startPinSeq_eq (h : s.ioCheck c = none) : s.startPinSeq c =
    s.pinRecords c ((s.vol c.volume).recs.filter fun r => c.start ≤ r.seq && r.seq < c.start + c.length)
      (c.start < ((s.vol c.volume).recs.head?.map fun r => r.seq).getD (s.vol c.volume).nextSeq) := by
  refine (streamGood h _).trans ?_
  dsimp only
  unfold State.spanOf
  generalize hr : (s.vol c.volume).recs = recs
  cases recs <;> rfl

theorem startPinTime_eq (h : s.ioCheck c = none) : s.startPinTime c = s.pinRecords c
    (((s.vol c.volume).recs.filter fun r => r.cycles = s.time.cycles && c.arrive - msTicks c.length ≤ r.ticks).filter fun r => r.ticks ≤ c.arrive) false :=
  streamGood h _

end Streams

/-- Settles O34. -/
theorem streams : Obligations.Streams := by
  unfold Obligations.Streams
  intro s n tag c segs data media off code append read v units runs ready pin
  have runsAppend (x : Xfer) : append x = s.startCmd n.val tag.toNat 4 fun s c => s.startWrite c x := rfl
  have runsRead (x : Xfer) (h : Starts s n.val tag.toNat 8 c) : read x = ok (s.startReadStream c media x) := h.run fun s c => s.startReadStream c media x
  have pinned (i : Instr) (form : Nat) (rs : List SRec) (gap : Bool) (run : Starts s n.val tag.toNat 9 c → s.ioCheck c = none → c.opflags = form →
      exec i s = ok (s.pinRecords c rs gap)) : pin i form rs gap := fun h hc hf =>
    ⟨fun full => (run h hc hf).trans (congrArg ok (pinRecords_full full)), fun room => (run h hc hf).trans (congrArg ok (pinRecords_room room))⟩
  refine ⟨?bad, ?halted, ?append, ?sealed, ?read, ?pinSeq, ?pinTime, ?release⟩
  case bad =>
    intro st hc
    have refused (f : State → Cmd → State) (ho : c.opcode ≠ 2 ∧ c.opcode ≠ 3 ∧ c.opcode ≠ 4) := streamBad hc f ho
    exact ⟨fun x h => (runsAppend x).trans (startWrite_refused h hc (by decide) x), fun x h => (runsRead x h).trans (congrArg ok (refused _ (by rw [h.opcode]; decide))),
      fun h => (h.run _).trans (congrArg ok (refused _ (by rw [h.opcode]; decide))), fun h =>
      ⟨fun hf => (startPin_run h hf (by decide) _).trans (congrArg ok (refused _ (by rw [h.opcode]; decide))),
        fun hf => (startPin_run h hf (by decide) _).trans (congrArg ok (refused _ (by rw [h.opcode]; decide))),
        fun hf => (startPin_run h hf (by decide) _).trans (congrArg ok (refused _ (by rw [h.opcode]; decide)))⟩⟩
  case halted =>
    exact fun x hh hc => ⟨fun h => (runsAppend x).trans (startWrite_halted h hc hh x), fun h => (runsRead x h).trans (congrArg ok ((streamGood hc _).trans (if_pos hh)))⟩
  case append =>
    refine fun h hs hb he d hd => ⟨fun shut x => ?_, fun open7 full x => ?_, fun open7 free fits energy e u hE hu => ?_⟩
    · rw [runsAppend, h.appends hs hb he hd, askGeneral_refused shut]
      rfl
    · rw [runsAppend, h.appends hs hb he hd, askGeneral_held open7 full]
      rfl
    · have run (x : Xfer) : append x = ok (u.moveIn e c.length x) := by
        rw [runsAppend, h.appends hs hb he hd, askGeneral_granted open7 free fits energy]
        subst hu hE hd
        rfl
      have opE : e.opcode = 4 := by subst hE hd; exact h.start.opcode
      have list : e.listOk c.length segs = c.listOk c.length segs := by subst hE hd; rfl
      have runsE (b : Bytes) : e.runs c.length b = c.runs c.length b := by subst hE hd; rfl
      have granted : e.units = units ∧ e.fromReserve = false := by subst hE; exact ⟨rfl, rfl⟩
      have place : e.ring = c.ring ∧ e.volume = c.volume := by subst hE hd; exact ⟨rfl, rfl⟩
      have fields : e.length = c.length ∧ ∀ i k, e.b i k = c.b i k := by subst hE hd; exact ⟨rfl, fun _ _ => rfl⟩
      have vol : (u.vol v).isSealed = (s.vol v).isSealed := by subst hu; rfl
      clear hE hu hd
      obtain ⟨given, part⟩ := granted
      obtain ⟨ring, volume⟩ := place
      obtain ⟨length, bytes⟩ := fields
      have done (hl : c.listOk c.length segs = true) : append (.done segs data) = ok (u.applyAppend e data) :=
        (run _).trans (congrArg ok (appendIn_done opE (list.trans hl)))
      refine ⟨fun hl => ⟨fun early => ?_, fun first notSealed => ⟨fun full => ?_, fun k fit => ?_⟩, ?_⟩, fun hl x hx => ?_, ?_⟩
      · exact (done hl).trans (congrArg ok (if_pos early))
      · have full' := acceptNow_full (u := u) (c := e) (data := data) (by rw [volume]; exact vol.trans notSealed) (by rw [volume, length]; exact full)
        rw [done hl, State.applyAppend, if_neg (by simp [first]), full', given, part, ring, volume]
        rfl
      · have fits' := acceptNow_fits (u := u) (c := e) (data := data) (by rw [volume]; exact vol.trans notSealed) (by rw [volume, length]; exact fit)
        simp only [given, part, ring, volume, length, bytes] at fits'
        refine ⟨_, (done hl).trans (congrArg ok ((if_neg (by simp [first])).trans ?_)), _, accept_appended u v k units _ c.ring (c.b 28 1) false 0 e.granted, rfl⟩
        rw [fits', ring, volume]
      · have moved := appendIn_issued (u := u) opE (list.trans hl)
        rw [runsE, bytes] at moved
        exact (run _).trans (congrArg ok moved)
      · have moved := appendIn_bad (u := u) opE (list.trans hl) x hx
        rw [given, part, ring, volume] at moved
        exact (run _).trans (congrArg ok moved)
      · have moved := appendIn_faulted (u := u) opE (n := c.length) off code
        rw [runsE, ring, volume] at moved
        exact (run _).trans (congrArg ok moved)
  case sealed => exact fun h hc => (h.run _).trans (congrArg ok (startSeal_eq hc))
  case read =>
    intro h u recs oldest q hu hf ho hq result
    have run (x : Xfer) := (runsRead x h.start).trans (congrArg ok (startReadStream_eq h media hu hf ho hq x))
    refine ⟨fun hl => ⟨(run _).trans (congrArg ok (if_pos hl)), (run _).trans (congrArg ok (moveOut_issued hl))⟩, fun hl x hx => ?_, run _⟩
    rcases hx with rfl | rfl
    · exact (run _).trans (congrArg ok (if_neg (by simp [hl])))
    · exact (run _).trans (congrArg ok (moveOut_bad hl))
  case pinSeq =>
    refine pinned _ _ _ _ fun h hc hf => (startPin_run h hf (by decide) _).trans (congrArg ok (startPinSeq_eq hc))
  case pinTime => exact pinned _ _ _ _ fun h hc hf => (startPin_run h hf (by decide) _).trans (congrArg ok (startPinTime_eq hc))
  case release =>
    intro h hc hf mine
    have run : exec (.pinRelease n tag) s = ok (if s.nv.pins.any mine = true then
        ({ s.commit with nv := { s.nv with pins := s.nv.pins.filter fun p => !mine p } } : State).complete c 0 [] else s.complete c 0x0201 []) := by
      refine (startPin_run h hf (by decide) _).trans (congrArg ok ((streamGood hc _).trans ?_))
      rw [← commit_pins]
    exact ⟨fun absent => run.trans (congrArg ok (if_neg (by simp [absent]))), fun held => run.trans (congrArg ok (if_pos held))⟩

end Sys2Proof.Machine
end

section
/-! PROOFS. Fabric frames (O44). -/

namespace Sys2Proof.Machine

section Frames
variable {u : State} {c : Nat} {h : Bytes}

theorem late_counts (u : State) (l : Bool) : (if l = true then Counts u 0x21 (if l = true then u.late else u) else (if l = true then u.late else u) = u) ∧
    ∀ c, (if l = true then u.late else u).conn c = u.conn c := by
  cases l with
  | true => exact ⟨⟨_, .refl _, .refl _⟩, fun c => conn_of_fab (State.bump_steady _ _).fab c⟩
  | false => exact ⟨rfl, fun _ => rfl⟩

theorem hZero_iff (h : Bytes) (i n : Nat) : hZero h i n = true ↔ beAt h i n = 0 := decide_eq_true_iff

/-! ### ACK and NAK -/

def AckForm (h : Bytes) : Prop := formOk h = true ∧ h.length = 48 ∧ beAt h 16 1 = 0 ∧ beAt h 26 2 = 0 ∧ beAt h 36 12 = 0

/-- What an ACK does (R435, R438). -/
theorem actAck_facts (late : Bool) :
    (¬ AckForm h → u.actAck c h late = u.violation c) ∧ (AckForm h → (u.conn c).st ≠ 3 → u.actAck c h late = u) ∧
    (AckForm h → (u.conn c).st = 3 → u.actAck c h late = ((if late then u.late else u).acknowledge c (beAt h 17 3) State.cairnAcked).rekey c) := by
  have form : (¬ formOk h ∨ h.length ≠ 48 ∨ ¬ hZero h 16 1 ∨ ¬ hZero h 26 2 ∨ ¬ hZero h 36 12) ↔ ¬ AckForm h := by
    simp only [hZero_iff, AckForm, Classical.not_and_iff_not_or_not, ne_eq]
  exact ⟨fun bad => if_pos (form.mpr bad), fun good idle => (if_neg (fun k => form.mp k good)).trans (if_pos idle),
    fun good up => (if_neg (fun k => form.mp k good)).trans (if_neg (fun k => k up))⟩

/-- What an acknowledgement frees (R435). -/
theorem acknowledge_facts (psn : Nat) (done : State → OMsg → State) {x : Conn} (hx : u.conn c = x) : let d := (psn + 2 ^ 24 - x.una % 2 ^ 24) % 2 ^ 24
    (64 ≤ d ∨ x.top < x.una + d + 1 → u.acknowledge c psn done = u) ∧
    (d < 64 → x.una + d + 1 ≤ x.top → u.acknowledge c psn done = State.pump ((x.outq.filter fun m => m.psn + m.packets ≤ x.una + d + 1).foldl done
      (u.setConn c { x with una := x.una + d + 1, snd := max x.snd (x.una + d + 1), tries := 0, movedOnce := false
                            outq := x.outq.filter fun m => x.una + d + 1 < m.psn + m.packets })) c 64) := by
  subst hx
  exact ⟨fun stale => if_pos stale, fun near sent => if_neg (by omega)⟩

def NakForm (h : Bytes) : Prop := formOk h = true ∧ h.length = 48 ∧ 1 ≤ beAt h 16 1 ∧ beAt h 16 1 ≤ 12 ∧ beAt h 30 18 = 0

/-- What a NAK does (R436, R459). -/
theorem actNak_facts {x : Conn} (hx : u.conn c = x) : let code := beAt h 16 1
    let hint := beAt h 24 4
    let d := (beAt h 17 3 + 2 ^ 24 - x.una % 2 ^ 24) % 2 ^ 24
    let t := u.actNak c h
    (¬ NakForm h → t = u.violation c) ∧ (NakForm h → x.st ≠ 3 → t = u) ∧
    (NakForm h → x.st = 3 → (code = 1 → t = State.rekey (State.pump (u.setConn c { x with snd := x.una, holdUntil := 0 }) c 64) c) ∧
      (2 ≤ code → code ≤ 5 → (64 ≤ d ∨ x.top ≤ x.una + d → t = u) ∧
        (d < 64 → x.una + d < x.top → t = u.setConn c { x with snd := x.una + d, holdHello := decide (hint = 0xFFFFFFFF)
                                                               holdUntil := if hint = 0xFFFFFFFF then 0 else u.time.uptime + usTicks hint })) ∧
      (6 ≤ code → t = (u.acknowledge c (beAt h 17 3) fun y m => if m.cairn = 0 then y else y.cairnBroken (m.cairn - 1) 4).rekey c)) := by
  intro code hint d t
  have form : (¬ formOk h ∨ h.length ≠ 48 ∨ beAt h 16 1 = 0 ∨ 12 < beAt h 16 1 ∨ ¬ hZero h 30 18) ↔ ¬ NakForm h := by
    simp only [hZero_iff, NakForm, Classical.not_and_iff_not_or_not, ne_eq, Nat.not_le, Nat.lt_one_iff]
  subst hx
  refine ⟨fun bad => if_pos (form.mpr bad), fun good idle => (if_neg (fun k => form.mp k good)).trans (if_pos idle), fun good up => ?_⟩
  have run : t = if code = 1 then (u.goBack c).rekey c else if code ≤ 5 then u.holdMessage c (beAt h 17 3) hint
      else (u.acknowledge c (beAt h 17 3) fun t m => if m.cairn = 0 then t else t.cairnBroken (m.cairn - 1) 4).rekey c :=
    (if_neg (fun k => form.mp k good)).trans (if_neg (fun k => k up))
  refine ⟨fun again => run.trans (if_pos again), fun low high => ?_, fun terminal => run.trans ((if_neg (by omega)).trans (if_neg (by omega)))⟩
  have held := run.trans ((if_neg (by omega)).trans (if_pos high))
  exact ⟨fun stale => held.trans (if_pos stale), fun near sent => held.trans (if_neg (by omega))⟩

/-! ### HELLO -/

def HelloForm (h : Bytes) : Prop := formOk h = true ∧ h.length = 48 ∧ beAt h 16 1 ≤ 3 ∧ bits (beAt h 17 1) 7 1 = 0 ∧ beAt h 18 2 = 0 ∧ beAt h 44 4 = 0

/-- What a HELLO does (R433, R461 to R464). -/
theorem actHello_facts (p : Nat) {x : Conn} (hx : u.conn c = x) : let kind := beAt h 16 1
    let t := u.actHello c p h
    (¬ HelloForm h → t = u.violation c) ∧ (HelloForm h → kind = 2 → t = u) ∧ (HelloForm h → x.quarantined = true → t = u) ∧
    (HelloForm h → x.quarantined = false → (kind = 0 → t = u.answerHello c p h) ∧
      (kind = 1 → x.st ≠ 2 → t = u) ∧ (kind = 1 → x.st = 2 → t = u.connUp c p
        (if connSealed (u.connEntry c) then some (sessionKey (u.connKey c) x.nonce (slice h 24 16) c (hScid h)) else none)) ∧
      (kind = 3 → t = if x.st = 3 then u.connDown c else u)) := by
  intro kind t
  have form : (¬ formOk h ∨ h.length ≠ 48 ∨ 3 < beAt h 16 1 ∨ bits (beAt h 17 1) 7 1 ≠ 0 ∨ ¬ hZero h 18 2 ∨ ¬ hZero h 44 4) ↔ ¬ HelloForm h := by
    simp only [hZero_iff, HelloForm, Classical.not_and_iff_not_or_not, ne_eq, Nat.not_le]
  subst hx
  have still (good : HelloForm h) (held : (u.conn c).quarantined = true ∧ kind ≠ 2) : t = u := (if_neg (fun k => form.mp k good)).trans (if_pos held)
  have run (good : HelloForm h) (free : ¬ ((u.conn c).quarantined = true ∧ kind ≠ 2)) (n : Nat) : kind = n → t = match n with
      | 0 => u.answerHello c p h
      | 1 => if (u.conn c).st = 2 then u.connUp c p
          (if connSealed (u.connEntry c) then some (sessionKey (u.connKey c) (u.conn c).nonce (slice h 24 16) c (hScid h)) else none) else u
      | 2 => u
      | _ => if (u.conn c).st = 3 then u.connDown c else u := by
    intro hn
    refine (if_neg (fun k => form.mp k good)).trans ((if_neg free).trans ?_)
    obtain rfl : beAt h 16 1 = n := hn
    generalize beAt h 16 1 = n
    match n with
    | 0 => rfl
    | 1 => rfl
    | 2 => rfl
    | n + 3 => rfl
  refine ⟨fun bad => if_pos (form.mpr bad), fun good report => run good (by simp [report]) 2 report, fun good held => ?_, fun good free => ?_⟩
  · by_cases report : kind = 2
    · exact run good (by simp [report]) 2 report
    · exact still good ⟨held, report⟩
  · have runs := run good (by simp [free])
    exact ⟨fun ask => runs 0 ask, fun answer other => (runs 1 answer).trans (if_neg other), fun answer asked => (runs 1 answer).trans (if_pos asked), fun down => runs 3 down⟩

/-! ### Packets in and out of order -/

theorem answerAgain_none (h0 : hLast h = false ∨ (u.conn c).replies.find? (fun r => r.1 == hPsn h) = none) : u.answerAgain c h = u := by
  unfold State.answerAgain
  rcases h0 with h0 | h0
  · rw [if_pos (by simp [h0])]
  · rw [h0]
    exact ite_self _

theorem answerAgain_some {r : Nat × Nat × Bytes} (last : hLast h = true) (found : (u.conn c).replies.find? (fun r => r.1 == hPsn h) = some r) :
    u.answerAgain c h = u.sendSession c r.2.1 0 0 r.2.2 [] := by
  unfold State.answerAgain
  rw [if_neg (by simp [last]), found]

/-- What any other packet does (R431, R439, R446). -/
theorem actFrame_facts (p : Nat) (a : Arrival) (media : List (Nat × Media)) {x : Conn} (hx : u.conn c = x) (ho : hOp h ≠ 16 ∧ hOp h ≠ 17 ∧ hOp h ≠ 32) :
    let d := (hPsn h + 2 ^ 24 - x.epsn) % 2 ^ 24
    let t := u.actFrame c p h a media
    (x.quarantined = true → t = u.quarantineNak c h) ∧ (x.quarantined = false → x.st ≠ 3 → t = u) ∧
    (x.quarantined = false → x.st = 3 → d ≠ 0 →
      (d ≤ 2 ^ 23 → x.nakSent = true → t = u) ∧
      (d ≤ 2 ^ 23 → x.nakSent = false →
        t = (u.setConn c { x with nakSent := true, seqNaks := min 0xFFFF (x.seqNaks + 1) }).sendSession c 0x11 0 0 (nakBody 1 x.epsn 0 0 0) []) ∧
      (2 ^ 23 < d → (hLast h = false ∨ x.replies.find? (fun r => r.1 == hPsn h) = none → t = u) ∧
        (hLast h = true → ∀ r, x.replies.find? (fun r => r.1 == hPsn h) = some r → t = u.sendSession c r.2.1 0 0 r.2.2 []))) ∧
    (x.quarantined = false → x.st = 3 → d = 0 → hOp h ≠ 1 → hOp h ≠ 3 → hOp h ≠ 5 →
      t = (((u.setConn c { x with port := p, nakSent := false, acted := min 0xFFFFFFFF (x.acted + 1) }).nakTerminal c 9 (hPsn h) (hMsn h)).violation c).rekey c) := by
  intro d t
  subst hx
  obtain ⟨noAck, noNak, noHello⟩ := ho
  let act (t : State) : State :=
    (if hOp h = 0x01 then t.actAppend c h else if hOp h = 0x03 then t.actRead c h media else if hOp h = 0x05 then t.actSend c h else t.malformed c h).rekey c
  have run : t = if (u.conn c).quarantined = true then u.quarantineNak c h else u.inOrder c p h act :=
    (if_neg noAck).trans ((if_neg noNak).trans (if_neg noHello))
  have free (hq : (u.conn c).quarantined = false) : t = u.inOrder c p h act := run.trans (if_neg (by simp [hq]))
  have up (hq : (u.conn c).quarantined = false) (hs : (u.conn c).st = 3) := (free hq).trans (if_neg (fun k => k hs))
  refine ⟨fun hq => run.trans (if_pos hq), fun hq hs => (free hq).trans (if_pos hs), fun hq hs gap => ⟨fun ahead sent => ?_, fun ahead sent => ?_, fun old => ?_⟩, fun hq hs next n1 n3 n5 => ?_⟩
  · exact (up hq hs).trans ((if_neg gap).trans ((if_pos ahead).trans (if_pos sent)))
  · exact (up hq hs).trans ((if_neg gap).trans ((if_pos ahead).trans (if_neg (by simp [sent]))))
  · have again := (up hq hs).trans ((if_neg gap).trans (if_neg (by omega)))
    refine ⟨fun none => again.trans (answerAgain_none none), fun last r found => again.trans (answerAgain_some last found)⟩
  · refine (up hq hs).trans ((if_pos next).trans (congrArg (fun t : State => t.rekey c) ?_))
    exact (if_neg n1).trans ((if_neg n3).trans (if_neg n5))

end Frames

/-- Settles O44. What each frame does is said of its handler; `arrive_drops` and `arrive_passes` lead to it. -/
theorem fabricFrames : Obligations.FabricFrames := by
  unfold Obligations.FabricFrames
  intro s p f a media rows other e prio fill q counted dropped
  have ops : rows.map (fun r => r.1) = [1, 3, 5, 16, 17, 32] := rfl
  have drops (fcs : Bool) (m : List (Nat × Media)) (r : Host.Outcome State Fault Refusal) (hr : r = ok (s.arrive q f fcs a m)) : dropped r fcs :=
    arrive_drops s q f fcs a m r hr
  have plain (fcs : Bool) (h : fcs = false ∨ frameOp f ∉ rows.map (fun r => r.1)) : other fcs = ok (s.arrive q f fcs a []) := by
    rw [ops] at h
    refine if_neg fun known => ?_
    rcases h with bad | unknown
    · exact absurd known.1 (by simp [bad])
    · exact unknown (by simpa [ilideOps] using known.2)
  have byOp : ∀ r ∈ rows, ∃ m, exec r.2 s = s.arriveOp r.1 q f a m := by
    intro r hr
    simp only [rows, List.mem_cons, List.not_mem_nil, or_false] at hr
    rcases hr with rfl | rfl | rfl | rfl | rfl | rfl <;> exact ⟨_, rfl⟩
  have taken (i : Instr) (op : Nat) (hi : (op, i) ∈ rows) (ho : frameOp f = op) : ∃ m, exec i s = ok (s.arrive q f true a m) := by
    obtain ⟨m, run⟩ := byOp _ hi
    exact ⟨m, run.trans (if_pos ho)⟩
  refine ⟨fun r hr => ⟨fun ho => ?foreign, fun ho => ?dropped⟩, fun known => if_pos ?known, fun fcs h => drops fcs [] _ (plain fcs h), fun u c h ar pa x hx => ?acts⟩
  case foreign =>
    obtain ⟨m, run⟩ := byOp r hr
    exact run.trans (if_neg ho)
  case dropped =>
    obtain ⟨m, run⟩ := taken r.2 r.1 hr ho
    exact drops true m _ run
  case known => exact ⟨rfl, by simpa [ilideOps, ops] using known⟩
  case acts =>
    intro late zero
    have opcode : hOp h = frameOp f := frame_op rfl pa.head pa.code
    have acts (i : Instr) (op : Nat) (hi : (op, i) ∈ rows) (ho : frameOp f = op) :
        ∃ m, exec i s = ok ((if a.late = true ∧ hOp h ≠ 16 then u.late else u).actFrame c q h a m) := by
      obtain ⟨m, run⟩ := taken i op hi ho
      exact ⟨m, run.trans (congrArg ok (arrive_passes ar pa m))⟩
    have lateFacts (ho : hOp h ≠ 16) := late_facts u a.late (hOp h) ho _ rfl
    refine ⟨fun ho => ?ack, fun ho => ?nak, fun ho => ?hello, fun i hi => ?packet⟩
    case ack =>
      intro good psn d
      have op := opcode.trans ho
      have run : exec (.ack p f a) s = ok (u.actAck c h a.late) := by
        obtain ⟨m, run⟩ := acts (.ack p f a) 16 (by simp [rows]) ho
        rw [run, if_neg (by simp [op])]
        exact congrArg ok (if_pos op)
      obtain ⟨bad, idle, up⟩ := actAck_facts (u := u) (c := c) (h := h) a.late
      refine ⟨fun k => run.trans (congrArg ok (bad k)), fun k hs => run.trans (congrArg ok (idle k (by rw [← hx]; exact hs))),
        fun k hs => ⟨_, run.trans (congrArg ok (up k (by rw [← hx]; exact hs))), _, (late_counts u a.late).1, ?_⟩⟩
      obtain ⟨stale, frees⟩ := acknowledge_facts psn State.cairnAcked (((late_counts u a.late).2 c).trans hx.symm)
      exact ⟨fun k => congrArg (fun t : State => t.rekey c) (stale k), fun k k' => congrArg (fun t : State => t.rekey c) (frees k k')⟩
    case nak =>
      intro code hint good d
      have op := opcode.trans ho
      obtain ⟨m, run⟩ := acts (.nak p f a) 17 (by simp [rows]) ho
      obtain ⟨isLate, conns⟩ := lateFacts (by omega)
      have act : (if a.late = true ∧ hOp h ≠ 16 then u.late else u).actFrame c q h a m = (if a.late = true ∧ hOp h ≠ 16 then u.late else u).actNak c h :=
        (if_neg (by omega)).trans (if_pos op)
      exact ⟨_, run.trans (congrArg ok act), _, isLate, actNak_facts ((conns c).trans hx.symm)⟩
    case hello =>
      intro kind good
      have op := opcode.trans ho
      obtain ⟨m, run⟩ := acts (.hello p f a) 32 (by simp [rows]) ho
      obtain ⟨isLate, conns⟩ := lateFacts (by omega)
      have act : (if a.late = true ∧ hOp h ≠ 16 then u.late else u).actFrame c q h a m = (if a.late = true ∧ hOp h ≠ 16 then u.late else u).actHello c q h :=
        (if_neg (by omega)).trans ((if_neg (by omega)).trans (if_pos op))
      exact ⟨_, run.trans (congrArg ok act), _, isLate, actHello_facts q ((conns c).trans hx.symm)⟩
    case packet =>
      have act : (∃ m, exec i s = ok ((if a.late = true ∧ hOp h ≠ 16 then u.late else u).actFrame c q h a m)) ∧ frameOp f ≠ 16 ∧ frameOp f ≠ 17 ∧ frameOp f ≠ 32 := by
        rcases hi with ⟨ho, rfl⟩ | ⟨ho, rfl⟩ | ⟨ho, rfl⟩ | ⟨ho, rfl⟩
        · exact ⟨acts (.ilideAppend p f a) 1 (by simp [rows]) ho, by omega⟩
        · exact ⟨acts (.readReq p f a media) 3 (by simp [rows]) ho, by omega⟩
        · exact ⟨acts (.send p f a) 5 (by simp [rows]) ho, by omega⟩
        · obtain ⟨-, -, -, n16, n17, n32⟩ := op_else (by rwa [ops] at ho)
          exact ⟨⟨[], (plain true (.inr ho)).trans (congrArg ok (arrive_passes ar pa []))⟩, n16, n17, n32⟩
      obtain ⟨⟨m, run⟩, noAck, noNak, noHello⟩ := act
      rw [← opcode] at noAck noNak noHello
      obtain ⟨isLate, conns⟩ := lateFacts noAck
      obtain ⟨quarantined, idle, gap, next⟩ := actFrame_facts q a m ((conns c).trans hx.symm) ⟨noAck, noNak, noHello⟩
      refine ⟨_, run, _, isLate, quarantined, idle, gap, fun hq hs hd unknown => ?_⟩
      obtain ⟨n1, n3, n5, -⟩ := op_else (by rwa [ops, ← opcode] at unknown)
      exact next hq hs hd n1 n3 n5

end Sys2Proof.Machine
end

section
/-! PROOFS. Fabric requests (O45). -/

namespace Sys2Proof.Machine

section Requests
variable {w : State} {c : Nat} {h : Bytes}

/-! ### APPEND -/

def AppendForm (h : Bytes) : Prop := formOk h = true ∧ 1 ≤ hLen h ∧ hLen h ≤ 262144 ∧ beAt h 29 19 = 0

/-- How an APPEND's packet goes on, by its form and place (R431, R437). -/
theorem actAppend_facts : let t := w.actAppend c h
    let whole : Prop := (h.drop 48).length = min 4096 (hLen h)
    (¬ AppendForm h → t = w.malformed c h) ∧
    (AppendForm h → hFirst h = false → (w.conn c).inMsg = none → t = w.malformed c h) ∧
    (AppendForm h → hFirst h = false → (w.conn c).inMsg ≠ none → t = w.takeAppend c h (h.drop 48)) ∧
    (AppendForm h → hFirst h = true → (w.conn c).inMsg ≠ none ∨ ¬ whole → t = w.malformed c h) ∧
    (AppendForm h → hFirst h = true → (w.conn c).inMsg = none → whole → t = w.beginAppend c h fun t => t.takeAppend c h (h.drop 48)) := by
  intro t whole
  have form : AppendForm h ↔ formOk h = true ∧ ¬ hLen h = 0 ∧ ¬ 262144 < hLen h ∧ hZero h 29 19 = true := by
    simp only [AppendForm, hZero_iff, Nat.not_lt, Nat.one_le_iff_ne_zero, ne_eq]
  have opened : (w.conn c).inMsg.isSome = true ↔ (w.conn c).inMsg ≠ none := Option.isSome_iff_ne_none
  have refuse (bad : ¬ formOk h ∨ hFirst h = (w.conn c).inMsg.isSome ∨ hLen h = 0 ∨ 262144 < hLen h ∨ ¬ hZero h 29 19 ∨ (hFirst h ∧ ¬ whole)) :
    t = w.malformed c h := if_pos bad
  have go (good : AppendForm h) (place : hFirst h ≠ (w.conn c).inMsg.isSome) (fits : ¬ (hFirst h = true ∧ ¬ whole)) :
      t = if hFirst h = true then w.beginAppend c h fun t => t.takeAppend c h (h.drop 48) else w.takeAppend c h (h.drop 48) := by
    obtain ⟨ok, nonzero, short, zeros⟩ := form.mp good
    exact if_neg (by simp only [not_or, Classical.not_not]; exact ⟨ok, place, nonzero, short, zeros, fits⟩)
  refine ⟨fun bad => refuse ?_, fun good later none => refuse (.inr (.inl (by rw [later, none]; rfl))), fun good later some => ?_, fun good first bad => refuse ?_,
    fun good first none fits => ?_⟩
  · rw [form] at bad
    simp only [Classical.not_and_iff_not_or_not, Classical.not_not] at bad
    rcases bad with bad | bad | bad | bad
    · exact .inl bad
    · exact .inr (.inr (.inl bad))
    · exact .inr (.inr (.inr (.inl bad)))
    · exact .inr (.inr (.inr (.inr (.inl bad))))
  · exact (go good (by rw [later, opened.mpr some]; decide) (by simp [later])).trans (if_neg (by simp [later]))
  · rcases bad with bad | bad
    · exact .inr (.inl (by rw [first, opened.mpr bad]))
    · exact .inr (.inr (.inr (.inr (.inr ⟨first, bad⟩))))
  · exact (go good (by rw [first, none]; decide) (fun k => k.2 fits)).trans (if_pos first)

/-- A packet that suits the message under way (R437). -/
def Suits (h : Bytes) (m : IMsg) : Prop := let data := m.data ++ h.drop 48
  hMsn h = m.msn ∧ hLen h = m.mlen ∧ hWindow h = m.window ∧ (hLast h = true ↔ data.length = m.mlen) ∧ (data.length = m.mlen ∨ (h.drop 48).length = 4096) ∧
    data.length ≤ m.mlen

theorem takeAppend_facts {m : IMsg} (hm : (w.conn c).inMsg = some m) : let data := m.data ++ h.drop 48
    let t := w.takeAppend c h (h.drop 48)
    (¬ Suits h m → t = w.malformed c h) ∧
    (Suits h m → data.length < m.mlen → t = w.setConn c { w.conn c with inMsg := some { m with data := data }, epsn := (hPsn h + 1) % 2 ^ 24 }) ∧
    (Suits h m → data.length = m.mlen → t = w.endAppend c { m with data := data } (hPsn h)) := by
  intro data t
  have suits : Suits h m ↔ ¬ (hMsn h ≠ m.msn ∨ hLen h ≠ m.mlen ∨ hWindow h ≠ m.window ∨ hLast h ≠ decide (data.length = m.mlen) ∨
      (¬ data.length = m.mlen ∧ ¬ (h.drop 48).length = 4096) ∨ m.mlen < data.length) := by
    have last : hLast h = decide (data.length = m.mlen) ↔ (hLast h = true ↔ data.length = m.mlen) := by rw [Bool.eq_iff_iff, decide_eq_true_iff]
    simp only [Suits, not_or, Classical.not_and_iff_not_or_not, Classical.not_not, ne_eq, Nat.not_lt, last, data]
  have run : t = if hMsn h ≠ m.msn ∨ hLen h ≠ m.mlen ∨ hWindow h ≠ m.window ∨ hLast h ≠ decide (data.length = m.mlen) ∨
      (¬ data.length = m.mlen ∧ ¬ (h.drop 48).length = 4096) ∨ m.mlen < data.length then w.malformed c h
      else if data.length = m.mlen then w.endAppend c { m with data := data } (hPsn h)
      else w.setConn c { w.conn c with inMsg := some { m with data := data }, epsn := (hPsn h + 1) % 2 ^ 24 } := by
    unfold t State.takeAppend
    rw [hm]
  exact ⟨fun bad => run.trans (if_pos (Classical.not_not.mp (mt suits.mpr bad))), fun good more => run.trans ((if_neg (suits.mp good)).trans (if_neg (by omega))),
    fun good all => run.trans ((if_neg (suits.mp good)).trans (if_pos all))⟩

/-- What a first packet is refused for (R434). -/
theorem appendRefusal_facts : let d := w.connPartDef c
    let win := hWindow h
    let window : Prop := win ≤ 3 ∧ winKind d win = 1
    let range : Prop := (w.vol (winVol d win)).kind = 1 ∧ hLen h ≤ winMax d win ∧ transformOk (beAt h 26 1) (beAt h 27 1) (beAt h 28 1) (hLen h) = true
    (¬ window → w.appendRefusal c h = 7) ∧ (window → ¬ range → w.appendRefusal c h = 8) ∧ (window → range → w.appendRefusal c h = 0) := by
  intro d win window range
  have outside : (3 < win ∨ winKind d win ≠ 1) ↔ ¬ window := by simp only [window, Classical.not_and_iff_not_or_not, Nat.not_le, ne_eq]
  have beyond : ((w.vol (winVol d win)).kind ≠ 1 ∨ winMax d win < hLen h ∨ ¬ transformOk (beAt h 26 1) (beAt h 27 1) (beAt h 28 1) (hLen h) = true) ↔ ¬ range := by
    simp only [range, Classical.not_and_iff_not_or_not, Nat.not_le, ne_eq]
  exact ⟨fun k => if_pos (outside.mpr k), fun k k' => (if_neg (fun e => outside.mp e k)).trans (if_pos (beyond.mpr k')),
    fun k k' => (if_neg (fun e => outside.mp e k)).trans (if_neg (fun e => beyond.mp e k'))⟩

/-! ### READ_REQ -/

def ReadForm (h : Bytes) : Prop := formOk h = true ∧ hFirst h = true ∧ hLast h = true ∧ h.length = 48 ∧ beAt h 26 2 = 0 ∧ beAt h 40 8 = 0

/-- What a READ_REQ does (R451 to R453). -/
theorem actRead_facts (media : List (Nat × Media)) : let d := w.connPartDef c
    let win := hWindow h
    let len := hLen h
    let kind := if 3 < win then 0 else winKind d win
    let v := winVol d win
    let start := beAt h 28 8
    let t := w.actRead c h media
    let window : Prop := kind = 2 ∨ kind = 3
    let range : Prop := len ≤ winMax d win ∧ (kind = 2 → start + len ≤ 512) ∧ (kind = 3 → (w.vol v).kind = 1 ∧ 32 ≤ len ∧ len % 8 = 0)
    (¬ ReadForm h → t = w.malformed c h) ∧ (ReadForm h → ¬ window → t = w.refuse c 7 (hPsn h) h) ∧ (ReadForm h → window → ¬ range → t = w.refuse c 8 (hPsn h) h) ∧
    (ReadForm h → kind = 2 → range → t = w.respondRead c h (slice (w.statusWindow c) start len) 0 []) ∧
    (ReadForm h → kind = 3 → range → w.volLocked v = true → t = w.nakTerminal c 10 (hPsn h) (hMsn h)) ∧
    (ReadForm h → kind = 3 → range → w.volLocked v = false → t = w.readWindow c v h media) := by
  intro d win len kind v start t window range
  have form : (¬ formOk h ∨ ¬ hFirst h ∨ ¬ hLast h ∨ h.length ≠ 48 ∨ ¬ hZero h 26 2 ∨ ¬ hZero h 40 8) ↔ ¬ ReadForm h := by
    simp only [ReadForm, hZero_iff, Classical.not_and_iff_not_or_not, ne_eq]
  have outside : (kind ≠ 2 ∧ kind ≠ 3) ↔ ¬ window := by simp only [window, not_or, ne_eq]
  have beyond : (winMax d win < len ∨ (kind = 2 ∧ 512 < start + len) ∨ (kind = 3 ∧ ((w.vol v).kind ≠ 1 ∨ len < 32 ∨ len % 8 ≠ 0))) ↔ ¬ range := by
    simp only [range, Classical.not_and_iff_not_or_not, Nat.not_le, ne_eq, Classical.not_imp]
  have formed (good : ReadForm h) (inside : window) (fits : range) : t = if kind = 2 then w.respondRead c h (slice (w.statusWindow c) start len) 0 []
      else if w.volLocked v = true then w.nakTerminal c 10 (hPsn h) (hMsn h) else w.readWindow c v h media :=
    (if_neg (fun e => form.mp e good)).trans ((if_neg (fun e => outside.mp e inside)).trans (if_neg (fun e => beyond.mp e fits)))
  refine ⟨fun bad => if_pos (form.mpr bad), fun good out => (if_neg (fun e => form.mp e good)).trans (if_pos (outside.mpr out)),
    fun good inside out => (if_neg (fun e => form.mp e good)).trans ((if_neg (fun e => outside.mp e inside)).trans (if_pos (beyond.mpr out))),
    fun good k fits => (formed good (.inl k) fits).trans (if_pos k), fun good k fits locked => ?_, fun good k fits free => ?_⟩
  · exact (formed good (.inr k) fits).trans ((if_neg (by omega)).trans (if_pos locked))
  · exact (formed good (.inr k) fits).trans ((if_neg (by omega)).trans (if_neg (by simp [free])))

/-- What a stream window's read answers (R452). -/
theorem readWindow_eq (media : List (Nat × Media)) (v : Nat) : let start := beAt h 28 8
    ∃ g recs t oldest, g = w.readRecords v media ∧ recs = (g.vol v).recs.filter (fun r => start ≤ r.seq) ∧
        oldest = ((g.vol v).recs.head?.map fun r => r.seq).getD start ∧ t = streamCopy (failedOf media) (hLen h) (beAt h 36 4) recs (max start oldest) 0 ∧
        w.readWindow c v h media = g.respondRead c h t.1 t.2.2.2.2
          (natBe 8 (if recs = [] then start else t.2.2.1) ++ natBe 2 t.2.1 ++ natBe 2 (b2n (start < oldest) + 2 * b2n t.2.2.2.1)) := by
  intro start
  refine ⟨_, _, _, _, rfl, rfl, rfl, rfl, ?_⟩
  unfold State.readWindow
  dsimp only
  generalize w.readRecords v media = g
  generalize (g.vol v).recs = recs
  cases recs with
  | nil => rfl
  | cons r rs =>
    dsimp only [List.head?_cons, Option.map_some, Option.getD_some]
    generalize (r :: rs).filter (fun r => start ≤ r.seq) = from_
    cases from_ <;> rfl

/-! ### SEND -/

def SendForm (h : Bytes) : Prop := formOk h = true ∧ hFirst h = true ∧ hLast h = true ∧ hLen h ≤ 64 ∧ h.length = 48 + hLen h ∧ beAt h 25 23 = 0

theorem tokens_split (full : Prop) [Decidable full] (a b c d : Nat) : (if full then (a, c) else (b, d)) = (if full then a else b, if full then c else d) := by
  split <;> rfl

/-- What a SEND does (R447, R448). -/
theorem actSend_facts : let d := w.connPartDef c
    let e := w.connEntry c
    let tag := beAt h 24 1
    let t := w.actSend c h
    let range : Prop := partFirstTag d ≤ tag ∧ tag ≤ partLastTag d
    (¬ SendForm h → t = w.malformed c h) ∧ (SendForm h → ¬ range → t = w.refuse c 7 (hPsn h) h) ∧
    (SendForm h → range → connTrigRate e = 0 ∨ (w.tokensNow c).1 = 0 → t = w.refuse c 11 (hPsn h) h) ∧
    (SendForm h → range → connTrigRate e ≠ 0 → (w.tokensNow c).1 ≠ 0 → t =
      ((w.setConn c { w.conn c with tokens := (w.tokensNow c).1 - 1, tokenAt := (w.tokensNow c).2 }).triggerAll 1
        fun x => x.kind == 1 && x.detail == tag && (x.source == c || x.source == 0xFFFF) && x.state ≠ 0).ackOne c h) := by
  intro d e tag t range
  have form : (¬ formOk h ∨ ¬ hFirst h ∨ ¬ hLast h ∨ 64 < hLen h ∨ h.length ≠ 48 + hLen h ∨ ¬ hZero h 25 23) ↔ ¬ SendForm h := by
    simp only [SendForm, hZero_iff, Classical.not_and_iff_not_or_not, ne_eq, Nat.not_le]
  have beyond : (tag < partFirstTag d ∨ partLastTag d < tag) ↔ ¬ range := by simp only [range, Classical.not_and_iff_not_or_not, Nat.not_le]
  have taken (good : SendForm h) (inside : range) : t = if connTrigRate e = 0 ∨ (w.tokensNow c).1 = 0 then w.refuse c 11 (hPsn h) h else
      ((w.setConn c { w.conn c with tokens := (w.tokensNow c).1 - 1, tokenAt := (w.tokensNow c).2 }).triggerAll 1
        fun x => x.kind == 1 && x.detail == tag && (x.source == c || x.source == 0xFFFF) && x.state ≠ 0).ackOne c h :=
    (if_neg (fun e => form.mp e good)).trans (if_neg (fun e => beyond.mp e inside))
  exact ⟨fun bad => if_pos (form.mpr bad), fun good out => (if_neg (fun e => form.mp e good)).trans (if_pos (beyond.mpr out)),
    fun good inside none => (taken good inside).trans (if_pos none), fun good inside rate left => (taken good inside).trans (if_neg (not_or.mpr ⟨rate, left⟩))⟩

end Requests

/-- Settles O45. -/
theorem fabricRequests : Obligations.FabricRequests := by
  unfold Obligations.FabricRequests
  intro s p f a media u c h x ar pa hx hq hs hp effect len psn msn win payload refused acked ended carried
  have suits (g : State) (m : IMsg) (hm : (g.conn c).inMsg = some m) : carried g m (g.takeAppend c h payload) := by
    obtain ⟨bad, more, all⟩ := takeAppend_facts (h := h) hm
    refine ⟨bad, more, fun good whole => ?_⟩
    rw [all good whole]
    exact ended_facts g c psn { m with data := m.data ++ payload }
  have entered (i : Instr) (op : Nat) (ho : op = 1 ∨ op = 3 ∨ op = 5) (m : List (Nat × Media)) (run : exec i s = s.arriveOp op p.val f a m) (o : frameOp f = op)
      (q : State → State → Prop) (hqq : ∀ w : State, w.conn c = { x with port := p.val, nakSent := false, acted := min 0xFFFFFFFF (x.acted + 1) } →
        q w (if op = 1 then w.actAppend c h else if op = 3 then w.actRead c h m else w.actSend c h)) : effect i q := by
    refine (congrArg (fun r => Answers r _) run).mpr ?_
    exact inOrder_run ar pa hx hq hs hp o ho q hqq
  refine ⟨fun o => entered _ 1 (by decide) [] rfl o _ fun w hw => ?append, fun o => entered _ 3 (by decide) media rfl o _ fun w hw => ?read,
    fun o => entered _ 5 (by decide) [] rfl o _ fun w hw => ?send⟩
  case append =>
    rw [if_pos rfl]
    have inMsg : (w.conn c).inMsg = x.inMsg := by rw [hw]
    obtain ⟨bad, stray, later, mixed, first⟩ := actAppend_facts (w := w) (c := c) (h := h)
    rw [inMsg] at stray later mixed first
    intro d v slot last k used cls form window range free
    refine ⟨bad, fun good rest => ⟨stray good rest, fun m hm => ?_⟩, mixed, fun good head none fits => ?_⟩
    · rw [later good rest (by rw [hm]; exact Option.some_ne_none m)]
      exact suits w m (inMsg.trans hm)
    · rw [first good head none fits]
      obtain ⟨out, beyond, inside⟩ := appendRefusal_facts (w := w) (c := c) (h := h)
      have refusedBy {code : Nat} (hc : w.appendRefusal c h = code) (nonzero : code ≠ 0) (y : State)
          (hy : y = w.beginAppend c h fun t => t.takeAppend c h payload) : refused w code last y := by
        rw [hy, beginAppend_refused (by rw [hc]; exact nonzero), hc]
        rfl
      have asked (i : window) (r : range) := beginAppend_rest (c := c) (h := h) (go := fun t => t.takeAppend c h payload) (inside i r) d cls v rfl rfl rfl
      refine ⟨fun k => refusedBy (out k) (by decide) _ rfl, fun i k => refusedBy (beyond i k) (by decide) _ rfl, fun i r lock => ?_, fun i r unlocked done => ?_,
        fun i r fr off => ?_, fun i r fr on shut => ?_, fun i r fr on opened full => ?_, fun i r fr on opened units energy => ?_⟩
      · exact (asked i r).trans (if_pos lock)
      · exact (asked i r).trans ((if_neg (by simp [unlocked])).trans (if_pos done))
      all_goals
        obtain ⟨unlocked, unsealed⟩ := fr
        have open_ := (asked i r).trans ((if_neg (by simp [unlocked])).trans (if_neg (by simp [unsealed])))
      · exact open_.trans (if_pos (by simp [off]))
      · exact open_.trans ((if_neg (by simp [on])).trans (if_pos (by simp [shut])))
      · exact open_.trans ((if_neg (by simp [on])).trans ((if_neg (by simp [opened])).trans (if_pos (by simpa using full))))
      · refine ⟨_, _, rfl, rfl, ?_⟩
        have granted := open_.trans ((if_neg (by simp [on])).trans ((if_neg (by simp [opened])).trans (if_neg (not_or.mpr ⟨Classical.not_not.mpr units, Classical.not_not.mpr energy⟩))))
        rw [granted]
        exact suits _ _ (congrArg Conn.inMsg (setConn_conn _ _ _))
  case read =>
    rw [if_neg (by decide), if_pos rfl]
    obtain ⟨bad, outside, beyond, status, locked, stream⟩ := actRead_facts (w := w) (c := c) (h := h) media
    refine ⟨bad, outside, beyond, status, locked, fun good kind range free => ?_⟩
    obtain ⟨g, recs, t, oldest, hg, hr, ho, ht, eq⟩ := readWindow_eq (w := w) (c := c) (h := h) media (winVol (w.connPartDef c) win)
    exact ⟨g, recs, t, oldest, hg, hr, ho, ht, (stream good kind range free).trans eq⟩
  case send =>
    rw [if_neg (by decide), if_neg (by decide)]
    obtain ⟨bad, outside, poor, taken⟩ := actSend_facts (w := w) (c := c) (h := h)
    intro d e tag gained full form range tokens
    have now : w.tokensNow c = (tokens, if full then w.time.uptime else x.tokenAt + gained * 25000000 / max 1 (connTrigRate e)) := by
      have held : (w.conn c).tokens = x.tokens ∧ (w.conn c).tokenAt = x.tokenAt := by rw [hw]; exact ⟨rfl, rfl⟩
      unfold State.tokensNow
      dsimp only
      rw [held.1, held.2]
      exact tokens_split _ _ _ _ _
    rw [now] at poor taken
    exact ⟨bad, outside, poor, taken⟩

end Sys2Proof.Machine
end

section
/-! PROOFS. Fabric ports (O46). -/

namespace Sys2Proof.Machine

section Ports
variable {s : State} {p : Fin 2}

theorem fabUp_iff (s : State) : s.fabUp = true ↔ s.dieUp = true ∧ s.dev.minimal = false ∧ s.bas.freeze = false := by
  simp [State.fabUp, and_assoc]

/-- A frame is sent, or waits while its priority is paused (R456). -/
theorem putFrame_facts (s : State) (q i : Nat) (f : Bytes) : (s.portUp q = false ∨ s.bas.freeze = true → s.putFrame q i f = s) ∧
    (s.portUp q = true → s.bas.freeze = false → bit (s.f (Reg.portPaused q)) i = false → s.putFrame q i f = { s with out := .frame q f :: s.out }) ∧
    (s.portUp q = true → s.bas.freeze = false → bit (s.f (Reg.portPaused q)) i = true →
      s.putFrame q i f = { s with fab := { s.fab with held := s.fab.held.put (8 * q + i) (s.fab.held.get [] (8 * q + i) ++ [f]) } }) := by
  have sends (up : s.portUp q = true) (live : s.bas.freeze = false) : ¬ (¬ s.portUp q = true ∨ s.bas.freeze = true) := by simp [up, live]
  exact ⟨fun k => if_pos (by simpa using k), fun up live going => (if_neg (sends up live)).trans (if_neg (by simp [State.paused, going])),
    fun up live paused => (if_neg (sends up live)).trans (if_pos paused)⟩

/-- What a PFC frame does for one priority (R456). -/
def State.hearPfc (t : State) (q : Nat) (honoured set quanta : Nat) (i : Nat) : State :=
  if ¬ bit set i ∨ ¬ bit honoured i then t
  else if bit quanta i then t.setF (Reg.portPaused q) (withBit (t.f (Reg.portPaused q)) i true)
  else if bit (t.f (Reg.portPaused q)) i then t.releaseHeld q i
  else t

theorem hearPfc_facts (u : State) (q honoured set quanta i : Nat) : let t := u.hearPfc q honoured set quanta i
    let hears : Prop := bit set i = true ∧ bit honoured i = true
    let pausing := bit (u.f (Reg.portPaused q)) i
    let mask (b : Bool) := withBit (u.f (Reg.portPaused q)) i b
    (¬ hears → t = u) ∧ (hears → bit quanta i = true → Sets u [(Reg.portPaused q, mask true)] t) ∧
    (hears → bit quanta i = false → pausing = false → t = u) ∧
    (hears → bit quanta i = false → pausing = true → ∃ v, Sets { u with fab := { u.fab with
          held := u.fab.held.erase (8 * q + i), resumed := u.fab.resumed.put (8 * q + i) u.time.uptime } } [(Reg.portPaused q, mask false)] v ∧
      t = (u.fab.held.get [] (8 * q + i)).foldl (fun t f => t.putFrame q i f) v) := by
  intro t hears pausing mask
  have deaf : (¬ bit set i = true ∨ ¬ bit honoured i = true) ↔ ¬ hears := Classical.not_and_iff_not_or_not.symm
  have run (k : hears) : t = if bit quanta i = true then u.setF (Reg.portPaused q) (mask true) else if pausing = true then u.releaseHeld q i else u :=
    if_neg (fun e => deaf.mp e k)
  refine ⟨fun k => if_pos (deaf.mpr k), fun k pause => ?_, fun k xon going => (run k).trans ((if_neg (by simp [xon])).trans (if_neg (by simp [going]))),
    fun k xon paused => ⟨_, Sets.one _ _ _, (run k).trans ((if_neg (by simp [xon])).trans (if_pos paused))⟩⟩
  rw [run k, if_pos pause]
  exact Sets.one _ _ _

/-! ### The link -/

/-- The link of a port that takes its settings comes up (R423 to R425). -/
theorem portLinkUp_run (kx fec : Bool) : let b := s.storedItem 8 p.val
    let takes : Prop := s.fabUp = true ∧ bit (s.f Reg.portEn) p.val = true ∧ s.f (Reg.portLink p.val) < 2 ∧ portEnable b = true ∧ portMac b ≠ List.replicate 6 0 ∧
      (kx = true → portFallback b = true ∨ portOnlyKx b = true) ∧ (kx = false → portOnlyKx b = false)
    let v := ((({ s with fab := { s.fab with portCfg := s.fab.portCfg.set [] p.val b } }.setF (Reg.portLink p.val) (if kx then 3 else 2)).setF (Reg.portFec p.val)
      (b2n (fec && !kx))).record 0x5001 (Src.fab p.val) (if kx then 1000 else 10000))
    (¬ takes → exec (.portLinkUp p kx fec) s = .next s) ∧
    (takes → exec (.portLinkUp p kx fec) s = ok ((if kx = true ∧ ¬ portOnlyKx b = true then v.record 0x5003 (Src.fab p.val) else v).failPort p.val false)) := by
  intro b takes v
  have fits : (portEnable b && decide (portMac b ≠ List.replicate 6 0) && (if kx then portFallback b || portOnlyKx b else !portOnlyKx b)) = true ↔
      portEnable b = true ∧ portMac b ≠ List.replicate 6 0 ∧ (kx = true → portFallback b = true ∨ portOnlyKx b = true) ∧ (kx = false → portOnlyKx b = false) := by
    cases kx <;> simp [and_assoc]
  have stays : (¬ s.fabUp = true ∨ ¬ bit (s.f Reg.portEn) p.val = true ∨ 2 ≤ s.f (Reg.portLink p.val) ∨
      ¬ (portEnable b && decide (portMac b ≠ List.replicate 6 0) && (if kx then portFallback b || portOnlyKx b else !portOnlyKx b)) = true) ↔ ¬ takes := by
    rw [fits]
    simp only [takes, Classical.not_and_iff_not_or_not, Nat.not_lt]
  exact ⟨fun k => if_pos (stays.mpr k), fun k => if_neg (fun e => stays.mp e k)⟩

def State.writePortEnable (path : Path) (q : Nat) (on : Bool) (u : State) : State :=
  if ¬ u.fabUp then u.ignoredWrite else u.asInstaller path fun t => t.enablePort q on

theorem portEnable_asWrite (path : Path) (on : Bool) : exec (.portEnable path p on) s = s.asWrite (State.writePortEnable path p.val on) := rfl

/-- A write of a port's enable bit by a path that may make it (R454). -/
theorem portEnable_run (path : Path) (on : Bool) (mine : s.fabUp = true ∧ s.dev ≠ .recovery ∧ s.installer path = true) :
    exec (.portEnable path p on) s = ok (s.enablePort p.val on) := by
  obtain ⟨up, hr, hi⟩ := mine
  obtain ⟨hu, -, -⟩ := (fabUp_iff s).mp up
  refine (portEnable_asWrite path on).trans ((asWrite_run hu hr _).trans (congrArg ok ?_))
  exact (if_neg (Classical.not_not.mpr up)).trans (asInstaller_yes hi _)

theorem portEnable_refused (path : Path) (on : Bool) (hu : s.dieUp = true) (other : ¬ (s.fabUp = true ∧ s.dev ≠ .recovery ∧ s.installer path = true)) :
    Answers (exec (.portEnable path p on) s) (Counts s 0x03) := by
  by_cases hr : s.dev = .recovery
  · exact ⟨_, (if_neg (by simp [hu])).trans (if_pos hr), _, .refl _, .refl _⟩
  · refine ⟨_, (portEnable_asWrite path on).trans (asWrite_run hu hr _), ?_⟩
    unfold State.writePortEnable
    by_cases up : s.fabUp = true
    · rw [if_neg (Classical.not_not.mpr up), asInstaller_no (by simpa [up, hr] using other)]
      exact ⟨_, .refl _, .refl _⟩
    · rw [if_pos up]
      exact ⟨_, .refl _, .refl _⟩

theorem enablePort_on (q : Nat) (h : bit (s.f Reg.portEn) q = false) : let b := s.storedItem 8 q
    s.enablePort q true = (s.setF Reg.portEn (withBit (s.f Reg.portEn) q true)).setF (Reg.portLink q) (if portEnable b = true ∧ portMac b ≠ List.replicate 6 0 then 1 else 0) := by
  intro b
  refine (if_neg (by simp [h])).trans ((if_pos rfl).trans (congrArg ((s.setF Reg.portEn (withBit (s.f Reg.portEn) q true)).setF (Reg.portLink q)) ?_))
  unfold b2n
  simp only [Bool.and_eq_true, decide_eq_true_eq]
  rfl

/-- A PFC frame of one's own, or none on a port that sends nothing (R458). -/
def OwnPause (q i : Nat) (u : State) (on : Bool) (t : State) : Prop := ∃ v, Sets u [(Reg.portXoff q, withBit (u.f (Reg.portXoff q)) i on)] v ∧
  t = if v.portUp q = true ∧ v.bas.freeze = false then { v with out := .frame q (padTo 60 ([0x01, 0x80, 0xC2, 0, 0, 0x01] ++ portMac (v.port q) ++ natBe 2 0x8808 ++
      natBe 2 0x0101 ++ natBe 2 (2 ^ i) ++ (List.range 8).flatMap fun j => natBe 2 (if j = i ∧ on = true then 0xFFFF else 0))) :: v.out } else v

/-- What the fill of a receive buffer asks for (R458). -/
theorem noteFill_facts (q i fill : Nat) {u : State} (hu : u = { s with fab := { s.fab with
      rx := s.fab.rx.set 0 (8 * q + i) fill, limited := if fill ≤ 49152 then s.fab.limited.erase (8 * q + i) else s.fab.limited } }) :
    let asks : Prop := 49152 ≤ fill ∧ bit (s.f (Reg.portXoff q)) i = false ∧ u.fab.limited.get? (8 * q + i) = none
    let ends : Prop := fill < 24576 ∧ bit (s.f (Reg.portXoff q)) i = true
    let pfc := bit (portPfc (s.port q)) i
    (pfc = true → asks → OwnPause q i u true (s.noteFill q i fill)) ∧ (pfc = true → ends → OwnPause q i u false (s.noteFill q i fill)) ∧
    (pfc = false ∨ ¬ asks ∧ ¬ ends → s.noteFill q i fill = u) := by
  intro asks ends pfc
  have asking : (49152 ≤ fill ∧ ¬ bit (s.f (Reg.portXoff q)) i = true ∧ (u.fab.limited.get? (8 * q + i)).isNone = true) ↔ asks := by
    simp only [asks, Bool.not_eq_true, Option.isNone_iff_eq_none]
  rw [noteFill_eq s q i fill u hu]
  refine ⟨fun h k => ?_, fun h k => ?_, fun k => ?_⟩
  · rw [if_neg (Classical.not_not.mpr h), if_pos (asking.mpr k)]
    exact ownPause_sets u q i true
  · rw [if_neg (Classical.not_not.mpr h), if_neg (by have := k.1; omega), if_pos k]
    exact ownPause_sets u q i false
  · rcases k with k | ⟨k, k'⟩
    · exact if_pos (by simpa [pfc] using k)
    · rw [if_neg (fun e => k (asking.mp e)), if_neg k']
      exact ite_self _

end Ports

/-- Settles O46. -/
theorem fabricPorts : Obligations.FabricPorts := by
  unfold Obligations.FabricPorts
  intro s p q link moved down fails noMac
  have goes (n : Nat) (u : State) : down n u (u.portDown q n) := portDown_down u p n
  have failing (on : Bool) (u : State) : fails on u (u.failPort q on) := failPort_fails u q on
  refine ⟨fun kx fec => ?up, fun h => if_pos ?still, fun hu hm hl => ⟨_, if_neg ?linked, _, _, ⟨_, .refl _, .refl _⟩, goes _ _, failing _ _⟩, fun path on => ?enable,
    fun set quanta => ?pfc, putFrame_facts s q, fun i => ?pauses⟩
  case up =>
    intro b takes
    obtain ⟨stays, run⟩ := portLinkUp_run (s := s) (p := p) kx fec
    refine ⟨stays, fun k => ⟨_, run k, ({ s with fab := { s.fab with portCfg := s.fab.portCfg.set [] q b } }.setF link (if kx then 3 else 2)).setF (Reg.portFec q) (b2n (fec && !kx)),
      _, _, ?_, ⟨_, .refl _, .refl _⟩, ?_, failing _ _⟩⟩
    · have fecs : b2n (fec && !kx) = if fec = true ∧ kx = false then 1 else 0 := by cases fec <;> cases kx <;> rfl
      rw [fecs]
      exact (Sets.one _ _ _).more _ _ (by simpa using (portKeys p).2.2.2.1)
    · by_cases back : kx = true ∧ portOnlyKx b = false
      · rw [if_pos back, if_pos (c := kx = true ∧ ¬ portOnlyKx b = true) (by simpa using back)]
        exact ⟨_, .refl _, .refl _⟩
      · rw [if_neg back, if_neg (c := kx = true ∧ ¬ portOnlyKx b = true) (by simpa using back)]
  case still => simpa [or_assoc] using h
  case linked =>
    exact not_or.mpr ⟨Classical.not_not.mpr hu, not_or.mpr ⟨by simp [hm], Nat.not_lt.mpr hl⟩⟩
  case enable =>
    intro was b mine
    refine ⟨fun hu => if_pos (by simp [hu]), portEnable_refused path on, fun k e => (portEnable_run path on k).trans (congrArg ok (if_pos e)), fun k off e => ?_, fun k wasOn e => ?_⟩
    · subst e
      rw [portEnable_run path true k, enablePort_on q off]
      exact ⟨_, rfl, (Sets.one s _ _).more _ _ (by simpa using (portKeys p).2.2.2.2)⟩
    · subst e
      rw [portEnable_run path false k]
      exact ⟨_, congrArg ok ((if_neg (fun e : was = false => by simp [wasOn] at e)).trans (if_neg (by decide))), _, _, goes _ _, Sets.one _ _ _, failing _ _⟩
  case pfc =>
    refine ⟨fun h => if_pos (by simpa using h), fun up linked => ⟨fun t i => t.hearPfc q (portPfc (s.port q)) set.toNat quanta.toNat i, if_neg (by simp [up, q] at linked ⊢; exact linked), fun u i => ?_⟩⟩
    exact hearPfc_facts u q (portPfc (s.port q)) set.toNat quanta.toNat i
  case pauses =>
    intro wd own ownPause key
    have paused : (¬ s.fabUp = true ∨ ¬ s.paused q i.val = true) ↔ ¬ wd := Classical.not_and_iff_not_or_not.symm
    refine ⟨fun k => if_pos (paused.mpr k), fun k => ⟨_, if_neg (fun e => paused.mp e k), _, _, _, ⟨_, .refl _, .refl _⟩, ⟨_, .refl _, .refl _⟩, Sets.one _ _ _, rfl⟩,
      fun k => if_pos (by simpa [own] using k), fun up on => ⟨_, if_neg (by simp [up]; exact on), _, _, ownPause_sets s q i.val false, ⟨_, .refl _, .refl _⟩, rfl⟩,
      fun fill => ⟨_, rfl, noteFill_facts q i.val fill rfl⟩⟩

end Sys2Proof.Machine
end

section
/-! PROOFS. Fabric connections (O47). -/

namespace Sys2Proof.Machine

section Connections
variable {s : State} {c : Fin 256}

/-! ### Timers -/

def TimeoutDue (s : State) (n : Nat) : Prop :=
  s.fabUp = true ∧ (s.conn n).st = 3 ∧ (s.conn n).una < (s.conn n).top ∧ (s.conn n).holdHello = false ∧ (s.conn n).holdUntil ≤ s.time.uptime

/-- How a retransmission timeout goes on (R435, R440, R441). -/
theorem retransmitTimeout_run : let n := c.val
    let x := s.conn n
    let timed := s.setConn n { x with rtos := min 0xFFFF (x.rtos + 1), tries := x.tries + 1 }
    let r := exec (.retransmitTimeout c) s
    (¬ TimeoutDue s n → r = .next s) ∧ (TimeoutDue s n → x.holdUntil ≠ 0 → r = .next ((s.setConn n { x with holdUntil := 0 }).pump n 64)) ∧
    (TimeoutDue s n → x.holdUntil = 0 → x.tries + 1 < connRetry (s.connEntry n) → r = .next (timed.goBack n)) ∧
    (TimeoutDue s n → x.holdUntil = 0 → connRetry (s.connEntry n) ≤ x.tries + 1 → r = .next (timed.retryLimit n)) := by
  intro n x timed r
  have early : (¬ s.fabUp = true ∨ x.st ≠ 3 ∨ x.top ≤ x.una ∨ x.holdHello = true ∨ s.time.uptime < x.holdUntil) ↔ ¬ TimeoutDue s n := by
    simp only [TimeoutDue, Classical.not_and_iff_not_or_not, Nat.not_lt, Nat.not_le, ne_eq, Bool.not_eq_false, x]
  have due (k : TimeoutDue s n) : r = if x.holdUntil ≠ 0 then ok ((s.setConn n { x with holdUntil := 0 }).pump n 64)
      else ok (if connRetry (s.connEntry n) ≤ x.tries + 1 then timed.retryLimit n else timed.goBack n) := if_neg (fun e => early.mp e k)
  exact ⟨fun k => if_pos (early.mpr k), fun k held => (due k).trans (if_pos held),
    fun k free few => (due k).trans ((if_neg (Classical.not_not.mpr free)).trans (congrArg ok (if_neg (by omega)))),
    fun k free many => (due k).trans ((if_neg (Classical.not_not.mpr free)).trans (congrArg ok (if_pos many)))⟩

/-- An expired assembly drops its message and returns ePSN to its first packet (R440). -/
theorem assemblyTimeout_run {m : IMsg} (up : s.fabUp = true) (hm : (s.conn c.val).inMsg = some m) :
    exec (.assemblyTimeout c) s = ok ((s.dropIn c.val).setConn c.val { (s.dropIn c.val).conn c.val with epsn := m.firstPsn, nakSent := false }) := by
  show execAssemblyTimeout c s = _
  unfold execAssemblyTimeout
  rw [hm]
  exact if_neg (Classical.not_not.mpr up)

theorem assemblyTimeout_stays (h : s.fabUp = false ∨ (s.conn c.val).inMsg = none) : exec (.assemblyTimeout c) s = ok s := by
  show execAssemblyTimeout c s = _
  unfold execAssemblyTimeout
  cases hm : (s.conn c.val).inMsg with
  | none => rfl
  | some m => exact if_pos (by simpa [hm] using h)

/-! ### Entries -/

/-- How a synced entry takes effect (R445). -/
theorem applyEntry_facts (n : Nat) (b : Bytes) : let u : State := { s with tab := { s.tab with conn := s.tab.conn.set [] n b, connNext := s.tab.connNext.erase n } }
    let same : Prop := connValid b = false ∨ connValid (s.connEntry n) = true ∧ connBinding (s.connEntry n) = connBinding b
    (same → s.applyEntry n b = u) ∧ (¬ same → s.dev.serves = true → s.applyEntry n b = u.connDown n) ∧
    (¬ same → s.dev.serves = false → s.applyEntry n b = u.setConn n { s.conn n with st := 1, port := connPref b }) := by
  intro u same
  have keeps : (¬ connValid b = true ∨ (connValid (s.connEntry n) = true ∧ (connBinding (s.connEntry n) == connBinding b) = true)) ↔ same := by
    simp only [same, Bool.not_eq_true, beq_iff_eq]
  exact ⟨fun k => if_pos (keeps.mpr k), fun k serves => (if_neg (fun e => k (keeps.mp e))).trans (if_pos serves),
    fun k off => (if_neg (fun e => k (keeps.mp e))).trans (if_neg (fun e : s.dev.serves = true => by simp [off] at e))⟩

theorem connectionBoundary_none {forced : Bool} (h : s.tab.connNext.get? c.val = none) : exec (.connectionBoundary c forced) s = ok s := by
  show execConnectionBoundary c forced s = _
  unfold execConnectionBoundary
  rw [h]

theorem connectionBoundary_some {forced : Bool} {b : Bytes} (h : s.tab.connNext.get? c.val = some b) : exec (.connectionBoundary c forced) s =
    if ¬ s.fabUp ∨ (¬ forced ∧ ¬ (s.conn c.val).atBoundary) then ok s else ok (s.applyEntry c.val b) := by
  show execConnectionBoundary c forced s = _
  unfold execConnectionBoundary
  rw [h]

/-! ### Quarantine -/

def State.writeQuarantineClear (path : Path) (v : Nat) (u : State) : State :=
  if ¬ u.fabUp then u.ignoredWrite else u.asInstaller path fun t => t.clearQuarantine v

theorem quarantineClear_asWrite (path : Path) (value : Word) : exec (.quarantineClear path value) s = s.asWrite (State.writeQuarantineClear path value.toNat) := rfl

theorem quarantineClear_run (path : Path) (value : Word) (mine : s.fabUp = true ∧ s.dev ≠ .recovery ∧ s.installer path = true) :
    exec (.quarantineClear path value) s = ok (s.clearQuarantine value.toNat) := by
  obtain ⟨up, hr, hi⟩ := mine
  obtain ⟨hu, -, -⟩ := (fabUp_iff s).mp up
  refine (quarantineClear_asWrite path value).trans ((asWrite_run hu hr _).trans (congrArg ok ?_))
  exact (if_neg (Classical.not_not.mpr up)).trans (asInstaller_yes hi _)

theorem quarantineClear_refused (path : Path) (value : Word) (hu : s.dieUp = true) (other : ¬ (s.fabUp = true ∧ s.dev ≠ .recovery ∧ s.installer path = true)) :
    Answers (exec (.quarantineClear path value) s) (Counts s 0x03) := by
  by_cases hr : s.dev = .recovery
  · exact ⟨_, (if_neg (by simp [hu])).trans (if_pos hr), _, .refl _, .refl _⟩
  · refine ⟨_, (quarantineClear_asWrite path value).trans (asWrite_run hu hr _), ?_⟩
    unfold State.writeQuarantineClear
    by_cases up : s.fabUp = true
    · rw [if_neg (Classical.not_not.mpr up), asInstaller_no (by simpa [up, hr] using other)]
      exact ⟨_, .refl _, .refl _⟩
    · rw [if_pos up]
      exact ⟨_, .refl _, .refl _⟩

/-- What a violation leaves (R461). -/
theorem violation_facts (n : Nat) : let x := s.conn n
    let sec := s.time.uptime / 25000000
    let k := if x.vioSec = sec then x.vioNow + 1 else 1
    ∃ u, Counts (s.setConn n { x with violations := min 0xFFFF (x.violations + 1), vioSec := sec, vioNow := k }) 0x3D u ∧
      if partThresh (s.connPartDef n) ≤ k ∧ x.quarantined = false then ∃ v w, MessageDropped n u v ∧
        Logs (v.setConn n { v.conn n with quarantined := true, lastQNak := none }) 0x5040 Src.ilide n 0 0 0 w ∧ Counts w 0x3E (s.violation n)
      else s.violation n = u := by
  intro x sec k
  let u := (s.setConn n { x with violations := min 0xFFFF (x.violations + 1), vioSec := sec, vioNow := k }).bump 0x3D
  refine ⟨u, ⟨_, .refl _, .refl _⟩, ?_⟩
  by_cases many : partThresh (s.connPartDef n) ≤ k ∧ x.quarantined = false
  · rw [if_pos many]
    have run : s.violation n = (((u.dropIn n).setConn n { (u.dropIn n).conn n with quarantined := true, lastQNak := none }).record 0x5040 Src.ilide n).bump 0x3E :=
      if_pos (by simpa using many)
    rw [run]
    exact ⟨_, _, (dropIn_dropped u n).1, ⟨_, .refl _, .refl _⟩, _, .refl _, .refl _⟩
  · rw [if_neg many]
    exact if_neg (by simpa using many)

end Connections

/-- Settles O47. -/
theorem fabricConnections : Obligations.FabricConnections := by
  unfold Obligations.FabricConnections
  intro s c n x back nonced nonce barred hello request dropped down moves due timed retry ends
  obtain ⟨early, resend, again, limit⟩ := retransmitTimeout_run (s := s) (c := c)
  obtain ⟨retryDown, retryMove⟩ := retry_eq timed n { x with rtos := min 0xFFFF (x.rtos + 1), tries := x.tries + 1 } (setConn_conn _ _ _)
  have may : s.mayHello n = true ↔ ¬ barred s := mayHello_iff s n
  refine ⟨early, resend, again, fun k free many moved => ?retryDown, fun k free many still => ?retryMove, fun k => assemblyTimeout_stays k, fun up m hm => ?assembly,
    fun k => if_pos ?silent, fun up hs free => ?keepalive, fun down => if_neg (by simp [down]), fun up => ⟨_, if_pos up, failover_moves n s⟩, ?hello, fun forced => ?boundary,
    ?quarantineEnd, fun path value hv => ?clear, violation_facts n⟩
  case retryDown =>
    rw [limit k free many]
    exact retryDown moved
  case retryMove =>
    rw [limit k free many]
    exact retryMove still
  case assembly =>
    obtain ⟨facts, conn⟩ := dropIn_dropped s n
    refine ⟨_, assemblyTimeout_run up hm, _, facts, ?_⟩
    rw [conn]
  case silent =>
    rw [may, Classical.not_not]
    simpa using k
  case keepalive =>
    have run : exec (.keepaliveSend c) s = ok ((s.helloNonce n).1.sendHello n x.port 2 false 0 (s.helloNonce n).2) :=
      if_neg (not_or.mpr ⟨Classical.not_not.mpr up, not_or.mpr ⟨Classical.not_not.mpr hs, Classical.not_not.mpr (may.mpr free)⟩⟩)
    rw [run, helloNonce_eq]
    exact congrArg ok (sendHello_eq _ _ _ _ _ _)
  case hello =>
    intro asks
    have early : (¬ s.fabUp = true ∨ ¬ s.dev.serves = true ∨ (x.st ≠ 1 ∧ x.st ≠ 2)) ↔ ¬ asks := by
      simp only [asks, Classical.not_and_iff_not_or_not, not_or, ne_eq]
    refine ⟨fun k => if_pos (early.mpr k), fun k => ⟨_, if_neg (fun e => early.mp e k), ?_⟩⟩
    have port : (if x.st = 1 then x.port else s.nextPort n x.port) = if x.st = 2 ∧ connAllows (s.connEntry n) (1 - x.port) = true then 1 - x.port else x.port := by
      obtain ⟨-, -, st⟩ := k
      rcases st with st | st <;> simp [st, State.nextPort]
    exact port ▸ requestHello_requested n s _
  case boundary =>
    refine ⟨connectionBoundary_none, fun b hb => ?_⟩
    intro now u same
    have run := connectionBoundary_some (forced := forced) hb
    have wait : (¬ s.fabUp = true ∨ (¬ forced = true ∧ ¬ (s.conn c.val).atBoundary = true)) ↔ ¬ now := by
      simp only [now, Classical.not_and_iff_not_or_not, not_or, x, n]
    obtain ⟨kept, bound, unserved⟩ := applyEntry_facts (s := s) n b
    have takes (k : now) := run.trans (if_neg (fun e => wait.mp e k))
    refine ⟨fun k => run.trans (if_pos (wait.mpr k)), fun k e => (takes k).trans (congrArg ok (kept e)), fun k e serves => ⟨_, (takes k).trans (congrArg ok (bound e serves)), connDown_goes n u⟩,
      fun k e off => (takes k).trans (congrArg ok (unserved e off))⟩
  case quarantineEnd =>
    intro excess
    obtain ⟨free, ended⟩ := release_facts n s
    refine ⟨fun k => ?_, fun k => ⟨_, if_pos ⟨k.1, k.2.1⟩, ended k.2.2⟩⟩
    by_cases timed : s.fabUp = true ∧ partDur (s.connPartDef c.val) ≠ 0
    · have quiet : x.quarantined = false := by simpa [excess, timed.1, show partDur (s.connPartDef n) ≠ 0 from timed.2] using k
      exact (if_pos timed).trans (congrArg ok (free quiet))
    · exact if_neg timed
  case clear =>
    intro mine clears
    obtain ⟨free, ended⟩ := release_facts n s
    have named : s.clearQuarantine value.toNat = if bit value.toNat 31 = true then s.release n else s := by rw [← hv]; rfl
    refine ⟨fun hu => if_pos (by simp [hu]), quarantineClear_refused path value, fun k stays => (quarantineClear_run path value k).trans (congrArg ok ?_),
      fun k clear => ⟨_, quarantineClear_run path value k, ?_⟩⟩
    · rw [named]
      by_cases asked : bit value.toNat 31 = true
      · exact (if_pos asked).trans (free (by simpa [clears, asked] using stays))
      · exact if_neg asked
    · rw [named, if_pos clear.1]
      exact ended clear.2

end Sys2Proof.Machine
end

section
/-! PROOFS. The USB service port (O51). -/

namespace Sys2Proof.Machine

section UsbPort
variable {s : State}

/-! ### Standard requests -/

theorem standardRequest_unknown (type value index len : Nat) : ∀ req, req ∉ [0, 1, 3, 5, 6, 8, 9, 10, 11] → s.standardRequest type req value index len = s.stall
  | 0, h | 1, h | 3, h | 5, h | 6, h | 8, h | 9, h | 10, h | 11, h => absurd (by decide) h
  | 2, _ | 4, _ | 7, _ => rfl
  | _ + 12, _ => rfl

theorem usbStandardRequest_run (type req : BitVec 8) (value index len : BitVec 16) (h : s.dieUp = true ∧ s.usb.attached = true) :
    exec (.usbStandardRequest type req value index len) s = ok (s.standardRequest type.toNat req.toNat value.toNat index.toNat len.toNat) := if_pos h

def haltBytes (b : Bool) : Bytes := [if b = true then 1 else 0, 0]

/-- GET_STATUS of the device, the interface and the endpoints (R563). -/
theorem getStatus_facts (len : Nat) : s.usbStatus 0x80 index len = s.answer [1, 0] len ∧ s.usbStatus 0x81 0 len = s.answer [0, 0] len ∧
    s.usbStatus 0x82 0x01 len = s.answer (haltBytes s.usb.halt1) len ∧ s.usbStatus 0x82 0x82 len = s.answer (haltBytes s.usb.halt2) len ∧
    s.usbStatus 0x82 0 len = s.answer [0, 0] len ∧ s.usbStatus 0x82 0x80 len = s.answer [0, 0] len := by
  have bytes (b : Bool) : ([BitVec.ofNat 8 (b2n b), 0] : Bytes) = haltBytes b := by cases b <;> rfl
  rw [← bytes, ← bytes]
  exact ⟨rfl, rfl, rfl, rfl, rfl, rfl⟩

/-- CLEAR_FEATURE and SET_FEATURE of an endpoint's halt (R563). -/
theorem haltFeature_eq (on : Bool) (ep len : Nat) : s.standardRequest 0x02 (if on = true then 3 else 1) 0 ep len = s.setHalt ep on := by
  cases on <;> rfl

theorem getDescriptor_eq (value index len : Nat) (d : Option Bytes) (hd : s.descriptor (value / 256) (value % 256) = d) :
    s.standardRequest 0x80 6 value index len = (d.map fun b => s.answer b len).getD s.stall := by
  subst hd
  unfold State.standardRequest
  dsimp only
  rw [if_pos rfl]
  cases s.descriptor (value / 256) (value % 256) <;> rfl

/-- The configuration of either speed with its interface and endpoints (R563). -/
def configBytes (type : BitVec 8) (high : Bool) : Bytes :=
  [9, type, 32, 0, 1, 1, 0, 0xC0, 0, 9, 4, 0, 0, 2, 0xFF, 0x51, 0x01, 0, 7, 5, 0x01, 2] ++ (if high = true then [0, 2] else [64, 0]) ++
    [0, 7, 5, 0x82, 2] ++ (if high = true then [0, 2] else [64, 0]) ++ [0]

theorem configDescriptor_eq (high : Bool) : configDescriptor 2 high = configBytes 2 high ∧ configDescriptor 7 high = configBytes 7 high := by
  cases high <;> exact ⟨rfl, rfl⟩

/-! ### The port -/

theorem usbServes_iff (d : Dev) : d.usbServes = true ↔ d = .ready ∨ d = .readyDegraded ∨ d = .bedrock ∨ d = .recovery := by
  cases d <;> simp [Dev.usbServes, Dev.inService]

theorem usbBusReset_run (underWay high : Bool) (h : s.dieUp = true ∧ s.usb.attached = true) :
    let u : State := { s with usb := { vbus := s.usb.vbus, attached := true, high := high } }
    exec (.usbBusReset underWay high) s = if underWay = true then ok ((u.record 0x7042 Src.usb).bump 0x49) else ok u :=
  if_neg (by simp [h.1, h.2])

theorem usb_off_iff : (¬ s.dieUp = true ∨ ¬ s.usb.attached = true) ↔ ¬ (s.dieUp = true ∧ s.usb.attached = true) := Classical.not_and_iff_not_or_not.symm

/-! ### Vendor requests that read -/

theorem toNat_zero_iff (x : BitVec 16) : x.toNat = 0 ↔ x = 0 := by
  constructor
  · intro h; exact BitVec.eq_of_toNat_eq h
  · rintro rfl; rfl

theorem stateBytes_eq : s.stateBytes = padTo 16 (natLe 1 s.glbState ++ natLe 1 s.glbCause ++ natLe 1 s.roles.usb ++
    natLe 1 s.start.fails ++ natLe 4 s.glbStart ++ [if s.img.session = none then 0 else 1]) := by
  unfold State.stateBytes
  cases s.img.session <;> rfl

theorem padTo_take (n : Nat) (b : Bytes) : (padTo n b).take n = padTo n b := by
  unfold padTo
  rw [List.take_take, Nat.min_self]

theorem logOpenOk_iff (page : Nat) (index : BitVec 16) (data : Bytes) : let off := leAt data 0 8
    let len := leAt data 8 4
    s.logOpenOk page index.toNat data = true ↔ (pageKnown page = true ∧ (s.dev.minimal = true → page ≤ 5) ∧ index = 0 ∧ data.length = 16 ∧ leAt data 12 4 = 0 ∧ 4 ≤ len ∧
      len ≤ 2 ^ 21 ∧ len % 4 = 0 ∧ off % 4 = 0 ∧ (page = 2 ∨ page = 3 → off % 32 = 0 ∧ len % 32 = 0)) := by
  intro off len
  unfold State.logOpenOk
  simp only [Bool.and_eq_true, Bool.or_eq_true, Bool.not_eq_true', decide_eq_true_eq, toNat_zero_iff, and_assoc, ← not_or, ← Decidable.imp_iff_not_or,
    ← Bool.not_eq_true, ne_eq, off, len]

end UsbPort

/-- Settles O51. -/
theorem usbPort : Obligations.UsbPort := by
  unfold Obligations.UsbPort
  intro s up cut stalled sent serves
  have serving : s.dev.usbServes = true ↔ serves := usbServes_iff s.dev
  refine ⟨fun hu => if_pos (by simp [hu]), fun hu ha hs hz => ?attach, fun hu h => ?powered, fun hu => if_neg (by simp [hu]),
    fun hu => ⟨_, if_pos hu, _, setRole_becomes _ 1 0, rfl⟩, fun underWay high => ⟨fun h => if_pos (usb_off_iff.mpr h), fun h hw => ?reset, fun h hw => ?cutShort⟩,
    fun type req value index len => ?standard, ⟨rfl, ?full, ?other, rfl, rfl⟩, fun value index len => ⟨?state, ?identify, ?status⟩, fun value index data gone => ?log,
    fun value index data raw => ?raw⟩
  case attach => exact (if_neg (Classical.not_not.mpr hu)).trans (if_neg (not_or.mpr ⟨by simp [ha], not_or.mpr ⟨Classical.not_not.mpr (serving.mpr hs), by simp [hz]⟩⟩))
  case powered => exact (if_neg (Classical.not_not.mpr hu)).trans (if_pos (h.imp_right (Or.imp_left (mt serving.mp))))
  case reset => exact (usbBusReset_run underWay high h).trans (if_neg (by simp [hw]))
  case cutShort => exact ⟨_, (usbBusReset_run underWay high h).trans (if_pos hw), _, ⟨_, .refl _, .refl _⟩, _, .refl _, .refl _⟩
  case full => exact congrArg some (configDescriptor_eq s.usb.high).1
  case other => exact congrArg some (configDescriptor_eq (!s.usb.high)).2
  case standard =>
    intro r usb is ans halt
    refine ⟨fun h => if_neg h, fun h => ?_⟩
    have run : r = ok (s.standardRequest type.toNat req.toNat value.toNat index.toNat len.toNat) := usbStandardRequest_run type req value index len h
    have asked {t q : Nat} (k : is t q) : r = ok (s.standardRequest t q value.toNat index.toNat len.toNat) := by rw [run, k.1, k.2]
    obtain ⟨device, interface, out1, in2, zeroOut, zeroIn⟩ := getStatus_facts (s := s) len.toNat
    refine ⟨fun k => (asked k).trans (congrArg ok device), fun k hi => ?_, fun k hi => ?_, fun k hi => ?_, fun k hi => ?_, fun on k hv => ?_, fun k hv high => ?_, fun k small => ?_,
      fun k b hb => ?_, fun k none => ?_, fun k => ?_, fun k small => ?_, fun k hi hc => ?_, fun k hi hv hc => ?_, fun unknown => ?_⟩
    · subst hi
      exact (asked k).trans (congrArg ok interface)
    · subst hi
      exact (asked k).trans (congrArg ok out1)
    · subst hi
      exact (asked k).trans (congrArg ok in2)
    · rcases hi with rfl | rfl
      · exact (asked k).trans (congrArg ok zeroOut)
      · exact (asked k).trans (congrArg ok zeroIn)
    · subst hv
      have set (ep : Nat) (hi : index.toNat = ep) : r = ok (s.setHalt ep on) := by
        rw [asked k, hi]
        exact congrArg ok (haltFeature_eq on ep len.toNat)
      exact ⟨fun hi => set 0x01 (by rw [hi]; rfl), fun hi => set 0x82 (by rw [hi]; rfl)⟩
    · subst hv
      refine (asked k).trans (congrArg ok ?_)
      show (if 0 = 0x02 ∧ BitVec.toNat (2 : BitVec 16) = 0 then s.setHalt index.toNat true
        else if 0 = 0 ∧ BitVec.toNat (2 : BitVec 16) = 2 ∧ s.usb.high = true then s else s.stall) = s
      rw [if_neg (by decide), if_pos ⟨rfl, rfl, high⟩]
    · exact (asked k).trans (congrArg ok (if_pos ⟨rfl, small⟩))
    · exact (asked k).trans (congrArg ok (getDescriptor_eq _ _ _ _ hb))
    · exact (asked k).trans (congrArg ok (getDescriptor_eq _ _ _ _ none))
    · refine (asked k).trans (congrArg ok ?_)
      show s.answer [BitVec.ofNat 8 (b2n s.usb.configured)] len.toNat = s.answer [if s.usb.configured = true then 1 else 0] len.toNat
      cases s.usb.configured <;> rfl
    · exact (asked k).trans (congrArg ok (if_pos small))
    · subst hi
      exact (asked k).trans (congrArg ok (if_pos ⟨rfl, rfl, hc⟩))
    · subst hi hv
      exact (asked k).trans (congrArg ok (if_pos ⟨rfl, rfl, rfl, hc⟩))
    · exact run.trans (congrArg ok (standardRequest_unknown _ _ _ _ _ unknown))
  case state =>
    refine vendor_facts (exec_getState ..) (by simp [and_assoc]) fun _ _ _ => congrArg ok ?_
    show cut.emit (.usb (cut.stateBytes.take 16)) = _
    rw [stateBytes_eq, padTo_take]
    rfl
  case identify => exact vendor_facts (exec_getIdentify ..) (by simp [and_assoc]) fun _ _ _ => rfl
  case status => exact vendor_facts (exec_imageStatus ..) (by simp [and_assoc]) fun _ _ _ => rfl
  case log =>
    intro page off len
    refine vendor_facts (exec_logOpen ..) ?_ fun _ _ _ q hq => ?_
    · exact (logOpenOk_iff _ _ _).symm.trans (and_iff_left ⟨rfl, Nat.zero_le _⟩).symm
    · rw [hq]
      rfl
  case raw =>
    intro n e row pages
    refine vendor_facts (f := fun t => (t.queueOp { lun := n, kind := 7, block := row / pages, page := row % pages, cell := lunCell e, cls := 6 }).emit
      (.usb (padTo (lunMain e + lunSpare e) raw))) (exec_rawRead ..) ?_ fun _ _ _ => rfl
    simp only [Bool.and_eq_true, decide_eq_true_eq, and_assoc]
    rfl

end Sys2Proof.Machine
end

section
/-! PROOFS. The vendor requests of the USB port (O52). -/

namespace Sys2Proof.Machine

section UsbRequests
variable {s : State}

/-- A unit of a stream that the port carries (R567). -/
theorem streamUnit_run {chunk : BitVec 32768} {unit left : Nat} (hs : s.usb.stream = some (unit, left)) : exec (.streamUnit chunk) s =
    if ¬ s.dieUp = true ∨ ¬ s.usb.attached = true ∨ ¬ s.usb.configured = true ∨ s.usb.halt1 = true ∨ s.roles.usb = 0 then ok s
    else ok { (s.usbChunk unit (natLe 4096 chunk.toNat)).getD s with
      usb := { ((s.usbChunk unit (natLe 4096 chunk.toNat)).getD s).usb with stream := if left ≤ 1 then none else some (unit + 1, left - 1) } } := by
  show execStreamUnit chunk s = _
  unfold execStreamUnit
  rw [hs]

theorem streamUnit_none {chunk : BitVec 32768} (hs : s.usb.stream = none) : exec (.streamUnit chunk) s = ok s := by
  show execStreamUnit chunk s = _
  unfold execStreamUnit
  rw [hs]

end UsbRequests

/-- Settles O52. Each request runs on the state whose stream has ended (`vendor_facts`). -/
theorem usbRequests : Obligations.UsbRequests := by
  unfold Obligations.UsbRequests
  intro s value index data copies u v stalled installer open_ plain
  have chunked (x : State) (unit : Nat) (b : Bytes) := usbChunk_eq x unit b
  refine ⟨fun len => ?challenge, ?response, ?begin_, ?chunk, ?stream, fun chunk => ?unit, ?commit, ?confirm, vendor_reboot s value index data⟩
  case challenge =>
    have one : v = 1 ↔ value = 1 := ⟨fun h => BitVec.eq_of_toNat_eq h, fun h => congrArg BitVec.toNat h⟩
    have two : v = 2 ↔ value = 2 := ⟨fun h => BitVec.eq_of_toNat_eq h, fun h => congrArg BitVec.toNat h⟩
    refine vendor_facts (exec_challenge ..) (by simp [and_assoc, one, two]) fun _ _ _ => ⟨fun held => ?_, fun free => ?_⟩
    · exact congrArg ok (if_pos (Option.isSome_iff_ne_none.mpr held))
    · obtain ⟨issued, bytes⟩ := issueChal_issued u 1 v
      refine ⟨_, congrArg ok ((if_neg (by rw [show u.holdLeft 1 = none from free]; decide)).trans ?_), _, issued, rfl⟩
      rw [← bytes]
      rfl
  case response =>
    refine vendor_facts (exec_response ..) (by simp [and_assoc]) fun _ _ _ => ⟨fun none => ?_, fun k hk => ⟨fun right => ?_, fun wrong => ?_⟩⟩
    · refine ⟨_, rfl, ?_⟩
      have run : (u.respond 1 data).1 = u.reject 1 (leAt data 4 1) := by
        unfold State.respond
        rw [show u.roles.chal.get? 1 = Option.none from none]
      exact run ▸ reject_rejected u 1 _
    · exact ⟨_, rfl, (respond_right u 1 _ k hk right).1⟩
    · exact ⟨_, rfl, (respond_wrong u 1 _ k hk wrong).1⟩
  case begin_ => exact vendor_facts (exec_imageBegin ..) (by simp [and_assoc, plain, installer]) fun _ _ _ => ⟨_, rfl, beginSession_begun u 1⟩
  case chunk =>
    refine vendor_facts (exec_imageChunk ..) (by simp [and_assoc, installer, v]) fun _ _ good => ?_
    obtain ⟨held, refused⟩ := chunked u v data
    obtain ⟨-, -, size, -⟩ := good
    rw [List.take_of_length_le (by omega)] at held
    exact ⟨fun g hg gate room => congrArg (fun t : Option State => ok (t.getD u.stall)) (held g hg gate room),
      fun none => congrArg (fun t : Option State => ok (t.getD u.stall)) (refused none)⟩
  case stream =>
    refine vendor_facts (exec_imageStream ..) (by simp [and_assoc, installer, v]) fun _ _ _ => ?_
    by_cases none : u.sessionOn 1 = Option.none
    · exact (congrArg ok (if_pos (Option.isNone_iff_eq_none.mpr none))).trans (if_pos none).symm
    · exact (congrArg ok (if_neg (mt Option.isNone_iff_eq_none.mp none))).trans (if_neg none).symm
  case unit =>
    intro bytes carries
    have off : (¬ s.dieUp = true ∨ ¬ s.usb.attached = true ∨ ¬ s.usb.configured = true ∨ s.usb.halt1 = true ∨ s.roles.usb = 0) ↔ ¬ carries := by
      simp only [carries, Classical.not_and_iff_not_or_not, Bool.not_eq_false, installer, Nat.not_le, Nat.lt_one_iff]
    refine ⟨fun stays => ?_, fun carry unit left hs => ⟨_, (streamUnit_run hs).trans (if_neg (fun k => off.mp k carry)), (s.usbChunk unit bytes).getD s, ?_, ?_, rfl⟩⟩
    · cases hs : s.usb.stream with
      | none => exact streamUnit_none hs
      | some p => exact (streamUnit_run hs).trans (if_pos (off.mpr (stays.resolve_left (by simp [hs]))))
    · exact fun g hg gate room => congrArg (fun t : Option State => t.getD s) ((chunked s unit bytes).1 g hg gate room)
    · exact fun none => congrArg (fun t : Option State => t.getD s) ((chunked s unit bytes).2 none)
  case commit =>
    refine vendor_facts (exec_usbImageCommit ..) (by simp [and_assoc, installer]) fun _ _ _ => ?_
    intro len ready
    refine ⟨fun g k => ?_, fun none => ?_⟩
    · obtain ⟨hg, held, total⟩ := k
      obtain ⟨committed, answer⟩ := commitImage_committed u 1 g len copies hg held total
      refine ⟨_, ?_, committed⟩
      dsimp only
      rw [show (s.unstreamed.commitImage 1 (leAt data 0 4) copies).2 = _ from answer]
    · have refused : u.commitImage 1 len copies = (u, Option.none) := by
        refine commitImage_refused ?_
        cases hg : u.sessionOn 1 with
        | none => exact .inl rfl
        | some g => exact .inr ⟨g, rfl, by have := none g; simp only [ready, hg, true_and, not_and] at this; omega⟩
      dsimp only
      rw [show s.unstreamed.commitImage 1 (leAt data 0 4) copies = _ from refused]
      rfl
  case confirm =>
    refine vendor_facts (exec_usbImageConfirm ..) (by simp [and_assoc, plain, installer]) fun _ _ _ => ⟨fun trial => ?_, fun settled => ?_⟩
    · exact ⟨_, congrArg ok (if_pos trial), confirmImage_confirmed u (onTrial_trial trial)⟩
    · exact congrArg ok (if_neg (by rw [show s.unstreamed.onTrial = false from settled]; decide))

end Sys2Proof.Machine
end
